-- ==== Sys2Proof/Word.lean ====
section
/-! DEFINITION. The word types of the block and the fixed counts of Table 1.7 (R51). -/

namespace Sys2Proof

/-- A register, order word, seal word or plinth time value (R445, R460, R120, R53). -/
abbrev Word := BitVec 64

/-- One byte of tile SRAM, of the stack or of host memory. -/
abbrev Byte := BitVec 8

/-- One flit's data bits on the armature network (R83). -/
abbrev Flit := BitVec 128

/-- One flit with its 13 sideband bits (R83). -/
abbrev WireFlit := BitVec 141

/-- Physical tiles (R23). -/
abbrev numTiles : Nat := 1152

/-- Logical tiles (R25). -/
abbrev numLogical : Nat := 1024

/-- Chip-to-chip links (R37). -/
abbrev numLinks : Nat := 48

/-- Memory layers (R33). -/
abbrev numLayers : Nat := 12

/-- Regions (R24). -/
abbrev numRegions : Nat := 16

/-- Thermal sensors (R306). -/
abbrev numSensors : Nat := 4608

/-- Plinth cycles in one beat (R55). -/
abbrev beatCycles : Nat := 8192

/-- Bytes in one tensor block (R120). -/
abbrev blockBytes : Nat := 4096

/-- The hub as an armature endpoint, and the plinth as an event source (R81, R31). -/
abbrev hubEndpoint : Nat := 0x4C0

end Sys2Proof
end

