-- ==== Sys2Proof/Config.lean ====
section
/-! DEFINITION. What one EX4 fixes at manufacture, and the free values: constants without a body,
so that nothing can be proved of the value the spec leaves open. -/

namespace Sys2Proof.Config

/-- The fused 64-bit chip ID (Table 15.7). Assumption 3. -/
opaque chipId : Word

/-- The fused stepping (Table 12.2). Assumption 3. -/
opaque stepping : Byte

/-- The sequencer ROM version (Table 12.2). Assumption 3. -/
opaque seqRom : BitVec 16

/-- The reference signature `i` of a structural segment for this stepping, as the fuse macros
deliver it at S1 (R219, Table 1.5). Assumption 3. -/
opaque signature : Nat → Nat → Word

/-- Output `i` of cross-check segment `g`, as the bytes of its outputs in the order produced with their seal words
(R217), computed without a fault by the sequencer program of the stepping from the operand words (R216). The program
is not in the spec. Assumption 50. -/
opaque segmentOutput (g i : Nat) (words : Nat → Word) : List Byte

/-- Bytes that the march pattern of a structural segment leaves (R220); the spec does not give the pattern.
Assumption 50. -/
opaque marchByte : Nat → Nat → Byte

/-- Words that the march over the seal side array leaves (R219, R220). Assumption 50. -/
opaque marchSeal : Nat → Word

/-- The certificate chain of Ixano at byte `i` of DIGEST.CERT (R377). Assumption 3. -/
opaque certByte : Nat → Byte

/-- A fresh free value: `State.free` counts the values already drawn. It stands for a number that
the spec bounds or leaves open, such as the synchronizer offset of R70. Assumption 4. -/
opaque freeValue : Nat → Word

/-- The content that a near-bank operation leaves at byte `i` of its destination, as a function of
the operation's code and its source blocks; the set of operations is outside the spec (R292), and
the content is undefined after a stop (R294). Assumption 5. -/
opaque nearBankByte : Nat → List (List Byte) → Nat → Byte

/-- What the vector unit adds to two encodings of a format; the spec fixes the order of additions on a collective
channel, not the arithmetic of one (R362, R363). Assumption 51. -/
opaque reduceAdd (fmt a b : Nat) : Nat

/-- The I/O queue pair that takes the cast store's n-th command, which the spec leaves open (R40). Assumption 53. -/
opaque nvmePair : Nat → Nat

/-- The undefined 128-bit SUM of a STATS watch after an overflow (R411). Assumption 6. -/
opaque watchSum : Nat → BitVec 128

/-- The 9-bit SECDED code over TYPE and the data bits of a flit, whose matrix the spec does not give (R83).
Assumption 47. -/
opaque secded : BitVec 2 → Flit → BitVec 9

/-- The 9 check bits of a codeword's 128 data bits in the stack (R285), whose code the spec does not give. Assumption
57. -/
opaque eccCheck : BitVec 128 → BitVec 9

end Sys2Proof.Config
end

