-- ==== Sys2Proof/Syntax.lean ====
section
/-! DEFINITION. The commands of the block: one constructor of `Instr` for each row of
spec/opcode_table.json, with the operands that the row's step takes from outside the state.
The table gives no operand fields; assumption 1 says how these were chosen. -/

namespace Sys2Proof

/-- Master classes of Table 12.9. -/
inductive MasterClass where
  | hostk | hostu | mgmt | sec | tile | peer | debug | fuse
  deriving DecidableEq, Repr

/-- The index of a class in every access table (Table 12.9). -/
def MasterClass.index : MasterClass → Nat
  | .hostk => 0 | .hostu => 1 | .mgmt => 2 | .sec => 3
  | .tile => 4 | .peer => 5 | .debug => 6 | .fuse => 7

/-- Who makes an access: the class, and for HOSTU the PASID that names a partition (R383). -/
structure Requester where
  cls   : MasterClass
  pasid : BitVec 20 := 0
  deriving DecidableEq, Repr

/-- The two masters that own order window slots (R461). -/
inductive OrderMaster where
  | hostk | mgmt
  deriving DecidableEq, Repr

/-- Where an order came from (R460, R464). -/
structure OrderRef where
  master : OrderMaster
  slot   : Nat
  tag    : BitVec 8
  deriving DecidableEq, Repr

/-- A node operation: the node, the map generation it was issued under and its OPERAND (R87). -/
structure NodeOp where
  node    : Nat
  mapgen  : BitVec 16
  operand : BitVec 96
  deriving DecidableEq, Repr

/-- What S0 collects from outside: power good of domains 1 to 25, the PFID straps and the nodes that
do not answer the STATE_READ multicast (Table 14.1). -/
structure S0In where
  powerGood : BitVec 26
  pfid      : BitVec 4
  silent    : List Nat
  deriving DecidableEq, Repr

/-- How the cast store port answers at S1 (R40, R41). -/
inductive StoreProbe where
  | ok | absent | format | tooSmall | timeout
  deriving DecidableEq, Repr

/-- What a cast keeps of one logical tile: the control block of R334, and the blocks copied, as (layer,
block, bytes, seal word), ascending. -/
structure CastMould where
  logical     : Nat
  next        : BitVec 24    -- the cut position
  halted      : Bool
  interrupted : Bool
  sems        : List (Nat × Nat)
  gens        : List (Nat × BitVec 128)
  blocks      : List (Nat × Nat × List Byte × Word)
  deriving DecidableEq, Repr

/-- A cast record in a log (R342): its moulds pause by pause, the last ones being those of the final cut. -/
structure CastRec where
  number : BitVec 32
  full   : Bool
  chip   : Word
  key    : Word
  qBeat  : Nat
  size   : Nat               -- LBAs
  moulds : List CastMould
  lastSeg : Nat := 0         -- the data block at which its final segment starts
  segs    : List (List Byte × Nat) := [] -- its segments in order: the header block, and how many of the moulds follow it
  deriving DecidableEq, Repr

/-- What a cast store that was moved to this chip holds: the record and the superblock copies in use, with the chain
(R274, R342, R354). -/
structure StoreContent where
  record     : List Word
  recordSeq  : Word
  recordChip : Word
  casts      : List CastRec
  castNum    : Word
  storeChip  : Word
  storeKey   : Word
  superSeq   : Word
  logStart   : Nat
  pct        : Option Nat
  deriving DecidableEq, Repr

/-- What S1 collects: whether the fuses read, the store's answer, whether the seal of the copy of the soft-repair
record that was written last verifies, the store's size in 4 KiB LBAs and the two seeds that Ixano draws (R187,
R216). -/
structure S1In where
  fuseOk : Bool
  store  : StoreProbe
  recordOk : Bool
  lbas   : Nat
  seed   : Word
  xseed  : Word
  otherOk : Bool := true        -- the seal of the other record copy verifies (R274)
  superOk : Bool := true        -- the superblock copy last written, and the other one (R274)
  superOtherOk : Bool := true
  moved  : Option StoreContent := none -- the store came from another chip since the last S1 (R354)
  deriving DecidableEq, Repr

/-- What S2 collects: the layers that trained (Table 14.3). -/
structure S2In where
  trained : BitVec 12
  deriving DecidableEq, Repr

/-- The outcome of training one link: the lanes that passed and the peer's chip number (R433). -/
structure LinkTrain where
  link   : Nat
  laneOk : BitVec 8
  peer   : Option (BitVec 13)
  deriving DecidableEq, Repr

/-- An ELECT advertisement received on a link: best master known to the peer, hops to it, and whether
that chip claims with ROLE = MASTER (R56, R57). -/
structure ElectAdv where
  link   : Nat
  master : Option Word
  hops   : Nat
  forced : Bool
  deriving DecidableEq, Repr

/-- The four timestamps of a TIMEX exchange, the calibrated asymmetry in plinth counts, and the depth
and SKEW_MET that the upstream chip reports (R58, R59). -/
structure TimexIn where
  sent     : Word
  upRecv   : Word
  upSent   : Word
  received : Word
  offsetPs : BitVec 32
  depth    : Nat
  upMet    : Bool
  deriving DecidableEq, Repr

/-- A stream: one source, one destination and one virtual channel (R98), on die or between hubs. -/
inductive StreamId where
  | order (node vc : Nat)
  | report (node vc : Nat)
  | sentinel (chip : BitVec 13) (net : Bool)
  deriving DecidableEq, Repr

/-- The network on which a packet arrives (R82, R86). -/
inductive ArmNet where
  | order | report | sentOrder | sentReport
  deriving DecidableEq, Repr

/-- A packet for an endpoint: its flits with the header as its source wrote it, since routers shift PATH on the way
while the CRC covers it (R84, R88; log entry 45); the flits altered on hops, as (flit, bits inverted) (R83); and, for
a sentinel packet, the link on which it arrives. -/
structure ArmPacket where
  net    : ArmNet
  at_    : Nat
  flits  : List Flit
  hops   : List (Nat × WireFlit) := []
  link   : Nat := 0
  deriving DecidableEq, Repr

/-- What one command of a tile command stream tells Chimin about itself (R32, R186, R348, R373, R394). -/
structure Cmd where
  cseq      : BitVec 24
  layer     : BitVec 16
  oper      : BitVec 16
  creset    : BitVec 16
  computes  : Bool        -- array passes, vector-unit work or both
  nearBank  : Bool        -- issues near-bank commands
  sealedIn  : Bool        -- every operand it reads is a sealed block
  operandBytes : Nat
  canonical : Bool        -- uses a canonical channel
  sample    : Option (BitVec 31)  -- commits a token of this request
  words     : List Byte   -- the command's words, for the program digest
  deriving DecidableEq, Repr

/-- One output block of a command: its format, elements, seal word and who sealed it (unit code). A block
that the vector unit writes to tile SRAM names its place and GEN; its seal word is then formed on the way
(R128). -/
structure OutBlock where
  fmt   : BitVec 4
  elems : List Nat
  sealw : Word
  unit  : Nat
  gen   : BitVec 8 := 0
  dst   : Option Nat := none
  deriving DecidableEq, Repr

/-- How a command's stay on the tile ends at its own last cycle (Table 13.4); INTERRUPTED and STOPPED come
with what stops the stream. `going` is no end: the counts that the command's units have made so far reach the node
(R394), and it goes on. -/
inductive EndKind where
  | done | halted | going
  deriving DecidableEq, Repr

/-- A semaphore wait of a command: the logical tile whose signal ended it, the semaphore and the plinth
cycles waited (Table 13.4). -/
structure SemWait where
  logical : Nat
  sem     : Nat
  cycles  : Nat
  deriving DecidableEq, Repr

/-- The end of a command: how, its output blocks in order, the host bytes it moved, the commands left in the
queue, the cycle in the beat, the tile cycles, bytes and waits that its units counted, the values it left
in semaphores, and the generator entries it set up: entry, and request with position, or none (R348). -/
structure CmdEnd where
  how     : EndKind
  outs    : List OutBlock
  hostIn  : List Byte
  hostOut : List Byte
  queued  : Nat
  cyc     : Nat
  arrayCycles  : Nat
  vectorCycles : Nat
  sramBytes    : Nat
  sliceBytes   : Nat
  stallCycles  : Nat
  waits   : List SemWait
  sems    : List (Nat × Nat)
  gens    : List (Nat × Option (BitVec 31 × BitVec 32))
  ringWaits : List (Nat × Nat) := [] -- waits that no row shows (Table 13.5): the unit, and cause 0 fabric credit or 2 SRAM port
  deriving DecidableEq, Repr

/-- A block of tile SRAM or of a slice (R120, R284). -/
inductive BlockAddr where
  | sram (tile index : Nat)
  | slice (tile layer block : Nat)
  deriving DecidableEq, Repr

/-- What a read's ECC found (R289, R298). -/
inductive EccFinding where
  | clean
  | corrected (codewords : Nat)
  | uncorrectable (codeword : Nat)
  | sealUncorrectable
  deriving DecidableEq, Repr

/-- A verified read: the block, the verifying unit's code, the descriptor's FMT, GEN and GEN_CHECK,
whether the block is a RESEAL source, the bits found altered on the way and what ECC found. -/
structure ReadReq where
  addr     : BlockAddr
  unit     : Nat
  fmt      : BitVec 4
  gen      : BitVec 8
  genCheck : Bool
  reseal   : Option Nat
  toHost   : Bool
  flips    : List (Nat × Byte)
  ecc      : EccFinding
  deriving DecidableEq, Repr

/-- What a read finds on the way: the bits altered, as (byte, bits inverted), and what ECC found. -/
structure Finding where
  flips : List (Nat × Byte) := []
  ecc   : EccFinding := .clean
  deriving DecidableEq, Repr

/-- A pass: formats, scale, generation, the operands of each step as raw encodings, the CANON load if
any, where its output goes in tile SRAM (R136, R137, R144), and the verified reads that brought its operands,
which a rerun makes again (R148). -/
structure PassDesc where
  aFmt    : BitVec 4
  wFmt    : BitVec 4
  outFmt  : BitVec 4
  oscale  : BitVec 8
  gen     : BitVec 8
  acts    : List (List (List Nat))
  weights : List (List (List Nat))
  canon   : Option (List Int)
  outIndex : Nat
  reads   : List ReadReq := []
  deriving DecidableEq, Repr

/-- One operand value that the bus or a latch changed between its verified read and the cells: step, row,
activation or weight, column, and the bits of its encoding that are inverted (R141). -/
structure EntryFault where
  step  : Nat
  row   : Nat
  isAct : Bool
  col   : Nat
  flips : Nat
  deriving DecidableEq, Repr

/-- What a rerun meets before its blocks drain: at each read of an operand and at its second read, and at the entry
checks (R148). -/
structure Rerun where
  reads : List (Finding × Finding) := []
  entry : List EntryFault := []
  deriving DecidableEq, Repr

/-- One output block of a vector-unit sum of CANON blocks: BLOCK, where it goes in tile SRAM, GEN and
the verified input blocks, 256 signed elements each (R152); a sum on a canonical channel takes the contributions that
wait for that channel and block instead (R364). -/
structure CanonSum where
  index    : Nat
  outIndex : Nat
  gen      : BitVec 8
  inputs   : List (List Int)
  channel  : Option Nat := none
  deriving DecidableEq, Repr

/-- What went wrong in hardware while one block drained: accumulator errors and inverted output bits of
rounders A and B, by element index of the pass (R145, R146); `sum` when the block that drains is not
the pass's next one but a vector-unit CANON sum. -/
structure DrainFaults where
  acc : List (Nat × Int)
  ra  : List (Nat × Nat)
  rb  : List (Nat × Nat)
  sum : Option CanonSum := none
  deriving DecidableEq, Repr

/-- Who writes some elements of a sealed block, which gives the class of the new seal (R121, R129): the vector
unit, or a DMA engine with data from host memory or the cast store. -/
inductive PartWriter where
  | vector | dma
  deriving DecidableEq, Repr

/-- A write of some elements of a sealed block: the read that verifies it, what a second read of it finds, the
new elements and their writer (R129). -/
structure PartialWrite where
  read   : ReadReq
  again  : Finding := {}
  elems  : List (Nat × Nat)
  writer : PartWriter
  deriving DecidableEq, Repr

/-- A block's part in a collective channel: channel, its rank among `ranks` contributions, and the SRAM block that the
result takes with its GEN (R361, R362). -/
structure Contribution where
  channel : Nat
  rank    : Nat
  ranks   : Nat
  out     : Nat
  gen     : BitVec 8
  deriving DecidableEq, Repr

/-- One block that a transfer moves: where its sender read it, where it lands, the format its reader
names, its bytes and its seal word; what a second read at its source finds, with the bytes and the seal word
that another chip's memory gives then (R133); and the GEN that the descriptor of the unit verifying it demands, where its
GEN_CHECK is 1 (R124). -/
structure BlockMove where
  src   : BlockAddr
  dst   : BlockAddr
  fmt   : BitVec 4
  bytes : List Byte
  sealw : Word
  again : Finding := {}
  peer  : Option (List Byte × Word) := none
  coll  : Option Contribution := none
  genCheck : Option (BitVec 8) := none
  deriving DecidableEq, Repr

/-- A main-fabric transfer as its sender forms it (R164, R194, R258). -/
structure Xfer where
  id     : Nat
  dests  : List Nat          -- destination logical tiles
  toHost : Bool
  hostAt : Nat := 0          -- the host address to which it writes when `toHost`
  toChip : Option (BitVec 13)
  link   : Nat := 0          -- the link by which it leaves when `toChip` names a chip
  layer  : BitVec 16
  oper   : BitVec 16
  blocks : List BlockMove
  mgen   : BitVec 8 := 0     -- MGEN of its header, which the forming NI fills in (R258)
  subscribed : Bool := false -- SUBSCRIBED in the copy for a maquette source, which the forming NI fills in (R194)
  hosts  : List Nat := []    -- maquette hosts to which the forming NI adds a copy (R194)
  deriving DecidableEq, Repr

/-- A transfer as it arrives at one physical tile: its source tile and, of a multicast, the destination logical
tile of this copy; or data that the tile's DMA engine brings from host memory, with the GEN of its descriptor. -/
structure XferIn where
  src        : Nat
  dest       : Nat
  exempt     : Bool          -- migration or scrub traffic (R260)
  taken      : Bool := false -- the command in progress takes its blocks as operands (R195)
  fromLink   : Option Nat    -- the link by which it came from another chip
  fromHost   : Option (BitVec 8) := none -- GEN of the seals that the DMA engine makes (R128)
  x          : Xfer
  deriving DecidableEq, Repr

/-- A maquette result record: seal words of the output blocks, the unit that made each, and the
output digest (R199). -/
structure MaqRecord where
  seals  : List Word
  units  : List Nat
  digest : Word
  deriving DecidableEq, Repr

/-- The seal word of a block that an ordinary write carries: a copy brings its own with the format it was written
in (R123), and data from host memory or the cast store has none, so that the writing DMA engine makes one from the
format and GEN of its descriptor (R124, R128). -/
inductive WriteSeal where
  | copied (fmt : BitVec 4) (sealw : Word)
  | stored (fmt : BitVec 4) (gen : BitVec 8)
  deriving DecidableEq, Repr

/-- What reaches a layer: an ordinary read, or an ordinary write of a whole block (R290). -/
inductive AccessKind where
  | read
  | write (bytes : List Byte) (from_ : WriteSeal)
  deriving DecidableEq, Repr

/-- An access to the stack: master, slice, layer, block and what ECC found if it is a read. -/
structure StackAcc where
  req   : Requester
  tile  : Nat
  layer : Nat
  block : Nat
  kind  : AccessKind
  ecc   : EccFinding
  external : Bool            -- arrives from the host interface or a link (R339)
  reader : Option Nat        -- the tile whose DMA engine or NI makes it (R164)
  chip   : Option (BitVec 13) := none -- the chip for which a link makes it (R164)
  deriving DecidableEq, Repr

/-- A near-bank command: its operation code, sources, destination and layer (R291). -/
structure NearBank where
  op    : Nat
  layer : Nat
  srcs  : List Nat
  dst   : Nat
  gen   : BitVec 8
  deriving DecidableEq, Repr

/-- How a segment went on its tile: the outputs of a cross-check that a fault altered, as (value, byte, bits
inverted), the signatures that differ, as (value, bits inverted), the first 4 KiB block at which a march failed
(R217, R219), and the cycles and bytes that its units counted (Table 13.1). -/
structure SegResult where
  seg   : Nat
  flips : List (Nat × Nat × Byte) := []
  wrong : List (Nat × Word) := []
  march : Option Nat := none
  arrayCycles  : Nat := 0
  vectorCycles : Nat := 0
  sramBytes    : Nat := 0
  sliceBytes   : Nat := 0
  deriving DecidableEq, Repr

/-- How a dump ends (R418). -/
inductive DumpEnd where
  | done | truncated (section_ : Nat) | error
  deriving DecidableEq, Repr

/-- Reasons for which the mirror part of a cast or a binding changes (Table 11.6). -/
inductive MirrorReason where
  | unreachable | partnerStore | mirrorFull
  deriving DecidableEq, Repr

/-- What the partner's hub answers to PARTNER_BIND: its PFID, whether it already receives a mirror, and
whether it has a mirror area (R345). `none` is no answer. -/
structure PartnerAnswer where
  pfid : BitVec 4
  busy : Bool
  area : Bool
  deriving DecidableEq, Repr

/-- What RESTORE's chain walk finds (R350): whether every CRC checks and, for SOURCE PEER, whether the
partner answers, whether its records name the chip whose mirror it holds, and the records, newest first. -/
structure RestoreWalk where
  crcOk   : Bool
  answers : Bool
  chipOk  : Bool
  casts   : List CastRec
  deriving DecidableEq, Repr

/-- One command of the block: one constructor per row of spec/opcode_table.json. -/
inductive Instr where
  -- bring-up (chapter 14)
  /-- PLINTH_POWER_GOOD, R428: the plinth clock starts at time 0, S0 begins and does its work. -/
  | plinthPowerGood (i : S0In)
  /-- WHOLE_CHIP_RESET, R435: everything volatile is lost; S0 begins again. -/
  | wholeChipReset (i : S0In)
  /-- STAGE_S1, R428: S1 ends. -/
  | stageS1 (i : S1In)
  /-- STAGE_S2, R428: S2 ends. -/
  | stageS2 (i : S2In)
  /-- STAGE_S3, R428: S3 ends. -/
  | stageS3
  /-- STAGE_S4, R428: S4 ends and Ready follows. -/
  | stageS4 (links : List LinkTrain)
  /-- STAGE_LIMIT, R428: the current stage reaches its limit. -/
  | stageLimit (i1 : S1In) (i2 : S2In) (links : List LinkTrain)
  /-- FW_READY, R429. -/
  | fwReady (m : Requester) (v : Word)
  -- the beat (chapter 2)
  /-- BEAT_TICK, R55: `energy` is what the region power monitors measured in the beat that ends, as
  (region, µJ) (Table 13.1). -/
  | beatTick (energy : List (Nat × Nat))
  /-- LINEAGE_CLOSING, R163. -/
  | lineageClosing
  /-- ORDER_INTAKE, R65. -/
  | orderIntake
  /-- VERDICT_AGGREGATION, R69: `late` are the nodes whose summary has not come by cycle 4,095. -/
  | verdictAggregation (late : List Nat)
  /-- LATE_SUMMARY, R69: the oldest late summary of tile `t` arrives. -/
  | lateSummary (t : Nat)
  /-- PATINA_UPDATE, R249. -/
  | patinaUpdate
  /-- THERMAL_DECISIONS, R314. -/
  | thermalDecisions
  /-- SENSOR_SAMPLE, R309: sensor `n` delivers a reading in 1/16 °C, or none. -/
  | sensorSample (n : Nat) (reading : Option (BitVec 16))
  /-- COUNTER_SAMPLING, R396. -/
  | counterSampling
  /-- DISPATCH, R66. -/
  | dispatch
  /-- STATUS_POSTING, R456. -/
  | statusPosting
  /-- EVENT_HOST_COPY, R457. -/
  | eventHostCopy
  -- plinth time (chapter 2)
  /-- SYNC_PPS_EDGE, R62, in cycle `cyc` of the beat. -/
  | syncPpsEdge (cyc : Nat)
  /-- PPS_LOST, R63. -/
  | ppsLost
  /-- ELECT, R57: the advertisements of one beat are taken. -/
  | elect (advs : List ElectAdv)
  /-- TIMEX, R58: the beat's exchange, or `none` if it did not complete. -/
  | timex (x : Option TimexIn)
  /-- TIME_ADOPT, R60: the master's time of the tick at which it is adopted. -/
  | timeAdopt (master : Word)
  /-- TIME_MASTER, R61: after the loss of the master this chip has become master. -/
  | timeMaster
  /-- DOMAIN_STOP_DETECT, R73: domain `d` had its last edge at `lastEdge`. -/
  | domainStopDetect (d : Nat) (lastEdge : Word)
  /-- GAP, R73: domain `d` shows its first edge after a stop, in cycle `cyc` of the beat. -/
  | gap (d : Nat) (cyc : Nat)
  -- the armature network (chapter 3)
  /-- PACKET_ARRIVE, R99. -/
  | packetArrive (p : ArmPacket)
  /-- ACK_HELD_TIMER, R100. -/
  | ackHeldTimer (s : StreamId)
  /-- ACK, R101. -/
  | ack (s : StreamId) (xid : BitVec 16)
  /-- ACK_HELD, R101. -/
  | ackHeld (s : StreamId) (xid : BitVec 16)
  /-- RESEND_TIMEOUT, R101. -/
  | resendTimeout (s : StreamId)
  /-- SENTINEL_FORWARD, R110: a sentinel packet arrives on `link`. -/
  | sentinelForward (link : Nat) (flits : List Flit)
  /-- ROUTE_PRIMARY_BACK, R113: route table entry `k`. -/
  | routePrimaryBack (k : Nat)
  -- node operations (Table 3.5)
  /-- FENCE_APPLY, R265. -/
  | fenceApply (o : NodeOp)
  /-- UNFENCE_APPLY, R265. -/
  | unfenceApply (o : NodeOp)
  /-- MAP_COMMIT, R265. -/
  | mapCommit (o : NodeOp)
  /-- MAP_LOAD, R265. -/
  | mapLoad (o : NodeOp) (data : List Flit)
  /-- NI_MAP_APPLY, R257. -/
  | niMapApply (t : Nat)
  /-- NODE_FREEZE, R416. -/
  | nodeFreeze (o : NodeOp)
  /-- PAUSE_STOP, R336. -/
  | pauseStop (o : NodeOp)
  /-- PAUSE_COPY, R336. -/
  | pauseCopy (o : NodeOp)
  /-- RESUME, R336. -/
  | resume (o : NodeOp)
  /-- CHISEL_START_ARM_IDLE, R228. -/
  | chiselStartArmIdle (o : NodeOp)
  /-- CHISEL_START_ARM_FORCED, R228. -/
  | chiselStartArmForced (o : NodeOp)
  /-- CHISEL_START_ARM_WITNESS, R218. -/
  | chiselStartArmWitness (o : NodeOp)
  /-- CHISEL_START_CONTINUE, R236. -/
  | chiselStartContinue (o : NodeOp)
  /-- CHISEL_ABORT_DISARM, R246. -/
  | chiselAbortDisarm (o : NodeOp)
  /-- CHISEL_ABORT_FINISH, R246. -/
  | chiselAbortFinish (o : NodeOp)
  /-- CHISEL_ABORT_ABORT, R246. -/
  | chiselAbortAbort (o : NodeOp)
  /-- SEED_LOAD, R246. -/
  | seedLoad (o : NodeOp)
  /-- MAQ_SET_PAIR_ADD, R211. -/
  | maqSetPairAdd (o : NodeOp)
  /-- MAQ_SET_PAIR_DEL, R211. -/
  | maqSetPairDel (o : NodeOp)
  /-- MAQ_SET_ARM_SOURCE, R211. -/
  | maqSetArmSource (o : NodeOp)
  /-- MAQ_SET_ARM_HOST, R211. -/
  | maqSetArmHost (o : NodeOp)
  /-- MAQ_SET_ARM_REFEREE, R211. -/
  | maqSetArmReferee (o : NodeOp)
  /-- MAQ_SET_END, R211. -/
  | maqSetEnd (o : NodeOp)
  /-- MAQ_SET_SET_RATE, R211. -/
  | maqSetSetRate (o : NodeOp)
  /-- WATCH_SET_ARM, R410. -/
  | watchSetArm (o : NodeOp)
  /-- WATCH_SET_DISARM, R423. -/
  | watchSetDisarm (o : NodeOp)
  /-- NODE_STEP, R413. -/
  | nodeStep (o : NodeOp)
  /-- NODE_RUN, R414. -/
  | nodeRun (o : NodeOp)
  /-- LINEAGE_QUERY, R169. -/
  | lineageQuery (o : NodeOp)
  /-- HANG_READ, R424. -/
  | hangRead (o : NodeOp)
  /-- COUNTER_READ_STANDING, R397. -/
  | counterReadStanding (o : NodeOp)
  /-- COUNTER_READ_STOP, R423. -/
  | counterReadStop (o : NodeOp)
  /-- STATE_READ, R424. -/
  | stateRead (o : NodeOp)
  -- orders (Table 15.11)
  /-- FENCE, R276. -/
  | fence (r : OrderRef) (operand : BitVec 48)
  /-- UNFENCE, R278. -/
  | unfence (r : OrderRef) (operand : BitVec 48)
  /-- PROMOTE, R276. -/
  | promote (r : OrderRef) (operand : BitVec 48)
  /-- CHISEL_NOW, R230. -/
  | chiselNow (r : OrderRef) (operand : BitVec 48)
  /-- CHISEL_DEFER, R231. -/
  | chiselDefer (r : OrderRef) (operand : BitVec 48)
  /-- MAQ_RATE, R192. -/
  | maqRate (r : OrderRef) (operand : BitVec 48)
  /-- CAST, R336. -/
  | cast (r : OrderRef) (operand : BitVec 48)
  /-- RESTORE, R350. -/
  | restore (r : OrderRef) (operand : BitVec 48)
  /-- WATCH_ARM, R410: order 0x09 with MODE other than DISARM. -/
  | watchArm (r : OrderRef) (operand : BitVec 48)
  /-- WATCH_DISARM, R422: order 0x09 with MODE DISARM. -/
  | watchDisarm (r : OrderRef) (operand : BitVec 48)
  /-- STEP, R413. -/
  | stepTile (r : OrderRef) (operand : BitVec 48)
  /-- RUN, R414. -/
  | run (r : OrderRef) (operand : BitVec 48)
  /-- FREEZE, R416. -/
  | freeze (r : OrderRef) (operand : BitVec 48)
  /-- DIGEST_OPEN, R379. -/
  | digestOpen (r : OrderRef) (operand : BitVec 48)
  /-- DIGEST_CLOSE, R379. -/
  | digestClose (r : OrderRef) (operand : BitVec 48)
  /-- REPOSE_ENTER, R439: order 0x0F with WAKE 0. -/
  | reposeEnter (r : OrderRef) (operand : BitVec 48)
  /-- REPOSE_WAKE, R441: order 0x0F with WAKE 1. -/
  | reposeWake (r : OrderRef) (operand : BitVec 48)
  /-- FUSE_COMMIT, R275. -/
  | fuseCommit (r : OrderRef) (operand : BitVec 48)
  /-- PARTNER_BIND, R345: order 0x11 with VALID 1, and the partner's answer. -/
  | partnerBind (r : OrderRef) (operand : BitVec 48) (answer : Option PartnerAnswer)
  /-- PARTNER_UNBIND, R345: order 0x11 with VALID 0. -/
  | partnerUnbind (r : OrderRef) (operand : BitVec 48)
  /-- RELEASE_PARTITION, R279. -/
  | releasePartition (r : OrderRef) (operand : BitVec 48)
  /-- RELEASE_SCRUB_DONE, R279. -/
  | releaseScrubDone
  -- register window (chapter 15)
  /-- ORDER_WINDOW_WRITE, R461: a write of `size` bytes to slot `slot`. -/
  | orderWindowWrite (m : Requester) (slot size : Nat) (v : Word)
  /-- ORDER_RD_WRITE, R467: HOST_RD, or MGMT_RD when `mgmtRing`. -/
  | orderRdWrite (m : Requester) (mgmtRing : Bool) (v : Word)
  /-- EVT_HOST_RD_WRITE, R457. -/
  | evtHostRdWrite (m : Requester) (v : Word)
  /-- EVT_HOST_ENABLE, R459. -/
  | evtHostEnable (m : Requester) (v : Word)
  /-- COUNT_HOST_RD_WRITE, R399. -/
  | countHostRdWrite (m : Requester) (v : Word)
  /-- TRACE_HOST_RD_WRITE, R405. -/
  | traceHostRdWrite (m : Requester) (v : Word)
  /-- RC_READ, R17: a read of `size` bytes at `off` of an RC register. -/
  | rcRead (m : Requester) (page off size : Nat)
  /-- HALF_READ_LATCH, R445: a 4-byte read at `off`. -/
  | halfReadLatch (m : Requester) (page off : Nat)
  /-- W1C_WRITE, R451: a write to PAGE_EVT_PEND of a page. -/
  | w1cWrite (m : Requester) (page : Nat) (v : Word)
  /-- PAGE_LOCK, R18: a write of 1 to PAGE_LOCK of a page. -/
  | pageLock (m : Requester) (page : Nat)
  /-- REGISTER_WRITE, R17: a write of `size` bytes at `off` of a page. -/
  | registerWrite (m : Requester) (page off size : Nat) (v : Word)
  /-- INJECT_ARM, R156. -/
  | injectArm (m : Requester) (v : Word)
  /-- INJECT_DISARM, R156. -/
  | injectDisarm (m : Requester) (v : Word)
  /-- REPORT_ACK, R175. -/
  | reportAck (m : Requester) (v : Word)
  /-- HANG_READ_REQ, R409. -/
  | hangReadReq (m : Requester) (v : Word)
  /-- STATE_READ_REQ, R409. -/
  | stateReadReq (m : Requester) (v : Word)
  /-- DUMP_GO, R418. -/
  | dumpGo (m : Requester) (v : Word)
  /-- DUMP_DONE, R418. -/
  | dumpDone (e : DumpEnd)
  /-- LICENCE_INSTALL, R381. -/
  | licenceInstall (m : Requester) (v : Word)
  /-- LICENCE_VERDICT, R381: whether the signature verifies, or `none` if 125 beats passed. -/
  | licenceVerdict (sigOk : Option Bool)
  /-- RESET_REQ, R436. -/
  | resetReq (m : Requester) (v : Word)
  /-- MR_WRITE, R300: descriptor `k` of a layer. -/
  | mrWrite (m : Requester) (layer k : Nat) (v : Word)
  /-- REENCODE_STEP, R301: the slice of tile `t` re-encodes its next block of `layer`. -/
  | reencodeStep (t layer : Nat)
  /-- WSET_WRITE_VALID, R371. -/
  | wsetWriteValid (m : Requester) (w : Nat) (v : Word)
  /-- WSET_RETIRE, R372. -/
  | wsetRetire (m : Requester) (w : Nat) (v : Word)
  /-- WSET_HASH_DONE, R371: every slice has reported; the blocks were verified in format `fmt`, and `ue`
  lists the (physical tile, block) pairs that read with an uncorrectable error. -/
  | wsetHashDone (w : Nat) (fmt : BitVec 4) (ue : List (Nat × Nat))
  /-- RECORD_READ, R378: a read of `size` bytes at offset `off` of the record window. -/
  | recordRead (m : Requester) (off size : Nat)
  /-- FUSE_PROG_RESULT, R469. -/
  | fuseProgResult (m : Requester) (v : Word)
  /-- TAP_CHM_ADDR, R421. -/
  | tapChmAddr (bits : BitVec 26)
  /-- TAP_CHM_DATA_CAPTURE, R421. -/
  | tapChmDataCapture
  /-- TAP_CHM_DATA_UPDATE, R421. -/
  | tapChmDataUpdate (v : Word)
  /-- MGMT_TIMEOUT, R45: kind of request as in Table 15.17. -/
  | mgmtTimeout (kind : BitVec 8)
  /-- MGMT_BACK, R45. -/
  | mgmtBack
  /-- VOLTAGE_DROOP, R235. -/
  | voltageDroop (region : Nat)
  /-- LINK_DOWN, R434. -/
  | linkDown (link : Nat)
  /-- LINK_RETRAIN, R434: the outcome of this round of retries. -/
  | linkRetrain (links : List LinkTrain)
  -- tiles at work (chapters 4, 5, 6)
  /-- COMMAND_BEGIN, R394: tile `t` begins a command in cycle `cyc`. -/
  | commandBegin (t : Nat) (c : Cmd) (cyc : Nat)
  /-- COMMAND_END, R403. -/
  | commandEnd (t : Nat) (e : CmdEnd)
  /-- PASS_START, R481: a pass starts, with what its entry checks find. -/
  | passStart (t : Nat) (p : PassDesc) (entry : List EntryFault)
  /-- BLOCK_VERDICT, R146: the next block of the pass drains. -/
  | blockVerdict (t : Nat) (f : DrainFaults)
  /-- PASS_RERUN, R148: the failed pass is rerun, with what happens in the rerun: what the reads of its operands
  and their second reads find, the values changed on the way to the cells, and what goes wrong in the drain. -/
  | passRerun (t : Nat) (x : Rerun) (fs : List DrainFaults)
  /-- BLOCK_RELEASE, R158: the next held block leaves as transfer `x`. -/
  | blockRelease (t : Nat) (x : Xfer)
  /-- SEAL_VERIFY_READ, R131. -/
  | sealVerifyRead (t : Nat) (r : ReadReq)
  /-- SEAL_SECOND_READ, R133. -/
  | sealSecondRead (t : Nat) (r : ReadReq)
  /-- PARTIAL_BLOCK_WRITE, R129. -/
  | partialBlockWrite (t : Nat) (w : PartialWrite)
  /-- TRANSFER_SEND, R261. -/
  | transferSend (t : Nat) (x : Xfer)
  /-- TRANSFER_RECEIVE, R260: a transfer or one copy of a multicast arrives at tile `t`. -/
  | transferReceive (t : Nat) (x : XferIn)
  /-- FENCED_ACK, R262: the FENCED acknowledgement of one copy, with its generation. -/
  | fencedAck (t id logical : Nat) (gen : BitVec 16)
  /-- SUBSCRIBED_COPY_DROP, R196: a copy toward the host of session slot `k` is dropped. -/
  | subscribedCopyDrop (k : Nat)
  /-- MAQ_HOST_ASSIGN, R190. -/
  | maqHostAssign
  /-- MAQ_ARM_TIMEOUT, R190. -/
  | maqArmTimeout (k : Nat)
  /-- MAQ_COMPARE, R200: tile `host`, the host of session slot `k`, compares the two records. -/
  | maqCompare (k host : Nat)
  /-- MAQ_DEADLINE, R201. -/
  | maqDeadline (k : Nat)
  /-- MAQ_REFEREE_ASSIGN, R204. -/
  | maqRefereeAssign (k : Nat)
  /-- MAQ_ARBITRATION, R205: tile `referee` of session slot `k` has its record, halted or missed its time. -/
  | maqArbitration (k referee : Nat)
  /-- TAINT_COMPUTATION, R168. -/
  | taintComputation
  /-- TAINT_CLOSURE, R171. -/
  | taintClosure
  /-- TAINT, R174. -/
  | taint
  -- chisel (chapter 7)
  /-- CHISEL_DUE, R227. -/
  | chiselDue (t : Nat)
  /-- CHISEL_FORCED, R228. -/
  | chiselForced (t : Nat)
  /-- CHISEL_READY, R228. -/
  | chiselReady (t : Nat)
  /-- CHISEL_ARM_WAIT, R228. -/
  | chiselArmWait (t : Nat)
  /-- CHISEL_START_SIGNAL, R233. -/
  | chiselStartSignal (t : Nat)
  /-- CHISEL_STARVED, R234. -/
  | chiselStarved (t : Nat)
  /-- TEST_HOLD_DRAINED, R223. -/
  | testHoldDrained (t : Nat)
  /-- SEGMENT_RESULT, R247. -/
  | segmentResult (t : Nat) (r : SegResult)
  /-- WITNESS_WAIT_EXPIRY, R218. -/
  | witnessWaitExpiry (t : Nat)
  /-- CHISEL_LIST_DONE, R236. -/
  | chiselListDone (t : Nat)
  /-- SESSION_MAX_EXPIRY, R236. -/
  | sessionMaxExpiry (t : Nat)
  /-- REINIT_DONE, R239: `stuck` names a unit that could not be reset. -/
  | reinitDone (t : Nat) (stuck : Option Nat)
  -- promotion and repair (chapter 8)
  /-- PROMOTION_SAVE_DONE, R269: the save ended, or timed out. -/
  | promotionSaveDone (logical : Nat) (timedOut : Bool)
  /-- PROMOTION_MIGRATION_DONE, R269, with the uncorrectable words copied. -/
  | promotionMigrationDone (logical : Nat) (uncorr : Nat)
  /-- PROMOTION_RESTORE_DONE, R269. -/
  | promotionRestoreDone (logical : Nat)
  /-- PROMOTE_DONE, R269. -/
  | promoteDone (logical : Nat)
  /-- PROMOTION_RESUME, R272. -/
  | promotionResume (logical : Nat)
  /-- REPAIR_RECORD_WRITE, R274: whether the store accepted the write. -/
  | repairRecordWrite (ok : Bool)
  -- the stack (chapter 9)
  /-- STACK_ACCESS, R290. -/
  | stackAccess (a : StackAcc)
  /-- NEARBANK_COMMAND, R291. -/
  | nearbankCommand (t : Nat) (n : NearBank)
  /-- NEARBANK_COMPLETE, R292: the operation in bank `bank` of `layer` completes after `cycles`. -/
  | nearbankComplete (t layer bank cycles : Nat)
  /-- NB_HUNG, R294. -/
  | nbHung (t layer bank : Nat)
  /-- REFRESH_DUE, R296. -/
  | refreshDue (t layer bank : Nat)
  /-- PATROL_VISIT, R302. -/
  | patrolVisit (t layer block : Nat) (found : EccFinding)
  -- casts and restores (chapter 11)
  /-- CAST_WINDOW_CHECK, R324. -/
  | castWindowCheck
  /-- CAST_WINDOW_TIMEOUT, R356. -/
  | castWindowTimeout
  /-- CAST_QUIESCE, R336: the last READY arrives in cycle `cyc` of the beat. -/
  | castQuiesce (cyc : Nat)
  /-- GATHER_TIMEOUT, R337. -/
  | gatherTimeout
  /-- CAST_COPY_DONE, R336: the last COPIED arrives in cycle `cyc` of the beat. -/
  | castCopyDone (cyc : Nat)
  /-- MOULD_DRAINED, R341: of physical tile `t`. -/
  | mouldDrained (t : Nat)
  /-- CAST_DURABLE, R343. -/
  | castDurable
  /-- CAST_STORE_ERROR, R353. -/
  | castStoreError
  /-- MIRROR_STATE, R347. -/
  | mirrorState (why : MirrorReason)
  /-- MIRROR_SEGMENT_RECEIVE, R346: a segment of chip `chip`, with its blocks. -/
  | mirrorSegmentReceive (chip : BitVec 13) (xid : BitVec 16) (blocks : List (List Byte)) (flushed : Bool)
  /-- RESTORE_VALIDATED, R350. -/
  | restoreValidated (w : RestoreWalk)
  /-- RESTORE_TILE_WRITE, R350. -/
  | restoreTileWrite (logical : Nat)
  /-- RESTORE_DONE, R350. -/
  | restoreDone
  -- digests (chapter 12)
  /-- DIGEST_SETTLING, R375. -/
  | digestSettling (k : Nat)
  /-- DIGEST_SETTLE_EXPIRY, R375. -/
  | digestSettleExpiry (k : Nat)
  /-- DIGEST_READY, R375: the signature that Ixano returns. -/
  | digestReady (k : Nat) (sigR sigS : BitVec 384)
  /-- SIGN_TIMEOUT, R375. -/
  | signTimeout (k : Nat)
  -- counters, trace, Repose, boundary (chapters 13, 14, 15)
  /-- SAMPLE_SET_BUILD, R397: `late` are the nodes whose capture has not come. -/
  | sampleSetBuild (late : List Nat)
  /-- TRACE_DRAIN, R405. -/
  | traceDrain
  /-- REPOSE_GATHER_DONE, R439. -/
  | reposeGatherDone
  /-- WAKE_DONE, R441: the wake ends in cycle `cyc` of the beat. -/
  | wakeDone (cyc : Nat)
  /-- REGION_VOLTAGE_SAMPLE, R233. -/
  | regionVoltageSample (region : Nat) (mv : BitVec 16)
  /-- TRANSFER_COMPLETION, R223: transfer `id` of tile `t` completes. -/
  | transferCompletion (t id : Nat)
  /-- POWER_REMOVED, R52. -/
  | powerRemoved
  /-- MSIX_ENTRY_UNMASK, R39. -/
  | msixEntryUnmask (v : Nat)
  deriving DecidableEq, Repr

end Sys2Proof
end

