-- ==== Sys2Proof/WellFormed.lean ====
section
/-! DEFINITION. Which commands are well formed: every tile, link, layer, region, slot and domain that an
operand names exists on one EX4 (Table 1.7), cycles lie in a beat, and register accesses have a size of
4 or 8 bytes at their natural alignment (R16, R445). A command that is not well formed names nothing
on the chip and is outside what the sender may send (assumption 1). -/

namespace Sys2Proof

/-- A physical tile. -/
def okTile (t : Nat) : Bool := t < numTiles

/-- A memory layer. -/
def okLayer (l : Nat) : Bool := l < numLayers

/-- Banks of a slice part: 16 (R284). -/
def okBank (b : Nat) : Bool := b < 16

/-- A slot of one of the 32-slot tables. -/
def okSlot (k : Nat) : Bool := k < 32

/-- A cycle of the beat. -/
def okCyc (c : Nat) : Bool := c < beatCycles

/-- A register access: size and alignment (R445). -/
def okAccess (page off size : Nat) : Bool :=
  (size == 4 || size == 8) && off % size == 0 && off < 0x1000 && page < 0x1000

/-- The result of training names links of the chip. -/
def okTrain (ls : List LinkTrain) : Bool := ls.all fun l => l.link < numLinks

/-- A block that exists. -/
def BlockAddr.ok : BlockAddr → Bool
  | .sram t i => okTile t && i < 768
  | .slice t l b => okTile t && okLayer l && b < (if l < 8 then 1820 else 1365)

/-- The operands of a node operation. -/
def NodeOp.ok (o : NodeOp) : Bool := okTile o.node

/-- A slot number of a master's part of the order window (R461). -/
def OrderRef.ok (r : OrderRef) : Bool :=
  match r.master with
  | .hostk => r.slot < 56
  | .mgmt => 56 ≤ r.slot && r.slot < 64

/-- A well-formed command. -/
def Instr.wf : Instr → Bool
  | .plinthPowerGood i | .wholeChipReset i => i.silent.all okTile
  | .stageS1 _ | .stageS2 _ | .stageS3 => true
  | .stageS4 ls => okTrain ls
  | .stageLimit _ _ ls => okTrain ls
  | .fwReady _ _ => true
  | .beatTick e => e.all fun x => x.1 < numRegions
  | .lineageClosing | .orderIntake | .patinaUpdate | .thermalDecisions | .counterSampling
  | .dispatch | .statusPosting | .eventHostCopy => true
  | .verdictAggregation late => late.all okTile
  | .lateSummary t => okTile t
  | .sensorSample n _ => n < numSensors
  | .syncPpsEdge c => okCyc c
  | .ppsLost | .timex _ | .timeAdopt _ | .timeMaster => true
  | .elect advs => advs.all fun a => a.link < numLinks
  | .domainStopDetect d _ => 1 ≤ d && d ≤ 25
  | .gap d c => 1 ≤ d && d ≤ 25 && okCyc c
  | .packetArrive p => (okTile p.at_ || p.at_ == hubEndpoint) && !p.flits.isEmpty
  | .ackHeldTimer _ | .ack _ _ | .ackHeld _ _ | .resendTimeout _ => true
  | .sentinelForward n fs => n < numLinks && !fs.isEmpty
  | .routePrimaryBack k => k < 64
  | .fenceApply o | .unfenceApply o | .mapCommit o | .nodeFreeze o | .pauseStop o | .pauseCopy o | .resume o
  | .chiselStartArmIdle o | .chiselStartArmForced o | .chiselStartArmWitness o | .chiselStartContinue o
  | .chiselAbortDisarm o | .chiselAbortFinish o | .chiselAbortAbort o | .seedLoad o | .maqSetPairAdd o
  | .maqSetPairDel o | .maqSetArmSource o | .maqSetArmHost o | .maqSetArmReferee o | .maqSetEnd o
  | .maqSetSetRate o | .watchSetArm o | .watchSetDisarm o | .nodeStep o | .nodeRun o | .lineageQuery o
  | .hangRead o | .counterReadStanding o | .counterReadStop o | .stateRead o => o.ok
  | .mapLoad o _ => o.ok
  | .niMapApply t => okTile t
  | .fence r _ | .unfence r _ | .promote r _ | .chiselNow r _ | .chiselDefer r _ | .maqRate r _ | .cast r _
  | .restore r _ | .watchArm r _ | .watchDisarm r _ | .stepTile r _ | .run r _ | .freeze r _
  | .digestOpen r _ | .digestClose r _ | .reposeEnter r _ | .reposeWake r _ | .fuseCommit r _
  | .partnerUnbind r _ | .releasePartition r _ => r.ok
  | .partnerBind r _ _ => r.ok
  | .releaseScrubDone => true
  | .orderWindowWrite _ slot size _ => slot < 64 && (size == 4 || size == 8)
  | .orderRdWrite _ _ _ | .evtHostRdWrite _ _ | .evtHostEnable _ _ | .countHostRdWrite _ _
  | .traceHostRdWrite _ _ => true
  | .rcRead _ page off size => okAccess page off size
  | .halfReadLatch _ page off => okAccess page off 4
  | .w1cWrite _ page _ | .pageLock _ page => page < 0x1000
  | .registerWrite _ page off size _ => okAccess page off size
  | .injectArm _ _ | .injectDisarm _ _ | .reportAck _ _ | .hangReadReq _ _ | .stateReadReq _ _ | .dumpGo _ _
  | .dumpDone _ | .licenceInstall _ _ | .licenceVerdict _ | .resetReq _ _ => true
  | .mrWrite _ l k _ => 8 ≤ l && okLayer l && k < 8
  | .reencodeStep t l => okTile t && 8 ≤ l && okLayer l
  | .wsetWriteValid _ w _ | .wsetRetire _ w _ => w < 8
  | .wsetHashDone w _ ue => w < 8 && ue.all fun e => okTile e.1
  | .recordRead _ off size => okAccess 0xE (0xE00 + off) size && off < 512
  | .fuseProgResult _ _ | .tapChmAddr _ | .tapChmDataCapture | .tapChmDataUpdate _ | .mgmtTimeout _
  | .mgmtBack => true
  | .voltageDroop g => g < numRegions
  | .linkDown n => n < numLinks
  | .linkRetrain ls => okTrain ls
  | .commandBegin t _ c => okTile t && okCyc c
  | .commandEnd t e => okTile t && okCyc e.cyc && (e.waits.all fun w => w.logical < numLogical && w.sem < 32) &&
      (e.sems.all fun x => x.1 < 32) && e.gens.all fun x => x.1 < 64
  | .passStart t _ _ | .blockVerdict t _ | .passRerun t _ _ | .blockRelease t _ => okTile t
  | .sealVerifyRead t r | .sealSecondRead t r => okTile t && r.addr.ok
  | .partialBlockWrite t w => okTile t && w.read.addr.ok
  | .transferSend t _ | .transferReceive t _ => okTile t
  | .fencedAck t _ l _ => okTile t && l < numLogical
  | .subscribedCopyDrop k => okSlot k
  | .maqHostAssign => true
  | .maqArmTimeout k | .maqDeadline k | .maqRefereeAssign k => okSlot k
  | .maqCompare k t | .maqArbitration k t => okSlot k && okTile t
  | .taintComputation | .taintClosure | .taint => true
  | .chiselDue t | .chiselForced t | .chiselReady t | .chiselArmWait t | .chiselStartSignal t
  | .chiselStarved t | .testHoldDrained t | .witnessWaitExpiry t | .chiselListDone t | .sessionMaxExpiry t
  | .reinitDone t _ => okTile t
  | .segmentResult t r => okTile t && r.seg < 16
  | .promotionSaveDone l _ | .promotionMigrationDone l _ | .promotionRestoreDone l | .promoteDone l
  | .promotionResume l => l < numLogical
  | .repairRecordWrite _ => true
  | .stackAccess a => (BlockAddr.slice a.tile a.layer a.block).ok
  | .nearbankCommand t n => okTile t && okLayer n.layer
  | .nearbankComplete t l b _ | .nbHung t l b | .refreshDue t l b => okTile t && okLayer l && okBank b
  | .patrolVisit t l b _ => (BlockAddr.slice t l b).ok
  | .castWindowCheck | .castWindowTimeout | .gatherTimeout | .castDurable | .castStoreError
  | .mirrorState _ | .mirrorSegmentReceive _ _ _ _ | .restoreValidated _ | .restoreDone => true
  | .castQuiesce c => okCyc c
  | .castCopyDone c => okCyc c
  | .mouldDrained t => okTile t
  | .restoreTileWrite l => l < numLogical
  | .digestSettling k | .digestSettleExpiry k | .digestReady k _ _ | .signTimeout k => k < 16
  | .sampleSetBuild late => late.all okTile
  | .wakeDone c => okCyc c
  | .traceDrain | .reposeGatherDone => true
  | .regionVoltageSample g _ => g < numRegions
  | .transferCompletion t _ => okTile t
  | .powerRemoved => true
  | .msixEntryUnmask v => v < 10

end Sys2Proof
end

