-- ==== Sys2Proof/Machine/Tbl.lean ====
section
/-! DEFINITION. Tables keyed by a number: a list of (key, value) pairs with keys rising and no entry
equal to what an unlisted key reads as, so that equal tables are equal data. Byte memory is such a
table with unlisted bytes reading as zero. -/

namespace Sys2Proof.Machine

/-- A table from numbers to values, listing only the keys whose value differs from the default. -/
abbrev Tbl (α : Type) := List (Nat × α)

/-- The value at key `k`; an unlisted key reads as `d`. -/
def tget {α : Type} (d : α) : Tbl α → Nat → α
  | [], _ => d
  | (k', v) :: m, k => if k' = k then v else tget d m k

/-- Remove key `k`. -/
def terase {α : Type} (m : Tbl α) (k : Nat) : Tbl α := m.filter (fun e => e.1 != k)

/-- Insert `(k, v)` before the first larger key. -/
def tins {α : Type} (k : Nat) (v : α) : Tbl α → Tbl α
  | [] => [(k, v)]
  | (k', v') :: m => if k < k' then (k, v) :: (k', v') :: m else (k', v') :: tins k v m

/-- Write `v` at key `k`, keeping the canonical form: writing the default removes the entry. -/
def tset {α : Type} [DecidableEq α] (d : α) (m : Tbl α) (k : Nat) (v : α) : Tbl α :=
  if v = d then terase m k else tins k v (terase m k)

/-- The canonical form: keys strictly rising, no listed value equal to the default. -/
def Tbl.wf {α : Type} [DecidableEq α] (d : α) : Tbl α → Bool
  | [] => true
  | [(_, v)] => v != d
  | (k, v) :: (k', v') :: m => (v != d) && decide (k < k') && Tbl.wf d ((k', v') :: m)

/-- Byte-addressed memory. -/
abbrev Memory := List Host.Cell

/-- What an unlisted byte reads as: zero, as S2 writes every block of the stack (R288) and a release
scrub or a reinitialized spare leaves tile SRAM; before S2, assumption 9. -/
def Memory.blank : Byte := 0

/-- The byte at an address. -/
def Memory.read (m : Memory) (a : Nat) : Byte := tget Memory.blank m a

/-- Write one byte. -/
def Memory.write (m : Memory) (a : Nat) (b : Byte) : Memory := tset Memory.blank m a b

/-- The cells of consecutive bytes from address `a`, blank ones left out. -/
def Memory.cells : Nat → List Byte → Memory
  | _, [] => []
  | a, b :: bs => if b = Memory.blank then Memory.cells (a + 1) bs else (a, b) :: Memory.cells (a + 1) bs

/-- Write consecutive bytes from address `a`. -/
def Memory.writeBytes (m : Memory) (a : Nat) (bs : List Byte) : Memory :=
  m.filter (fun e => e.1 < a) ++ Memory.cells a bs ++ m.filter (fun e => a + bs.length ≤ e.1)

/-- `n` consecutive bytes from address `a`. -/
def Memory.readBytes (m : Memory) (a : Nat) : Nat → List Byte
  | 0 => []
  | n + 1 => Memory.read m a :: Memory.readBytes m (a + 1) n

/-- Erase the addresses from `a` to `a + n - 1` at once; they read as blank afterwards. -/
def Memory.clear (m : Memory) (a n : Nat) : Memory := m.filter (fun e => e.1 < a || a + n ≤ e.1)

/-- The canonical form of a memory. -/
abbrev Memory.wf (m : Memory) : Bool := Tbl.wf Memory.blank m

/-- Insert into a list sorted by `before`. -/
def insertBy {α : Type} (before : α → α → Bool) (x : α) : List α → List α
  | [] => [x]
  | y :: ys => if before x y then x :: y :: ys else y :: insertBy before x ys

/-- Sort by `before`. -/
def sortBy {α : Type} (before : α → α → Bool) (xs : List α) : List α := xs.foldr (insertBy before) []

end Sys2Proof.Machine
end

