-- ==== Sys2Proof/Machine/State.lean ====
section
/-! DEFINITION. The state of the block: plain data, holding every piece of state the spec gives the
machine. Registers that only store a value live in `regs`, keyed by page and offset (RegMap.lean
gives each its name, access code and reset value); everything else has a field of its own. -/

namespace Sys2Proof.Machine

/-- Severities of an event record (Table 15.9). -/
inductive Severity where
  | info | note | fault | fatal
  deriving DecidableEq, Repr

/-- An event before it takes a SEQ (Table 15.9). -/
structure EvRec where
  time   : Word
  code   : BitVec 16
  source : BitVec 11
  unit   : BitVec 5
  sev    : Severity
  layer  : BitVec 16
  oper   : BitVec 16
  cseq   : BitVec 32
  detail : Word
  deriving DecidableEq, Repr

/-- The packet outstanding on a node's stream to the hub (R98, R101). -/
structure StreamSt where
  xid     : BitVec 16 := 0
  first   : Word := 0               -- first injection
  start   : Word := 0               -- last start of its timer
  resends : Nat := 0
  held    : Bool := false
  acked   : Bool := false
  taken   : Bool := false           -- the hub has applied the summary, whose ACK is still missing
  lost    : Bool := false           -- discarded on its way: only a re-send brings it
  gone    : Bool := false           -- R101: given up after RESEND_LIMIT re-sends
  deriving DecidableEq, Repr

/-- A Palalmux request still unanswered (R45): its kind as in Table 15.17, the beats it has waited, and whether its
time-out has been taken. -/
structure MgmtReq where
  kind   : Nat
  waited : Nat := 0
  lost   : Bool := false
  deriving DecidableEq, Repr

/-- Bring-up, freeze and Repose (chapters 13 and 14). -/
structure Life where
  powered   : Bool := true          -- R52: plinth power; reset: on
  stage     : Nat := 0              -- R428: 0 to 5; reset: S0
  collected : Bool := false         -- S0's work was done (Table 14.1)
  fwReady   : Bool := false         -- R429
  stageBeats : Nat := 0             -- R432: beat ticks of this stage
  allBeats  : Nat := 0              -- R432: beat ticks since S0
  degraded  : Bool := false         -- Table 15.8
  worst     : Nat := 0              -- Table 14.10 RESULT
  powerGood : BitVec 26 := 0        -- Table 14.3, S0
  silent    : List Nat := []        -- nodes that did not answer at S0
  readyBeat : Nat := 0              -- Table 14.10
  frozen    : Bool := false         -- R416
  freezeTime : Word := 0            -- R419
  shutdown  : Bool := false         -- R320
  freezePending : Bool := false     -- R416: FREEZE dispatched in this beat
  freezeReason  : BitVec 32 := 0
  shutdownEvent : Option EvRec := none -- R320: decided in this beat
  readOnly  : BitVec 12 := 0        -- R323: layers trained without writes
  repose    : Nat := 0              -- Table 14.11: 0 ACTIVE, 1 ENTERING, 2 REPOSE, 3 WAKING
  reposeBeat : Nat := 0             -- Table 14.11
  reposeStart : Nat := 0            -- beat of dispatch of REPOSE
  reposeOrder : Option Nat := none  -- the REPOSE order in progress
  wakeAt    : Word := 0             -- plinth time at which REPOSE WAKE 1 was dispatched
  lastWake  : Word := 0             -- Table 14.11
  retrain   : Option Nat := none    -- R434: allBeats at the last round of link training
  mgmtOk    : Bool := false         -- Table 15.8
  mgmtReqs  : List MgmtReq := []    -- R45: Palalmux requests still unanswered, the oldest first
  mgmtLostBeat : Nat := 0           -- R45
  grade125  : Bool := false         -- R382
  features  : BitVec 5 := 0         -- FEATURES.IN_FORCE (R381)
  pendingReset : BitVec 5 := 0      -- FEATURES.PENDING_RESET (R382)
  featuresNext : BitVec 5 := 0      -- accepted, in force at the next tick (R381)
  deriving DecidableEq, Repr

/-- Plinth time and synchronization (chapter 2). -/
structure TimeSt where
  time      : Word := 0             -- R53: PLINTH_TIME; reset 0
  phase     : Nat := 0              -- phases of Table 2.1 done in this beat
  slewPend  : Int := 0              -- R58, R62: counts still to slew
  lastSlew  : Nat := 0              -- R53: cycles since the last step of 0 or 2, that step among them
  state     : Nat := 0              -- Table 2.7 STATE: LOCAL
  uplink    : Nat := 0x3F           -- Table 2.7
  depth     : Nat := 0              -- Table 2.7
  skewMet   : Bool := false         -- R59
  ppsLock   : Bool := false         -- R63
  ppsLost   : Bool := false         -- R63
  adopted   : Bool := false         -- Table 2.7
  masterId  : Word := Config.chipId -- Table 2.5: own chip ID
  offset    : BitVec 32 := 0        -- Table 2.5 OFFSET
  good      : Nat := 0              -- R59: beats with the offset within 1 cycle
  missed    : Nat := 0              -- R114: consecutive lost exchanges
  ppsStamp  : Word := 0             -- R62
  ppsSeen   : Bool := false         -- an edge has come since reset
  ppsErr    : BitVec 32 := 0        -- R62
  ppsGood   : Nat := 0              -- R63: consecutive good intervals
  ppsBeats  : Nat := 0              -- R63: elapsed beats since the last edge, or S0
  adoptStep : Word := 0             -- R60
  stopped   : BitVec 26 := 0        -- R73: DOMAIN_STOPPED
  lastEdge  : Tbl Word := []        -- R73: time of a stopped domain's last edge
  ordered   : BitVec 26 := 0        -- R73: stops ordered by Chimin
  lateNow   : Nat := 0              -- R69: late summaries in this beat
  lateOldest : Nat := 0             -- Table 2.4 BEAT_LATE
  ctlInForce : Word := 4            -- R78: SYNC_CTL as of the last election
  masterForced : Bool := false      -- R56: the master claims with ROLE = MASTER
  split     : Option Word := none   -- R56: the master to whom this chip, with ROLE = MASTER, last lost
  masterLost : Bool := false        -- R61: the chip's master is gone, and TIME_MASTER not yet raised
  ppsRate   : Int := 0              -- R62: counts by which a disciplining master slews each interval
  advs      : List ElectAdv := []   -- R57: advertisements received since the last election
  stamps    : Tbl (Option (Word × Word)) := [] -- R70, R71: per domain, plinth cycle and timestamp of its last record
  deriving DecidableEq, Repr

/-- One count of R479: occurrences in a beat and the record of the first. -/
structure BeatCount where
  count : Nat := 0
  first : Option EvRec := none
  deriving DecidableEq, Repr

/-- The event path of the hub (chapter 15). -/
structure EvSt where
  flight  : List (Nat × EvRec) := [] -- R105: the nodes' event queues, (node, record) in order of raising
  stream  : Tbl (Option StreamSt) := [] -- R98: per node, its EVENT stream while the node's oldest record is outstanding
  xids    : Tbl (BitVec 16) := []   -- R103: last XID of each node's EVENT stream
  lastOut : Option (Nat × List WireFlit) := none -- R86: EVENT packet that a node last injected
  queue   : List EvRec := []        -- R456: records that reached the hub in this beat
  store   : Tbl (Option (EvRec × BitVec 28)) := []  -- R456: the 8,192 places, by SEQ mod 8,192
  held    : Nat := 0                -- R456: records not yet copied
  lastSeq : BitVec 28 := 0x0FFF_FFFF -- Table 15.10 LAST_SEQ
  hostWr  : BitVec 32 := 0          -- Table 15.10
  lostNow : Nat := 0                -- R458: dropped since the last EVT_LOST
  lostSerious : Bool := false
  lostSeq : BitVec 28 := 0
  firstFatal : Option (EvRec × BitVec 28) := none -- Table 15.7 FIRST_FATAL
  pend    : Tbl (BitVec 16) := []   -- Table 15.1 PAGE_EVT_PEND, by page
  msixMask : BitVec 10 := 0x3FF     -- R39: masked entries (assumption 8)
  msixPend : BitVec 10 := 0         -- R39
  msixSent : List Nat := []         -- the model's own: vectors of the messages last sent
  denied  : BeatCount := {}         -- ACCESS_DENIED of this beat
  deniedOld : BeatCount := {}       -- the closed count of the beat before
  misuse  : BeatCount := {}         -- WINDOW_MISUSE
  misuseOld : BeatCount := {}
  crc     : BeatCount := {}         -- the hub's own ARM_CRC
  crcOld  : BeatCount := {}
  lastDenied : Word := 0            -- Table 12.15
  deriving DecidableEq, Repr

/-- Order statuses (Table 15.13). -/
inductive Status where
  | ok | accepted | badOperand | stateIllegal | notLicensed | noSpare | outOfWindow | fuseFull
  | cancelled | gatherTimeout | dirtyOverflow | noSpace | storeError | noStore | notFound
  | storeCorrupt | keyMismatch | restoreMismatch | peerUnreachable | partnerBusy | sameFeed
  | mirrorDependent | digestFailed | chipMismatch
  deriving DecidableEq, Repr

/-- An order taken at intake and not yet finally posted. -/
structure OrderRec where
  id       : Nat
  ref      : OrderRef
  word     : Word
  reserved : Nat                    -- R463: status entries still reserved
  turn     : Bool := false          -- its dispatch turn has come
  accepted : Bool := false          -- ACCEPTED was posted
  done     : Option Status := none
  detail   : BitVec 32 := 0         -- Table 15.14
  wait     : Bool := false          -- R475: UNFENCE in a cast pause, applied at resume
  beat     : Nat := 0               -- beat of intake (R355)
  deriving DecidableEq, Repr

/-- The order window (chapter 15). -/
structure OrdSt where
  window  : Tbl Word := []          -- R461: 64 slots
  hostNext : Nat := 0               -- Table 15.16
  mgmtNext : Nat := 56              -- Table 15.16
  hostWr  : BitVec 32 := 0
  mgmtWr  : BitVec 32 := 0
  hostRing : Tbl (Word × Word) := [] -- R464
  mgmtRing : Tbl (Word × Word) := []
  orders  : List OrderRec := []     -- taken, oldest first
  nextId  : Nat := 0
  waiting : List Nat := []          -- R65: slots written since the tick
  deriving DecidableEq, Repr

/-- An armature transaction of the hub toward nodes (R98, R101). -/
structure Outgoing where
  vc      : Nat
  op      : BitVec 8
  operand : BitVec 96
  mapgen  : BitVec 16
  data    : List Flit               -- further body flits of a LOAD
  dests   : BitVec 1152
  left    : BitVec 1152             -- nodes whose ACK is missing
  held    : BitVec 1152             -- nodes that answered ACK_HELD
  xid     : BitVec 16
  sentAt  : Word
  resends : Tbl Nat                 -- per node
  timers  : Tbl (Option Word)       -- R101: last start of a node's timer; sentAt where unlisted
  late    : Bool
  order   : Option Nat              -- the order whose completion waits for it
  gone    : BitVec 1152 := 0        -- R101: nodes given up after RESEND_LIMIT re-sends
  deriving DecidableEq, Repr

/-- A hub-to-hub packet that is outstanding at this hub (R113). -/
structure PeerOut where
  stream  : StreamId
  xid     : BitVec 16
  resends : Nat
  held    : Bool
  start   : Word                    -- R101: last start of its timer
  kind    : Nat := 5                -- HUBMSG or HUBREPLY (Table 3.4)
  body    : List Flit := []
  deriving DecidableEq, Repr

/-- An acknowledgement in an endpoint's queue (R104): the queue (a node, or 0x4C0 plus the quadrant of a hub port),
the stream and XID it answers, whether it is ACK_HELD, and its one flit. -/
structure AckOut where
  port   : Nat
  stream : StreamId
  xid    : BitVec 16
  held   : Bool
  flits  : List WireFlit
  deriving DecidableEq, Repr

/-- The armature network as far as its endpoints see it (chapter 3). -/
structure ArmSt where
  ondieOk : Bool := false           -- Table 3.12
  sent    : List Outgoing := []     -- outstanding, at most one per VC
  queue   : List Outgoing := []     -- R98, R256: waiting for injection
  peers   : List PeerOut := []      -- R113: outstanding packets to peer hubs
  peerWait : List (StreamId × Nat × List Flit) := [] -- R98: messages to peer hubs that wait for their stream: KIND and body
  lastPeer : List (StreamId × BitVec 16) := [] -- R103: last XID sent to a peer hub
  lastSent : List (Nat × BitVec 1152 × BitVec 16) := [] -- R103: per VC, nodes and the last XID that the hub sent them
  acks    : List AckOut := []       -- R104: acknowledgement queues of nodes and hub ports, oldest first
  routes  : Tbl (BitVec 48) := []   -- R89: route words of the nodes, written at S0
  hubOut  : List (Nat × List WireFlit) := [] -- R90: packets that the hub last injected, by the tile of their hub port
  replies : List (Nat × List Flit × StreamSt) := [] -- R98: REPLY messages of the nodes, oldest first: node and body
  replyXids : Tbl (BitVec 16) := [] -- R103: last XID of each node's REPLY stream
  nodeOut : Option (Nat × List WireFlit) := none -- R98: SUMMARY or REPLY packet that a node last injected
  linkOut : List (Nat × List Flit) := [] -- R110: sentinel packets that the hub sent in this beat, by link
  lastXid : List (StreamId × BitVec 16) := [] -- R99: last XID accepted per stream
  inbox   : List (StreamId × BitVec 16) := [] -- R99: accepted packets not yet consumed
  parked  : List (Nat × BitVec 8 × NodeOp × List Flit) := [] -- R100, R264: parked orders, oldest first
  lastAck : Option (StreamId × BitVec 16 × Bool) := none -- R100: acknowledgement last sent; true is ACK_HELD
  lastReply : Option (Nat × List Flit) := none -- R87: body flits of the packets of the reply last sent by a node
  lastForward : Option (Nat × List Flit) := none -- R110: sentinel packet last sent on, with its link
  xid     : BitVec 16 := 0          -- R103: next XID of the hub
  onAlt   : BitVec 64 := 0          -- Table 3.16 ON_ALT
  primLost : BitVec 64 := 0         -- R113: entries on their alternate whose primary's first link was not trained since
  unreachable : List (BitVec 13) := [] -- R113: peer chips given up
  throttled : List Nat := []        -- Table 3.12 NODES_THROTTLED
  flagged  : Nat := 0               -- R106: summaries of this beat with the throttle flag
  dropped  : Nat := 0               -- R106: events dropped, by the summaries of this beat
  lastChange : Word := 0            -- R256: time of the last acknowledgement of a map change
  deriving DecidableEq, Repr

/-- One NI's copy of the map with its vectors and generation (R29, R255). -/
structure NiMap where
  map   : Tbl (BitVec 11) := []     -- R27 where unlisted
  fence : BitVec 1152 := 0
  hold  : BitVec 1024 := 0
  rel   : BitVec 1152 := 0          -- R279: fence bits that a release set
  gen   : BitVec 16 := 0
  deriving DecidableEq, Repr

/-- A promotion in progress or pending (R268 to R272). -/
structure Promotion where
  logical : Nat
  from_   : Nat
  target  : Option Nat
  step    : Nat                     -- 1 to 5; 0 pending for want of a spare
  since   : Nat                     -- beat in which its steps began or resumed
  saved   : Bool                    -- the save finished in time
  uncorr  : Nat
  order   : Option Nat
  kind    : Nat                     -- fence kind (Table 8.4)
  ready   : Bool                    -- the step's end was reported
  fenceBeat : Nat := 0              -- beat of the fence dispatch
  deriving DecidableEq, Repr

/-- A release in progress (R279). -/
structure Release where
  rect    : Nat × Nat × Nat × Nat
  order   : Option Nat
  since   : Nat
  step    : Nat
  fenced  : List Nat                -- tiles whose fence the release set
  deriving DecidableEq, Repr

/-- The hub's map, repairs and promotions (chapter 8). -/
structure MapSt where
  hub     : NiMap := {}             -- the hub's own copy (R282)
  promotions : List Promotion := []
  releases : List Release := []
  table   : List Word := []         -- R273: the repair table
  saveSeq : Word := 0               -- Table 8.13 SAVE_SEQ
  savePending : Bool := false
  saveFailed : Bool := false
  pendFence : List (Nat × Nat) := [] -- R276: (tile, order) waiting for a boundary
  actions : List (Nat × Nat × Nat) := [] -- R253: queued patina actions (tile, old level, new level)
  repairs : List Nat := []          -- R240: tiles whose promotion or fence follows a TILE repair
  commit  : Option (Nat × Nat × Nat) := none -- R275: (order, next entry, committed)
  commitState : Nat := 0            -- Table 15.18 COMMIT
  committed : Nat := 0              -- Table 15.18
  progReq : Bool := false
  progEntry : Word := 0
  progSlot : Nat := 0
  lastError : BitVec 8 := 0
  tempSpan : Word := 0x7FFF_8000_0000_0000
  deriving DecidableEq, Repr

/-- A block in the NI's commit staging (R157, R158). -/
structure Held where
  index    : Nat                    -- block within the pass
  elems    : List Nat
  fmt      : BitVec 4
  sealw    : Word
  passed   : Bool                   -- its verdict is PASS
  pass     : Option Nat := none     -- the pass that made it (PassSt.id); none for a canonical sum
  deriving DecidableEq, Repr

/-- An operand block on its way to a maquette host or staged there: where its sender read it, where it lies at the
source tile, its content, and the layer and operator ID of its transfer (R193 to R197). -/
structure Operand where
  src   : BlockAddr
  dst   : BlockAddr
  bytes : List Byte
  sealw : Word
  layer : BitVec 16
  oper  : BitVec 16
  deriving DecidableEq, Repr

/-- The status of a completed DMA transfer to host memory (R134, R297). -/
inductive DmaStatus where
  | ok | noEcc | error
  deriving DecidableEq, Repr

/-- A failed verdict of a pass's first run, kept for the events of R148. -/
structure Fail where
  code   : BitVec 16
  detail : Word
  inj    : Bool
  deriving DecidableEq, Repr

/-- A pass in the array (R136). -/
structure PassSt where
  id      : Nat                     -- serial number of the pass at its tile
  desc    : PassDesc
  acc     : List Int                -- 4,096 exact accumulators
  states  : List Nat                -- R142 special state per element: 0 none, 1 +Inf, 2 -Inf, 3 NaN
  pred    : List Nat                -- predicted row residues (R140)
  special : Bool
  next    : Nat                     -- next block to drain
  fails   : List Fail
  entry   : Bool                    -- abandoned by an entry check (R149)
  ctl     : Word                    -- SEAL_CTL as in force when the pass began (R155)
  rel     : List Nat                -- blocks already released (R160)
  deriving DecidableEq, Repr

/-- The open lineage record of a node (Table 5.1). -/
structure LinOpen where
  host   : Bool := false
  peer   : Bool := false
  dreg   : BitVec 16 := 0
  dcount : Nat := 0
  ncmd   : Nat := 0
  nblk   : Nat := 0
  first  : Option (BitVec 16 × BitVec 16 × BitVec 24) := none
  chip   : Option (BitVec 13) := none
  chips  : Bool := false            -- more than one distinct chip
  counted : Option (BitVec 16 × BitVec 16 × BitVec 24) := none -- the last command counted in NCMD
  deriving DecidableEq, Repr

/-- What a node counts for its next summary (Table 8.2). -/
structure Summary where
  beat    : Nat := 0
  throttle : Bool := false
  due     : Bool := false
  evdrop  : Nat := 0
  eccCorr : Nat := 0
  eccUncorr : Nat := 0
  sealFault : Nat := 0
  sealInj : Nat := 0
  droop   : Nat := 0
  passes  : Nat := 0
  maqOut  : Nat := 0                -- 0 none, 1 AGREE, 2 DISAGREE, 3 ABANDONED
  maqReason : Nat := 0
  maqSlot : Nat := 0
  maqPartner : Nat := 0
  maqCseq : BitVec 24 := 0
  halted  : Bool := false
  gen     : BitVec 16 := 0
  st      : StreamSt := {}          -- R98: the packet that carries it
  deriving DecidableEq, Repr

/-- A contribution that waits in SRAM block `at_` for its turn on a collective channel (R362). -/
structure Waiting where
  channel : Nat
  rank    : Nat
  ranks   : Nat
  out     : Nat
  gen     : BitVec 8
  fmt     : BitVec 4
  at_     : Nat
  deriving DecidableEq, Repr

/-- The control state of a tile that a cast captures (R334). -/
structure CutState where
  next        : BitVec 24
  halted      : Bool
  interrupted : Bool
  sems        : Tbl Nat
  gens        : Tbl (BitVec 128)
  deriving DecidableEq, Repr

/-- A tile's command stream, array, NI and node (chapters 2 to 6, 13). -/
structure Core where
  cur     : Option Cmd := none      -- the command in progress
  curTime : Word := 0              -- plinth time of its first tile cycle
  last    : Option (BitVec 16 × BitVec 16 × BitVec 24) := none -- R396 tag
  prev    : Option (BitVec 16 × BitVec 16 × BitVec 24) := none -- the closing command of R396
  resetAt : Option (Word × BitVec 16) := none -- R394: a reset not yet applied at the node
  queued  : Nat := 0                -- commands waiting in the stream
  next    : BitVec 24 := 0xFF_FFFF  -- next command's sequence, all ones if none
  halted  : Bool := false           -- R135
  sealHalt : Bool := false          -- HALTED by a seal failure (Table 4.10 SEAL_STATUS)
  interrupted : Bool := false       -- R266
  stepping : Bool := false          -- R413
  stepOn  : Bool := false           -- a STEP is in force
  stepLeft : Nat := 0
  stepOrders : List Nat := []       -- STEP orders that complete when the tile stops
  castStop : Bool := false          -- R336: gathered or paused
  chiselStop : Bool := false        -- R237: stopped at the boundary
  fenceStop : Bool := false         -- Table 8.4
  sems    : Tbl Nat := []           -- R334: 32 semaphores
  gens    : Tbl (BitVec 128) := []  -- R348: 64 generator entries
  cut     : Option CutState := none -- R334: control state captured when the tile stopped for a cast
  resumeDue : Bool := false         -- R338: RESUME came while the region or stack interface domain was stopped
  xfers   : List Xfer := []         -- incomplete transfers of NI and DMA engine (R223)
  stalled : List (Nat × Nat × Xfer) := [] -- R223, R262: (destination, generation awaited, transfer)
  -- R261: FENCED completions for the runtime: command, transfer and destination logical tile, oldest first
  fencedDone : List (Option (BitVec 16 × BitVec 16 × BitVec 24) × Nat × Nat) := []
  acksDue : List (Nat × Nat × BitVec 16) := [] -- R259: FENCED answers on their way to its NI: transfer, destination, generation
  hostDma : Option DmaStatus := none -- R134: status of the last DMA completion toward host memory
  pass    : Option PassSt := none
  passNo  : Nat := 0                -- passes started
  mirrorQ : List Operand := []      -- R196: the NI's mirror queue, at most 8 blocks
  mirrored : List (BlockAddr × Word) := [] -- R193, R195: blocks, by place and seal word, already sent to the host
  subscribed : List Operand := []   -- R194: blocks that came with the SUBSCRIBED flag since the pairing; their content is not kept
  staging : List Held := []         -- R158: commit staging, at most 16 blocks
  expect  : Option ReadReq := none  -- R133: a second read is awaited
  retryXor : Option (BitVec 31) := none -- the first read's residue difference
  retryInj : Option Nat := none     -- R156: the bit that an injection inverts in both reads
  spBeat  : Nat := 0                -- R142: beat + 1 of the tile's last SEAL_SPECIAL (INFO)
  counters : Tbl (BitVec 48) := []  -- Table 13.1
  peakSet : Bool := false           -- PEAK_TEMP holds a reading
  unreported : Bool := false        -- the counts of a command that something stopped are still to come (COMMAND_END)
  beatWork : Nat := 0               -- counts 0 to 3 of the open beat, together
  capture : Tbl (BitVec 48) := []   -- the last capture at the node
  capTag  : BitVec 64 := 0          -- its tag and flags (SAMPLE_TAG layout)
  capOld  : Tbl (BitVec 48) := []   -- R397: the capture before it, while its set is not built
  capOldTag : BitVec 64 := 0
  standing : Bool := false          -- R397
  stackSample : Nat := 0            -- Table 13.17 STACK_WR
  stackTrace : Nat := 0
  traceQ  : List (List Byte) := []  -- R405: up to 64 records
  traceDrop : Nat := 0
  crc     : BeatCount := {}         -- ARM_CRC of this node (R479)
  crcOld  : BeatCount := {}
  sum     : Summary := {}           -- counts of the open beat
  sums    : List Summary := []      -- summaries closed and not yet aggregated, oldest first
  lin     : LinOpen := {}
  linNext : LinOpen := {}           -- R164: entries of the new beat while the record of the old one is still open
  linRecs : List (Nat × BitVec 128) := [] -- R163: closed records, newest first, at most 64
  query   : Option (BitVec 16 × Nat × Nat) := none -- R169: parked query (REPORT_ID, FROM_BEAT) and the beat of its arrival
  captured : Option (Nat × List (Nat × BitVec 128)) := none -- R169: (C, records)
  ni      : NiMap := {}             -- R255
  niPend  : List (BitVec 8 × BitVec 96) := [] -- R257: changes not yet applied by the NI, oldest first
  nodeGen : BitVec 16 := 0          -- R264: generation of the node, which its NI follows
  router  : Bool := false           -- R257, R259: the fence bit of the tile in its own node; the local port is closed
  loadBuf : NiMap := {}             -- R265: MAP_LOAD state not yet installed
  sumXid  : BitVec 16 := 0          -- R103: last XID of the node's SUMMARY stream
  dhash   : Tbl (List Byte × List Byte × List Byte) := [] -- R373: committed program, input and output bytes per slot
  watch   : Tbl (BitVec 2 × BitVec 16 × BitVec 16) := [] -- R410: (MODE, LAYER, OPER) per armed slot
  watchHit : List Nat := []         -- R410: slots that cover the command in progress
  frozen  : Bool := false           -- R416
  coll    : List Waiting := []      -- R362: contributions waiting in SRAM, in order of arrival
  latch   : List (List Nat) := []   -- R224: the weight set latched last, as raw encodings
  drains  : List (BitVec 96) := []  -- R223: OPERANDs of test holds to which its node still owes the drain REPLY
  deriving DecidableEq, Repr

/-- A tile's maquette state (chapter 6). -/
structure MaqTile where
  config  : Nat := 0                -- Table 6.10 CONFIG
  raised  : Bool := false           -- R188
  winExp  : Option Nat := none      -- exponent of the window in progress; none before the first eligible command
  winSeed : Word := 0               -- R187: SEED as the window began
  win     : Nat := 0                -- window number w
  count   : Nat := 0                -- eligible commands counted in the window
  due     : Option Nat := none      -- R190: beat of an unassigned DUE
  role    : Nat := 0                -- Table 6.10 ROLE
  partner : Nat := 0
  slot    : Nat := 0
  counts  : Word := 0               -- Table 6.10 MAQ_COUNTS
  pairs   : Tbl (Nat × Nat × Nat) := [] -- R211: 32 pairing entries (host, source logical, source)
  eligible : Bool := false          -- R182, judged at the last patina update
  descr   : Option Cmd := none      -- R193: the sampled command's descriptor, at a host or referee
  begun   : Bool := false           -- R198: the host or referee has started its run
  staged  : List Operand := []      -- R197, R204: operands staged in the slice of a host or referee
  deriving DecidableEq, Repr

/-- What a tile's node keeps of its chisel session: the fields of CHISEL_START, SEED_LOAD and CHISEL_ABORT that
reached it (Table 7.17). -/
structure ChiselNode where
  arm     : Nat := 0                -- R246: 0 none, 1 ARM_IDLE, 2 ARM_FORCED, 3 ARM_WITNESS
  slot    : Nat := 0
  partner : Nat := 0
  units   : BitVec 16 := 0
  session : BitVec 32 := 0
  segs    : BitVec 16 := 0          -- segments still to run; the lowest runs
  seed    : Word := 0
  segBeat : Nat := 0                -- beat in which the running segment began
  finish  : Nat := 0                -- 0 none, 1 FINISH, 2 ABORT: it reinitializes its tile
  reason  : Nat := 0
  retire  : Bool := false
  rowBad  : BitVec 66 := 0          -- FINISH: rows to add to ROW_BAD
  deriving DecidableEq, Repr

/-- A tile's chisel state (Table 7.6, Table 7.16). -/
structure ChiselTile where
  state   : Nat := 0
  seg     : Nat := 0xF
  cause   : Nat := 0
  forced  : Bool := false
  lastFailed : Bool := false
  slot    : Nat := 0
  units   : BitVec 16 := 0          -- of the current or last session
  dueUnits : BitVec 16 := 0         -- R229: mask of the session that the tile is due for
  deferred : Nat := 0               -- beats counted under R228
  ext     : Nat := 0                -- R231: extension of this due period
  dueBeat : Nat := 0                -- beat in which it became due
  node    : ChiselNode := {}        -- R246
  rowBad  : BitVec 66 := 0          -- Table 7.16
  oldBad  : BitVec 66 := 0          -- R240: ROW_BAD before the REINIT of this session
  oldMap  : Tbl Nat := []           -- R240: the row map before it
  rowMap  : Tbl Nat := []           -- R143: physical row of a logical row; the row itself where unlisted
  lastPass : Tbl Nat := []          -- R239: beat + 1 of the last passing session of unit u
  lastEnd : Nat := 0                -- beat in which the last session ended
  ended   : Bool := false           -- a session has ended since Ready
  armBeat : Nat := 0
  readyBeat : Nat := 0              -- since when it is READY or WAIT_START
  forcedBeat : Nat := 0
  startBeat : Nat := 0              -- start signal
  startedSlotWait : Bool := false   -- CHISEL_STARVED was raised for want of a slot
  list    : BitVec 16 := 0          -- R233: the final segment list
  got     : BitVec 16 := 0          -- segments of the list whose result has come
  undec   : BitVec 16 := 0          -- R218: segments awaiting a witness
  undecBeat : Tbl Nat := []         -- since which beat, per segment
  passed  : BitVec 16 := 0
  failed  : BitVec 16 := 0
  undone  : BitVec 16 := 0
  voided  : BitVec 16 := 0
  inconcl : Nat := 0
  results : Tbl (List Word) := []   -- values received per segment
  badRows : BitVec 66 := 0          -- failing rows of this session
  badMain : Bool := false           -- the main-phase digest or the common signature failed (R240)
  voidNow : Bool := false           -- the running segment is voided (R235)
  witness : Tbl Nat := []           -- R218: per undecided segment, 1 + the witness armed for it
  abort   : Nat := 0                -- REASON of an abort
  carried : Bool := false           -- R223: it carried a logical tile when it was armed
  saved   : Bool := false           -- its state is in the save area
  fencedIn : Bool := false          -- Table 7.7: it was fenced during the session
  reinit  : Option (Option Nat) := none -- R225: REINIT is done; the unit that it could not reset
  orders  : List Nat := []          -- CHISEL_NOW orders waiting for the end
  wasDue  : Bool := false           -- R231: it was DUE when it was armed
  pend    : Bool := false           -- a SUSPECT session follows the running one
  seed    : Word := 0
  deriving DecidableEq, Repr

/-- A tile's patina and map copies at the hub (chapter 8). -/
structure PatTile where
  acc    : BitVec 32 := 0           -- R248
  level  : Nat := 0                 -- R252
  cause  : Nat := 0                 -- R280
  beat   : Nat := 0
  maqCharge : Nat := 0              -- input 3 of the coming update
  chFail : Nat := 0                 -- input 4
  chIncl : Nat := 0                 -- input 5
  chPass : Bool := false            -- input 8
  sums   : Summary := {}            -- aggregated node inputs of this beat
  hot    : Bool := false            -- input 7
  kind   : Nat := 0                 -- Table 8.14 KIND
  chGen  : BitVec 16 := 0           -- generation of the last change to this tile
  deriving DecidableEq, Repr

/-- The hub's copies of a tile's node values (R471). -/
structure TilePage where
  counters : Tbl (BitVec 48) := []
  tag      : Word := 0
  castTile : Word := 0
  castLast : BitVec 32 := 0
  lineage  : Option (Nat × BitVec 128) := none -- R181: last closed record that is not empty, with its beat
  deriving DecidableEq, Repr

/-- Everything kept for one physical tile. -/
structure Tile where
  core   : Core := {}
  maq    : MaqTile := {}
  chisel : ChiselTile := {}
  pat    : PatTile := {}
  page   : TilePage := {}
  deriving DecidableEq, Repr

/-- A maquette session slot (Table 6.9). -/
structure Session where
  phase   : Nat := 0
  host    : Nat := 0
  source  : Nat := 0
  logical : Nat := 0                -- the source's logical tile
  referee : Option Nat := none
  cmd     : Option Cmd := none
  srcBeat : Nat := 0                -- the sampled command began on the source
  hostBeat : Option Nat := none     -- the host's run began
  refRec  : Option MaqRecord := none
  refBeat : Nat := 0
  endBeat : Option Nat := none      -- the source command ended
  armBeat : Option Nat := none      -- the source was armed
  src     : Option MaqRecord := none
  hostRec : Option MaqRecord := none
  gap     : Bool := false           -- an operand to be mirrored was dropped (R196)
  operands : List (BlockAddr × Word) := [] -- blocks that the sampled command has taken, by place and seal word (R196)
  disBeat : Nat := 0                -- the disagreement was aggregated
  closed  : Bool := false           -- R202: PAIR_DEL was sent
  failed  : Nat := 0                -- R211: REASON with which the next dispatch ends it; 0 none
  order   : Nat := 0
  deriving DecidableEq, Repr

/-- Chip-wide maquette state (chapter 6). -/
structure MaqSt where
  sessions : Tbl (Option Session) := [] -- 32 slots
  low      : Bool := false          -- MAQ_HOSTS_LOW is in force
  exp0     : Nat := 9               -- R187: the effective exponent that every tile has at Ready
  deriving DecidableEq, Repr

/-- A stagger slot (Table 7.15). -/
structure Slot where
  role    : Nat                     -- 0 TESTED, 1 PARTNER, 2 WITNESS
  tile    : Nat
  other   : Nat
  session : BitVec 32
  deriving DecidableEq, Repr

/-- Chip-wide chisel state (chapter 7). -/
structure ChiselSt where
  slots   : Tbl (Option Slot) := [] -- 32 slots
  session : BitVec 32 := 0          -- SESSION_NUM
  deriving DecidableEq, Repr

/-- A late detection (R167). -/
structure Detection where
  tile  : Nat
  unit  : Nat
  kind  : Nat                       -- 1 MAQUETTE, 2 CHISEL
  b0    : Nat
  cmd   : Option (BitVec 16 × BitVec 16 × BitVec 24)
  deriving DecidableEq, Repr

/-- One tainted tile of a report (Table 5.6): the beat it was first tainted, its first command, and
whether data left for the host or a peer. -/
structure Tainted where
  f     : Nat
  cmd   : Option (BitVec 16 × BitVec 16 × BitVec 24)
  host  : Bool
  peer  : Bool
  deriving DecidableEq, Repr

/-- A computed taint report (R170 to R174). -/
structure Report where
  id     : BitVec 16
  det    : Detection
  cmin   : Nat
  cmax   : Nat
  exceeded : Bool
  first  : Tbl (Option Nat)         -- per region
  tiles  : Tbl (Option Tainted)     -- tainted tiles
  chip   : Option (BitVec 13)
  chips  : Bool
  deriving DecidableEq, Repr

/-- Containment (chapter 5). -/
structure ContainSt where
  queue    : List Detection := []   -- R168
  running  : Option Detection := none
  ready    : List Report := []      -- computed, not yet published (R175)
  report   : Option Report := none  -- published
  waiting  : Bool := false          -- the published report awaits acknowledgement
  nextId   : BitVec 16 := 1
  disabled : List Nat := []         -- beats at whose tick LINEAGE_EN was 0, newest first, at most 130
  linOn    : Bool := false          -- R163: the open records are being written
  linNow   : Bool := false          -- R163, Table 5.7: lineage is on in this beat, as of its tick
  lastClosed : Option Nat := none   -- R181: beat of the last closed records
  reportCast : Word := 0
  deriving DecidableEq, Repr

/-- One thermal sensor (chapter 10). -/
structure Sensor where
  reading : BitVec 16 := 0x8000     -- last accepted reading
  rate    : BitVec 16 := 0
  fast    : Bool := false
  quiet   : Nat := 0                -- R310
  bad     : Bool := false
  warned  : Bool := false           -- at or above WARN_RATE at the last decision
  history : List (Nat × BitVec 16) := [] -- R311: accepted readings with their beats, newest first
  doubt   : Option (BitVec 16) := none -- R312: a discarded reading awaiting the retry
  missed  : Nat := 0
  recover : Nat := 0
  recLast : Option (BitVec 16) := none
  fresh   : Option (BitVec 16) := none -- reading accepted in this beat
  last    : Option (BitVec 16) := none -- R394: the last accepted reading, kept while the sensor is BAD
  overRun : Nat := 0                -- R319: consecutive readings over the shutdown level
  overFirst : BitVec 16 := 0
  sampled : Option Nat := none      -- beat of the last scheduled sample
  deriving DecidableEq, Repr

/-- One region's throttle (Table 10.11). -/
structure Throttle where
  step     : Nat := 0
  held     : Nat := 0
  rateStep : Option Nat := none     -- beat of the last rate step
  bands    : Tbl Nat := []          -- band per layer
  bandLow  : Tbl Nat := []          -- R318: beats below the lower edge
  refBand  : Tbl Nat := []          -- R318: per layer, the band that its refresh follows
  volt     : BitVec 16 := 0         -- REGION_VOLT
  energy   : BitVec 48 := 0         -- REGION_ENERGY
  deriving DecidableEq, Repr

/-- Sensors and regions (chapter 10). -/
structure ThermSt where
  sensors : Tbl Sensor := []
  regions : Tbl Throttle := []
  windowBy : Tbl Nat := []          -- R326: per layer outside its training window at S2, the sensor that decided
  deriving DecidableEq, Repr

/-- A near-bank operation in progress (R291 to R295). -/
structure NbRun where
  tile : Nat
  cmd  : NearBank
  start : Word                      -- plinth time of its start (R294)
  deriving DecidableEq, Repr

/-- A layer's conversion (R300, R301). -/
structure Convert where
  k     : Nat
  first : Nat
  last  : Nat
  since : Nat
  old   : List Word                 -- the layer's descriptors before the change
  next  : Tbl Nat                   -- per slice, the re-encode pointer
  deriving DecidableEq, Repr

/-- What a request for a block of the stack is for: an access of its own, or a slice access of tile `t`'s units: a
verified read, its second read, a partial write, the sending of a transfer, or the second sending of block `b` of a
received one, whose first check found `first` under an injected bit. -/
inductive StackJob where
  | access
  | read (t : Nat) (r : ReadReq)
  | second (t : Nat) (r : ReadReq)
  | change (t : Nat) (p : PartialWrite)
  | send (t : Nat) (x : Xfer)
  | again (t : Nat) (x : XferIn) (b : BlockMove) (first : Nat) (inj : Option Nat)
  deriving DecidableEq, Repr

/-- A request for a block of the stack that waits, with the access that the stack interface judges. -/
structure StackReq where
  acc : StackAcc
  job : StackJob
  deriving DecidableEq, Repr

/-- The stack and tile SRAM (chapters 4 and 9). -/
structure StackSt where
  mem     : Memory := []            -- the 88 GiB, by slice, layer, block and byte
  bad     : Tbl (Option Nat) := []  -- R269: by flat block number: a codeword whose ECC was left uncorrectable
  -- R285: check store, by flat block number: the content for which the block's check bits were formed; that which
  -- the block holds where unlisted
  check   : Tbl (Option (List Byte)) := []
  seals   : Tbl Word := []          -- side-band seal store; the empty seal word where unlisted
  sram    : Memory := []            -- tile SRAM
  sramSeals : Tbl Word := []        -- the side array of each tile
  -- R222: blocks 768 to 799 of a tile's save area: commit staging, control state, digest states, watch slots
  save    : Tbl Tile := []
  saveSram : Memory := []           -- R222: blocks 0 to 767 of the save areas: the SRAM images
  saveSeals : Tbl Word := []        -- R222: the seal words of the images
  convert : Tbl (Option Convert) := [] -- per layer
  nb      : Tbl (Option NbRun) := []   -- per bank: operation in progress
  waits   : Tbl (List (Nat × StackReq)) := [] -- per bank: ordinary accesses held, with plinth cycles
  refresh : Tbl Nat := []           -- per bank: postponed refreshes
  patrol  : Tbl Nat := []           -- per layer: blocks visited in this pass
  visited : Tbl Bool := []          -- R302: by flat block number: visited in this pass
  patrolFrom : Tbl Nat := []        -- R302: per layer: beat at which this pass began
  dirty   : Tbl Bool := []          -- R332: dirty bits, by flat block number
  heldWrites : List StackAcc := []  -- R339
  holdWaits : List StackReq := []   -- R223: slice requests that wait in their NI behind a hold, oldest first
  stopWaits : List StackReq := []   -- R303: requests that wait for the first edge of a stopped stack interface domain, oldest first
  deriving DecidableEq, Repr

/-- What a mould holds after a copy (R335). -/
structure Mould where
  rec_    : CastMould
  drained : Bool
  deriving DecidableEq, Repr

/-- Cast or restore in progress (chapter 11). -/
structure CastRun where
  number : BitVec 32
  order  : Option Nat
  full   : Bool
  mirror : Bool
  phase  : Nat                      -- 1 WINDOW, 2 GATHER, 3 PAUSE, 4 DRAIN, 5 RESTORE
  index  : Nat := 0                 -- PAUSE_IDX
  since  : Nat := 0                 -- beat the phase began
  deferSince : Option Nat := none   -- beat of the first failed window check of this pause
  gatherAt : Word := 0
  quiesce : Word := 0
  firstQ : Nat := 0                 -- beat of the first Q
  lastQ  : Nat := 0
  final  : Bool := false
  resuming : Bool := false          -- RESUME was sent in this pause
  slowest : Nat := 0x7FF            -- the tile that restarted last
  ready  : List (Nat × Nat) := []   -- (logical tile, dirty count) at Q
  copied : List Nat := []           -- logical tiles copied in this pause
  moulds : List (Nat × Mould) := [] -- by physical tile
  past   : List CastMould := []     -- drained moulds of earlier pauses
  segs   : List Nat := []           -- R342: data blocks where the segments after the first start, newest first
  lbas   : Nat := 0                 -- data blocks of the segments so far
  chain  : List CastRec := []       -- RESTORE: the casts to apply, oldest first
  written : List Nat := []          -- RESTORE: logical tiles written
  waits  : List (Nat × Nat) := []   -- RESTORE: (logical tile, beat of its first failed window)
  deferTiles : Nat := 0
  walked : Bool := false            -- RESTORE: validated
  peer   : Bool := false            -- RESTORE from the partner
  foreign : Bool := false
  peerChip : BitVec 13 := 0         -- PEERCHIP of a RESTORE
  cleared : List (Nat × Nat × Nat) := [] -- R356: logical tile, layer and block of the dirty bits that a copy of this cast cleared
  heads  : List (List Byte × Nat) := [] -- R342: the segment headers so far, oldest first, with their tile counts
  sealWords : List Word := []       -- R342: seal words of the data blocks of the segments before the current one
  deriving DecidableEq, Repr

/-- Mirror data on its way to a chip (R346): the mould of a tile, or 0x7FF for other blocks, and the bytes that the chip
has not acknowledged yet. -/
structure MirrorMsg where
  chip  : BitVec 13
  tile  : Nat
  bytes : List Byte
  deriving DecidableEq, Repr

/-- The NVMe commands that Chimin uses (R40). -/
inductive NvmeOp where
  | read | write | flush
  deriving DecidableEq, Repr

/-- A command on namespace 1: `count` logical blocks from `lba` on. -/
structure NvmeCmd where
  op    : NvmeOp
  lba   : Nat
  count : Nat
  data  : List Byte := []           -- of a write
  deriving DecidableEq, Repr

/-- A queue pair in plinth SRAM (R40): its last 64 entries, newest last; the entry that the next command takes; and
the entry up to which the device has completed. -/
structure NvmePair where
  entries : List NvmeCmd := []
  tail    : Nat := 0
  head    : Nat := 0
  deriving DecidableEq, Repr

/-- Casts, mirror partner and restore (chapter 11). -/
structure CastSt where
  run      : Option CastRun := none
  lastGiven : BitVec 32 := 0        -- R344
  last     : Word := 0              -- LAST_CAST
  lastCut  : Nat := 0
  durable  : List (BitVec 32 × Nat) := [] -- durable casts since reset with the beat of their first Q
  fullNext : Bool := true           -- R333
  partial_ : Bool := false          -- RESTORE_PARTIAL
  storeOk  : Bool := false          -- R41: usable for casts
  storeThere : Bool := false        -- a device answers and takes 4 KiB blocks
  partner  : Nat := 0               -- Table 11.7 STATE
  partnerPfid : BitVec 4 := 0
  partnerChip : BitVec 13 := 0
  mirrorChain : Bool := false       -- R345: the next mirrored cast sends the whole chain
  mirrorIn : Option (BitVec 13) := none
  mirrorOut : List MirrorMsg := []   -- R341, R346: mirror data not yet acknowledged, oldest first
  logSize  : Nat := 0               -- STORE_SPACE
  lastGather : Nat := 0             -- LAST_PAUSE
  lastPause : Nat := 0
  rangesInForce : Tbl Word := []    -- R332: ranges of the last cast
  nvmeAdmin : NvmePair := {}        -- R40: the admin queue pair
  nvme     : List NvmePair := []    -- R40: the 8 I/O queue pairs, once a device has answered
  nvmeCount : Nat := 0              -- commands so far, for the choice of a pair
  deriving DecidableEq, Repr

/-- One copy of the soft-repair record; a blank one is all zero (R274). -/
structure RecordCopy where
  seq     : Word := 0
  chip    : Word := 0
  entries : List Word := []
  sealw   : Word := 0       -- its STORED seal
  deriving DecidableEq, Repr

/-- One copy of the superblock, with the chain that it names (Table 11.1). -/
structure SuperCopy where
  seq   : Word := 0
  chip  : Word := 0
  key   : Word := 0
  pct   : Option Nat := none
  logStart : Nat := 0
  castNum : Word := 0
  casts : List CastRec := []
  deriving DecidableEq, Repr

/-- What survives a whole-chip reset (Table 14.5). Of each pair of copies in the cast store the plain fields hold the
one in use, which was written last. -/
structure NonVol where
  fused    : List Word := []        -- R480: fuse slots used, in order
  halfSlots : Nat := 0              -- slots programmed in part (R480)
  record   : List Word := []        -- R274: soft entries in the store's record
  recordSeq : Word := 0
  recordChip : Word := Config.chipId
  recordSeal : Word := 0    -- R274: the seal of the copy in use
  blank    : Bool := true           -- both record copies are all zero
  recordOther : RecordCopy := {}    -- R274: the other copy
  casts    : List CastRec := []     -- own log, newest first, from the chain's full cast
  castNum  : Word := 0              -- superblock: latest durable cast (LAST_CAST layout)
  storeChip : Word := Config.chipId
  storeKey : Word := 0              -- the superblock's copy; a restore reads each cast's own key
  superSeq : Word := 0              -- R343: the higher SEQ of the superblock pair
  logStart : Nat := 0               -- Table 11.1: the place in the own log where the chain starts
  pct      : Option Nat := none     -- MIRROR_PCT split in the superblock
  superOther : SuperCopy := {}      -- R343: the other copy of the superblock
  lbas     : Nat := 0               -- size of namespace 1
  mirror   : List (BitVec 13 × List (List Byte)) := [] -- mirror area: segments received
  mirrorStart : Nat := 0            -- the place in the mirror area's log where those segments start
  mirrorSeq : Word := 0             -- Table 11.1: the higher SEQ of the mirror area's superblock pair
  pfid     : BitVec 4 := 0xF        -- R49: the straps as last sampled
  deriving DecidableEq, Repr

/-- One digest slot (Table 12.3). -/
structure DigSlot where
  state  : Nat := 0
  reason : Nat := 0
  first  : BitVec 24 := 0
  last   : Option (BitVec 24) := none
  cfg    : Word := 0                -- SLOT_CFG at open
  nonce  : Word := 0
  key    : Word := 0
  root   : List Byte := []
  feats  : BitVec 5 := 0
  opened : Word := 0
  closed : Word := 0
  since  : Nat := 0                 -- beat of entry to SETTLING or SIGNING
  lineage : Bool := true            -- POSTURE: held 1 throughout
  maq    : Bool := true
  chisel : Bool := true
  patina : Bool := true
  maqExp : Nat := 0
  record : List Byte := []          -- 512 bytes when READY
  reads  : BitVec 32 := 0           -- READ_COUNT
  order  : Option Nat := none
  deriving DecidableEq, Repr

/-- One weights set (R370 to R372). -/
structure WSet where
  state  : Nat := 0
  reason : Nat := 0
  tile   : Nat := 0x7FF
  root   : List Byte := []
  word   : Word := 0                -- the definition in force
  deriving DecidableEq, Repr

/-- Digests, weights sets and licences (chapter 12). -/
structure DigestSt where
  slots   : Tbl DigSlot := []
  sets    : Tbl WSet := []
  setNext : Tbl (Option Word) := [] -- WSET writes taking effect at the next tick
  select  : Tbl Nat := []           -- R378: RECORD_SEL per master class, and per partition from 16
  selNext : Tbl (Option Nat) := []  -- R391: RECORD_SEL writes taking effect at the next tick
  licPending : Bool := false
  licTick  : Bool := false          -- INSTALL written, passed to Ixano at the next tick
  licBeat  : Nat := 0               -- R381: beat in which the blob was passed to Ixano
  licBlob  : List Byte := []        -- R381: the blob as passed
  licReason : Nat := 0
  licCount : Nat := 0
  licSerial : BitVec 32 := 0
  deriving DecidableEq, Repr

/-- Counter sampling, trace, debug and dump (chapter 13). -/
structure DebugSt where
  nextSample : Option Nat := none   -- R395
  sampled  : Bool := false          -- a capture of this or the last beat awaits its set
  sampleTime : Word := 0
  sampleBeat : Nat := 0
  linkCap  : List Nat := []         -- R402: link counters captured with the sample, four 48-bit fields each
  older    : Option (Word × Nat × List Nat) := none -- R397: time, beat and link counters of the sample before, while its set is not built
  setSeq   : BitVec 32 := 0         -- COUNT_STATUS: the next sequence
  setsBuilt : Nat := 0
  hostWr   : BitVec 32 := 0
  overThresh : Bool := false
  lateNodes : List Nat := []        -- R397: nodes whose capture was late for its set
  chipSum  : Tbl Word := []
  trBuf    : List Byte := []        -- 4 MiB trace buffer
  trWr     : Word := 0
  trOver   : Bool := false
  trDropNow : Nat := 0
  trDropTile : Nat := 0
  readBuf  : List Byte := []        -- READ_BUF
  readValid : Bool := false
  readBusy : Bool := false
  readReq  : Word := 0
  readEntries : Nat := 0
  rings    : Tbl (List (BitVec 128)) := [] -- R408: hang rings, newest first, at most 64
  watch    : Tbl (Word × List Byte × Option Nat) := [] -- WATCH_STATE, WATCH_RESULT, order
  dumpState : Nat := 0
  dumpBytes : Nat := 0
  tapAddr  : BitVec 26 := 0
  tapDenied : Bool := false
  tapData  : Word := 0
  deriving DecidableEq, Repr

/-- One chip-to-chip link (Table 14.4). -/
structure Link where
  state    : Nat := 0
  width    : Nat := 0
  laneOk   : BitVec 8 := 0
  peer     : Option (BitVec 13) := none
  retrains : Nat := 0
  tx       : BitVec 48 := 0         -- Table 13.18
  rx       : BitVec 48 := 0
  sentTx   : BitVec 48 := 0
  sentRx   : BitVec 48 := 0
  deriving DecidableEq, Repr

/-- Why the block stops. Nothing here stops it: the register window never answers with an error (R446),
every refusal of a stack access is a status (R290), and a command whose occasion does not hold leaves
the state as it is (assumption 2). -/
inductive Fault where
  /-- Raised by nobody in this model; kept so that the type is inhabited. Safe. -/
  | unused
  deriving DecidableEq, Repr

/-- Why a command has no meaning. -/
inductive Refusal where
  /-- A row of the table that the model has not reached. Safe: the model stops. -/
  | notModelled (mnemonic : String)
  deriving DecidableEq, Repr

/-- The state of the block. -/
structure State where
  life    : Life := {}
  time    : TimeSt := {}
  regs    : Tbl Word := []          -- registers as written, by page * 4096 + offset
  force   : Tbl Word := []          -- the same registers as in force since the last beat tick
  therm   : Tbl Word := []          -- the same as in force since the last thermal decision phase
  latches : Tbl (Option (BitVec 32)) := [] -- R77, R445: the upper half latched, per master and register
  data    : Word := 0               -- the model's own: data returned by the last read
  ev      : EvSt := {}
  ord     : OrdSt := {}
  arm     : ArmSt := {}
  map     : MapSt := {}
  tiles   : Tbl Tile := []          -- by physical index
  maq     : MaqSt := {}
  chisel  : ChiselSt := {}
  contain : ContainSt := {}
  heat    : ThermSt := {}
  stack   : StackSt := {}
  cast    : CastSt := {}
  digest  : DigestSt := {}
  dbg     : DebugSt := {}
  links   : Tbl Link := []
  hostMem : Memory := []            -- what Chimin has written to host memory
  fatalN  : Bool := true            -- CHM_FATAL_N, high
  tripN   : Bool := true            -- THERM_TRIP_N, high
  nv      : NonVol := {}
  free    : Nat := 0                -- the model's own: free values drawn so far
  status  : Nat := 0                -- the model's own: status of the last stack access (Table 9.3)
  pending : List Instr := []        -- commands waiting, first in, first out
  deriving DecidableEq, Repr

/-- The machine right after a whole-chip reset: S0 begins at plinth time 0 (R435), and every field
holds the reset value its table gives. -/
def State.reset : State := {}

end Sys2Proof.Machine
end

