-- ==== Sys2Proof/Machine/Operands.lean ====
section
/-! DEFINITION. Bit fields of the 64-bit words that commands carry and registers hold: reading a
field, packing fields, byte order (R16), and the operand tables of the orders (R460). -/

namespace Sys2Proof.Machine

/-- Field [hi:lo] of a word, as a number. -/
def fld (w : Word) (hi lo : Nat) : Nat := (w.toNat >>> lo) % 2 ^ (hi + 1 - lo)

/-- Bit `i` of a word. -/
def bit (w : Word) (i : Nat) : Bool := w.getLsbD i

/-- A Bool as 0 or 1. -/
def b2n (b : Bool) : Nat := if b then 1 else 0

/-- One field of a word to be packed: low bit, width and value; the value is cut to the width. -/
abbrev Fld := Nat × Nat × Nat

/-- The number whose fields are as given. -/
def packNat : List Fld → Nat
  | [] => 0
  | (lo, w, v) :: fs => (v % 2 ^ w) <<< lo ||| packNat fs

/-- The word whose fields are as given; every other bit is 0. -/
def pack (fs : List Fld) : Word := BitVec.ofNat 64 (packNat fs)

/-- Replace field [hi:lo] of a word. -/
def setFld (w : Word) (hi lo v : Nat) : Word :=
  let m : Word := BitVec.ofNat 64 ((2 ^ (hi + 1 - lo) - 1) <<< lo)
  (w &&& ~~~m) ||| (BitVec.ofNat 64 ((v % 2 ^ (hi + 1 - lo)) <<< lo))

/-- A number as a word; bits above 63 are lost. -/
def word (n : Nat) : Word := BitVec.ofNat 64 n

/-- A signed number in 16 bits of two's complement (temperatures and rates, R307). -/
def s16 (v : BitVec 16) : Int := v.toInt

/-- The low `w` bits of a signed number, as a number. -/
def sbits (w : Nat) (v : Int) : Nat := (v % (2 ^ w : Int)).toNat

/-- `n` bytes of a number, least significant first (R16). -/
def leBytes : Nat → Nat → List Byte
  | 0, _ => []
  | n + 1, v => BitVec.ofNat 8 v :: leBytes n (v / 256)

/-- The number whose bytes, least significant first, are given (R16). -/
def leNat : List Byte → Nat
  | [] => 0
  | b :: bs => b.toNat + 256 * leNat bs

/-- Saturating addition in a counter of `w` bits. -/
def satAdd (w a n : Nat) : Nat := min (a + n) (2 ^ w - 1)

/-- The opcode of an order word (R460). -/
def ordOpcode (w : Word) : Nat := fld w 63 56

/-- The TAG of an order word (R460). -/
def ordTag (w : Word) : Nat := fld w 55 48

/-- The order word of an opcode, tag and operand (R460). -/
def ordWord (op : Nat) (tag : BitVec 8) (operand : BitVec 48) : Word :=
  pack [(56, 8, op), (48, 8, tag.toNat), (0, 48, operand.toNat)]

/-- A rectangle of logical tiles in the RECT form of Table 12.4: (LR0, LC0, LR1, LC1). -/
structure Rect where
  r0 : Nat
  c0 : Nat
  r1 : Nat
  c1 : Nat
  deriving DecidableEq, Repr

/-- Read a RECT field whose low bit is `lo` (Table 12.4). -/
def rectOf (w : Word) (lo : Nat) : Rect :=
  { r0 := fld w (lo + 19) (lo + 15), c0 := fld w (lo + 14) (lo + 10)
    r1 := fld w (lo + 9) (lo + 5), c1 := fld w (lo + 4) lo }

/-- A rectangle is well formed when LR0 ≤ LR1 and LC0 ≤ LC1. -/
def Rect.ok (r : Rect) : Bool := r.r0 ≤ r.r1 && r.c0 ≤ r.c1

/-- Logical tile `L` lies in the rectangle; the logical grid has 32 columns (R25). -/
def Rect.has (r : Rect) (l : Nat) : Bool :=
  r.r0 ≤ l / 32 && l / 32 ≤ r.r1 && r.c0 ≤ l % 32 && l % 32 ≤ r.c1

/-- Two rectangles share a tile. -/
def Rect.meets (a b : Rect) : Bool :=
  a.r0 ≤ b.r1 && b.r0 ≤ a.r1 && a.c0 ≤ b.c1 && b.c0 ≤ a.c1

/-- Rectangle `a` lies within `b`. -/
def Rect.within (a b : Rect) : Bool :=
  b.r0 ≤ a.r0 && a.r1 ≤ b.r1 && b.c0 ≤ a.c0 && a.c1 ≤ b.c1

/-- The logical tiles of a rectangle, ascending. -/
def Rect.tiles (r : Rect) : List Nat := (List.range numLogical).filter r.has

/-- Physical row and column of a tile (R22, R23). -/
def rowOf (t : Nat) : Nat := t / 32
def colOf (t : Nat) : Nat := t % 32

/-- Distance of two tiles on the grid, in hops. -/
def gridDist (a b : Nat) : Nat :=
  (max (rowOf a) (rowOf b) - min (rowOf a) (rowOf b)) +
  (max (colOf a) (colOf b) - min (colOf a) (colOf b))

end Sys2Proof.Machine
end

