-- ==== Sys2Proof/Machine/Hash.lean ====
section
/-! DEFINITION. The check functions that the spec names by their algorithm: CRC-32C of an armature packet
(R84), CRC-64 of ECMA-182 (R199), the 64-bit mixer of R187, and SHA-384 (R371 to R376), which the spec
names without describing: its rounds here are those of FIPS 180-4 (PRESUMED, assumption 10). -/

namespace Sys2Proof.Machine

/-- One bit of a reflected CRC over `w` bits. -/
def crcBit {w : Nat} (poly c : BitVec w) : BitVec w :=
  if c.getLsbD 0 then (c >>> 1) ^^^ poly else c >>> 1

/-- One byte of a reflected CRC. -/
def crcByte {w : Nat} (poly c : BitVec w) (b : Byte) : BitVec w :=
  let c := c ^^^ b.setWidth w
  crcBit poly (crcBit poly (crcBit poly (crcBit poly (crcBit poly (crcBit poly (crcBit poly
    (crcBit poly c)))))))

/-- CRC-32C: the Castagnoli polynomial 0x1EDC_6F41 reflected, initial value and final XOR all ones
(R84; the parameters are those the name carries, assumption 10). -/
def crc32c (bs : List Byte) : BitVec 32 :=
  ~~~(bs.foldl (crcByte 0x82F63B78) (BitVec.allOnes 32))

/-- CRC-64 with the ECMA-182 polynomial, reflected, initial value and final XOR all ones (R199). -/
def crc64 (bs : List Byte) : Word :=
  ~~~(bs.foldl (crcByte 0xC96C5795D7870F42) (BitVec.allOnes 64))

/-- The mixer of R187. -/
def mix64 (x : Word) : Word :=
  let x := x + 0x9E3779B97F4A7C15
  let x := (x ^^^ (x >>> 30)) * 0xBF58476D1CE4E5B9
  let x := (x ^^^ (x >>> 27)) * 0x94D049BB133111EB
  x ^^^ (x >>> 31)

/-- The 16 bytes of a flit's data bits (R16). -/
def flitBytes (f : Flit) : List Byte := leBytes 16 f.toNat

/-- CRC-32C of a packet: every data bit of every flit, header bits [31:0] taken as zero (R84). -/
def packetCrc : List Flit → BitVec 32
  | [] => 0
  | h :: body =>
    let h0 : Flit := BitVec.ofNat 128 (h.toNat / 2 ^ 32 * 2 ^ 32)
    crc32c ((h0 :: body).flatMap flitBytes)

/-! ### SHA-384 -/

/-- Round constants of SHA-512. -/
def sha512K0 : List (BitVec 64) := [
  0x428A2F98D728AE22, 0x7137449123EF65CD, 0xB5C0FBCFEC4D3B2F, 0xE9B5DBA58189DBBC,
  0x3956C25BF348B538, 0x59F111F1B605D019, 0x923F82A4AF194F9B, 0xAB1C5ED5DA6D8118,
  0xD807AA98A3030242, 0x12835B0145706FBE, 0x243185BE4EE4B28C, 0x550C7DC3D5FFB4E2,
  0x72BE5D74F27B896F, 0x80DEB1FE3B1696B1, 0x9BDC06A725C71235, 0xC19BF174CF692694,
  0xE49B69C19EF14AD2, 0xEFBE4786384F25E3, 0x0FC19DC68B8CD5B5, 0x240CA1CC77AC9C65]

/-- Round constants of SHA-512. -/
def sha512K1 : List (BitVec 64) := [
  0x2DE92C6F592B0275, 0x4A7484AA6EA6E483, 0x5CB0A9DCBD41FBD4, 0x76F988DA831153B5,
  0x983E5152EE66DFAB, 0xA831C66D2DB43210, 0xB00327C898FB213F, 0xBF597FC7BEEF0EE4,
  0xC6E00BF33DA88FC2, 0xD5A79147930AA725, 0x06CA6351E003826F, 0x142929670A0E6E70,
  0x27B70A8546D22FFC, 0x2E1B21385C26C926, 0x4D2C6DFC5AC42AED, 0x53380D139D95B3DF,
  0x650A73548BAF63DE, 0x766A0ABB3C77B2A8, 0x81C2C92E47EDAEE6, 0x92722C851482353B]

/-- Round constants of SHA-512. -/
def sha512K2 : List (BitVec 64) := [
  0xA2BFE8A14CF10364, 0xA81A664BBC423001, 0xC24B8B70D0F89791, 0xC76C51A30654BE30,
  0xD192E819D6EF5218, 0xD69906245565A910, 0xF40E35855771202A, 0x106AA07032BBD1B8,
  0x19A4C116B8D2D0C8, 0x1E376C085141AB53, 0x2748774CDF8EEB99, 0x34B0BCB5E19B48A8,
  0x391C0CB3C5C95A63, 0x4ED8AA4AE3418ACB, 0x5B9CCA4F7763E373, 0x682E6FF3D6B2B8A3,
  0x748F82EE5DEFB2FC, 0x78A5636F43172F60, 0x84C87814A1F0AB72, 0x8CC702081A6439EC]

/-- Round constants of SHA-512. -/
def sha512K3 : List (BitVec 64) := [
  0x90BEFFFA23631E28, 0xA4506CEBDE82BDE9, 0xBEF9A3F7B2C67915, 0xC67178F2E372532B,
  0xCA273ECEEA26619C, 0xD186B8C721C0C207, 0xEADA7DD6CDE0EB1E, 0xF57D4F7FEE6ED178,
  0x06F067AA72176FBA, 0x0A637DC5A2C898A6, 0x113F9804BEF90DAE, 0x1B710B35131C471B,
  0x28DB77F523047D84, 0x32CAAB7B40C72493, 0x3C9EBE0A15C9BEBC, 0x431D67C49C100D4C,
  0x4CC5D4BECB3E42B6, 0x597F299CFC657E2A, 0x5FCB6FAB3AD6FAEC, 0x6C44198C4A475817]

/-- Initial hash value of SHA-384. -/
def sha384Init : List (BitVec 64) := [
  0xCBBB9D5DC1059ED8, 0x629A292A367CD507, 0x9159015A3070DD17, 0x152FECD8F70E5939,
  0x67332667FFC00B31, 0x8EB44A8768581511, 0xDB0C2E0D64F98FA7, 0x47B5481DBEFA4FA4]

/-- Message schedule, newest word first, extended by `n` words. -/
def shaSched : Nat → List (BitVec 64) → List (BitVec 64)
  | 0, ws => ws
  | n + 1, ws =>
    let s0 (x : BitVec 64) := x.rotateRight 1 ^^^ x.rotateRight 8 ^^^ (x >>> 7)
    let s1 (x : BitVec 64) := x.rotateRight 19 ^^^ x.rotateRight 61 ^^^ (x >>> 6)
    shaSched n ((s1 (ws.getD 1 0) + ws.getD 6 0 + s0 (ws.getD 14 0) + ws.getD 15 0) :: ws)

/-- One round on the eight working words. -/
def shaRound (v : List (BitVec 64)) (kw : BitVec 64 × BitVec 64) : List (BitVec 64) :=
  match v with
  | [a, b, c, d, e, f, g, h] =>
    let t1 := h + (e.rotateRight 14 ^^^ e.rotateRight 18 ^^^ e.rotateRight 41) +
      ((e &&& f) ^^^ (~~~e &&& g)) + kw.1 + kw.2
    let t2 := (a.rotateRight 28 ^^^ a.rotateRight 34 ^^^ a.rotateRight 39) +
      ((a &&& b) ^^^ (a &&& c) ^^^ (b &&& c))
    [t1 + t2, a, b, c, d + t1, e, f, g]
  | v => v

/-- A big-endian 64-bit word of 8 bytes. -/
def beWord (bs : List Byte) : BitVec 64 := BitVec.ofNat 64 (bs.foldl (fun a b => a * 256 + b.toNat) 0)

/-- The 8 big-endian bytes of a word. -/
def beBytes (w : BitVec 64) : List Byte := (leBytes 8 w.toNat).reverse

/-- Cut a list into pieces of `n`, at most `k` of them. -/
def chunks {α : Type} (n : Nat) : Nat → List α → List (List α)
  | 0, _ => []
  | _, [] => []
  | k + 1, xs => xs.take n :: chunks n k (xs.drop n)

/-- Compress one 128-byte block. -/
def shaBlock (h : List (BitVec 64)) (blk : List Byte) : List (BitVec 64) :=
  let w := (shaSched 64 ((chunks 8 16 blk).map beWord).reverse).reverse
  let v := ((sha512K0 ++ sha512K1 ++ sha512K2 ++ sha512K3).zip w).foldl shaRound h
  (h.zip v).map fun p => p.1 + p.2

/-- SHA-384 of a byte string. -/
def sha384 (m : List Byte) : List Byte :=
  let padded := m ++ [0x80] ++ List.replicate ((239 - m.length % 128) % 128) 0 ++
    (leBytes 16 (8 * m.length)).reverse
  let h := (chunks 128 (padded.length / 128) padded).foldl shaBlock sha384Init
  (h.take 6).flatMap beBytes

/-- One level of a hash tree: pairs are joined, a last value without a partner is carried up (R371). -/
def treeLevel : List (List Byte) → List (List Byte)
  | x :: y :: r => sha384 (0x01 :: x ++ y) :: treeLevel r
  | r => r

/-- The root of a hash tree (R371), by at most `n` levels. -/
def treeRoot : Nat → List (List Byte) → List Byte
  | _, [] => []
  | _, [x] => x
  | 0, x :: _ => x
  | n + 1, xs => treeRoot n (treeLevel xs)

end Sys2Proof.Machine
end

