-- ==== Sys2Proof/Machine/RegMap.lean ====
section
/-! DEFINITION. The register map of the window (chapter 15 and each chapter's register tables): every
register's offset, access code (Table 0.4), reset value and writable bits. `Reg.x` names the window
offset page × 0x1000 + offset (R444) of a register of a global page; registers of region, link, layer
and tile pages are named by their offset in the page. -/

namespace Sys2Proof.Machine

/-- Access codes of Table 0.4. -/
inductive Acc where
  | ro | rw | w1c | wo | rc | lk
  deriving DecidableEq, Repr

/-- One row of a register table: name, offset, stride and number of copies, access code, reset value
(0 where the table names another source: see `regReset` and `regRead`) and defined writable bits; for
a counter the bits it counts in. -/
structure RegRow where
  name   : String
  off    : Nat
  stride : Nat
  count  : Nat
  acc    : Acc
  reset  : Word
  mask   : Word
  deriving DecidableEq, Repr

/-- Registers of page header above 0x00F, Table 15.1. -/
def hdrRows : List RegRow := [
  ⟨"PAGE_ID", 0, 8, 1, .ro, 0, 0⟩,
  ⟨"PAGE_VER", 0x4, 8, 1, .ro, 0x10000, 0⟩,
  ⟨"PAGE_CAPS", 0x8, 8, 1, .ro, 0, 0⟩,
  ⟨"PAGE_STATUS", 0xC, 8, 1, .ro, 0, 0⟩,
  ⟨"PAGE_CTL", 0x10, 8, 1, .rw, 0, 0x1⟩,
  ⟨"PAGE_EVT_PEND", 0x18, 8, 1, .w1c, 0, 0xFFFF⟩,
  ⟨"PAGE_EVT_MASK", 0x20, 8, 1, .rw, 0, 0xFFFF⟩,
  ⟨"PAGE_LOCK", 0x28, 8, 1, .rw, 0, 0x1⟩,
  ⟨"ACCESS_ENTRY", 0x40, 8, 8, .lk, 0, 0x7⟩]

/-- Registers of TOP, Table 15.7. -/
def topRows : List RegRow := [
  ⟨"CHIP_ID", 0x100, 8, 1, .ro, 0, 0⟩,
  ⟨"TOP_STATUS", 0x108, 8, 1, .ro, 0, 0⟩,
  ⟨"EVT_SUMMARY", 0x110, 8, 1, .ro, 0, 0⟩,
  ⟨"MGMT_WAIT", 0x118, 8, 1, .ro, 0, 0⟩,
  ⟨"SCRATCH0", 0x120, 8, 1, .rw, 0, 0xFFFFFFFFFFFFFFFF⟩,
  ⟨"SCRATCH1", 0x128, 8, 1, .rw, 0, 0xFFFFFFFFFFFFFFFF⟩,
  ⟨"FIRST_FATAL", 0x140, 8, 4, .ro, 0, 0⟩]

/-- Registers of BEAT, Table 2.5. -/
def beatRows : List RegRow := [
  ⟨"PLINTH_TIME", 0x100, 8, 1, .ro, 0, 0⟩,
  ⟨"BEAT_NUM", 0x108, 8, 1, .ro, 0, 0⟩,
  ⟨"SYNC_CTL", 0x110, 8, 1, .lk, 0x4, 0x7⟩,
  ⟨"SYNC_STATUS", 0x118, 8, 1, .ro, 0x3F0000, 0⟩,
  ⟨"MASTER_ID", 0x120, 8, 1, .ro, 0, 0⟩,
  ⟨"OFFSET", 0x128, 8, 1, .ro, 0, 0⟩,
  ⟨"PPS_STAMP", 0x130, 8, 1, .ro, 0, 0⟩,
  ⟨"PPS_ERR", 0x138, 8, 1, .ro, 0, 0⟩,
  ⟨"ADOPT_STEP", 0x140, 8, 1, .ro, 0, 0⟩,
  ⟨"LATE_REPORTS", 0x148, 8, 1, .rc, 0, 0xFFFFFFFF⟩,
  ⟨"DOMAIN_STOPPED", 0x150, 8, 1, .ro, 0, 0⟩]

/-- Registers of ORDER, Table 15.16. -/
def orderRows : List RegRow := [
  ⟨"ORDER_CTL", 0x100, 8, 1, .rw, 0x1, 0x1⟩,
  ⟨"ORDER_STATUS", 0x108, 8, 1, .ro, 0x38000000, 0⟩,
  ⟨"HOST_WR", 0x110, 8, 1, .ro, 0, 0⟩,
  ⟨"HOST_RD", 0x118, 8, 1, .rw, 0, 0xFFFFFFFF⟩,
  ⟨"MGMT_WR", 0x120, 8, 1, .ro, 0, 0⟩,
  ⟨"MGMT_RD", 0x128, 8, 1, .rw, 0, 0xFFFFFFFF⟩,
  ⟨"TAKEN", 0x130, 8, 1, .rc, 0, 0xFFFFFFFFFFFFFFFF⟩,
  ⟨"ILLEGAL", 0x138, 8, 1, .rc, 0, 0xFFFFFFFFFFFFFFFF⟩,
  ⟨"IGNORED_WRITES", 0x140, 8, 1, .rc, 0, 0xFFFFFFFFFFFFFFFF⟩,
  ⟨"LEFT_WAITING", 0x148, 8, 1, .rc, 0, 0xFFFFFFFFFFFFFFFF⟩,
  ⟨"WINDOW", 0x200, 8, 64, .rw, 0, 0xFFFFFFFFFFFFFFFF⟩,
  ⟨"HOST_RING", 0x800, 8, 128, .ro, 0, 0⟩,
  ⟨"MGMT_RING", 0xC00, 8, 128, .ro, 0, 0⟩]

/-- Registers of EVT, Table 15.10. -/
def evtRows : List RegRow := [
  ⟨"EVT_CTL", 0x100, 8, 1, .lk, 0, 0x1⟩,
  ⟨"HOST_BASE", 0x108, 8, 1, .lk, 0, 0xFFFFFFFFFFFFFFFF⟩,
  ⟨"HOST_SIZE", 0x110, 8, 1, .lk, 0, 0x1FFFFF⟩,
  ⟨"HOST_WR", 0x118, 8, 1, .ro, 0, 0⟩,
  ⟨"HOST_RD", 0x120, 8, 1, .rw, 0, 0xFFFFFFFF⟩,
  ⟨"HELD", 0x128, 8, 1, .ro, 0, 0⟩,
  ⟨"LAST_SEQ", 0x130, 8, 1, .ro, 0xFFFFFFF, 0⟩,
  ⟨"LOST", 0x138, 8, 1, .rc, 0, 0xFFFFFFFFFFFFFFFF⟩,
  ⟨"LOST_SERIOUS", 0x140, 8, 1, .rc, 0, 0xFFFFFFFFFFFFFFFF⟩]

/-- Registers of ACCESS, Table 12.15. -/
def accessRows : List RegRow := [
  ⟨"DENIED", 0x100, 8, 1, .rc, 0, 0xFFFFFFFFFFFFFFFF⟩,
  ⟨"LAST_DENIED", 0x108, 8, 1, .ro, 0, 0⟩,
  ⟨"PARTITION", 0x200, 8, 16, .rw, 0, 0xFFFFF800000FFFFF⟩]

/-- Registers of SEAL, Table 4.10. -/
def sealRows : List RegRow := [
  ⟨"SEAL_CTL", 0x100, 8, 1, .lk, 0x3, 0xF⟩,
  ⟨"SEAL_STATUS", 0x108, 8, 1, .ro, 0, 0⟩,
  ⟨"VERDICT_FAILS", 0x110, 8, 1, .rc, 0, 0xFFFFFFFFFFFFFFFF⟩,
  ⟨"VERDICT_RECOVERED", 0x118, 8, 1, .rc, 0, 0xFFFFFFFFFFFFFFFF⟩,
  ⟨"ROUND_FAILS", 0x120, 8, 1, .rc, 0, 0xFFFFFFFFFFFFFFFF⟩,
  ⟨"ENTRY_FAILS", 0x128, 8, 1, .rc, 0, 0xFFFFFFFFFFFFFFFF⟩,
  ⟨"READ_RETRIES", 0x130, 8, 1, .rc, 0, 0xFFFFFFFFFFFFFFFF⟩,
  ⟨"READ_FAILS", 0x138, 8, 1, .rc, 0, 0xFFFFFFFFFFFFFFFF⟩,
  ⟨"INVALID_READS", 0x140, 8, 1, .rc, 0, 0xFFFFFFFFFFFFFFFF⟩,
  ⟨"STALE_READS", 0x148, 8, 1, .rc, 0, 0xFFFFFFFFFFFFFFFF⟩,
  ⟨"SPECIAL_PASSES", 0x150, 8, 1, .rc, 0, 0xFFFFFFFFFFFFFFFF⟩,
  ⟨"CANON_SUM_FAILS", 0x158, 8, 1, .rc, 0, 0xFFFFFFFFFFFFFFFF⟩,
  ⟨"INJECT", 0x160, 8, 1, .rw, 0, 0x7F807FF⟩]

/-- Registers of CONTAIN, Table 5.7. -/
def containRows : List RegRow := [
  ⟨"CONTAIN_CTL", 0x100, 8, 1, .lk, 0x1, 0x1⟩,
  ⟨"CONTAIN_STATUS", 0x108, 8, 1, .ro, 0, 0⟩,
  ⟨"REPORT_SUM", 0x110, 8, 1, .ro, 0, 0⟩,
  ⟨"REPORT_CAUSE", 0x118, 8, 1, .ro, 0, 0⟩,
  ⟨"REPORT_CMD", 0x120, 8, 1, .ro, 0, 0⟩,
  ⟨"REPORT_B0", 0x128, 8, 1, .ro, 0, 0⟩,
  ⟨"REPORT_BQ", 0x130, 8, 1, .ro, 0, 0⟩,
  ⟨"REPORT_BMAX", 0x138, 8, 1, .ro, 0, 0⟩,
  ⟨"REPORT_ACK", 0x140, 8, 1, .wo, 0, 0xFFFF⟩,
  ⟨"REPORT_CAST", 0x148, 8, 1, .ro, 0, 0⟩,
  ⟨"REGION_FIRST", 0x180, 8, 16, .ro, 0, 0⟩,
  ⟨"TAINT_MAP", 0x200, 8, 18, .ro, 0, 0⟩,
  ⟨"DETECTIONS", 0x300, 8, 1, .rc, 0, 0xFFFFFFFFFFFFFFFF⟩,
  ⟨"EXCEEDED", 0x308, 8, 1, .rc, 0, 0xFFFFFFFFFFFFFFFF⟩,
  ⟨"OVERFLOWS", 0x310, 8, 1, .rc, 0, 0xFFFFFFFFFFFFFFFF⟩]

/-- Registers of MAQ, Table 6.7. -/
def maqRows : List RegRow := [
  ⟨"MAQ_CTL", 0x100, 8, 1, .lk, 0x20207D4300000791, 0x7FFFFFFFF0000FF1⟩,
  ⟨"MAQ_STATUS", 0x108, 8, 1, .ro, 0, 0⟩,
  ⟨"HOST_MIN", 0x110, 8, 1, .lk, 0x10, 0xFF⟩,
  ⟨"SEED", 0x118, 8, 1, .lk, 0, 0xFFFFFFFFFFFFFFFF⟩,
  ⟨"SAMPLED", 0x120, 8, 1, .rc, 0, 0xFFFFFFFFFFFFFFFF⟩,
  ⟨"AGREED", 0x128, 8, 1, .rc, 0, 0xFFFFFFFFFFFFFFFF⟩,
  ⟨"DISAGREED", 0x130, 8, 1, .rc, 0, 0xFFFFFFFFFFFFFFFF⟩,
  ⟨"ABANDONED", 0x138, 8, 1, .rc, 0, 0xFFFFFFFFFFFFFFFF⟩,
  ⟨"MISSED", 0x140, 8, 1, .rc, 0, 0xFFFFFFFFFFFFFFFF⟩,
  ⟨"REFEREE_RUNS", 0x148, 8, 1, .rc, 0, 0xFFFFFFFFFFFFFFFF⟩,
  ⟨"UNRESOLVED", 0x150, 8, 1, .rc, 0, 0xFFFFFFFFFFFFFFFF⟩,
  ⟨"MIRROR_BYTES", 0x158, 8, 1, .rc, 0, 0xFFFFFFFFFFFFFFFF⟩,
  ⟨"SESSION", 0x200, 8, 32, .ro, 0, 0⟩,
  ⟨"HOST_MAP", 0x300, 8, 18, .ro, 0, 0⟩]

/-- Registers of CHISEL, Table 7.11. -/
def chiselRows : List RegRow := [
  ⟨"CHISEL_CTL", 0x100, 8, 1, .lk, 0xFBE00100401, 0xFFFF001F0F01⟩,
  ⟨"CHISEL_WINDOW", 0x108, 8, 1, .lk, 0x1032002D0, 0x30001FFFFFFFF⟩,
  ⟨"TEMP_WIN", 0x110, 8, 1, .lk, 0x5A500A, 0xFFFFFF⟩,
  ⟨"CHISEL_TIMES", 0x118, 8, 1, .lk, 0xFA07D578201000, 0xFFFFFFFFFFFFFF00⟩,
  ⟨"COVER", 0x120, 8, 1, .lk, 0x1D4C000124F8, 0xFFFFFFFFFFFFFFFF⟩,
  ⟨"DEFER_MAX", 0x128, 8, 1, .lk, 0x1312D0, 0xFFFFFFFF⟩,
  ⟨"XSEED", 0x130, 8, 1, .lk, 0, 0xFFFFFFFFFFFFFFFF⟩,
  ⟨"CHISEL_STATUS", 0x138, 8, 1, .ro, 0, 0⟩,
  ⟨"SESSION_NUM", 0x140, 8, 1, .ro, 0, 0⟩,
  ⟨"SESSIONS", 0x148, 8, 1, .rc, 0, 0xFFFFFFFFFFFFFFFF⟩,
  ⟨"PASSED", 0x150, 8, 1, .rc, 0, 0xFFFFFFFFFFFFFFFF⟩,
  ⟨"FAILED", 0x158, 8, 1, .rc, 0, 0xFFFFFFFFFFFFFFFF⟩,
  ⟨"INCOMPLETE", 0x160, 8, 1, .rc, 0, 0xFFFFFFFFFFFFFFFF⟩,
  ⟨"ABORTED", 0x168, 8, 1, .rc, 0, 0xFFFFFFFFFFFFFFFF⟩,
  ⟨"WITNESS_RUNS", 0x170, 8, 1, .rc, 0, 0xFFFFFFFFFFFFFFFF⟩,
  ⟨"FORCED_STARTS", 0x178, 8, 1, .rc, 0, 0xFFFFFFFFFFFFFFFF⟩,
  ⟨"STARVED", 0x180, 8, 1, .rc, 0, 0xFFFFFFFFFFFFFFFF⟩,
  ⟨"VOIDED", 0x188, 8, 1, .rc, 0, 0xFFFFFFFFFFFFFFFF⟩,
  ⟨"ROW_REPAIRS", 0x190, 8, 1, .rc, 0, 0xFFFFFFFFFFFFFFFF⟩,
  ⟨"SLOT", 0x200, 8, 32, .ro, 0, 0⟩]

/-- Registers of PATINA, Table 8.11. -/
def patinaRows : List RegRow := [
  ⟨"PATINA_CTL", 0x100, 8, 1, .lk, 0xD01E84807, 0xFFFFFFFF07⟩,
  ⟨"THRESH", 0x108, 8, 1, .lk, 0x3000100004000100, 0xFFFFFFFFFFFFFFFF⟩,
  ⟨"WEIGHT_A", 0x110, 8, 1, .lk, 0x2000080000010010, 0xFFFFFFFFFFFFFFFF⟩,
  ⟨"WEIGHT_B", 0x118, 8, 1, .lk, 0x8000800010000001, 0xFFFFFFFFFFFFFFFF⟩,
  ⟨"HOT", 0x120, 8, 1, .lk, 0x5F, 0xFF⟩,
  ⟨"LEVEL_COUNT", 0x128, 8, 1, .ro, 0, 0⟩,
  ⟨"WATCH_CROSSINGS", 0x130, 8, 1, .rc, 0, 0xFFFFFFFFFFFFFFFF⟩,
  ⟨"SUSPECT_CROSSINGS", 0x138, 8, 1, .rc, 0, 0xFFFFFFFFFFFFFFFF⟩,
  ⟨"QUARANTINES", 0x140, 8, 1, .rc, 0, 0xFFFFFFFFFFFFFFFF⟩]

/-- Registers of MAP, Table 8.13. -/
def mapRows : List RegRow := [
  ⟨"MAP_GEN", 0x100, 8, 1, .ro, 0, 0⟩,
  ⟨"MAP_STATUS", 0x108, 8, 1, .ro, 0, 0⟩,
  ⟨"SPARES_FREE", 0x110, 8, 1, .ro, 0, 0⟩,
  ⟨"REPAIR_INDEX", 0x118, 8, 1, .rw, 0, 0x1FF⟩,
  ⟨"REPAIR_DATA", 0x120, 8, 1, .ro, 0, 0⟩,
  ⟨"SAVE_SEQ", 0x128, 8, 1, .ro, 0, 0⟩,
  ⟨"FENCES", 0x130, 8, 1, .rc, 0, 0xFFFFFFFFFFFFFFFF⟩,
  ⟨"PROMOTIONS", 0x138, 8, 1, .rc, 0, 0xFFFFFFFFFFFFFFFF⟩,
  ⟨"ABSORBED", 0x140, 8, 1, .rc, 0, 0xFFFFFFFFFFFFFFFF⟩,
  ⟨"RESOLVED_AGAIN", 0x148, 8, 1, .rc, 0, 0xFFFFFFFFFFFFFFFF⟩,
  ⟨"FENCE_MAP", 0x200, 8, 18, .ro, 0, 0⟩,
  ⟨"HOLD_MAP", 0x300, 8, 16, .ro, 0, 0⟩,
  ⟨"LOGICAL_MAP", 0x800, 8, 256, .ro, 0, 0⟩]

/-- Registers of ARM, Table 3.11. -/
def armRows : List RegRow := [
  ⟨"ARM_STATUS", 0x100, 8, 1, .ro, 0, 0⟩,
  ⟨"ARM_CTL", 0x108, 8, 1, .lk, 0x180700000400, 0xFF0F0000FFFF⟩,
  ⟨"CHIP_NUM", 0x110, 8, 1, .lk, 0, 0x9FFF⟩,
  ⟨"SENT_CTL", 0x118, 8, 1, .lk, 0x80000004000, 0xFF00FFFFFFFF⟩,
  ⟨"CRC_DISCARDS", 0x120, 8, 1, .rc, 0, 0xFFFFFFFFFFFFFFFF⟩,
  ⟨"RESENDS", 0x128, 8, 1, .rc, 0, 0xFFFFFFFFFFFFFFFF⟩,
  ⟨"HOP_CORRECTED", 0x130, 8, 1, .rc, 0, 0xFFFFFFFFFFFFFFFF⟩,
  ⟨"EVENTS_DROPPED", 0x138, 8, 1, .rc, 0, 0xFFFFFFFFFFFFFFFF⟩,
  ⟨"SENT_LOST", 0x140, 8, 1, .rc, 0, 0xFFFFFFFFFFFFFFFF⟩,
  ⟨"SLINK_CFG", 0x200, 8, 48, .lk, 0, 0xF83F⟩,
  ⟨"SROUTE_W0", 0x400, 16, 64, .rw, 0, 0x9FFF0FFFFFFFFFFF⟩,
  ⟨"SROUTE_W1", 0x408, 16, 64, .rw, 0, 0xFFFFFFFFFFF⟩]

/-- Registers of THERM, Table 10.8. -/
def thermRows : List RegRow := [
  ⟨"THERM_CTL", 0x100, 8, 1, .lk, 0x7D0C00100804, 0xFFFF001F1F1F⟩,
  ⟨"LIMITS", 0x108, 8, 1, .lk, 0x40002000055F69, 0xFFFFFFFF00FFFFFF⟩,
  ⟨"MOULD_WIN", 0x110, 8, 1, .lk, 0x5A, 0xFF⟩,
  ⟨"THERM_STATUS", 0x118, 8, 1, .ro, 0, 0⟩,
  ⟨"HOTTEST_LOGIC", 0x120, 8, 1, .ro, 0x1FFF80000000, 0⟩,
  ⟨"HOTTEST_DRAM", 0x128, 8, 1, .ro, 0x1FFF80000000, 0⟩,
  ⟨"STEP_CHANGES", 0x130, 8, 1, .rc, 0, 0xFFFFFFFFFFFFFFFF⟩,
  ⟨"BAND_CHANGES", 0x138, 8, 1, .rc, 0, 0xFFFFFFFFFFFFFFFF⟩,
  ⟨"WARNS", 0x140, 8, 1, .rc, 0, 0xFFFFFFFFFFFFFFFF⟩,
  ⟨"SENSOR_FAULTS", 0x148, 8, 1, .rc, 0, 0xFFFFFFFFFFFFFFFF⟩,
  ⟨"WINDOW_DEFERS", 0x150, 8, 1, .rc, 0, 0xFFFFFFFFFFFFFFFF⟩]

/-- Registers of CAST, Table 11.7. -/
def castRows : List RegRow := [
  ⟨"CAST_CTL", 0x100, 8, 1, .lk, 0x4007D4E200320001, 0xFFFFFFFF00FF0001⟩,
  ⟨"CAST_STATUS", 0x108, 8, 1, .ro, 0, 0⟩,
  ⟨"LAST_CAST", 0x110, 8, 1, .ro, 0, 0⟩,
  ⟨"LAST_CUT", 0x118, 8, 1, .ro, 0, 0⟩,
  ⟨"PARTNER", 0x120, 8, 1, .ro, 0, 0⟩,
  ⟨"MIRROR_IN", 0x128, 8, 1, .ro, 0, 0⟩,
  ⟨"STORE_SPACE", 0x130, 8, 1, .ro, 0, 0⟩,
  ⟨"LAST_PAUSE", 0x138, 8, 1, .ro, 0, 0⟩,
  ⟨"PAUSE_MAX", 0x140, 8, 1, .rc, 0, 0xFFFFFFFF⟩,
  ⟨"CASTS", 0x148, 8, 1, .rc, 0, 0xFFFFFFFFFFFFFFFF⟩,
  ⟨"CAST_FAILS", 0x150, 8, 1, .rc, 0, 0xFFFFFFFFFFFFFFFF⟩,
  ⟨"PAUSES", 0x158, 8, 1, .rc, 0, 0xFFFFFFFFFFFFFFFF⟩,
  ⟨"BYTES_DRAINED", 0x160, 8, 1, .rc, 0, 0xFFFFFFFFFFFFFFFF⟩,
  ⟨"MIRROR_BYTES", 0x168, 8, 1, .rc, 0, 0xFFFFFFFFFFFFFFFF⟩,
  ⟨"HOST_WRITES_HELD", 0x170, 8, 1, .rc, 0, 0xFFFFFFFFFFFFFFFF⟩,
  ⟨"CAST_RANGE", 0x200, 8, 16, .rw, 0, 0x8F00000007FF07FF⟩]

/-- Registers of DIGEST, Table 12.13. -/
def digestRows : List RegRow := [
  ⟨"DET_KEY", 0x100, 8, 1, .ro, 0, 0⟩,
  ⟨"DET_CTL", 0x108, 8, 1, .lk, 0, 0x3⟩,
  ⟨"DIGEST_CTL", 0x110, 8, 1, .lk, 0x40, 0xFF⟩,
  ⟨"DIGEST_STATUS", 0x118, 8, 1, .ro, 0, 0⟩,
  ⟨"RECORD_SEL", 0x120, 8, 1, .rw, 0, 0xF⟩,
  ⟨"READ_COUNT", 0x128, 8, 1, .ro, 0, 0⟩,
  ⟨"RECORDS_SIGNED", 0x130, 8, 1, .rc, 0, 0xFFFFFFFFFFFFFFFF⟩,
  ⟨"RECORDS_FAILED", 0x138, 8, 1, .rc, 0, 0xFFFFFFFFFFFFFFFF⟩,
  ⟨"SLOT_CFG", 0x180, 8, 16, .rw, 0, 0xF0000000000FFFFF⟩,
  ⟨"SLOT_NONCE", 0x200, 8, 16, .rw, 0, 0xFFFFFFFFFFFFFFFF⟩,
  ⟨"SLOT_STATE", 0x280, 8, 16, .ro, 0, 0⟩,
  ⟨"WSET_W0", 0x300, 16, 8, .rw, 0, 0x8FFFFFF1FFFFF800⟩,
  ⟨"WSET_W1", 0x308, 16, 8, .ro, 0, 0⟩,
  ⟨"WROOT", 0x380, 8, 48, .ro, 0, 0⟩,
  ⟨"CERT", 0x600, 8, 256, .ro, 0, 0⟩,
  ⟨"RECORD", 0xE00, 8, 64, .ro, 0, 0⟩]

/-- Registers of LICENCE, Table 12.14. -/
def licenceRows : List RegRow := [
  ⟨"LIC_CTL", 0x100, 8, 1, .wo, 0, 0x1⟩,
  ⟨"LIC_STATUS", 0x108, 8, 1, .ro, 0, 0⟩,
  ⟨"FEATURES", 0x110, 8, 1, .ro, 0, 0⟩,
  ⟨"CHIP_ID", 0x118, 8, 1, .ro, 0, 0⟩,
  ⟨"BLOB", 0x800, 8, 20, .rw, 0, 0xFFFFFFFFFFFFFFFF⟩]

/-- Registers of COUNT, Table 13.13. -/
def countRows : List RegRow := [
  ⟨"COUNT_CTL", 0x100, 8, 1, .lk, 0x7D00000001, 0xFFFF00000007⟩,
  ⟨"COUNT_STATUS", 0x108, 8, 1, .ro, 0, 0⟩,
  ⟨"HOST_BASE", 0x110, 8, 1, .lk, 0, 0xFFFFFFFFFFFFFFFF⟩,
  ⟨"HOST_SETS", 0x118, 8, 1, .lk, 0, 0xFFFF⟩,
  ⟨"HOST_WR", 0x120, 8, 1, .ro, 0, 0⟩,
  ⟨"HOST_RD", 0x128, 8, 1, .rw, 0, 0xFFFFFFFF⟩,
  ⟨"THRESH", 0x130, 8, 1, .lk, 0x8, 0xFFFF⟩,
  ⟨"STACK_RANGE", 0x138, 8, 1, .lk, 0, 0xF00000007FF07FF⟩,
  ⟨"SETS_DROPPED", 0x140, 8, 1, .rc, 0, 0xFFFFFFFFFFFFFFFF⟩,
  ⟨"RECORDS_LATE", 0x148, 8, 1, .rc, 0, 0xFFFFFFFFFFFFFFFF⟩,
  ⟨"CHIP_SUM", 0x200, 8, 16, .ro, 0, 0⟩]

/-- Registers of TRACE, Table 13.14. -/
def traceRows : List RegRow := [
  ⟨"TRACE_CTL", 0x100, 8, 1, .lk, 0x4000000000C, 0xFFFFFFFF0000000F⟩,
  ⟨"FILTER", 0x108, 8, 1, .lk, 0xFFFE00000000, 0xFFFFFFFFFFFFFFFF⟩,
  ⟨"HOST_BASE", 0x110, 8, 1, .lk, 0, 0xFFFFFFFFFFFFFFFF⟩,
  ⟨"HOST_SIZE", 0x118, 8, 1, .lk, 0, 0xFFFFFFFFFFFFFFFF⟩,
  ⟨"HOST_WR", 0x120, 8, 1, .ro, 0, 0⟩,
  ⟨"HOST_RD", 0x128, 8, 1, .rw, 0, 0xFFFFFFFFFFFFFFFF⟩,
  ⟨"THRESH", 0x130, 8, 1, .lk, 0x100000, 0xFFFFFFFFFFFFFFFF⟩,
  ⟨"STACK_RANGE", 0x138, 8, 1, .lk, 0, 0xF00000007FF07FF⟩,
  ⟨"SRAM_FILL", 0x140, 8, 1, .ro, 0, 0⟩,
  ⟨"RECORDS", 0x148, 8, 1, .rc, 0, 0xFFFFFFFFFFFFFFFF⟩,
  ⟨"DROPPED", 0x150, 8, 1, .rc, 0, 0xFFFFFFFFFFFFFFFF⟩]

/-- Registers of DEBUG, Table 13.15. -/
def debugRows : List RegRow := [
  ⟨"DBG_CTL", 0x100, 8, 1, .lk, 0, 0x1⟩,
  ⟨"READ_REQ", 0x108, 8, 1, .wo, 0, 0xF0000000001F07FF⟩,
  ⟨"READ_STATUS", 0x110, 8, 1, .ro, 0, 0⟩,
  ⟨"WATCH_STATE", 0x140, 8, 8, .ro, 0, 0⟩,
  ⟨"WATCH_RESULT", 0x400, 8, 192, .ro, 0, 0⟩,
  ⟨"READ_BUF", 0xC00, 8, 128, .ro, 0, 0⟩]

/-- Registers of BRINGUP, Table 14.10. -/
def bringupRows : List RegRow := [
  ⟨"STAGE", 0x100, 8, 1, .ro, 0, 0⟩,
  ⟨"FW_READY", 0x108, 8, 1, .wo, 0, 0x1⟩,
  ⟨"READY_BEAT", 0x110, 8, 1, .ro, 0, 0⟩,
  ⟨"LINK_SUMMARY", 0x118, 8, 1, .ro, 0, 0⟩,
  ⟨"LINK_RETRAIN", 0x120, 8, 1, .lk, 0x1E848, 0xFFFFFFFF⟩,
  ⟨"RESET_REQ", 0x128, 8, 1, .wo, 0, 0xF0000000000007FF⟩,
  ⟨"RESETS_REFUSED", 0x130, 8, 1, .rc, 0, 0xFFFFFFFFFFFFFFFF⟩,
  ⟨"REPORT", 0x140, 8, 6, .ro, 0, 0⟩]

/-- Registers of POWER, Table 14.11. -/
def powerRows : List RegRow := [
  ⟨"POWER_STATE", 0x100, 8, 1, .ro, 0, 0⟩,
  ⟨"REPOSE_CTL", 0x108, 8, 1, .lk, 0x7D, 0xFFFF⟩,
  ⟨"REPOSE_UR", 0x110, 8, 1, .rc, 0, 0xFFFFFFFFFFFFFFFF⟩,
  ⟨"REPOSE_COUNT", 0x118, 8, 1, .rc, 0, 0xFFFFFFFFFFFFFFFF⟩,
  ⟨"LAST_WAKE", 0x120, 8, 1, .ro, 0, 0⟩]

/-- Registers of FUSE, Table 15.18. -/
def fuseRows : List RegRow := [
  ⟨"FUSE_STATUS", 0x100, 8, 1, .ro, 0, 0⟩,
  ⟨"PROG_STATUS", 0x108, 8, 1, .ro, 0, 0⟩,
  ⟨"PROG_ENTRY", 0x110, 8, 1, .ro, 0, 0⟩,
  ⟨"PROG_SLOT", 0x118, 8, 1, .ro, 0, 0⟩,
  ⟨"PROG_RESULT", 0x120, 8, 1, .wo, 0, 0x80000000000000FF⟩,
  ⟨"LAST_ERROR", 0x128, 8, 1, .ro, 0, 0⟩,
  ⟨"TEMP_SPAN", 0x130, 8, 1, .ro, 0x7FFF800000000000, 0⟩]

/-- Registers of DUMP, Table 13.16. -/
def dumpRows : List RegRow := [
  ⟨"DUMP_CTL", 0x100, 8, 1, .rw, 0, 0x1F01⟩,
  ⟨"DUMP_BASE", 0x108, 8, 1, .rw, 0, 0xFFFFFFFFFFFFFFFF⟩,
  ⟨"DUMP_SIZE", 0x110, 8, 1, .rw, 0, 0xFFFFFFFFFFFFFFFF⟩,
  ⟨"DUMP_STATUS", 0x118, 8, 1, .ro, 0, 0⟩,
  ⟨"DUMP_NEEDED", 0x120, 8, 1, .ro, 0, 0⟩]

/-- Registers of region pages, Tables 10.11 and 15.19. -/
def regionRows : List RegRow := [
  ⟨"THROTTLE", 0x100, 8, 1, .ro, 0, 0⟩,
  ⟨"FLOOR", 0x108, 8, 1, .rw, 0, 0x7⟩,
  ⟨"BANDS", 0x110, 8, 1, .ro, 0, 0⟩,
  ⟨"REGION_TEMP", 0x118, 8, 1, .ro, 0x8000800000000000, 0⟩,
  ⟨"REGION_VOLT", 0x180, 8, 1, .ro, 0, 0⟩,
  ⟨"DROOPS", 0x188, 8, 1, .rc, 0, 0xFFFFFFFFFFFFFFFF⟩,
  ⟨"REGION_ENERGY", 0x190, 8, 1, .ro, 0, 0⟩]

/-- Registers of link pages, Tables 13.18 and 14.4. -/
def linkRows : List RegRow := [
  ⟨"TX_BYTES", 0x200, 8, 1, .ro, 0, 0⟩,
  ⟨"RX_BYTES", 0x208, 8, 1, .ro, 0, 0⟩,
  ⟨"SENT_TX", 0x210, 8, 1, .ro, 0, 0⟩,
  ⟨"SENT_RX", 0x218, 8, 1, .ro, 0, 0⟩,
  ⟨"LINK_STATE", 0x100, 8, 1, .ro, 0, 0⟩]

/-- Registers of layer pages, Table 9.7 and R330. -/
def layerRows : List RegRow := [
  ⟨"LAYER_INFO", 0x100, 8, 1, .ro, 0, 0⟩,
  ⟨"MR_STATUS", 0x108, 8, 1, .ro, 0, 0⟩,
  ⟨"SCRUB_CTL", 0x110, 8, 1, .lk, 0x100002A30, 0x1FFFFFFFF⟩,
  ⟨"CORRECTED", 0x118, 8, 1, .rc, 0, 0xFFFFFFFFFFFFFFFF⟩,
  ⟨"UNCORRECTED", 0x120, 8, 1, .rc, 0, 0xFFFFFFFFFFFFFFFF⟩,
  ⟨"NO_ECC_READS", 0x128, 8, 1, .rc, 0, 0xFFFFFFFFFFFFFFFF⟩,
  ⟨"NB_CMDS", 0x130, 8, 1, .rc, 0, 0xFFFFFFFFFFFFFFFF⟩,
  ⟨"NB_REJECTS", 0x138, 8, 1, .rc, 0, 0xFFFFFFFFFFFFFFFF⟩,
  ⟨"NB_HOLDS", 0x140, 8, 1, .rc, 0, 0xFFFFFFFFFFFFFFFF⟩,
  ⟨"HOLD_MAX", 0x148, 8, 1, .rc, 0, 0x7FF⟩,
  ⟨"NB_HUNG", 0x150, 8, 1, .rc, 0, 0xFFFFFFFFFFFFFFFF⟩,
  ⟨"SCRUB_PASSES", 0x158, 8, 1, .rc, 0, 0xFFFFFFFFFFFFFFFF⟩,
  ⟨"ACCESS", 0x180, 8, 8, .lk, 0, 0xF⟩,
  ⟨"MR", 0x200, 8, 8, .rw, 0, 0xC000000007FF07FF⟩,
  ⟨"DRAM_READING", 0x400, 8, 288, .ro, 0x8000, 0⟩]

/-- Registers of tile pages, Table 15.20 (Tables 5.9, 6.10, 7.16, 8.14, 10.12, 11.9, 13.17). -/
def tileRows : List RegRow := [
  ⟨"TAINT_STATE", 0x380, 8, 1, .ro, 0, 0⟩,
  ⟨"TAINT_BEAT", 0x388, 8, 1, .ro, 0, 0⟩,
  ⟨"TAINT_CMD", 0x390, 8, 1, .ro, 0, 0⟩,
  ⟨"LINEAGE_LAST_LO", 0x398, 8, 1, .ro, 0, 0⟩,
  ⟨"LINEAGE_LAST_HI", 0x3A0, 8, 1, .ro, 0, 0⟩,
  ⟨"MAQ_RATE", 0x3C0, 8, 1, .ro, 0x900, 0⟩,
  ⟨"MAQ_STATE", 0x3C8, 8, 1, .ro, 0, 0⟩,
  ⟨"MAQ_COUNTS", 0x3D0, 8, 1, .rc, 0, 0xFFFFFFFFFFFFFFFF⟩,
  ⟨"CHISEL_STATE", 0x300, 8, 1, .ro, 0, 0⟩,
  ⟨"CHISEL_DUE", 0x308, 8, 1, .ro, 0, 0⟩,
  ⟨"ROW_BAD_LO", 0x310, 8, 1, .ro, 0, 0⟩,
  ⟨"ROW_BAD_HI", 0x318, 8, 1, .ro, 0, 0⟩,
  ⟨"LAST_PASS", 0x320, 8, 12, .ro, 0, 0⟩,
  ⟨"PATINA", 0x280, 8, 1, .ro, 0, 0⟩,
  ⟨"PATINA_BEAT", 0x288, 8, 1, .ro, 0, 0⟩,
  ⟨"MAP_STATE", 0x290, 8, 1, .ro, 0, 0⟩,
  ⟨"CAST_TILE", 0x240, 8, 1, .ro, 0, 0⟩,
  ⟨"CAST_LAST", 0x248, 8, 1, .ro, 0, 0⟩,
  ⟨"COUNTER", 0x100, 8, 16, .ro, 0, 0⟩,
  ⟨"SAMPLE_TAG", 0x180, 8, 1, .ro, 0, 0⟩,
  ⟨"STACK_WR", 0x188, 8, 1, .ro, 0, 0⟩,
  ⟨"DBG_STATE", 0x190, 8, 1, .ro, 0, 0⟩,
  ⟨"TSENS", 0x3E0, 8, 1, .ro, 0x8000, 0⟩]

/-- The rows of a page's body, at 0x100 and above (Table 15.6); none for a reserved page. -/
def bodyRows (page : Nat) : List RegRow :=
  match page with
  | 0x0 => topRows
  | 0x1 => beatRows
  | 0x2 => orderRows
  | 0x3 => evtRows
  | 0x4 => accessRows
  | 0x5 => sealRows
  | 0x6 => containRows
  | 0x7 => maqRows
  | 0x8 => chiselRows
  | 0x9 => patinaRows
  | 0xA => mapRows
  | 0xB => armRows
  | 0xC => thermRows
  | 0xD => castRows
  | 0xE => digestRows
  | 0xF => licenceRows
  | 0x10 => countRows
  | 0x11 => traceRows
  | 0x12 => debugRows
  | 0x13 => bringupRows
  | 0x14 => powerRows
  | 0x15 => fuseRows
  | 0x16 => dumpRows
  | n =>
    if 0x020 ≤ n && n ≤ 0x02F then regionRows
    else if 0x040 ≤ n && n ≤ 0x06F then linkRows
    else if 0x070 ≤ n && n ≤ 0x07B then layerRows
    else if 0x400 ≤ n && n ≤ 0x87F then tileRows
    else []

/-- The page exists (Table 15.6). -/
def pageExists (page : Nat) : Bool :=
  page ≤ 0x16 || (0x020 ≤ page && page ≤ 0x02F) || (0x040 ≤ page && page ≤ 0x06F) ||
  (0x070 ≤ page && page ≤ 0x07B) || (0x400 ≤ page && page ≤ 0x87F)

/-- The row holds the 8 bytes at offset `off`. -/
def RegRow.holds (r : RegRow) (off : Nat) : Bool :=
  r.off ≤ off && (off - r.off) % r.stride == 0 && (off - r.off) / r.stride < r.count

/-- The register at an 8-byte aligned offset of a page, or none where it is reserved (R446). The
four 4-byte registers of the header (Table 15.1) are not in this map. -/
def findRow (page off : Nat) : Option RegRow :=
  if pageExists page then
    (if off < 0x100 then hdrRows else bodyRows page).find? (fun r => r.holds off)
  else none

namespace Reg
abbrev topChipId : Nat := 0x100
abbrev topTopStatus : Nat := 0x108
abbrev topEvtSummary : Nat := 0x110
abbrev topMgmtWait : Nat := 0x118
abbrev topScratch0 : Nat := 0x120
abbrev topScratch1 : Nat := 0x128
abbrev topFirstFatal : Nat := 0x140
abbrev beatPlinthTime : Nat := 0x1100
abbrev beatBeatNum : Nat := 0x1108
abbrev beatSyncCtl : Nat := 0x1110
abbrev beatSyncStatus : Nat := 0x1118
abbrev beatMasterId : Nat := 0x1120
abbrev beatOffset : Nat := 0x1128
abbrev beatPpsStamp : Nat := 0x1130
abbrev beatPpsErr : Nat := 0x1138
abbrev beatAdoptStep : Nat := 0x1140
abbrev beatLateReports : Nat := 0x1148
abbrev beatDomainStopped : Nat := 0x1150
abbrev orderOrderCtl : Nat := 0x2100
abbrev orderOrderStatus : Nat := 0x2108
abbrev orderHostWr : Nat := 0x2110
abbrev orderHostRd : Nat := 0x2118
abbrev orderMgmtWr : Nat := 0x2120
abbrev orderMgmtRd : Nat := 0x2128
abbrev orderTaken : Nat := 0x2130
abbrev orderIllegal : Nat := 0x2138
abbrev orderIgnoredWrites : Nat := 0x2140
abbrev orderLeftWaiting : Nat := 0x2148
abbrev orderWindow : Nat := 0x2200
abbrev orderHostRing : Nat := 0x2800
abbrev orderMgmtRing : Nat := 0x2C00
abbrev evtEvtCtl : Nat := 0x3100
abbrev evtHostBase : Nat := 0x3108
abbrev evtHostSize : Nat := 0x3110
abbrev evtHostWr : Nat := 0x3118
abbrev evtHostRd : Nat := 0x3120
abbrev evtHeld : Nat := 0x3128
abbrev evtLastSeq : Nat := 0x3130
abbrev evtLost : Nat := 0x3138
abbrev evtLostSerious : Nat := 0x3140
abbrev accessDenied : Nat := 0x4100
abbrev accessLastDenied : Nat := 0x4108
abbrev accessPartition : Nat := 0x4200
abbrev sealSealCtl : Nat := 0x5100
abbrev sealSealStatus : Nat := 0x5108
abbrev sealVerdictFails : Nat := 0x5110
abbrev sealVerdictRecovered : Nat := 0x5118
abbrev sealRoundFails : Nat := 0x5120
abbrev sealEntryFails : Nat := 0x5128
abbrev sealReadRetries : Nat := 0x5130
abbrev sealReadFails : Nat := 0x5138
abbrev sealInvalidReads : Nat := 0x5140
abbrev sealStaleReads : Nat := 0x5148
abbrev sealSpecialPasses : Nat := 0x5150
abbrev sealCanonSumFails : Nat := 0x5158
abbrev sealInject : Nat := 0x5160
abbrev containContainCtl : Nat := 0x6100
abbrev containContainStatus : Nat := 0x6108
abbrev containReportSum : Nat := 0x6110
abbrev containReportCause : Nat := 0x6118
abbrev containReportCmd : Nat := 0x6120
abbrev containReportB0 : Nat := 0x6128
abbrev containReportBq : Nat := 0x6130
abbrev containReportBmax : Nat := 0x6138
abbrev containReportAck : Nat := 0x6140
abbrev containReportCast : Nat := 0x6148
abbrev containRegionFirst : Nat := 0x6180
abbrev containTaintMap : Nat := 0x6200
abbrev containDetections : Nat := 0x6300
abbrev containExceeded : Nat := 0x6308
abbrev containOverflows : Nat := 0x6310
abbrev maqMaqCtl : Nat := 0x7100
abbrev maqMaqStatus : Nat := 0x7108
abbrev maqHostMin : Nat := 0x7110
abbrev maqSeed : Nat := 0x7118
abbrev maqSampled : Nat := 0x7120
abbrev maqAgreed : Nat := 0x7128
abbrev maqDisagreed : Nat := 0x7130
abbrev maqAbandoned : Nat := 0x7138
abbrev maqMissed : Nat := 0x7140
abbrev maqRefereeRuns : Nat := 0x7148
abbrev maqUnresolved : Nat := 0x7150
abbrev maqMirrorBytes : Nat := 0x7158
abbrev maqSession : Nat := 0x7200
abbrev maqHostMap : Nat := 0x7300
abbrev chiselChiselCtl : Nat := 0x8100
abbrev chiselChiselWindow : Nat := 0x8108
abbrev chiselTempWin : Nat := 0x8110
abbrev chiselChiselTimes : Nat := 0x8118
abbrev chiselCover : Nat := 0x8120
abbrev chiselDeferMax : Nat := 0x8128
abbrev chiselXseed : Nat := 0x8130
abbrev chiselChiselStatus : Nat := 0x8138
abbrev chiselSessionNum : Nat := 0x8140
abbrev chiselSessions : Nat := 0x8148
abbrev chiselPassed : Nat := 0x8150
abbrev chiselFailed : Nat := 0x8158
abbrev chiselIncomplete : Nat := 0x8160
abbrev chiselAborted : Nat := 0x8168
abbrev chiselWitnessRuns : Nat := 0x8170
abbrev chiselForcedStarts : Nat := 0x8178
abbrev chiselStarved : Nat := 0x8180
abbrev chiselVoided : Nat := 0x8188
abbrev chiselRowRepairs : Nat := 0x8190
abbrev chiselSlot : Nat := 0x8200
abbrev patinaPatinaCtl : Nat := 0x9100
abbrev patinaThresh : Nat := 0x9108
abbrev patinaWeightA : Nat := 0x9110
abbrev patinaWeightB : Nat := 0x9118
abbrev patinaHot : Nat := 0x9120
abbrev patinaLevelCount : Nat := 0x9128
abbrev patinaWatchCrossings : Nat := 0x9130
abbrev patinaSuspectCrossings : Nat := 0x9138
abbrev patinaQuarantines : Nat := 0x9140
abbrev mapMapGen : Nat := 0xA100
abbrev mapMapStatus : Nat := 0xA108
abbrev mapSparesFree : Nat := 0xA110
abbrev mapRepairIndex : Nat := 0xA118
abbrev mapRepairData : Nat := 0xA120
abbrev mapSaveSeq : Nat := 0xA128
abbrev mapFences : Nat := 0xA130
abbrev mapPromotions : Nat := 0xA138
abbrev mapAbsorbed : Nat := 0xA140
abbrev mapResolvedAgain : Nat := 0xA148
abbrev mapFenceMap : Nat := 0xA200
abbrev mapHoldMap : Nat := 0xA300
abbrev mapLogicalMap : Nat := 0xA800
abbrev armArmStatus : Nat := 0xB100
abbrev armArmCtl : Nat := 0xB108
abbrev armChipNum : Nat := 0xB110
abbrev armSentCtl : Nat := 0xB118
abbrev armCrcDiscards : Nat := 0xB120
abbrev armResends : Nat := 0xB128
abbrev armHopCorrected : Nat := 0xB130
abbrev armEventsDropped : Nat := 0xB138
abbrev armSentLost : Nat := 0xB140
abbrev armSlinkCfg : Nat := 0xB200
abbrev armSrouteW0 : Nat := 0xB400
abbrev armSrouteW1 : Nat := 0xB408
abbrev thermThermCtl : Nat := 0xC100
abbrev thermLimits : Nat := 0xC108
abbrev thermMouldWin : Nat := 0xC110
abbrev thermThermStatus : Nat := 0xC118
abbrev thermHottestLogic : Nat := 0xC120
abbrev thermHottestDram : Nat := 0xC128
abbrev thermStepChanges : Nat := 0xC130
abbrev thermBandChanges : Nat := 0xC138
abbrev thermWarns : Nat := 0xC140
abbrev thermSensorFaults : Nat := 0xC148
abbrev thermWindowDefers : Nat := 0xC150
abbrev castCastCtl : Nat := 0xD100
abbrev castCastStatus : Nat := 0xD108
abbrev castLastCast : Nat := 0xD110
abbrev castLastCut : Nat := 0xD118
abbrev castPartner : Nat := 0xD120
abbrev castMirrorIn : Nat := 0xD128
abbrev castStoreSpace : Nat := 0xD130
abbrev castLastPause : Nat := 0xD138
abbrev castPauseMax : Nat := 0xD140
abbrev castCasts : Nat := 0xD148
abbrev castCastFails : Nat := 0xD150
abbrev castPauses : Nat := 0xD158
abbrev castBytesDrained : Nat := 0xD160
abbrev castMirrorBytes : Nat := 0xD168
abbrev castHostWritesHeld : Nat := 0xD170
abbrev castCastRange : Nat := 0xD200
abbrev digestDetKey : Nat := 0xE100
abbrev digestDetCtl : Nat := 0xE108
abbrev digestDigestCtl : Nat := 0xE110
abbrev digestDigestStatus : Nat := 0xE118
abbrev digestRecordSel : Nat := 0xE120
abbrev digestReadCount : Nat := 0xE128
abbrev digestRecordsSigned : Nat := 0xE130
abbrev digestRecordsFailed : Nat := 0xE138
abbrev digestSlotCfg : Nat := 0xE180
abbrev digestSlotNonce : Nat := 0xE200
abbrev digestSlotState : Nat := 0xE280
abbrev digestWsetW0 : Nat := 0xE300
abbrev digestWsetW1 : Nat := 0xE308
abbrev digestWroot : Nat := 0xE380
abbrev digestCert : Nat := 0xE600
abbrev digestRecord : Nat := 0xEE00
abbrev licenceLicCtl : Nat := 0xF100
abbrev licenceLicStatus : Nat := 0xF108
abbrev licenceFeatures : Nat := 0xF110
abbrev licenceChipId : Nat := 0xF118
abbrev licenceBlob : Nat := 0xF800
abbrev countCountCtl : Nat := 0x10100
abbrev countCountStatus : Nat := 0x10108
abbrev countHostBase : Nat := 0x10110
abbrev countHostSets : Nat := 0x10118
abbrev countHostWr : Nat := 0x10120
abbrev countHostRd : Nat := 0x10128
abbrev countThresh : Nat := 0x10130
abbrev countStackRange : Nat := 0x10138
abbrev countSetsDropped : Nat := 0x10140
abbrev countRecordsLate : Nat := 0x10148
abbrev countChipSum : Nat := 0x10200
abbrev traceTraceCtl : Nat := 0x11100
abbrev traceFilter : Nat := 0x11108
abbrev traceHostBase : Nat := 0x11110
abbrev traceHostSize : Nat := 0x11118
abbrev traceHostWr : Nat := 0x11120
abbrev traceHostRd : Nat := 0x11128
abbrev traceThresh : Nat := 0x11130
abbrev traceStackRange : Nat := 0x11138
abbrev traceSramFill : Nat := 0x11140
abbrev traceRecords : Nat := 0x11148
abbrev traceDropped : Nat := 0x11150
abbrev debugDbgCtl : Nat := 0x12100
abbrev debugReadReq : Nat := 0x12108
abbrev debugReadStatus : Nat := 0x12110
abbrev debugWatchState : Nat := 0x12140
abbrev debugWatchResult : Nat := 0x12400
abbrev debugReadBuf : Nat := 0x12C00
abbrev bringupStage : Nat := 0x13100
abbrev bringupFwReady : Nat := 0x13108
abbrev bringupReadyBeat : Nat := 0x13110
abbrev bringupLinkSummary : Nat := 0x13118
abbrev bringupLinkRetrain : Nat := 0x13120
abbrev bringupResetReq : Nat := 0x13128
abbrev bringupResetsRefused : Nat := 0x13130
abbrev bringupReport : Nat := 0x13140
abbrev powerPowerState : Nat := 0x14100
abbrev powerReposeCtl : Nat := 0x14108
abbrev powerReposeUr : Nat := 0x14110
abbrev powerReposeCount : Nat := 0x14118
abbrev powerLastWake : Nat := 0x14120
abbrev fuseFuseStatus : Nat := 0x15100
abbrev fuseProgStatus : Nat := 0x15108
abbrev fuseProgEntry : Nat := 0x15110
abbrev fuseProgSlot : Nat := 0x15118
abbrev fuseProgResult : Nat := 0x15120
abbrev fuseLastError : Nat := 0x15128
abbrev fuseTempSpan : Nat := 0x15130
abbrev dumpDumpCtl : Nat := 0x16100
abbrev dumpDumpBase : Nat := 0x16108
abbrev dumpDumpSize : Nat := 0x16110
abbrev dumpDumpStatus : Nat := 0x16118
abbrev dumpDumpNeeded : Nat := 0x16120
abbrev regionThrottle : Nat := 0x100
abbrev regionFloor : Nat := 0x108
abbrev regionBands : Nat := 0x110
abbrev regionRegionTemp : Nat := 0x118
abbrev regionRegionVolt : Nat := 0x180
abbrev regionDroops : Nat := 0x188
abbrev regionRegionEnergy : Nat := 0x190
abbrev linkTxBytes : Nat := 0x200
abbrev linkRxBytes : Nat := 0x208
abbrev linkSentTx : Nat := 0x210
abbrev linkSentRx : Nat := 0x218
abbrev linkLinkState : Nat := 0x100
abbrev layerLayerInfo : Nat := 0x100
abbrev layerMrStatus : Nat := 0x108
abbrev layerScrubCtl : Nat := 0x110
abbrev layerCorrected : Nat := 0x118
abbrev layerUncorrected : Nat := 0x120
abbrev layerNoEccReads : Nat := 0x128
abbrev layerNbCmds : Nat := 0x130
abbrev layerNbRejects : Nat := 0x138
abbrev layerNbHolds : Nat := 0x140
abbrev layerHoldMax : Nat := 0x148
abbrev layerNbHung : Nat := 0x150
abbrev layerScrubPasses : Nat := 0x158
abbrev layerAccess : Nat := 0x180
abbrev layerMr : Nat := 0x200
abbrev layerDramReading : Nat := 0x400
abbrev tileTaintState : Nat := 0x380
abbrev tileTaintBeat : Nat := 0x388
abbrev tileTaintCmd : Nat := 0x390
abbrev tileLineageLastLo : Nat := 0x398
abbrev tileLineageLastHi : Nat := 0x3A0
abbrev tileMaqRate : Nat := 0x3C0
abbrev tileMaqState : Nat := 0x3C8
abbrev tileMaqCounts : Nat := 0x3D0
abbrev tileChiselState : Nat := 0x300
abbrev tileChiselDue : Nat := 0x308
abbrev tileRowBadLo : Nat := 0x310
abbrev tileRowBadHi : Nat := 0x318
abbrev tileLastPass : Nat := 0x320
abbrev tilePatina : Nat := 0x280
abbrev tilePatinaBeat : Nat := 0x288
abbrev tileMapState : Nat := 0x290
abbrev tileCastTile : Nat := 0x240
abbrev tileCastLast : Nat := 0x248
abbrev tileCounter : Nat := 0x100
abbrev tileSampleTag : Nat := 0x180
abbrev tileStackWr : Nat := 0x188
abbrev tileDbgState : Nat := 0x190
abbrev tileTsens : Nat := 0x3E0
end Reg

/-- Base event code of the page's range (Table 15.4), if it owns one. -/
def eventBase (page : Nat) : Option Nat :=
  match page with
  | 0x000 => some 0x0000
  | 0x001 => some 0x0010
  | 0x00B => some 0x0020
  | 0x005 => some 0x0030
  | 0x006 => some 0x0040
  | 0x007 => some 0x0050
  | 0x008 => some 0x0060
  | 0x009 => some 0x0070
  | 0x00C => some 0x0090
  | 0x00D => some 0x00A0
  | 0x00E => some 0x00B0
  | 0x012 => some 0x00C0
  | 0x013 => some 0x00D0
  | n => if 0x070 ≤ n && n ≤ 0x07B then some 0x0080 else none

/-- PAGE_ID's KIND of a page (Table 15.2). -/
def pageKind (page : Nat) : Nat :=
  if page < 0x020 then 0 else if page < 0x040 then 1 else if page < 0x070 then 2
  else if page < 0x400 then 3 else 4

/-- PAGE_ID's INSTANCE of a page (Table 15.2). -/
def pageInstance (page : Nat) : Nat :=
  match pageKind page with
  | 1 => page - 0x020
  | 2 => page - 0x040
  | 3 => page - 0x070
  | 4 => page - 0x400
  | _ => 0

/-- PAGE_ID (Table 15.2). -/
def pageIdWord (page : Nat) : Nat :=
  packNat [(28, 4, pageKind page), (16, 12, pageInstance page), (0, 12, page)]

/-- The HOSTU entry is in force on this page (R387): tile pages and DIGEST. -/
def pageHostU (page : Nat) : Bool := page == 0x00E || pageKind page == 4

/-- PAGE_CAPS (Table 15.3). -/
def pageCapsWord (page : Nat) : Nat :=
  packNat [(16, 8, (eventBase page).getD 0 / 16), (2, 1, b2n (pageHostU page)),
    (1, 1, b2n ((bodyRows page).any fun r => r.acc == .lk)), (0, 1, b2n (eventBase page).isSome)]

/-- Reset entry of a page's access table for class `m`, bits [3:0] (Table 12.11). -/
def entryReset (page m : Nat) : Nat :=
  let row : List Nat :=
    match page with
    | 0x002 => [3, 0, 3, 0, 0, 0, 0, 0]
    | 0x004 => [3, 0, 3, 3, 0, 0, 1, 0]
    | 0x00F => [3, 0, 3, 3, 0, 0, 1, 0]
    | 0x00E => [3, 7, 1, 3, 0, 0, 0, 0]
    | 0x010 => [3, 0, 3, 0, 0, 0, 0, 0]
    | 0x012 => [3, 0, 3, 0, 0, 0, 3, 0]
    | 0x015 => [1, 0, 3, 3, 0, 0, 0, 3]
    | 0x016 => [1, 0, 3, 0, 0, 0, 0, 0]
    | n => if pageKind n == 4 then [3, 5, 3, 1, 0, 0, 1, 0] else [3, 0, 3, 1, 0, 0, 1, 0]
  row.getD m 0

/-- Reset entry of a layer's memory access table (Table 12.11). -/
def layerEntryReset (m : Nat) : Nat := [3, 7, 1, 0, 0xB, 3, 1, 0].getD m 0

/-- Reset value of the stored register at window offset `k`. -/
def regReset (k : Nat) : Word :=
  let page := k / 0x1000
  let off := k % 0x1000
  if off == 0x010 then word (b2n (eventBase page).isSome)
  else if 0x040 ≤ off && off < 0x080 then word (entryReset page ((off - 0x040) / 8))
  else if pageKind page == 3 && 0x180 ≤ off && off < 0x1C0 then word (layerEntryReset ((off - 0x180) / 8))
  else ((findRow page off).map (·.reset)).getD 0

end Sys2Proof.Machine
end

