-- ==== Sys2Proof/Machine/Flags.lean ====
section
/-! DEFINITION. The codes that records and status entries carry: severities, statuses, order numbers,
MSI-X vectors and the page that owns an event code (chapters 15 and 16). -/

namespace Sys2Proof.Machine

/-- SEVERITY of an event record (Table 15.9). -/
def Severity.code : Severity → Nat
  | .info => 0 | .note => 1 | .fault => 2 | .fatal => 3

/-- INFO and NOTE records, which R105 and R458 drop first. -/
def Severity.minor : Severity → Bool
  | .info => true | .note => true | _ => false

/-- Status codes (Table 15.13). -/
def Status.code : Status → Nat
  | .ok => 0x00 | .accepted => 0x01 | .badOperand => 0x02 | .stateIllegal => 0x03
  | .notLicensed => 0x04 | .noSpare => 0x05 | .outOfWindow => 0x06 | .fuseFull => 0x07
  | .cancelled => 0x08 | .gatherTimeout => 0x09 | .dirtyOverflow => 0x0A | .noSpace => 0x0B
  | .storeError => 0x0C | .noStore => 0x0D | .notFound => 0x0E | .storeCorrupt => 0x0F
  | .keyMismatch => 0x10 | .restoreMismatch => 0x11 | .peerUnreachable => 0x12
  | .partnerBusy => 0x13 | .sameFeed => 0x14 | .mirrorDependent => 0x15
  | .digestFailed => 0x16 | .chipMismatch => 0x17

/-- The vector that an event's chapter names (Tables 15.5 and 16.2), if any. -/
def namedVector (code : Nat) : Option Nat :=
  if code == 0x0040 then some 2
  else if 0x0090 ≤ code && code ≤ 0x0095 then some 3
  else if 0x00A0 ≤ code && code ≤ 0x00A5 then some 4
  else if 0x0060 ≤ code && code ≤ 0x0062 then some 5
  else if code == 0x00B0 || code == 0x00B1 then some 6
  else if code == 0x00D0 || code == 0x00D5 || code == 0x00D6 || code == 0x00D7 then some 6
  else if code == 0x00C1 || code == 0x00C2 then some 7
  else if code == 0x00C3 || code == 0x00C4 then some 8
  else if 0x00D2 ≤ code && code ≤ 0x00D4 then some 9
  else none

/-- The vector an event selects (R452). -/
def eventVector (code : Nat) (sev : Severity) : Option Nat :=
  match sev with
  | .fatal => some 0
  | .fault => some ((namedVector code).getD 1)
  | _ => namedVector code

/-- The page that owns an event (R450): by the code's range, and for codes 0x0080 to 0x008F the page of
the layer named by the detail, or by the source for CONVERT_DONE. -/
def eventPage (code source detailLayer : Nat) : Nat :=
  match code / 16 with
  | 0x0 => 0x000 | 0x1 => 0x001 | 0x2 => 0x00B | 0x3 => 0x005 | 0x4 => 0x006 | 0x5 => 0x007
  | 0x6 => 0x008 | 0x7 => 0x009
  | 0x8 => if code == 0x0083 then 0x070 + (source - 0x4B0) else 0x070 + detailLayer
  | 0x9 => 0x00C | 0xA => 0x00D | 0xB => 0x00E | 0xC => 0x012 | _ => 0x013

/-- Opcodes of Table 15.11. -/
def opFENCE : Nat := 0x01
def opUNFENCE : Nat := 0x02
def opPROMOTE : Nat := 0x03
def opCHISEL_NOW : Nat := 0x04
def opCHISEL_DEFER : Nat := 0x05
def opMAQ_RATE : Nat := 0x06
def opCAST : Nat := 0x07
def opRESTORE : Nat := 0x08
def opWATCH : Nat := 0x09
def opSTEP : Nat := 0x0A
def opRUN : Nat := 0x0B
def opFREEZE : Nat := 0x0C
def opDIGEST_OPEN : Nat := 0x0D
def opDIGEST_CLOSE : Nat := 0x0E
def opREPOSE : Nat := 0x0F
def opFUSE_COMMIT : Nat := 0x10
def opPARTNER_BIND : Nat := 0x11
def opRELEASE_PARTITION : Nat := 0x12

/-- Unit codes within a tile (Table 1.2). -/
def uNODE : Nat := 0x00
def uARRAY : Nat := 0x01
def uVECTOR : Nat := 0x02
def uSRAM : Nat := 0x03
def uDMA : Nat := 0x04
def uNI : Nat := 0x05
def uROUTER : Nat := 0x06
def uSLICE : Nat := 0x07
def uNEARBANK0 : Nat := 0x08
def uTSENS : Nat := 0x0C

/-- Sources outside the tile range (Table 1.3). -/
def srcLink (n : Nat) : Nat := 0x480 + n
def srcLayer (l : Nat) : Nat := 0x4B0 + l
def srcPlinth : Nat := 0x4C0
def srcHostIf : Nat := 0x4C1
def srcCastStore : Nat := 0x4C2
def srcPalalmux : Nat := 0x4C3
def srcIxano : Nat := 0x4C4
def srcPower : Nat := 0x4C5

/-- The no-command identifiers of R32. -/
def noLayer : BitVec 16 := 0xFFFF
def noOper : BitVec 16 := 0xFFFF
def noCseq : BitVec 32 := 0xFFFF_FFFF

end Sys2Proof.Machine
end

