-- ==== Sys2Proof/Machine/Route.lean ====
section
/-! DEFINITION. Packets of the armature network as their sources form them: headers, bodies, CRC, routes, multicast
masks and the flits on the wire (R83 to R90, R109). -/

namespace Sys2Proof.Machine

/-- Field [hi:lo] of a flit. -/
def flitFld (f : Flit) (hi lo : Nat) : Nat := (f.toNat >>> lo) % 2 ^ (hi + 1 - lo)

/-- Replace field [hi:lo] of a flit. -/
def setFlitFld (f : Flit) (hi lo v : Nat) : Flit :=
  let m : Flit := BitVec.ofNat 128 ((2 ^ (hi + 1 - lo) - 1) <<< lo)
  (f &&& ~~~m) ||| BitVec.ofNat 128 ((v % 2 ^ (hi + 1 - lo)) <<< lo)

/-- What an on-die header says (Tables 3.2 and 3.3). -/
structure ArmHead where
  kind : Nat
  mc   : Bool
  len  : Nat
  vc   : Nat
  src  : Nat
  xid  : BitVec 16
  deriving DecidableEq, Repr

/-- Read an on-die header; a multicast's source is the hub. -/
def armHead (h : Flit) : ArmHead :=
  let mc := flitFld h 123 123 == 1
  { kind := flitFld h 127 124, mc, len := flitFld h 122 120 + 1, vc := flitFld h 119 118
    src := if mc then hubEndpoint else flitFld h 117 107
    xid := BitVec.ofNat 16 (if mc then flitFld h 49 34 else flitFld h 95 80) }

/-- The kind belongs to the network or link class, with that packet length (Table 3.4). -/
def kindOk (net : ArmNet) (kind len : Nat) : Bool :=
  match net, kind with
  | .order, 0x0 => len == 2
  | .order, 0x1 => len == 2
  | .order, 0x2 => 2 ≤ len && len ≤ 8
  | .report, 0x8 => len == 1
  | .report, 0x9 => len == 1
  | .report, 0xA => len == 3
  | .report, 0xB => len == 3
  | .report, 0xC => 2 ≤ len && len ≤ 8
  | .sentOrder, 0x0 => len == 2
  | .sentOrder, 0x3 => len == 2
  | .sentOrder, 0x4 => len == 2
  | .sentOrder, 0x5 => 2 ≤ len && len ≤ 8
  | .sentReport, 0x3 => len == 2
  | .sentReport, 0x8 => len == 1
  | .sentReport, 0x9 => len == 1
  | .sentReport, 0xD => 2 ≤ len && len ≤ 8
  | _, _ => false

/-! ### Routes on die (R80, R81, R88 to R90) -/

/-- The tile that holds the hub port of a tile's quadrant (Table 3.1). -/
def hubPortTile (t : Nat) : Nat := (if rowOf t < 18 then 8 else 26) * 32 + (if colOf t < 16 then 7 else 23)

/-- The quadrant of a tile (Table 3.1). -/
def quadOf (t : Nat) : Nat := (if rowOf t < 18 then 0 else 2) + (if colOf t < 16 then 0 else 1)

/-- The neighbour of a tile in a direction: 0 N, 1 E, 2 S, 3 W; none beyond the die edge. -/
def nextTile (t dir : Nat) : Option Nat :=
  match dir with
  | 0 => if rowOf t == 0 then none else some (t - 32)
  | 1 => if colOf t == 31 then none else some (t + 1)
  | 2 => if rowOf t == 35 then none else some (t + 32)
  | _ => if colOf t == 0 then none else some (t - 1)

/-- Where a route ends: it ejects at a router, or a router discards the packet. -/
inductive Landing where
  | eject (t : Nat)
  | discard (t : Nat)
  deriving DecidableEq, Repr

/-- Follow `n` turn codes from the router of tile `t`, entered in direction `dir` (R88). A turn from a horizontal
direction, the die edge and the end of PATH discard the packet (R89). -/
def walkPath : Nat → Nat → Nat → Nat → Landing
  | 0, _, t, _ => .discard t
  | n + 1, path, t, dir =>
    if path % 4 == 3 then .eject t
    else
      let out := if path % 4 == 0 then dir else if path % 4 == 1 then (dir + 3) % 4 else (dir + 1) % 4
      if path % 4 != 0 && dir % 2 == 1 then .discard t
      else
        match nextTile t out with
        | none => .discard t
        | some u => walkPath n (path / 4) u out

/-- DIR0 and PATH from one tile to another, vertical first: what the hub writes for its packets and, at S0, into
each node's route word (R89). -/
def routeWord (src dst : Nat) : Nat × Nat :=
  let down := decide (rowOf src < rowOf dst)
  let right := decide (colOf src < colOf dst)
  let v := if down then rowOf dst - rowOf src else rowOf src - rowOf dst
  let h := if right then colOf dst - colOf src else colOf src - colOf dst
  if v == 0 then (if right then 1 else 3, 3 * 4 ^ h)
  else if h == 0 then (if down then 2 else 0, 3 * 4 ^ v)
  else (if down then 2 else 0, (if down == right then 1 else 2) * 4 ^ v + 3 * 4 ^ (v + h))

/-! ### Packets as their source forms them (R83 to R85, R87 to R90) -/

/-- The packet with its CRC-32C in header bits [31:0] (R84). -/
def withCrc : List Flit → List Flit
  | [] => []
  | h :: body => setFlitFld h 31 0 (packetCrc (h :: body)).toNat :: body

/-- A route word: DIR0 in [47:46], PATH in [45:0] (the layout is assumption 45). -/
def routeBits (r : Nat × Nat) : BitVec 48 := BitVec.ofNat 48 (r.1 % 4 * 2 ^ 46 + r.2 % 2 ^ 46)

/-- A packet with a unicast header (Table 3.2); `route` is the route word of its path. -/
def uniPacket (kind vc src dst : Nat) (xid : BitVec 16) (route : BitVec 48) (body : List Flit) : List Flit :=
  withCrc (BitVec.ofNat 128 (packNat [(124, 4, kind), (120, 3, body.length), (118, 2, vc), (107, 11, src), (96, 11, dst),
    (80, 16, xid.toNat), (32, 48, route.toNat)]) :: body)

/-- A packet with a multicast header (Table 3.3). -/
def multiPacket (kind vc rows cols : Nat) (xid : BitVec 16) (body : List Flit) : List Flit :=
  withCrc (BitVec.ofNat 128 (packNat [(124, 4, kind), (123, 1, 1), (120, 3, body.length), (118, 2, vc), (82, 36, rows),
    (50, 32, cols), (34, 16, xid.toNat)]) :: body)

/-- KIND of the packet that carries an operation (Tables 3.4 and 3.5): ORDER, QUERY or LOAD. -/
def opKind (op : Nat) : Nat := if op / 16 == 2 then 1 else if op / 16 == 3 then 2 else 0

/-- The first body flit of an ORDER, QUERY or LOAD (R87). -/
def opFlit (op : Nat) (mapgen : BitVec 16) (operand : BitVec 96) : Flit :=
  BitVec.ofNat 128 (packNat [(120, 8, op), (104, 16, mapgen.toNat), (0, 96, operand.toNat)])

/-- The columns of a row that a set of nodes holds. -/
def rowCols (v : BitVec 1152) (r : Nat) : Nat := v.toNat >>> (32 * r) % 2 ^ 32

/-- The sets of rows that hold the same columns, as (ROWMASK, COLMASK): one pair where the set is a product. -/
def maskGroups (v : BitVec 1152) : List (Nat × Nat) :=
  (List.range 36).foldl (fun gs r =>
    let c := rowCols v r
    if c == 0 then gs
    else if gs.any fun g => g.2 == c then gs.map fun g => if g.2 == c then (g.1 ||| 2 ^ r, c) else g
    else gs ++ [(2 ^ r, c)]) []

/-- The nodes of rows and columns. -/
def maskNodes (g : Nat × Nat) : BitVec 1152 :=
  BitVec.ofNat 1152 ((List.range 36).foldl (fun a r => if g.1.testBit r then a ||| g.2 <<< (32 * r) else a) 0)

/-- Rows and columns of a quadrant, and the tile that holds its hub port (Table 3.1). -/
def quadRows (q : Nat) : Nat := if q < 2 then 2 ^ 18 - 1 else (2 ^ 18 - 1) <<< 18
def quadCols (q : Nat) : Nat := if q % 2 == 0 then 2 ^ 16 - 1 else (2 ^ 16 - 1) <<< 16
def quadPort (q : Nat) : Nat := [263, 279, 839, 855].getD q 263

/-- The quadrants that a multicast is sent into: those whose rows and columns meet both masks (R90). -/
def quadrants (g : Nat × Nat) : List Nat :=
  (List.range 4).filter fun q => g.1 &&& quadRows q != 0 && g.2 &&& quadCols q != 0

/-- A flit on the wire: 128 data bits in [127:0], and above them the 9-bit SECDED code over the data bits and TYPE,
the VC and TYPE (R83). -/
def wireFlit (type vc : Nat) (f : Flit) : WireFlit :=
  BitVec.ofNat 141 (((type <<< 11 ||| vc <<< 9 ||| (Config.secded (BitVec.ofNat 2 type) f).toNat) <<< 128) ||| f.toNat)

/-- The flits behind a header, the last of which is the TAIL. -/
def wireBody (vc : Nat) : List Flit → List WireFlit
  | [] => []
  | [f] => [wireFlit 2 vc f]
  | f :: g :: fs => wireFlit 1 vc f :: wireBody vc (g :: fs)

/-- A packet on the wire. -/
def wirePacket (vc : Nat) : List Flit → List WireFlit
  | [] => []
  | [h] => [wireFlit 3 vc h]
  | h :: f :: fs => wireFlit 0 vc h :: wireBody vc (f :: fs)

/-- The bits of a flit on the wire that its code protects: all but the VC (R83). -/
def protectedBits (m : WireFlit) : Nat :=
  ((List.range 141).filter fun i => m.getLsbD i && i != 137 && i != 138).length

/-- The packet behind the hops on which its flits were altered, as (flit, bits inverted): a router corrects a single
bit and counts it, and forwards a flit with more than one bit inverted unchanged (R83). Answers the corrections,
whether a flit went on uncorrectable, and the flits. -/
def throughHops : List (Nat × WireFlit) → List Flit → Nat × Bool × List Flit
  | [], fs => (0, false, fs)
  | (i, m) :: es, fs =>
    match protectedBits m with
    | 0 => throughHops es fs
    | 1 => let r := throughHops es fs; (r.1 + 1, r.2)
    | _ => let r := throughHops es (fs.set i (fs.getD i 0 ^^^ m.setWidth 128)); (r.1, true, r.2.2)

/-- The first of the XIDs from `x` on that is none of `bad` (R103). -/
def freshXid (bad : List (BitVec 16)) : Nat → BitVec 16 → BitVec 16
  | 0, x => x
  | n + 1, x => if bad.contains x then freshXid bad n (x + 1) else x

/-! ### Packets between chips (R109 to R111) -/

/-- A sentinel packet as it stands on a link (Table 3.9): ROUTE and CLS are those behind the source's first hop. -/
def sentPacket (kind : Nat) (net cls : Bool) (src dst : BitVec 13) (xid : BitVec 16) (route : Nat) (body : List Flit) :
    List Flit :=
  withCrc (BitVec.ofNat 128 (packNat [(124, 4, kind), (121, 3, body.length), (120, 1, b2n net), (119, 1, b2n cls),
    (106, 13, src.toNat), (93, 13, dst.toNat), (77, 16, xid.toNat), (33, 44, route)]) :: body)

/-- Body flit of an ELECT advertisement, whose layout the spec does not give (assumption 47): the master in [127:64],
whether one is known in [63], whether it claims with ROLE = MASTER in [62], the hops in [15:0]. -/
def electFlit (master : Option Word) (forced : Bool) (hops : Nat) : Flit :=
  BitVec.ofNat 128 (packNat [(64, 64, (master.getD 0).toNat), (63, 1, b2n master.isSome), (62, 1, b2n forced), (0, 16, hops)])

/-- Read an ELECT advertisement that came on a link. -/
def electOf (link : Nat) (f : Flit) : ElectAdv :=
  { link, master := if flitFld f 63 63 == 1 then some (BitVec.ofNat 64 (flitFld f 127 64)) else none
    hops := flitFld f 15 0, forced := flitFld f 62 62 == 1 }

/-- Body flit of a TIMEX packet (assumption 47): of a request its sender's stamp in [63:0]; of a reply the stamps of
receipt and reply in [127:64] and [63:0]. -/
def timexFlit (hi lo : Word) : Flit := hi ++ lo

end Sys2Proof.Machine
end

