-- ==== Sys2Proof/Machine/Ops.lean ====
section
/-! DEFINITION. The named operations over the state that every command family shares: reading and
writing registers, tiles, sensors and links by number, plinth time, the map, raising events, hang
rings, counters and completing orders. -/

namespace Sys2Proof.Machine

/-! ### Registers as stored -/

/-- The register at window offset `k` as last written (R17, R444). -/
def State.reg (s : State) (k : Nat) : Word := tget (regReset k) s.regs k

/-- Store a register. -/
def State.setReg (s : State) (k : Nat) (v : Word) : State :=
  { s with regs := tset (regReset k) s.regs k v }

/-- The register as in force since the last beat tick. -/
def State.inForce (s : State) (k : Nat) : Word := tget (regReset k) s.force k

/-- The register as in force since the last thermal decision phase. -/
def State.inTherm (s : State) (k : Nat) : Word := tget (regReset k) s.therm k

/-- The bits in which a stored counter counts (all of them outside the register map). -/
def regMask (k : Nat) : Nat :=
  match findRow (k / 0x1000) (k % 0x1000) with
  | some r => r.mask.toNat
  | none => 2 ^ 64 - 1

/-- Add `n` to a counter register; counters saturate at all ones. -/
def State.bump (s : State) (k : Nat) (n : Nat := 1) : State :=
  s.setReg k (word (min ((s.reg k).toNat + n) (regMask k)))

/-- Window offset of a register of a region, link, layer or tile page. -/
def regionReg (g off : Nat) : Nat := (0x020 + g) * 0x1000 + off
def linkReg (n off : Nat) : Nat := (0x040 + n) * 0x1000 + off
def layerReg (l off : Nat) : Nat := (0x070 + l) * 0x1000 + off
def tileReg (t off : Nat) : Nat := (0x400 + t) * 0x1000 + off

/-! ### Parts by number -/

/-- Physical tile `t`. -/
def State.tile (s : State) (t : Nat) : Tile := tget {} s.tiles t

/-- Replace a tile. -/
def State.setTile (s : State) (t : Nat) (x : Tile) : State := { s with tiles := tset {} s.tiles t x }

/-- Change a tile. -/
def State.modTile (s : State) (t : Nat) (f : Tile → Tile) : State := s.setTile t (f (s.tile t))

/-- Change a tile's core, maquette, chisel, patina or page part. -/
def State.modCore (s : State) (t : Nat) (f : Core → Core) : State :=
  s.modTile t fun x => { x with core := f x.core }
def State.modMaq (s : State) (t : Nat) (f : MaqTile → MaqTile) : State :=
  s.modTile t fun x => { x with maq := f x.maq }
def State.modChisel (s : State) (t : Nat) (f : ChiselTile → ChiselTile) : State :=
  s.modTile t fun x => { x with chisel := f x.chisel }
def State.modPat (s : State) (t : Nat) (f : PatTile → PatTile) : State :=
  s.modTile t fun x => { x with pat := f x.pat }
def State.modPage (s : State) (t : Nat) (f : TilePage → TilePage) : State :=
  s.modTile t fun x => { x with page := f x.page }

/-- Link `n`. -/
def State.link (s : State) (n : Nat) : Link := tget {} s.links n
def State.modLink (s : State) (n : Nat) (f : Link → Link) : State :=
  { s with links := tset {} s.links n (f (s.link n)) }

/-- Sensor `n`: logic sensor of physical tile n below 1,152, then DRAM sensors layer by layer (R306). -/
def State.sensor (s : State) (n : Nat) : Sensor := tget {} s.heat.sensors n
def State.modSensor (s : State) (n : Nat) (f : Sensor → Sensor) : State :=
  { s with heat.sensors := tset {} s.heat.sensors n (f (s.sensor n)) }

/-- Region `g`'s throttle. -/
def State.region (s : State) (g : Nat) : Throttle := tget {} s.heat.regions g
def State.modRegion (s : State) (g : Nat) (f : Throttle → Throttle) : State :=
  { s with heat.regions := tset {} s.heat.regions g (f (s.region g)) }

/-- Maquette session slot `k`. -/
def State.session (s : State) (k : Nat) : Option Session := tget none s.maq.sessions k
def State.setSession (s : State) (k : Nat) (x : Option Session) : State :=
  { s with maq.sessions := tset none s.maq.sessions k x }

/-- Chisel stagger slot `k`. -/
def State.slot (s : State) (k : Nat) : Option Slot := tget none s.chisel.slots k
def State.setSlot (s : State) (k : Nat) (x : Option Slot) : State :=
  { s with chisel.slots := tset none s.chisel.slots k x }

/-- Digest slot `k`. -/
def State.dslot (s : State) (k : Nat) : DigSlot := tget {} s.digest.slots k
def State.modDslot (s : State) (k : Nat) (f : DigSlot → DigSlot) : State :=
  { s with digest.slots := tset {} s.digest.slots k (f (s.dslot k)) }

/-- Weights set `w`. -/
def State.wset (s : State) (w : Nat) : WSet := tget {} s.digest.sets w
def State.modWset (s : State) (w : Nat) (f : WSet → WSet) : State :=
  { s with digest.sets := tset {} s.digest.sets w (f (s.wset w)) }

/-! ### Plinth time (R53, R55) -/

/-- The beat number (R55). -/
def State.beat (s : State) : Nat := s.time.time.toNat / beatCycles

/-- The plinth cycle within the beat. -/
def State.cyc (s : State) : Nat := s.time.time.toNat % beatCycles

/-- What stays in the acknowledgement queues when each endpoint has sent its `n` oldest; `sent` are the senders of
those passed over. -/
def acksLeft (n : Nat) : List AckOut → List Nat → List AckOut
  | [], _ => []
  | a :: as, sent => if sent.count a.port < n then acksLeft n as (a.port :: sent) else a :: acksLeft n as sent

/-- In `n` plinth cycles every endpoint sends up to `n` acknowledgements, which need no buffer where they arrive
(R104, R115). -/
def State.ackDrain (s : State) (n : Nat) : State :=
  if s.arm.acks.isEmpty then s else { s with arm.acks := acksLeft n s.arm.acks [] }

/-- The first of the coming cycles that may be a step of 0 or 2, when the last such step lies `last` cycles back: no
two of them stand in 4,096 consecutive cycles (R53). -/
def slewFirst (last : Nat) : Nat := max 1 (4097 - last)

/-- The steps of 0 or 2 that `n` cycles can hold (R53). -/
def slewRoom (last n : Nat) : Nat := if n < slewFirst last then 0 else 1 + (n - slewFirst last) / 4096

/-- In a passage of `n` plinth cycles a pending offset is slewed by one count in each step of 0 or 2 (R53). -/
def State.slew (s : State) (n : Nat) : State :=
  let last := s.time.lastSlew
  let k := min (slewRoom last n) s.time.slewPend.natAbs
  { s with time.lastSlew := if k == 0 then last + n else n + 1 - (slewFirst last + (k - 1) * 4096)
           time.slewPend := if 0 < s.time.slewPend then s.time.slewPend - k else s.time.slewPend + k }

/-- Let plinth cycles pass within the beat, up to cycle `c`; time never decreases (R53). -/
def State.toCycle (s : State) (c : Nat) : State :=
  if s.cyc < c && c < beatCycles then
    let t := (s.ackDrain (c - s.cyc)).slew (c - s.cyc)
    { t with time.time := word (s.beat * beatCycles + c) }
  else s

/-- Draw a fresh free value (assumption 4). -/
def State.draw (s : State) : Word × State := (Config.freeValue s.free, { s with free := s.free + 1 })

/-! ### Tiles, regions and the map (R23 to R29) -/

/-- Region of a physical tile (R24). -/
def regionOf (t : Nat) : Nat := (rowOf t / 9) * 4 + colOf t / 8

/-- Region of a logical tile (R25). -/
def regionOfLogical (l : Nat) : Nat := (l / 32 / 8) * 4 + l % 32 / 8

/-- Physical tile of logical tile `l` with no repair applied (R27). -/
def mapDefault (l : Nat) : Nat := (l / 32 + l / 32 / 8) * 32 + l % 32

/-- The logical tile that stands on physical tile `t` with no repair applied (R27). -/
def mapDefaultInv (t : Nat) : Option Nat :=
  if rowOf t % 9 == 8 then none else some ((rowOf t - rowOf t / 9) * 32 + colOf t)

/-- The physical tile of a logical tile in one copy of the map (R29). -/
def NiMap.phys (m : NiMap) (l : Nat) : Nat := (tget (BitVec.ofNat 11 (mapDefault l)) m.map l).toNat

/-- Change one entry of a copy of the map. -/
def NiMap.setPhys (m : NiMap) (l t : Nat) : NiMap :=
  { m with map := tset (BitVec.ofNat 11 (mapDefault l)) m.map l (BitVec.ofNat 11 t) }

/-- The logical tile that a physical tile carries in one copy of the map, if any (R28). -/
def NiMap.logical (m : NiMap) (t : Nat) : Option Nat :=
  match m.map.find? fun e => e.2.toNat == t with
  | some e => some e.1
  | none =>
    match mapDefaultInv t with
    | some l => if m.map.any fun e => e.1 == l then none else some l
    | none => none

/-- Fence bit of a physical tile and hold bit of a logical tile in one copy (R255). -/
def NiMap.fenced (m : NiMap) (t : Nat) : Bool := m.fence.getLsbD t
def NiMap.held (m : NiMap) (l : Nat) : Bool := m.hold.getLsbD l

/-- Set or clear one bit of a vector. -/
def setBit {n : Nat} (v : BitVec n) (i : Nat) (b : Bool) : BitVec n :=
  if b then v ||| BitVec.ofNat n (2 ^ i) else v &&& ~~~(BitVec.ofNat n (2 ^ i))

/-- The physical tile of a logical tile in the hub's map. -/
def State.phys (s : State) (l : Nat) : Nat := s.map.hub.phys l

/-- The logical tile that a physical tile carries in the hub's map. -/
def State.logical (s : State) (t : Nat) : Option Nat := s.map.hub.logical t

/-- The hub's fence bit of a physical tile. -/
def State.fenced (s : State) (t : Nat) : Bool := s.map.hub.fenced t

/-- The hub's hold bit of the logical tile that `t` carries. -/
def State.heldTile (s : State) (t : Nat) : Bool := ((s.logical t).map s.map.hub.held).getD false

/-- The timestamp of a happening at a local edge of domain `d` in the present plinth cycle *t*: a value from *t* − 3
to *t*, with the offset a free value (R70). A domain's timestamps never decrease, and its records of one plinth cycle
carry one timestamp, since they are taken to come at one edge (R71, assumption 4). -/
def State.localStamp (s : State) (d : Nat) : Word × State :=
  let now := s.time.time
  let x := s.draw
  let new := word (now.toNat - x.1.toNat % 4)
  match tget none s.time.stamps d with
  | some (at_, v) =>
    if at_ = now then (v, s)
    else
      let v := if new.toNat < v.toNat then v else new
      (v, { x.2 with time.stamps := tset none s.time.stamps d (some (now, v)) })
  | none => (new, { x.2 with time.stamps := tset none s.time.stamps d (some (now, new)) })

/-- Domains of a tile's region, of a link's PHY group and of the other units with a clock (Tables 1.4 and 2.2). A
layer reports through stack interface A (assumption 4). -/
def tileDomain (t : Nat) : Nat := regionOf t + 1
def linkDomain (n : Nat) : Nat := 17 + n / 12
def layerDomain : Nat := 21
def sourceDomain (src : Nat) : Option Nat :=
  if src == srcHostIf then some 23 else if src == srcPalalmux || src == srcIxano then some 24
  else if src == srcCastStore then some 25 else none

/-- The clock domain of a region (Table 2.2) and whether it is stopped. -/
def State.regionStopped (s : State) (g : Nat) : Bool := s.time.stopped.getLsbD (g + 1)

/-- The security/management domain runs, in which the power registers of the region pages live (R448, R470). -/
def State.powerRegsOn (s : State) : Bool := !s.time.stopped.getLsbD 24

/-- Entries of a ring written and not yet consumed: its 32-bit counts wrap (Tables 13.13, 15.10 and 15.16). -/
def unread (wr : BitVec 32) (rd : Word) : Nat := (wr - rd.setWidth 32).toNat

/-- The physical tiles, ascending. -/
def allTiles : List Nat := List.range numTiles

/-- The physical tiles of a region. -/
def tilesOfRegion (g : Nat) : List Nat := allTiles.filter fun t => regionOf t == g

/-- Set every bit of a list of numbers in a word, from `base`. -/
def bitsWord (base : Nat) (ns : List Nat) : Word :=
  word (ns.foldl (fun a n => if base ≤ n && n < base + 64 then a ||| 2 ^ (n - base) else a) 0)

/-! ### Replies that carry records (R169, R424) -/

/-- The REPLY packets that carry records of 16 bytes, up to 6 in a packet: LINEAGE_QUERY gives its report and the
last beat, HANG_READ gives zeros, as the body flits of each. A reply without a record is one packet with NREC 0. -/
def recordReply (id last : Nat) (recs : List Flit) : List (List Flit) :=
  let n := max 1 ((recs.length + 5) / 6)
  (List.range n).map fun p =>
    let rs := (recs.drop (6 * p)).take 6
    BitVec.ofNat 128 (packNat [(120, 4, p), (116, 4, n - 1), (112, 4, rs.length), (96, 16, id), (87, 9, last)]) :: rs

/-- Bytes as flits of 16, the first byte lowest. -/
def byteFlits (bs : List Byte) : List Flit :=
  (List.range (bs.length / 16)).map fun i => BitVec.ofNat 128 (leNat ((bs.drop (16 * i)).take 16))

/-! ### Messages of the nodes (R89, R98, R103) -/

/-- The route word of a node, as the hub wrote it at S0 (R89). -/
def State.routeOf (s : State) (t : Nat) : BitVec 48 := tget 0 s.arm.routes t

/-- A packet of node `t` to its hub port. -/
def State.nodePacket (s : State) (t kind vc : Nat) (xid : BitVec 16) (body : List Flit) : List WireFlit :=
  wirePacket vc (uniPacket kind vc t hubEndpoint xid (s.routeOf t) body)

/-- The body of a SUMMARY packet (Table 8.2). -/
def Summary.body (x : Summary) : List Flit :=
  [BitVec.ofNat 128 (packNat [(77, 51, x.beat), (76, 1, b2n x.throttle), (75, 1, b2n x.due), (74, 1, b2n x.halted),
      (58, 16, x.gen.toNat), (50, 8, x.evdrop), (42, 8, x.eccCorr), (38, 4, x.eccUncorr), (34, 4, x.sealFault),
      (30, 4, x.sealInj), (26, 4, x.droop), (0, 26, x.passes)]),
   BitVec.ofNat 128 (packNat [(125, 3, x.maqOut), (121, 4, x.maqReason), (116, 5, x.maqSlot), (105, 11, x.maqPartner),
      (81, 24, x.maqCseq.toNat)])]

/-- Read a SUMMARY body (Table 8.2). -/
def summaryOf (body : List Flit) (st : StreamSt) : Summary :=
  let a := body.getD 0 0
  let b := body.getD 1 0
  { beat := flitFld a 127 77, throttle := flitFld a 76 76 == 1, due := flitFld a 75 75 == 1
    halted := flitFld a 74 74 == 1, gen := BitVec.ofNat 16 (flitFld a 73 58), evdrop := flitFld a 57 50
    eccCorr := flitFld a 49 42, eccUncorr := flitFld a 41 38, sealFault := flitFld a 37 34, sealInj := flitFld a 33 30
    droop := flitFld a 29 26, passes := flitFld a 25 0, maqOut := flitFld b 127 125, maqReason := flitFld b 124 121
    maqSlot := flitFld b 120 116, maqPartner := flitFld b 115 105, maqCseq := BitVec.ofNat 24 (flitFld b 104 81), st }

/-- The summary on the SUMMARY stream: the oldest that is not acknowledged (R98). -/
def Core.outSummary (c : Core) : Option Summary := c.sums.find? fun x => !x.st.acked

/-- The summary on the stream is acknowledged; one that the hub has applied is done with. -/
def ackSummary : List Summary → List Summary
  | [] => []
  | x :: xs => if x.st.acked then x :: ackSummary xs else if x.st.taken then xs else { x with st.acked := true } :: xs

/-- The summary on the stream gets this stream state. -/
def putSummary (st : StreamSt) : List Summary → List Summary
  | [] => []
  | x :: xs => if x.st.acked then x :: putSummary st xs else { x with st } :: xs

/-- The next summary is injected at time `now` with the next XID of its stream (R103). -/
def Core.summaryNext (c : Core) (now : Word) : Core :=
  if c.outSummary.isNone then c
  else { c with sumXid := c.sumXid + 1, sums := putSummary { xid := c.sumXid + 1, first := now, start := now } c.sums }

/-- The same, with the packet as it leaves the node. -/
def State.summaryNext (s : State) (t : Nat) : State :=
  let s := s.modCore t fun c => c.summaryNext s.time.time
  match (s.tile t).core.outSummary with
  | some x => { s with arm.nodeOut := some (t, s.nodePacket t 0xA 1 x.st.xid x.body) }
  | none => s

/-- The oldest reply of node `t` that waits or is outstanding. -/
def State.outReply (s : State) (t : Nat) : Option (Nat × List Flit × StreamSt) := s.arm.replies.find? fun e => e.1 == t

/-- The entries of a list of replies without the first one of node `t`, and with that one's stream state set. -/
def dropFirst (t : Nat) : List (Nat × List Flit × StreamSt) → List (Nat × List Flit × StreamSt)
  | [] => []
  | e :: es => if e.1 == t then es else e :: dropFirst t es
def putFirst (t : Nat) (st : StreamSt) : List (Nat × List Flit × StreamSt) → List (Nat × List Flit × StreamSt)
  | [] => []
  | e :: es => if e.1 == t then (e.1, e.2.1, st) :: es else e :: putFirst t st es

/-- The next reply of node `t` is injected with the next XID of its stream (R98, R103). -/
def State.replyNext (s : State) (t : Nat) : State :=
  match s.outReply t with
  | none => s
  | some e =>
    let x := tget 0 s.arm.replyXids t + 1
    { s with
      arm.replies := putFirst t { xid := x, first := s.time.time, start := s.time.time } s.arm.replies
      arm.replyXids := tset 0 s.arm.replyXids t x
      arm.nodeOut := some (t, s.nodePacket t 0xC 3 x e.2.1) }

/-- Node `t` has a reply packet: it is injected if its stream is free, and waits otherwise (R98). -/
def State.replyPacket (s : State) (t : Nat) (body : List Flit) : State :=
  let busy := (s.outReply t).isSome
  let s : State := { s with arm.replies := s.arm.replies ++ [(t, body, {})] }
  if busy then s else s.replyNext t

/-- Node `t` sends the packets of a reply, given as their body flits (R87). -/
def State.sendReply (s : State) (t : Nat) (ps : List (List Flit)) : State :=
  ps.foldl (fun s b => s.replyPacket t b) { s with arm.lastReply := some (t, ps.flatten) }

/-- RSTATUS of a reply (R87). -/
def rDONE : Nat := 0
def rFENCED : Nat := 1
def rIN_CHISEL : Nat := 2
def rREJECTED : Nat := 3

/-- A node sends a reply of one body flit. -/
def State.reply (s : State) (t rstatus : Nat) : State := s.sendReply t [[BitVec.ofNat 128 (rstatus <<< 124)]]

/-- A node answers REJECTED, which only the hub's own fault can bring about (R246, R423). -/
def State.replyRejected (s : State) (t : Nat) : State := s.reply t rREJECTED

/-- The packet outstanding on a stream of node `t`: 1 SUMMARY, 2 EVENT, 3 REPLY (Table 3.7). -/
def State.streamOf (s : State) (t vc : Nat) : Option StreamSt :=
  match vc with
  | 1 => (s.tile t).core.outSummary.map (·.st)
  | 2 => tget none s.ev.stream t
  | 3 => (s.outReply t).map (·.2.2)
  | _ => none

/-- Replace the stream state of the outstanding packet. -/
def State.setStream (s : State) (t vc : Nat) (st : StreamSt) : State :=
  match vc with
  | 1 => s.modCore t fun c => { c with sums := putSummary st c.sums }
  | 2 => { s with ev.stream := tset none s.ev.stream t (some st) }
  | 3 => { s with arm.replies := putFirst t st s.arm.replies }
  | _ => s

/-! ### Events (R75, R105, R455 to R458) -/

/-- A record without a command (R32). -/
def mkRec (time : Word) (code source unit : Nat) (sev : Severity) (detail : Word) : EvRec :=
  { time, code := BitVec.ofNat 16 code, source := BitVec.ofNat 11 source, unit := BitVec.ofNat 5 unit
    sev, layer := noLayer, oper := noOper, cseq := noCseq, detail }

/-- The record with the identifiers of a command, if there is one (R32). -/
def EvRec.ofCmd (r : EvRec) (c : Option (BitVec 16 × BitVec 16 × BitVec 24)) : EvRec :=
  match c with
  | some (l, o, q) => { r with layer := l, oper := o, cseq := q.setWidth 32 }
  | none => r

/-- The identifiers of a command. -/
def cmdIds (c : Cmd) : BitVec 16 × BitVec 16 × BitVec 24 := (c.layer, c.oper, c.cseq)

/-- The 32 bytes of an event record (Table 15.9). -/
def recordBytes (r : EvRec) (seq : BitVec 28) : List Byte :=
  leBytes 8 r.time.toNat ++
  leBytes 4 (packNat [(16, 16, r.code.toNat), (5, 11, r.source.toNat), (0, 5, r.unit.toNat)]) ++
  leBytes 4 (packNat [(28, 4, r.sev.code), (0, 28, seq.toNat)]) ++
  leBytes 2 r.layer.toNat ++ leBytes 2 r.oper.toNat ++ leBytes 4 r.cseq.toNat ++ leBytes 8 r.detail.toNat

/-- A record reaches the hub (R456). -/
def State.raise (s : State) (r : EvRec) : State := { s with ev.queue := s.ev.queue ++ [r] }

/-- Raise an event of the plinth, unit 0, at the present time. -/
def State.raiseHub (s : State) (code : Nat) (sev : Severity) (detail : Word) : State :=
  s.raise (mkRec s.time.time code srcPlinth 0 sev detail)

/-- Records of a node that wait in its event queue (R105). -/
def State.inUse (s : State) (t : Nat) : Nat := (s.ev.flight.filter fun e => e.1 == t).length

/-- ARM_CTL.EVQ_HI (Table 3.13). -/
def State.evqHi (s : State) : Nat := fld (s.reg Reg.armArmCtl) 47 40

/-- Kind of a hang ring entry (Table 13.5). -/
inductive HangKind where
  | event | begin_ | end_ | wait | resume | state
  deriving DecidableEq, Repr

/-- Code of a hang ring entry's kind (Table 13.5). -/
def HangKind.code : HangKind → Nat
  | .event => 0 | .begin_ => 1 | .end_ => 2 | .wait => 3 | .resume => 4 | .state => 5

/-- The number of a hang ring: 13 units per tile, then links, then layers (R408). -/
def ringTile (t u : Nat) : Nat := t * 13 + u
def ringLink (n : Nat) : Nat := numTiles * 13 + n
def ringLayer (l : Nat) : Nat := numTiles * 13 + numLinks + l

/-- Write an entry to a hang ring, which keeps its last 64 (R408); nothing is recorded after a freeze
(Table 13.6). -/
def State.hang (s : State) (ring : Nat) (time : Word) (k : HangKind) (cseq data : Nat) : State :=
  if s.life.frozen then s
  else
    let e : BitVec 128 := BitVec.ofNat 128 (time.toNat <<< 64 ||| k.code <<< 60 |||
      (cseq % 2 ^ 24) <<< 36 ||| data % 2 ^ 36)
    { s with dbg.rings := tset [] s.dbg.rings ring ((e :: tget [] s.dbg.rings ring).take 64) }

/-- An entry of a kind other than EVENT: its unit-specific bits are free values, those below the cause of a WAIT
and all of DATA in the other kinds (Table 13.5, assumption 34). -/
def State.hangFree (s : State) (ring : Nat) (time : Word) (k : HangKind) (cseq cause : Nat) : State :=
  let d := s.draw
  d.2.hang ring time k cseq (if k = .wait then cause <<< 32 ||| d.1.toNat % 2 ^ 32 else d.1.toNat)

/-- The same for a unit of tile `t`, at a local clock edge (R70). -/
def State.hangLocal (s : State) (t unit : Nat) (k : HangKind) (cseq cause : Nat) : State :=
  let st := s.localStamp (tileDomain t)
  st.2.hangFree (ringTile t unit) st.1 k cseq cause

/-- The same with the sequence of the command in progress on the tile. -/
def State.unitRing (s : State) (t unit : Nat) (k : HangKind) (cause : Nat) : State :=
  s.hangLocal t unit k (((s.tile t).core.cur.map (·.cseq.toNat)).getD 0xFF_FFFF) cause

/-- An entry of a layer's hang ring. -/
def State.layerRing (s : State) (l : Nat) (k : HangKind) : State :=
  let st := s.localStamp layerDomain
  st.2.hangFree (ringLayer l) st.1 k 0xFF_FFFF 0

/-- DATA of an EVENT entry (Table 13.5). -/
def hangEventData (r : EvRec) : Nat := r.code.toNat <<< 20 ||| r.detail.toNat % 2 ^ 20

/-- The next record of node `t` is injected as an EVENT packet if its stream is free (R86, R98). -/
def State.eventNext (s : State) (t : Nat) : State :=
  match s.ev.flight.find? fun e => e.1 == t with
  | none => s
  | some e =>
    if (tget none s.ev.stream t).isSome then s
    else
      let x := tget 0 s.ev.xids t + 1
      { s with
        ev.stream := tset none s.ev.stream t (some { xid := x, first := s.time.time, start := s.time.time })
        ev.xids := tset 0 s.ev.xids t x
        ev.lastOut := some (t, s.nodePacket t 0xB 2 x (byteFlits (recordBytes e.2 0))) }

/-- A unit of tile `t` raises a record: its hang ring keeps it, and the node queues it or, while more
than EVQ_HI entries are in use, drops an INFO or NOTE and marks the throttle (R105). The four entries kept for FAULT
and FATAL records are never given to the others. DESIGN CHOICE (assumption 47): with EVQ_HI 28 and 28 entries in use
the node does not throttle, and a new INFO or NOTE is dropped and counted. -/
def State.raiseNode (s : State) (t : Nat) (r : EvRec) : State :=
  let s := s.hang (ringTile t r.unit.toNat) r.time .event (r.cseq.toNat % 2 ^ 24) (hangEventData r)
  let n := s.inUse t
  if r.sev.minor && (s.evqHi < n || 28 ≤ n) then
    (s.modCore t fun c => { c with sum.evdrop := c.sum.evdrop + 1, sum.throttle := c.sum.throttle || s.evqHi < n }).bump
      Reg.armEventsDropped
  else
    let s := ({ s with ev.flight := s.ev.flight ++ [(t, r)] } : State).eventNext t
    if s.evqHi < n + 1 then s.modCore t fun c => { c with sum.throttle := true } else s

/-- Raise an event of a unit of tile `t` at a local clock edge, with the identifiers of a command. -/
def State.raiseTile (s : State) (t unit code : Nat) (sev : Severity)
    (c : Option (BitVec 16 × BitVec 16 × BitVec 24)) (detail : Word) : State :=
  let st := s.localStamp (tileDomain t)
  st.2.raiseNode t ((mkRec st.1 code t unit sev detail).ofCmd c)

/-- Raise an event of tile `t`'s node, which lives in the plinth domain. -/
def State.raiseTileNode (s : State) (t code : Nat) (sev : Severity)
    (c : Option (BitVec 16 × BitVec 16 × BitVec 24)) (detail : Word) : State :=
  s.raiseNode t ((mkRec s.time.time code t uNODE sev detail).ofCmd c)

/-- Raise an event of a link as a whole, or of a layer, at a local clock edge; its hang ring keeps it. -/
def State.raiseLink (s : State) (n code : Nat) (sev : Severity) (detail : Word) : State :=
  let st := s.localStamp (linkDomain n)
  let r := mkRec st.1 code (srcLink n) 0x1F sev detail
  (st.2.hang (ringLink n) r.time .event 0xFF_FFFF (hangEventData r)).raise r

def State.raiseLayer (s : State) (l unit code : Nat) (sev : Severity) (detail : Word) : State :=
  let st := s.localStamp layerDomain
  let r := mkRec st.1 code (srcLayer l) unit sev detail
  (st.2.hang (ringLayer l) r.time .event 0xFF_FFFF (hangEventData r)).raise r

/-- The record that a source other than a tile makes now: at a local edge of its domain, or in the plinth (R70). -/
def State.recordFrom (s : State) (src code : Nat) (sev : Severity) (detail : Word) : EvRec × State :=
  match sourceDomain src with
  | some d => let st := s.localStamp d; (mkRec st.1 code src 0 sev detail, st.2)
  | none => (mkRec s.time.time code src 0 sev detail, s)

/-- Raise an event of such a source. -/
def State.raiseFrom (s : State) (src code : Nat) (sev : Severity) (detail : Word) : State :=
  let r := s.recordFrom src code sev detail
  r.2.raise r.1

/-- The packet outstanding on a stream of node `t`. -/
def State.streamPacket (s : State) (t vc : Nat) : List WireFlit :=
  let x := ((s.streamOf t vc).map (·.xid)).getD 0
  match vc with
  | 1 => s.nodePacket t 0xA 1 x (((s.tile t).core.outSummary.map Summary.body).getD [])
  | 2 => s.nodePacket t 0xB 2 x (((s.ev.flight.find? fun e => e.1 == t).map fun e => byteFlits (recordBytes e.2 0)).getD [])
  | _ => s.nodePacket t 0xC 3 x (((s.outReply t).map (·.2.1)).getD [])

/-! ### Tile counters (R393) -/

/-- Counter `i` of a tile. -/
def Core.counter (c : Core) (i : Nat) : BitVec 48 := tget 0 c.counters i

/-- Add to counter `i`, which wraps modulo 2⁴⁸ (R393). -/
def Core.count (c : Core) (i n : Nat) : Core :=
  { c with counters := tset 0 c.counters i (c.counter i + BitVec.ofNat 48 n) }

/-- Set counter `i`. -/
def Core.setCounter (c : Core) (i : Nat) (v : BitVec 48) : Core :=
  { c with counters := tset 0 c.counters i v }

/-- The last accepted reading of a sensor (R394). -/
def State.lastReading (s : State) (n : Nat) : Option (BitVec 16) :=
  match (s.sensor n).fresh with | some v => some v | none => (s.sensor n).last

/-- Reset the counters that a mask names; PEAK_TEMP resets to the last accepted reading of the sensor, if there is one
(R394). -/
def Core.applyReset (c : Core) (mask : BitVec 16) (peak : Option (BitVec 16)) : Core :=
  let c' := (List.range 16).foldl (fun c i =>
    if mask.getLsbD i then c.setCounter i (if i == 13 then (peak.getD 0).setWidth 48 else 0) else c) c
  if mask.getLsbD 13 then { c' with peakSet := peak.isSome } else c'

/-- A reset whose cycle has come is in (R394). -/
def Core.settled (c : Core) (now : Word) (peak : Option (BitVec 16)) : Core :=
  match c.resetAt with
  | some (ta, mask) => if ta.toNat ≤ now.toNat then { c.applyReset mask peak with resetAt := none } else c
  | none => c

/-- Count on a tile, unless Chimin is frozen (Table 13.6): after a reset whose cycle has come. -/
def State.count (s : State) (t i n : Nat) : State :=
  if s.life.frozen then s
  else s.modCore t fun c =>
    { (c.settled s.time.time (s.lastReading t)).count i n with beatWork := if i < 4 then c.beatWork + n else c.beatWork }

/-! ### States of the chip -/

/-- Ready has been reached and the chip is not frozen (R428, R416). -/
def State.up (s : State) : Bool := s.life.powered && s.life.stage == 5 && !s.life.frozen

/-- Work goes on: from the decision of a controlled shutdown on, everything stops and reports no outcome (R320, R325).
-/
def State.ready (s : State) : Bool := s.up && s.life.shutdownEvent.isNone

/-- The dispatch phase of the beat is under way (Table 2.1). -/
def State.dispatching (s : State) : Bool := s.time.phase == 7 && s.cyc ≤ 7935

/-- The plinth runs and Chimin is not frozen. -/
def State.live (s : State) : Bool := s.life.powered && !s.life.frozen

/-- In Repose, from the start of entry to the end of wake (Table 15.8). -/
def State.inRepose (s : State) : Bool := s.life.repose != 0

/-- A cast or restore phase (Table 11.7): 0 when none runs. -/
def State.castPhase (s : State) : Nat := (s.cast.run.map (·.phase)).getD 0

/-- A feature is in force (Table 12.8). -/
def State.feature (s : State) (i : Nat) : Bool := s.life.features.getLsbD i

/-! ### Requests to Palalmux (R45, Table 1.5) -/

/-- A request of kind `k` goes to Palalmux. -/
def State.mgmtAsk (s : State) (k : Nat) : State := { s with life.mgmtReqs := s.life.mgmtReqs ++ [{ kind := k }] }

/-- The requests of kind `k` have their answer, or are withdrawn. -/
def State.mgmtDone (s : State) (k : Nat) : State :=
  { s with life.mgmtReqs := s.life.mgmtReqs.filter fun r => r.kind != k }

/-- A request of kind `k` waits for its answer. -/
def State.mgmtWaits (s : State) (k : Nat) : Bool := s.life.mgmtReqs.any fun r => r.kind == k

/-- MGMT_WAIT: the beats that the oldest request has waited. -/
def State.mgmtWait (s : State) : Nat := s.life.mgmtReqs.foldl (fun n r => max n r.waited) 0

/-- Palalmux is unresponsive: a request has timed out, and no answer has come since (R45). -/
def State.mgmtSilent (s : State) : Bool := s.life.mgmtLostBeat != 0

/-- A beat passes for every request. -/
def State.mgmtTick (s : State) : State :=
  { s with life.mgmtReqs := s.life.mgmtReqs.map fun r => { r with waited := r.waited + 1 } }

/-! ### Orders (R460 to R466) -/

/-- Change the order record with a number. -/
def State.modOrder (s : State) (id : Nat) (f : OrderRec → OrderRec) : State :=
  { s with ord.orders := s.ord.orders.map fun o => if o.id == id then f o else o }

/-- The order record with a number. -/
def State.order (s : State) (id : Nat) : Option OrderRec := s.ord.orders.find? fun o => o.id == id

/-- Set the DETAIL that every later entry of an order carries (R466). -/
def State.orderDetail (s : State) (id : Nat) (d : BitVec 32) : State :=
  s.modOrder id fun o => { o with detail := d }

/-- Source number of a master's window events (R468). -/
def orderSource : OrderMaster → Nat
  | .hostk => srcHostIf | .mgmt => srcPalalmux

/-- An order completes: its final entry goes out in the next status posting phase. STATE_ILLEGAL also
logs ORDER_ILLEGAL (R465). -/
def State.finish (s : State) (id : Nat) (st : Status) : State :=
  match s.order id with
  | none => s
  | some o =>
    let s := s.modOrder id fun o => { o with done := some st, detail := if st = .badOperand then 0 else o.detail }
    if st = .stateIllegal then
      (s.raise (mkRec s.time.time 0x0002 (orderSource o.ref.master) 0 .note o.word)).bump Reg.orderIllegal
    else s

/-- Complete an order if there is one. -/
def State.finishOpt (s : State) (id : Option Nat) (st : Status) : State :=
  match id with
  | some i => s.finish i st
  | none => s

/-! ### Packets of the hub (R85, R90, R98) -/

/-- A multicast or unicast of the hub: OP, VC, OPERAND, further flits, destinations and the order that
waits for it. -/
structure SendReq where
  op      : Nat
  vc      : Nat
  operand : BitVec 96
  data    : List Flit := []
  dests   : BitVec 1152
  order   : Option Nat := none
  deriving DecidableEq, Repr

/-- Every node. -/
def allNodes : BitVec 1152 := BitVec.allOnes 1152

/-- One node. -/
def oneNode (t : Nat) : BitVec 1152 := BitVec.ofNat 1152 (2 ^ t)

/-- A set of nodes. -/
def nodeSet (ts : List Nat) : BitVec 1152 :=
  BitVec.ofNat 1152 (ts.foldl (fun a t => a ||| 2 ^ t) 0)

/-- The nodes of a set, ascending. -/
def nodesOf (v : BitVec 1152) : List Nat := allTiles.filter fun t => v.getLsbD t

/-- OP codes that change the map: FENCE_APPLY, UNFENCE_APPLY and MAP_COMMIT (Table 3.5). -/
def isMapChange (op : Nat) : Bool := op == 0x01 || op == 0x02 || op == 0x16

/-- Two outgoing packets may not be outstanding together: they share a virtual channel and a
destination (R98), or both change the map (R256). -/
def Outgoing.blocks (a b : Outgoing) : Bool :=
  (a.vc == b.vc && (a.dests &&& b.dests) != 0) ||
  (isMapChange a.op.toNat && isMapChange b.op.toNat)

/-- Inject the queued packets that nothing before them blocks (R98, R256); `early` holds map changes back. -/
def injectGo (now : Word) (early : Bool) : List Outgoing → List Outgoing → List Outgoing →
    List Outgoing × List Outgoing
  | sent, kept, [] => (sent, kept.reverse)
  | sent, kept, o :: os =>
    if (early && isMapChange o.op.toNat) || sent.any (fun a => a.blocks o) || kept.any (fun a => a.blocks o) then
      injectGo now early sent (o :: kept) os
    else injectGo now early (sent ++ [{ o with sentAt := now }]) kept os

/-- Body flits of a packet of the hub (R87). -/
def Outgoing.body (o : Outgoing) : List Flit := opFlit o.op.toNat o.mapgen o.operand :: o.data

/-- The hub's unicast of its packet to one node, with the path from the hub port of the node's quadrant (R89). -/
def Outgoing.uniCopy (o : Outgoing) (t : Nat) : Nat × List WireFlit :=
  (hubPortTile t, wirePacket o.vc (uniPacket (opKind o.op.toNat) o.vc hubEndpoint t o.xid
    (routeBits (routeWord (hubPortTile t) t)) o.body))

/-- The copies of a packet as the hub injects them: one unicast to a single node, else a multicast into each quadrant
that its rows and columns meet, with the masks unchanged (R89, R90). -/
def Outgoing.copies (o : Outgoing) : List (Nat × List WireFlit) :=
  match nodesOf o.dests with
  | [t] => [o.uniCopy t]
  | _ => (maskGroups o.dests).flatMap fun g => (quadrants g).map fun q =>
      (quadPort q, wirePacket o.vc (multiPacket (opKind o.op.toNat) o.vc g.1 g.2 o.xid o.body))

/-- Inject what may be injected now: a map change not earlier than 64 plinth cycles after the last
acknowledgement of the one before (R256). -/
def State.inject (s : State) : State :=
  if s.arm.queue.isEmpty then s
  else
    let early := s.arm.lastChange != 0 && decide (s.time.time.toNat < s.arm.lastChange.toNat + 64)
    let r := injectGo s.time.time early s.arm.sent [] s.arm.queue
    let new := r.1.drop s.arm.sent.length
    { s with arm.sent := r.1, arm.queue := r.2, arm.hubOut := if new.isEmpty then s.arm.hubOut else new.flatMap Outgoing.copies }

/-- An XID that differs from the last one the hub sent on the channel to any of the nodes (R103). -/
def State.hubXid (s : State) (vc : Nat) (dests : BitVec 1152) : BitVec 16 :=
  let bad := (s.arm.lastSent.filter fun e => e.1 == vc && (e.2.1 &&& dests) != 0).map (·.2.2)
  freshXid bad bad.length s.arm.xid

/-- The XID last sent on a channel to these nodes is `x` from now on. -/
def noteXid (l : List (Nat × BitVec 1152 × BitVec 16)) (vc : Nat) (dests : BitVec 1152) (x : BitVec 16) :
    List (Nat × BitVec 1152 × BitVec 16) :=
  (vc, dests, x) :: (l.map fun e => if e.1 == vc then (e.1, e.2.1 &&& ~~~dests, e.2.2) else e).filter fun e => e.2.1 != 0

/-- The hub issues one packet under the map generation it holds (R87), with a fresh XID (R103). -/
def State.hubPacket (s : State) (q : SendReq) (dests : BitVec 1152) : State :=
  let xid := s.hubXid q.vc dests
  let o : Outgoing :=
    { vc := q.vc, op := BitVec.ofNat 8 q.op, operand := q.operand, mapgen := s.map.hub.gen, data := q.data
      dests, left := dests, held := 0, xid, sentAt := s.time.time, resends := []
      timers := [], late := false, order := q.order }
  ({ s with arm.queue := s.arm.queue ++ [o], arm.xid := xid + 1
            arm.lastSent := noteXid s.arm.lastSent q.vc dests xid }).inject

/-- The hub issues an operation to a set of nodes: one packet where the set is a product of rows and columns, as that
of every node and that of one node are, else one for each group of rows with the same columns (R90). -/
def State.hubSend (s : State) (q : SendReq) : State :=
  match maskGroups q.dests with
  | [] | [_] => s.hubPacket q q.dests
  | gs => gs.foldl (fun s g => s.hubPacket q (maskNodes g)) s

/-- No other packet of the order that this one belongs to is outstanding or waits. -/
def State.lastOfOrder (s : State) (order : Option Nat) : Bool :=
  order.isNone || !(s.arm.sent ++ s.arm.queue).any fun o => o.order == order

/-! ### Thermal readings used by several windows (R307, R36) -/

/-- Number of the DRAM sensor under physical tile `t` in a layer, among all sensors (R36, R306). -/
def dramSensor (l t : Nat) : Nat := numTiles + l * 288 + (rowOf t / 2) * 16 + colOf t / 2

/-- The last accepted reading of a sensor that is not BAD, in 1/16 °C; none before any. -/
def Sensor.value (x : Sensor) : Option Int :=
  if x.bad || x.reading == 0x8000 then none else some x.reading.toInt

/-! ### Command outcomes -/

/-- A command whose meaning completes: it has its effect where its occasion holds, and leaves the state
as it is otherwise (assumption 2). -/
def doWhen (c : Bool) (f : State → State) (s : State) : Host.Outcome State Fault Refusal :=
  .next (if c then f s else s)

end Sys2Proof.Machine
end

