-- ==== Sys2Proof/Machine/Access.lean ====
section
/-! DEFINITION. Who may touch which register (chapter 12, R383 to R389), and the rule that each
register's chapter states for a write of an out-of-range or conflicting value. -/

namespace Sys2Proof.Machine

/-! ### Partitions and access tables -/

/-- The definition of partition `p` in force (R389). -/
def State.partition (s : State) (p : Nat) : Word := s.inForce (Reg.accessPartition + 8 * p)

/-- Rectangle of partition `p`. -/
def State.partRect (s : State) (p : Nat) : Rect := rectOf (s.partition p) 0

/-- The valid partition that a PASID matches (Table 12.9). -/
def State.partitionOf (s : State) (pasid : BitVec 20) : Option Nat :=
  (List.range 16).find? fun p => bit (s.partition p) 63 && fld (s.partition p) 62 43 == pasid.toNat

/-- The entry of class `m` in a page's access table; some entries read 0 whatever was written (R387). -/
def State.pageEntry (s : State) (page m : Nat) : Word :=
  if m == 1 && !pageHostU page then 0
  else if page == 0x010 && m != 0 && m != 2 then 0
  else s.reg (page * 0x1000 + 0x040 + 8 * m)

/-- The entry of class `m` in a layer's memory access table (Table 9.7, R384). -/
def State.layerEntry (s : State) (l m : Nat) : Word := s.reg (layerReg l (0x180 + 8 * m))

/-- Where a master's RECORD_SEL is kept: per class, and per partition for HOSTU (R378). -/
def State.selKey (s : State) (m : Requester) : Nat :=
  match m.cls with
  | .hostu => 16 + (s.partitionOf m.pasid).getD 0
  | c => c.index

/-- The digest slot that a master's RECORD_SEL names (R378). -/
def State.selSlot (s : State) (m : Requester) : Nat := tget 0 s.digest.select (s.selKey m)

/-- The tile of a tile page carries a logical tile of partition `p` (R385). -/
def State.tileInPart (s : State) (t p : Nat) : Bool :=
  ((s.logical t).map (s.partRect p).has).getD false

/-- The slot that a RECORD_SEL register holds as written; a write takes effect at the next tick (R391). -/
def State.selWritten (s : State) (m : Requester) : Nat := (tget none s.digest.selNext (s.selKey m)).getD (s.selSlot m)

/-- The RECT of digest slot `k`, as in force, lies within partition `p` (R385, R391). -/
def State.slotInPart (s : State) (k p : Nat) : Bool :=
  (rectOf (s.inForce (Reg.digestSlotCfg + 8 * k)) 0).within (s.partRect p)

/-- What OWN permits to the requester of partition `p` on a page (R385). -/
def State.ownPermits (s : State) (m : Requester) (p page off : Nat) (write : Bool) : Bool :=
  if pageKind page == 4 then s.tileInPart (pageInstance page) p
  else if page == 0x00E then
    if 0x200 ≤ off && off < 0x280 then s.slotInPart ((off - 0x200) / 8) p
    else if write then 0x120 ≤ off && off < 0x128
    else if 0x180 ≤ off && off < 0x200 then s.slotInPart ((off - 0x180) / 8) p
    else if 0x280 ≤ off && off < 0x300 then s.slotInPart ((off - 0x280) / 8) p
    else if 0xE00 ≤ off then s.slotInPart (s.selSlot m) p
    else false
  else false

/-- An access table entry permits the access of a class; `own` is what OWN would permit. -/
def entryPermits (e : Word) (write : Bool) (isHostU own : Bool) : Bool :=
  bit e (if write then 1 else 0) && (!isHostU || !bit e 2 || own)

/-- The page's access table permits the access (R19, R383 to R388). A HOSTU request whose PASID matches
no partition is denied everywhere. -/
def State.permits (s : State) (m : Requester) (page off : Nat) (write : Bool) : Bool :=
  let e := s.pageEntry page m.cls.index
  match m.cls with
  | .hostu =>
    match s.partitionOf m.pasid with
    | some p => entryPermits e write true (s.ownPermits m p page off write)
    | none => false
  | _ => entryPermits e write false false

/-- Who may change entry `m` of an access table: only SEC the SEC and FUSE entries, MGMT or SEC the others (R387). -/
def entryWriter (c : MasterClass) (m : Nat) : Bool :=
  if m == 3 || m == 7 then c == .sec else c == .sec || c == .mgmt

/-- Entry `m` of an access table ignores writes: the HOSTU entry where it is not in force, and on COUNT all but HOSTK
and MGMT (R387). `memory` marks a layer's memory table. -/
def entryIgnores (page m : Nat) (memory : Bool) : Bool :=
  (m == 1 && !memory && !pageHostU page) || (page == 0x010 && m != 0 && m != 2)

/-- Detail [63:32] of ACCESS_DENIED (Table 12.12). -/
def deniedDetail (c : MasterClass) (write mem : Bool) (page off : Nat) : Word :=
  pack [(61, 3, c.index), (60, 1, b2n write), (59, 1, b2n mem), (47, 12, page), (35, 12, off)]

/-- One more occurrence in a beat, with the record of the first (R479). -/
def BeatCount.add (b : BeatCount) (r : EvRec) : BeatCount :=
  { count := b.count + 1, first := some (b.first.getD r) }

/-- An access is denied: it is counted, and the beat's first denial raises ACCESS_DENIED (R386, R479).
Nothing is counted once Chimin is frozen (R447). -/
def State.deny (s : State) (m : Requester) (write mem : Bool) (page off : Nat) : State :=
  if s.life.frozen then s
  else
    let d := deniedDetail m.cls write mem page off
    let s := s.bump Reg.accessDenied
    { s with ev.lastDenied := d
             ev.denied := s.ev.denied.add (mkRec s.time.time 0x00B5 srcPlinth 0 .note d) }

/-! ### Blocks of a slice (Table 9.1) -/

/-- Blocks per slice of a layer (R284). -/
def layerBlocks (l : Nat) : Nat := if l < 8 then 1820 else 1365

/-- The first reserved block of a layer (Table 9.1). -/
def runtimeEnd (l : Nat) : Nat :=
  if l == 0 then 956 else if l == 1 then 732 else if l < 8 then 1756 else 1301

/-- A range of blocks of one layer. -/
structure BlkRange where
  layer : Nat
  first : Nat
  last  : Nat
  deriving DecidableEq, Repr

/-- The range covers a block. -/
def BlkRange.has (r : BlkRange) (l b : Nat) : Bool := r.layer == l && r.first ≤ b && b ≤ r.last

/-- Two ranges share a block. -/
def BlkRange.meets (a b : BlkRange) : Bool :=
  a.layer == b.layer && a.first ≤ b.last && b.first ≤ a.last && a.first ≤ a.last && b.first ≤ b.last

/-- The range lies within the runtime blocks of its layer. -/
def BlkRange.inRuntime (r : BlkRange) : Bool :=
  r.layer < numLayers && r.last < runtimeEnd r.layer && r.first < runtimeEnd r.layer

/-- The range of a CAST_RANGE, COUNT.STACK_RANGE or TRACE.STACK_RANGE word (Tables 11.7, 13.13). -/
def rangeOf (w : Word) : BlkRange := { layer := fld w 59 56, first := fld w 10 0, last := fld w 26 16 }

/-- The range of a WSET word (Table 12.13). -/
def wsetRange (w : Word) : BlkRange := { layer := fld w 59 56, first := fld w 21 11, last := fld w 32 22 }

/-- The range of an MR word of a layer (Table 9.8). -/
def mrRange (l : Nat) (w : Word) : BlkRange := { layer := l, first := fld w 10 0, last := fld w 26 16 }

/-- The valid cast ranges as written. -/
def State.castRanges (s : State) : List (Nat × BlkRange) :=
  ((List.range 16).map fun k => (k, s.reg (Reg.castCastRange + 8 * k))).filterMap fun e =>
    if bit e.2 63 then some (e.1, rangeOf e.2) else none

/-- The valid weights sets as written, by number. -/
def State.wsetWords (s : State) : List (Nat × Word) :=
  ((List.range 8).map fun w => (w, s.reg (Reg.digestWsetW0 + 16 * w))).filter fun e => bit e.2 63

/-- MR descriptor `k` of a layer as last written and accepted. -/
def State.mrWord (s : State) (l k : Nat) : Word := s.reg (layerReg l (0x200 + 8 * k))

/-- A compute descriptor as written covers a block of a layer (R288). -/
def State.mrCovers (s : State) (l b : Nat) : Bool :=
  8 ≤ l && (List.range 8).any fun k =>
    let w := s.mrWord l k
    bit w 63 && bit w 62 && (mrRange l w).has l b

/-! ### Field rules -/

/-- Field [hi:lo] lies from `a` to `b`. -/
def inRange (w : Word) (hi lo a b : Nat) : Bool := a ≤ fld w hi lo && fld w hi lo ≤ b

/-- Keep the old field unless the condition holds. -/
def keepUnless (c : Bool) (hi lo : Nat) (old new : Word) : Word :=
  if c then new else setFld new hi lo (fld old hi lo)

/-- Accept the whole word under a condition. -/
def acceptIf (c : Bool) (w : Word) : Option Word := if c then some w else none

/-- A signed 8-bit field lies from `a` to `b`. -/
def sInRange (w : Word) (hi lo : Nat) (a b : Int) : Bool :=
  let v : Int := (BitVec.ofNat 8 (fld w hi lo)).toInt
  a ≤ v && v ≤ b

/-- R459: EVT_CTL may set HOST_EN. -/
def State.evtHostOk (s : State) : Bool :=
  let n := (s.reg Reg.evtHostSize).toNat
  (List.range 14).any (fun i => n == 2 ^ (i + 7)) && fld (s.reg Reg.evtHostBase) 11 0 == 0

/-- R400: COUNT_CTL may set SINK_HOST. -/
def State.countHostOk (s : State) : Bool :=
  let n := (s.reg Reg.countHostSets).toNat
  let th := (s.reg Reg.countThresh).toNat
  2 ≤ n && fld (s.reg Reg.countHostBase) 11 0 == 0 && 1 ≤ th && th ≤ n

/-- R400: TRACE_CTL may set ENABLE with SINK 0. -/
def State.traceHostOk (s : State) : Bool :=
  let n := (s.reg Reg.traceHostSize).toNat
  n != 0 && n % 0x10000 == 0 && fld (s.reg Reg.traceHostBase) 15 0 == 0

/-- R407: a stack range of the counter or trace sink, `other` being the other sink's range. -/
def State.stackRangeOk (s : State) (w other : Word) : Bool :=
  let r := rangeOf w
  2 ≤ r.layer && r.layer ≤ 7 && r.inRuntime && !(r.meets (rangeOf other)) &&
  !((s.castRanges.any fun e => r.meets e.2) || (s.wsetWords.any fun e => r.meets (wsetRange e.2)))

/-- The counter or trace stack sink is enabled (R407). -/
def State.countStackOn (s : State) : Bool :=
  bit (s.reg Reg.countCountCtl) 0 && bit (s.reg Reg.countCountCtl) 2
def State.traceStackOn (s : State) : Bool :=
  bit (s.reg Reg.traceTraceCtl) 0 && bit (s.reg Reg.traceTraceCtl) 1

/-- R370: the definition of weights set `w` may be written. -/
def State.wsetOk (s : State) (w : Nat) (v : Word) : Bool :=
  let r := wsetRange v
  r.inRuntime && r.first ≤ r.last &&
  !(8 ≤ r.layer && (List.range (r.last + 1 - r.first)).any fun i => s.mrCovers r.layer (r.first + i)) &&
  !((s.castRanges.any fun e => r.meets e.2) ||
    (s.wsetWords.any fun e => e.1 != w && r.meets (wsetRange e.2)))

/-- A digest slot in OPEN to SIGNING names set `w` (R372). -/
def State.wsetNamed (s : State) (w : Nat) : Bool :=
  (List.range 16).any fun k =>
    let d := s.dslot k
    1 ≤ d.state && d.state ≤ 4 && fld d.cfg 63 60 == w

/-- R331, R370: CAST_RANGE[k] may be written: it overlaps no other cast range, and no set that is in HASHING or LOCKED
under the definition in force. -/
def State.castRangeOk (s : State) (k : Nat) (v : Word) : Bool :=
  let r := rangeOf v
  r.inRuntime && !((s.castRanges.any fun e => e.1 != k && r.meets e.2) ||
    (List.range 8).any fun w => ((s.wset w).state == 1 || (s.wset w).state == 2) && r.meets (wsetRange (s.wset w).word))

/-- R389: PARTITION[p] may be written. -/
def State.partitionOk (s : State) (p : Nat) (v : Word) : Bool :=
  let r := rectOf v 0
  r.ok && (List.range 16).all fun q =>
    let w := s.reg (Reg.accessPartition + 8 * q)
    q == p || !bit w 63 || (!(r.meets (rectOf w 0)) && fld w 62 43 != fld v 62 43)

/-- R300: MR[k] of layer `l` may be written; the range tests hold for every write, also for one with VALID 0. -/
def State.mrOk (s : State) (l k : Nat) (v : Word) : Bool :=
  let r := mrRange l v
  let covered (w : Word) (b : Nat) : Bool :=
    (bit w 63 && bit w 62 && (mrRange l w).has l b) ||
    (List.range 8).any fun j => j != k && bit (s.mrWord l j) 63 && bit (s.mrWord l j) 62 &&
      (mrRange l (s.mrWord l j)).has l b
  let converting := (tget none s.stack.convert l).isSome
  8 ≤ l && r.first ≤ r.last && r.last ≤ 1300 &&
  ((List.range 8).all fun j => j == k || !bit (s.mrWord l j) 63 || !(r.meets (mrRange l (s.mrWord l j)))) &&
  !(converting && (List.range 1301).any fun b => covered (s.mrWord l k) b && !covered v b)

/-- A packet of the hub to that chip is outstanding. -/
def State.chipBusy (s : State) (chip : BitVec 13) : Bool :=
  s.arm.peers.any fun p => match p.stream with | .sentinel c _ => c == chip | _ => false

/-- The value that a write of `new` leaves in a register of a global page, `old` being its present
value; none where the write is ignored as a whole. DESIGN CHOICES: an SROUTE entry rewritten but still in force counts
as valid for the twin test of R119 only while its chip has a packet outstanding at the time of the write (assumption
47); SEAL_INJECT takes BIT 31, for which Table 4.12 gives no rule (assumption 48). -/
def State.globalRule (s : State) (k : Nat) (old new : Word) : Option Word :=
  if k == Reg.beatSyncCtl then some (keepUnless (fld new 1 0 != 3) 1 0 old new)
  else if k == Reg.armArmCtl then
    some (keepUnless (inRange new 47 40 8 28) 47 40 old (keepUnless (inRange new 35 32 1 15) 35 32 old
      (keepUnless (inRange new 15 0 256 65535) 15 0 old new)))
  else if k == Reg.armSentCtl then
    some (keepUnless (inRange new 47 40 4 32) 47 40 old
      (keepUnless (decide (4096 ≤ fld new 31 0)) 31 0 old new))
  else if Reg.armSlinkCfg ≤ k && k < Reg.armSlinkCfg + 8 * 48 then
    let n := (k - Reg.armSlinkCfg) / 8
    acceptIf (!(bit new 15 && (47 < fld new 5 0 || fld new 5 0 == n))) new
  else if Reg.armSrouteW0 ≤ k && k < Reg.armSrouteW0 + 16 * 64 then
    if (k - Reg.armSrouteW0) % 16 == 0 then
      let twin := (List.range 64).any fun j =>
        let k' := Reg.armSrouteW0 + 16 * j
        let same (w : Word) : Bool := bit w 63 && fld w 60 48 == fld new 60 48
        k' != k && (same (s.reg k') || (same (s.inForce k') && s.chipBusy (BitVec.ofNat 13 (fld new 60 48))))
      some (if bit new 63 && twin then setFld new 63 63 0 else new)
    else some new
  else if k == Reg.sealSealCtl then some (keepUnless (decide (fld new 3 2 ≤ 1)) 3 2 old new)
  else if k == Reg.sealInject then
    acceptIf (fld new 10 0 < numTiles && fld new 21 19 ≤ 4) (setFld new 63 63 (b2n (fld new 21 19 != 0)))
  else if k == Reg.maqMaqCtl then
    acceptIf (inRange new 62 56 1 32 && inRange new 55 48 4 48 && inRange new 47 40 8 250 &&
      inRange new 39 36 1 15 && inRange new 35 28 4 64 && inRange new 11 8 6 12 && inRange new 7 4 6 12) new
  else if k == Reg.maqHostMin then some (keepUnless (decide (fld new 7 0 ≤ 128)) 7 0 old new)
  else if k == Reg.chiselChiselCtl then
    acceptIf (fld new 47 32 &&& 0xF041 == 0 && inRange new 20 16 1 16 && inRange new 11 8 1 8)
      (setFld new 47 32 (fld new 47 32 ||| 0x0030))
  else if k == Reg.chiselChiselWindow then
    acceptIf (fld new 49 48 != 3 && fld new 15 0 < fld new 31 16) new
  else if k == Reg.chiselTempWin then
    acceptIf (inRange new 23 16 40 100 && inRange new 15 8 40 85 && sInRange new 7 0 (-20) 40) new
  else if k == Reg.chiselChiselTimes then
    acceptIf (inRange new 63 48 16 65535 && inRange new 47 36 8 4095 && inRange new 35 24 256 1400 &&
      inRange new 23 16 4 255 && inRange new 15 8 1 255) new
  else if k == Reg.chiselCover then
    acceptIf (inRange new 31 0 125 4500000 && 1 ≤ fld new 63 32 && fld new 63 32 ≤ fld new 31 0) new
  else if k == Reg.chiselDeferMax then acceptIf (inRange new 31 0 250 125000000) new
  else if k == Reg.patinaPatinaCtl then
    acceptIf (inRange new 39 32 8 20 && inRange new 31 8 1000 16777215) new
  else if k == Reg.patinaThresh then
    acceptIf (fld new 31 16 < fld new 47 32 && fld new 47 32 < fld new 63 48 && fld new 15 0 < fld new 31 16) new
  else if k == Reg.patinaHot then acceptIf (inRange new 7 0 60 105) new
  else if k == Reg.thermThermCtl then
    acceptIf (inRange new 47 40 16 250 && inRange new 39 32 4 48 && inRange new 20 16 2 16 &&
      inRange new 12 8 2 16 && inRange new 4 0 2 16 && fld new 12 8 < fld new 20 16 && fld new 4 0 < fld new 12 8) new
  else if k == Reg.thermLimits then
    acceptIf (inRange new 63 48 32 64 && inRange new 47 32 16 32 && fld new 47 32 < fld new 63 48 &&
      inRange new 23 16 2 10 && inRange new 15 8 60 95 && inRange new 7 0 60 105) new
  else if k == Reg.thermMouldWin then acceptIf (inRange new 7 0 60 95) new
  else if k == Reg.castCastCtl then
    acceptIf (inRange new 63 56 1 255 && inRange new 55 44 16 4000 && inRange new 43 32 125 4000 &&
      inRange new 23 16 0 75) (if 1 < s.life.stage then setFld new 23 16 (fld old 23 16) else new)
  else if Reg.castCastRange ≤ k && k < Reg.castCastRange + 8 * 16 then
    acceptIf (!bit new 63 || s.castRangeOk ((k - Reg.castCastRange) / 8) new) new
  else if k == Reg.digestDetCtl then acceptIf (fld new 1 0 ≤ 1) new
  else if k == Reg.digestDigestCtl then acceptIf (inRange new 7 0 16 255) new
  else if Reg.digestSlotCfg ≤ k && k < Reg.digestSlotCfg + 8 * 16 then
    let d := s.dslot ((k - Reg.digestSlotCfg) / 8)
    acceptIf (!(1 ≤ d.state && d.state ≤ 4)) new
  else if Reg.digestSlotNonce ≤ k && k < Reg.digestSlotNonce + 8 * 16 then
    let d := s.dslot ((k - Reg.digestSlotNonce) / 8)
    acceptIf (!(1 ≤ d.state && d.state ≤ 4)) new
  else if Reg.digestWsetW0 ≤ k && k < Reg.digestWsetW0 + 16 * 8 then
    let w := (k - Reg.digestWsetW0) / 16
    acceptIf (if bit new 63 then s.wsetOk w new else !s.wsetNamed w) new
  else if Reg.accessPartition ≤ k && k < Reg.accessPartition + 8 * 16 then
    acceptIf (!bit new 63 || s.partitionOk ((k - Reg.accessPartition) / 8) new) new
  else if k == Reg.countCountCtl then
    let new := if s.countStackOn then setFld new 2 2 1 else new
    acceptIf (1 ≤ fld new 47 32 && (!bit new 1 || s.countHostOk)) new
  else if k == Reg.countHostBase || k == Reg.countHostSets || k == Reg.countThresh then
    acceptIf (!bit (s.reg Reg.countCountCtl) 1) new
  else if k == Reg.countHostRd then acceptIf (decide (new.toNat ≤ s.dbg.hostWr.toNat)) new
  else if k == Reg.countStackRange then
    acceptIf (!s.countStackOn && s.stackRangeOk new (s.reg Reg.traceStackRange)) new
  else if k == Reg.traceTraceCtl then
    let new := if s.traceStackOn then setFld new 1 1 1 else new
    acceptIf ((!bit new 1 || s.feature 1) && (!(bit new 0 && !bit new 1) || s.traceHostOk)) new
  else if k == Reg.traceHostBase || k == Reg.traceHostSize then
    acceptIf (!(bit (s.reg Reg.traceTraceCtl) 0 && !bit (s.reg Reg.traceTraceCtl) 1)) new
  else if k == Reg.traceHostRd then acceptIf (decide (new.toNat ≤ s.dbg.trWr.toNat)) new
  else if k == Reg.traceStackRange then
    acceptIf (!s.traceStackOn && s.stackRangeOk new (s.reg Reg.countStackRange) &&
      fld new 26 16 - fld new 10 0 ≤ 909) new
  else if k == Reg.bringupLinkRetrain then acceptIf (inRange new 31 0 125 12500000) new
  else if k == Reg.powerReposeCtl then acceptIf (inRange new 15 0 16 4000) new
  else if k == Reg.evtHostBase || k == Reg.evtHostSize then acceptIf (!bit (s.reg Reg.evtEvtCtl) 0) new
  else if k == Reg.evtEvtCtl then acceptIf (!bit new 0 || s.evtHostOk) new
  else if k == Reg.evtHostRd then acceptIf (decide (new.toNat ≤ s.ev.hostWr.toNat)) new
  else if k == Reg.orderHostRd then acceptIf (decide (new.toNat ≤ s.ord.hostWr.toNat)) new
  else if k == Reg.orderMgmtRd then acceptIf (decide (new.toNat ≤ s.ord.mgmtWr.toNat)) new
  else some new

/-- The same for every page: region FLOOR (R329), layer SCRUB_CTL (Table 9.7) and MR (R300), else the
rule of the global page. -/
def State.fieldRule (s : State) (page off : Nat) (old new : Word) : Option Word :=
  match pageKind page with
  | 0 => s.globalRule (page * 0x1000 + off) old new
  | 1 => if off == 0x108 then acceptIf (fld new 2 0 ≤ 5) new else some new
  | 3 =>
    if off == 0x110 then acceptIf (inRange new 31 0 1 100000) new
    else if 0x200 ≤ off && off < 0x240 then acceptIf (s.mrOk (page - 0x070) ((off - 0x200) / 8) new) new
    else some new
  | _ => some new

end Sys2Proof.Machine
end

