-- ==== Sys2Proof/Machine/Streams.lean ====
section
/-! DEFINITION. Streams of the armature: last accepted XIDs, inboxes, acknowledgements, the streams of the nodes to the
hub, and the way onto a link (R98 to R104, R110). -/

namespace Sys2Proof.Machine

/-- The link is trained (Table 14.4). -/
def State.trained (s : State) (n : Nat) : Bool :=
  let st := (s.link n).state
  n < numLinks && (st == 2 || st == 3 || st == 4)

/-- SROUTE entry `k` as in force: words 0 and 1. -/
def State.route0 (s : State) (k : Nat) : Word := s.inForce (Reg.armSrouteW0 + 16 * k)
def State.route1 (s : State) (k : Nat) : Word := s.inForce (Reg.armSrouteW1 + 16 * k)

/-- The entry uses its alternate (Table 3.16). -/
def State.onAlt (s : State) (k : Nat) : Bool := s.arm.onAlt.getLsbD k

/-- First link of a route in the ROUTE format of R110. -/
def routeLink (w : Word) : Nat := fld w 10 5

/-- The valid entry for a chip. -/
def State.routeFor (s : State) (chip : BitVec 13) : Option Nat :=
  (List.range 64).find? fun k => bit (s.route0 k) 63 && fld (s.route0 k) 60 48 == chip.toNat

/-- CHIP_NUM when VALID. -/
def State.chipNum (s : State) : Option (BitVec 13) :=
  let w := s.reg Reg.armChipNum
  if bit w 15 then some (BitVec.ofNat 13 (fld w 12 0)) else none

/-- SLINK_CFG of a link. -/
def State.slink (s : State) (n : Nat) : Word := s.reg (Reg.armSlinkCfg + 8 * n)

/-- Change the byte counters of a link, which hold their values while it is not trained (R402). -/
def State.countLink (s : State) (n : Nat) (f : Link → Link) : State :=
  if s.trained n && !s.time.stopped.getLsbD (linkDomain n) then s.modLink n f else s

/-- Count sentinel bytes received or sent on a link; they are payload of every class too (R402). -/
def State.sentRx (s : State) (n flits : Nat) : State :=
  s.countLink n fun l => { l with rx := l.rx + BitVec.ofNat 48 (16 * flits), sentRx := l.sentRx + BitVec.ofNat 48 (16 * flits) }
def State.sentTx (s : State) (n flits : Nat) : State :=
  s.countLink n fun l => { l with tx := l.tx + BitVec.ofNat 48 (16 * flits), sentTx := l.sentTx + BitVec.ofNat 48 (16 * flits) }

/-- The link takes a packet in class B (R111). -/
def State.dateline (s : State) (n : Nat) : Bool := bit (s.slink n) 14

/-- The hub puts a packet on a link (R110). -/
def State.putLink (s : State) (n : Nat) (fs : List Flit) : State :=
  { s.sentTx n fs.length with arm.linkOut := s.arm.linkOut ++ [(n, fs)] }

/-- The route in use toward a chip: ROUTE of its entry (R113). -/
def State.routeTo (s : State) (chip : BitVec 13) : Option Nat :=
  (s.routeFor chip).map fun k => fld (if s.onAlt k then s.route1 k else s.route0 k) 43 0

/-- The hub sends a packet on the first link of the route in use toward a chip: HOPS is decremented, and a dateline
link takes it in class B (R110, R111). Without a route nothing is sent. DESIGN CHOICE (assumption 47): the spec gives
the source hub no step for a route whose first segment has HOPS 0; nothing is sent, no ARM_ROUTE is raised, and the
packet stays outstanding. -/
def State.peerPut (s : State) (chip : BitVec 13) (kind : Nat) (net : Bool) (xid : BitVec 16) (body : List Flit) : State :=
  match s.routeTo chip with
  | some r =>
    let n := r / 32 % 64
    if n < numLinks && s.trained n && r % 32 != 0 then
      s.putLink n (sentPacket kind net (s.dateline n) (s.chipNum.getD 0) chip xid (r - 1) body)
    else s
  | none => s

/-- The last XID accepted on a stream (R99). -/
def State.lastXid (s : State) (k : StreamId) : Option (BitVec 16) :=
  (s.arm.lastXid.find? fun e => e.1 = k).map (·.2)

/-- Record the XID accepted on a stream. -/
def State.setLastXid (s : State) (k : StreamId) (x : BitVec 16) : State :=
  { s with arm.lastXid := (k, x) :: s.arm.lastXid.filter fun e => e.1 ≠ k }

/-- A packet accepted on the stream is still in its inbox (R99, R100). -/
def State.inInbox (s : State) (k : StreamId) : Bool := s.arm.inbox.any fun e => e.1 = k

/-- KIND of an acknowledgement: ACK_HELD or ACK (Table 3.4). -/
def ackKind (held : Bool) : Nat := if held then 9 else 8

/-- An acknowledgement enters the queue of its on-die endpoint, as the flit that leaves it, unless it already waits
there (R83, R104). -/
def State.queueAck (s : State) (port : Nat) (k : StreamId) (x : BitVec 16) (held : Bool) (src dst : Nat)
    (route : BitVec 48) : State :=
  if s.arm.acks.any fun b => b.stream = k && b.xid == x && b.held == held then s
  else { s with arm.acks := s.arm.acks ++
    [{ port, stream := k, xid := x, held, flits := wirePacket 0 (uniPacket (ackKind held) 0 src dst x route []) }] }

/-- Send an acknowledgement; `held` is ACK_HELD. A node answers the hub, a hub port answers the nodes of its quadrant,
and the hub answers a peer along its own route table, in the report class (R80, R104, R110, R112). -/
def State.sendAck (s : State) (k : StreamId) (x : BitVec 16) (held : Bool) : State :=
  let s := { s with arm.lastAck := some (k, x, held) }
  match k with
  | .order t _ => s.queueAck t k x held t hubEndpoint (s.routeOf t)
  | .report t _ => s.queueAck (hubEndpoint + quadOf t) k x held hubEndpoint t (routeBits (routeWord (hubPortTile t) t))
  | .sentinel chip _ => s.peerPut chip (ackKind held) true x []

/-- The records in flight without the first one of node `t`. -/
def dropNode (t : Nat) : List (Nat × EvRec) → List (Nat × EvRec)
  | [] => []
  | e :: es => if e.1 == t then es else e :: dropNode t es

/-- The outstanding packet of a node's stream is done, and the next message of the stream follows (R98). -/
def State.streamDone (s : State) (t vc : Nat) : State :=
  match vc with
  | 1 => (s.modCore t fun c => { c with sums := ackSummary c.sums }).summaryNext t
  | 2 => ({ s with ev.flight := dropNode t s.ev.flight, ev.stream := tset none s.ev.stream t none } : State).eventNext t
  | _ => ({ s with arm.replies := dropFirst t s.arm.replies } : State).replyNext t

/-- The packet outstanding on a stream of node `t` can come to the hub: it is on its way, and the hub has not accepted
it yet (R98, R99). -/
def State.onItsWay (s : State) (t vc : Nat) : Bool :=
  match s.streamOf t vc with
  | some x => !x.lost && s.lastXid (.report t vc) != some x.xid
  | none => false

/-- That packet comes without an error: the hub accepts and consumes it, its ACK comes to the node, and the next
message of the stream follows (R98 to R100; log entry 4). -/
def State.exchanged (s : State) (t vc : Nat) : State :=
  let x := ((s.streamOf t vc).map (·.xid)).getD 0
  ({ s.setLastXid (.report t vc) x with arm.lastAck := some (.report t vc, x, false) } : State).streamDone t vc

/-- That packet is discarded on its way or at the hub: only a re-send brings it (R89, R99, R101). -/
def State.packetGone (s : State) (t vc : Nat) (xid : BitVec 16) : State :=
  match s.streamOf t vc with
  | some x => if x.xid == xid then s.setStream t vc { x with lost := true } else s
  | none => s

end Sys2Proof.Machine
end

