-- ==== Sys2Proof/Machine/TileOps.lean ====
section
/-! DEFINITION. What several chapters ask of a tile: its command boundary, its stream state, its
effective maquette exponent, and the identifiers of its commands. -/

namespace Sys2Proof.Machine

/-- Identifiers of the command in progress, else of none. -/
def Core.curIds (c : Core) : Option (BitVec 16 × BitVec 16 × BitVec 24) := c.cur.map cmdIds

/-- The tile stands at a command boundary (R21). -/
def Core.atBoundary (c : Core) : Bool := c.cur.isNone || c.halted || c.stepping

/-- The tile stands at an idle boundary: a command boundary at which its queue is empty (R228); a
STEPPING tile counts as standing at one (R415). -/
def Core.idleBoundary (c : Core) : Bool := (c.cur.isNone && c.queued == 0 && !c.halted) || c.stepping

/-- The tile's stream is stopped by a cast, a chisel session, a hold or a fence. -/
def Core.stopped (c : Core) : Bool := c.castStop || c.chiselStop || c.fenceStop

/-- The tile is in a chisel session: ISOLATING to REINIT (Table 7.6). -/
def ChiselTile.inSession (c : ChiselTile) : Bool := 6 ≤ c.state && c.state ≤ 9

/-- The command sequence after `q`: it wraps from 0xFF_FFFE to 0 (R32). -/
def seqAfter (q : BitVec 24) : BitVec 24 := if q == 0xFF_FFFE then 0 else q + 1

/-- The cut position of a stream: the command that it runs next (R334). -/
def Core.cutSeq (c : Core) : BitVec 24 :=
  match c.cur with
  | some x => x.cseq
  | none =>
    if c.next != 0xFF_FFFF then c.next
    else match c.last with | some i => seqAfter i.2.2 | none => 0

/-- The control state that a tile's node captures for a cast (R334). -/
def Core.cutNow (c : Core) : CutState :=
  { next := c.cutSeq, halted := c.halted, interrupted := c.interrupted, sems := c.sems, gens := c.gens }

/-- A stream that a cast has asked to stop, and that stands, has its control state captured, once (R334, R336). -/
def Core.cutHere (c : Core) : Core :=
  if c.castStop && c.cut.isNone && (c.cur.isNone || c.halted || c.interrupted || c.stepping) then
    { c with cut := some c.cutNow }
  else c

/-- STREAM of DBG_STATE (Table 13.17): the first that applies. -/
def Core.stream (c : Core) : Nat :=
  if c.frozen then 5 else if c.halted then 3 else if c.stopped then 4 else if c.stepping then 2
  else if c.cur.isNone then 1 else 0

/-- Sequence distance modulo 2²⁴ (R32, R373). -/
def cseqDiff (a b : BitVec 24) : Nat := (a - b).toNat

/-- Command sequence `q` lies past `last` (Table 12.3): it comes after it within half the range. -/
def cseqPast (q last : BitVec 24) : Bool :=
  let d := cseqDiff q last
  0 < d && d < 2 ^ 23

/-- The effective exponent of a tile; 15 stands for OFF (R188). -/
def State.effExp (s : State) (t : Nat) : Nat :=
  let m := (s.tile t).maq
  let ctl := s.inForce Reg.maqMaqCtl
  let base := if m.config == 0 then fld ctl 7 4 else m.config
  let k := if m.raised then min base (fld ctl 11 8) else base
  if k == 6 && !s.feature 2 then 7 else k

/-- The physical tiles that carry the logical tiles of a rectangle, with their logical index. -/
def State.rectTiles (s : State) (r : Rect) : List (Nat × Nat) := r.tiles.map fun l => (l, s.phys l)

end Sys2Proof.Machine
end

