-- ==== Sys2Proof/Machine/Digest.lean ====
section
/-! DEFINITION. Digest slots, weights sets as far as registers define them, and licences (chapter 12). -/

namespace Sys2Proof.Machine

/-- DIGEST.DET_KEY (Table 12.2). -/
def State.detKey (s : State) : Word :=
  pack [(56, 8, Config.stepping.toNat), (52, 4, b2n s.life.grade125), (32, 16, Config.seqRom.toNat),
    (16, 2, fld (s.inForce Reg.digestDetCtl) 1 0), (0, 8, fld (s.inForce Reg.sealSealCtl) 7 0)]

/-- The rectangle of a digest slot as captured at open (Table 12.4). -/
def DigSlot.rect (d : DigSlot) : Rect := rectOf d.cfg 0

/-- The slot is in OPEN, CLOSING or SETTLING (Table 12.3). -/
def DigSlot.running (d : DigSlot) : Bool := 1 ≤ d.state && d.state ≤ 3

/-- A slot moves to FAILED: DIGEST_FAIL is raised and a running close completes DIGEST_FAILED (R375). -/
def State.digestFail (s : State) (k reason tile : Nat) : State :=
  let d := s.dslot k
  let detail := pack [(60, 4, k), (56, 4, reason), (0, 11, tile)]
  let s := (s.raiseHub 0x00B1 .fault detail).bump Reg.digestRecordsFailed
  let s := s.finishOpt d.order .digestFailed
  s.modDslot k fun d => { d with state := 6, reason := reason, order := none }

/-- Fail every slot that satisfies a test. -/
def State.digestFailAll (s : State) (p : Nat → DigSlot → Bool) (reason tile : Nat) : State :=
  (List.range 16).foldl (fun s k => if p k (s.dslot k) then s.digestFail k reason tile else s) s

/-- The determinism key changes at a beat tick (R369). -/
def State.digestKeyChange (s : State) : State := s.digestFailAll (fun _ d => d.running) 3 0x7FF

/-- RESTORE begins (Table 12.3). -/
def State.digestRestore (s : State) : State := s.digestFailAll (fun _ d => d.running) 4 0x7FF

/-- REPOSE fails the slots of states 1 to 4 (Table 12.3). -/
def State.digestRepose (s : State) : State :=
  s.digestFailAll (fun _ d => 1 ≤ d.state && d.state ≤ 4) 6 0x7FF

/-- RELEASE_PARTITION of a rectangle fails the running slots whose RECT it meets (Table 12.3). -/
def State.digestRelease (s : State) (r : Rect) : State := s.digestFailAll (fun _ d => d.running && r.meets d.rect) 5 0x7FF

/-- A taint report that marks tiles is published: the slots whose RECT has one of them fail TAINTED,
naming the first such tile (Table 12.3). -/
def State.digestTaint (s : State) (tainted : Nat → Bool) : State :=
  (List.range 16).foldl (fun s k =>
    let d := s.dslot k
    match (s.rectTiles d.rect).find? fun e => tainted e.2 with
    | some e => if d.running then s.digestFail k 2 e.2 else s
    | none => s) s

/-- The sequence range of a slot holds command `q` (R373). -/
def DigSlot.inRange (d : DigSlot) (q : BitVec 24) : Bool :=
  match d.last with
  | none => cseqDiff q d.first < 2 ^ 23
  | some l => cseqDiff q d.first ≤ cseqDiff l d.first

/-- The effective exponents of a rectangle's tiles: the largest, 15 if any is OFF (Table 12.4). -/
def State.rectExp (s : State) (r : Rect) : Nat :=
  (s.rectTiles r).foldl (fun a e => max a (s.effExp e.2)) 0

/-- The POSTURE bits as they stand now are folded into the slots that run, and MAQ_EXP with them
(Table 12.4); done at every beat tick. -/
def State.digestPosture (s : State) : State :=
  (List.range 16).foldl (fun s k =>
    if (s.dslot k).running then
      let e := s.rectExp (s.dslot k).rect
      s.modDslot k fun d =>
        { d with
          lineage := d.lineage && bit (s.inForce Reg.containContainCtl) 0
          maq := d.maq && bit (s.inForce Reg.maqMaqCtl) 0
          chisel := d.chisel && bit (s.inForce Reg.chiselChiselCtl) 0
          patina := d.patina && bit (s.inForce Reg.patinaPatinaCtl) 0
          maqExp := max d.maqExp e }
    else s) s

/-- DIGEST_OPEN: BAD_OPERAND (Table 12.5). -/
def digestReserved (operand : BitVec 48) : Bool := fld (operand.setWidth 64) 43 24 != 0

/-- DIGEST_OPEN: STATE_ILLEGAL conditions of its own chapter (Table 12.5). -/
def State.digestOpenIllegal (s : State) (k : Nat) : Bool :=
  let cfg := s.inForce (Reg.digestSlotCfg + 8 * k)
  let r := rectOf cfg 0
  let d := s.dslot k
  let w := fld cfg 63 60
  (1 ≤ d.state && d.state ≤ 4) || !r.ok ||
  ((List.range 16).any fun j =>
    let e := s.dslot j
    (e.state == 1 || e.state == 2) && r.meets e.rect) ||
  (w != 0xF && (w > 7 || (s.wset w).state != 2))

/-- The tile has already begun a command in the slot's range (Table 12.3). -/
def Core.begunIn (c : Core) (d : DigSlot) : Bool := (c.last.map fun i => d.inRange i.2.2).getD false

/-- OP of the operation that arms a slot at a node; the spec gives none (assumption 26). -/
def opDIGEST_ARM : Nat := 0x17

/-- Its OPERAND: the slot and FIRST. -/
def digestArm (k : Nat) (first : BitVec 24) : BitVec 96 := BitVec.ofNat 96 (packNat [(92, 4, k), (68, 24, first.toNat)])

/-- DIGEST_OPEN takes effect: the slot opens and captures what the record will say; a tile that has
already begun a command in range fails it LATE_OPEN (Table 12.3). -/
def State.digestOpenDo (s : State) (k : Nat) (first : BitVec 24) : State :=
  let cfg := s.inForce (Reg.digestSlotCfg + 8 * k)
  let w := fld cfg 63 60
  let d : DigSlot :=
    { state := 1, first, cfg, nonce := s.inForce (Reg.digestSlotNonce + 8 * k), key := s.detKey
      root := if w ≤ 7 then (s.wset w).root else [], feats := s.life.features, opened := s.time.time
      lineage := bit (s.inForce Reg.containContainCtl) 0, maq := bit (s.inForce Reg.maqMaqCtl) 0
      chisel := bit (s.inForce Reg.chiselChiselCtl) 0, patina := bit (s.inForce Reg.patinaPatinaCtl) 0
      maqExp := s.rectExp (rectOf cfg 0) }
  let s := s.modDslot k fun _ => d
  let s := (s.rectTiles d.rect).foldl (fun s e =>
    s.modCore e.2 fun c => { c with dhash := terase c.dhash k }) s
  match (s.rectTiles d.rect).find? fun e => (s.tile e.2).core.begunIn d with
  | some e => s.digestFail k 1 e.2
  | none => s

/-- A node of RECT arms slot `k`: a command in range that its tile began before fails the slot LATE_OPEN (Table 12.3).
-/
def State.nodeDigest (s : State) (t k : Nat) : State :=
  if (s.dslot k).state == 1 && (s.tile t).core.begunIn (s.dslot k) then s.digestFail k 1 t else s

/-- DIGEST_CLOSE takes effect (Table 12.3). -/
def State.digestCloseDo (s : State) (k : Nat) (last : BitVec 24) (order : Nat) : State :=
  s.modDslot k fun d => { d with state := 2, last := some last, order := some order }

/-- Every tile of the slot has begun a command past LAST or stands at an idle boundary (Table 12.3). -/
def State.digestSettled (s : State) (k : Nat) : Bool :=
  let d := s.dslot k
  match d.last with
  | none => false
  | some l => (s.rectTiles d.rect).all fun e =>
      let c := (s.tile e.2).core
      c.idleBoundary || (c.last.map fun i => cseqPast i.2.2 l).getD false

/-- DIGEST_SETTLING: CLOSING becomes SETTLING and the close time is captured. -/
def State.digestSettle (s : State) (k : Nat) : State :=
  s.modDslot k fun d => { d with state := 3, closed := s.time.time, since := s.beat }

/-- The bytes fed for a slot on one tile: program, input and output (R373). -/
def Core.digBytes (c : Core) (k : Nat) : List Byte × List Byte × List Byte := tget ([], [], []) c.dhash k

/-- A category digest: over the logical tiles of RECT, the 2-byte index and the tile's digest (R374). -/
def State.category (s : State) (r : Rect) (k : Nat)
    (part : List Byte × List Byte × List Byte → List Byte) : List Byte :=
  sha384 ((s.rectTiles r).flatMap fun e =>
    leBytes 2 e.1 ++ sha384 (part ((s.tile e.2).core.digBytes k)))

/-- POSTURE of a record (Table 12.4). -/
def DigSlot.posture (d : DigSlot) (settle : Nat) : Word :=
  pack [(63, 1, b2n d.lineage), (62, 1, b2n d.maq), (61, 1, b2n d.chisel), (60, 1, b2n d.patina),
    (56, 4, d.maqExp), (48, 8, settle), (32, 5, d.feats.toNat)]

/-- Bytes 0 to 255 of a record (Table 12.4). -/
def State.recordBody (s : State) (k : Nat) : List Byte :=
  let d := s.dslot k
  let w := fld d.cfg 63 60
  leBytes 2 1 ++ leBytes 2 0 ++ leBytes 1 k ++ leBytes 3 (fld d.cfg 19 0) ++
  leBytes 8 Config.chipId.toNat ++ leBytes 8 d.key.toNat ++
  leBytes 8 (d.posture (fld (s.inForce Reg.digestDigestCtl) 7 0)).toNat ++
  leBytes 8 d.opened.toNat ++ leBytes 8 d.closed.toNat ++
  leBytes 3 d.first.toNat ++ leBytes 1 (if w ≤ 7 then w else 0xFF) ++
  leBytes 4 ((d.last.getD 0).toNat) ++ leBytes 8 d.nonce.toNat ++
  s.category d.rect k (fun p => p.1) ++ (if d.root = [] then List.replicate 48 0 else d.root) ++
  s.category d.rect k (fun p => p.2.1) ++ s.category d.rect k (fun p => p.2.2)

/-- DIGEST_SETTLE_EXPIRY: the record is hashed and passed to Ixano (Table 12.3). -/
def State.digestSign (s : State) (k : Nat) : State :=
  let body := s.recordBody k
  s.modDslot k fun d => { d with state := 4, since := s.beat, record := body ++ sha384 body }

/-- Big-endian bytes of a 384-bit signature value (R376). -/
def sigBytes (v : BitVec 384) : List Byte := (leBytes 48 v.toNat).reverse

/-- DIGEST_READY: the record is complete and the close completes OK (R375, R377). -/
def State.digestReady (s : State) (k : Nat) (r q : BitVec 384) : State :=
  let d := s.dslot k
  let rec_ := d.record ++ sigBytes r ++ sigBytes q ++ List.replicate 112 0
  let s := s.raiseHub 0x00B0 .info
    (pack [(60, 4, k), (24, 24, (d.last.getD 0).toNat), (0, 24, d.first.toNat)])
  let s := (s.bump Reg.digestRecordsSigned).finishOpt d.order .ok
  s.modDslot k fun d => { d with state := 5, record := rec_, reads := 0, order := none }

/-- The 512 bytes of the record window for a slot (R378). -/
def State.recordWindow (s : State) (k : Nat) : List Byte :=
  let d := s.dslot k
  if d.state == 5 then d.record
  else
    let st := if d.state == 6 then 2 else if d.state == 0 then 3 else 1
    [0, 0] ++ leBytes 2 st ++ List.replicate 508 0

/-! ### Weights sets (R370 to R372) -/

/-- WEIGHTS_STATE (Table 12.12). -/
def State.raiseWset (s : State) (w state reason tile : Nat) : State :=
  s.raiseHub 0x00B2 .note (pack [(61, 3, w), (58, 3, state), (54, 4, reason), (0, 11, tile)])

/-- A set changes state. -/
def State.wsetTo (s : State) (w state reason tile : Nat) : State :=
  (s.raiseWset w state reason tile).modWset w fun x => { x with state, reason, tile }

/-- Set `w` is retired or defined anew: the running slots that name it fail WEIGHTS (Table 12.3). -/
def State.wsetLost (s : State) (w : Nat) : State := s.digestFailAll (fun _ d => d.running && fld d.cfg 63 60 == w) 8 0x7FF

/-- The beat tick makes the WSET writes of the beat take effect (R371, R372). -/
def State.wsetTick (s : State) : State :=
  let s := (List.range 8).foldl (fun s w =>
    match tget none s.digest.setNext w with
    | none => s
    | some v =>
      let s := (s.wsetLost w).modWset w fun x => { x with word := v, root := [] }
      if bit v 63 then s.wsetTo w 1 0 0x7FF
      else if (s.wset w).state != 0 then s.wsetTo w 0 0 0x7FF else s) s
  { s with digest.setNext := [] }

/-- The beat tick makes the RECORD_SEL writes of the beat take effect (R391). -/
def State.selTick (s : State) : State :=
  { s with digest.select := s.digest.selNext.foldl (fun m e => match e.2 with | some v => tset 0 m e.1 v | none => m) s.digest.select
           digest.selNext := [] }

/-- The physical tiles of a set. -/
def State.wsetTiles (s : State) (w : Nat) : List (Nat × Nat) :=
  s.rectTiles (rectOf (s.wset w).word 36)

/-- A block of a slice is locked by a set in HASHING or LOCKED (R371). -/
def State.wsetLocks (s : State) (t l b : Nat) : Bool :=
  (List.range 8).any fun w =>
    let x := s.wset w
    (x.state == 1 || x.state == 2) && (wsetRange x.word).has l b &&
    ((s.logical t).map (rectOf x.word 36).has).getD false

/-- A release retires the LOCKED sets whose RECT meets its rectangle, and fails the slots that name
them (R372). -/
def State.wsetRelease (s : State) (r : Rect) : State :=
  (List.range 8).foldl (fun s w =>
    let x := s.wset w
    if x.state == 2 && (rectOf x.word 36).meets r then
      let s := s.wsetLost w
      let s := s.setReg (Reg.digestWsetW0 + 16 * w) (setFld (s.reg (Reg.digestWsetW0 + 16 * w)) 63 63 0)
      s.wsetTo w 0 3 0x7FF
    else s) s

/-- A set is hashing (Table 14.7). -/
def State.anyHashing (s : State) : Bool := (List.range 8).any fun w => (s.wset w).state == 1

/-! ### Licences (R380 to R382) -/

/-- INSTALL is written: ignored while a verdict is pending (R381). -/
def State.licInstall (s : State) (v : Word) : State :=
  if bit v 0 && !s.digest.licPending && !s.digest.licTick then { s with digest.licTick := true } else s

/-- The blob as LICENCE.BLOB holds it. -/
def State.licBlob (s : State) : List Byte :=
  (List.range 20).flatMap fun i => leBytes 8 (s.reg (Reg.licenceBlob + 8 * i)).toNat

/-- The beat tick passes the blob to Ixano and brings accepted features into force (R381). -/
def State.licTick (s : State) : State :=
  let s := { s with life.features := s.life.features ||| s.life.featuresNext, life.featuresNext := 0 }
  if s.digest.licTick then
    { s with digest.licTick := false, digest.licPending := true, digest.licBeat := s.beat
             digest.licBlob := s.licBlob }
  else s

/-- The verdict on a blob: 0 accepted, 1 FORMAT, 2 CHIP, 3 SIGNATURE, 4 TIMEOUT (Table 12.12). A FORMAT
field other than 0x0001 counts as FORMAT (assumption 11). -/
def licReason (b : List Byte) (sigOk : Option Bool) : Nat :=
  match sigOk with
  | none => 4
  | some ok =>
    let zero (from_ n : Nat) : Bool := ((b.drop from_).take n).all (· == 0)
    if leNat (b.take 2) != 1 || !zero 2 2 || !zero 20 44 || !zero 160 0 || leNat ((b.drop 16).take 4) ≥ 32 then 1
    else if leNat ((b.drop 8).take 8) != Config.chipId.toNat then 2
    else if !ok then 3 else 0

/-- LICENCE_VERDICT: the verdict is recorded; an accepted mask comes into force at the next tick, but a
GRADE_125 accepted after S1 only shows as PENDING_RESET (R381, R382). -/
def State.licVerdict (s : State) (sigOk : Option Bool) : State :=
  let b := s.digest.licBlob
  let r := licReason b sigOk
  let mask : BitVec 5 := BitVec.ofNat 5 (leNat ((b.drop 16).take 4))
  let late := decide (1 < s.life.stage)
  let now : BitVec 5 := if r == 0 then (if late then setBit mask 4 false else mask) else 0
  let serial : BitVec 32 := BitVec.ofNat 32 (leNat ((b.drop 4).take 4))
  let inForce := s.life.features ||| s.life.featuresNext ||| now
  let s := { s with
    digest.licPending := false, digest.licReason := r, digest.licSerial := serial
    digest.licCount := s.digest.licCount + b2n (r == 0)
    life.featuresNext := s.life.featuresNext ||| now
    life.pendingReset := if r == 0 && late && mask.getLsbD 4 then setBit s.life.pendingReset 4 true
                         else s.life.pendingReset }
  s.raiseFrom srcIxano 0x00B3 .note (pack [(60, 4, r), (32, 5, inForce.toNat), (0, 32, serial.toNat)])

end Sys2Proof.Machine
end

