-- ==== Sys2Proof/Machine/Mem.lean ====
section
/-! DEFINITION. The addressed memories: the stack by slice, layer and block (R34, R284), tile SRAM, the
seal stores beside them (R35, R120), and host memory as far as Chimin writes it (R38). -/

namespace Sys2Proof.Machine

/-- Blocks in one slice over all layers (R284). -/
def sliceBlocks : Nat := 8 * 1820 + 4 * 1365

/-- Blocks of tile SRAM: 3 MiB (Table 1.7). -/
def sramBlocks : Nat := 768

/-- Number of block `b` of layer `l` within a slice. -/
def blockInSlice (l b : Nat) : Nat := if l < 8 then l * 1820 + b else 8 * 1820 + (l - 8) * 1365 + b

/-- Number of a block of the stack. -/
def stackBlock (t l b : Nat) : Nat := t * sliceBlocks + blockInSlice l b

/-- Number of a block of tile SRAM. -/
def sramBlock (t i : Nat) : Nat := t * sramBlocks + i

/-- The empty seal word: CLASS NONE, VALID 0 and every other field 0 (R288). -/
def emptySeal : Word := 0

/-- The bytes of a block of the stack, and its seal word. -/
def State.stackBytes (s : State) (t l b : Nat) : List Byte :=
  s.stack.mem.readBytes (stackBlock t l b * blockBytes) blockBytes
def State.stackSeal (s : State) (t l b : Nat) : Word := tget emptySeal s.stack.seals (stackBlock t l b)

/-! ### Modes in force (R288, R301) -/

/-- The descriptors of a layer in force. -/
def State.mrForce (s : State) (l : Nat) : List Word :=
  (List.range 8).map fun k => s.inForce (layerReg l (0x200 + 8 * k))

/-- A list of descriptors makes runtime block `b` a compute block. -/
def mrCompute (l : Nat) (ws : List Word) (b : Nat) : Bool :=
  ws.any fun w => bit w 63 && bit w 62 && (mrRange l w).has l b

/-- Block `b` of a layer is converting from compute to protected (R301). -/
def State.converting (s : State) (l b : Nat) : Bool :=
  match tget none s.stack.convert l with
  | some c => b < runtimeEnd l && mrCompute l c.old b && !mrCompute l (s.mrForce l) b
  | none => false

/-- The re-encode pointer of tile `t`'s slice in a layer. -/
def State.reencodePtr (s : State) (t l : Nat) : Nat :=
  match tget none s.stack.convert l with
  | some c => tget 0 c.next t
  | none => 0

/-- Block `b` is in compute mode for a near-bank command (R288). -/
def State.isCompute (s : State) (l b : Nat) : Bool :=
  8 ≤ l && (runtimeEnd l ≤ b || mrCompute l (s.mrForce l) b)

/-- An ordinary read of the block returns NO_ECC: a compute block, or a converting block at or above the
slice's pointer. -/
def State.readsRaw (s : State) (t l b : Nat) : Bool :=
  s.isCompute l b || (s.converting l b && s.reencodePtr t l ≤ b)

/-! ### The stack (R284, R285) -/

/-- The check store after block `b` changes: a write that forms check bits leaves those of the new content; any other
leaves the bits that are there, which were formed for another content (R285, Table 9.2). -/
def State.checksAfter (s : State) (t l b : Nat) (fresh : Bool) : Tbl (Option (List Byte)) :=
  let k := stackBlock t l b
  if fresh then terase s.stack.check k
  else if (tget none s.stack.check k).isSome then s.stack.check
  else tset none s.stack.check k (some (s.stackBytes t l b))

/-- The codewords left uncorrectable, after block `b` changes: a write that forms check bits leaves none in it (R269,
R285). -/
def State.badAfter (s : State) (t l b : Nat) (fresh : Bool) : Tbl (Option Nat) :=
  if fresh then terase s.stack.bad (stackBlock t l b) else s.stack.bad

/-- The check bits that the check store holds for codeword `i` of a block (R285). -/
def State.checkBits (s : State) (t l b i : Nat) : BitVec 9 :=
  let bs := (tget none s.stack.check (stackBlock t l b)).getD (s.stackBytes t l b)
  Config.eccCheck (BitVec.ofNat 128 (leNat ((bs.drop (16 * i)).take 16)))

/-- An ordinary write of the block forms check bits: it is protected or converting (Table 9.2, R301). -/
def State.writesChecks (s : State) (l b : Nat) : Bool := !s.isCompute l b

/-- Write bytes at an offset in a block of the stack; the block becomes dirty (R332). -/
def State.stackWrite (s : State) (t l b off : Nat) (bs : List Byte) : State :=
  { s with stack.mem := s.stack.mem.writeBytes (stackBlock t l b * blockBytes + off) bs
           stack.check := s.checksAfter t l b (s.writesChecks l b)
           stack.bad := s.badAfter t l b (s.writesChecks l b)
           stack.dirty := tset false s.stack.dirty (stackBlock t l b) true }

/-- Write the seal word of a block of the stack. -/
def State.setStackSeal (s : State) (t l b : Nat) (w : Word) : State :=
  { s with stack.seals := tset emptySeal s.stack.seals (stackBlock t l b) w }

/-- The block of the stack is dirty (R332). -/
def State.isDirty (s : State) (t l b : Nat) : Bool := tget false s.stack.dirty (stackBlock t l b)

/-- The bytes of a block of tile SRAM, its seal word, and writing them. -/
def State.sramBytes (s : State) (t i : Nat) : List Byte :=
  s.stack.sram.readBytes (sramBlock t i * blockBytes) blockBytes
def State.sramSeal (s : State) (t i : Nat) : Word := tget emptySeal s.stack.sramSeals (sramBlock t i)
def State.sramWrite (s : State) (t i : Nat) (bs : List Byte) : State :=
  { s with stack.sram := s.stack.sram.writeBytes (sramBlock t i * blockBytes) bs }
def State.setSramSeal (s : State) (t i : Nat) (w : Word) : State :=
  { s with stack.sramSeals := tset emptySeal s.stack.sramSeals (sramBlock t i) w }

/-- Bytes and seal word of a block wherever it lies. -/
def State.blockBytesAt (s : State) : BlockAddr → List Byte
  | .sram t i => s.sramBytes t i
  | .slice t l b => s.stackBytes t l b
def State.blockSealAt (s : State) : BlockAddr → Word
  | .sram t i => s.sramSeal t i
  | .slice t l b => s.stackSeal t l b

/-- Write a whole block and its seal word wherever it lies. -/
def State.putBlock (s : State) (a : BlockAddr) (bs : List Byte) (w : Word) : State :=
  match a with
  | .sram t i => (s.sramWrite t i bs).setSramSeal t i w
  | .slice t l b => (s.stackWrite t l b 0 bs).setStackSeal t l b w

/-- The bytes of a block pass the SRAM port or the vertical signals of the tile where it lies (Table 13.1). -/
def State.portBytes (s : State) : BlockAddr → State
  | .sram t _ => s.count t 2 blockBytes
  | .slice t _ _ => s.count t 3 blockBytes

/-- Write a whole block through the port of its tile. -/
def State.portBlock (s : State) (a : BlockAddr) (bs : List Byte) (w : Word) : State :=
  (s.portBytes a).putBlock a bs w

/-- Chimin writes bytes to host memory. -/
def State.hostWrite (s : State) (a : Nat) (bs : List Byte) : State :=
  { s with hostMem := s.hostMem.writeBytes a bs }

/-- Clear a tile's SRAM and its side array: zeros and the empty seal word. -/
def State.clearSram (s : State) (t : Nat) : State :=
  { s with stack.sram := s.stack.sram.clear (t * sramBlocks * blockBytes) (sramBlocks * blockBytes)
           stack.sramSeals := s.stack.sramSeals.filter fun e => e.1 < t * sramBlocks || (t + 1) * sramBlocks ≤ e.1 }

/-- A table's entries for keys from `a` to `a + n - 1` replaced by those of another table. -/
def spliceTbl {α : Type} (m other : Tbl α) (a n : Nat) : Tbl α :=
  m.filter (fun e => e.1 < a) ++ other.filter (fun e => a ≤ e.1 && e.1 < a + n) ++ m.filter (fun e => a + n ≤ e.1)

/-- Copy a tile's SRAM image with its seal words into its save area, and back (R222, R224). -/
def State.saveImage (s : State) (t : Nat) : State :=
  { s with stack.saveSram := spliceTbl s.stack.saveSram s.stack.sram (t * sramBlocks * blockBytes) (sramBlocks * blockBytes)
           stack.saveSeals := spliceTbl s.stack.saveSeals s.stack.sramSeals (t * sramBlocks) sramBlocks }
def State.restoreImage (s : State) (t : Nat) : State :=
  { s with stack.sram := spliceTbl s.stack.sram s.stack.saveSram (t * sramBlocks * blockBytes) (sramBlocks * blockBytes)
           stack.sramSeals := spliceTbl s.stack.sramSeals s.stack.saveSeals (t * sramBlocks) sramBlocks }

/-- Write every seal word of a tile's side array empty (R225). -/
def State.emptySeals (s : State) (t : Nat) : State :=
  { s with stack.sramSeals := spliceTbl s.stack.sramSeals [] (t * sramBlocks) sramBlocks }

/-- The first block of a layer's test area, and its blocks (R222, Table 9.1). -/
def testStart (l : Nat) : Nat := if l < 8 then 1756 else 1301
def testBlocks : Nat := 64

/-- The march of SRAM_S leaves its pattern in a tile's SRAM and side array (R220). -/
def State.marchSram (s : State) (t : Nat) : State :=
  let a := t * sramBlocks
  let n := sramBlocks * blockBytes
  { s with
    stack.sram := s.stack.sram.writeBytes (a * blockBytes) ((List.range n).map (Config.marchByte 12))
    stack.sramSeals := (List.range sramBlocks).foldl (fun m i => tset emptySeal m (a + i) (Config.marchSeal i)) s.stack.sramSeals }

/-- The compute blocks among blocks `first` to `last` of a layer. -/
def State.computeBlocks (s : State) (l first last : Nat) : List Nat :=
  if l < 8 then []
  else if last < runtimeEnd l && !(s.mrForce l).any fun w => bit w 63 && bit w 62 then []
  else ((List.range (last + 1 - first)).map (first + ·)).filter (s.isCompute l)

/-- The check store after a range of blocks of a slice is written whole: fresh check bits for the protected ones, those
of the compute ones left (Table 9.2). -/
def State.checksRange (s : State) (t l first last : Nat) : Tbl (Option (List Byte)) :=
  let b0 := stackBlock t l first
  let raw := s.computeBlocks l first last
  raw.foldl (fun m b => tset none m (stackBlock t l b)
      (some ((tget none s.stack.check (stackBlock t l b)).getD (s.stackBytes t l b))))
    (s.stack.check.filter fun e => e.1 < b0 || b0 + (last + 1 - first) ≤ e.1)

/-- The codewords left uncorrectable after such a write: none of a protected block of the range (R269). -/
def State.badRange (s : State) (t l first last : Nat) : Tbl (Option Nat) :=
  let b0 := stackBlock t l first
  let raw := s.computeBlocks l first last
  s.stack.bad.filter fun e => e.1 < b0 || b0 + (last + 1 - first) ≤ e.1 || raw.contains (first + (e.1 - b0))

/-- The march of SLICE_S leaves its pattern in the test area of every layer of a slice (R220). -/
def State.marchSlice (s : State) (t : Nat) : State :=
  { s with
    stack.check := ((List.range numLayers).foldl (fun s l =>
      ({ s with stack.check := s.checksRange t l (testStart l) (testStart l + testBlocks - 1) } : State)) s).stack.check
    stack.bad := ((List.range numLayers).foldl (fun s l =>
      ({ s with stack.bad := s.badRange t l (testStart l) (testStart l + testBlocks - 1) } : State)) s).stack.bad
    stack.mem := (List.range numLayers).foldl (fun m l =>
      m.writeBytes (stackBlock t l (testStart l) * blockBytes)
        ((List.range (testBlocks * blockBytes)).map fun i => Config.marchByte 13 (l * testBlocks * blockBytes + i))) s.stack.mem }

/-- Number of a bank of a slice. -/
def bankKey (t l bank : Nat) : Nat := (t * numLayers + l) * 16 + bank

/-- Every postponed refresh of a slice is issued (R221). -/
def State.issueRefresh (s : State) (t : Nat) : State :=
  { s with stack.refresh := s.stack.refresh.filter fun e => e.1 < bankKey t 0 0 || bankKey (t + 1) 0 0 ≤ e.1 }

/-- Clear blocks `first` to `last` of a layer in one slice: zeros, fresh check bits of the protected blocks and the
empty seal word (R279, R288); every block becomes dirty. -/
def State.clearBlocks (s : State) (t l first last : Nat) : State :=
  let b0 := stackBlock t l first
  let n := last + 1 - first
  { s with
    stack.mem := s.stack.mem.clear (b0 * blockBytes) (n * blockBytes)
    stack.check := s.checksRange t l first last
    stack.bad := s.badRange t l first last
    stack.seals := s.stack.seals.filter fun e => e.1 < b0 || b0 + n ≤ e.1
    stack.dirty := (List.range n).foldl (fun d i => tset false d (b0 + i) true) s.stack.dirty }

/-- The block is one whose reads return NO_ECC (R297). -/
def State.rawAt (s : State) : BlockAddr → Bool
  | .sram _ _ => false
  | .slice t l b => s.readsRaw t l b

/-- What ECC finds in a block that is read: a codeword left uncorrectable is found again (R269). -/
def State.eccAt (s : State) (t l b : Nat) (e : EccFinding) : EccFinding :=
  match tget none s.stack.bad (stackBlock t l b), e with
  | some cw, .clean => .uncorrectable cw
  | some cw, .corrected _ => .uncorrectable cw
  | _, e => e

/-- The blocks of a slice outside its test areas whose reads ECC examines, by layer and block (R269, R297). -/
def State.eccBlocks (s : State) (t : Nat) : List (Nat × Nat) :=
  (List.range numLayers).flatMap fun l => ((List.range (testStart l)).filter fun b => !s.readsRaw t l b).map fun b => (l, b)

/-- A migrated word that was uncorrectable when read is written with its ECC left uncorrectable; which word it is, is a
free value (R269, assumption 58). -/
def State.markBad (s : State) (t : Nat) : State :=
  let d := s.draw
  let ps := d.2.eccBlocks t
  match ps[d.1.toNat % ps.length]? with
  | some (l, b) => { d.2 with stack.bad := tset none d.2.stack.bad (stackBlock t l b) (some (fld d.1 47 40)) }
  | none => d.2

end Sys2Proof.Machine
end

