-- ==== Sys2Proof/Machine/Debug.lean ====
section
/-! DEFINITION. Counter sampling, trace, ring reads, stepping and RUN, freeze as far as a node sees it,
and the watch slots' life (chapter 13). -/

namespace Sys2Proof.Machine

/-! ### Trace (R403 to R406) -/

/-- A trace record (Table 13.4). -/
def traceBytes (time : Word) (kind t logical : Nat) (l o : BitVec 16) (q : BitVec 24) (detail : Word) :
    List Byte :=
  leBytes 8 time.toNat ++ leBytes 2 (kind <<< 12 ||| t) ++ leBytes 2 logical ++ leBytes 2 l.toNat ++
  leBytes 2 o.toNat ++ leBytes 4 q.toNat ++ leBytes 4 0 ++ leBytes 8 detail.toNat

/-- The identifiers pass the filter of R404. -/
def State.traceFilter (s : State) (l o : BitVec 16) : Bool :=
  let f := s.inForce Reg.traceFilter
  let m := fld f 15 0
  fld f 63 48 ≤ l.toNat && l.toNat ≤ fld f 47 32 && o.toNat &&& m == fld f 31 16 &&& m

/-- Trace and counter stack ring: write record `i` of `per` to a block of the tile's own slice. The
engine carries no class, and the block's seal word is CLASS NONE, VALID 0 (R401, R406). -/
def State.ringWrite (s : State) (t : Nat) (r : BlkRange) (per i : Nat) (bs : List Byte) : State :=
  let n := (r.last + 1 - r.first) * per
  let j := i % n
  let b := r.first + j / per
  (s.stackWrite t r.layer b (j % per * bs.length) bs).setStackSeal t r.layer b emptySeal

/-- A trace record of tile `t` is dropped (R405). -/
def State.traceDropped (s : State) (t : Nat) : State :=
  let s := (s.modCore t fun c => { c with traceDrop := c.traceDrop + 1 }).bump Reg.traceDropped
  { s with dbg.trDropNow := s.dbg.trDropNow + 1
           dbg.trDropTile := if s.dbg.trDropNow == 0 then t else s.dbg.trDropTile }

/-- Put a record into the trace sink of tile `t`: the slice ring under SINK 1, else the node's queue of
64, where a record that finds it full is dropped (R405, R406). -/
def State.tracePut (s : State) (t : Nat) (bs : List Byte) : State :=
  let ctl := s.inForce Reg.traceTraceCtl
  if bit ctl 1 then
    let s := s.ringWrite t (rangeOf (s.inForce Reg.traceStackRange)) 128 (s.tile t).core.stackTrace bs
    (s.modCore t fun c => { c with stackTrace := c.stackTrace + 1 }).bump Reg.traceRecords
  else if (s.tile t).core.traceQ.length < 64 then
    s.modCore t fun c => { c with traceQ := c.traceQ ++ [bs] }
  else s.traceDropped t

/-- A tile emits a trace record, but not for the no-command identifiers (R404); a DROP record goes ahead of the
first one after records were dropped, and while the queue has no room for both that one is dropped too (R403). -/
def State.traceEmit (s : State) (t kind : Nat) (i : BitVec 16 × BitVec 16 × BitVec 24) (detail : Word) : State :=
  let ctl := s.inForce Reg.traceTraceCtl
  match s.logical t with
  | none => s
  | some lg =>
    if bit ctl 0 && s.traceFilter i.1 i.2.1 && !(i.1 == noLayer && i.2.1 == noOper) && bit ctl (if kind == 3 then 3 else 2) && !s.life.frozen then
      let st := s.localStamp (tileDomain t)
      let s := st.2
      let d := (s.tile t).core.traceDrop
      let room := bit ctl 1 || decide ((s.tile t).core.traceQ.length < 63)
      let bs := traceBytes st.1 kind t lg i.1 i.2.1 i.2.2 detail
      if d == 0 then s.tracePut t bs
      else if room then
        ((s.modCore t fun c => { c with traceDrop := 0 }).tracePut t (traceBytes st.1 4 t lg i.1 i.2.1 i.2.2 (word d))).tracePut
          t bs
      else s.traceDropped t
    else s

/-- Size of Chimin's trace buffer: 4 MiB (R405). -/
def traceBufBytes : Nat := 0x400000

/-- The node queues move into the trace buffer while it has room (R405). -/
def State.traceCollect (s : State) : State :=
  allTiles.foldl (fun s t =>
    let q := (s.tile t).core.traceQ
    if q.isEmpty then s
    else
      let k := min q.length ((traceBufBytes - s.dbg.trBuf.length) / 32)
      let s := { s with dbg.trBuf := s.dbg.trBuf ++ (q.take k).flatten }
      (s.modCore t fun c => { c with traceQ := q.drop k }).bump Reg.traceRecords k) s

/-- The trace DMA engine moves up to `n` units of 64 KiB into the host ring while it has room (R405). -/
def State.traceUnits (s : State) : Nat → State
  | 0 => s
  | n + 1 =>
    let size := (s.inForce Reg.traceHostSize).toNat
    let base := (s.inForce Reg.traceHostBase).toNat
    let wr := s.dbg.trWr.toNat
    let rd := (s.reg Reg.traceHostRd).toNat
    if 0x10000 ≤ s.dbg.trBuf.length && wr - rd + 0x10000 ≤ size then
      let s := s.hostWrite (base + wr % size) (s.dbg.trBuf.take 0x10000)
      { s with dbg.trBuf := s.dbg.trBuf.drop 0x10000, dbg.trWr := word (wr + 0x10000) }.traceUnits n
    else s

/-- TRACE_THRESH rises when the unconsumed bytes first reach THRESH, and again only after they have
fallen below it (R405). -/
def State.traceThresh (s : State) : State :=
  let n := s.dbg.trWr.toNat - (s.reg Reg.traceHostRd).toNat
  let isOver := decide ((s.inForce Reg.traceThresh).toNat ≤ n)
  let s := if isOver && !s.dbg.trOver then s.raiseHub 0x00C3 .info (word n) else s
  { s with dbg.trOver := isOver }

/-- TRACE_DROP, at most once per beat: at the tick the drops of the beat that ends are reported (R405). -/
def State.traceDropTick (s : State) : State :=
  if s.dbg.trDropNow == 0 then s
  else { s.raiseHub 0x00C4 .note (pack [(32, 32, s.dbg.trDropNow), (0, 11, s.dbg.trDropTile)]) with
         dbg.trDropNow := 0, dbg.trDropTile := 0 }

/-- After HOST_RD of the sample ring is written: its threshold is reached anew only once the count of
unconsumed sets has fallen below it (R399). -/
def State.countFall (s : State) (rd : Word) : State :=
  { s with dbg.overThresh := s.dbg.overThresh && decide ((s.inForce Reg.countThresh).toNat ≤ s.dbg.hostWr.toNat - rd.toNat) }

/-- The same for the unconsumed bytes of the trace ring (R405). -/
def State.traceFall (s : State) (rd : Word) : State :=
  { s with dbg.trOver := s.dbg.trOver && decide ((s.inForce Reg.traceThresh).toNat ≤ s.dbg.trWr.toNat - rd.toNat) }

/-- TRACE_DRAIN: the node queues fill the buffer, and the buffer drains into the host ring. -/
def State.traceDrain (s : State) : State :=
  let ctl := s.inForce Reg.traceTraceCtl
  if bit ctl 0 && !bit ctl 1 then (s.traceCollect.traceUnits 64).traceThresh else s

/-! ### Counter sampling (R394 to R401) -/

/-- The flags of a capture: RESET_AT_SAMPLE, STOPPED, FENCED (Table 13.2; LATE is the hub's). -/
def State.capFlags (s : State) (t : Nat) (atSample : Bool) : Nat :=
  b2n atSample + 2 * b2n (s.regionStopped (regionOf t)) + 4 * b2n ((s.tile t).core.ni.fenced t)

/-- The tag of a capture in the form of SAMPLE_TAG (Table 13.17). -/
def sampleTag (i : Option (BitVec 16 × BitVec 16 × BitVec 24)) (flags : Nat) : Word :=
  match i with
  | some (l, o, q) => pack [(48, 16, l.toNat), (32, 16, o.toNat), (8, 24, q.toNat), (0, 4, flags)]
  | none => pack [(48, 16, 0xFFFF), (32, 16, 0xFFFF), (8, 24, 0xFF_FFFF), (0, 4, flags)]

/-- The reply of a node to a capture: RSTATUS, FLAGS, BEAT and the tag, then the counters (R424). -/
def captureFlits (c : Core) (beat : Nat) : List Flit :=
  let tag := c.capTag
  BitVec.ofNat 128 (packNat [(120, 4, fld tag 3 0), (88, 32, beat), (72, 16, fld tag 63 48), (56, 16, fld tag 47 32),
    (32, 24, fld tag 31 8)]) ::
  byteFlits ((List.range 16).flatMap fun i => leBytes 6 (tget 0 c.capture i).toNat)

/-- Tile `t` captures its counters at cycle 5,632: a reset applied before that cycle is in, one applied
in it or later is not, and in the first case the tag is the closing command (R396). While the set of the capture before
is not built, its values are kept (R397). -/
def State.captureTile (s : State) (t : Nat) : State :=
  let peak := s.lastReading t
  let now := s.time.time
  let s := if s.dbg.sampled then s.modCore t fun c => { c with capOld := c.capture, capOldTag := c.capTag } else s
  let s := s.modCore t fun c => c.settled (now - 1) peak
  match (s.tile t).core.resetAt with
  | none => s.modCore t fun c => { c with capture := c.counters, capTag := sampleTag c.last (s.capFlags t false) }
  | some (ta, mask) =>
    s.modCore t fun c =>
      { c with capture := c.counters, capTag := sampleTag c.prev (s.capFlags t (ta == now && mask != 0)) }.settled now peak

/-- A node that was told to answers its capture with one reply of 8 flits, its header among them (R397). -/
def State.captureReply (s : State) (t : Nat) : State :=
  let c := (s.tile t).core
  if c.standing then s.sendReply t [captureFlits c s.beat] else s

/-- COUNTER_SAMPLING on a sampling beat: every node captures, the links with them, and the next sampling
beat is fixed (R395, R396, R402). -/
def State.sampleAll (s : State) : State :=
  let s := allTiles.foldl (fun s t => (s.captureTile t).captureReply t) s
  { s with dbg.older := if s.dbg.sampled then some (s.dbg.sampleTime, s.dbg.sampleBeat, s.dbg.linkCap) else none
           dbg.sampled := true, dbg.sampleTime := s.time.time, dbg.sampleBeat := s.beat
           dbg.linkCap := (List.range numLinks).map fun n =>
             (s.link n).tx.toNat + 2 ^ 48 * ((s.link n).rx.toNat + 2 ^ 48 * ((s.link n).sentTx.toNat +
               2 ^ 48 * (s.link n).sentRx.toNat)) }

/-- A sample whose set is to be built: its time, beat and link counters, and whether the nodes have captured again since
(R397). -/
structure Sample where
  time  : Word
  beat  : Nat
  links : List Nat
  old   : Bool
  deriving DecidableEq, Repr

/-- The oldest sample whose set is not built. -/
def State.sampleNext (s : State) : Sample :=
  match s.dbg.older with
  | some (time, beat, links) => { time, beat, links, old := true }
  | none => { time := s.dbg.sampleTime, beat := s.dbg.sampleBeat, links := s.dbg.linkCap, old := false }

/-- What a tile captured for a sample: its counters and its tag. -/
def Core.capOf (c : Core) (old : Bool) : Tbl (BitVec 48) × BitVec 64 :=
  if old then (c.capOld, c.capOldTag) else (c.capture, c.capTag)

/-- A tile sample record (Table 13.2). -/
def State.sampleRecord (s : State) (x : Sample) (t : Nat) (late : Bool) : List Byte :=
  let cap := (s.tile t).core.capOf x.old
  let tag := cap.2
  let flags := if late then 8 else fld tag 3 0
  leBytes 8 x.time.toNat ++ leBytes 2 (t ||| flags <<< 11) ++
  leBytes 2 ((s.logical t).getD 0x3FF) ++
  leBytes 2 (if late then 0xFFFF else fld tag 63 48) ++ leBytes 2 (if late then 0xFFFF else fld tag 47 32) ++
  leBytes 4 (if late then 0xFFFF_FFFF
    else if fld tag 63 48 == 0xFFFF && fld tag 31 8 == 0xFF_FFFF then 0xFFFF_FFFF else fld tag 31 8) ++
  List.replicate 12 0 ++
  (List.range 16).flatMap fun i => leBytes 6 (if late then 0 else (tget 0 cap.1 i).toNat)

/-- A sample set: header, link records and tile records (R398). -/
def State.sampleSet (s : State) (x : Sample) (late : List Nat) : List Byte :=
  let head := leBytes 8 x.time.toNat ++ leBytes 8 x.beat ++
    leBytes 4 s.dbg.setsBuilt ++ leBytes 2 1152 ++ leBytes 2 48 ++ List.replicate 8 0 ++
    leBytes 8 Config.chipId.toNat ++ List.replicate 88 0
  let links := (List.range numLinks).flatMap fun n =>
    leBytes 24 (x.links.getD n 0) ++ [BitVec.ofNat 8 n] ++ List.replicate 7 0
  head ++ links ++ List.replicate (4096 - 128 - 1536) 0 ++
  allTiles.flatMap fun t => s.sampleRecord x t (late.contains t)

/-- The hub's copies of a tile's counters follow a reply (R471, Table 13.17). -/
def State.counterReply (s : State) (old : Bool) (t : Nat) : State :=
  let cap := (s.tile t).core.capOf old
  s.modPage t fun p => { p with counters := cap.1, tag := cap.2 }

/-- Chip sums of the captures in time (Table 13.13): counter 13 is a maximum. Readings compare as signed. -/
def State.chipSums (s : State) (x : Sample) (late : List Nat) : Tbl Word :=
  let ts := allTiles.filter fun t => !late.contains t
  let cap (t i : Nat) : BitVec 48 := tget 0 ((s.tile t).core.capOf x.old).1 i
  (List.range 16).foldl (fun m i =>
    let v := ts.foldl (fun a t =>
      let n := (cap t i).toNat
      if i == 13 then (if s16 (BitVec.ofNat 16 a) < s16 (BitVec.ofNat 16 n) then n else a) else a + n)
      (if i == 13 then ((ts.head?.map fun t => (cap t 13).toNat).getD 0) else 0)
    tset 0 m i (word v)) []

/-- The stack sink: every node writes its own record into its own slice (R401). -/
def State.sampleStack (s : State) (x : Sample) : State :=
  if bit (s.inForce Reg.countCountCtl) 2 then
    allTiles.foldl (fun s t =>
      let bs := s.sampleRecord x t false
      let s := s.ringWrite t (rangeOf (s.inForce Reg.countStackRange)) 32 (s.tile t).core.stackSample bs
      s.modCore t fun c => { c with stackSample := c.stackSample + 1 }) s
  else s

/-- COUNT_THRESH rises when the unconsumed sets first reach THRESH (R399). -/
def State.countThresh (s : State) : State :=
  let n := unread s.dbg.hostWr (s.reg Reg.countHostRd)
  let isOver := decide ((s.inForce Reg.countThresh).toNat ≤ n)
  let s := if isOver && !s.dbg.overThresh then
      s.raiseHub 0x00C1 .info (pack [(32, 32, n), (0, 32, s.dbg.setSeq.toNat)])
    else s
  { s with dbg.overThresh := isOver }

/-- The host sink: a set that would overwrite an unconsumed slot is dropped (R399). -/
def State.sampleHost (s : State) (x : Sample) (late : List Nat) : State :=
  if bit (s.inForce Reg.countCountCtl) 1 then
    let slots := (s.inForce Reg.countHostSets).toNat
    let n := unread s.dbg.hostWr (s.reg Reg.countHostRd)
    if n < slots then
      let s := s.hostWrite ((s.inForce Reg.countHostBase).toNat + s.dbg.hostWr.toNat % slots * 151552) (s.sampleSet x late)
      { s with dbg.hostWr := s.dbg.hostWr + 1, dbg.setSeq := BitVec.ofNat 32 s.dbg.setsBuilt }.countThresh
    else
      (s.bump Reg.countSetsDropped).raiseHub 0x00C2 .note (word (s.dbg.setsBuilt % 2 ^ 32))
  else s

/-- SAMPLE_SET_BUILD: the oldest set that is not built is built, with the records of `late` nodes zeroed and
marked; a node whose standing reply was not asked for answers no capture (R397 to R401). -/
def State.sampleBuild (s : State) (late : List Nat) : State :=
  let x := s.sampleNext
  let late := allTiles.filter fun t => late.contains t || !(s.tile t).core.standing
  let s := { s with dbg.chipSum := s.chipSums x late, dbg.lateNodes := late }
  let s := allTiles.foldl (fun s t => if late.contains t then s else s.counterReply x.old t) s
  let s := (s.sampleStack x).sampleHost x late
  let s := s.bump Reg.countRecordsLate late.length
  { s with dbg.sampled := x.old, dbg.older := none, dbg.setSeq := BitVec.ofNat 32 s.dbg.setsBuilt
           dbg.setsBuilt := s.dbg.setsBuilt + 1 }

/-! ### Stepping and RUN (R413, R414) -/

/-- Restart a halted or interrupted command from its start: its pass and held blocks are discarded, and
so are its uncommitted results (R135, R161, R266). -/
def Core.restart (c : Core) : Core :=
  { c with halted := false, sealHalt := false, interrupted := false, pass := none, staging := []
           expect := none, retryXor := none }

/-- A node carries out RUN: a halted or interrupted command restarts, and STEPPING ends (R414). -/
def Core.run (c : Core) : Core :=
  { (if c.halted || c.interrupted then c.restart else c) with stepping := false, stepOn := false, stepLeft := 0, stepOrders := [] }

/-- A node carries out STEP (R413). -/
def Core.step (c : Core) (n : Nat) : Core :=
  if c.halted then
    { c.restart with stepping := false, stepOn := true, stepLeft := max n 1 - 1 }
  else if c.stepping then
    if n == 0 then c else { c with stepping := false, stepOn := true, stepLeft := n }
  else if c.cur.isNone && n == 0 then { c with stepping := true, stepOn := false, stepLeft := 0 }
  else { c with stepOn := true, stepLeft := n }

/-- When a stepping tile has stopped, its STEP order completes OK (R413). -/
def State.stepDone (s : State) (t : Nat) : State :=
  let c := (s.tile t).core
  if c.stepping then
    (c.stepOrders.foldl (fun s id => s.finish id .ok) s).modCore t fun (c : Core) => { c with stepOrders := [] }
  else s

/-! ### Watch slots (R410 to R412) -/

/-- WATCH_STATE, result and order of a watch slot. -/
def State.watch (s : State) (k : Nat) : Word × List Byte × Option Nat := tget (0, [], none) s.dbg.watch k
def State.setWatch (s : State) (k : Nat) (v : Word × List Byte × Option Nat) : State :=
  { s with dbg.watch := tset (0, [], none) s.dbg.watch k v }

/-- The slot is ARMED. -/
def State.watchArmed (s : State) (k : Nat) : Bool := fld (s.watch k).1 63 62 == 1

/-- The slot ends CANCELLED, and its order with it (R412). -/
def State.watchCancel (s : State) (k : Nat) : State :=
  let w := s.watch k
  (s.finishOpt w.2.2 .cancelled).setWatch k (setFld w.1 63 62 3, w.2.1, none)

/-- Cancel the ARMED slots of the logical tiles that satisfy a test. -/
def State.watchCancelAll (s : State) (p : Nat → Bool) : State :=
  (List.range 8).foldl (fun s k =>
    if s.watchArmed k && p (fld (s.watch k).1 54 45) then
      let t := s.phys (fld (s.watch k).1 54 45)
      (s.modCore t fun c => { c with watch := terase c.watch k, watchHit := c.watchHit.filter (· != k) }).watchCancel k
    else s) s

/-! ### Reading rings and node state (R409, R424) -/

/-- Bytes of a ring, oldest first. -/
def State.ringBytes (s : State) (ring : Nat) : List Byte :=
  (tget [] s.dbg.rings ring).reverse.flatMap fun e => leBytes 16 e.toNat

/-- A read request is answered: READ_BUF and READ_STATUS are filled. -/
def State.readAnswer (s : State) (bs : List Byte) (entries : Nat) : State :=
  { s with dbg.readBuf := bs, dbg.readValid := true, dbg.readBusy := false, dbg.readEntries := entries }

/-- READ_REQ is written: ignored while BUSY, or with a reserved KIND (R409). -/
def State.readRequest (s : State) (v : Word) : State :=
  if s.dbg.readBusy || 1 < fld v 63 60 then s
  else { s with dbg.readReq := v, dbg.readBusy := true, dbg.readValid := false }

/-- The first body flit of a STATE_READ reply (R424). -/
def State.stateFlit (s : State) (t : Nat) : Flit :=
  let c := (s.tile t).core
  let i := c.curIds.getD (c.last.getD (noLayer, noOper, 0xFF_FFFF))
  let q := (c.cur.map (·.cseq)).getD c.next
  let lg := c.ni.logical t
  BitVec.ofNat 128 (packNat [(120, 4, c.stream), (104, 16, c.ni.gen.toNat), (80, 24, q.toNat),
    (64, 16, i.1.toNat), (48, 16, i.2.1.toNat), (47, 1, b2n (c.ni.fenced t)),
    (46, 1, b2n ((lg.map c.ni.held).getD false)), (42, 4, (s.tile t).chisel.state), (34, 8, c.stepLeft)])

/-- The request that the hub waits for is this one. -/
def State.readMatches (s : State) (kind source : Nat) : Bool :=
  s.dbg.readBusy && fld s.dbg.readReq 63 60 == kind && fld s.dbg.readReq 10 0 == source

/-- In a dispatch phase the hub carries out a waiting read request: by HANG_READ or STATE_READ to a tile,
directly for a link or layer; a source without a ring gives no entries (R409). -/
def State.readDispatch (s : State) : State :=
  if !s.dbg.readBusy then s
  else
    let v := s.dbg.readReq
    let src := fld v 10 0
    let unit := fld v 20 16
    if src < numTiles then
      if s.arm.sent.any (fun o => o.vc == 2 && o.dests.getLsbD src) || s.arm.queue.any (fun o => o.vc == 2) then s
      else if fld v 63 60 == 0 then
        s.hubSend { op := 0x21, vc := 2, operand := BitVec.ofNat 96 (unit <<< 91), dests := oneNode src }
      else s.hubSend { op := 0x23, vc := 2, operand := 0, dests := oneNode src }
    else if fld v 63 60 == 0 && 0x480 ≤ src && src < 0x480 + numLinks then
      let r := ringLink (src - 0x480)
      s.readAnswer (s.ringBytes r) (tget [] s.dbg.rings r).length
    else if fld v 63 60 == 0 && 0x4B0 ≤ src && src < 0x4B0 + numLayers then
      let r := ringLayer (src - 0x4B0)
      s.readAnswer (s.ringBytes r) (tget [] s.dbg.rings r).length
    else s.readAnswer [] 0

/-- HANG_READ at a node: the ring is returned and left unchanged; a unit code that no table gives is REJECTED, and gives
the hub no entries (R87, R409, R424). -/
def State.nodeHangRead (s : State) (t unit : Nat) : State :=
  let es := if unit < 13 then tget [] s.dbg.rings (ringTile t unit) else []
  let s := if unit < 13 then s.sendReply t (recordReply 0 0 es.reverse) else s.replyRejected t
  if s.readMatches 0 t && fld s.dbg.readReq 20 16 == unit then
    s.readAnswer (es.reverse.flatMap fun e => leBytes 16 e.toNat) es.length
  else s

/-- STATE_READ at a node (R424). -/
def State.nodeStateRead (s : State) (t : Nat) : State :=
  let f := s.stateFlit t
  let s := s.sendReply t [[f]]
  if s.readMatches 1 t then s.readAnswer (leBytes 16 f.toNat) 0 else s

end Sys2Proof.Machine
end

