-- ==== Sys2Proof/Machine/Format.lean ====
section
/-! DEFINITION. Block formats, integer images, residues and the rounding stage (chapter 4). -/

namespace Sys2Proof.Machine

/-- The prime of every residue, 2³¹ − 1. -/
def sealPrime : Nat := 2147483647

/-- What Table 4.3 says of a format: bits of one element, exponent bits, mantissa bits and bias of a
floating-point one (0, 0, 0 for the others), and the scale S. -/
structure Fmt where
  bits : Nat
  expo : Nat
  mant : Nat
  bias : Nat
  s    : Nat
  deriving DecidableEq, Repr

/-- The row of Table 4.3; reserved codes have no elements. -/
def fmtOf (f : Nat) : Option Fmt :=
  match f with
  | 0x0 => some ⟨32, 0, 0, 0, 0⟩
  | 0x1 => some ⟨8, 0, 0, 0, 0⟩
  | 0x2 => some ⟨32, 0, 0, 0, 0⟩
  | 0x3 => some ⟨4, 2, 1, 1, 1⟩
  | 0x4 => some ⟨6, 2, 3, 1, 3⟩
  | 0x5 => some ⟨6, 3, 2, 3, 4⟩
  | 0x6 => some ⟨8, 4, 3, 7, 9⟩
  | 0x7 => some ⟨8, 5, 2, 15, 16⟩
  | 0x8 => some ⟨16, 8, 7, 127, 133⟩
  | 0x9 => some ⟨32, 8, 23, 127, 149⟩
  | 0xA => some ⟨128, 0, 0, 0, 0⟩
  | _ => none

/-- Bits of an element (Table 4.3). -/
def fmtBits (f : Nat) : Nat := ((fmtOf f).map (·.bits)).getD 8

/-- Scale S (Table 4.3). -/
def fmtScale (f : Nat) : Nat := ((fmtOf f).map (·.s)).getD 0

/-- The two FP6 formats pack five elements into a 32-bit word with two pad bits. -/
def isFp6 (f : Nat) : Bool := f == 4 || f == 5

/-- Elements per block (Table 4.3). -/
def fmtElems (f : Nat) : Nat := if isFp6 f then 5120 else 32768 / fmtBits f

/-- Rows of 64 elements per block. -/
def fmtRows (f : Nat) : Nat := fmtElems f / 64

/-! ### Packing (R125) -/

/-- Elements of `n` successive 32-bit words, five to each. -/
def unpackFp6 : Nat → List Byte → List Nat
  | 0, _ => []
  | n + 1, bs =>
    let w := leNat (bs.take 4)
    (List.range 5).map (fun t => w / 2 ^ (6 * t) % 64) ++ unpackFp6 n (bs.drop 4)

/-- Elements of `k` bytes each. -/
def unpackWide (k : Nat) : Nat → List Byte → List Nat
  | 0, _ => []
  | n + 1, bs => leNat (bs.take k) :: unpackWide k n (bs.drop k)

/-- The elements of a block. -/
def unpackBlock (f : Nat) (bs : List Byte) : List Nat :=
  if isFp6 f then unpackFp6 1024 bs
  else if fmtBits f == 4 then bs.flatMap fun b => [b.toNat % 16, b.toNat / 16]
  else unpackWide (fmtBits f / 8) (fmtElems f) bs

/-- Some pad bit of an FP6 block is not zero (R127). -/
def padsBad (f : Nat) (bs : List Byte) : Bool :=
  isFp6 f && (unpackWide 4 1024 bs).any fun w => w / 2 ^ 30 != 0

/-- Five elements in a 32-bit word; pads zero. -/
def packFp6 : List Nat → List Byte
  | a :: b :: c :: d :: e :: r =>
    leBytes 4 (a % 64 + b % 64 * 2 ^ 6 + c % 64 * 2 ^ 12 + d % 64 * 2 ^ 18 + e % 64 * 2 ^ 24) ++ packFp6 r
  | _ => []

/-- Two elements in a byte. -/
def packFp4 : List Nat → List Byte
  | a :: b :: r => BitVec.ofNat 8 (a % 16 + b % 16 * 16) :: packFp4 r
  | _ => []

/-- The bytes of a block with these elements. -/
def packBlock (f : Nat) (es : List Nat) : List Byte :=
  if isFp6 f then packFp6 es
  else if fmtBits f == 4 then packFp4 es
  else es.flatMap fun e => leBytes (fmtBits f / 8) e

/-! ### Images (R126, R139) -/

/-- A number in `w` bits of two's complement. -/
def signedOf (w v : Nat) : Int := if v % 2 ^ w < 2 ^ (w - 1) then (v % 2 ^ w : Nat) else (v % 2 ^ w : Nat) - (2 ^ w : Nat)

/-- Kinds of a floating-point encoding. -/
inductive FloatKind where
  | finite | negZero | inf | nan
  deriving DecidableEq, Repr

/-- The kind of an encoding under a floating-point format (Table 4.3): FP8 E4M3 has no infinity and two
NaN encodings, the formats above it follow IEEE 754, those below it have only −0. -/
def floatKind (f : Nat) (x : Fmt) (b : Nat) : FloatKind :=
  let m := b % 2 ^ (x.bits - 1)
  if b == 2 ^ (x.bits - 1) then .negZero
  else if f == 6 then if m == 0x7F then .nan else .finite
  else if 7 ≤ f && 2 ^ x.expo - 1 == m / 2 ^ x.mant then
    if m % 2 ^ x.mant == 0 then .inf else .nan
  else .finite

/-- Value × 2^S of a finite encoding: the subnormal mantissa, or the mantissa with its leading 1 shifted
by the exponent. -/
def floatImage (x : Fmt) (b : Nat) : Int :=
  let m := b % 2 ^ x.mant
  let e := b / 2 ^ x.mant % 2 ^ x.expo
  let v : Nat := if e == 0 then m else (2 ^ x.mant + m) * 2 ^ (e - 1)
  if b / 2 ^ (x.bits - 1) % 2 == 1 then -(v : Int) else v

/-- The integer image of an element (R126). -/
def image (f b : Nat) : Int :=
  match fmtOf f with
  | none => 0
  | some x =>
    if x.expo == 0 then (if f == 0 then (b : Int) else signedOf x.bits b)
    else match floatKind f x b with
      | .finite => floatImage x b
      | _ => 2 ^ 30 + (b : Int)

/-- The entry value of an element: its image, with −0 as 0 (R139). -/
def entryValue (f b : Nat) : Int :=
  match fmtOf f with
  | none => 0
  | some x => if x.expo != 0 && floatKind f x b == .negZero then 0 else image f b

/-- Special states of an accumulator and of an operand (R142): 0 none, 1 +Inf, 2 −Inf, 3 NaN. -/
def specialOf (f b : Nat) : Nat :=
  match fmtOf f with
  | none => 0
  | some x =>
    if x.expo == 0 then 0
    else match floatKind f x b with
      | .inf => if b / 2 ^ (x.bits - 1) % 2 == 1 then 2 else 1
      | .nan => 3
      | _ => 0

/-! ### Residues (R127) -/

/-- Residue of a signed integer, from 0 to p − 1. -/
def residue (v : Int) : Nat := (v % (sealPrime : Int)).toNat

/-- Position weight of element `i` of a block. -/
def weight (i : Nat) : Nat := (64 * (i / 64) + 1) * (i % 64 + 1)

/-- Weighted sum of residues from element `i` on, modulo p. -/
def residueFrom : Nat → List Int → Nat
  | _, [] => 0
  | i, v :: vs => (weight i * residue v + residueFrom (i + 1) vs) % sealPrime

/-- Residue of a block with these elements (R127). -/
def blockResidue (f : Nat) (es : List Nat) : Nat := residueFrom 0 (es.map (image f))

/-- The sum over a row of b(n) × value, modulo p, from column `n` on (R139, R141). -/
def rowResidueFrom : Nat → List Int → Nat
  | _, [] => 0
  | n, v :: vs => ((n + 1) * residue v + rowResidueFrom (n + 1) vs) % sealPrime

/-- Row residue of a row of values. -/
def rowResidue (vs : List Int) : Nat := rowResidueFrom 0 vs

/-- The residue of a block from its row residues: the sum of a(m) × row residue, from row `m` on (R146). -/
def rowsResidueFrom : Nat → List Nat → Nat
  | _, [] => 0
  | m, r :: rs => ((64 * m + 1) * r + rowsResidueFrom (m + 1) rs) % sealPrime

/-! ### Rounding (R144, Table 4.5) -/

/-- a × 2^k for a signed exponent, rounded to the nearest integer with ties to even. -/
def shiftRound (a : Nat) (k : Int) : Nat :=
  match k with
  | .ofNat n => a * 2 ^ n
  | .negSucc n =>
    let d := 2 ^ (n + 1)
    let q := a / d
    let r := a % d
    if d < 2 * r || (2 * r == d && q % 2 == 1) then q + 1 else q

/-- Magnitude encoding of a × 2^q in a floating-point format, before overflow is looked at. -/
def roundMagnitude (x : Fmt) (a : Nat) (q : Int) : Nat :=
  if a == 0 then 0
  else
    let low : Int := 1 - x.bias
    let e : Int := max ((Nat.log2 a : Int) + q) low
    (e - low).toNat * 2 ^ x.mant + shiftRound a (q - (e - x.mant))

/-- The encoding of acc × 2^q in output format `f` (Table 4.5). -/
def roundTo (f : Nat) (acc q : Int) : Nat :=
  match fmtOf f with
  | none => 0
  | some x =>
    if f == 0xA then (acc % (2 ^ 128 : Int)).toNat
    else if x.expo == 0 then
      let v : Int := if acc < 0 then -(shiftRound acc.natAbs q : Int) else shiftRound acc.natAbs q
      let hi : Int := 2 ^ (x.bits - 1) - 1
      sbits x.bits (max (-hi - 1) (min hi v))
    else
      let m := roundMagnitude x acc.natAbs q
      let top := if f == 6 then 0x7E else (2 ^ x.expo - 1) * 2 ^ x.mant
      min m top + (if acc < 0 then 2 ^ (x.bits - 1) else 0)

/-- The encoding of an element in a special state (R142): 1 +Inf, 2 −Inf, 3 NaN. -/
def roundSpecial (f st : Nat) : Nat :=
  match f with
  | 0x7 => if st == 3 then 0x7E else if st == 1 then 0x7C else 0xFC
  | 0x8 => if st == 3 then 0x7FC0 else if st == 1 then 0x7F80 else 0xFF80
  | 0x9 => if st == 3 then 0x7FC00000 else if st == 1 then 0x7F800000 else 0xFF800000
  | 0x6 => 0x7F
  | 0x1 => if st == 3 then 0 else if st == 1 then 0x7F else 0x80
  | 0x2 => if st == 3 then 0 else if st == 1 then 0x7FFFFFFF else 0x80000000
  | _ => 0

/-! ### Passes (R136 to R142) -/

/-- The pairings of operand formats (R136) and the output formats (R137). -/
def pairingOk (a w out : Nat) : Bool :=
  ((3 ≤ a && a ≤ 7 && 3 ≤ w && w ≤ 7) || (a == 1 && w == 1) || (a == 8 && w == 8)) &&
  [0x1, 0x2, 0x6, 0x7, 0x8, 0x9, 0xA].contains out

/-- Sum of products of an activation row and one column of a weight set, on entry values; a product
with a special operand is left out (R142). -/
def dot (a w : Nat) : List Nat → List Nat → Int
  | x :: xs, y :: ys =>
    (if specialOf a x == 0 && specialOf w y == 0 then entryValue a x * entryValue w y else 0) + dot a w xs ys
  | _, _ => 0

/-- Two special states of one accumulator meet (R142). -/
def meetStates (a b : Nat) : Nat :=
  if a == 0 then b else if b == 0 then a else if a == b then a else 3

/-- An encoding of a zero. -/
def isZeroEnc (f b : Nat) : Bool := entryValue f b == 0

/-- Sign of an encoding. -/
def signEnc (f b : Nat) : Bool := b / 2 ^ (fmtBits f - 1) % 2 == 1

/-- The special state that one product sets (R142). -/
def productState (a w x y : Nat) : Nat :=
  let p := specialOf a x
  let q := specialOf w y
  if p == 0 && q == 0 then 0
  else if p == 3 || q == 3 || (p == 0 && isZeroEnc a x) || (q == 0 && isZeroEnc w y) then 3
  else if signEnc a x != signEnc w y then 2 else 1

/-- The special state of the products of a row and a column. -/
def dotState (a w : Nat) : List Nat → List Nat → Nat
  | x :: xs, y :: ys => meetStates (productState a w x y) (dotState a w xs ys)
  | _, _ => 0

/-- Column `n` of a weight set. -/
def columnOf (ws : List (List Nat)) (n : Nat) : List Nat := ws.map fun r => r.getD n 0

/-- The 4,096 accumulators after one step, from those before it. -/
def stepAcc (p : PassDesc) (acc : List Int) (as ws : List (List Nat)) : List Int :=
  let cols := (List.range 64).map (columnOf ws)
  (List.range 64).flatMap fun m =>
    (List.range 64).map fun n =>
      acc.getD (64 * m + n) 0 + dot p.aFmt.toNat p.wFmt.toNat (as.getD m []) (cols.getD n [])

/-- The special states after one step. -/
def stepStates (p : PassDesc) (st : List Nat) (as ws : List (List Nat)) : List Nat :=
  let cols := (List.range 64).map (columnOf ws)
  (List.range 64).flatMap fun m =>
    (List.range 64).map fun n =>
      meetStates (st.getD (64 * m + n) 0) (dotState p.aFmt.toNat p.wFmt.toNat (as.getD m []) (cols.getD n []))

/-- u(k) of a weight row (R139). -/
def colCheck (w : Nat) (row : List Nat) : Nat := rowResidue (row.map (entryValue w))

/-- z(m): the products of an activation row with the checksum cells, modulo p (R140). -/
def checkDot (a : Nat) : List Nat → List Nat → Nat
  | x :: xs, u :: us => (residue (entryValue a x) * u + checkDot a xs us) % sealPrime
  | _, _ => 0

/-- The predicted row residues after one step (R140). -/
def stepPred (p : PassDesc) (pred : List Nat) (as ws : List (List Nat)) : List Nat :=
  let us := ws.map (colCheck p.wFmt.toNat)
  (List.range 64).map fun m => (pred.getD m 0 + checkDot p.aFmt.toNat (as.getD m []) us) % sealPrime

/-- Run a function over the steps of a pass. -/
def overSteps {α : Type} (f : α → List (List Nat) → List (List Nat) → α) : α → List (List (List Nat)) →
    List (List (List Nat)) → α
  | x, a :: as, w :: ws => overSteps f (f x a w) as ws
  | x, _, _ => x

/-- The accumulators are loaded with zero or with the CANON block (R136). -/
def loadAcc (p : PassDesc) : List Int := (List.range 4096).map fun i => (p.canon.getD []).getD i 0

/-- Row `m` of 64 values. -/
def rowSlice {α : Type} (m : Nat) (xs : List α) : List α := (xs.drop (64 * m)).take 64

/-- The exact accumulators of a pass. -/
def passAcc (p : PassDesc) : List Int := overSteps (stepAcc p) (loadAcc p) p.acts p.weights

/-- A number fits in 128 bits of two's complement. -/
def fits128 (v : Int) : Bool := -(2 ^ 127 : Int) ≤ v && v < (2 ^ 127 : Int)

/-- A pass breaks the headroom of CANON128: some element of its CANON128 output would not fit in it (R138; log
entry 48). -/
def breaksHeadroom (p : PassDesc) : Bool := p.outFmt == 0xA && (passAcc p).any fun v => !fits128 v

/-- The reason for which the command processor refuses a pass, lowest number first (R481); 0 if none. -/
def refuseReason (p : PassDesc) : Nat :=
  let canon := p.outFmt == 0xA || p.canon.isSome
  if p.acts.isEmpty && p.canon.isNone then 1
  else if !pairingOk p.aFmt.toNat p.wFmt.toNat p.outFmt.toNat then 2
  else if canon && p.aFmt == 8 then 3
  else if breaksHeadroom p then 4
  else if p.outFmt == 0xA && p.oscale != 0 then 5
  else 0

/-- The special states of a pass. -/
def passStates (p : PassDesc) : List Nat :=
  overSteps (stepStates p) (List.replicate 4096 0) p.acts p.weights

/-- The predicted row residues of a pass (R140). -/
def passPred (p : PassDesc) : List Nat :=
  overSteps (stepPred p) ((List.range 64).map fun m => rowResidue (rowSlice m (loadAcc p))) p.acts p.weights

/-- The first special operand of a pass as SEAL_SPECIAL names it, step by step: 0 a weight, 1 an
activation (Table 4.9); none if every operand is finite. DESIGN CHOICE (assumption 48): of a step with both, the weight
is named. -/
def firstSpecial (p : PassDesc) : Option Nat :=
  let has (f : Nat) (rows : List (List Nat)) : Bool := rows.any fun r => r.any fun b => specialOf f b != 0
  (p.acts.zip p.weights).findSome? fun st =>
    if has p.wFmt.toNat st.2 then some 0 else if has p.aFmt.toNat st.1 then some 1 else none

/-- A value of the operands of one kind, changed. -/
def flipValue (width : Nat) (e : EntryFault) (steps : List (List (List Nat))) : List (List (List Nat)) :=
  steps.modify e.step fun rows => rows.modify e.row fun r => r.modify e.col fun v => (v ^^^ e.flips) % 2 ^ width

/-- The pass with one value as its cells latched it (R141). -/
def corrupt (p : PassDesc) (e : EntryFault) : PassDesc :=
  if e.isAct then { p with acts := flipValue (fmtBits p.aFmt.toNat) e p.acts }
  else { p with weights := flipValue (fmtBits p.wFmt.toNat) e p.weights }

/-- The pass with its values as the cells latched them. -/
def latched (p : PassDesc) (es : List EntryFault) : PassDesc := es.foldl corrupt p

/-- The row residue that an entry check forms at a fault's row: u(k) of a weight row, or the sum on the broadcast
wires of an activation row (R141). -/
def entryResidue (p : PassDesc) (e : EntryFault) : Nat :=
  let row := ((if e.isAct then p.acts else p.weights).getD e.step []).getD e.row []
  colCheck (if e.isAct then p.aFmt else p.wFmt).toNat row

/-- The order of the entry checks of a pass: step by step, a step's weight rows before its activation rows. -/
def entryOrder (e : EntryFault) : Nat := (2 * e.step + b2n e.isAct) * 128 + e.row

/-- The first of a list of entry checks. -/
def earliestEntry (es : List EntryFault) : Option EntryFault :=
  es.foldl (fun m e =>
    match m with
    | none => some e
    | some a => if entryOrder e < entryOrder a then some e else some a) none

/-- The exponent of the rounding stage: OSCALE − Sacc (R144). -/
def passScale (p : PassDesc) : Int :=
  p.oscale.toInt - ((fmtScale p.aFmt.toNat + fmtScale p.wFmt.toNat : Nat) : Int)

/-- Rows of one output block of a pass, and its blocks (R137). -/
def passRows (p : PassDesc) : Nat := fmtRows p.outFmt.toNat
def passBlocks (p : PassDesc) : Nat := 64 / passRows p

end Sys2Proof.Machine
end

