-- ==== Sys2Proof/Machine/Mirror.lean ====
section
/-! DEFINITION. How a maquette host gets the operands of a sampled command: mirroring by the source's NI, subscribed
copies, and staging at the host (R193 to R197). -/

namespace Sys2Proof.Machine

/-- Blocks that a mirror queue holds (R196). -/
def mirrorSlots : Nat := 8

/-- The tile serves a session as host or referee (Table 6.10 ROLE). -/
def State.servesMaq (s : State) (t : Nat) : Bool := (s.tile t).maq.role == 3 || (s.tile t).maq.role == 4

/-- The sampled command of tile `t`'s session is in progress there. -/
def State.sampling (s : State) (t : Nat) : Option Cmd :=
  if (s.tile t).maq.role == 2 then
    match s.session (s.tile t).maq.slot with
    | some x => if x.src.isNone && x.cmd == (s.tile t).core.cur then x.cmd else none
    | none => none
  else none

/-- An operand toward the host of session slot `k` is lost (R196). -/
def State.mirrorGap (s : State) (k : Nat) : State :=
  match s.session k with
  | some x => if x.phase ≤ 1 then s.setSession k (some { x with gap := true }) else s
  | none => s

/-- The sampled command of slot `k` has taken an operand: its host needs it too (R196). -/
def State.operandTaken (s : State) (k : Nat) (a : BlockAddr) (w : Word) : State :=
  match s.session k with
  | some x => if x.operands.contains (a, w) then s else s.setSession k (some { x with operands := x.operands ++ [(a, w)] })
  | none => s

/-- The source's NI mirrors a block that command `c` takes, read at `src` and lying at `dst` at the source tile: each
block once, its seal word unchanged; with the queue full it is dropped (R193, R196). -/
def State.mirror (s : State) (t : Nat) (c : Cmd) (src dst : BlockAddr) (bs : List Byte) (w : Word) : State :=
  let k := (s.tile t).core
  if k.mirrored.contains (src, w) || k.mirrored.contains (dst, w) then s
  else
    let s := (s.modCore t fun k => { k with mirrored := (src, w) :: (dst, w) :: k.mirrored }).operandTaken (s.tile t).maq.slot src w
    if k.mirrorQ.length < mirrorSlots then
      s.modCore t fun k => { k with
        mirrorQ := k.mirrorQ ++ [{ src, dst, bytes := bs, sealw := w, layer := c.layer, oper := c.oper }] }
    else s.mirrorGap (s.tile t).maq.slot

/-- The host gets its own copy of a block: it came to the source with the SUBSCRIBED flag under the identifiers of the
sampled command, and lies at `a` (R194). -/
def Core.subscribedAt (k : Core) (c : Cmd) (a : BlockAddr) (w : Word) : Option Operand :=
  k.subscribed.find? fun o => o.dst == a && o.sealw == w && o.layer == c.layer && o.oper == c.oper

/-- The block lies in the tile's own SRAM or slice. -/
def ownBlock (t : Nat) : BlockAddr → Bool
  | .sram u _ => u == t
  | .slice u _ _ => u == t

/-- A read of the sampled command from its tile's own memory is mirrored, unless the host gets a copy of that block of
its own (R193, R194). -/
def State.mirrorRead (s : State) (t : Nat) (r : ReadReq) : State :=
  match s.sampling t with
  | some c =>
    if ownBlock t r.addr && !r.toHost then
      match (s.tile t).core.subscribedAt c r.addr (s.blockSealAt r.addr) with
      | some o => s.operandTaken (s.tile t).maq.slot o.src o.sealw
      | none => s.mirror t c r.addr r.addr (s.blockBytesAt r.addr) (s.blockSealAt r.addr)
    else s
  | none => s

/-- The host gets a copy of a transfer to the source of its own: it was subscribed under the identifiers of the
sampled command (R194). -/
def hostGets (x : Xfer) (c : Cmd) : Bool := x.subscribed && x.layer == c.layer && x.oper == c.oper

/-- A block that came with the SUBSCRIBED flag is remembered with its identifiers; its content stays where it was
placed (R194). -/
def State.noteSubscribed (s : State) (t : Nat) (x : Xfer) (b : BlockMove) : State :=
  if x.subscribed then
    s.modCore t fun k => { k with
      subscribed := { src := b.src, dst := b.dst, bytes := [], sealw := b.sealw, layer := x.layer, oper := x.oper } :: k.subscribed }
  else s

/-- A block of a transfer that reached the source of a session: one that the sampled command takes from the fabric is
mirrored as the command consumes it, unless the host gets it (R194, R195). -/
def State.mirrorTaken (s : State) (t : Nat) (x : XferIn) (b : BlockMove) : State :=
  let s := s.noteSubscribed t x.x b
  match s.sampling t with
  | some c =>
    if !x.taken then s
    else if hostGets x.x c then s.operandTaken (s.tile t).maq.slot b.src b.sealw
    else s.mirror t c b.src b.dst b.bytes b.sealw
  | none => s

/-- A block that arrives at a host leaves the source's mirror queue (R196). -/
def State.mirrorLeaves (s : State) (src : Nat) (b : BlockMove) : State :=
  s.modCore src fun k => { k with mirrorQ := k.mirrorQ.eraseP fun q => q.src == b.src && q.sealw == b.sealw }

/-- A host stages an operand in its slice (R197). -/
def State.stage (s : State) (t : Nat) (x : Xfer) (b : BlockMove) (bs : List Byte) (w : Word) : State :=
  s.modMaq t fun m => { m with
    staged := m.staged ++ [{ src := b.src, dst := b.dst, bytes := bs, sealw := w, layer := x.layer, oper := x.oper }] }

/-- The descriptor reaches a host: it keeps the operands of that command alone (R193, R194). -/
def State.takeDescr (s : State) (t : Nat) (c : Cmd) : State :=
  s.modMaq t fun m => { m with
    descr := some c, staged := m.staged.filter fun o => o.layer == c.layer && o.oper == c.oper }

/-- A branch toward the host of session slot `k` drops a subscribed copy: the oldest transfer under way that has one
loses it (R196). -/
def State.copyDrop (s : State) (k : Nat) : State :=
  match s.session k with
  | none => s
  | some x =>
    match s.tiles.find? fun e => e.2.core.xfers.any fun y => y.hosts.contains x.host with
    | some (u, _) => s.modCore u fun c => { c with
        xfers := match c.xfers.findIdx? fun y => y.hosts.contains x.host with
          | some i => c.xfers.modify i fun y => { y with hosts := y.hosts.erase x.host }
          | none => c.xfers }
    | none => s

/-- The operand of a session is on its way to the host: in the source's mirror queue, or in the host's copy of a
transfer. -/
def State.operandComes (s : State) (x : Session) (o : BlockAddr × Word) : Bool :=
  ((s.tile x.source).core.mirrorQ.any fun q => q.src == o.1 && q.sealw == o.2) ||
  s.tiles.any fun e => e.2.core.xfers.any fun y => y.hosts.contains x.host && y.blocks.any fun b => b.src == o.1 && b.sealw == o.2

/-- The host misses an operand: it was dropped, or is neither staged nor on its way (R196). -/
def State.operandMissing (s : State) (x : Session) : Bool :=
  x.gap || x.operands.any fun o =>
    !((s.tile x.host).maq.staged.any fun q => q.src == o.1 && q.sealw == o.2) && !s.operandComes x o

/-- What a tile holds for a session is discarded at its end; Chimin clears a host's command, halt and held blocks
(R183, R198, R211). -/
def State.maqDiscard (s : State) (t : Nat) : State :=
  let host := s.servesMaq t
  let s := s.modMaq t fun m => { m with role := 0, partner := 0, slot := 0, descr := none, begun := false, staged := [] }
  s.modCore t fun k =>
    let k := { k with mirrorQ := [], mirrored := [], subscribed := [] }
    if host then { k with cur := none, halted := false, sealHalt := false, pass := none, staging := [], expect := none
                          retryXor := none, retryInj := none }
    else k

end Sys2Proof.Machine
end

