-- ==== Sys2Proof/Machine/Lineage.lean ====
section
/-! DEFINITION. Lineage records of the nodes (R162 to R166). -/

namespace Sys2Proof.Machine

/-- The record of a beat (Table 5.1). -/
def linWord (beat : Nat) (l : LinOpen) : BitVec 128 :=
  let i := l.first.getD (noLayer, noOper, 0xFF_FFFF)
  let chip := if l.peer then (if l.chips then 0x1FFF else ((l.chip.map (·.toNat)).getD 0)) else 0
  BitVec.ofNat 128 (packNat [(119, 9, beat), (118, 1, b2n l.host), (117, 1, b2n l.peer),
    (116, 1, b2n (2047 < l.dcount || 511 < l.ncmd || 2047 < l.nblk)), (100, 16, l.dreg.toNat),
    (89, 11, min l.dcount 2047), (80, 9, min l.ncmd 511), (64, 16, i.1.toNat), (48, 16, i.2.1.toNat),
    (24, 24, i.2.2.toNat), (11, 13, chip), (0, 11, min l.nblk 2047)])

/-- The record of a slot that nothing was entered in (R163). -/
def linEmpty (beat : Nat) : BitVec 128 := linWord beat {}

/-- A command is in progress in the beat (NCMD of Table 5.1): each is counted once, its restarts with it. -/
def LinOpen.command (l : LinOpen) (i : BitVec 16 × BitVec 16 × BitVec 24) : LinOpen :=
  if l.counted == some i then l
  else { l with ncmd := l.ncmd + 1, counted := some i, first := some (l.first.getD i) }

/-- A transfer leaves the tile: regions, destinations, host, link and blocks (R164, R166). -/
def LinOpen.transfer (l : LinOpen) (regions : List Nat) (dests : Nat) (host : Bool) (chip : Option (BitVec 13))
    (blocks : Nat) : LinOpen :=
  { l with
    dreg := regions.foldl (fun d g => setBit d g true) l.dreg
    dcount := l.dcount + dests
    host := l.host || host
    peer := l.peer || chip.isSome
    chips := l.chips || (match l.chip, chip with | some a, some b => a != b | _, _ => false)
    chip := match l.chip with | some a => some a | none => chip
    nblk := l.nblk + blocks }

/-- The record of the beat before is still open: LINEAGE_CLOSING, the first phase of a beat, is to come (R163). -/
def State.closingDue (s : State) : Bool := s.time.phase == 0

/-- Change tile `t`'s record of this beat, if records are being written (R164, Table 5.7): the open one, or what
stands entered for this beat while the record of the beat before is still open. A maquette host's work enters none
(R183). -/
def State.lineage (s : State) (t : Nat) (f : LinOpen → LinOpen) : State :=
  if s.servesMaq t then s
  else if s.closingDue then
    if s.contain.linNow then s.modCore t fun c => { c with linNext := f c.linNext } else s
  else if s.contain.linOn then s.modCore t fun c => { c with lin := f c.lin } else s

/-- The command of tile `t` comes into progress, at its first cycle or its restart (Table 5.1). -/
def State.lineageCommand (s : State) (t : Nat) : State :=
  match (s.tile t).core.curIds with
  | some i => s.lineage t fun l => l.command i
  | none => s

/-- A transfer of tile `t` is entered in its record; a write to the tile's own SRAM or slice sets nothing
(R166). -/
def State.lineageSend (s : State) (t : Nat) (x : Xfer) : State :=
  let ds := x.dests.filter fun l => s.logical t != some l
  if ds.isEmpty && !x.toHost && x.toChip.isNone then s
  else s.lineage t fun l => l.transfer (ds.map regionOfLogical) ds.length x.toHost x.toChip x.blocks.length

/-- A read of tile `t`'s slice served to another master: to a tile, the host or, on a link, another chip (R164). A
read by the host sets HOST, for its data goes to host memory (log entry 48). -/
def State.lineageServe (s : State) (t : Nat) (reader : Option Nat) (host : Bool) (chip : Option (BitVec 13)) : State :=
  if reader == some t then s
  else s.lineage t fun l => l.transfer (reader.map regionOf).toList 1 host chip 1

/-- The closed record of tile `t` for a beat. -/
def Core.linRec (c : Core) (b : Nat) : BitVec 128 :=
  match c.linRecs.find? fun e => e.1 == b with
  | some e => e.2
  | none => linEmpty b

/-- LINEAGE_LAST of a tile page: the last closed record (R181). -/
def State.linLast (s : State) (t : Nat) : BitVec 128 :=
  match s.contain.lastClosed, (s.tile t).page.lineage with
  | some b, some (a, r) => if a == b then r else linEmpty b
  | some b, none => linEmpty b
  | none, _ => 0

/-- A command that is in progress: begun, neither ended nor halted nor interrupted (Table 5.1). -/
def Core.running (c : Core) : Bool := c.cur.isSome && !c.halted && !c.interrupted

/-- The open record of a new beat: the command still in progress is its first (Table 5.1). -/
def Core.openLin (c : Core) (on : Bool) : LinOpen :=
  match c.curIds with
  | some i => if on && c.running then ({} : LinOpen).command i else {}
  | none => {}

/-- The records a query captures: those of the beats from max(FROM_BEAT, C − 63) to C, oldest first; a
beat without an entry has the empty record and is left out (R169). -/
def Core.captureLin (c : Core) (fromBeat last : Nat) : List (Nat × BitVec 128) :=
  (c.linRecs.filter fun e => max fromBeat (last - 63) ≤ e.1 && e.1 ≤ last).reverse

/-- The node stands at the tick of a beat: a command in progress is the first of the new beat's record (Table 5.1). -/
def Core.linTick (c : Core) (on : Bool) : Core := { c with linNext := c.openLin on }

/-- Every node with a command stands at the tick; lineage is on in the beat if it is in force at its tick, after
Ready (R163, Table 5.7). -/
def State.lineageTick (s : State) : State :=
  let on := s.life.stage == 5 && bit (s.inForce Reg.containContainCtl) 0
  let s := s.tiles.foldl (fun s e =>
    if (e.2.core.cur.isSome && !s.servesMaq e.1) || e.2.core.linNext ≠ {} then s.modCore e.1 fun c => c.linTick on else s) s
  { s with contain.linNow := on }

/-- One node closes its record of beat `b` and opens that of `b + 1`; a query that was parked before the tick of
`b + 1` is captured directly after (R163, R169). Records in which nothing was entered are not listed. -/
def Core.closeLin (c : Core) (b : Nat) (wrote : Bool) : Core :=
  let recs := c.linRecs.filter fun e => b < e.1 + 64
  let recs := if wrote && c.lin ≠ {} then (b, linWord b c.lin) :: recs else recs
  let c := { c with linRecs := recs, lin := c.linNext, linNext := {} }
  match c.query with
  | some q => if q.2.2 ≤ b then { c with query := none, captured := some (b, c.captureLin q.2.1 b) } else c
  | none => c

/-- The reply to a query just captured: a record of each beat, with REPORT_ID and LAST (R169). -/
def State.lineageReply (s : State) (t : Nat) (q : Option (BitVec 16 × Nat × Nat)) (b : Nat) : State :=
  match q with
  | some q =>
    if q.2.2 ≤ b then
      let a := max q.2.1 (b - 63)
      s.sendReply t (recordReply q.1.toNat b ((List.range (b + 1 - a)).map fun i => (s.tile t).core.linRec (a + i)))
    else s
  | none => s

/-- The hub's copy of a closed record that is not empty, for LINEAGE_LAST (R181). -/
def State.lineagePage (s : State) (t b : Nat) (wrote : Bool) (l : LinOpen) : State :=
  if wrote && l ≠ {} then s.modPage t fun p => { p with lineage := some (b, linWord b l) } else s

/-- LINEAGE_CLOSING in beat B: every node closes the record of B − 1 and opens that of B (R163). -/
def State.lineageClose (s : State) : State :=
  let b := s.beat - 1
  let wrote := s.contain.linOn
  let s := allTiles.foldl (fun s t =>
    let c := (s.tile t).core
    if c.lin ≠ {} || c.linNext ≠ {} || c.query.isSome || !c.linRecs.isEmpty then
      ((s.modCore t fun c => c.closeLin b wrote).lineagePage t b wrote c.lin).lineageReply t c.query b
    else s) s
  { s with contain.linOn := s.contain.linNow
           contain.lastClosed := if wrote then some b else s.contain.lastClosed }

end Sys2Proof.Machine
end

