-- ==== Sys2Proof/Machine/Seal.lean ====
section
/-! DEFINITION. Seal words, verified reads, and how a command halts on a seal failure (chapter 4). -/

namespace Sys2Proof.Machine

/-! ### Seal words (Table 4.1) -/

/-- PBEAT of plinth time: bits [21:13] (R120). -/
def pbeat (time : Word) : Nat := fld time 21 13

/-- A seal word. -/
def sealWord (time : Word) (t : Nat) (gen : BitVec 8) (cls : Nat) (valid : Bool) (res : Nat) : Word :=
  pack [(55, 9, pbeat time), (44, 11, t), (36, 8, gen.toNat), (32, 4, cls), (31, 1, b2n valid), (0, 31, res)]

/-- CLASS, GEN, VALID and RESIDUE of a seal word. -/
def sealClass (w : Word) : Nat := fld w 35 32
def sealGen (w : Word) : Nat := fld w 43 36
def sealValid (w : Word) : Bool := bit w 31
def sealResidue (w : Word) : Nat := fld w 30 0

/-- The reason for which a block is refused with SEAL_INVALID, in the order of R132. -/
def refusal (w : Word) (sealBad : Bool) : Option Nat :=
  if sealBad then some 4
  else if sealClass w == 0 then some 1
  else if sealClass w == 4 then some 5
  else if 6 ≤ sealClass w then some 2
  else if !sealValid w then some 0
  else if sealResidue w == sealPrime then some 3
  else none

/-- What a check under R131 finds. -/
inductive Check where
  | pass
  | invalid (reason : Nat)
  | stale
  | mismatch (xor : Nat)
  deriving DecidableEq, Repr

/-- Check a block against its seal word under R131: `ue` is an uncorrectable codeword of its data, which
counts as a mismatch (R298), and `inj` the bit of the recomputed residue that an injection inverts. -/
def checkBlock (fmt gen : Nat) (genCheck : Bool) (w : Word) (bs : List Byte) (sealBad ue : Bool)
    (inj : Option Nat) : Check :=
  match refusal w sealBad with
  | some r => .invalid r
  | none =>
    if genCheck && sealGen w != gen then .stale
    else
      let r := blockResidue fmt (unpackBlock fmt bs)
      let r := match inj with | some b => r ^^^ 2 ^ b | none => r
      let x := r ^^^ sealResidue w
      if x == 0 && !padsBad fmt bs && !ue && (fmtOf fmt).isSome then .pass else .mismatch x

/-! ### Injection (R156) -/

/-- The armed bit of an injection of this kind at this tile; it waits while the tile is fenced, idle or
in a chisel session. -/
def State.injected (s : State) (t kind : Nat) : Option Nat :=
  let w := s.reg Reg.sealInject
  let c := (s.tile t).core
  if bit w 63 && fld w 21 19 == kind && fld w 10 0 == t && !c.ni.fenced t && c.cur.isSome &&
      !(s.tile t).chisel.inSession then some (fld w 26 22) else none

/-- The injection is consumed: ARMED clears. -/
def State.consume (s : State) (used : Bool) : State :=
  if used then s.setReg Reg.sealInject (setFld (s.reg Reg.sealInject) 63 63 0) else s

/-! ### Events (Table 4.9) -/

/-- The RC counter of a seal event (Table 4.10). -/
def sealCounter (code : Nat) : Option Nat :=
  match code with
  | 0x30 => some Reg.sealVerdictFails | 0x31 => some Reg.sealRoundFails | 0x32 => some Reg.sealEntryFails
  | 0x33 => some Reg.sealReadRetries | 0x34 => some Reg.sealReadFails | 0x35 => some Reg.sealInvalidReads
  | 0x36 => some Reg.sealStaleReads | 0x38 => some Reg.sealCanonSumFails | _ => none

/-- A seal event of tile `t`: counted, raised, and a FAULT other than PASS_REFUSED counts as a seal
mismatch, or as an injected one (R153). Nothing is counted or recorded once Chimin is frozen (Table 13.6). -/
def State.sealEvent (s : State) (t unit code : Nat) (sev : Severity) (detail : Word) (inj : Bool) : State :=
  if s.life.frozen then s else
  let s := match sealCounter code with | some k => s.bump k | none => s
  let s := s.raiseTile t unit code sev (s.tile t).core.curIds detail
  if sev = .fault && code != 0x39 then
    if inj then s.modCore t fun c => { c with sum.sealInj := c.sum.sealInj + 1 }
    else (s.modCore t fun c => { c with sum.sealFault := c.sum.sealFault + 1 }).count t 7 1
  else s

/-! ### Halting (R135) -/

/-- Plinth cycles since the command began, saturating in 40 bits (Table 13.4). -/
def State.sinceBegin (s : State) (t : Nat) : Nat :=
  min (s.time.time.toNat - (s.tile t).core.curTime.toNat) (2 ^ 40 - 1)

/-- CMD_END of tile `t`'s command with an END code, and the END entry of its node's ring (R403, R408). A maquette
host's run is no command of a tile stream. -/
def State.traceEnd (s : State) (t how : Nat) : State :=
  match if s.servesMaq t then none else (s.tile t).core.curIds with
  | some i => (s.traceEmit t 2 i (pack [(60, 4, how), (0, 40, s.sinceBegin t)])).hangLocal t uNODE
      .end_ i.2.2.toNat 0
  | none => s

/-- The unit that reports a failure of a pass (Table 4.9). -/
def failUnit (code : BitVec 16) : Nat := if code == 0x32 then uARRAY else uNI

/-- Raise the events of a failed pass's first run, with RECOVERED (R148, R149). -/
def State.raiseFails (s : State) (t : Nat) (fs : List Fail) (recovered : Bool) : State :=
  fs.foldl (fun s f =>
    let s := if recovered then s.bump Reg.sealVerdictRecovered else s
    s.sealEvent t (failUnit f.code) f.code.toNat .fault (setFld f.detail 62 62 (b2n recovered)) f.inj) s

/-- A pass goes into the array, whose hang ring notes it (R408). -/
def State.passIn (s : State) (t : Nat) (x : PassSt) : State :=
  (s.modCore t fun c => { c with pass := some x }).unitRing t uARRAY .begin_ 0

/-- The pass is over. -/
def State.passDone (s : State) (t : Nat) : State := (s.modCore t fun c => { c with pass := none }).unitRing t uARRAY .end_ 0

/-- The pass drains: its first block has, and its last has not (R151). -/
def PassSt.draining (p : PassSt) : Bool := 0 < p.next && p.next < passBlocks p.desc && !p.entry

/-- The pass in the array is discarded. If its rerun was awaited, that is abandoned, and the events of the first
run go out with RECOVERED 0 (R148, R149). -/
def State.dropPass (s : State) (t : Nat) : State :=
  match (s.tile t).core.pass with
  | some p => (s.passDone t).raiseFails t p.fails false
  | none => s

/-- A stop of the stream discards the pass in the array, unless its drain has begun, which then runs on to its
last block (R150, R151). -/
def State.stopPass (s : State) (t : Nat) : State :=
  if ((s.tile t).core.pass.map (·.draining)).getD false then s else s.dropPass t

/-- The command of tile `t` halts: its pass is discarded, held blocks stay held, and the stream waits for
RUN (R135, R150, R161). `isSeal` marks a halt by a seal failure. -/
def State.halt (s : State) (t : Nat) (isSeal : Bool) : State :=
  let c := (s.tile t).core
  if c.cur.isSome && !c.halted then
    ((s.stopPass t).traceEnd t 1).modCore t fun c =>
      Core.cutHere
        { c with halted := true, sealHalt := isSeal, unreported := true, expect := none, retryXor := none, retryInj := none }
  else s

/-! ### Accesses to a layer (R290) -/

/-- Statuses (Table 9.3); 8 stands for Unsupported Request (R440). -/
def stOK : Nat := 0
def stDENIED : Nat := 1
def stRESERVED : Nat := 2
def stPROTECTED : Nat := 3
def stNB_SPLIT : Nat := 4
def stNO_ECC : Nat := 5
def stUE : Nat := 6
def stNB_ABORTED : Nat := 7
def stUR : Nat := 8
/-- The model's own: the router of a fenced tile absorbed the request and acknowledged it FENCED (R259). -/
def stFENCED : Nat := 9

/-- The bank in which block `b` lies. -/
def bankOf (b : Nat) : Nat := b % 16

/-- The operation in progress in a bank. -/
def State.bankRun (s : State) (k : Nat) : Option NbRun := tget none s.stack.nb k

/-- The block lies in the range, in force, of a stack sink that is in force (R401, R406, R407). -/
def State.inSink (s : State) (l b : Nat) : Bool :=
  let c := s.inForce Reg.countCountCtl
  let t := s.inForce Reg.traceTraceCtl
  (bit c 0 && bit c 2 && (rangeOf (s.inForce Reg.countStackRange)).has l b) ||
  (bit t 0 && bit t 1 && (rangeOf (s.inForce Reg.traceStackRange)).has l b)

/-- The layer's access table permits an ordinary access (R384, R385), and neither a weights lock nor a stack
sink's range refuses it (R371, R401, R406). -/
def State.stackPermits (s : State) (a : StackAcc) : Bool :=
  let e := s.layerEntry a.layer a.req.cls.index
  let write := match a.kind with | .read => false | .write _ _ => true
  let own := match s.partitionOf a.req.pasid with | some p => s.tileInPart a.tile p | none => false
  let known := a.req.cls ≠ .hostu || (s.partitionOf a.req.pasid).isSome
  known && entryPermits e write (a.req.cls = .hostu) own && !(write && s.wsetLocks a.tile a.layer a.block) &&
  !(write && s.inSink a.layer a.block && (a.req.cls = .tile || a.req.cls = .peer || a.req.cls = .hostu))

/-- The stack interface domain that serves a tile's slice is stopped (R290, R303, R73). -/
def State.stackStopped (s : State) (t : Nat) : Bool :=
  s.time.stopped.getLsbD (if colOf t < 16 then 21 else 22)

/-- A host access (R440). -/
def isHost (m : Requester) : Bool := m.cls = .hostk || m.cls = .hostu

/-- The access is the tile's own, by its DMA engine or NI. -/
def ownAccess (a : StackAcc) : Bool := a.req.cls = .tile && a.reader == some a.tile

/-- Another master reaches a slice through the logical tile that it carries: a spare's slice has no address (R183). -/
def State.reachable (s : State) (a : StackAcc) : Bool := ownAccess a || (s.logical a.tile).isSome

/-- The access is a write. -/
def accWrites (a : StackAcc) : Bool := match a.kind with | .read => false | .write _ _ => true

/-- Another master's request for a slice whose logical tile is held waits in its NI: the tile's of the NI that makes
it, or, for one that comes from the host interface or a link, the hub's copy of the hold (R223, assumption 50). -/
def State.sliceHeld (s : State) (a : StackAcc) : Bool :=
  !ownAccess a && match s.logical a.tile with
  | some l => (match a.reader with | some u => (s.tile u).core.ni.held l | none => s.map.hub.held l)
  | none => false

/-- How a request for a slice block goes: absorbed by the router of a fenced tile, unless it is the tile's own (R259);
held back by a hold (R223); not judged while the stack interface is stopped (R303); a host access in Repose (R440); the
steps of Table 9.3; a write from outside between Q and resume (R339); a bank in a near-bank operation (R295). `absent`
is a block that the unit cannot address. -/
inductive Gate where
  | absorbed | held | stopped | repose | denied | reserved | paused | busy | serve | absent
  deriving DecidableEq, Repr

/-- The bank of an access. -/
def accBank (a : StackAcc) : Nat := bankKey a.tile a.layer (bankOf a.block)

/-- The first of these that applies to an access (R290). -/
def State.gate (s : State) (a : StackAcc) : Gate :=
  if !ownAccess a && (s.tile a.tile).core.router then .absorbed
  else if s.sliceHeld a then .held
  else if s.stackStopped a.tile then .stopped
  else if s.inRepose && isHost a.req then .repose
  else if !s.stackPermits a then .denied
  else if runtimeEnd a.layer ≤ a.block then .reserved
  else if s.castPhase == 3 && (s.tile a.tile).core.castStop && a.external && accWrites a then .paused
  else if (s.bankRun (accBank a)).isSome then .busy
  else .serve

/-- The accesses that wait at a bank. -/
def State.bankWaits (s : State) (k : Nat) : List (Nat × StackReq) := tget [] s.stack.waits k

/-- The hang ring in which a request's wait in front of the stack is noted: that of the unit that asks, else of the
slice that is asked (R408). -/
def StackReq.asker (q : StackReq) : Nat × Nat :=
  match q.job with
  | .access => (q.acc.tile, uSLICE)
  | .read t r | .second t r => (t, r.unit)
  | .change t p => (t, p.read.unit)
  | .send t _ | .again t _ _ _ _ => (t, uNI)

/-- The unit that asks begins to wait for a hold (3) or a stopped clock (5), or its wait ends (R408). -/
def State.askerRing (s : State) (q : StackReq) (k : HangKind) (cause : Nat) : State :=
  s.unitRing q.asker.1 q.asker.2 k cause

/-- What becomes of a request that is not served at once: refused with its status, or made to wait, which a hang ring
notes (R223, R259, R290, R295, R303, R339, R408, R440). -/
def State.turnAway (s : State) (g : Gate) (q : StackReq) : State :=
  let a := q.acc
  match g with
  | .absorbed => { s.bump Reg.mapAbsorbed with status := stFENCED }
  | .held => ({ s with stack.holdWaits := s.stack.holdWaits ++ [q] } : State).askerRing q .wait 3
  | .stopped => ({ s with stack.stopWaits := s.stack.stopWaits ++ [q] } : State).askerRing q .wait 5
  | .repose => { s.bump Reg.powerReposeUr with status := stUR }
  | .denied => { s.deny a.req (accWrites a) true a.layer a.block with status := stDENIED }
  | .reserved => { s with status := stRESERVED }
  | .paused => { s.bump Reg.castHostWritesHeld with stack.heldWrites := s.stack.heldWrites ++ [a], status := stOK }
  | .busy =>
    ({ s.bump (layerReg a.layer 0x140) with
       stack.waits := tset [] s.stack.waits (accBank a) (s.bankWaits (accBank a) ++ [(s.time.time.toNat, q)]) } : State).unitRing
      a.tile uSLICE .wait 4
  | .serve | .absent => s

/-! ### The units of a tile at a block (R34, R290) -/

/-- The access of a unit of tile `t` to a block of the slice of `u`. -/
def unitAcc (t u l b : Nat) (write : Bool) : StackAcc :=
  { req := { cls := .tile }, tile := u, layer := l, block := b, kind := if write then .write [] (.stored 0 0) else .read
    ecc := .clean, external := false, reader := some t }

/-- The operand that a maquette host or referee staged for a block of its source (R197, R198). -/
def State.stagedAt (s : State) (t : Nat) (a : BlockAddr) : Option Operand :=
  if s.servesMaq t then (s.tile t).maq.staged.find? fun o => o.src == a || o.dst == a else none

/-- A block as a unit of tile `t` reads it: the bytes and the seal word. -/
def State.readBytes (s : State) (t : Nat) (a : BlockAddr) : List Byte :=
  match s.stagedAt t a with | some o => o.bytes | none => s.blockBytesAt a
def State.readSeal (s : State) (t : Nat) (a : BlockAddr) : Word :=
  match s.stagedAt t a with | some o => o.sealw | none => s.blockSealAt a

/-- How a unit of tile `t` reaches a block: its own SRAM and a staged operand at once, the slice of its own or of a
tile that carries a logical tile through the stack interface, and no other tile's SRAM (R34, R183). -/
def State.unitGate (s : State) (t : Nat) (addr : BlockAddr) (write : Bool) : Gate :=
  if (s.stagedAt t addr).isSome then .serve
  else match addr with
    | .sram u _ => if u == t then .serve else .absent
    | .slice u l b => let a := unitAcc t u l b write; if s.reachable a then s.gate a else .absent

/-- A unit of tile `t` is served at a block, or its request is refused or waits. A read of another tile's slice is
entered in that tile's lineage record (R164). -/
def State.atBlock (s : State) (t : Nat) (addr : BlockAddr) (write : Bool) (job : StackJob) (go : State → State) : State :=
  match s.unitGate t addr write, addr with
  | .serve, .slice u _ _ => if write || (s.stagedAt t addr).isSome then go s else go (s.lineageServe u (some t) false none)
  | .serve, _ => go s
  | g, .slice u l b => s.turnAway g { acc := unitAcc t u l b write, job }
  | _, .sram _ _ => s

/-! ### ECC findings (R298) -/

/-- Corrected and uncorrectable codewords at a tile's SRAM or slice: the node's summary and the tile's counters (Table
8.2, Table 13.1). -/
def State.eccCorr (s : State) (t n : Nat) : State := (s.modCore t fun c => { c with sum.eccCorr := c.sum.eccCorr + n }).count t 8 n
def State.eccUncorr (s : State) (t : Nat) : State := (s.modCore t fun c => { c with sum.eccUncorr := c.sum.eccUncorr + 1 }).count t 9 1

/-- A corrected read of a slice; the block is written back corrected. -/
def State.sliceCorrected (s : State) (t l n : Nat) : State := (s.bump (layerReg l 0x118) n).eccCorr t n

/-- MEM_UNCORR (Table 9.6), counted. -/
def State.sliceUncorr (s : State) (t l b codeword : Nat) (patrol : Bool)
    (c : Option (BitVec 16 × BitVec 16 × BitVec 24)) : State :=
  ((s.bump (layerReg l 0x120)).eccUncorr t).raiseTile t uSLICE 0x0080 .fault c
    (pack [(60, 4, l), (59, 1, b2n patrol), (32, 11, b), (0, 8, codeword)])

/-- What ECC finds in a tile's own SRAM. -/
def State.sramEcc (s : State) (t : Nat) : EccFinding → State
  | .corrected n => s.eccCorr t n
  | .uncorrectable _ => s.eccUncorr t
  | .sealUncorrectable => s.eccUncorr t
  | .clean => s

/-- What ECC finds in an ordinary read of a slice block, with the status of the read (R297, R298): check bits of a
compute block are not examined. An uncorrectable seal word counts at the tile (Table 8.1). -/
def State.sliceEcc (s : State) (t l b : Nat) (e : EccFinding) (ids : Option (BitVec 16 × BitVec 16 × BitVec 24)) : State :=
  let raw := s.readsRaw t l b
  let e := s.eccAt t l b e
  let s := if raw then s.bump (layerReg l 0x128) else s
  let st := if raw then stNO_ECC else stOK
  match e, raw with
  | .corrected n, false => { s.sliceCorrected t l n with status := st }
  | .uncorrectable cw, false => { s.sliceUncorr t l b cw false ids with status := stUE }
  | .sealUncorrectable, _ => { s.eccUncorr t with status := st }
  | _, _ => { s with status := st }

/-- A unit of tile `t` reads a block: its bytes pass a port, and ECC examines it. A staged operand lies in the host's
own slice. -/
def State.blockRead (s : State) (t : Nat) (a : BlockAddr) (e : EccFinding) : State :=
  if (s.stagedAt t a).isSome then (s.count t 3 blockBytes).sramEcc t e
  else
    match a with
    | .sram u _ => (s.portBytes a).sramEcc u e
    | .slice u l b => (s.portBytes a).sliceEcc u l b e (s.tile t).core.curIds

/-- The finding that counts: check bits of a compute block are not examined (R297), and a codeword left uncorrectable
is found again (R269). -/
def State.findingAt (s : State) (t : Nat) (a : BlockAddr) (e : EccFinding) : EccFinding :=
  if (s.stagedAt t a).isSome then e
  else match a with
    | .sram _ _ => e
    | .slice u l b => if s.readsRaw u l b then (if e = .sealUncorrectable then e else .clean) else s.eccAt u l b e

/-! ### Verified reads (R131 to R135) -/

/-- A block is accepted (Table 13.1, SEAL_OK). -/
def State.accept (s : State) (t : Nat) : State := s.count t 6 1

/-- SEAL_INVALID, and the command halts. -/
def State.refuseInvalid (s : State) (t unit reason : Nat) (w : Word) : State :=
  (s.sealEvent t unit 0x35 .fault
    (pack [(60, 4, reason), (0, 55, if reason == 4 then 0 else w.toNat)]) false).halt t true

/-- SEAL_STALE, and the command halts. -/
def State.refuseStale (s : State) (t unit gen : Nat) (w : Word) : State :=
  (s.sealEvent t unit 0x36 .fault (pack [(32, 32, fld w 63 32), (0, 8, gen)]) false).halt t true

/-- SEAL_READ_FAIL, and the command halts. -/
def State.readFail (s : State) (t unit : Nat) (w : Word) (x : Nat) (inj : Bool) : State :=
  (s.sealEvent t unit 0x34 .fault
    (pack [(32, 32, fld w 63 32), (31, 1, b2n inj), (0, 31, x)]) inj).halt t true

/-- SEAL_READ_RETRY: the second read passed. -/
def State.readRetry (s : State) (t unit : Nat) (w : Word) (x : Nat) (inj : Bool) : State :=
  (s.sealEvent t unit 0x33 .note (pack [(32, 32, fld w 63 32), (31, 1, b2n inj), (0, 31, x)]) inj).accept t

/-- RETRY_EN in force (R133). -/
def State.retryEn (s : State) : Bool := bit (s.inForce Reg.sealSealCtl) 0

/-- Change bytes of a block on its way. -/
def flipBytes (bs : List Byte) (fs : List (Nat × Byte)) : List Byte :=
  fs.foldl (fun b f => b.set f.1 (b.getD f.1 0 ^^^ f.2)) bs

/-- An uncorrectable codeword in the data read. -/
def eccUe (e : EccFinding) : Bool := match e with | .uncorrectable _ => true | _ => false

/-- The check of one read of a block by a unit of tile `t`. -/
def State.checkRead (s : State) (t : Nat) (r : ReadReq) (inj : Option Nat) : Check :=
  let e := s.findingAt t r.addr r.ecc
  checkBlock r.fmt.toNat r.gen.toNat r.genCheck (s.readSeal t r.addr) (flipBytes (s.readBytes t r.addr) r.flips)
    (e = .sealUncorrectable) (eccUe e) inj

/-- A block passes to the reseal input: a RESEAL source of CLASS NEARBANK and VALID 0 whose read returned
OK or NO_ECC (R299). -/
def State.resealSource (s : State) (t : Nat) (r : ReadReq) : Bool :=
  let w := s.readSeal t r.addr
  let e := s.findingAt t r.addr r.ecc
  r.reseal.isSome && sealClass w == 4 && !sealValid w && e ≠ .sealUncorrectable && !eccUe e

/-- The vector unit writes a RESEAL source unchanged to tile SRAM, where the port seals it COMPUTED (R299). -/
def State.resealBlock (s : State) (t : Nat) (r : ReadReq) : State :=
  let bs := s.readBytes t r.addr
  ((s.unitRing t uVECTOR .begin_ 0).portBlock (.sram t (r.reseal.getD 0)) bs
    (sealWord s.time.time t r.gen 3 true (blockResidue r.fmt.toNat (unpackBlock r.fmt.toNat bs)))).unitRing t uVECTOR .end_ 0

/-- The check of a read, and the injection of KIND 3 that it consumes: a block refused for its seal word, whose
residue is not recomputed, leaves the injection armed (R156; log entry 48). -/
def State.readCheck (s : State) (t : Nat) (r : ReadReq) : Check × Option Nat :=
  match s.checkRead t r none with
  | .invalid reason => (.invalid reason, none)
  | .stale => (.stale, none)
  | _ => let inj := s.injected t 3; (s.checkRead t r inj, inj)

/-- A block that a check does not accept: its event, and the command halts; a DMA transfer to host memory completes
with an error status, and none of its bytes reach host memory (R132, R134). -/
def State.refuseRead (s : State) (t : Nat) (r : ReadReq) (c : Check) (inj : Bool) : State :=
  let w := s.readSeal t r.addr
  let s := if r.toHost then s.modCore t fun c => { c with hostDma := some .error } else s
  match c with
  | .pass => s
  | .invalid reason => s.refuseInvalid t r.unit reason w
  | .stale => s.refuseStale t r.unit r.gen.toNat w
  | .mismatch x => s.readFail t r.unit w x inj

/-- The first read of a block by a unit of tile `t`: a mismatch awaits its second read if RETRY_EN is 1 (R131 to
R134). -/
def State.firstRead (s : State) (t : Nat) (r : ReadReq) : State :=
  let s := s.blockRead t r.addr r.ecc
  if s.resealSource t r then s.resealBlock t r
  else
    let k := s.readCheck t r
    let s := s.consume k.2.isSome
    match k.1 with
    | .pass => (s.accept t).mirrorRead t r
    | .mismatch x =>
      if s.retryEn then
        s.modCore t fun c => { c with expect := some r, retryXor := some (BitVec.ofNat 31 x), retryInj := k.2 }
      else s.refuseRead t r k.1 k.2.isSome
    | _ => s.refuseRead t r k.1 k.2.isSome

/-- SEAL_VERIFY_READ at tile `t`. -/
def State.verifyRead (s : State) (t : Nat) (r : ReadReq) : State :=
  s.atBlock t r.addr false (.read t r) fun s => s.firstRead t r

/-- The second read of a block whose first read differed by `first` (R133, R134); answers whether it is accepted. -/
def State.readAgain (s : State) (t : Nat) (r : ReadReq) (first : Nat) (inj : Option Nat) : State × Bool :=
  let s := s.blockRead t r.addr r.ecc
  match s.checkRead t r inj with
  | .pass => ((s.readRetry t r.unit (s.readSeal t r.addr) first inj.isSome).mirrorRead t r, true)
  | c => (s.refuseRead t r c inj.isSome, false)

/-- A read with what a new read of it finds. -/
def readAs (r : ReadReq) (f : Finding) : ReadReq := { r with flips := f.flips, ecc := f.ecc }

/-- The block awaited at tile `t` is read again, with what read `r` of it finds. -/
def State.nextRead (s : State) (t : Nat) (r : ReadReq) : State :=
  let c := (s.tile t).core
  match c.expect with
  | none => s
  | some e =>
    if e.addr ≠ r.addr then s
    else
      let s := s.modCore t fun c => { c with expect := none, retryXor := none, retryInj := none }
      (s.readAgain t (readAs e { flips := r.flips, ecc := r.ecc }) ((c.retryXor.map (·.toNat)).getD 0) c.retryInj).1

/-- SEAL_SECOND_READ at tile `t`, of the block that it awaits. -/
def State.secondRead (s : State) (t : Nat) (r : ReadReq) : State :=
  if (s.tile t).core.expect.map (·.addr) == some r.addr then
    s.atBlock t r.addr false (.second t r) fun s => s.nextRead t r
  else s

/-- A read with its second read in one step, which finds `again`; answers whether the block is accepted. -/
def State.readVerified (s : State) (t : Nat) (r : ReadReq) (again : Finding) : State × Bool :=
  let s := s.blockRead t r.addr r.ecc
  let k := s.readCheck t r
  let s := s.consume k.2.isSome
  match k.1 with
  | .pass => ((s.accept t).mirrorRead t r, true)
  | .mismatch x => if s.retryEn then s.readAgain t (readAs r again) x k.2 else (s.refuseRead t r k.1 k.2.isSome, false)
  | _ => (s.refuseRead t r k.1 k.2.isSome, false)

/-! ### Partial writes (R129) -/

/-- The new residue of a block from the old one and the changed elements. -/
def partialResidue (fmt old : Nat) (es : List Nat) (new : List (Nat × Nat)) : Nat :=
  (new.foldl (fun (a : Int × List Nat) e =>
    (a.1 + (weight e.1 : Int) * (image fmt e.2 - image fmt (a.2.getD e.1 0)), a.2.set e.1 e.2))
    ((old : Int), es)).1 % (sealPrime : Int) |>.toNat

/-- The class that a writer makes (Table 4.2). -/
def writerClass (w : PartWriter) : Nat := match w with | .vector => 3 | .dma => 1

/-- A unit of tile `t` writes a block: in its memory, or as the staged operand that a maquette host or referee works on
(R183, R198). -/
def State.writeBlock (s : State) (t : Nat) (a : BlockAddr) (bs : List Byte) (w : Word) : State :=
  match s.stagedAt t a with
  | some q =>
    (s.count t 3 blockBytes).modMaq t fun m =>
      { m with staged := m.staged.map fun o => if o.src == q.src && o.dst == q.dst then { o with bytes := bs, sealw := w } else o }
  | none => s.portBlock a bs w

/-- Write the changed elements of a block together with its new seal word. -/
def State.writeElems (s : State) (t : Nat) (p : PartialWrite) : State :=
  let a := p.read.addr
  let f := p.read.fmt.toNat
  let es := unpackBlock f (s.readBytes t a)
  let new := (p.elems.filter fun e => e.1 < fmtElems f).map fun e => (e.1, e.2 % 2 ^ fmtBits f)
  let res := partialResidue f (sealResidue (s.readSeal t a)) es new
  s.writeBlock t a (packBlock f (new.foldl (fun a e => a.set e.1 e.2) es))
    (sealWord s.time.time t p.read.gen (writerClass p.writer) true res)

/-- The whole block is verified, then its elements and its new seal word are written (R129). -/
def State.changeBlock (s : State) (t : Nat) (p : PartialWrite) : State :=
  let r := s.readVerified t p.read p.again
  if r.2 then r.1.writeElems t p else r.1

/-- PARTIAL_BLOCK_WRITE: a block of a slice is judged as any write of it (R290). -/
def State.partialWrite (s : State) (t : Nat) (p : PartialWrite) : State :=
  s.atBlock t p.read.addr true (.change t p) fun s => s.changeBlock t p

end Sys2Proof.Machine
end

