-- ==== Sys2Proof/Machine/Post.lean ====
section
/-! DEFINITION. The event ring, the host ring, MSI-X messages, order status entries and the freeze that
follows the first FATAL record (chapters 13, 15 and 16). -/

namespace Sys2Proof.Machine

/-- The layer that the detail of a layer event names (Table 9.6). -/
def detailLayer (r : EvRec) : Nat := if r.code == 0x0081 then fld r.detail 59 56 else fld r.detail 63 60

/-- The page that owns a record's code (R450). -/
def EvRec.page (r : EvRec) : Nat := eventPage r.code.toNat r.source.toNat (detailLayer r)

/-- Bit of PAGE_EVT_PEND that a record sets (R450). -/
def EvRec.pendBit (r : EvRec) : Nat := r.code.toNat % 16

/-- PAGE_EVT_PEND of a page. -/
def State.pend (s : State) (page : Nat) : BitVec 16 := tget 0 s.ev.pend page

/-- The page's events may send messages for this bit (R451). -/
def State.mayMessage (s : State) (page bit_ : Nat) : Bool :=
  bit (s.reg (page * 0x1000 + 0x010)) 0 && !bit (s.reg (page * 0x1000 + 0x020)) bit_

/-- The vector for which a record calls now (R451, R452). -/
def State.callsFor (s : State) (r : EvRec) : Option Nat :=
  match r.sev with
  | .fatal => some 0
  | sev => if s.mayMessage r.page r.pendBit then eventVector r.code.toNat sev else none

/-- A new record finds no place (R458). -/
def State.dropsRecord (s : State) (r : EvRec) : Bool :=
  8192 ≤ s.ev.held || (r.sev.minor && 7680 ≤ s.ev.held)

/-- Write one record: it takes the next SEQ and sets its PEND bit, or it is dropped and counted (R456,
R458). -/
def State.writeRecord (s : State) (r : EvRec) : State :=
  if s.dropsRecord r then
    let first := s.ev.lostNow == 0
    let s := { s with
      ev.lostNow := s.ev.lostNow + 1, ev.lostSerious := s.ev.lostSerious || !r.sev.minor
      ev.lostSeq := if first then s.ev.lastSeq else s.ev.lostSeq }
    let s := s.bump Reg.evtLost
    if r.sev.minor then s else s.bump Reg.evtLostSerious
  else
    let seq := s.ev.lastSeq + 1
    { s with
      ev.store := tset none s.ev.store (seq.toNat % 8192) (some (r, seq))
      ev.lastSeq := seq, ev.held := s.ev.held + 1
      ev.pend := tset 0 s.ev.pend r.page (setBit (s.pend r.page) r.pendBit true)
      ev.firstFatal := if r.sev = .fatal && s.ev.firstFatal.isNone then some (r, seq) else s.ev.firstFatal }

/-- The EVT_LOST record for the records dropped since the last one, once places are free again (R458). -/
def State.lostRecord (s : State) : List EvRec :=
  let r := mkRec s.time.time 0x0001 srcPlinth 0 (if s.ev.lostSerious then .fault else .note)
    (pack [(32, 32, s.ev.lostNow), (0, 28, s.ev.lostSeq.toNat)])
  if 0 < s.ev.lostNow && !s.dropsRecord r then [r] else []

/-- The drops reported by EVT_LOST are counted anew. -/
def State.clearLost (s : State) : State :=
  if s.lostRecord = [] then s else { s with ev.lostNow := 0, ev.lostSerious := false }

/-- The `k`-th record copied in the ring's life stands in the store at its SEQ, which counts from the
first record: the records held are the last `held` ones written (R456, R457). -/
def State.oldestHeld (s : State) : Nat := (s.ev.lastSeq.toNat + 1 + 2 ^ 28 - s.ev.held) % 2 ^ 28

/-- Copy held records, oldest first, while the host ring has room (R457). -/
def State.hostCopy (s : State) : Nat → State
  | 0 => s
  | n + 1 =>
    let size := (s.reg Reg.evtHostSize).toNat
    let wr := s.ev.hostWr.toNat
    if bit (s.reg Reg.evtEvtCtl) 0 && 0 < s.ev.held && unread s.ev.hostWr (s.reg Reg.evtHostRd) < size then
      match tget none s.ev.store (s.oldestHeld % 8192) with
      | none => s
      | some (r, seq) =>
        let s := s.hostWrite ((s.reg Reg.evtHostBase).toNat + wr % size * 32) (recordBytes r seq)
        { s with ev.held := s.ev.held - 1, ev.hostWr := s.ev.hostWr + 1 }.hostCopy n
    else s

/-- Copy all that may be copied. -/
def State.hostCopyAll (s : State) : State := s.hostCopy s.ev.held

/-- Send or hold a message on a vector: a masked entry keeps its pending bit (R39). -/
def State.sendVector (s : State) (v : Nat) : State :=
  if s.ev.msixMask.getLsbD v then { s with ev.msixPend := setBit s.ev.msixPend v true }
  else { s with ev.msixSent := s.ev.msixSent ++ [v] }

/-- At most one message per vector (R452). -/
def State.sendVectors (s : State) (vs : List Nat) : State :=
  (List.range 10).foldl (fun s v => if vs.contains v then s.sendVector v else s) { s with ev.msixSent := [] }

/-- MSIX_ENTRY_UNMASK: a pending message goes out (R39). -/
def State.unmask (s : State) (v : Nat) : State :=
  if v < 10 then
    let s := { s with ev.msixMask := setBit s.ev.msixMask v false }
    if s.ev.msixPend.getLsbD v then
      { s with ev.msixPend := setBit s.ev.msixPend v false, ev.msixSent := [v] }
    else s
  else s

/-! ### The counts of R479 -/

/-- Close the hub's counts at a beat tick (R479). -/
def State.closeCounts (s : State) : State :=
  { s with
    ev.deniedOld := s.ev.denied, ev.denied := {}, ev.misuseOld := s.ev.misuse, ev.misuse := {}
    ev.crcOld := s.ev.crc, ev.crc := {} }

/-- The record of a closed count, with the count placed in its detail at `lo`. -/
def BeatCount.record (b : BeatCount) (lo width : Nat) : Option EvRec :=
  b.first.map fun r => { r with detail := setFld r.detail (lo + width - 1) lo b.count }

/-- The hub's closed counts as records: ACCESS_DENIED, WINDOW_MISUSE and its own ARM_CRC (R479). -/
def State.closedRecords (s : State) : List EvRec :=
  (s.ev.deniedOld.record 0 32).toList ++ (s.ev.misuseOld.record 0 16).toList ++
  (s.ev.crcOld.record 32 32).toList

/-! ### Order status entries (R463, R464) -/

/-- Bytes 8 to 15 of a status entry (Table 15.12). -/
def entryWord (st : Status) (slot beat : Nat) (detail : BitVec 32) : Word :=
  pack [(56, 8, st.code), (55, 1, b2n (st ≠ .accepted)), (48, 6, slot), (32, 16, beat), (0, 32, detail.toNat)]

/-- DETAIL at posting: STEP shows the commands still to run (Table 15.14). -/
def State.orderDetailNow (s : State) (o : OrderRec) : BitVec 32 :=
  if o.done = some .badOperand then 0
  else if ordOpcode o.word == opSTEP then
    BitVec.ofNat 32 (s.tile (s.phys (fld o.word 9 0))).core.stepLeft
  else o.detail

/-- Write an entry to the master's ring (R464). -/
def State.postEntry (s : State) (o : OrderRec) (st : Status) : State :=
  let e : Word × Word := (o.word, entryWord st o.ref.slot s.beat (s.orderDetailNow o))
  match o.ref.master with
  | .hostk => { s with ord.hostRing := tset (0, 0) s.ord.hostRing (s.ord.hostWr.toNat % 64) e, ord.hostWr := s.ord.hostWr + 1 }
  | .mgmt => { s with ord.mgmtRing := tset (0, 0) s.ord.mgmtRing (s.ord.mgmtWr.toNat % 64) e, ord.mgmtWr := s.ord.mgmtWr + 1 }

/-- Post one order: its final entry, or ACCEPTED if it is still running and has not posted it; so every order taken
has an entry in its beat of intake, also one that got no turn (R67, R463). Answers the state and whether an entry
was written. -/
def State.postOrder (s : State) (o : OrderRec) : State × Bool :=
  match o.done with
  | some st =>
    let s := s.postEntry o st
    ({ s with ord.orders := s.ord.orders.filter fun p => p.id != o.id }, true)
  | none =>
    if !o.accepted then
      ((s.postEntry o .accepted).modOrder o.id fun p => { p with accepted := true, reserved := p.reserved - 1 }, true)
    else (s, false)

/-- Post the orders, oldest first. -/
def State.postOrders (s : State) : State × Bool :=
  s.ord.orders.foldl (fun a o => let r := a.1.postOrder o; (r.1, a.2 || r.2)) (s, false)

/-! ### The posting -/

/-- Write the records of a beat and gather the vectors they call for. A record that is dropped calls for
none (R452, R458). -/
def State.writeRecords (s : State) (rs : List EvRec) : State × List Nat :=
  rs.foldl (fun a r =>
    let v := if a.1.dropsRecord r then none else a.1.callsFor r
    (a.1.writeRecord r, a.2 ++ v.toList)) (s, [])

/-- CMD_END of a command that the freeze stops, with END 3 (Table 13.4): the last record of its tile's trace. -/
def State.freezeEnd (s : State) (t : Nat) : State :=
  match (s.tile t).core.curIds with
  | some i => s.traceEmit t 2 i (pack [(60, 4, 3), (0, 40, s.sinceBegin t)])
  | none => s

/-- Chimin freezes: every node is told on VC0 and CHM_FATAL_N falls (R416, R47). Commands under way stop. -/
def State.freezeNow (s : State) : State :=
  let s := s.tiles.foldl (fun s e => if e.2.core.running then s.freezeEnd e.1 else s) s
  let s := s.hubSend { op := 0x03, vc := 0, operand := 0, dests := allNodes }
  { s with life.frozen := true, life.freezeTime := s.time.time, life.freezePending := false, fatalN := false }.mgmtAsk 2

/-- The record of a FREEZE order dispatched in this beat (R416). -/
def State.freezeRecord (s : State) : List EvRec :=
  if s.life.freezePending then
    [mkRec s.time.time 0x00C0 srcPlinth 0 .fatal (word s.life.freezeReason.toNat)]
  else []

/-- The shutdown decided in this beat is logged: STATE becomes SHUTDOWN and THERM_TRIP_N falls (Table
10.3, Table 15.8). -/
def State.shutdownPost (s : State) : State :=
  if s.life.shutdownEvent.isSome then
    { s with life.shutdownEvent := none, life.shutdown := true, tripN := false }
  else s

/-- The records that wait at the nodes come to the hub, each in its EVENT packet, the next behind the acknowledgement
of the one before; behind a packet that was discarded, or whose ACK is missing, a node's records wait (R98 to R100; log
entry 4). -/
def State.eventsIn (s : State) : State :=
  s.ev.flight.foldl (fun s e =>
    if s.onItsWay e.1 2 then ({ s with ev.queue := s.ev.queue ++ [e.2] } : State).exchanged e.1 2 else s) s

/-- STATUS_POSTING: the beat's status entries and records are written, copied and announced, and the
first FATAL record freezes Chimin (R456, R464, R452, R416). Once Chimin is frozen only THERM_SHUTDOWN
enters the ring (Table 13.6). -/
def State.posting (s : State) : State :=
  if s.life.frozen then
    let r := s.writeRecords s.life.shutdownEvent.toList
    (r.1.hostCopyAll.sendVectors r.2).shutdownPost
  else
    let p := s.postOrders
    let s := p.1.eventsIn
    let rs := s.lostRecord ++ s.closedRecords ++ s.ev.queue ++ s.freezeRecord ++ s.life.shutdownEvent.toList
    let s := { s.clearLost with ev.queue := [], ev.deniedOld := {}, ev.misuseOld := {}, ev.crcOld := {} }
    let w := s.writeRecords rs
    let vs := w.2 ++ (if p.2 && bit (w.1.reg Reg.orderOrderCtl) 0 then [6] else [])
    let s := (w.1.hostCopyAll.sendVectors vs).shutdownPost
    if rs.any fun r => r.sev = .fatal then s.freezeNow else s

end Sys2Proof.Machine
end

