-- ==== Sys2Proof/Machine/Arm.lean ====
section
/-! DEFINITION. Armature packets, acknowledgements and re-sends, and the sentinel class between chips
(chapter 3). What a packet does at its destination is in NodeOps.lean. -/

namespace Sys2Proof.Machine

/-- The router at which a unicast packet enters: its source node's, or the hub port of its destination's
quadrant (R80). -/
def packetEntry (p : ArmPacket) : Nat :=
  let h := p.flits.headD 0
  if flitFld h 117 107 < numTiles then flitFld h 117 107 else hubPortTile (flitFld h 106 96)

/-- Where the path of a unicast packet ends. -/
def packetLanding (p : ArmPacket) : Landing :=
  let h := p.flits.headD 0
  walkPath 23 (flitFld h 77 32) (packetEntry p) (flitFld h 79 78)

/-- The endpoint that a router hands an ejected packet to (R81). -/
def ejectEnd (t dst : Nat) : Nat := if dst == hubEndpoint && hubPortTile t == t then hubEndpoint else t

/-- The packet is one of a multicast (R85). -/
def packetMulti (p : ArmPacket) : Bool := flitFld (p.flits.headD 0) 123 123 == 1

/-- The packet reaches the endpoint `at_`: by its masks (R90), or by its path (R88). -/
def packetArrives (p : ArmPacket) : Bool :=
  let h := p.flits.headD 0
  if packetMulti p then
    decide (p.net = .order) && decide (p.at_ < numTiles) && (flitFld h 117 82).testBit (rowOf p.at_) &&
      (flitFld h 81 50).testBit (colOf p.at_)
  else match packetLanding p with | .eject t => ejectEnd t (flitFld h 106 96) == p.at_ | .discard _ => false

/-- The tile whose router discards the packet for its path (R89). -/
def packetLostAt (p : ArmPacket) : Option Nat :=
  if packetMulti p then none else match packetLanding p with | .eject _ => none | .discard t => some t

/-- The packet's CRC passes (R84). -/
def crcPasses (flits : List Flit) : Bool :=
  match flits with
  | [] => false
  | h :: _ => packetCrc flits == BitVec.ofNat 32 (flitFld h 31 0)

/-- Raise an event of an armature endpoint: a node, or the plinth (R116). -/
def State.raiseEndpoint (s : State) (at_ code : Nat) (sev : Severity) (detail : Word) : State :=
  if at_ < numTiles then s.raiseTileNode at_ code sev none detail else s.raiseHub code sev detail

/-- A packet is discarded for its CRC: counted, and reported by the endpoint once per beat (R99, R479). -/
def State.crcDiscard (s : State) (at_ src : Nat) (xid : BitVec 16) : State :=
  let s := s.bump Reg.armCrcDiscards
  let d := pack [(16, 11, src), (0, 16, xid.toNat)]
  if at_ < numTiles then
    s.modCore at_ fun c => { c with crc := c.crc.add (mkRec s.time.time 0x0020 at_ uNODE .note d) }
  else { s with ev.crc := s.ev.crc.add (mkRec s.time.time 0x0020 srcPlinth 0 .note d) }

/-- A packet is discarded for its route or kind (R86, R89, R110, R111). -/
def State.routeDiscard (s : State) (at_ link kind src : Nat) : State :=
  s.raiseEndpoint at_ 0x0022 .fault (pack [(58, 6, link), (54, 4, kind), (0, 13, src)])

/-- ARM_LATE: a destination accepts a packet only through a re-send (R97). -/
def State.armLate (s : State) (delay op vc net dst : Nat) : State :=
  s.raiseHub 0x0025 .fault
    (pack [(32, 32, min delay (2 ^ 32 - 1)), (24, 8, op), (22, 2, vc), (21, 1, net), (0, 11, dst)])

/-- The packet leaves the inbox and is acknowledged (R100). -/
def State.leaveInbox (s : State) (k : StreamId) : State :=
  match s.arm.inbox.find? fun e => e.1 = k with
  | some e => { s with arm.inbox := s.arm.inbox.filter fun e => e.1 ≠ k }.sendAck k e.2 false
  | none => s

/-! ### Acknowledgements and re-sends of the hub's packets -/

/-- The hub's outstanding packet on a stream. -/
def State.outstanding (s : State) (node vc : Nat) : Option Outgoing :=
  s.arm.sent.find? fun o => o.vc == vc && o.left.getLsbD node

/-- Change the outstanding packets. -/
def State.mapSent (s : State) (f : Outgoing → Outgoing) : State :=
  { s with arm.sent := s.arm.sent.map f }

/-- Start of a node's timer for a packet (R101). -/
def Outgoing.timer (o : Outgoing) (node : Nat) : Word := (tget none o.timers node).getD o.sentAt

/-- RESEND_TIMEOUT and RESEND_LIMIT (Table 3.13), SENT_TIMEOUT (Table 3.14). -/
def State.resendTimeout (s : State) : Nat := fld (s.reg Reg.armArmCtl) 15 0
def State.resendLimit (s : State) : Nat := fld (s.reg Reg.armArmCtl) 35 32
def State.sentTimeout (s : State) : Nat := fld (s.reg Reg.armSentCtl) 31 0

/-- One node acknowledges a packet of the hub: answers the packet if it was the last acknowledgement. -/
def State.takeAck (s : State) (node vc : Nat) (xid : BitVec 16) : State × Option Outgoing :=
  match s.outstanding node vc with
  | some o =>
    if o.xid == xid then
      let o' := { o with left := setBit o.left node false, held := setBit o.held node false }
      if o'.left == 0 then
        ({ s with arm.sent := s.arm.sent.filter fun p => !(p.vc == vc && p.xid == xid && p.left.getLsbD node) }, some o')
      else
        (s.mapSent fun p => if p.vc == vc && p.xid == xid && p.left.getLsbD node then o' else p, none)
    else (s, none)
  | none => (s, none)

/-- A packet of the hub that has been re-sent to a node was not accepted there before: had it been, a copy that came
in time would have been acknowledged, so a node that accepts it now has it through a re-send alone (R97). -/
def State.lateCopy (s : State) (node vc : Nat) (xid : BitVec 16) : Option Nat :=
  (s.arm.sent.find? fun o => o.vc == vc && o.xid == xid && o.dests.getLsbD node && tget 0 o.resends node != 0).map fun o =>
    s.time.time.toNat - o.sentAt.toNat

/-- Node `node` accepts the hub's packet: the stream's last XID is its XID, and a copy that came by a re-send alone
raises ARM_LATE and marks the packet late (R14, R97, R99). -/
def State.acceptCopy (s : State) (node vc : Nat) (op : Nat) (xid : BitVec 16) : State :=
  let s := s.setLastXid (.order node vc) xid
  match s.lateCopy node vc xid with
  | some d =>
    (s.mapSent fun p => if p.vc == vc && p.xid == xid && p.dests.getLsbD node then { p with late := true } else p).armLate
      d op vc 0 node
  | none => s

/-- ACK_HELD restarts the node's timer with the longer limit and its count at 0 (R101). The limit stays the longer one
after the re-sends that may follow (assumption 47). -/
def State.takeAckHeld (s : State) (node vc : Nat) (xid : BitVec 16) : State :=
  s.mapSent fun p =>
    if p.vc == vc && p.xid == xid && p.left.getLsbD node then
      { p with held := setBit p.held node true, resends := terase p.resends node
               timers := tset none p.timers node (some s.time.time) }
    else p

/-- The timer of a packet toward a node has expired. -/
def State.timerExpired (s : State) (o : Outgoing) (node : Nat) : Bool :=
  let limit := s.resendTimeout * (if o.held.getLsbD node then 8 else 1)
  decide ((o.timer node).toNat + limit ≤ s.time.time.toNat)

/-- An on-die node is unreachable: FATAL, and ONDIE_OK clears (R102). -/
def State.unreachNode (s : State) (node : Nat) : State :=
  let s := s.raiseHub 0x0021 .fatal (word node)
  { s with arm.ondieOk := false }

/-- One re-send to a node: it is counted for the node, whose timer starts again (R101). -/
def Outgoing.again (o : Outgoing) (now : Word) (node : Nat) : Outgoing :=
  { o with resends := tset 0 o.resends node (tget 0 o.resends node + 1), timers := tset none o.timers node (some now) }

/-- The nodes that a re-send reaches: the one whose timer ran out, or, of a multicast with more than 16 nodes missing,
every missing node whose timer has run out, since that packet is re-sent whole (R101). -/
def State.resendTo (s : State) (o : Outgoing) (node : Nat) : List Nat :=
  if (nodesOf o.left).length ≤ 16 then [node]
  else (nodesOf o.left).filter fun t => s.timerExpired o t && tget 0 o.resends t < s.resendLimit

/-- RESEND_TIMEOUT on a stream of the hub: the packet is re-sent with the same XID, as a unicast or whole, or the
node is unreachable after RESEND_LIMIT re-sends (R101, R102). -/
def State.resendNode (s : State) (node vc : Nat) : State :=
  match s.outstanding node vc with
  | some o =>
    if !s.timerExpired o node || o.gone.getLsbD node then s
    else if s.resendLimit ≤ tget 0 o.resends node then
      (s.mapSent fun p => if p.vc == vc && p.xid == o.xid && p.left.getLsbD node then { p with gone := setBit p.gone node true }
        else p).unreachNode node
    else
      let ts := s.resendTo o node
      let s := s.mapSent fun p =>
        if p.vc == vc && p.xid == o.xid && p.left.getLsbD node then ts.foldl (fun p t => p.again s.time.time t) p else p
      { s.bump Reg.armResends with
        arm.hubOut := if (nodesOf o.left).length ≤ 16 then [o.uniCopy node] else o.copies }
  | none => s

/-! ### Streams of the nodes to the hub (R98, R101) -/

/-- The hub acknowledges a packet of node `t`: with ACK_HELD its timer restarts with the longer limit (R101). -/
def State.streamAck (s : State) (t vc : Nat) (xid : BitVec 16) (held : Bool) : State :=
  match s.streamOf t vc with
  | some x =>
    if x.xid != xid then s
    else if held then s.setStream t vc { x with held := true, resends := 0, start := s.time.time }
    else s.streamDone t vc
  | none => s

/-- RESEND_TIMEOUT on a stream of a node (R101). A node whose hub port stays silent is unreachable for the hub too
(assumption 47). -/
def State.resendStream (s : State) (t vc : Nat) : State :=
  match s.streamOf t vc with
  | some x =>
    if x.start.toNat + s.resendTimeout * (if x.held then 8 else 1) ≤ s.time.time.toNat && !x.gone then
      if s.resendLimit ≤ x.resends then (s.setStream t vc { x with gone := true }).unreachNode t
      else
        let s := s.setStream t vc { x with resends := x.resends + 1, start := s.time.time, lost := false }
        { s.bump Reg.armResends with arm.nodeOut := some (t, s.streamPacket t vc) }
    else s
  | none => s

/-- Plinth cycles since the first injection of a packet that the hub gets through a re-send alone (R97). -/
def State.lateReport (s : State) (t vc : Nat) (xid : BitVec 16) : Option Nat :=
  match s.streamOf t vc with
  | some x => if x.xid == xid && x.resends != 0 then some (s.time.time.toNat - x.first.toNat) else none
  | none => none

/-! ### Routes between chips (R110 to R113) -/

/-- A packet of the hub to that chip is outstanding. -/
def State.peerBusy (s : State) (chip : BitVec 13) : Bool :=
  s.chipBusy chip

/-- ARM_ALT (Table 3.10). -/
def State.raiseAlt (s : State) (k : Nat) (alt : Bool) : State :=
  s.raiseHub 0x0024 .note (pack [(16, 13, fld (s.route0 k) 60 48), (6, 1, b2n alt), (0, 6, k)])

/-- The packet carries mirror data: a HUBMSG of 8 flits (R346). -/
def PeerOut.mirrors (p : PeerOut) : Bool := p.kind == 5 && p.body.length == 7

/-- The packets to a peer hub of one chip. -/
def PeerOut.toChip (p : PeerOut) (chip : BitVec 13) : Bool := match p.stream with | .sentinel c _ => c == chip | _ => false

/-- TILE of a MirrorMsg that holds no mould, and of one that answers a chip which reads its mirror back. -/
def mirrorOther : Nat := 0x7FF
def mirrorReadBack : Nat := 0x7FE

/-- Mirror data of the cast in progress is given up, with the packet that carries it. -/
def State.mirrorClear (s : State) : State :=
  { s with cast.mirrorOut := s.cast.mirrorOut.filter fun m => m.tile == mirrorReadBack
           arm.peers := s.arm.peers.filter fun p => !(p.mirrors && p.toChip s.cast.partnerChip) }

/-- MIRROR_STATE (Table 11.6). -/
def State.raiseMirror (s : State) (state reason : Nat) (chip : BitVec 13) : State :=
  s.raiseHub 0x00A5 .note (pack [(61, 3, state), (57, 4, reason), (0, 13, chip.toNat)])

/-- MIRROR_STATE: the mirror part of the cast in its drain is dropped (R347). -/
def State.mirrorDrop (s : State) (why : MirrorReason) : State :=
  match s.cast.run with
  | none => s
  | some r =>
    if r.phase == 4 && r.mirror then
      let reason := match why with | .unreachable => 2 | .partnerStore => 3 | .mirrorFull => 4
      let s := (({ s with cast.run := some { r with mirror := false } } : State).mirrorClear).raiseMirror 3 reason s.cast.partnerChip
      { s with cast.partner := 3, cast.mirrorChain := true }
    else s

/-- A peer chip is given up: ARM_UNREACH (FAULT) with the chip number, once; nothing to it stays outstanding, and the
drain of a cast goes on without its mirror there (R113, R347). -/
def State.unreachPeer (s : State) (chip : BitVec 13) : State :=
  let s := if s.arm.unreachable.contains chip then s
    else s.raiseHub 0x0021 .fault (pack [(63, 1, 1), (0, 13, chip.toNat)])
  let s := if s.cast.partnerChip == chip then s.mirrorDrop .unreachable else s
  { s with arm.unreachable := chip :: s.arm.unreachable.filter (· ≠ chip)
           cast.mirrorOut := s.cast.mirrorOut.filter fun m => m.chip ≠ chip
           arm.peers := s.arm.peers.filter fun (p : PeerOut) => !p.toChip chip
           arm.peerWait := s.arm.peerWait.filter fun w => match w.1 with | .sentinel c _ => c ≠ chip | _ => true }

/-- Entry `k` fails on the route it uses: it switches to its alternate, or its chip is unreachable when
the alternate fails too (R113). -/
def State.routeFail (s : State) (k : Nat) : State :=
  let w := s.route0 k
  if !bit w 63 then s
  else if s.onAlt k then s.unreachPeer (BitVec.ofNat 13 (fld w 60 48))
  else
    let s := ({ s with arm.onAlt := setBit s.arm.onAlt k true
                       arm.primLost := setBit s.arm.primLost k (!s.trained (routeLink w)) }).raiseAlt k true
    if s.trained (routeLink (s.route1 k)) then s else s.unreachPeer (BitVec.ofNat 13 (fld w 60 48))

/-- The entries whose first primary link is `n` switch to their alternates; one on its alternate notes that its
primary is lost, and fails when the alternate starts with `n` (R113, R434). -/
def State.routesLose (s : State) (n : Nat) : State :=
  (List.range 64).foldl (fun s k =>
    let w := s.route0 k
    let s := if s.onAlt k && routeLink w == n then { s with arm.primLost := setBit s.arm.primLost k true } else s
    if bit w 63 && ((!s.onAlt k && routeLink w == n) || (s.onAlt k && routeLink (s.route1 k) == n)) then s.routeFail k
    else s) s

/-- A route entry that comes into force starts on its primary route; from Ready on it switches at once where that
route's first link is not trained (R113, R119; log entry 44). -/
def State.routesTick (s old : State) : State :=
  (List.range 64).foldl (fun s k =>
    let w := s.route0 k
    if w == old.route0 k && s.route1 k == old.route1 k then s
    else
      let s := { s with arm.onAlt := setBit s.arm.onAlt k false, arm.primLost := setBit s.arm.primLost k false
                        arm.unreachable := s.arm.unreachable.filter (· ≠ BitVec.ofNat 13 (fld w 60 48)) }
      if s.life.stage == 5 && bit w 63 && !s.trained (routeLink w) then s.routeFail k else s) s

/-- ROUTE_PRIMARY_BACK: the primary's first link trains again and nothing is outstanding (R113). -/
def State.routeBack (s : State) (k : Nat) : State :=
  let w := s.route0 k
  let chip := BitVec.ofNat 13 (fld w 60 48)
  if k < 64 && bit w 63 && s.onAlt k && s.arm.primLost.getLsbD k && s.trained (routeLink w) && !s.peerBusy chip then
    ({ s with arm.onAlt := setBit s.arm.onAlt k false, arm.primLost := setBit s.arm.primLost k false
              arm.unreachable := s.arm.unreachable.filter (· ≠ chip) }).raiseAlt k false
  else s

/-! ### Forwarding in the sentinel class (R109 to R111) -/

/-- The stream to a peer hub is free. -/
def State.peerFree (s : State) (k : StreamId) : Bool := !s.arm.peers.any fun p => p.stream = k

/-- Inject a message to a peer hub, with an XID that is not the last one of its stream (R98, R103). -/
def State.peerInject (s : State) (chip : BitVec 13) (net : Bool) (kind : Nat) (body : List Flit) : State :=
  let k : StreamId := .sentinel chip net
  let xid := freshXid ((s.arm.lastPeer.filter fun e => e.1 = k).map (·.2)) 1 s.arm.xid
  let s : State := { s with
    arm.xid := xid + 1, arm.lastPeer := (k, xid) :: s.arm.lastPeer.filter fun e => e.1 ≠ k
    arm.peers := s.arm.peers ++ [{ stream := k, xid, resends := 0, held := false, start := s.time.time, kind, body }] }
  s.peerPut chip kind net xid body

/-- The hub sends a HUBMSG or HUBREPLY to a chip; it waits while its stream has a packet outstanding (R98, R113). -/
def State.peerSend (s : State) (chip : BitVec 13) (net : Bool) (kind : Nat) (body : List Flit) : State :=
  if s.peerFree (.sentinel chip net) then s.peerInject chip net kind body
  else { s with arm.peerWait := s.arm.peerWait ++ [(.sentinel chip net, kind, body)] }

/-- Bytes of mirror data in a HUBMSG of 8 flits: the first body flit says which they are (assumption 58). -/
def mirrorChunk : Nat := 96

/-- The body of the HUBMSG with the next bytes of a message: bit [127] of its first flit marks the last of the message,
and bits [119:112] count the bytes. -/
def MirrorMsg.body (m : MirrorMsg) : List Flit :=
  BitVec.ofNat 128 (packNat [(127, 1, b2n (m.bytes.length ≤ mirrorChunk)), (112, 8, min mirrorChunk m.bytes.length)]) ::
    byteFlits ((m.bytes.take mirrorChunk) ++ List.replicate (mirrorChunk - m.bytes.length) 0)

/-- The oldest mirror data goes out, one packet at a time (R98, R346). -/
def State.mirrorPump (s : State) : State :=
  match s.cast.mirrorOut with
  | m :: _ =>
    if s.arm.peers.any PeerOut.mirrors || !s.peerFree (.sentinel m.chip false) then s
    else s.peerInject m.chip false 5 m.body
  | [] => s

/-- Mirror data for a chip is queued behind what waits (R341, R346). -/
def State.mirrorQueue (s : State) (chip : BitVec 13) (tile : Nat) (blocks : List (List Byte)) : State :=
  if blocks.isEmpty then s
  else ({ s with cast.mirrorOut := s.cast.mirrorOut ++ [{ chip, tile, bytes := blocks.flatten }] } : State).mirrorPump

/-- The packet of the oldest mirror data is acknowledged: its bytes are with the partner, and count (Table 11.7). -/
def State.mirrorStep (s : State) : State :=
  match s.cast.mirrorOut with
  | m :: rest =>
    let n := min mirrorChunk m.bytes.length
    let s := if m.tile == mirrorReadBack then s else s.bump Reg.castMirrorBytes n
    { s with cast.mirrorOut := if m.bytes.length ≤ mirrorChunk then rest else { m with bytes := m.bytes.drop mirrorChunk } :: rest }
  | [] => s

/-- A peer hub acknowledges: the packet is done, and the next message of its stream follows (R98, R113). -/
def State.peerAck (s : State) (chip : BitVec 13) (net : Bool) (xid : BitVec 16) : State :=
  let k : StreamId := .sentinel chip net
  let s := if s.arm.peers.any fun p => p.stream = k && p.xid == xid && p.mirrors then s.mirrorStep else s
  let s : State := { s with arm.peers := s.arm.peers.filter fun (p : PeerOut) => !(p.stream = k && p.xid == xid) }
  if s.peerFree k then
    match s.arm.peerWait.find? fun w => w.1 = k with
    | some w => ({ s with arm.peerWait := s.arm.peerWait.erase w } : State).peerInject chip net w.2.1 w.2.2
    | none => s.mirrorPump
  else s

/-- RESEND_TIMEOUT toward a peer chip (R113): a re-send, or after RESEND_LIMIT of them the route's
failure. -/
def State.resendPeer (s : State) (k : StreamId) : State :=
  match s.arm.peers.find? fun p => p.stream = k with
  | none => s
  | some p =>
    let limit := s.sentTimeout * (if p.held then 8 else 1)
    if p.start.toNat + limit ≤ s.time.time.toNat then
      match k with
      | .sentinel chip net =>
        if p.resends < s.resendLimit then
          (({ s with
              arm.peers := s.arm.peers.map fun (q : PeerOut) =>
                if q.stream = k then { q with resends := q.resends + 1, start := s.time.time } else q } : State).bump
            Reg.armResends).peerPut chip p.kind net p.xid p.body
        else
          let s := { s with arm.peers := s.arm.peers.map fun (q : PeerOut) =>
              if q.stream = k then { q with resends := 0, start := s.time.time } else q }
          match s.routeFor chip with
          | some e => s.routeFail e
          | none => s.unreachPeer chip
      | _ => s
    else s

/-- The header after a hop: new ROUTE and CLS, with the CRC field changed by what the change of the
covered bits makes of it, so that an error stays an error (assumption 12). -/
def reheader (h : Flit) (body : List Flit) (route cls : Nat) : List Flit :=
  let h1 := setFlitFld (setFlitFld h 76 33 route) 119 119 cls
  let d := packetCrc (h :: body) ^^^ packetCrc (h1 :: body)
  setFlitFld h1 31 0 (flitFld h 31 0 ^^^ d.toNat) :: body

/-- The next hop of a packet that stays or changes segment: the link, ROUTE and CLS; none where a rule
of R110 or R111 discards it. -/
def State.nextHop (s : State) (arrival : Nat) (h : Flit) : Option (Nat × Nat × Nat) :=
  let route := flitFld h 76 33
  let hops := route % 32
  let cfg := s.slink arrival
  let cls := flitFld h 119 119
  let datelined (n c : Nat) : Nat := if bit (s.slink n) 14 then 1 else c
  if 0 < hops then
    let n := fld cfg 5 0
    if bit (s.slink n) 15 && n < numLinks && fld (s.slink n) 13 11 == fld cfg 13 11 then
      some (n, route - 1, datelined n cls)
    else none
  else
    let r := route / 2 ^ 11
    let n := r / 32 % 64
    if r % 32 == 0 then none
    else if n < numLinks && fld cfg 13 11 < fld (s.slink n) 13 11 then some (n, r - 1, datelined n 0)
    else none

/-- A sentinel packet that this hub sends on goes out on its next link; while that link is not trained it goes no
further, and its source's re-send follows (R107; log entry 38). -/
def State.forwardOn (s : State) (n : Nat) (out : List Flit) : State :=
  if s.trained n then { s.sentTx n out.length with arm.lastForward := some (n, out) } else s

/-- A sentinel packet arrives on a link: answers the state and, when this hub is its destination, the
packet to be consumed (R110). -/
def State.sentinelArrive (s : State) (link : Nat) (flits : List Flit) : State × Option (List Flit) :=
  match flits with
  | [] => (s, none)
  | h :: body =>
    let s := s.sentRx link flits.length
    let kind := flitFld h 127 124
    let net : ArmNet := if flitFld h 120 120 == 1 then .sentReport else .sentOrder
    let src := flitFld h 118 106
    if !kindOk net kind flits.length || flitFld h 123 121 + 1 != flits.length then
      (s.routeDiscard hubEndpoint link kind src, none)
    else if kind == 3 || kind == 4 then (s, some flits)
    else if s.chipNum == some (BitVec.ofNat 13 (flitFld h 105 93)) then (s, some flits)
    else
      match s.nextHop link h with
      | none => (s.routeDiscard hubEndpoint link kind src, none)
      | some (n, route, cls) =>
        (s.forwardOn n (reheader h body route cls), none)

end Sys2Proof.Machine
end

