-- ==== Sys2Proof/Machine/Collect.lean ====
section
/-! DEFINITION. Collective channels: contributions that wait in tile SRAM, and the fixed order in which they are added
(R362 to R365). -/

namespace Sys2Proof.Machine

/-- Collective channels, and the first canonical one (R362). -/
def numChannels : Nat := 32
def firstCanonical : Nat := 28

/-! ### The order of addition (R363) -/

/-- One level of TREE: neighbours are added, the lower rank on the left, and a last odd value is carried up. -/
def addLevel (add : Nat → Nat → Nat) : List Nat → List Nat
  | a :: b :: rest => add a b :: addLevel add rest
  | rest => rest

/-- TREE: level upon level until one value is left; `n` levels are enough for `n` values. -/
def treeSum (add : Nat → Nat → Nat) : Nat → List Nat → Nat
  | 0, vs => vs.headD 0
  | n + 1, vs => if vs.length ≤ 1 then vs.headD 0 else treeSum add n (addLevel add vs)

/-- RANK: one at a time in ascending rank, from the contribution of rank 0. -/
def rankSum (add : Nat → Nat → Nat) : List Nat → Nat
  | [] => 0
  | v :: vs => vs.foldl add v

/-- The contributions to one element, in ascending rank, added in the order that REDUCE_ORDER fixes. -/
def reduceElem (tree : Bool) (add : Nat → Nat → Nat) (vs : List Nat) : Nat :=
  if tree then treeSum add vs.length vs else rankSum add vs

/-- DET_CTL.REDUCE_ORDER in force is TREE. -/
def State.reduceTree (s : State) : Bool := fld (s.inForce Reg.digestDetCtl) 1 0 == 1

/-! ### Contributions that wait (R362) -/

/-- The contributions of every rank to a result, in ascending rank; none while one is missing. -/
def ranksIn (ws : List Waiting) : Option (List Waiting) :=
  match ws with
  | [] => none
  | w :: _ =>
    let cs := (List.range w.ranks).filterMap fun r => ws.find? fun x => x.rank == r
    if cs.length == w.ranks then some cs else none

/-- The contributions that wait at tile `t` for a channel and a result block. -/
def Core.waitingFor (c : Core) (channel out : Nat) : List Waiting :=
  c.coll.filter fun w => w.channel == channel && w.out == out

/-- They wait no longer. -/
def State.dropWaiting (s : State) (t channel out : Nat) : State :=
  s.modCore t fun c => { c with coll := c.coll.filter fun w => !(w.channel == channel && w.out == out) }

/-- Elements of a waiting contribution, as they stand in SRAM. -/
def State.contribution (s : State) (t : Nat) (w : Waiting) : List Nat := unpackBlock w.fmt.toNat (s.sramBytes t w.at_)

/-- The result of a non-canonical channel is formed once every rank has contributed, whatever the order of arrival:
the vector unit adds in the order in force and writes the block with its seal. What the vector unit adds in a format
is not in the spec (assumption 51). -/
def State.reduce (s : State) (t channel out : Nat) : State :=
  match ranksIn ((s.tile t).core.waitingFor channel out) with
  | none => s
  | some cs =>
    let w := cs.headD { channel, rank := 0, ranks := 0, out, gen := 0, fmt := 0, at_ := 0 }
    let f := w.fmt.toNat
    let rows := cs.map (s.contribution t)
    let es := (List.range (fmtElems f)).map fun i =>
      reduceElem s.reduceTree (Config.reduceAdd f) (rows.map fun r => r.getD i 0) % 2 ^ fmtBits f
    (s.dropWaiting t channel out).portBlock (.sram t out) (packBlock f es)
      (sealWord s.time.time t w.gen 3 true (blockResidue f es))

/-- A contribution has been written to the SRAM of tile `t`, where it waits for its turn (R362). A canonical channel
carries only CANON128 blocks, and its sum is made by the checked addition of R152 (R364). -/
def State.collect (s : State) (t : Nat) (b : BlockMove) : State :=
  match b.coll, b.dst with
  | some c, .sram u i =>
    let canon := decide (firstCanonical ≤ c.channel)
    if u == t && i < sramBlocks && c.out < sramBlocks && c.channel < numChannels && c.rank < c.ranks && (canon → b.fmt == 0xA) then
      let w : Waiting := { channel := c.channel, rank := c.rank, ranks := c.ranks, out := c.out, gen := c.gen, fmt := b.fmt, at_ := i }
      let s := s.modCore t fun k => { k with coll := k.coll ++ [w] }
      if canon then s else s.reduce t c.channel c.out
    else s
  | _, _ => s

/-- The inputs of a canonical sum: those of a channel are the contributions of every rank, in ascending rank; none
while one is missing (R362, R364). -/
def State.canonInputs (s : State) (t : Nat) (c : CanonSum) : Option (List (List Int)) :=
  match c.channel with
  | none => some c.inputs
  | some ch => (ranksIn ((s.tile t).core.waitingFor ch c.outIndex)).map fun ws =>
      ws.map fun w => (s.contribution t w).map (image 0xA)

end Sys2Proof.Machine
end

