-- ==== Sys2Proof/Machine/Pass.lean ====
section
/-! DEFINITION. Passes of the array, their drain, verdicts and reruns, and canonical sums (chapter 4). -/

namespace Sys2Proof.Machine

/-- Blocks that commit staging holds (R158). -/
def stagingBlocks : Nat := 16

/-! ### The drain (R144 to R147) -/

/-- One block as it drained: rounder A's elements, the failures found and whether its verdict is PASS. -/
structure Drained where
  elems : List Nat
  fails : List Fail
  ok    : Bool
  deriving DecidableEq, Repr

/-- Sum of the changes that a list names for an index. -/
def deltaAt (ds : List (Nat × Int)) (i : Nat) : Int :=
  (ds.filter fun d => d.1 == i).foldl (fun a d => a + d.2) 0

/-- XOR of the bits that a list names for an index. -/
def flipsAt (ds : List (Nat × Nat)) (i : Nat) : Nat :=
  (ds.filter fun d => d.1 == i).foldl (fun a d => a ^^^ d.2) 0

/-- Accumulator `i` as it leaves the array. -/
def PassSt.accAt (p : PassSt) (f : DrainFaults) (i : Nat) : Int := p.acc.getD i 0 + deltaAt f.acc i

/-- What both rounders make of accumulator `i` (R142, R144). -/
def PassSt.rounded (p : PassSt) (f : DrainFaults) (i : Nat) : Nat :=
  let st := p.states.getD i 0
  if st != 0 then roundSpecial p.desc.outFmt.toNat st
  else roundTo p.desc.outFmt.toNat (p.accAt f i) (passScale p.desc)

/-- VERDICT_FAIL of block `b`, if its residue comparisons fail (R146, Table 4.9). -/
def verdictFail (b gen : Nat) (pred act : List Nat) (inj : Option Nat) : List Fail :=
  let mis := (List.range act.length).filter fun r => pred.getD r 0 != act.getD r 0
  let pb := rowsResidueFrom 0 pred
  let ab := rowsResidueFrom 0 act
  let ab := match inj with | some i => ab ^^^ 2 ^ i | none => ab
  if mis.isEmpty && pb == ab then []
  else [{ code := 0x30, inj := inj.isSome
          detail := pack [(63, 1, b2n inj.isSome), (61, 1, b2n (pb == ab)), (54, 7, mis.length),
            (48, 6, mis.headD 0), (44, 4, b), (36, 8, gen), (0, 31, pb ^^^ ab)] }]

/-- ROUND_MISMATCH of block `b`, if the rounders differ (R146, Table 4.9). -/
def roundFail (b : Nat) (ea eb : List Nat) (inj : Option Nat) : List Fail :=
  match (List.range ea.length).find? fun i => ea.getD i 0 != eb.getD i 0 with
  | none => []
  | some i =>
    let injected := inj.isSome && i == 0
    [{ code := 0x31, inj := injected
       detail := pack [(63, 1, b2n injected), (44, 4, b), (32, 12, i), (0, 32, ea.getD i 0 ^^^ eb.getD i 0)] }]

/-- Drain block `b` of a pass (R145 to R147): `inj1` inverts a bit of its actual residue, `inj2` one of
rounder B's output for element 0. A pass with special operands has no residue comparison (R142). -/
def PassSt.drain (p : PassSt) (b : Nat) (f : DrainFaults) (inj1 inj2 : Option Nat) : Drained :=
  let rows := passRows p.desc
  let first := b * rows
  let idx := (List.range (rows * 64)).map fun i => first * 64 + i
  let width := fmtBits p.desc.outFmt.toNat
  let ea := idx.map fun i => (p.rounded f i ^^^ flipsAt f.ra i) % 2 ^ width
  let eb0 := idx.map fun i => (p.rounded f i ^^^ flipsAt f.rb i) % 2 ^ width
  let eb := match inj2 with | some i => eb0.set 0 (eb0.headD 0 ^^^ 2 ^ (i % width)) | none => eb0
  let pred := (List.range rows).map fun r => p.pred.getD (first + r) 0
  let act := (List.range rows).map fun r =>
    rowResidue ((List.range 64).map fun n => p.accAt f (64 * (first + r) + n))
  let fails := (if p.special then [] else verdictFail b p.desc.gen.toNat pred act inj1) ++ roundFail b ea eb inj2
  { elems := ea, fails, ok := fails.isEmpty }

/-- CLASS of a pass's blocks (R142, R147). -/
def PassSt.cls (p : PassSt) : Nat := if p.special then 3 else if p.desc.outFmt == 0xA then 5 else 2

/-- The held block that a drained block becomes, with its seal word (R147). -/
def PassSt.held (p : PassSt) (t : Nat) (time : Word) (b : Nat) (d : Drained) : Held :=
  { index := b, elems := d.elems, fmt := p.desc.outFmt, passed := d.ok, pass := some p.id
    sealw := sealWord time t p.desc.gen p.cls d.ok (blockResidue p.desc.outFmt.toNat d.elems) }

/-- A block's copy in the producing tile's SRAM, with its seal word (R159). -/
def State.sramCopy (s : State) (t : Nat) (outIndex : Nat) (h : Held) : State :=
  let i := outIndex + h.index
  if i < sramBlocks then s.portBlock (.sram t i) (packBlock h.fmt.toNat h.elems) h.sealw else s

/-- A verdict of PASS is counted (Table 8.2 PASSES, Table 13.1). -/
def State.countPass (s : State) (t : Nat) (p : PassSt) : State :=
  if p.special then s
  else (s.modCore t fun c => { c with sum.passes := c.sum.passes + 1 }).count t 6 1

/-! ### Failing and ending a pass (R148, R149) -/

/-- The pass has failed for good: it leaves the array, its events go out, and a command that still runs halts;
blocks stay held (R148). A stream that a fence, a halt or a freeze stopped during the drain stays as it is (R151). -/
def State.passFailed (s : State) (t : Nat) (fs : List Fail) : State :=
  let s := (s.passDone t).raiseFails t fs false
  if (s.tile t).core.running && !(s.tile t).core.frozen then s.halt t true else s

/-- The stream of tile `t` works on: nothing has stopped it inside its command. -/
def Core.atWork (c : Core) : Bool := c.running && !c.frozen && !c.fenceStop

/-- A pass has ended its first run: with failures the rerun is awaited, or the command halts; of a stream that has
stopped, no rerun comes (R148, R151). -/
def State.passEnds (s : State) (t : Nat) (p : PassSt) : State :=
  if p.fails.isEmpty then s.passDone t
  else if bit p.ctl 1 && (s.tile t).core.atWork then s.modCore t fun c => { c with pass := some p }
  else s.passFailed t p.fails

/-! ### Starting a pass (R136 to R142, R481) -/

/-- A special operand abandons the pass: HALT, or a CANON output or load (R142). -/
def abandonsSpecial (p : PassDesc) (ctl : Word) : Bool :=
  fld ctl 3 2 == 1 || p.outFmt == 0xA || p.canon.isSome

/-- SEAL_SPECIAL for operand kind `k` (Table 4.9). -/
def specialDetail (p : PassDesc) (k : Nat) : Word :=
  pack [(4, 1, k), (0, 4, if k == 0 then p.wFmt.toNat else p.aFmt.toNat)]

/-- A pass with a special operand is abandoned, and the command halts (R142). -/
def State.specialHalt (s : State) (t : Nat) (p : PassDesc) (k : Nat) : State :=
  (s.sealEvent t uARRAY 0x37 .fault (specialDetail p k) false).halt t true

/-- SEAL_SPECIAL (INFO), for the first such pass of a beat at the tile (R142). -/
def State.specialInfo (s : State) (t : Nat) (p : PassDesc) (k : Nat) : State :=
  if (s.tile t).core.spBeat == s.beat + 1 then s
  else (s.sealEvent t uARRAY 0x37 .info (specialDetail p k) false).modCore t fun c => { c with spBeat := s.beat + 1 }

/-- A pass whose entry checks hold goes into the array, or a special operand abandons it (R142). -/
def State.passEnter (s : State) (t : Nat) (p : PassDesc) (entry : List EntryFault) (x : PassSt) : State :=
  let s := s.modCore t fun c => { c with latch := (latched p entry).weights.getLast?.getD c.latch }
  match firstSpecial (latched p entry) with
  | some k =>
    if abandonsSpecial p x.ctl then s.specialHalt t p k
    else (s.specialInfo t p k).passIn t x
  | none => s.passIn t x

/-- ENTRY_FAIL for an entry check whose two residues differ by `x` (Table 4.9). -/
def entryFail (p : PassDesc) (e : EntryFault) (x : Nat) (inj : Bool) : Fail :=
  let half := !e.isAct && (p.wFmt == 3)
  { code := 0x32, inj
    detail := pack [(63, 1, b2n inj), (61, 1, b2n e.isAct), (54, 1, if half then e.row % 2 else 0),
      (48, 6, if half then e.row / 2 else e.row), (32, 16, e.step), (0, 31, x)] }

/-- The entry check that an injection of KIND 4 hits: the first weight row of the pass (R156; log entry 48). -/
def injectedRow : EntryFault := { step := 0, row := 0, isAct := false, col := 0, flips := 0 }

/-- XOR of the two row residues of an entry check: `p` as verified, `q` as latched (R141). -/
def entryXor (p q : PassDesc) (inj : Option Nat) (e : EntryFault) : Nat :=
  let u := entryResidue q e
  let u := match inj with
    | some b => if entryOrder e == entryOrder injectedRow then u ^^^ 2 ^ b else u
    | none => u
  entryResidue p e ^^^ u

/-- The first entry check of a run that fails (R149). -/
def firstEntry (p : PassDesc) (entry : List EntryFault) (inj : Option Nat) : Option Fail :=
  let q := latched p entry
  let rows := (if inj.isSome then [injectedRow] else []) ++ entry
  (earliestEntry (rows.filter fun e => entryXor p q inj e != 0)).map fun e =>
    entryFail p e (entryXor p q inj e) (inj.isSome && entryOrder e == entryOrder injectedRow)

/-- The pass in the array with what the operands that its cells latched give. -/
def passOf (id : Nat) (p : PassDesc) (entry : List EntryFault) (ctl : Word) : PassSt :=
  let q := latched p entry
  { id, desc := p, acc := passAcc q, states := passStates q, pred := passPred q, special := (firstSpecial q).isSome
    next := 0, fails := [], entry := false, ctl, rel := [] }

/-- An injection of KIND 4 finds a weight entry check only in a pass with steps. -/
def State.entryInjected (s : State) (t : Nat) (p : PassDesc) : Option Nat :=
  if p.weights.isEmpty then none else s.injected t 4

/-- PASS_START: refused (R481), abandoned by an entry check (R149) or by a special operand (R142), or in
the array. Of a pass with both, the failing entry check comes first (log entry 48). -/
def State.passStart (s : State) (t : Nat) (p : PassDesc) (entry : List EntryFault) : State :=
  let reason := refuseReason p
  if reason != 0 then
    (s.sealEvent t uARRAY 0x39 .fault (pack [(60, 4, reason)]) false).halt t true
  else
    let ctl := s.inForce Reg.sealSealCtl
    let id := (s.tile t).core.passNo
    let x := passOf id p entry ctl
    let s := s.modCore t fun c => { c with passNo := id + 1 }
    let s := if x.special then s.bump Reg.sealSpecialPasses else s
    let inj := s.entryInjected t p
    let s := s.consume inj.isSome
    match firstEntry p entry inj with
    | some f => s.passEnds t { x with fails := [f], entry := true }
    | none => s.passEnter t p entry x

/-! ### Verdicts (R146, R147) -/

/-- Commit staging has room for a block: a maquette host, which sends nothing, gives up its oldest held block (R158,
R183; log entry 49). -/
def State.stagingRoom (s : State) (t : Nat) : Bool := (s.tile t).core.staging.length < stagingBlocks || s.servesMaq t

/-- A block enters commit staging. -/
def State.stagingPut (s : State) (t : Nat) (h : Held) : State :=
  s.modCore t fun c => { c with staging := (if c.staging.length < stagingBlocks then c.staging else c.staging.drop 1) ++ [h] }

/-- The pass's next block drains: its verdict is formed, its seal word built, its SRAM copy written and
the block held in commit staging. -/
def State.drainNext (s : State) (t : Nat) (f : DrainFaults) : State :=
  match (s.tile t).core.pass with
  | none => s
  | some p =>
    if p.entry || passBlocks p.desc ≤ p.next || !s.stagingRoom t then s
    else
      let i1 := if p.special then none else s.injected t 1
      let s := s.consume i1.isSome
      let i2 := s.injected t 2
      let s := s.consume i2.isSome
      let d := p.drain p.next f i1 i2
      let h := p.held t s.time.time p.next d
      let s := s.sramCopy t p.desc.outIndex h
      let s := if d.ok then s.countPass t p else s
      let p' : PassSt := { p with next := p.next + 1, fails := p.fails ++ d.fails }
      let s := (s.stagingPut t h).modCore t fun c => { c with pass := some p' }
      if p'.next == passBlocks p.desc then s.passEnds t p' else s

/-! ### The rerun (R148, R160) -/

/-- Drain every block of a rerun, with what goes wrong in each. -/
def PassSt.drainAll (p : PassSt) (fs : List DrainFaults) (i1 i2 : Option Nat) : List Drained :=
  (List.range (passBlocks p.desc)).map fun b =>
    p.drain b (fs.getD b { acc := [], ra := [], rb := [] }) (if b == 0 then i1 else none) (if b == 0 then i2 else none)

/-- A rerun's block that takes the place of a held block of the failed run. -/
def heldAgain (p : PassSt) (hs : List Held) (h : Held) : Held :=
  if h.pass == some p.id then (hs.find? fun r => r.index == h.index).getD h else h

/-- The staging after a recovered pass: blocks of the failed run that are still held give way to the
rerun's, those it never drained follow, and those already released are not released again (R160). -/
def replaceHeld (staging : List Held) (p : PassSt) (hs : List Held) : List Held :=
  staging.map (heldAgain p hs) ++ hs.filter fun h =>
    !p.rel.contains h.index && !staging.any fun k => k.pass == some p.id && k.index == h.index

/-- The operands of the pass are read and verified again (R148), one read after the other until one is refused. -/
def State.rereadAll (s : State) (t : Nat) : List ReadReq → List (Finding × Finding) → State × Bool
  | [], _ => (s, true)
  | r :: rs, fs =>
    let f := fs.headD ({}, {})
    let a := s.readVerified t (readAs r f.1) f.2
    if a.2 then a.1.rereadAll t rs fs.tail else a

/-- The rerun's blocks drain and take the failed run's place, or the command halts: `x` is the pass as run again,
`p` as it failed. -/
def State.rerunDrains (s : State) (t : Nat) (p x : PassSt) (fs : List DrainFaults) : State :=
  let i1 := if x.special then none else s.injected t 1
  let s := s.consume i1.isSome
  let i2 := s.injected t 2
  let s := s.consume i2.isSome
  let ds := x.drainAll fs i1 i2
  if ds.all (·.ok) then
    let hs := (ds.zip (List.range ds.length)).map fun d => x.held t s.time.time d.2 d.1
    let s := hs.foldl (fun s h => (s.sramCopy t p.desc.outIndex h).countPass t x) s
    let s := s.modCore t fun c => { c with staging := replaceHeld c.staging p hs }
    (s.raiseFails t p.fails true).passDone t
  else s.passFailed t p.fails

/-- The rerun of failed pass `p` once its operands are verified: through its entry checks into the array and out of it
(R148, R149). A special operand for which the first run raised SEAL_SPECIAL raises it no more (R142), and a pass is
counted in SPECIAL_PASSES once (R154). DESIGN CHOICE (assumption 48): a rerun that is abandoned for a special operand
which the first run did not meet raises SEAL_SPECIAL as R142 says, beside R148's 'no events of its own'. -/
def State.rerunRun (s : State) (t : Nat) (p : PassSt) (entry : List EntryFault) (fs : List DrainFaults) : State :=
  let x := passOf p.id p.desc entry p.ctl
  let inj := s.entryInjected t p.desc
  let s := s.consume inj.isSome
  let s := if x.special && !p.special then s.bump Reg.sealSpecialPasses else s
  if (firstEntry p.desc entry inj).isSome then s.passFailed t p.fails
  else
    match firstSpecial (latched p.desc entry), p.special && !p.entry with
    | some k, false =>
      if abandonsSpecial p.desc p.ctl then ((s.passDone t).raiseFails t p.fails false).specialHalt t p.desc k
      else (s.specialInfo t p.desc k).rerunDrains t p x fs
    | _, _ => s.rerunDrains t p x fs

/-- The rerun's blocks find room in commit staging (R158). -/
def Core.rerunFits (c : Core) (p : PassSt) : Bool :=
  (c.staging.filter fun h => h.pass != some p.id).length + (passBlocks p.desc - p.rel.length) ≤ stagingBlocks

/-- An operand of the pass stands behind a hold, a stopped clock or a busy bank (R295, R303). -/
def State.rereadWaits (s : State) (t : Nat) (r : ReadReq) : Bool :=
  let g := s.unitGate t r.addr false
  g == .held || g == .stopped || g == .busy

/-- The operands of the pass are read again, or the first that the stack refuses is refused (R148, R290). -/
def State.rereadOperands (s : State) (t : Nat) (rs : List ReadReq) (reads : List (Finding × Finding)) : State × Bool :=
  match rs.find? fun r => s.unitGate t r.addr false != .serve with
  | some r => (s.atBlock t r.addr false (.read t r) fun s => s, false)
  | none => s.rereadAll t rs reads

/-- PASS_RERUN: the failed pass is rerun once from its start (R148, R149, R160), when its blocks find room in
commit staging and none of its operands waits; it reads and verifies every operand again, as it stood before (log entry
48). -/
def State.passRerun (s : State) (t : Nat) (reads : List (Finding × Finding)) (entry : List EntryFault)
    (fs : List DrainFaults) : State :=
  match (s.tile t).core.pass with
  | none => s
  | some p =>
    if p.fails.isEmpty || !(p.entry || p.next == passBlocks p.desc) ||
        !((s.tile t).core.rerunFits p || s.servesMaq t) || p.desc.reads.any (s.rereadWaits t) then s
    else
      let r := s.rereadOperands t p.desc.reads reads
      if r.2 then r.1.rerunRun t p entry fs else r.1

/-! ### Canonical sums (R152) -/

/-- A vector-unit sum of CANON blocks drains: the actual residue is compared with the sum of the input
blocks' residues; a sum outside 128 bits leaves an open value in its element (R152, assumption 4). -/
def State.canonSum (s : State) (t : Nat) (c : CanonSum) (f : DrainFaults) : State :=
  let exact := (List.range 256).map fun i => c.inputs.foldl (fun a b => a + b.getD i 0) 0
  let ovf := exact.any fun v => !fits128 v
  let pred := c.inputs.foldl (fun a b => (a + residueFrom 0 b) % sealPrime) 0
  let lo := s.draw
  let hi := lo.2.draw
  let s := if ovf then hi.2 else s
  let open_ : Nat := hi.1.toNat * 2 ^ 64 + lo.1.toNat
  let elems := (List.range 256).map fun i =>
    let v := exact.getD i 0
    if fits128 v then sbits 128 (v + deltaAt f.acc i) else open_
  let act := blockResidue 0xA elems
  let ok := !ovf && pred == act
  let h : Held := { index := c.index, elems, fmt := 0xA, passed := ok,
                    sealw := sealWord s.time.time t c.gen 5 ok act }
  let s := (s.sramCopy t c.outIndex h).stagingPut t h
  if ok then (s.modCore t fun k => { k with sum.passes := k.sum.passes + 1 }).count t 6 1
  else (s.sealEvent t uNI 0x38 .fault
    (pack [(63, 1, b2n ovf), (32, 4, c.index), (0, 31, pred ^^^ act)]) false).halt t true

/-- BLOCK_VERDICT: the next block of the pass, or one of a canonical sum. -/
def State.blockVerdict (s : State) (t : Nat) (f : DrainFaults) : State :=
  match f.sum with
  | none => s.drainNext t f
  | some c =>
    match s.canonInputs t c, s.stagingRoom t with
    | some inputs, true =>
      let s := match c.channel with | some ch => s.dropWaiting t ch c.outIndex | none => s
      s.canonSum t { c with inputs } f
    | _, _ => s

end Sys2Proof.Machine
end

