-- ==== Sys2Proof/Machine/Fabric.lean ====
section
/-! DEFINITION. Main-fabric transfers as the NIs send and receive them (R157 to R166, R256 to R263). -/

namespace Sys2Proof.Machine

/-- Generation `g` is newer than `own`, modulo 256 (R258). -/
def genNewer (g own : Nat) : Bool :=
  let d := (g + 256 - own % 256) % 256
  0 < d && d < 128

/-- Payload bytes of a transfer: 4 KiB for each block. -/
def xferBytes (x : Xfer) : Nat := blockBytes * x.blocks.length

/-- The mark of a transfer that waits whole behind a hold (R261); other waits name their destination. -/
def wholeWait : Nat := numLogical

/-- An NI entry of a tile's hang ring (R408), with the command's sequence. -/
def State.niRing (s : State) (t : Nat) (k : HangKind) (cause : Nat) : State :=
  s.unitRing t uNI k cause

/-- A transfer begins or ends: an entry of the NI, and of the DMA engine where that moves it to or from host memory
(R408). -/
def State.xferRing (s : State) (t : Nat) (host : Bool) (k : HangKind) : State :=
  (if host then s.unitRing t uDMA k 0 else s).niRing t k 0

/-- The blocks of a transfer to host memory, one after the other. -/
def State.toHostMem (s : State) (x : Xfer) : State :=
  if x.toHost then s.hostWrite x.hostAt (x.blocks.flatMap fun b => b.bytes) else s

/-- The maquette hosts that the NI of tile `t` pairs with destinations of a transfer (R194). -/
def State.pairedHosts (s : State) (t : Nat) (dests : List Nat) : List Nat :=
  ((s.tile t).maq.pairs.filter fun e => e.2 != (0, 0, 0) && dests.contains e.2.2.1).map (·.2.1)

/-- A header is formed, with the generation of the NI's map as MGEN and a copy for every paired host: the transfer is
under way, entered in lineage by the destinations `named` that it was addressed to, and counted (R164, R166, R194,
R258, Table 13.1). -/
def State.formHeader (s : State) (t : Nat) (x : Xfer) (named : List Nat) : State :=
  let hosts := s.pairedHosts t x.dests
  let x := { x with mgen := (s.tile t).core.ni.gen.setWidth 8, hosts, subscribed := !hosts.isEmpty }
  let s := (s.lineageSend t { x with dests := named }).modCore t fun c => { c with xfers := c.xfers ++ [x] }
  let s := ((s.toHostMem x).count t 5 (xferBytes x)).xferRing t x.toHost .begin_
  if x.toChip.isSome then s.countLink x.link fun l => { l with tx := l.tx + BitVec.ofNat 48 (xferBytes x) } else s

/-- The NI of tile `t` resolves a transfer's destinations under its own map (R261): it waits whole behind
a hold; a fenced destination completes FENCED; the rest is sent. -/
def State.resolve (s : State) (t : Nat) (x : Xfer) : State :=
  let ni := (s.tile t).core.ni
  if x.dests.any ni.held then
    (s.modCore t fun c => { c with stalled := c.stalled ++ [(wholeWait, ni.gen.toNat, x)] }).niRing t .wait 3
  else
    let sent := x.dests.filter fun l => !ni.fenced (ni.phys l)
    let s := s.modCore t fun c => { c with
      fencedDone := c.fencedDone ++ (x.dests.filter fun l => ni.fenced (ni.phys l)).map fun l => (c.curIds, x.id, l) }
    if sent.isEmpty && !x.toHost && x.toChip.isNone then s else s.formHeader t { x with dests := sent } x.dests

/-- A tile whose stream may work: it runs a command under a running clock, and its own NI has not applied a fence of
it (R72). -/
def State.mayRun (s : State) (t : Nat) : Bool :=
  let c := (s.tile t).core
  t < numTiles && c.running && !c.ni.fenced t && !c.frozen && !c.stepping && !s.regionStopped (regionOf t)

/-- A verified block is written to the SRAM of tile `t`. A block for a slice goes on to the stack interface, which
judges it as an access of its own (R290). -/
def State.placeBlock (s : State) (t : Nat) (dst : BlockAddr) (bs : List Byte) (w : Word) : State :=
  match dst with
  | .sram u i => if u == t && i < sramBlocks then s.portBlock (.sram t i) bs w else s
  | .slice _ _ _ => s

/-- The second sending of a block: its bytes and seal word, read again from its source memory, on this chip or, for a
block from a link, as the other chip's memory gives them (R133). -/
def State.sentAgain (s : State) (b : BlockMove) (link : Bool) : List Byte × Word :=
  if link then b.peer.getD (b.bytes, b.sealw)
  else (flipBytes (s.blockBytesAt b.src) b.again.flips, s.blockSealAt b.src)

/-- The check of a moved block under the descriptor of the unit that verifies it (R124, R131). -/
def checkMoved (b : BlockMove) (p : List Byte × Word) (e : EccFinding) (inj : Option Nat) : Check :=
  checkBlock b.fmt.toNat ((b.genCheck.map (·.toNat)).getD 0) b.genCheck.isSome p.2 p.1 (e = .sealUncorrectable) (eccUe e) inj

/-- The NI of tile `t` refuses a received block with seal word `w` (R132, R134). -/
def State.refuseMoved (s : State) (t : Nat) (b : BlockMove) (w : Word) (c : Check) (inj : Option Nat) : State :=
  match c with
  | .pass => s
  | .invalid r => s.refuseInvalid t uNI r w
  | .stale => s.refuseStale t uNI ((b.genCheck.map (·.toNat)).getD 0) w
  | .mismatch x => s.readFail t uNI w x inj.isSome

/-- Data from host memory has no seal: the tile's DMA engine seals it STORED as it writes it (R123, R128). -/
def State.storeBlock (s : State) (t : Nat) (b : BlockMove) (gen : BitVec 8) : State :=
  let f := b.fmt.toNat
  s.placeBlock t b.dst b.bytes (sealWord s.time.time t gen 1 true (blockResidue f (unpackBlock f b.bytes)))

/-- The transfer carries the identifiers of the sampled command, or the tile is no maquette host that knows it
(R194). -/
def State.keepsCopy (s : State) (t : Nat) (x : Xfer) : Bool :=
  match if s.servesMaq t then (s.tile t).maq.descr else none with
  | some c => c.layer == x.layer && c.oper == x.oper
  | none => true

/-- A FENCED acknowledgement with a generation leaves for the sender of a copy on this chip (R259, R260). -/
def State.ackFenced (s : State) (x : XferIn) (gen : BitVec 16) : State :=
  if x.fromLink.isSome || x.fromHost.isSome then s
  else s.modCore x.src fun c => { c with acksDue := c.acksDue ++ [(x.x.id, x.dest, gen)] }

/-- An accepted block goes where it belongs: at a maquette host it is staged; elsewhere it is placed, mirrored where a
check asks for it, and waits for its turn as a contribution to a collective channel (R195, R197, R362). -/
def State.placeMoved (s : State) (t : Nat) (x : XferIn) (b : BlockMove) (p : List Byte × Word) : State :=
  if s.servesMaq t then s.stage t x.x b p.1 p.2
  else ((s.placeBlock t b.dst p.1 p.2).mirrorTaken t x { b with bytes := p.1, sealw := p.2 }).collect t b

/-- The second sending of a block whose first check found `first` under an injected bit (R133, R134, R156). -/
def State.secondSending (s : State) (t : Nat) (x : XferIn) (b : BlockMove) (first : Nat) (inj : Option Nat) : State :=
  let link := x.fromLink.isSome
  let q := s.sentAgain b link
  let e := if link then b.again.ecc else s.findingAt x.src b.src b.again.ecc
  let s := if link then s else s.blockRead x.src b.src b.again.ecc
  match checkMoved b q e inj with
  | .pass => (s.readRetry t uNI b.sealw first inj.isSome).placeMoved t x b q
  | c => s.refuseMoved t b q.2 c inj

/-- A block is requested again from the sending DMA engine, which reads its source memory again: in the same step, or
when a hold, a stopped domain or a bank that the read meets lets it go (R133, R295). A read that is refused gives no
second sending. -/
def State.askSending (s : State) (t : Nat) (x : XferIn) (b : BlockMove) (first : Nat) (inj : Option Nat) : State :=
  if x.fromLink.isSome then s.secondSending t x b first inj
  else
    match s.unitGate x.src b.src false with
    | .serve | .held | .stopped | .busy =>
      s.atBlock x.src b.src false (.again t x b first inj) fun s => s.secondSending t x b first inj
    | _ => s.refuseMoved t b b.sealw (.mismatch first) inj

/-- TRANSFER_RECEIVE, one block: the NI verifies it before it is written (R128, R131 to R134, R156). -/
def State.receiveBlock (s : State) (t : Nat) (x : XferIn) (b : BlockMove) : State :=
  let p := (b.bytes, b.sealw)
  match checkMoved b p .clean none with
  | .invalid r => s.refuseMoved t b b.sealw (.invalid r) none
  | .stale => s.refuseMoved t b b.sealw .stale none
  | _ =>
    let inj := s.injected t 3
    let s := s.consume inj.isSome
    match checkMoved b p .clean inj with
    | .pass => (s.placeMoved t x b p).accept t
    | .mismatch v => if s.retryEn then s.askSending t x b v inj else s.refuseMoved t b b.sealw (.mismatch v) inj
    | c => s.refuseMoved t b b.sealw c inj

/-- One block of an accepted transfer: from host memory it is sealed and placed; else the NI verifies it, and one that
reaches a maquette host has left the source's mirror queue (R128, R196). -/
def State.takeBlock (s : State) (t : Nat) (x : XferIn) (b : BlockMove) : State :=
  match x.fromHost with
  | some g => ((s.unitRing t uDMA .begin_ 0).storeBlock t b g).unitRing t uDMA .end_ 0
  | none => let r := s.receiveBlock t x b; if s.servesMaq t then r.mirrorLeaves x.src b else r

/-- TRANSFER_RECEIVE at tile `t`: absorbed by the router behind a closed port, or refused by the NI when its source is
fenced there, and acknowledged FENCED with the generation of the node or NI (R259, R260); discarded by a host when it
belongs to another command (R194); otherwise verified and accepted. -/
def State.receive (s : State) (t : Nat) (x : XferIn) : State :=
  let c := (s.tile t).core
  let s := match x.fromLink with
    | some n => s.countLink n fun l => { l with rx := l.rx + BitVec.ofNat 48 (xferBytes x.x) }
    | none => s
  if !x.exempt && c.router then (s.bump Reg.mapAbsorbed).ackFenced x c.nodeGen
  else if !x.exempt && x.fromLink.isNone && x.fromHost.isNone && c.ni.fenced x.src then
    (s.bump Reg.mapAbsorbed).ackFenced x c.ni.gen
  else if !s.keepsCopy t x.x then s
  else
    let s := if s.servesMaq t then s.bump Reg.maqMirrorBytes (xferBytes x.x) else s
    x.x.blocks.foldl (fun s b => s.takeBlock t x b) (s.count t 4 (xferBytes x.x))

/-- A destination of transfer `id` is done; the transfer with it when none is left. -/
def Core.dropDest (c : Core) (id l : Nat) : Core :=
  let xs := c.xfers.map fun (x : Xfer) => if x.id == id then { x with dests := x.dests.erase l } else x
  { c with xfers := xs.filter fun x => !(x.id == id && x.dests.isEmpty && !x.toHost && x.toChip.isNone) }

/-- An acknowledgement is on its way to the sender. -/
def Core.ackIsDue (c : Core) (id l : Nat) (gen : BitVec 16) : Bool := c.acksDue.contains (id, l, gen)

/-- FENCED_ACK at sender `t` (R262): with a newer generation the copy is kept until the sender reaches it;
behind a hold it waits; otherwise its completion stands, FENCED. -/
def State.fencedAck (s : State) (t id l : Nat) (gen : BitVec 16) : State :=
  let c := (s.tile t).core
  match c.xfers.find? fun x => x.id == id && x.dests.contains l with
  | none => s
  | some x =>
    let copy : Xfer := { x with dests := [l], toHost := false, toChip := none }
    let s := s.modCore t fun c => { c.dropDest id l with acksDue := c.acksDue.erase (id, l, gen) }
    if genNewer gen.toNat c.ni.gen.toNat then
      s.modCore t fun c => { c with stalled := c.stalled ++ [(l, gen.toNat, copy)] }
    else if c.ni.held l then
      s.modCore t fun c => { c with stalled := c.stalled ++ [(l, c.ni.gen.toNat, copy)] }
    else s.modCore t fun c => { c with fencedDone := c.fencedDone ++ [(c.curIds, id, l)] }

/-- A waiting transfer may be resolved again: the generation is reached and nothing it names is held. -/
def Core.waitOver (c : Core) (w : Nat × Nat × Xfer) : Bool :=
  !genNewer w.2.1 c.ni.gen.toNat && !w.2.2.dests.any c.ni.held

/-- After a map change the NI resolves the transfers whose wait is over again, in their order (R261, R262). The NI of a
fenced tile sends nothing (R259). -/
def State.resolveAgain (s : State) (t : Nat) : State :=
  let c := (s.tile t).core
  if c.stalled.isEmpty || c.router || c.ni.fenced t then s
  else
    let go := c.stalled.filter c.waitOver
    let s := s.modCore t fun c => { c with stalled := c.stalled.filter fun w => !c.waitOver w }
    go.foldl (fun s w =>
      let s := if w.1 == wholeWait then s else s.bump Reg.mapResolvedAgain
      (s.niRing t .resume 0).resolve t w.2.2) s

/-- The status with which a transfer to host memory completes: NO_ECC if a block of it was read so (R297). -/
def State.dmaStatus (s : State) (x : Xfer) : DmaStatus :=
  if x.blocks.any fun b => s.rawAt b.src then .noEcc else .ok

/-- TRANSFER_COMPLETION: the transfer's completion arrives (R134, R223). -/
def State.xferDone (s : State) (t id : Nat) : State :=
  let host := (s.tile t).core.xfers.find? fun (x : Xfer) => x.id == id && x.toHost
  (s.modCore t fun c => { c with
    xfers := c.xfers.filter fun (x : Xfer) => x.id != id
    hostDma := match host with | some x => some (s.dmaStatus x) | none => c.hostDma }).xferRing t host.isSome .end_

/-- The pass's released blocks are remembered, so that a rerun does not release them again (R160). -/
def Core.released (c : Core) (h : Held) : Core :=
  { c with
    pass := c.pass.map fun (p : PassSt) => if h.pass == some p.id then { p with rel := h.index :: p.rel } else p
    staging := c.staging.drop 1 }

/-- BLOCK_RELEASE: the first held block leaves if its verdict is PASS; a failed one holds every later
block behind it (R157, R158, R162). A fenced tile and a maquette host release nothing (R183, R259). -/
def State.blockRelease (s : State) (t : Nat) (x : Xfer) : State :=
  let c := (s.tile t).core
  match c.staging, x.blocks with
  | h :: _, b :: _ =>
    if h.passed && !c.halted && !c.interrupted && !c.frozen && !c.ni.fenced t && !s.servesMaq t then
      let x := { x with blocks := [{ b with fmt := h.fmt, bytes := packBlock h.fmt.toNat h.elems, sealw := h.sealw }] }
      (s.modCore t fun c => c.released h).resolve t x
    else s
  | _, _ => s

/-! ### Meanings -/

/-- PASS_START: a stop for a cast or a chisel session takes hold at the command boundary only (R12, R21). -/
def execPassStart (t : Nat) (p : PassDesc) (entry : List EntryFault) (s : State) : Host.Outcome State Fault Refusal :=
  doWhen (s.live && s.mayRun t && (s.tile t).core.pass.isNone &&
    p.acts.length ≤ 65536 && p.weights.length == p.acts.length) (fun s => s.passStart t p entry) s

/-- The tile's array drains: of a stopped stream, only a pass whose drain has begun (R151). -/
def State.mayDrain (s : State) (t : Nat) (f : DrainFaults) : Bool :=
  let c := (s.tile t).core
  s.life.powered && t < numTiles && !s.regionStopped (regionOf t) && c.cur.isSome &&
  (if f.sum.isNone && (c.pass.map (·.draining)).getD false then true else s.live && !c.halted && !c.frozen)

/-- BLOCK_VERDICT. -/
def execBlockVerdict (t : Nat) (f : DrainFaults) (s : State) : Host.Outcome State Fault Refusal :=
  doWhen (s.mayDrain t f) (fun s => s.blockVerdict t f) s

/-- PASS_RERUN. -/
def execPassRerun (t : Nat) (x : Rerun) (fs : List DrainFaults) (s : State) : Host.Outcome State Fault Refusal :=
  doWhen (s.live && s.mayRun t) (fun s => s.passRerun t x.reads x.entry fs) s

/-- BLOCK_RELEASE, under a running clock (R72). -/
def execBlockRelease (t : Nat) (x : Xfer) (s : State) : Host.Outcome State Fault Refusal :=
  doWhen (s.live && t < numTiles && !s.regionStopped (regionOf t)) (fun s => s.blockRelease t x) s

/-- The block of a read exists. -/
def blockExists : BlockAddr → Bool
  | .sram t i => t < numTiles && i < sramBlocks
  | .slice t l b => t < numTiles && l < numLayers && b < layerBlocks l

/-- SEAL_VERIFY_READ: one read is under way at a time; the second one is SEAL_SECOND_READ. -/
def execSealVerifyRead (t : Nat) (r : ReadReq) (s : State) : Host.Outcome State Fault Refusal :=
  doWhen (s.live && s.mayRun t && (s.tile t).core.expect.isNone && blockExists r.addr &&
    r.reseal.getD 0 < sramBlocks)
    (fun s => s.verifyRead t r) s

/-- SEAL_SECOND_READ. -/
def execSealSecondRead (t : Nat) (r : ReadReq) (s : State) : Host.Outcome State Fault Refusal :=
  doWhen (s.live && s.mayRun t) (fun s => s.secondRead t r) s

/-- PARTIAL_BLOCK_WRITE, by a unit of tile `t`. -/
def execPartialBlockWrite (t : Nat) (w : PartialWrite) (s : State) : Host.Outcome State Fault Refusal :=
  doWhen (s.live && s.mayRun t && (s.tile t).core.expect.isNone && blockExists w.read.addr)
    (fun s => s.partialWrite t w) s

/-- A block that a DMA engine or NI sends on is one of this chip's memories, as it stands there, and was verified:
only then is a header formed for it (R123, R128, R147). -/
def State.sendsBlock (s : State) (b : BlockMove) : Bool :=
  blockExists b.src && b.bytes == s.blockBytesAt b.src && b.sealw == s.blockSealAt b.src &&
  checkMoved b (b.bytes, b.sealw) .clean none = .pass

/-- The verified read of a block by the engine that sends it on. -/
def moveRead (x : Xfer) (b : BlockMove) : ReadReq :=
  { addr := b.src, unit := uDMA, fmt := b.fmt, gen := b.genCheck.getD 0, genCheck := b.genCheck.isSome, reseal := none
    toHost := x.toHost, flips := [], ecc := .clean }

/-- The engine that sends a transfer reaches every source block, or the first that it does not reach refuses it or makes
it wait (R261, R290, R295). -/
def State.sendAll (s : State) (t : Nat) (x : Xfer) (go : State → Nat → Xfer → State) : State :=
  match x.blocks.find? fun b => s.unitGate t b.src false != .serve with
  | some b => s.atBlock t b.src false (.send t x) id
  | none => go s t x

/-- A block from another tile's slice that tile `t` sends on enters that tile's lineage record (R164). -/
def State.sendLineage (s : State) (t : Nat) (b : BlockMove) : State :=
  match b.src with | .slice u _ _ => s.lineageServe u (some t) false none | .sram _ _ => s

/-- TRANSFER_SEND at tile `t`, once it reaches its blocks. -/
def State.sendNow (s : State) (t : Nat) (x : Xfer) : State :=
  (x.blocks.foldl (fun s b => (s.sendLineage t b).blockRead t b.src .clean) s).resolve t x

/-- A command that stalls on a transfer behind a hold sends no other (R223, R261). -/
def Core.stallsWhole (c : Core) : Bool := c.stalled.any fun w => w.1 == wholeWait

/-- TRANSFER_SEND, by a tile that is no maquette host (R183): the blocks pass through commit staging without waiting
for a verdict, when it has room (R157, R158). -/
def execTransferSend (t : Nat) (x : Xfer) (s : State) : Host.Outcome State Fault Refusal :=
  doWhen (s.live && s.mayRun t && !s.servesMaq t && x.dests.all (· < numLogical) && (s.tile t).core.staging.length < stagingBlocks &&
    !(s.tile t).core.stallsWhole && x.blocks.all s.sendsBlock) (fun s => s.sendAll t x State.sendNow) s

/-- TRANSFER_RECEIVE, under a running clock (R72). -/
def execTransferReceive (t : Nat) (x : XferIn) (s : State) : Host.Outcome State Fault Refusal :=
  doWhen (s.live && t < numTiles && !s.regionStopped (regionOf t)) (fun s => s.receive t x) s

end Sys2Proof.Machine
end

