-- ==== Sys2Proof/Machine/NodeMap.lean ====
section
/-! DEFINITION. The map, fence and hold vectors at the hub and at every node, and the operations that
change them (R255 to R266). -/

namespace Sys2Proof.Machine

/-! ### Operands (Table 8.3) -/

/-- Field [hi:lo] of an OPERAND. -/
def ofld (o : BitVec 96) (hi lo : Nat) : Nat := (o.toNat >>> lo) % 2 ^ (hi + 1 - lo)

/-- An OPERAND from its fields. -/
def opack (fs : List Fld) : BitVec 96 := BitVec.ofNat 96 (packNat fs)

/-- Fence kinds (Table 8.4). -/
def kQUARANTINE : Nat := 0
def kORDER : Nat := 1
def kTEST_HOLD : Nat := 2
def kPROMOTE : Nat := 3
def kRETIRE : Nat := 4
def kRELEASE : Nat := 5

/-- A FENCE_APPLY or UNFENCE_APPLY. -/
structure FenceReq where
  kind    : Nat
  fence   : Bool
  hold    : Bool
  rect    : Option Rect := none
  phys    : Nat := 0
  logical : Option Nat := none
  deriving DecidableEq, Repr

/-- Its OPERAND. -/
def FenceReq.operand (q : FenceReq) (gen : BitVec 16) : BitVec 96 :=
  let r := q.rect.getD { r0 := 0, c0 := 0, r1 := 0, c1 := 0 }
  opack [(92, 4, q.kind), (91, 1, b2n q.fence), (90, 1, b2n q.hold), (89, 1, b2n q.rect.isSome),
    (78, 11, q.phys), (68, 10, q.logical.getD 0x3FF), (63, 5, r.r0), (58, 5, r.c0), (53, 5, r.r1),
    (48, 5, r.c1), (32, 16, gen.toNat)]

/-- Read a FENCE_APPLY or UNFENCE_APPLY from its OPERAND. -/
def fenceReq (o : BitVec 96) : FenceReq :=
  { kind := ofld o 95 92, fence := ofld o 91 91 == 1, hold := ofld o 90 90 == 1
    rect := if ofld o 89 89 == 1 then
        some { r0 := ofld o 67 63, c0 := ofld o 62 58, r1 := ofld o 57 53, c1 := ofld o 52 48 } else none
    phys := ofld o 88 78, logical := some (ofld o 77 68) }

/-- The operation has no reserved KIND and no field out of range (R265). -/
def FenceReq.ok (q : FenceReq) : Bool :=
  q.kind ≤ 5 && (match q.rect with | some r => r.ok | none => q.phys < numTiles)

/-- The logical tiles whose hold bit, and the physical tiles whose fence bit, the operation names in a
copy of the map. -/
def FenceReq.holds (q : FenceReq) : List Nat :=
  if q.hold then (match q.rect with | some r => r.tiles | none => q.logical.toList) else []
def FenceReq.fences (q : FenceReq) (m : NiMap) : List Nat :=
  if q.fence then (match q.rect with | some r => r.tiles.map m.phys | none => [q.phys]) else []

/-- Set or clear the named bits of a copy. A release notes the fences that it sets, and clears only those
(R279). -/
def NiMap.apply (m : NiMap) (q : FenceReq) (set : Bool) (gen : BitVec 16) : NiMap :=
  let ts := q.fences m
  let own := if q.kind == kRELEASE then
      ts.filter fun t => if set then !m.fenced t else m.rel.getLsbD t
    else ts
  { m with
    fence := own.foldl (fun v t => setBit v t set) m.fence
    rel := if q.kind == kRELEASE then own.foldl (fun v t => setBit v t set) m.rel
           else ts.foldl (fun v t => setBit v t false) m.rel
    hold := q.holds.foldl (fun v l => setBit v l set) m.hold
    gen }

/-- A MAP_COMMIT of a copy (Table 8.3). -/
def NiMap.commit (m : NiMap) (l t : Nat) (clearHold : Bool) (gen : BitVec 16) : NiMap :=
  { m.setPhys l t with hold := if clearHold then setBit m.hold l false else m.hold, gen }

/-- OP codes of the map operations (Table 3.5). -/
def opFENCE_APPLY : Nat := 0x01
def opUNFENCE_APPLY : Nat := 0x02
def opMAP_COMMIT : Nat := 0x16
def opMAP_LOAD : Nat := 0x30

/-- Apply one map operation to a copy. -/
def NiMap.change (m : NiMap) (op : Nat) (o : BitVec 96) : NiMap :=
  if op == opMAP_COMMIT then
    m.commit (ofld o 95 86) (ofld o 85 75) (ofld o 74 74 == 1) (BitVec.ofNat 16 (ofld o 73 58))
  else m.apply (fenceReq o) (op == opFENCE_APPLY) (BitVec.ofNat 16 (ofld o 47 32))

/-! ### MAP_LOAD (R265) -/

/-- Entry `k` of a map section's data. -/
def loadEntry (data : List Flit) (k : Nat) : Nat := flitFld (data.getD (k / 11) 0) (11 * (k % 11) + 10) (11 * (k % 11))

/-- Every entry of a map section maps its logical tile to a physical tile of its region (R26). -/
def loadInRegion (first count : Nat) (data : List Flit) : Bool :=
  (List.range count).all fun k => loadEntry data k < numTiles && regionOf (loadEntry data k) == regionOfLogical (first + k)

/-- The value of the map section's data: 11 entries of 11 bits to a flit. -/
def loadEntries (first count : Nat) (data : List Flit) (m : NiMap) : NiMap :=
  (List.range count).foldl (fun m k => if first + k < numLogical then m.setPhys (first + k) (loadEntry data k) else m) m

/-- The value of a vector section's data: 128 bits to a flit. -/
def loadBits {n : Nat} (first count : Nat) (data : List Flit) (v : BitVec n) : BitVec n :=
  (List.range count).foldl (fun v k =>
    setBit v (first + k) ((data.getD (k / 128) 0).getLsbD (k % 128))) v

/-- One MAP_LOAD packet into the node's load buffer; none where a field is out of range, or an entry leaves its region
(R26, R265). -/
def loadSection (m : NiMap) (o : BitVec 96) (data : List Flit) : Option NiMap :=
  let first := ofld o 93 83
  let count := ofld o 82 73 + 1
  match ofld o 95 94 with
  | 0 => if count ≤ 66 && first + count ≤ numLogical && loadInRegion first count data then some (loadEntries first count data m) else none
  | 1 => if count ≤ 768 && first + count ≤ numTiles then some { m with fence := loadBits first count data m.fence } else none
  | 2 => if count ≤ 768 && first + count ≤ numLogical then some { m with hold := loadBits first count data m.hold } else none
  | _ => none

/-! ### What a node does (R257, R259, R266) -/

/-- A node answers REJECTED: the hub raises ARM_ROUTE, because only the hub forms these operations (R265). -/
def State.rejected (s : State) (t op : Nat) : State := (s.routeDiscard hubEndpoint 0x3F (opKind op) t).replyRejected t

/-- The stream of a tile that is fenced stops at once; inside a command it is INTERRUPTED (R266), which ends with
the code of an interruption or, under a fence of kind RELEASE, of a stop (Table 13.4). -/
def State.fenceStop (s : State) (t how : Nat) : State :=
  let c := (s.tile t).core
  let s := s.stopPass t
  if c.running && !c.stepping then
    (s.traceEnd t how).modCore t fun c => Core.cutHere { c with fenceStop := true, interrupted := true, unreported := true }
  else s.modCore t fun c => { c with fenceStop := true }

/-- The fence of a tile is lifted: its stream runs again, or stays HALTED if it was INTERRUPTED (R278). -/
def State.fenceLift (s : State) (t : Nat) : State :=
  s.modCore t fun c => { c with fenceStop := false, halted := c.halted || c.interrupted }

/-- The router of tile `t` closes or opens its local port (R257). -/
def State.routerSet (s : State) (t : Nat) (closed : Bool) (how : Nat) : State :=
  if (s.tile t).core.router == closed then s
  else
    let s := (s.modCore t fun c => { c with router := closed }).unitRing t uROUTER .state 0
    if closed then s.fenceStop t how else s.fenceLift t

/-- The node passes a change to its NI through the region synchronizer (R257). -/
def State.toNi (s : State) (t op : Nat) (o : BitVec 96) (gen : BitVec 16) : State :=
  s.modCore t fun c => { c with niPend := c.niPend ++ [(BitVec.ofNat 8 op, o)], nodeGen := gen }

/-- The NI of `c` has applied the hold of operand `o` and has no incomplete transfer to a tile that it names (R223).
-/
def Core.drained (c : Core) (o : BitVec 96) : Bool :=
  (fenceReq o).holds.all fun l => c.ni.held l && !c.xfers.any fun x => x.dests.contains l

/-- Node `t` sends the REPLY to each test hold from which its NI has drained (R223). -/
def State.drainReply (s : State) (t : Nat) : State :=
  let c := (s.tile t).core
  let go := c.drains.filter c.drained
  if go.isEmpty then s
  else
    go.foldl (fun s _ => s.reply t rDONE) (s.modCore t fun c => { c with drains := c.drains.filter fun o => !go.contains o })

/-- FENCE_APPLY or UNFENCE_APPLY at node `t`; a test hold is also answered by a REPLY, once its NI has drained. -/
def State.nodeFence (s : State) (t op : Nat) (o : BitVec 96) : State :=
  let q := fenceReq o
  if !q.ok then s.rejected t op
  else
    let c := (s.tile t).core
    let view := c.niPend.foldl (fun m e => m.change e.1.toNat e.2) c.ni
    let s := s.toNi t op o (BitVec.ofNat 16 (ofld o 47 32))
    let s := if op == opFENCE_APPLY && q.kind == kTEST_HOLD then s.modCore t fun c => { c with drains := c.drains ++ [o] } else s
    if (q.fences view).contains t then s.routerSet t ((view.change op o).fenced t) (if q.kind == kRELEASE then 3 else 2) else s

/-- MAP_COMMIT at node `t`: a tile that does not exist, or stands in another region, is refused (R26, R265). -/
def State.nodeCommit (s : State) (t : Nat) (o : BitVec 96) : State :=
  if numTiles ≤ ofld o 85 75 || regionOf (ofld o 85 75) != regionOfLogical (ofld o 95 86) then s.rejected t opMAP_COMMIT
  else s.toNi t opMAP_COMMIT o (BitVec.ofNat 16 (ofld o 73 58))

/-- MAP_LOAD at node `t`: the previous state stays in use until the packet with LAST (R265). -/
def State.nodeLoad (s : State) (t : Nat) (o : BitVec 96) (data : List Flit) : State :=
  match loadSection (s.tile t).core.loadBuf o data with
  | none => s.rejected t opMAP_LOAD
  | some m =>
    let s := s.modCore t fun c => { c with loadBuf := m }
    if ofld o 72 72 == 1 then
      (s.toNi t opMAP_LOAD o (BitVec.ofNat 16 (ofld o 71 56))).routerSet t (m.fenced t) 2
    else s

/-- The 20 MAP_LOAD packets of a full load of map `m`: OPERAND and data flits (R265). -/
def mapPackets (m : NiMap) : List (BitVec 96 × List Flit) :=
  let operand (section_ first count : Nat) (last : Bool) : BitVec 96 :=
    opack [(94, 2, section_), (83, 11, first), (73, 10, count - 1), (72, 1, b2n last), (56, 16, m.gen.toNat)]
  let maps := (List.range 16).map fun p =>
    let first := 66 * p
    let n := min 66 (numLogical - first)
    (operand 0 first n false, (List.range ((n + 10) / 11)).map fun j =>
      BitVec.ofNat 128 (packNat ((List.range (min 11 (n - 11 * j))).map fun i => (11 * i, 11, m.phys (first + 11 * j + i)))))
  let bits (v : Nat) (section_ size : Nat) (end_ : Bool) := [0, 768].map fun first =>
    let n := min 768 (size - first)
    (operand section_ first n (end_ && first == 768), (List.range (n / 128)).map fun j =>
      BitVec.ofNat 128 (v >>> (first + 128 * j)))
  maps ++ bits m.fence.toNat 1 numTiles false ++ bits m.hold.toNat 2 numLogical true

/-- One pending change takes effect in the NI of tile `t`. -/
def Core.niApply (c : Core) : Core :=
  match c.niPend with
  | [] => c
  | (op, o) :: rest =>
    if op.toNat == opMAP_LOAD then
      { c with niPend := rest, ni := { c.loadBuf with gen := BitVec.ofNat 16 (ofld o 71 56) } }
    else { c with niPend := rest, ni := c.ni.change op.toNat o }

/-- NI_MAP_APPLY: the NI of a running region applies the oldest pending change, and the transfers whose
wait is over are resolved again (R257, R262). -/
def State.niMapApply (s : State) (t : Nat) : State :=
  if (s.tile t).core.niPend.isEmpty || s.regionStopped (regionOf t) then s
  else ((s.modCore t Core.niApply).resolveAgain t).drainReply t

/-- At the first edge after a stop an NI applies every pending change, in order (R257). -/
def State.niApplyAll (s : State) (t : Nat) : State :=
  (List.range (s.tile t).core.niPend.length).foldl (fun s _ => ((s.modCore t Core.niApply).resolveAgain t).drainReply t) s

/-- The map of node `t` is loaded anew from the hub with MAP_LOAD, at the current generation (R225); which fences a
release set is no part of a load and is taken over as the hub has it. -/
def State.mapReload (s : State) (t : Nat) : State :=
  let s := s.modCore t fun c => { c with niPend := [], loadBuf := { c.loadBuf with rel := s.map.hub.rel } }
  ((mapPackets s.map.hub).foldl (fun s p => s.nodeLoad t p.1 p.2) s).niApplyAll t

/-! ### What the hub issues (R255, R256, R265) -/

/-- The generation after `g`: it skips 0 when it wraps (R255). -/
def nextGen (g : BitVec 16) : BitVec 16 := if g == 0xFFFF then 1 else g + 1

/-- The last change to a tile: its generation and the kind of the fence or hold in force (Table 8.14). -/
def State.mapMark (s : State) (t kind : Nat) : State :=
  s.modPat t fun p => { p with kind, chGen := s.map.hub.gen }

/-- The FENCE orders that wait for a boundary of a tile are dropped because another action came first (R276). -/
def State.dropPending (s : State) (t : Nat) : State :=
  let ids := (s.map.pendFence.filter fun e => e.1 == t).map (·.2)
  if ids.isEmpty then s
  else
    ids.foldl (fun s id => s.finish id .stateIllegal)
      { s with map.pendFence := s.map.pendFence.filter fun (e : Nat × Nat) => e.1 != t }

/-- The KIND that a tile shows after a change (Table 8.14): that of the fence or hold in force. A hold behind a
fence leaves the fence's, and so does a change that leaves the tile fenced or held. -/
def State.kindAfter (old new : State) (q : FenceReq) (set : Bool) (t : Nat) : Nat :=
  if set then (if old.fenced t && !q.fence then (old.tile t).pat.kind else q.kind)
  else if new.fenced t || new.heldTile t then (old.tile t).pat.kind else 0

/-- The hub issues a FENCE_APPLY or UNFENCE_APPLY to every node under the generation it holds (R87), and its
own copy follows (R265, R282). -/
def State.fenceSend (s : State) (q : FenceReq) (set : Bool) (order : Option Nat) : State :=
  let gen := nextGen s.map.hub.gen
  let own (t : Nat) : Bool := if q.kind != kRELEASE then true else if set then !s.fenced t else s.map.hub.rel.getLsbD t
  let hit := (q.fences s.map.hub ++ q.holds.map s.map.hub.phys).filter own
  let s := if set then hit.foldl State.dropPending s else s
  let s := s.hubSend { op := if set then opFENCE_APPLY else opUNFENCE_APPLY, vc := 0, operand := q.operand gen
                       dests := allNodes, order }
  let old := s
  let s := { s with map.hub := s.map.hub.apply q set gen }
  let s := hit.foldl (fun s t => s.mapMark t (old.kindAfter s q set t)) s
  if set then s.bump Reg.mapFences else s

/-- The hub issues a MAP_COMMIT to every node, and its own copy follows. -/
def State.commitSend (s : State) (l t : Nat) (clearHold : Bool) : State :=
  let gen := nextGen s.map.hub.gen
  let old := s.phys l
  let s := s.hubSend { op := opMAP_COMMIT, vc := 1, dests := allNodes
                       operand := opack [(86, 10, l), (75, 11, t), (74, 1, b2n clearHold), (58, 16, gen.toNat)] }
  let s := { s with map.hub := s.map.hub.commit l t clearHold gen }
  (s.mapMark old (s.tile old).pat.kind).mapMark t 0

/-- A map change awaits acknowledgements (Table 8.13 CHANGE_BUSY). -/
def State.changeBusy (s : State) : Bool :=
  s.arm.sent.any (fun o => isMapChange o.op.toNat) || s.arm.queue.any (fun o => isMapChange o.op.toNat)

/-- FENCE_DONE when every node has acknowledged a fence; none for TEST_HOLD (Table 8.10). A rectangle is
named by its first tile (assumption 13). -/
def State.fenceDone (s : State) (o : Outgoing) : State :=
  let q := fenceReq o.operand
  if q.kind == kTEST_HOLD then s
  else
    let l : Nat := match q.rect with | some r => r.r0 * 32 + r.c0 | none => q.logical.getD 0x3FF
    let t := match q.rect with | some _ => s.phys l | none => q.phys
    let c := (s.tile t).core
    let cycles := min (s.time.time.toNat - o.sentAt.toNat) (2 ^ 19 - 1)
    let r := mkRec s.time.time 0x0071 t uNODE (if q.kind == kQUARANTINE then .fault else .note)
      (pack [(60, 4, q.kind), (59, 1, b2n q.fence), (58, 1, b2n q.hold), (57, 1, b2n c.interrupted),
        (56, 1, b2n o.late), (40, 16, ofld o.operand 47 32), (29, 11, t), (19, 10, l), (0, 19, cycles)])
    s.raise (if c.interrupted then r.ofCmd c.curIds else r)

/-- UNFENCE_DONE (Table 8.10). -/
def State.unfenceDone (s : State) (o : Outgoing) (clear : Bool) : State :=
  let q := fenceReq o.operand
  if q.kind == kTEST_HOLD || !q.fence then s
  else
    let first : Nat := match q.rect with | some r => r.r0 * 32 + r.c0 | none => 0x3FF
    let t := match q.rect with | some _ => s.phys first | none => q.phys
    let l := match q.rect with | some _ => first | none => (s.logical t).getD 0x3FF
    s.raise (mkRec s.time.time 0x0072 t uNODE .info
      (pack [(60, 4, q.kind), (59, 1, b2n clear), (29, 11, t), (19, 10, l)]))

end Sys2Proof.Machine
end

