-- ==== Sys2Proof/Machine/Contain.lean ====
section
/-! DEFINITION. Late detections, the taint computation and its report (R167 to R181). -/

namespace Sys2Proof.Machine

/-- Detections that may wait (R168). -/
def detectionSlots : Nat := 8

/-- An event of this chapter: its source is the source tile, with the unit of Table 5.2 and the implicated
command's identifiers (R179). -/
def State.raiseDetection (s : State) (d : Detection) (code : Nat) (detail : Word) : State :=
  s.raise ((mkRec s.time.time code d.tile d.unit .fault detail).ofCmd d.cmd)

/-- A late detection is queued, or finds the queue full and raises TAINT_OVERFLOW (R168, R176). -/
def State.detect (s : State) (d : Detection) : State :=
  let s := s.bump Reg.containDetections
  if s.contain.queue.length < detectionSlots then { s with contain.queue := s.contain.queue ++ [d] }
  else (s.bump Reg.containOverflows).raiseDetection d 0x0041 (pack [(60, 4, d.kind), (0, 51, d.b0)])

/-- TAINT_COMPUTATION: with none running the oldest detection starts, and LINEAGE_QUERY goes to every node
(R168). -/
def State.taintStart (s : State) : State :=
  match s.contain.running, s.contain.queue with
  | none, d :: rest =>
    let id := s.contain.nextId
    let s := { s with contain.queue := rest, contain.running := some d
                      contain.nextId := nextGen id }
    s.hubSend { op := 0x20, vc := 2, dests := allNodes, operand := opack [(64, 16, id.toNat), (0, 51, d.b0)] }
  | _, _ => s

/-- LINEAGE_QUERY at a node: parked until the next lineage closing, with the beat in which it was accepted (R169). -/
def State.nodeQuery (s : State) (t : Nat) (o : BitVec 96) : State :=
  s.modCore t fun c => { c with query := some (BitVec.ofNat 16 (ofld o 79 64), ofld o 50 0, s.beat) }

/-! ### Records as captured -/

/-- Field [hi:lo] of a record (Table 5.1). -/
def linFld (r : BitVec 128) (hi lo : Nat) : Nat := (r.toNat >>> lo) % 2 ^ (hi + 1 - lo)

/-- Regions set in DREG. -/
def linRegions (r : BitVec 128) : List Nat := (List.range 16).filter fun g => r.getLsbD (100 + g)

/-- The command of a record, if NCMD is above 0. -/
def linCmd (r : BitVec 128) : Option (BitVec 16 × BitVec 16 × BitVec 24) :=
  if linFld r 88 80 == 0 then none
  else some (BitVec.ofNat 16 (linFld r 79 64), BitVec.ofNat 16 (linFld r 63 48), BitVec.ofNat 24 (linFld r 47 24))

/-- The captured records of a tile for beats `a` to `b`, oldest first. -/
def State.captured (s : State) (t a b : Nat) : List (Nat × BitVec 128) :=
  match (s.tile t).core.captured with
  | some (_, rs) => rs.filter fun e => a ≤ e.1 && e.1 ≤ b
  | none => []

/-- Every node's capture has come. -/
def State.allCaptured (s : State) : Bool := allTiles.all fun t => (s.tile t).core.captured.isSome

/-- C of tile `t`'s reply. -/
def State.captureBeat (s : State) (t : Nat) : Nat := (((s.tile t).core.captured).map (·.1)).getD 0

/-! ### The closure (R171) -/

/-- First tainted beat of each region. -/
abbrev Firsts := Tbl (Option Nat)

/-- Region `g` is reached in beat `b`. -/
def reach (f : Firsts) (g b : Nat) : Firsts :=
  match tget none f g with
  | none => tset none f g (some b)
  | some a => if b < a then tset none f g (some b) else f

/-- spread of R171: a tile's transfers from a beat on. -/
def State.spread (s : State) (cmin : Nat) (f : Firsts) (t a : Nat) : Firsts :=
  (s.captured t a cmin).foldl (fun f e => (linRegions e.2).foldl (fun f g => reach f g e.1) f) f

/-- One round over the tainted regions. -/
def State.spreadRound (s : State) (cmin : Nat) (f : Firsts) : Firsts :=
  f.foldl (fun acc e =>
    match e.2 with
    | some _ => (tilesOfRegion e.1).foldl (fun a t =>
        match tget none a e.1 with
        | some b => s.spread cmin a t b
        | none => a) acc
    | none => acc) f

/-- Rounds until nothing changes; every round but the last lowers or sets a first beat, of which there are
16 within 65 beats. -/
def State.closure (s : State) (cmin : Nat) : Nat → Firsts → Firsts
  | 0, f => f
  | n + 1, f =>
    let f' := s.spreadRound cmin f
    if f' = f then f else s.closure cmin n f'

/-! ### The report -/

/-- First tainted beat of tile `t` (R172). -/
def firstBeat (d : Detection) (f : Firsts) (t : Nat) : Option Nat :=
  if t == d.tile then some d.b0 else tget none f (regionOf t)

/-- What the report says of one tainted tile (R172). -/
def State.taintedTile (s : State) (d : Detection) (cmin t fb : Nat) : Tainted :=
  let rs := s.captured t fb cmin
  let found := rs.findSome? fun e => linCmd e.2
  { f := fb
    cmd := if t == d.tile then (match d.cmd with | some c => some c | none => found) else found
    host := rs.any fun e => linFld e.2 118 118 == 1
    peer := rs.any fun e => linFld e.2 117 117 == 1 }

/-- The chips that the tainted tiles reached: PEERCHIP values of their records. -/
def State.taintedChips (s : State) (d : Detection) (f : Firsts) (cmin : Nat) : List Nat :=
  (allTiles.flatMap fun t =>
    match firstBeat d f t with
    | some fb => (s.captured t fb cmin).filterMap fun e =>
        if linFld e.2 117 117 == 1 then some (linFld e.2 23 11) else none
    | none => []).dedup

/-- LINEAGE_EN was 0 at some beat tick from b0 to the last capture, which is made in beat Cmax + 1 (Table
5.7). -/
def State.linDisabled (s : State) (b0 cmax : Nat) : Bool :=
  s.contain.disabled.any fun b => b0 ≤ b && b ≤ cmax + 1

/-- The report of a computation whose replies are all in (R170 to R173). -/
def State.taintReport (s : State) (d : Detection) (id : BitVec 16) : Report :=
  let cs := allTiles.map s.captureBeat
  let cmin := cs.foldl min (cs.headD 0)
  let cmax := cs.foldl max 0
  let f := s.closure cmin 1041 (s.spread cmin [] d.tile d.b0)
  let tiles := allTiles.foldl (fun (m : Tbl (Option Tainted)) t =>
    match firstBeat d f t with
    | some fb => tset none m t (some (s.taintedTile d cmin t fb))
    | none => m) []
  let chips := s.taintedChips d f cmin
  { id, det := d, cmin, cmax, exceeded := decide (d.b0 + 63 < cmax) || s.linDisabled d.b0 cmax
    first := f, tiles, chip := chips.head?.map (BitVec.ofNat 13), chips := 1 < chips.length || chips.contains 0x1FFF }

/-- TAINT_CLOSURE: all replies are in; the report waits to be published (R170, R171). -/
def State.taintClose (s : State) : State :=
  match s.contain.running with
  | some d =>
    if s.allCaptured then
      let id := if s.contain.nextId == 1 then 0xFFFF else s.contain.nextId - 1
      let r := s.taintReport d id
      let s := { s with contain.ready := s.contain.ready ++ [r], contain.running := none }
      allTiles.foldl (fun s t => s.modCore t fun c => { c with captured := none }) s
    else s
  | none => s

/-- The tile is tainted in a report. -/
def Report.has (r : Report) (t : Nat) : Bool := (tget none r.tiles t).isSome

/-- REPORT_SUM (Table 5.8). -/
def Report.sum (r : Report) : Word :=
  let ts := r.tiles.filterMap (·.2)
  let peer := ts.any (·.peer)
  pack [(48, 16, r.id.toNat), (47, 1, b2n r.exceeded), (46, 1, b2n (ts.any (·.host))), (45, 1, b2n peer),
    (32, 13, if peer then (if r.chips then 0x1FFF else (r.chip.map (·.toNat)).getD 0) else 0),
    (16, 16, (bitsWord 0 (r.first.filterMap fun e => e.2.map fun _ => e.1)).toNat), (0, 11, ts.length)]

/-- The first pause of a cast of the log began before b0: every cast that was durable before the last reset did. -/
def State.castIsBefore (s : State) (b0 : Nat) (c : CastRec) : Bool :=
  match s.cast.durable.find? fun e => e.1 == c.number with
  | some e => e.2 < b0
  | none => true

/-- REPORT_CAST: the latest cast that the store holds durable and whose first pause began before b0 (Table 5.7). -/
def State.castBefore (s : State) (b0 : Nat) : Word :=
  match s.nv.casts.find? (s.castIsBefore b0) with
  | some c => pack [(63, 1, 1), (0, 32, c.number.toNat)]
  | none => 0

/-- TAINT: the oldest computed report is published once the one before is acknowledged (R174, R175); the
digest slots it concerns fail (Table 12.3). -/
def State.taintPublish (s : State) : State :=
  match s.contain.waiting, s.contain.ready with
  | false, r :: rest =>
    let s := { s with contain.ready := rest, contain.report := some r, contain.waiting := true
                      contain.reportCast := s.castBefore r.det.b0 }
    let s := if r.exceeded then s.bump Reg.containExceeded else s
    (s.raiseDetection r.det 0x0040 r.sum).digestTaint r.has
  | _, _ => s

/-- REPORT_ACK: only the published report's REPORT_ID acknowledges it (R175). -/
def State.reportAck (s : State) (v : Word) : State :=
  match s.contain.report with
  | some r => if fld v 15 0 == r.id.toNat then { s with contain.waiting := false } else s
  | none => s

/-! ### Tile page registers (Table 5.9) -/

/-- TAINT_STATE of tile `t`. -/
def State.taintState (s : State) (t : Nat) : Word :=
  match s.contain.report with
  | none => 0
  | some r =>
    match tget none r.tiles t with
    | some x => pack [(48, 16, r.id.toNat), (3, 1, b2n x.peer), (2, 1, b2n x.host), (1, 1, b2n x.cmd.isNone), (0, 1, 1)]
    | none => pack [(48, 16, r.id.toNat)]

/-- TAINT_BEAT of tile `t`. -/
def State.taintBeat (s : State) (t : Nat) : Word :=
  match s.contain.report with
  | none => 0
  | some r => word (((tget none r.tiles t).map (·.f)).getD 0)

/-- A command's identifiers in the form of TAINT_CMD and REPORT_CMD. -/
def cmdWord (c : Option (BitVec 16 × BitVec 16 × BitVec 24)) : Word :=
  match c with
  | some (l, o, q) => pack [(48, 16, l.toNat), (32, 16, o.toNat), (0, 24, q.toNat)]
  | none => pack [(48, 16, 0xFFFF), (32, 16, 0xFFFF), (0, 24, 0xFF_FFFF)]

/-- TAINT_CMD of tile `t`. -/
def State.taintCmd (s : State) (t : Nat) : Word :=
  match s.contain.report with
  | none => 0
  | some r => cmdWord ((tget none r.tiles t).bind (·.cmd))

/-! ### Meanings -/

/-- The dispatch phase stands after its patina actions: none of this beat waits (R168). -/
def State.afterPatina (s : State) : Bool :=
  4 ≤ s.time.phase && s.time.phase < 7 && s.cyc ≤ 7935 && s.map.actions.isEmpty && s.life.shutdownEvent.isNone

/-- TAINT_COMPUTATION, in the dispatch phase before the orders; DISPATCH starts one too if it is due then. -/
def execTaintComputation (s : State) : Host.Outcome State Fault Refusal :=
  doWhen (s.ready && s.afterPatina) (fun s => (s.toCycle 5632).taintStart) s

/-- TAINT_CLOSURE. -/
def execTaintClosure (s : State) : Host.Outcome State Fault Refusal := doWhen s.ready State.taintClose s

/-- TAINT, in the status posting phase before its messages; STATUS_POSTING publishes too if a report is ready then. -/
def execTaint (s : State) : Host.Outcome State Fault Refusal :=
  doWhen (s.ready && s.time.phase == 7) (fun s => (s.toCycle 7936).taintPublish) s

end Sys2Proof.Machine
end

