-- ==== Sys2Proof/Machine/Maq.lean ====
section
/-! DEFINITION. Maquette spot checks (chapter 6). -/

namespace Sys2Proof.Machine

/-- OP code of MAQ_SET (Table 3.5). -/
def opMAQ_SET : Nat := 0x12

/-! ### Hosts (R182 to R185) -/

/-- Patina score of a tile (R248). -/
def State.score (s : State) (t : Nat) : Nat := ((s.tile t).pat.acc).toNat / 2 ^ 16

/-- A tile holds a stagger slot (R232). -/
def State.inSlot (s : State) (t : Nat) : Bool :=
  s.chisel.slots.any fun e => match e.2 with | some x => x.tile == t | none => false

/-- Rows set in ROW_BAD. -/
def rowCount (v : BitVec 66) : Nat := ((List.range 66).filter fun r => v.getLsbD r).length

/-- The tile meets every condition of R182. -/
def State.hostOk (s : State) (t : Nat) : Bool :=
  let x := s.tile t
  t < numTiles && (s.logical t).isNone && !s.fenced t && !x.chisel.inSession && x.chisel.state != 10 &&
  !x.chisel.lastFailed && s.score t < fld (s.inForce Reg.patinaThresh) 31 16 && rowCount x.chisel.rowBad ≤ 2

/-- A maquette session uses the tile, as source, host or referee (R185). -/
def State.inMaq (s : State) (t : Nat) : Bool :=
  s.maq.sessions.any fun e => match e.2 with
    | some x => x.host == t || x.source == t || x.referee == some t
    | none => false

/-- The tile is the source of a session. -/
def State.isSource (s : State) (t : Nat) : Bool :=
  s.maq.sessions.any fun e => match e.2 with | some x => x.source == t | none => false

/-- Sessions in use. -/
def State.maqActive (s : State) : Nat := (s.maq.sessions.filter fun e => e.2.isSome).length

/-- The nearest of some tiles to `t`, the lowest index on a tie. -/
def nearest (t : Nat) (ts : List Nat) : Option Nat :=
  ts.foldl (fun b u => match b with
    | none => some u
    | some v => if gridDist t u < gridDist t v || (gridDist t u == gridDist t v && u < v) then some u else some v) none

/-- Nearest in the tile's own region, else of all (R185, R215). -/
def nearestByRegion (t : Nat) (ts : List Nat) : Option Nat :=
  match nearest t (ts.filter fun u => regionOf u == regionOf t) with
  | some u => some u
  | none => nearest t ts

/-- Tiles that may become maquette host or referee now: eligible, and in neither a session nor a stagger
slot (R182, R185, R203). Eligibility is that of the last patina update. -/
def State.freeHosts (s : State) : List Nat :=
  allTiles.filter fun t => (s.tile t).maq.eligible && s.hostOk t && !s.inMaq t && !s.inSlot t

/-- Eligible hosts (Table 6.7). -/
def State.hostCount (s : State) : Nat := (allTiles.filter fun t => (s.tile t).maq.eligible).length

/-- At every patina update the hub judges eligibility again, and MAQ_HOSTS_LOW rises when the count falls
below HOST_MIN (R182, R184). -/
def State.hostUpdate (s : State) : State :=
  let s := allTiles.foldl (fun s t =>
    let e := s.hostOk t
    if (s.tile t).maq.eligible == e then s else s.modTile t fun x => { x with maq.eligible := e }) s
  let n := s.hostCount
  let low := decide (n < fld (s.reg Reg.maqHostMin) 7 0)
  let s := if low && !s.maq.low then
      s.raiseHub 0x0052 .note (pack [(8, 8, fld (s.reg Reg.maqHostMin) 7 0), (0, 8, n)]) else s
  { s with maq.low := low }

/-! ### Counting commands (R186 to R190) -/

/-- The command is eligible for sampling (R186, R197). -/
def State.sampleable (s : State) (c : Cmd) : Bool :=
  c.computes && c.sealedIn && !c.nearBank &&
  c.operandBytes ≤ fld (s.inForce Reg.maqMaqCtl) 35 28 * 1048576

/-- The drawn position of window `w` of tile `t` with exponent `k` (R187). -/
def position (seed : Word) (t w k : Nat) : Nat :=
  (mix64 (seed ^^^ word (t <<< 48) ^^^ word w)).toNat % 2 ^ k

/-- Count in a tile's MAQ_COUNTS (Table 6.10): the field at `lo` saturates at 16 bits. -/
def State.maqTally (s : State) (t lo : Nat) : State :=
  s.modMaq t fun m => { m with counts := setFld m.counts (lo + 15) lo (satAdd 16 (fld m.counts (lo + 15) lo) 1) }

/-- The window that the tile's next eligible command belongs to: a change of exponent since Ready, where the
tile had `k0`, ends the one in progress (R189), and a window takes the seed at its start (R187). -/
def MaqTile.window (m : MaqTile) (k0 k : Nat) (seed : Word) : MaqTile :=
  if m.winExp.getD k0 == k then
    { m with winExp := some k, winSeed := if m.count == 0 then seed else m.winSeed }
  else { m with winExp := some k, win := m.win + 1, count := 0, winSeed := seed }

/-- A DUE of tile `t` that no host was assigned to, in its open counts, in a summary on its way or at the hub. -/
def State.dueOpen (s : State) (t : Nat) : Bool :=
  (s.tile t).core.sum.due || ((s.tile t).core.sums.any (·.due)) || (s.tile t).maq.due.isSome

/-- A new DUE: one that is still unassigned is counted once as MISSED and dropped (R190). -/
def State.newDue (s : State) (t : Nat) : State :=
  let s := if s.dueOpen t then (s.bump Reg.maqMissed).maqTally t 0 else s
  (s.modMaq t fun m => { m with due := none }).modCore t fun c =>
    { c with sum.due := true, sums := c.sums.map fun x => { x with due := false } }

/-- One eligible command is counted; DUE comes at the drawn position, except while a session is armed or
runs on the tile (R187, R190). -/
def State.maqCount (s : State) (t : Nat) : State :=
  let k := s.effExp t
  let m := (s.tile t).maq.window s.maq.exp0 k (s.reg Reg.maqSeed)
  let busy := m.role == 1 || m.role == 2
  let due := k != 15 && !busy && m.count == position m.winSeed t m.win k
  let m' := if k != 15 && m.count + 1 == 2 ^ k then { m with win := m.win + 1, count := 0 }
            else { m with count := m.count + 1 }
  let s := s.modMaq t fun _ => m'
  if due then s.newDue t else s

/-! ### Sessions -/

/-- OPERAND of MAQ_SET (Table 6.11). -/
def maqOperand (func slot host logical src exp : Nat) : BitVec 96 :=
  opack [(92, 4, func), (87, 5, slot), (76, 11, host), (66, 10, logical), (55, 11, src), (0, 4, exp)]

/-- The hub sends a MAQ_SET (R211). -/
def State.maqSend (s : State) (func slot host logical src exp : Nat) (dests : BitVec 1152)
    (order : Option Nat) : State :=
  s.hubSend { op := opMAQ_SET, vc := 1, operand := maqOperand func slot host logical src exp, dests, order }

/-- Outcome of a session (Table 6.2). -/
inductive MaqOut where
  | agree | missed | resolved
  | abandoned (reason : Nat)
  deriving DecidableEq, Repr

/-- A session ends: it is counted, an abandon is reported, and the slot closes; its pairing is removed in
the next dispatch (R202). -/
def State.maqEnd (s : State) (k : Nat) (o : MaqOut) : State :=
  match s.session k with
  | none => s
  | some x =>
    if x.phase == 4 then s
    else
      let s := s.setSession k (some { x with phase := 4 })
      match o with
      | .agree => (s.bump Reg.maqAgreed).maqTally x.source 32
      | .missed => (s.bump Reg.maqMissed).maqTally x.source 0
      | .resolved => s
      | .abandoned r =>
        let s := (s.bump Reg.maqAbandoned).maqTally x.source 16
        s.raise ((mkRec s.time.time 0x0051 x.source uNODE .info
          (pack [(60, 4, r), (40, 11, x.host), (0, 24, (x.cmd.map (·.cseq.toNat)).getD 0xFF_FFFF)])).ofCmd
            (x.cmd.map cmdIds))

/-- More than ARM_TIMEOUT beats have passed since the source was armed (R190). -/
def State.armOver (s : State) (x : Session) : Bool :=
  match x.armBeat with
  | some a => a + fld (s.inForce Reg.maqMaqCtl) 47 40 < s.beat
  | none => false

/-- The armed source of a session that has not ended samples this command, and its descriptor goes to the host (R190,
R193); once ARM_TIMEOUT is over the session ends as MISSED. -/
def State.maqSample (s : State) (t : Nat) (c : Cmd) : State :=
  let k := (s.tile t).maq.slot
  match s.session k with
  | some x =>
    if x.phase != 0 then s
    else if s.armOver x then s.maqEnd k .missed
    else
      let s := s.setSession k (some { x with phase := 1, cmd := some c, srcBeat := s.beat })
      (((s.modMaq t fun m => { m with role := 2 }).takeDescr x.host c).bump Reg.maqSampled).maqTally t 48
  | none => s

/-- What a command's start means for maquette: an armed source samples it, and the window counts it. -/
def State.maqBegin (s : State) (t : Nat) (c : Cmd) : State :=
  if s.sampleable c then
    let s := if (s.tile t).maq.role == 1 then s.maqSample t c else s
    if (s.logical t).isSome && s.life.stage == 5 then s.maqCount t else s
  else s

/-- Do something with every session that is in use, in slot order. -/
def State.eachSession (s : State) (f : State → Nat → Session → State) : State :=
  (List.range 32).foldl (fun s k => match s.session k with | some x => f s k x | none => s) s

/-- The due tiles, in the order in which hosts are assigned: highest patina, earliest DUE, lowest index
(R190). -/
def State.dueTiles (s : State) : List Nat :=
  let before (a b : Nat) : Bool :=
    let d (t : Nat) : Nat := ((s.tile t).maq.due).getD 0
    s.score b < s.score a || (s.score a == s.score b && (d a < d b || (d a == d b && a ≤ b)))
  sortBy before (allTiles.filter fun t => (s.tile t).maq.due.isSome)

/-- A tile that may become a source: it carries a logical tile, has no session, and is neither fenced nor
in a chisel session (R185, R211). -/
def State.sourceOk (s : State) (t : Nat) : Bool :=
  (s.logical t).isSome && !s.inMaq t && !s.fenced t && !(s.tile t).chisel.inSession

/-- Assign a host to one due tile if a host and a slot are free (R185, R190, R191). -/
def State.maqAssign (s : State) (t : Nat) : State :=
  if s.sourceOk t && s.maqActive < fld (s.inForce Reg.maqMaqCtl) 62 56 then
    match nearestByRegion t s.freeHosts, (List.range 32).find? fun k => (s.session k).isNone with
    | some h, some k =>
      let l := (s.logical t).getD 0
      let s := s.modMaq t fun m => { m with due := none }
      let s := s.setSession k (some { host := h, source := t, logical := l })
      s.maqSend 0 k h l t 0 allNodes none
    | _, _ => s
  else s

/-- MAQ_HOST_ASSIGN (R190). -/
def State.maqAssignAll (s : State) : State :=
  if bit (s.inForce Reg.maqMaqCtl) 0 then s.dueTiles.foldl State.maqAssign s else s

/-! ### MAQ_SET at a node (R211, R264) -/

/-- The node's answer to an arm function. -/
def State.armOk (s : State) (t : Nat) : Bool := !(s.tile t).core.router && !(s.tile t).chisel.inSession

/-- The session of slot `k` ends in the next dispatch with a reason: its arm found the tile fenced or in a
chisel session (R211). -/
def State.armFailed (s : State) (k reason : Nat) : State :=
  match s.session k with
  | some x => s.setSession k (some { x with failed := reason })
  | none => s

/-- A PAIR_ADD or ARM_SOURCE issued under an older map is answered REJECTED: the hub issues it again under
the present one, or ends a session whose logical tile maps elsewhere (R211, R264). -/
def State.maqReissue (s : State) (t k func : Nat) : State :=
  match s.session k with
  | some x =>
    if x.phase == 4 then s
    else if s.phys x.logical == x.source then s.maqSend func k x.host x.logical x.source 0 (oneNode t) none
    else s.armFailed k 3
  | none => s

/-- ARM_REFEREE reaches the referee: the host sends it the descriptor and its staged operands (R204). -/
def State.refereeArm (s : State) (t k : Nat) (src : Nat) : State :=
  match s.session k with
  | some x =>
    let os := (s.tile x.host).maq.staged
    (s.modMaq t fun m => { m with role := 4, partner := src, slot := k, descr := x.cmd, begun := false, staged := os }).bump
      Reg.maqMirrorBytes (blockBytes * os.length)
  | none => s.modMaq t fun m => { m with role := 4, partner := src, slot := k }

/-- MAQ_SET at node `t`: FUNC, and the MAPGEN it was issued under. -/
def State.nodeMaq (s : State) (t func : Nat) (mapgen : BitVec 16) (o : BitVec 96) : State :=
  let k := ofld o 91 87
  let host := ofld o 86 76
  let src := ofld o 65 55
  let stale := genNewer (s.tile t).core.nodeGen.toNat mapgen.toNat
  match func with
  | 0 =>
    if stale then s.maqReissue t k 0
    else s.modMaq t fun m => { m with pairs := tset (0, 0, 0) m.pairs k (host, ofld o 75 66, src) }
  | 1 => s.modMaq t fun m => { m with pairs := terase m.pairs k }
  | 2 =>
    if stale then s.maqReissue t k 2
    else if s.armOk t then s.modMaq t fun m => { m with role := 1, partner := host, slot := k } else s.armFailed k 3
  | 3 =>
    if s.armOk t then
      s.modMaq t fun m => { m with role := 3, partner := src, slot := k, descr := none, begun := false, staged := [] }
    else s.armFailed k 4
  | 4 => if s.armOk t then s.refereeArm t k src else s.armFailed k 4
  | 5 => if (s.tile t).maq.slot == k then s.maqDiscard t else s
  | 6 => s.modMaq t fun m => { m with config := ofld o 3 0 }
  | _ => s

/-! ### Records and comparison (R199 to R201) -/

/-- The result record of a command's outputs (R199). -/
def maqRecord (outs : List OutBlock) : MaqRecord :=
  { seals := outs.map (·.sealw), units := outs.map (·.unit)
    digest := crc64 (outs.flatMap fun o => packBlock o.fmt.toNat o.elems) }

/-- The compared fields of a seal word: GEN, CLASS, VALID and RESIDUE (R200). -/
def comparedSeal (w : Word) : Nat := fld w 43 0

/-- The first differing block of two records: differing in a compared field or missing from one. -/
def firstDiff (a b : MaqRecord) : Option Nat :=
  (List.range (max a.seals.length b.seals.length)).find? fun i =>
    a.seals.length ≤ i || b.seals.length ≤ i || comparedSeal (a.seals.getD i 0) != comparedSeal (b.seals.getD i 0)

/-- The check AGREES (R200). -/
def maqAgrees (a b : MaqRecord) : Bool := (firstDiff a b).isNone && a.digest == b.digest

/-- The unit that made the first differing block of a tile's own record (R206). -/
def wrongUnit (own other : MaqRecord) : Nat :=
  match firstDiff own other with
  | none => uNI
  | some i => if sealClass (own.seals.getD i 0) == 3 && own.units.getD i uVECTOR == uVECTOR then uVECTOR else uARRAY

/-- The node of session slot `k`'s host reports an outcome in its beat summary, and the session is COMPARING (R202,
Table 8.2). -/
def State.maqReport (s : State) (k : Nat) (x : Session) (out reason : Nat) : State :=
  (s.setSession k (some { x with phase := 2 })).modCore x.host fun c => { c with
    sum.maqOut := out, sum.maqReason := reason, sum.maqSlot := k, sum.maqPartner := x.source
    sum.maqCseq := (x.cmd.map (·.cseq)).getD 0xFF_FFFF }

/-- The source's command ended more than DEADLINE beats ago (R201). -/
def State.maqLate (s : State) (x : Session) : Bool :=
  match x.endBeat with
  | some e => e + fld (s.inForce Reg.maqMaqCtl) 55 48 < s.beat
  | none => false

/-- MAQ_COMPARE: the host, with both records, reports AGREE or DISAGREE; its own halt, a missing operand or a late
comparison abandons the check (R196, R198, R200, R201). -/
def State.maqCompare (s : State) (k : Nat) : State :=
  match s.session k with
  | none => s
  | some x =>
    if x.phase != 1 then s
    else if (s.tile x.host).core.halted then s.maqReport k x 3 7
    else if s.operandMissing x then s.maqReport k x 3 1
    else
      match x.src, x.hostRec with
      | some r, some h => if s.maqLate x then s.maqReport k x 3 2 else s.maqReport k x (if maqAgrees r h then 1 else 2) 0
      | _, _ => s

/-- What the hub does with an outcome that the summary of tile `t` brought: of the host of a session that awaits it
(R202). -/
def State.maqOutcome (s : State) (t : Nat) (sm : Summary) : State :=
  match s.session sm.maqSlot with
  | none => s
  | some x =>
    if x.phase != 2 || x.host != t then s
    else
      match sm.maqOut with
      | 1 => s.maqEnd sm.maqSlot .agree
      | 2 => (s.bump Reg.maqDisagreed).setSession sm.maqSlot (some { x with phase := 3, disBeat := s.beat })
      | 3 => s.maqEnd sm.maqSlot (.abandoned sm.maqReason)
      | _ => s

/-- MAQ_DEADLINE: the comparison is not reached within DEADLINE beats of the source command's end (R201). -/
def State.maqDeadline (s : State) (k : Nat) : State :=
  match s.session k with
  | some x => if x.phase == 1 && s.maqLate x then s.maqEnd k (.abandoned 2) else s
  | none => s

/-- MAQ_ARM_TIMEOUT: no eligible command began within ARM_TIMEOUT beats of the arm (R190). -/
def State.maqArmTimeout (s : State) (k : Nat) : State :=
  match s.session k with
  | some x => if x.phase == 0 && s.armOver x then s.maqEnd k .missed else s
  | none => s

/-! ### Arbitration (R204 to R206) -/

/-- A tile taken to be wrong: a detection, a patina charge and a count (R206). -/
def State.maqCharge (s : State) (t unit b0 : Nat) (cmd : Option Cmd) : State :=
  let s := s.detect { tile := t, unit, kind := 1, b0, cmd := cmd.map cmdIds }
  (s.modPat t fun p => { p with maqCharge := p.maqCharge + 1 }).count t 11 1

/-- The verdict of Table 6.4: 0 SOURCE, 1 HOST, 2 UNRESOLVED. -/
def maqVerdict (src host : MaqRecord) (ref : Option MaqRecord) : Nat :=
  match ref with
  | none => 2
  | some r => if maqAgrees r host && !maqAgrees r src then 0 else if maqAgrees r src && !maqAgrees r host then 1 else 2

/-- Arbitration ends: MAQ_DISAGREE, the charges, and the session's end (R205 to R207). -/
def State.maqArbitrate (s : State) (k : Nat) (ref : Option MaqRecord) : State :=
  match s.session k with
  | none => s
  | some x =>
    let a := x.src.getD { seals := [], units := [], digest := 0 }
    let b := x.hostRec.getD { seals := [], units := [], digest := 0 }
    let v := maqVerdict a b ref
    let wrong := if v == 1 then x.host else x.source
    let unit := if v == 1 then wrongUnit b a else wrongUnit a b
    let d := firstDiff a b
    let i := d.getD 0
    let detail := pack [(62, 2, v), (51, 11, if v == 1 then x.source else x.host), (40, 11, x.referee.getD 0x7FF),
      (32, 8, i), (31, 1, b2n d.isNone),
      (0, 31, if d.isNone then 0 else sealResidue (a.seals.getD i 0) ^^^ sealResidue (b.seals.getD i 0))]
    let s := s.raise ((mkRec s.time.time 0x0050 wrong unit .fault detail).ofCmd (x.cmd.map cmdIds))
    let s := if v == 2 then s.bump Reg.maqUnresolved else s
    let s := if v != 1 then s.maqCharge x.source (wrongUnit a b) x.srcBeat x.cmd else s
    let s := if v != 0 then s.maqCharge x.host (wrongUnit b a) (x.hostBeat.getD x.srcBeat) x.cmd else s
    s.maqEnd k .resolved

/-- A session whose arm failed ends, arbitration without its referee UNRESOLVED; the pairings of closed sessions are
removed by PAIR_DEL, and END goes to their tiles (R202, R205, R211). -/
def State.maqClose (s : State) : State :=
  let s := s.eachSession fun s k x =>
    if x.failed == 0 then s else if x.phase == 3 then s.maqArbitrate k none else s.maqEnd k (.abandoned x.failed)
  s.eachSession fun s k x =>
    if x.phase == 4 && !x.closed then
      let s := s.setSession k (some { x with closed := true })
      let s := s.maqSend 1 k x.host x.logical x.source 0 allNodes none
      (x.source :: x.host :: x.referee.toList).foldl
        (fun s t => s.maqSend 5 k x.host x.logical x.source 0 (oneNode t) none) s
    else s

/-- MAQ_REFEREE_ASSIGN: the nearest free host is armed as referee; without one for REF_WAIT beats, or with
the host fenced, arbitration ends UNRESOLVED (R203, R204). -/
def State.maqReferee (s : State) (k : Nat) : State :=
  match s.session k with
  | some x =>
    if x.phase == 3 && x.referee.isNone then
      let limit := x.disBeat + fld (s.inForce Reg.maqMaqCtl) 39 36
      if s.fenced x.host || limit < s.beat then s.maqArbitrate k none
      else
        match nearestByRegion x.source (s.freeHosts.filter fun t => t != x.host && t != x.source) with
        | some r =>
          let s := s.setSession k (some { x with referee := some r, refBeat := s.beat })
          s.maqSend 4 k r x.logical x.source 0 (oneNode r) none
        | none => if limit ≤ s.beat then s.maqArbitrate k none else s
    else s
  | none => s

/-- MAQ_ARBITRATION: the referee's record is there, or the referee halted or missed DEADLINE (R204, R205). -/
def State.maqArbitration (s : State) (k : Nat) : State :=
  match s.session k with
  | some x =>
    match x.phase == 3, x.referee with
    | true, some r =>
      let late := decide (x.refBeat + fld (s.inForce Reg.maqMaqCtl) 55 48 < s.beat)
      if late || (s.tile r).core.halted || s.fenced x.host then s.maqArbitrate k none
      else match x.refRec with
        | some a => s.maqArbitrate k (some a)
        | none => s
    | _, _ => s
  | none => s

/-! ### Sessions and other work (R203) -/

/-- A fence of tile `t` reaches its sessions (Table 6.3). -/
def State.maqFenced (s : State) (t : Nat) : State :=
  s.eachSession fun s k x =>
    if x.phase == 4 then s
    else if x.source == t && x.src.isNone then s.maqEnd k (.abandoned 3)
    else if x.host == t && x.phase ≤ 1 then s.maqEnd k (.abandoned 4)
    else if x.host == t && x.phase == 3 then s.maqArbitrate k none
    else if x.referee == some t && x.phase == 3 then s.maqArbitrate k none
    else s

/-- A promotion takes tile `t` as its target: a host ends its session, a referee leaves arbitration UNRESOLVED (Table
6.3, Table 6.4). -/
def State.maqPromoted (s : State) (t : Nat) : State :=
  s.eachSession fun s k x =>
    if x.phase == 4 then s
    else if x.host == t then s.maqEnd k (.abandoned 5)
    else if x.referee == some t && x.phase == 3 then s.maqArbitrate k none
    else s

/-- RESTORE and REPOSE end every session (Table 6.3). -/
def State.maqEndAll (s : State) (reason : Nat) : State :=
  s.eachSession fun s k x => if x.phase != 4 then s.maqEnd k (.abandoned reason) else s

/-- The source halted or was stopped without completing (R199), or was released (R279). -/
def State.maqSourceHalt (s : State) (t : Nat) : State :=
  s.eachSession fun s k x =>
    if x.source == t && x.phase == 1 && x.src.isNone then s.maqEnd k (.abandoned 6) else s

/-- The source of a session is released: SOURCE_HALT, also where the host has its result record (R279). -/
def State.maqReleased (s : State) (t : Nat) : State :=
  s.eachSession fun s k x => if x.source == t && x.phase != 4 then s.maqEnd k (.abandoned 6) else s

/-- Every acknowledgement of a MAQ_SET is in: after PAIR_ADD the host is armed and then the source, and
after PAIR_DEL the slot is free (R191, R202). -/
def State.maqAcked (s : State) (o : BitVec 96) : State :=
  let k := ofld o 91 87
  match ofld o 95 92, s.session k with
  | 0, some x =>
    let again := (s.arm.sent ++ s.arm.queue).any fun p => p.op.toNat == opMAQ_SET && ofld p.operand 95 92 == 0 && ofld p.operand 91 87 == k
    if x.phase == 0 && x.armBeat.isNone && x.failed == 0 && !again then
      let s := s.setSession k (some { x with armBeat := some s.beat })
      let s := s.maqSend 3 k x.host x.logical x.source 0 (oneNode x.host) none
      s.maqSend 2 k x.host x.logical x.source 0 (oneNode x.source) none
    else s
  | 1, some x => if x.phase == 4 then s.setSession k none else s
  | _, _ => s

/-- The sampled command of a source ends: its result record goes to the host (R199). -/
def State.maqSourceEnd (s : State) (t : Nat) (c : Cmd) (outs : List OutBlock) : State :=
  let m := (s.tile t).maq
  if m.role == 2 then
    match s.session m.slot with
    | some x =>
      if x.cmd == some c && x.src.isNone then
        s.setSession m.slot (some { x with src := some (maqRecord outs), endBeat := some s.beat })
      else s
    | none => s
  else s

/-! ### The run of a host or referee (R198, R204) -/

/-- A host or referee may start: it holds the descriptor of the sampled command and has not begun. -/
def State.mayHost (s : State) (t : Nat) (c : Cmd) : Bool :=
  let m := (s.tile t).maq
  let k := (s.tile t).core
  s.ready && t < numTiles && s.servesMaq t && m.descr == some c && !m.begun && k.cur.isNone && !k.router && !k.frozen &&
  !s.regionStopped (regionOf t)

/-- It starts: the beat of a host's own run is that of its start (R206), and a referee's run is counted (Table 6.7). -/
def State.hostBegin (s : State) (t : Nat) (c : Cmd) : State :=
  let m := (s.tile t).maq
  let s := (s.modMaq t fun m => { m with begun := true }).modCore t fun k => { k with cur := some c, curTime := s.time.time }
  match s.session m.slot with
  | some x => if m.role == 3 then s.setSession m.slot (some { x with hostBeat := some s.beat }) else s.bump Reg.maqRefereeRuns
  | none => s

/-- It has finished the command: it forms its record (R199), and its outputs stay where they are until the session
ends (R183). -/
def State.hostEnd (s : State) (t : Nat) (outs : List OutBlock) : State :=
  let m := (s.tile t).maq
  let s := s.modCore t fun k => { k with cur := none }
  match s.session m.slot with
  | some x =>
    s.setSession m.slot (some (if m.role == 3 then { x with hostRec := some (maqRecord outs) }
                               else { x with refRec := some (maqRecord outs) }))
  | none => s

/-! ### Meanings -/

/-- MAQ_HOST_ASSIGN, in the dispatch phase (R190). -/
def execMaqHostAssign (s : State) : Host.Outcome State Fault Refusal :=
  doWhen (s.ready && !s.inRepose && s.dispatching) State.maqAssignAll s

/-- MAQ_ARM_TIMEOUT. -/
def execMaqArmTimeout (k : Nat) (s : State) : Host.Outcome State Fault Refusal :=
  doWhen s.ready (fun s => s.maqArmTimeout k) s

/-- MAQ_COMPARE, by tile `host`, which must be the session's host. -/
def execMaqCompare (k host : Nat) (s : State) : Host.Outcome State Fault Refusal :=
  doWhen (s.ready && (s.session k).any fun x => x.host == host) (fun s => s.maqCompare k) s

/-- MAQ_DEADLINE. -/
def execMaqDeadline (k : Nat) (s : State) : Host.Outcome State Fault Refusal :=
  doWhen s.ready (fun s => s.maqDeadline k) s

/-- MAQ_REFEREE_ASSIGN, in the dispatch phase (R204). -/
def execMaqRefereeAssign (k : Nat) (s : State) : Host.Outcome State Fault Refusal :=
  doWhen (s.ready && s.dispatching) (fun s => s.maqReferee k) s

/-- MAQ_ARBITRATION, over tile `referee`, which must be the session's referee. -/
def execMaqArbitration (k referee : Nat) (s : State) : Host.Outcome State Fault Refusal :=
  doWhen (s.ready && (s.session k).any fun x => x.referee == some referee) (fun s => s.maqArbitration k) s

/-- SUBSCRIBED_COPY_DROP: the copy is lost, and the check with it when the host misses the block (R196). -/
def execSubscribedCopyDrop (k : Nat) (s : State) : Host.Outcome State Fault Refusal :=
  doWhen s.ready (fun s => s.copyDrop k) s

end Sys2Proof.Machine
end

