-- ==== Sys2Proof/Machine/Nvme.lean ====
section
/-! DEFINITION. Chimin as the host of the cast store's NVMe device: the admin queue pair and the 8 I/O queue pairs
in plinth SRAM, and the Read, Write and Flush commands of every transfer with the store (R40, R274, R342, R343). -/

namespace Sys2Proof.Machine

/-- Entries of a queue (R40). -/
def nvmeDepth : Nat := 64

/-- I/O queue pairs (R40). -/
def nvmePairs : Nat := 8

/-- A command takes the next entry of its queue, in place of the one it held 64 commands before. -/
def NvmePair.submit (q : NvmePair) (c : NvmeCmd) : NvmePair :=
  { q with entries := (q.entries ++ [c]).drop (q.entries.length + 1 - nvmeDepth), tail := (q.tail + 1) % nvmeDepth }

/-- The device has completed every command of the queue. -/
def NvmePair.complete (q : NvmePair) : NvmePair := { q with head := q.tail }

/-- One command on an I/O queue pair, to its completion. Which of the 8 pairs takes it, the spec leaves open. -/
def State.nvmeCmd (s : State) (c : NvmeCmd) : State :=
  let k := Config.nvmePair s.cast.nvmeCount % nvmePairs
  { s with cast.nvme := s.cast.nvme.modify k fun q => (q.submit c).complete
           cast.nvmeCount := s.cast.nvmeCount + 1 }

/-- The commands of a transfer, in order. -/
def State.nvmeRun (s : State) (cs : List NvmeCmd) : State := cs.foldl State.nvmeCmd s

/-- The pairs stand empty: a device has answered at S1. -/
def State.nvmeStart (s : State) : State :=
  { s with cast.nvmeAdmin := {}, cast.nvme := List.replicate nvmePairs {}, cast.nvmeCount := 0 }

/-! ### Where the store's blocks lie (Table 11.1) -/

/-- The LBA, from `base` on, of the copy that is written with SEQ `q`: on equal SEQ the first copy is written first,
and the copies alternate (R274). -/
def copyLba (base : Nat) (q : Word) : Nat := base + (q.toNat + 1) % 2

/-- The LBA of place `n` of the own log, which goes round. -/
def State.logLba (s : State) (n : Nat) : Nat := 4 + (s.nv.logStart + n) % max 1 s.cast.logSize

/-- The place of data block `p` of a cast record in its stripes of 511 data blocks and a seal block (R342). -/
def stripePlace (p : Nat) : Nat := p + p / 511

/-- A block of 4,088 bytes, filled up with zeros, and the CRC-64 over them (R334, R335). -/
def crcBlock (bs : List Byte) : List Byte :=
  let body := (bs ++ List.replicate 4088 0).take 4088
  body ++ leBytes 8 (crc64 body).toNat

/-- Writes of the data blocks of a cast record from number `p` on, in a record that starts at place `at_` of the log:
one for each block, in order. -/
def State.logWrites (s : State) (at_ p : Nat) (blocks : List (List Byte)) : List NvmeCmd :=
  ((List.range blocks.length).zip blocks).map fun e =>
    { op := .write, lba := s.logLba (at_ + stripePlace (p + e.1)), count := 1, data := e.2 }

/-- The seal blocks of a record: the seal words of 511 data blocks in order, and their CRC-64 (R342). -/
def sealBlocks (words : List Word) : List (List Byte) :=
  (List.range ((words.length + 510) / 511)).map fun k =>
    crcBlock (((words.drop (511 * k)).take 511).flatMap fun w => leBytes 8 w.toNat)

/-- Writes of the seal blocks of a record of `size` LBAs: the last one follows the data. -/
def State.sealWrites (s : State) (at_ size : Nat) (blocks : List (List Byte)) : List NvmeCmd :=
  ((List.range blocks.length).zip blocks).map fun e =>
    { op := .write, lba := s.logLba (at_ + min (e.1 * 512 + 511) (size - 1)), count := 1, data := e.2 }

/-- A Flush of namespace 1. -/
def nvmeFlush : NvmeCmd := { op := .flush, lba := 0, count := 0 }

/-- Commands of a drain: the bytes written count (Table 11.7). -/
def State.drainRun (s : State) (cs : List NvmeCmd) : State :=
  (s.nvmeRun cs).bump Reg.castBytesDrained ((cs.map fun c => if c.op = .write then c.count * blockBytes else 0).sum)

/-! ### The superblock (Table 11.1) -/

/-- LBAs of the chain in the own log. -/
def chainLbas (cs : List CastRec) : Nat := (cs.map (·.size)).sum

/-- The superblock copy in use, as a block of the store. -/
def NonVol.superNow (v : NonVol) : SuperCopy :=
  { seq := v.superSeq, chip := v.storeChip, key := v.storeKey, pct := v.pct, logStart := v.logStart, castNum := v.castNum
    casts := v.casts }

/-- A superblock from the values of its fields, 8 bytes each, in the order of Table 11.1 (assumption 58). -/
def superBytes (seq chip key pct start free num lastSeg full : Nat) : List Byte :=
  crcBlock ([seq, chip, key, pct, start, free, num, lastSeg, full].flatMap (leBytes 8))

/-- The superblock that a copy is, in a log of `size` LBAs. -/
def SuperCopy.bytes (c : SuperCopy) (size : Nat) : List Byte :=
  let lba (n : Nat) : Nat := 4 + (c.logStart + n) % max 1 size
  let last := (c.casts.head?.map (·.lastSeg)).getD 0
  superBytes c.seq.toNat c.chip.toNat c.key.toNat (c.pct.getD 0) (lba 0) (lba (chainLbas c.casts)) (fld c.castNum 31 0)
    (lba (chainLbas c.casts.tail + stripePlace last)) (lba 0)

/-- The superblock copy with the lower SEQ is rewritten and flushed (R343); the copy that was in use stays beside
it, and a foreign chip's copies count as SEQ 0 (R274). Answers the commands of the store. -/
def State.superWrite (s : State) (c : SuperCopy) : State × List NvmeCmd :=
  let q : Word := (if s.nv.storeChip = Config.chipId then s.nv.superSeq else 0) + 1
  let c := { c with seq := q, chip := Config.chipId }
  ({ s with
      nv.superOther := s.nv.superNow, nv.superSeq := q, nv.storeChip := c.chip, nv.storeKey := c.key, nv.pct := c.pct
      nv.logStart := c.logStart, nv.castNum := c.castNum, nv.casts := c.casts },
    [{ op := .write, lba := copyLba 2 q, count := 1, data := c.bytes s.cast.logSize }, nvmeFlush])

end Sys2Proof.Machine
end

