-- ==== Sys2Proof/Machine/Time.lean ====
section
/-! DEFINITION. Synchronization of plinth time, SYNC_PPS and the watch over clock domains (chapter 2). -/

namespace Sys2Proof.Machine

/-- Counts of one second of plinth time (R62). -/
def ppsCounts : Int := 1024000000

/-- The chip acts as a time master: MASTER or ISOLATED (R62). -/
def State.isMaster (s : State) : Bool := s.time.state == 3 || s.time.state == 4

/-- Slew steps that one interval can hold at the rate of R53. -/
def ppsSteps : Int := 250000

/-- The counts by which a master slews the coming interval: those of the last one less its error, so that a constant
error of the oscillator is met by a constant slew (R62; the loop is assumption 46). -/
def ppsNext (rate err : Int) : Int := max (-ppsSteps) (min ppsSteps (rate - err))

/-- SYNC_PPS_EDGE: the edge is stamped, PPS_ERR is kept, and a master disciplines its counter and
judges the lock (R62, R63). PPS_ERR of an interval in which the load of R60 falls holds the jump, an error of more than
32 signed bits wraps, and an error above 1,024 after the lock leaves PPS_LOCK set, which only PPS_LOST clears
(assumption 46). -/
def State.ppsEdge (s : State) : State :=
  let now := s.time.time
  let err : Int := (now - s.time.ppsStamp).toInt - ppsCounts
  let seen := s.time.ppsSeen
  let slews := seen && s.isMaster && bit s.time.ctlInForce 2
  let good := if seen && -1024 ≤ err && err ≤ 1024 then s.time.ppsGood + 1 else 0
  let locks := s.isMaster && seen && !s.time.ppsLock && 3 ≤ good
  let s := { s with
    time.ppsErr := if seen then BitVec.ofInt 32 err else s.time.ppsErr
    time.slewPend := if slews then ppsNext s.time.ppsRate err else s.time.slewPend
    time.ppsRate := if slews then ppsNext s.time.ppsRate err else 0
    time.ppsGood := if s.time.ppsLost then 0 else good
    time.ppsLock := s.time.ppsLock || locks
    time.ppsStamp := now, time.ppsSeen := true, time.ppsBeats := 0, time.ppsLost := false }
  if locks then s.raiseHub 0x0016 .info (BitVec.ofInt 64 err) else s

/-- PPS_LOST: no edge for 250,000 elapsed beats; a master also clears PPS_LOCK, runs on its own oscillator and
raises the event (R63). -/
def State.ppsLose (s : State) : State :=
  if s.time.ppsLost || s.time.ppsBeats < 250000 then s
  else
    let m := s.isMaster
    let s := { s with
      time.ppsLost := true, time.ppsGood := 0, time.ppsLock := s.time.ppsLock && !m, time.ppsRate := 0
      time.slewPend := if m then 0 else s.time.slewPend }
    if m then s.raiseHub 0x0015 .note s.time.ppsStamp else s

/-- A claim to be time master: chip ID, and whether by ROLE = MASTER (R56). -/
abbrev Claim := Word × Bool

/-- The better of two claims: ROLE = MASTER goes before AUTO, then the lower chip ID (R56). -/
def betterClaim (a b : Claim) : Claim :=
  if a.2 && !b.2 then a else if b.2 && !a.2 then b else if a.1.toNat ≤ b.1.toNat then a else b

/-- The chip's own claim under ROLE (R56). -/
def State.ownClaim (s : State) : Option Claim :=
  match fld s.time.ctlInForce 1 0 with
  | 1 => some (Config.chipId, true)
  | 2 => none
  | _ => some (Config.chipId, false)

/-- The best claim among the chip's own and those advertised. -/
def bestClaim (own : Option Claim) (advs : List ElectAdv) : Option Claim :=
  advs.foldl (fun b a =>
    match a.master with
    | none => b
    | some m => some (match b with | some c => betterClaim c (m, a.forced) | none => (m, a.forced))) own

/-- The uplink: the link that gives the fewest hops to the master, the lowest number on a tie (R57). -/
def bestUplink (m : Word) (advs : List ElectAdv) : Option ElectAdv :=
  advs.foldl (fun b a =>
    if a.master == some m then
      match b with
      | none => some a
      | some c => if a.hops < c.hops || (a.hops == c.hops && a.link < c.link) then some a else some c
    else b) none

/-- The state, uplink, depth and master after an election; a chip that is no follower has none (R57). A chip that
becomes a follower, or follows another master, counts its beats within the bound anew (R59, R61, assumption 46); a
tree deeper than 12 hops does not meet the bound. A follower goes on slewing toward its master, and a chip that
disciplines time by SYNC_PPS goes on while it remains one; no other chip slews (R58, R62). -/
def State.electSet (s : State) (st uplink depth : Nat) (m : Word) : State :=
  let was := st == 2 && s.time.state == 2 && s.time.masterId == m
  let pps := (st == 3 || st == 4) && s.isMaster && bit s.time.ctlInForce 2
  { s with time.state := st, time.uplink := uplink, time.depth := depth, time.masterId := m
           time.skewMet := st == 3 || st == 4 || (was && s.time.skewMet && depth ≤ 12)
           time.slewPend := if pps || was then s.time.slewPend else 0
           time.ppsRate := if pps then s.time.ppsRate else 0
           time.good := if was then s.time.good else 0
           time.missed := if was then s.time.missed else 0
           time.ppsLock := s.time.ppsLock && (st == 3 || st == 4) }

/-- TIME_SKEW (Table 2.4). -/
def State.raiseSkew (s : State) : State :=
  s.raiseHub 0x0013 .note (pack [(32, 32, s.time.offset.toNat), (0, 32, s.time.depth)])

/-- An election ends so; a fall of SKEW_MET raises TIME_SKEW (R57, R59). -/
def State.electTo (s : State) (st uplink depth : Nat) (m : Word) : State :=
  let t := s.electSet st uplink depth m
  if s.time.skewMet && !t.time.skewMet then t.raiseSkew else t

/-- The advertisements of an election: those that the command brings, and for other links those that ELECT packets
brought since the last one (R57, R114). -/
def State.electAdvs (s : State) (advs : List ElectAdv) : List ElectAdv :=
  advs ++ s.time.advs.filter fun a => !advs.any fun b => b.link == a.link

/-- A chip with ROLE = MASTER loses to another one: TIME_SPLIT, once for each chip to whom it loses (R56). -/
def State.timeSplit (s : State) (m : Option Word) : State :=
  match m with
  | some x => if s.time.split = m then s else { s with time.split := m }.raiseHub 0x0014 .fault x
  | none => { s with time.split := none }

/-- After Ready a follower has lost its master when no trained link advertises that master any more; the loss stands
until the chip follows one again or has raised TIME_MASTER (R61). -/
def State.masterGone (s : State) (advs : List ElectAdv) : Bool :=
  s.time.masterLost || (s.time.state == 2 && s.life.stage == 5 &&
    !advs.any fun a => s.trained a.link && a.master == some s.time.masterId)

/-- ELECT: the advertisements of one beat, of which only those on trained links count (R56, R57). MASTER_ID of a
chip in state LOCAL is its own ID (assumption 46). -/
def State.elect (s : State) (advs : List ElectAdv) : State :=
  let advs := s.electAdvs advs
  let s := { s with time.ctlInForce := s.reg Reg.beatSyncCtl, time.advs := [], time.masterForced := false
                    time.masterLost := s.masterGone advs }
  if !(List.range numLinks).any s.trained then (s.electTo 4 0x3F 0 Config.chipId).timeSplit none
  else
    let advs := advs.filter fun a => s.trained a.link && a.master != some Config.chipId
    match bestClaim s.ownClaim advs with
    | none => (s.electTo 0 0x3F 0 Config.chipId).timeSplit none
    | some (m, forced) =>
      if m == Config.chipId then (s.electTo 3 0x3F 0 Config.chipId).timeSplit none
      else
        match bestUplink m advs with
        | none => (s.electTo 0 0x3F 0 Config.chipId).timeSplit none
        | some a =>
          ({ s with time.masterForced := forced, time.masterLost := false }.electTo 2 a.link (a.hops + 1) m).timeSplit
            (if forced && fld s.time.ctlInForce 1 0 == 1 then some m else none)

/-- The offset to the upstream chip in units of 1/32 ps, from the four stamps and the calibrated asymmetry; one count
is 15,625/16 ps, 31,250 units (R58). -/
def timexUnits (x : TimexIn) : Int :=
  let d : Int := (x.upRecv - x.sent).toInt - (x.received - x.upSent).toInt
  d * 15625 - 32 * x.offsetPs.toInt

/-- The offset in whole picoseconds, rounded toward zero (R58, assumption 46). -/
def timexOffset (x : TimexIn) : Int := (timexUnits x).tdiv 32

/-- The offset in counts of plinth time: the nearest, a half toward zero (R58, assumption 46). -/
def timexCounts (x : TimexIn) : Int :=
  let n : Int := (((timexUnits x).natAbs + 15624) / 31250 : Nat)
  if 0 ≤ timexUnits x then n else -n

/-- SKEW_MET after an exchange or a missed one; its fall raises TIME_SKEW (R59). -/
def State.judgeSkew (s : State) (upMet : Bool) : State :=
  let met := s.time.depth ≤ 12 && 16 ≤ s.time.good && upMet
  let fell := s.time.skewMet && !met
  let s := { s with time.skewMet := met }
  if fell then s.raiseSkew else s

/-- TIMEX: a follower's exchange of the beat, or its loss (R58, R59, R114). OFFSET wraps beyond 32 signed bits
(assumption 46). -/
def State.timex (s : State) (x : Option TimexIn) : State :=
  if s.time.state != 2 then s
  else
    match x with
    | none =>
      let s := s.bump Reg.armSentLost
      let n := s.time.missed + 1
      let s := { s with time.missed := n, time.good := if 4 ≤ n then 0 else s.time.good }
      if 4 ≤ n then s.judgeSkew s.time.skewMet else s
    | some x =>
      let near := decide ((timexUnits x).natAbs ≤ 31250)
      let s := { s with
        time.offset := BitVec.ofInt 32 (timexOffset x), time.slewPend := timexCounts x, time.missed := 0
        time.depth := x.depth + 1, time.good := if near then min (s.time.good + 1) 16 else 0 }
      s.judgeSkew x.upMet

/-- What the chip advertises: its master and the hops to it; before it has one, its own claim (R57). -/
def State.advert (s : State) : Flit :=
  if s.time.state == 2 then electFlit (some s.time.masterId) s.time.masterForced s.time.depth
  else
    match s.ownClaim with
    | some c => electFlit (some c.1) c.2 0
    | none => electFlit none false 0

/-- A packet of one segment with HOPS 1 on link `n`, as it stands on the link (R110). Its XID is the low 16 bits of
the beat number (assumption 47). -/
def State.onePacket (s : State) (n kind : Nat) (net : Bool) (body : Flit) : State :=
  s.putLink n (sentPacket kind net (s.dateline n) (s.chipNum.getD 0) 0 (BitVec.ofNat 16 s.beat) (n * 32) [body])

/-- Each beat from S4 on the chip advertises its best known master on every trained link, and a follower begins its
exchange over the uplink (R57, R58, R114). -/
def State.electSend (s : State) : State :=
  if s.life.stage < 4 then s
  else
    let f := s.advert
    let s := ((List.range numLinks).filter s.trained).foldl (fun s n => s.onePacket n 4 false f) s
    if s.time.state == 2 && s.trained s.time.uplink then s.onePacket s.time.uplink 3 false (timexFlit 0 s.time.time) else s

/-- An ELECT packet on a link is kept for the election of the beat (R57). -/
def State.takeAdv (s : State) (a : ElectAdv) : State :=
  { s with time.advs := a :: s.time.advs.filter fun b => b.link != a.link }

/-- A request of a downstream chip: this chip stamps its receipt and its reply (R58). -/
def State.timexReply (s : State) (link : Nat) : State :=
  s.onePacket link 3 true (timexFlit s.time.time s.time.time)

/-- TIME_MASTER: after the loss of the master this chip has become master (R61). One that became ISOLATED raises none
(assumption 46). -/
def State.timeMaster (s : State) : State :=
  if s.time.state == 3 && s.time.masterLost then
    { s with time.masterLost := false }.raiseHub 0x0012 .note Config.chipId
  else s

/-- DOMAIN_STOP_DETECT: 64 plinth cycles without an edge (R73). -/
def State.domainStop (s : State) (d : Nat) (lastEdge : Word) : State :=
  if 1 ≤ d && d ≤ 25 && !s.time.stopped.getLsbD d && lastEdge.toNat + 64 ≤ s.time.time.toNat then
    { s with time.stopped := setBit s.time.stopped d true
             time.lastEdge := tset 0 s.time.lastEdge d lastEdge }
  else s

/-- DOMAIN_STOPPED: the domains without an edge for 64 plinth cycles (R73). -/
def State.stoppedWord (s : State) : Word :=
  bitsWord 0 ((List.range 26).filter fun d =>
    s.time.stopped.getLsbD d && (tget 0 s.time.lastEdge d).toNat + 64 ≤ s.time.time.toNat)

/-- The record of a domain's first edge after a stop (R73, R74). -/
def State.gapRecord (s : State) (d : Nat) : EvRec :=
  mkRec s.time.time 0x0010 srcPlinth 0 (if s.time.ordered.getLsbD d then .info else .note)
    (pack [(56, 8, d), (0, 56, (tget 0 s.time.lastEdge d).toNat)])

/-- The domain runs again: its bit clears and GAP is logged. -/
def State.domainGap (s : State) (d : Nat) : State :=
  let r := s.gapRecord d
  { (s.raise r) with time.stopped := setBit s.time.stopped d false, time.ordered := setBit s.time.ordered d false
                     time.lastEdge := tset 0 s.time.lastEdge d 0 }

/-- Chimin stops a region clock by its own order: the last edge is now (R73, R320, R439). Of a region that had stopped
before, the order makes the stop an ordered one (assumption 46). -/
def State.stopRegion (s : State) (g : Nat) : State :=
  if s.time.stopped.getLsbD (g + 1) then
    { s with time.ordered := setBit s.time.ordered (g + 1) true }
  else
    { s with time.stopped := setBit s.time.stopped (g + 1) true, time.ordered := setBit s.time.ordered (g + 1) true
             time.lastEdge := tset 0 s.time.lastEdge (g + 1) s.time.time }

/-- One plinth cycle passes (R53): the counter advances by one, or by 0 or 2 while an offset is to be
slewed away and none of the last 4,096 cycles was such a step. It stays below the next beat tick, which
is the BEAT_TICK command (assumption 7). -/
def State.countCycle (s : State) : State :=
  if s.time.slewPend ≠ 0 && 4096 ≤ s.time.lastSlew && s.cyc + 2 < beatCycles then
    if 0 < s.time.slewPend then
      { s with time.time := s.time.time + 2, time.slewPend := s.time.slewPend - 1, time.lastSlew := 1 }
    else { s with time.slewPend := s.time.slewPend + 1, time.lastSlew := 1 }
  else if s.cyc + 1 < beatCycles then
    { s with time.time := s.time.time + 1, time.lastSlew := s.time.lastSlew + 1 }
  else s

/-- One plinth cycle passes: endpoints send an acknowledgement each, and a queued packet that may now be injected is
(R53, R104, R256). -/
def State.plinthCycle (s : State) : State := if s.life.powered then (s.ackDrain 1).countCycle.inject else s

end Sys2Proof.Machine
end

