-- ==== Sys2Proof/Machine/Therm.lean ====
section
/-! DEFINITION. Thermal sensors, region throttle, DRAM bands and controlled shutdown (chapter 10). -/

namespace Sys2Proof.Machine

/-! ### Sensors by number (R306, R308) -/

/-- Layer of a DRAM sensor; none for a logic sensor (R306). -/
def sensorLayer (n : Nat) : Option Nat := if n < numTiles then none else some ((n - numTiles) / 288)

/-- The regions that a sensor belongs to, the region of its first tile first (R308). -/
def sensorRegions (n : Nat) : List Nat :=
  if n < numTiles then [regionOf n]
  else
    let i := (n - numTiles) % 288
    let a := regionOf (i / 16 * 2 * 32 + i % 16 * 2)
    let b := regionOf ((i / 16 * 2 + 1) * 32 + i % 16 * 2)
    if a == b then [a] else [a, b]

/-- SOURCE and UNIT of a sensor's events (R326). -/
def sensorSource (n : Nat) : Nat × Nat :=
  match sensorLayer n with
  | none => (n, uTSENS)
  | some l => (srcLayer l, (n - numTiles) % 288 % 16 / 8)

/-- The number that stands for no sensor (R306). -/
def noSensor : Nat := 0x1FFF

/-- The hang ring of a sensor's unit: the tile's TSENS, or its layer (R408). -/
def sensorRing (n : Nat) : Nat := match sensorLayer n with | none => ringTile n uTSENS | some l => ringLayer l

/-- Raise a thermal event at its deciding sensor, whose unit's hang ring keeps it, or at the plinth; nothing is logged
once Chimin is frozen (R408, Table 13.6). -/
def State.raiseTherm (s : State) (sensor code : Nat) (sev : Severity) (detail : Word) : State :=
  if s.life.frozen then s
  else
    let e := if sensor == noSensor then (srcPlinth, 0) else sensorSource sensor
    let r := mkRec s.time.time code e.1 e.2 sev detail
    (if sensor == noSensor then s else s.hang (sensorRing sensor) r.time .event 0xFF_FFFF (hangEventData r)).raise r

/-- Count in a THERM counter. -/
def State.bumpTherm (s : State) (k : Nat) : State := if s.life.frozen then s else s.bump k

/-! ### Samples (R309, R312) -/

/-- The sensor is sampled in this beat: its turn of twelve, fast sampling, BAD, or the retry of a
discarded reading (R309, R310, R312); in Repose at the normal rate, without fast sampling (Table 10.5). -/
def State.sampleDue (s : State) (n : Nat) : Bool :=
  let x := s.sensor n
  n < numSensors && x.sampled != some s.life.allBeats &&
  ((x.fast && !s.inRepose) || x.bad || x.doubt.isSome || s.beat % 12 == n % 12)

/-- A reading lies within −40 °C to 150 °C (R312). -/
def readingOk (v : BitVec 16) : Bool := -640 ≤ s16 v && s16 v ≤ 2400

/-- Two readings differ by at most `d` sixteenths. -/
def near (d : Int) (a b : BitVec 16) : Bool := s16 a - s16 b ≤ d && s16 b - s16 a ≤ d

/-- The sensor becomes BAD: THERM_SENSOR with its reason (R312). -/
def State.sensorBad (s : State) (n reason : Nat) (v : BitVec 16) : State :=
  let s := s.modSensor n fun x =>
    { sampled := x.sampled, last := x.last, bad := true, fast := true }
  ((s.bumpTherm Reg.thermSensorFaults).hangFree (sensorRing n) s.time.time .state 0xFF_FFFF 0).raiseTherm n 0x0094 .fault
    (pack [(60, 4, reason), (32, 13, n), (16, 16, v.toNat)])

/-- A reading of a BAD sensor counts toward its recovery, or restarts the count (R312). -/
def State.sensorRecover (s : State) (n : Nat) (r : Option (BitVec 16)) (before : Bool) : State :=
  let x := s.sensor n
  match r with
  | none => s.modSensor n fun x => { x with recover := 0, recLast := none }
  | some v =>
    if !readingOk v then s.modSensor n fun x => { x with recover := 0, recLast := none }
    else
      let follows := before && (match x.recLast with | some p => near 128 p v | none => false)
      let c := if follows then x.recover + 1 else 1
      if 12 ≤ c then
        ((s.modSensor n fun x =>
          { x with bad := false, recover := 0, recLast := none, fresh := some v, history := [], quiet := 0 }).hangFree
            (sensorRing n) s.time.time .state 0xFF_FFFF 0).raiseTherm n 0x0094 .info (pack [(59, 1, 1), (32, 13, n), (16, 16, v.toNat)])
      else s.modSensor n fun x => { x with recover := c, recLast := some v }

/-- A reading of a valid sensor is accepted, put in doubt, or makes the sensor BAD (R312). -/
def State.sensorTake (s : State) (n : Nat) (r : Option (BitVec 16)) : State :=
  let x := s.sensor n
  match r with
  | none =>
    if 1 ≤ x.missed then s.sensorBad n 3 0x8000 else s.modSensor n fun x => { x with missed := 1 }
  | some v =>
    if !readingOk v then s.sensorBad n 1 v
    else
      let accept := s.modSensor n fun x => { x with fresh := some v, doubt := none, missed := 0 }
      if x.reading == 0x8000 || near 128 x.reading v then accept
      else
        match x.doubt with
        | none => s.modSensor n fun x => { x with doubt := some v, missed := 0 }
        | some d => if near 16 d v then accept else s.sensorBad n 2 v

/-- A reading of the sensor can arrive: no DRAM sensor's does while the stack interface domain that serves its
columns is stopped (R307, R312). -/
def State.sensorReads (s : State) (n : Nat) : Bool :=
  n < numTiles || !s.time.stopped.getLsbD (21 + (n - numTiles) % 288 % 16 / 8)

/-- SENSOR_SAMPLE: a scheduled sample of sensor `n` reaches the hub, or none does (R309, R312). Spans of beats are
counted in beat ticks, which the load of R60 does not move. -/
def State.sensorSample (s : State) (n : Nat) (r : Option (BitVec 16)) : State :=
  let x := s.sensor n
  let before := match x.sampled with | some b => b + 1 == s.life.allBeats | none => false
  let s := s.modSensor n fun x => { x with sampled := some s.life.allBeats }
  if x.bad then s.sensorRecover n r before else s.sensorTake n r

/-! ### What the decision phase makes of the readings (R310, R311) -/

/-- LIMITS in force. -/
def State.limits (s : State) : Word := s.inTherm Reg.thermLimits

/-- The limit of a sensor, in 1/16 °C. -/
def State.limitOf (s : State) (n : Nat) : Int :=
  16 * (if n < numTiles then fld s.limits 7 0 else fld s.limits 15 8 : Nat)

/-- WARN_RATE and ACT_RATE. -/
def State.warnRate (s : State) : Int := (fld s.limits 47 32 : Nat)
def State.actRate (s : State) : Int := (fld s.limits 63 48 : Nat)

/-- The rate of a new reading (R311). -/
def sensorRate (hist : List (Nat × BitVec 16)) (beat : Nat) (v : BitVec 16) : BitVec 16 :=
  match hist.find? fun e => e.1 + 12 ≤ beat with
  | some (b, r) => BitVec.ofInt 16 (max (-32768) (min 32767 (Int.tdiv (125 * (s16 v - s16 r)) (beat - b : Nat))))
  | none => 0

/-- The readings kept: those younger than 12 beats and the first one older. -/
def keepHistory (beat : Nat) (hist : List (Nat × BitVec 16)) : List (Nat × BitVec 16) :=
  hist.takeWhile (fun e => beat < e.1 + 12) ++ ((hist.find? fun e => e.1 + 12 ≤ beat).toList)

/-- The level above which readings count toward a shutdown (R319). -/
def overShutdown (n : Nat) (v : BitVec 16) : Bool := if n < numTiles then 1760 ≤ s16 v else 1600 < s16 v

/-- A sensor with the reading of this beat taken in. -/
def Sensor.update (x : Sensor) (n beat : Nat) : Sensor :=
  match x.fresh with
  | none => x
  | some v =>
    let isOver := overShutdown n v
    { x with reading := v, fresh := none, last := some v, rate := sensorRate x.history beat v
             history := (beat, v) :: keepHistory beat x.history
             overFirst := if isOver then x.reading else x.overFirst
             overRun := if isOver then x.overRun + 1 else 0 }

/-- The sensor's reading or rate calls for fast sampling (R310). -/
def State.fastCause (s : State) (n : Nat) (x : Sensor) : Bool :=
  match x.value with
  | some v => s.limitOf n - 80 ≤ v || s.warnRate ≤ s16 x.rate
  | none => false

/-- Enter or leave fast sampling (R310). A BAD sensor is in it (R312). -/
def Sensor.judgeFast (x : Sensor) (cause : Bool) : Sensor :=
  if x.bad then { x with fast := true, quiet := 0 }
  else if cause then { x with fast := true, quiet := 0 }
  else if x.fast then
    if 12 ≤ x.quiet + 1 then { x with fast := false, quiet := 0 } else { x with quiet := x.quiet + 1 }
  else x

/-- The sensors whose rate crosses WARN_RATE in this beat. -/
def State.warnCrossers (s : State) : List Nat :=
  s.heat.sensors.filterMap fun e =>
    if !e.2.bad && e.2.reading != 0x8000 && !e.2.warned && s.warnRate ≤ s16 e.2.rate then some e.1 else none

/-- Detail fields common to the events (Table 10.7). -/
def thermFields (g n : Nat) (v rate : Int) : List Fld :=
  [(52, 4, g), (32, 13, n), (16, 16, sbits 16 v), (0, 16, sbits 16 rate)]

/-- THERM_WARN: each crossing, at most one per region and beat, for the lowest sensor number; the sensor's
first region counts. -/
def State.thermWarn (s : State) : State :=
  let xs := s.warnCrossers
  (List.range numRegions).foldl (fun s g =>
    match xs.find? fun n => (sensorRegions n).head? == some g with
    | some n =>
      let x := s.sensor n
      (s.bumpTherm Reg.thermWarns).raiseTherm n 0x0090 .note
        (pack (thermFields g n (s16 x.reading) (s16 x.rate)))
    | none => s) s

/-- Take in the readings of the beat; the register writes accepted before it come into force (R328). Ages of readings
are counted in beat ticks (R311). -/
def State.thermReadings (s : State) : State :=
  let b := s.life.allBeats
  let s := { s with therm := s.regs }
  let s := { s with heat.sensors := s.heat.sensors.map fun (e : Nat × Sensor) => (e.1, e.2.update e.1 b) }
  let s := { s with heat.sensors := s.heat.sensors.map fun (e : Nat × Sensor) => (e.1, e.2.judgeFast (s.fastCause e.1 e.2)) }
  let w := s.thermWarn
  { w with heat.sensors := w.heat.sensors.map fun (e : Nat × Sensor) =>
      (e.1, { e.2 with warned := !e.2.bad && e.2.reading != 0x8000 && s.warnRate ≤ s16 e.2.rate }) }

/-! ### Region steps (R314 to R316) -/

/-- The kinds of sensors of a region: logic, and the DRAM of each layer. -/
def sensorKinds : List (Option Nat) := none :: (List.range numLayers).map some

/-- The sensors of a kind in a region that a sample has reached. -/
def State.groupOf (s : State) (g : Nat) (k : Option Nat) : List (Nat × Sensor) :=
  s.heat.sensors.filter fun e => sensorLayer e.1 == k && (sensorRegions e.1).contains g

/-- The hottest valid sensor of a group, the lowest number on a tie. -/
def hottest (xs : List (Nat × Sensor)) : Option (Nat × Int) :=
  xs.foldl (fun b e =>
    match e.2.value, b with
    | some v, some (m, w) => if w < v then some (e.1, v) else some (m, w)
    | some v, none => some (e.1, v)
    | none, b => b) none

/-- The reading that decides for a group: the hottest valid one, or the substitute of a BAD sensor, 5 °C
above it (R312). -/
def groupHot (xs : List (Nat × Sensor)) : Option (Nat × Int) :=
  match hottest xs, xs.find? fun e => e.2.bad with
  | some (_, v), some b => some (b.1, v + 80)
  | h, _ => h

/-- The reading of sensor `n` that decides: its own, or while it is BAD the substitute in region `g`, 5 °C above the
highest valid one of its kind there (R312). -/
def State.deciding (s : State) (n g : Nat) : Option Int :=
  match (s.sensor n).value with
  | some v => some v
  | none => if (s.sensor n).bad then (hottest (s.groupOf g (sensorLayer n))).map fun e => e.2 + 80 else none

/-- The reading that stands for the DRAM sensor of a layer over a tile. -/
def State.sensorOver (s : State) (t l : Nat) : Option Int := s.deciding (dramSensor l t) (regionOf t)

/-- A BAD sensor of the group has no substitute (R312). -/
def groupLost (xs : List (Nat × Sensor)) : Bool := (hottest xs).isNone && xs.any fun e => e.2.bad

/-- The largest rate of a region with its sensor. -/
def State.regionRate (s : State) (g : Nat) (kinds : List (Option Nat)) : Option (Nat × Int) :=
  (kinds.flatMap (s.groupOf g)).foldl (fun b e =>
    match e.2.value, b with
    | some _, some (m, w) => if w < s16 e.2.rate then some (e.1, s16 e.2.rate) else some (m, w)
    | some _, none => some (e.1, s16 e.2.rate)
    | none, b => b) none

/-- The floor of a region: REGION.FLOOR, and step 4 where a group is lost (R312, R314). -/
def State.floorOf (s : State) (g : Nat) : Nat :=
  max (fld (s.inTherm (regionReg g 0x108)) 2 0)
    (if sensorKinds.any fun k => groupLost (s.groupOf g k) then 4 else 0)

/-- The reading of a region that stands highest against its own limit, with its sensor. -/
def State.regionWorst (s : State) (g : Nat) : Option (Nat × Int) :=
  (sensorKinds.filterMap fun k => groupHot (s.groupOf g k)).foldl (fun b e =>
    match b with
    | none => some e
    | some c => if c.2 - s.limitOf c.1 < e.2 - s.limitOf e.1 then some e else some c) none

/-- Causes of a step change (Table 10.7). -/
inductive StepCause where
  | limit | rate | release | floor
  deriving DecidableEq, Repr

/-- The decision of R314 for one region: the new step, its cause, and whether it is a rate step. -/
def stepDecide (step held floor : Nat) (isOver fast clear : Bool) (release : Nat) : Nat × Option StepCause :=
  let r : Nat × Option StepCause :=
    if isOver || fast then (min (step + 1) 5, some (if isOver then .limit else .rate))
    else if clear && release ≤ held && floor < step then (step - 1, some .release)
    else (step, none)
  if r.1 < floor then (floor, some .floor) else r

/-- CAUSE code, and the sensor and readings that the event names. -/
def State.stepEvent (s : State) (g old new : Nat) (c : StepCause) : State :=
  let w := s.regionWorst g
  let r := s.regionRate g sensorKinds
  let n : Nat := match c with
    | .limit | .release => (w.map (·.1)).getD noSensor
    | .rate => (r.map (·.1)).getD noSensor
    | .floor => noSensor
  let v : Int := match c with
    | .limit | .release => (w.map (·.2)).getD (-32768)
    | .rate => s16 (s.sensor n).reading
    | .floor => -32768
  let code := match c with | .limit => 0 | .rate => 1 | .release => 2 | .floor => 3
  (s.bumpTherm Reg.thermStepChanges).raiseTherm n 0x0091 (if new == 5 then .fault else .note)
    (pack ([(61, 3, old), (58, 3, new), (56, 2, code)] ++
      thermFields g n v (if n == noSensor then 0 else s16 (s.sensor n).rate)))

/-- Update the step of region `g` (R314). DEDUCED: HELD by the branches of the rule (log entry 41). -/
def State.regionStep (s : State) (g : Nat) : State :=
  let x := s.region g
  let ctl := s.inTherm Reg.thermThermCtl
  let worst := s.regionWorst g
  let rate : Int := ((s.regionRate g sensorKinds).map (·.2)).getD 0
  let hyst : Int := 16 * (fld s.limits 23 16 : Nat)
  let hots := sensorKinds.filterMap fun k => groupHot (s.groupOf g k)
  let isOver := match worst with | some w => decide (s.limitOf w.1 ≤ w.2) | none => false
  let gapOk := match x.rateStep with | some b => decide (b + fld ctl 39 32 ≤ s.life.allBeats) | none => true
  let fast := decide (s.actRate ≤ rate) && gapOk
  let clear := hots.all (fun e => decide (e.2 ≤ s.limitOf e.1 - hyst)) && decide (rate < s.warnRate)
  let r := stepDecide x.step x.held (s.floorOf g) isOver fast clear (fld ctl 47 40)
  let s := s.modRegion g fun y =>
    { y with step := r.1, held := if r.1 != x.step then 0 else if isOver || fast then x.held else satAdd 16 x.held 1
             rateStep := if fast then some s.life.allBeats else y.rateStep }
  if r.1 == x.step then s else s.stepEvent g x.step r.1 (r.2.getD .limit)

/-! ### DRAM bands (R317, R318) -/

/-- The band of a DRAM reading in 1/16 °C (Table 10.2). -/
def bandOf (v : Int) : Nat := if v ≤ 1360 then 0 else if v ≤ 1520 then 1 else 2

/-- The reading lies at least 2 °C below the lower edge of a band (R318). -/
def belowBand (b : Nat) (v : Int) : Bool :=
  match b with | 0 => false | 1 => v ≤ 1328 | _ => v ≤ 1488

/-- Update the band of a layer in a region. A rise reaches the refresh at once; a fall waits for the next boundary of a
refresh interval (R318). -/
def State.regionBand (s : State) (g l : Nat) : State :=
  let xs := s.groupOf g (some l)
  let x := s.region g
  let b := tget 0 x.bands l
  let low := tget 0 x.bandLow l
  let hot := groupHot xs
  let need := match hot with | some h => bandOf h.2 | none => if groupLost xs then 1 else 0
  let isLow := match hot with | some h => belowBand b h.2 | none => false
  let n := if isLow then low + 1 else 0
  let new := if b < need then need
    else if isLow && fld (s.inTherm Reg.thermThermCtl) 47 40 ≤ n then b - 1 else b
  let s := s.modRegion g fun y =>
    { y with bands := tset 0 y.bands l new, bandLow := tset 0 y.bandLow l (if new == b then n else 0)
             refBand := tset 0 y.refBand l (max (tget 0 y.refBand l) new) }
  if new == b then s
  else
    let n : Nat := (hot.map (·.1)).getD noSensor
    (s.bumpTherm Reg.thermBandChanges).raiseTherm n 0x0092 (if new == 2 then .fault else .note)
      (pack ([(62, 2, b), (60, 2, new), (56, 4, l)] ++ thermFields g n ((hot.map (·.2)).getD (-32768)) 0))

/-- A refresh interval of the layer in the region ends: the band in force governs from now on (R318). -/
def State.refreshBoundary (s : State) (g l : Nat) : State :=
  s.modRegion g fun y => { y with refBand := tset 0 y.refBand l (tget 0 y.bands l) }

/-! ### Controlled shutdown (R319, R320) -/

/-- The sensor that calls for a shutdown: two consecutive accepted readings above its level. -/
def State.tripping (s : State) : Option (Nat × Sensor) :=
  s.heat.sensors.find? fun e => !e.2.bad && 2 ≤ e.2.overRun

/-- The record of a shutdown, logged in the status posting of the beat. -/
def State.shutdownRecord (s : State) (n : Nat) (x : Sensor) : EvRec :=
  let e := sensorSource n
  mkRec s.time.time 0x0093 e.1 e.2 .fatal
    (pack [(60, 4, if n < numTiles then 2 else 1), (52, 4, (sensorRegions n).headD 0), (32, 13, n),
      (16, 16, x.reading.toNat), (0, 16, x.overFirst.toNat)])

/-- Shutdown is decided: every region clock is stopped by Chimin's order (R320, R73). -/
def State.shutdownDecide (s : State) : State :=
  if s.life.shutdown || s.life.shutdownEvent.isSome then s
  else
    match s.tripping with
    | some (n, x) =>
      let s := { s with life.shutdownEvent := some (s.shutdownRecord n x) }
      (List.range numRegions).foldl State.stopRegion s
    | none => s

/-- The thermal decisions of a beat: readings, then steps (kept while frozen or in Repose, Table 10.5),
bands and the shutdown test (R314 to R321). -/
def State.thermDecide (s : State) : State :=
  let s := s.thermReadings
  let s := if s.life.frozen || s.inRepose then s else (List.range numRegions).foldl State.regionStep s
  let s := (List.range numRegions).foldl (fun s g => (List.range numLayers).foldl (fun s l => s.regionBand g l) s) s
  s.shutdownDecide

/-! ### Windows (R322 to R324) -/

/-- The hottest valid sensor of a list of sensor numbers, the lowest number on a tie. -/
def State.hottestOf (s : State) (ns : List Nat) : Option (Nat × Int) :=
  hottest (ns.map fun n => (n, s.sensor n))

/-- MOULD_TMAX in 1/16 °C. -/
def State.mouldMax (s : State) : Int := 16 * (fld (s.inTherm Reg.thermMouldWin) 7 0 : Nat)

/-- THERM_WINDOW (Table 10.7). -/
def State.raiseWindow (s : State) (op layer : Nat) (ended : Bool) (h : Option (Nat × Int)) (beats : Nat) : State :=
  let n : Nat := (h.map (·.1)).getD noSensor
  let s := if ended then s else s.bumpTherm Reg.thermWindowDefers
  s.raiseTherm n 0x0095 .note
    (pack [(60, 4, op), (56, 4, layer), (55, 1, b2n ended), (32, 13, n),
      (16, 16, sbits 16 ((h.map (·.2)).getD (-32768))), (0, 16, min beats 0xFFFF)])

/-! ### Registers -/

/-- TSENS or DRAM_READING of a sensor (Table 10.12). -/
def State.sensorWord (s : State) (n : Nat) : Word :=
  let x := s.sensor n
  pack [(32, 16, x.rate.toNat), (17, 1, b2n x.fast), (16, 1, b2n x.bad), (0, 16, x.reading.toNat)]

/-- A sensor of the region is in fast sampling. -/
def State.regionFast (s : State) (g : Nat) : Bool :=
  s.heat.sensors.any fun e => e.2.fast && (sensorRegions e.1).contains g

/-- REGION.THROTTLE (Table 10.11). -/
def State.throttleWord (s : State) (g : Nat) : Word :=
  let x := s.region g
  let ctl := s.inTherm Reg.thermThermCtl
  let n := match x.step with | 1 => fld ctl 20 16 | 2 => fld ctl 12 8 | 3 => fld ctl 4 0 | _ => 0
  pack [(32, 16, x.held), (8, 5, n), (4, 2, if x.step == 4 then 1 else if x.step == 5 then 2 else 0),
    (3, 1, b2n (s.regionFast g)), (0, 3, x.step)]

/-- REGION.BANDS (Table 10.11). -/
def State.bandsWord (s : State) (g : Nat) : Word :=
  pack ((List.range numLayers).map fun l => (2 * l, 2, tget 0 (s.region g).bands l))

/-- REGION.REGION_TEMP (Table 10.11). -/
def State.tempWord (s : State) (g : Nat) : Word :=
  let dram : List (Option Nat) := (List.range numLayers).map some
  let hot (ks : List (Option Nat)) : Int := ((hottest (ks.flatMap (s.groupOf g))).map (·.2)).getD (-32768)
  let rate (ks : List (Option Nat)) : Int := ((s.regionRate g ks).map (·.2)).getD 0
  pack [(48, 16, sbits 16 (hot [none])), (32, 16, sbits 16 (hot dram)), (16, 16, sbits 16 (rate [none])),
    (0, 16, sbits 16 (rate dram))]

/-- HOTTEST_LOGIC and HOTTEST_DRAM (Table 10.8). -/
def State.hottestWord (s : State) (dram : Bool) : Word :=
  match hottest (s.heat.sensors.filter fun e => (sensorLayer e.1).isSome == dram) with
  | some (n, v) => pack [(32, 13, n), (16, 16, sbits 16 v)]
  | none => pack [(32, 13, noSensor), (16, 16, 0x8000)]

/-- THERM_STATUS (Table 10.8). -/
def State.thermStatus (s : State) : Word :=
  let rs := List.range numRegions
  pack [(48, 16, (bitsWord 0 (rs.filter fun g => 0 < (s.region g).step)).toNat),
    (32, 16, (bitsWord 0 (rs.filter s.regionFast)).toNat),
    (16, 16, (bitsWord 0 (rs.filter fun g => (s.region g).bands.any fun e => e.2 == 2)).toNat),
    (15, 1, b2n (s.life.shutdown || s.life.shutdownEvent.isSome)), (0, 13, (s.heat.sensors.filter fun e => e.2.bad).length)]

/-! ### Meanings -/

/-- SENSOR_SAMPLE: before the thermal decisions of the beat (R309). -/
def execSensorSample (n : Nat) (r : Option (BitVec 16)) (s : State) : Host.Outcome State Fault Refusal :=
  doWhen (s.life.powered && s.time.phase < 5 && s.sampleDue n) (fun s =>
    s.sensorSample n (if s.sensorReads n then r else none)) s

end Sys2Proof.Machine
end

