-- ==== Sys2Proof/Machine/Repair.lean ====
section
/-! DEFINITION. The repair table, its record in the cast store, and fuse commits (R273 to R275, R469,
R480). -/

namespace Sys2Proof.Machine

/-! ### Entries (Table 8.7) -/

/-- A ROW entry: physical row `r` of tile `t`. -/
def rowEntry (t r : Nat) : Word :=
  pack [(62, 2, 1), (50, 11, t), (39, 11, 0x7FF), (29, 10, 0x3FF), (22, 7, r)]

/-- A TILE entry: logical tile `l` moved from `t` to `s`. -/
def tileEntry (t s l : Nat) (fenceOld : Bool) : Word :=
  pack [(62, 2, 2), (50, 11, t), (39, 11, s), (29, 10, l), (22, 7, 0x7F), (21, 1, b2n fenceOld)]

/-- Fields of an entry. -/
def entKind (w : Word) : Nat := fld w 63 62
def entFused (w : Word) : Bool := bit w 61
def entTile (w : Word) : Nat := fld w 60 50
def entNew (w : Word) : Nat := fld w 49 39
def entLogical (w : Word) : Nat := fld w 38 29
def entRow (w : Word) : Nat := fld w 28 22
def entFenceOld (w : Word) : Bool := bit w 21

/-- Entries of the table (R273). -/
def repairSlots : Nat := 512

/-- The soft entries, in table order. -/
def State.softEntries (s : State) : List Word := s.map.table.filter fun w => !entFused w

/-- FUSED_COUNT and FUSE_FREE (Table 8.13, R480). -/
def State.fusedCount (s : State) : Nat := (s.map.table.filter entFused).length
def State.fuseFree (s : State) : Nat := 256 - (s.nv.fused.length + s.nv.halfSlots)

/-! ### The record in the cast store (R274) -/

/-- REPAIR_SAVE (Table 8.10). -/
def State.repairSave (s : State) (reason t : Nat) : State :=
  s.raise (mkRec s.time.time 0x0075 t uNODE .note (pack [(60, 4, reason), (0, 16, s.softEntries.length)]))

/-- The soft entries changed because of tile `t`: a write is due, or there is no store to write to. -/
def State.recordChanged (s : State) (t : Nat) : State :=
  if s.cast.storeThere then { s with map.savePending := true }
  else { s with map.saveFailed := true }.repairSave 2 t

/-- A new soft entry is appended, unless the table is full (R273, R274). -/
def State.addRepair (s : State) (w : Word) : State :=
  if repairSlots ≤ s.map.table.length then s.repairSave 3 (entTile w)
  else { s with map.table := s.map.table ++ [w] }.recordChanged (entTile w)

/-- The SEQ of the copy to write: one above the newer copy's, a foreign chip's copy counting as 0. -/
def State.nextRecordSeq (s : State) : Word :=
  (if s.nv.recordChip = Config.chipId && !s.nv.blank then s.nv.recordSeq else 0) + 1

/-- The record copy in use, as a block of the store. -/
def NonVol.recordNow (v : NonVol) : RecordCopy :=
  if v.blank then {} else { seq := v.recordSeq, chip := v.recordChip, entries := v.record, sealw := v.recordSeal }

/-- A block of 4,096 bytes that begins with the given ones, zero after them. -/
def padBlock (bs : List Byte) : List Byte := bs ++ List.replicate (blockBytes - bs.length) 0

/-- The 4 KiB block of a copy: SEQ, chip ID, COUNT, and from byte 64 the entries; a blank copy is all zero (R274). -/
def RecordCopy.bytes (c : RecordCopy) : List Byte :=
  padBlock (leBytes 8 c.seq.toNat ++ leBytes 8 c.chip.toNat ++ leBytes 2 c.entries.length ++ List.replicate 46 0 ++
    c.entries.flatMap fun e => leBytes 8 e.toNat)

/-- The STORED seal of a block in FMT RAW32 that Chimin writes to the cast store (R274, R342). Table 4.1 has no number
for Chimin's DMA engine: PTILE is 0x4C0, its SOURCE (assumption 58). -/
def storedSeal (time : Word) (bs : List Byte) : Word := sealWord time srcPlinth 0 1 true (blockResidue 0 (unpackBlock 0 bs))

/-- The seal of a copy verifies (R131, R274). -/
def RecordCopy.sealOk (c : RecordCopy) : Bool := checkBlock 0 0 false c.sealw c.bytes false false none = .pass

/-- REPAIR_RECORD_WRITE: the write of the record to its copy's LBA ends; the other copy stays as it was (R274). -/
def State.recordWrite (s : State) (ok : Bool) : State :=
  if !s.map.savePending then s
  else if ok then
    let q := s.nextRecordSeq
    let c : RecordCopy := { seq := q, chip := Config.chipId, entries := s.softEntries.take 504 }
    let w := storedSeal s.time.time c.bytes
    { s.nvmeRun [{ op := .write, lba := copyLba 0 q, count := 1, data := c.bytes }, nvmeFlush] with
      map.savePending := false, map.saveFailed := false, map.saveSeq := q
      nv.recordOther := s.nv.recordNow, nv.record := c.entries, nv.recordSeq := q
      nv.recordChip := c.chip, nv.recordSeal := w, nv.blank := false }
  else
    { s with map.savePending := false, map.saveFailed := true }.repairSave 1
      ((s.softEntries.getLast?.map entTile).getD srcPlinth)

/-- UNFENCE of a tile that a soft TILE entry retired clears the entry's FENCE_OLD (R278). -/
def State.clearFenceOld (s : State) (t : Nat) : State :=
  let hit (w : Word) : Bool := entKind w == 2 && !entFused w && entTile w == t && entFenceOld w
  if s.map.table.any hit then
    { s with map.table := s.map.table.map fun w => if hit w then setFld w 21 21 0 else w }.recordChanged t
  else s

/-! ### Rows (R143, R240) -/

/-- Physical rows that may be used. -/
def usableRows (bad : BitVec 66) : List Nat := (List.range 66).filter fun r => !bad.getLsbD r

/-- The row map after a ROW repair: logical rows 0 to 63 in ascending order on the usable rows. -/
def rowMapOf (bad : BitVec 66) : Tbl Nat :=
  ((List.range 64).zip (usableRows bad)).filter fun e => e.1 != e.2

/-- The physical row of a logical row. -/
def ChiselTile.physRow (c : ChiselTile) (r : Nat) : Nat := (((c.rowMap.find? fun e => e.1 == r).map (·.2))).getD r

/-- A physical row is assigned in the current row map. -/
def ChiselTile.assigned (c : ChiselTile) (r : Nat) : Bool := (List.range 64).any fun l => c.physRow l == r

/-- A ROW entry at bring-up: the row is unusable, and the tile's row map follows (R273). -/
def State.applyRow (s : State) (w : Word) : State :=
  if entTile w < numTiles && entRow w < 66 then
    s.modChisel (entTile w) fun c =>
      let bad := setBit c.rowBad (entRow w) true
      { c with rowBad := bad, rowMap := rowMapOf bad }
  else s

/-! ### Fuse commits (R275, R469) -/

/-- Every logic sensor, or its substitute while it is BAD, reads from 15 °C to 70 °C (R275, R312). -/
def State.fuseWindow (s : State) : Bool :=
  allTiles.all fun t => match s.deciding t (regionOf t) with | some v => 240 ≤ v && v ≤ 1120 | none => false

/-- TEMP_SPAN: the lowest and highest logic reading at a window check. -/
def State.spanNow (s : State) : Word :=
  let vs := allTiles.filterMap fun t => (s.sensor t).value
  let lo := vs.foldl min 32767
  let hi := vs.foldl max (-32768)
  pack [(48, 16, sbits 16 lo), (32, 16, sbits 16 hi)]

/-- A window check is made and recorded. -/
def State.fuseCheck (s : State) : Bool × State := (s.fuseWindow, { s with map.tempSpan := s.spanNow })

/-- The commit ends: its order completes with the count in its detail (Table 15.14). An entry that still awaits its
result is withdrawn, and its slot may be programmed in part (R480). -/
def State.commitEnd (s : State) (state : Nat) (st : Status) : State :=
  match s.map.commit with
  | none => s
  | some (id, _, n) =>
    let s := { s with map.commit := none, map.commitState := state, map.progReq := false
                      nv.halfSlots := s.nv.halfSlots + b2n s.map.progReq }.mgmtDone 1
    let s := if n = 0 && st ≠ .ok then s else s.recordChanged ((s.map.table.getLast?.map entTile).getD 0)
    (s.orderDetail id (BitVec.ofNat 32 n)).finish id st

/-- Present the next soft entry from place `i` of the table on, or end the commit (R469). -/
def State.commitNext (s : State) (id i n : Nat) : State :=
  match (List.range s.map.table.length).find? fun j => i ≤ j && !entFused (s.map.table.getD j 0) with
  | some j =>
    { s with map.commit := some (id, j, n), map.progReq := true, map.progEntry := s.map.table.getD j 0
             map.progSlot := s.nv.fused.length + s.nv.halfSlots }.mgmtAsk 1
  | none => { s with map.commit := some (id, s.map.table.length, n), map.progReq := false }.commitEnd 2 .ok

/-- FUSE_COMMIT in its dispatch turn. -/
def State.commitStart (s : State) (id : Nat) : State :=
  if s.map.commit.isSome || s.mgmtSilent then s.finish id .stateIllegal
  else if s.fuseFree < s.softEntries.length then s.finish id .fuseFull
  else
    let r := s.fuseCheck
    let s := { r.2 with map.committed := 0 }
    if !r.1 then s.finish id .outOfWindow
    else { s with map.commitState := 1 }.commitNext id 0 0

/-- FUSE_PROG_RESULT: Palalmux reports the slot programmed, or its error; the window is checked again before a next
entry (R275, R469). -/
def State.progResult (s : State) (v : Word) : State :=
  match s.map.commit with
  | some (id, j, n) =>
    if !s.map.progReq || !bit v 63 then s
    else
      let s := { s with map.progReq := false }.mgmtDone 1
      let e := fld v 7 0
      if e != 0 then
        let s := { s with map.lastError := BitVec.ofNat 8 e, nv.halfSlots := s.nv.halfSlots + 1 }
        let s := s.raise (mkRec s.time.time 0x0076 (entTile s.map.progEntry) uNODE .fault
          (pack [(8, 8, n), (0, 8, e)]))
        s.commitEnd 3 .outOfWindow
      else
        let w := setFld s.map.progEntry 61 61 1
        let s := { s with map.table := s.map.table.set j w, nv.fused := s.nv.fused ++ [w]
                          map.committed := n + 1, map.commit := some (id, j, n + 1) }
        if s.softEntries.isEmpty then s.commitNext id (j + 1) (n + 1)
        else
          let r := s.fuseCheck
          if r.1 then r.2.commitNext id (j + 1) (n + 1) else r.2.commitEnd 3 .outOfWindow
  | none => s

/-- The window is checked at every beat tick of a commit (R275). -/
def State.commitTick (s : State) : State :=
  if s.map.commit.isSome then
    let r := s.fuseCheck
    if r.1 then r.2 else r.2.commitEnd 3 .outOfWindow
  else s

/-! ### Registers -/

/-- FUSE_STATUS (Table 15.18). -/
def State.fuseStatus (s : State) : Word :=
  pack [(61, 3, s.map.commitState), (32, 16, s.map.committed), (16, 16, s.fusedCount), (0, 16, s.fuseFree)]

/-! ### Meanings -/

/-- REPAIR_RECORD_WRITE. -/
def execRepairRecordWrite (ok : Bool) (s : State) : Host.Outcome State Fault Refusal :=
  doWhen s.live (fun s => s.recordWrite ok) s

/-! ### What a tile still has under way at the stack (R223, R294) -/

/-- The tile's units have a request that waits at the stack, in an NI or at a bank. -/
def StackReq.of (q : StackReq) (t : Nat) : Bool :=
  match q.job with
  | .access => false
  | .read u _ => u == t | .second u _ => u == t | .change u _ => u == t | .send u _ => u == t
  | .again u _ _ _ _ => u == t
def State.stackWaiting (s : State) (t : Nat) : Bool :=
  s.stack.holdWaits.any (·.of t) || s.stack.stopWaits.any (·.of t) || s.stack.waits.any fun e => e.2.any fun w => w.2.of t

/-- A near-bank operation of the tile is in progress (R294). -/
def State.nbAtWork (s : State) (t : Nat) : Bool :=
  s.stack.nb.any fun e => match e.2 with | some r => r.tile == t | none => false

end Sys2Proof.Machine
end

