-- ==== Sys2Proof/Machine/Chisel.lean ====
section
/-! DEFINITION. Chisel in-field tests: due tiles, arming, the sessions and their outcomes (chapter 7). -/

namespace Sys2Proof.Machine

/-! ### Segments and units (Table 7.1, R214) -/

/-- Unit code of a segment. -/
def segUnit (g : Nat) : Nat :=
  match g with
  | 0 => 5 | 1 => 4 | 2 => 1 | 3 => 2 | 4 => 8 | 5 => 9 | 6 => 10 | 7 => 11
  | 8 => 5 | 9 => 4 | 10 => 1 | 11 => 2 | 12 => 3 | _ => 7

/-- Tile cycles of a segment. -/
def segCycles (g : Nat) : Nat :=
  match g with
  | 0 => 440000 | 1 => 352000 | 2 => 2860000 | 3 => 1320000 | 4 => 264000 | 5 => 264000 | 6 => 264000
  | 7 => 264000 | 8 => 440000 | 9 => 352000 | 10 => 1320000 | 11 => 660000 | 12 => 1320000 | _ => 1848000

/-- Segment codes that are not reserved. -/
def segCodes : List Nat := List.range 14

/-- A set of segments or units as a mask. -/
def mask16 (xs : List Nat) : BitVec 16 := BitVec.ofNat 16 (xs.foldl (fun a i => a ||| 2 ^ i) 0)

/-- The members of a mask. -/
def members (v : BitVec 16) : List Nat := (List.range 16).filter v.getLsbD

/-- The segment list of a unit mask: NI and DMA are always included. -/
def segsOf (units : BitVec 16) : BitVec 16 :=
  mask16 (segCodes.filter fun g => units.getLsbD (segUnit g) || segUnit g == 4 || segUnit g == 5)

/-! ### Registers in force -/

/-- SCHED_MASK, ENABLE and the window mode. -/
def State.schedMask (s : State) : BitVec 16 := BitVec.ofNat 16 (fld (s.inForce Reg.chiselChiselCtl) 47 32)
def State.chiselOn (s : State) : Bool := bit (s.inForce Reg.chiselChiselCtl) 0
def State.windowMode (s : State) : Nat := fld (s.inForce Reg.chiselChiselWindow) 49 48

/-- CHISEL_TIMES fields. -/
def State.deferLimit (s : State) : Nat := fld (s.inForce Reg.chiselChiselTimes) 63 48
def State.forceWait (s : State) : Nat := fld (s.inForce Reg.chiselChiselTimes) 47 36
def State.sessionMax (s : State) : Nat := fld (s.inForce Reg.chiselChiselTimes) 35 24
def State.armWait (s : State) : Nat := fld (s.inForce Reg.chiselChiselTimes) 23 16
def State.witnessWait (s : State) : Nat := fld (s.inForce Reg.chiselChiselTimes) 15 8

/-! ### When a tile is due (R227) -/

/-- The beat at which tile `t` next becomes due. -/
def State.chiselDueAt (s : State) (t : Nat) : Nat :=
  let c := (s.tile t).chisel
  let cover := 1000 * fld (s.inForce Reg.chiselCover) 31 0
  let gap := 1000 * fld (s.inForce Reg.chiselCover) 63 32
  let first := s.life.readyBeat + 16 + t * cover / 1152
  if !c.ended then first
  else
    let perUnit := (members s.schedMask).map fun u =>
      let p := tget 0 c.lastPass u
      if p == 0 then 0 else p + cover
    max first (max (perUnit.foldl min (perUnit.headD 0)) (c.lastEnd + gap))

/-- CHISEL_DUE. -/
def State.chiselDue (s : State) (t : Nat) : State :=
  if (s.tile t).chisel.state == 0 && s.chiselDueAt t ≤ s.beat then
    s.modChisel t fun c =>
      { c with state := 1, cause := 0, forced := false, dueUnits := s.schedMask, deferred := 0, ext := 0
               dueBeat := s.beat, startedSlotWait := false }
  else s

/-- The tile carries a logical tile: one that is fenced does not (R223). -/
def State.carries (s : State) (t : Nat) : Bool := (s.logical t).isSome && !s.fenced t

/-- The rank of a cause: SUSPECT, ORDER, SCHEDULE (R229). -/
def causeRank (c : Nat) : Nat := match c with | 1 => 2 | 2 => 1 | _ => 0

/-- The slot that a tile holds. -/
def State.slotOf (s : State) (t : Nat) : Option (Nat × Slot) :=
  s.chisel.slots.findSome? fun e => match e.2 with | some x => if x.tile == t then some (e.1, x) else none | none => none

/-- A session becomes due for SUSPECT (1) or ORDER (2): forced from the start, masks and causes joined with
what is there (R229). A tile armed already takes the joined mask into its session, for both tiles of the
pair; one that is armed only for another tile's session is from then on due itself (R230). -/
def State.chiselCall (s : State) (t cause : Nat) (units : BitVec 16) : State :=
  let s := s.modChisel t fun c =>
    let fresh := c.state == 0 || (2 ≤ c.state && !c.wasDue)
    { c with
      state := if c.state == 0 then 1 else c.state
      wasDue := c.wasDue || 2 ≤ c.state
      dueUnits := if fresh then units else c.dueUnits ||| units
      cause := if fresh || causeRank c.cause < causeRank cause then cause else c.cause
      forced := true
      deferred := if fresh then 0 else c.deferred
      ext := if fresh then 0 else c.ext
      dueBeat := if fresh then s.beat else c.dueBeat
      forcedBeat := if c.forced && !fresh then c.forcedBeat else s.beat
      startedSlotWait := if c.forced && !fresh then c.startedSlotWait else false }
  match s.slotOf t with
  | some (_, x) =>
    if x.role == 2 then s
    else [t, x.other].foldl (fun s u => s.modChisel u fun c => { c with units := c.units ||| units }) s
  | none => s

/-- Patina crosses SUSPECT: a running session counts if its mask is SCHED_MASK; otherwise a new one follows
(Table 7.7). -/
def State.chiselSuspect (s : State) (t : Nat) : State :=
  let c := (s.tile t).chisel
  if c.state == 10 then s
  else if c.state ≤ 1 then s.chiselCall t 1 s.schedMask
  else if c.units == s.schedMask then s
  else s.modChisel t fun c => { c with pend := true }

/-- A SUSPECT session that waited for the end of another follows it (Table 7.7). -/
def State.chiselPend (s : State) (t : Nat) : State :=
  if (s.tile t).chisel.pend then (s.modChisel t fun c => { c with pend := false }).chiselCall t 1 s.schedMask else s

/-- CHISEL_FORCED: the deferral count of a scheduled tile reaches its limit (R228). -/
def State.chiselForce (s : State) (t : Nat) : State :=
  let c := (s.tile t).chisel
  if c.state == 1 && !c.forced && s.carries t && s.deferLimit + c.ext ≤ c.deferred then
    s.modChisel t fun c => { c with forced := true, forcedBeat := s.beat, startedSlotWait := false }
  else s

/-- Beats that some tile cycles take under the region clock in force (R236), rounded up. -/
def State.cyclesBeats (s : State) (g n : Nat) : Nat :=
  let full := if s.life.grade125 then 10000 else 8800
  let ctl := s.inTherm Reg.thermThermCtl
  let f : Nat × Nat := match (s.region g).step with
    | 0 => (1, 1)
    | 1 => (fld ctl 20 16 - 1, fld ctl 20 16)
    | 2 => (fld ctl 12 8 - 1, fld ctl 12 8)
    | 3 => (fld ctl 4 0 - 1, fld ctl 4 0)
    | 4 => (1, 2)
    | _ => (1, 4)
  (n * f.2 + full * f.1 - 1) / (full * f.1)

/-- Beats of the controller scan at the head of SLICE_S: 37 at the full clock of 1.1 GHz (Table 7.1). -/
def scanCycles : Nat := 37 * 8800

/-- The node runs SLICE_S; its controller scan is still on (R221). -/
def ChiselNode.slicing (n : ChiselNode) : Bool := (members n.segs).head? == some 13 && n.finish == 0
def State.scanning (s : State) (t : Nat) : Bool :=
  let n := (s.tile t).chisel.node
  n.slicing && s.beat < n.segBeat + s.cyclesBeats (regionOf t) scanCycles

/-- At the end of a controller scan the refresh that it suspended is issued (R221). -/
def State.scanEnds (s : State) : State :=
  s.chisel.slots.foldl (fun s e =>
    match e.2 with
    | some x => if (s.tile x.tile).chisel.node.slicing && !s.scanning x.tile then s.issueRefresh x.tile else s
    | none => s) s

/-- The deferral counts of a beat (R228): of tiles that are DUE, carry a logical tile and are not HALTED. -/
def State.deferTick (s : State) : State :=
  if s.inRepose then s
  else
    allTiles.foldl (fun s t =>
      let x := s.tile t
      if x.chisel.state == 1 && !x.core.halted && s.carries t then
        s.modChisel t fun c => { c with deferred := satAdd 24 c.deferred 1 }
      else s) s

/-! ### The test window and voiding (R233, R235) -/

/-- A region is inside the test window (R233). -/
def State.windowOk (s : State) (g : Nat) : Bool :=
  let w := s.inForce Reg.chiselChiselWindow
  let v := (s.region g).volt.toNat
  fld w 15 0 ≤ v && v ≤ fld w 31 16 && (!bit w 32 || (s.region g).step == 0)

/-- The tiles that hold a slot. -/
def State.slotTiles (s : State) : List Nat :=
  s.chisel.slots.filterMap fun e => e.2.map (·.tile)

/-- A segment runs on the tile. -/
def ChiselTile.runs (c : ChiselTile) : Bool := c.state == 7 && c.seg != 0xF

/-- The running segment is voided. -/
def State.voidTile (s : State) (t : Nat) : State :=
  let c := (s.tile t).chisel
  if c.runs && !c.voidNow then (s.modChisel t fun c => { c with voidNow := true }).bump Reg.chiselVoided else s

/-- The segments of a region are voided (R235). -/
def State.voidRegion (s : State) (g : Nat) : State :=
  (s.slotTiles.filter fun t => regionOf t == g).foldl State.voidTile s

/-- No window condition forbids region `g`: it is inside the window, or the mode does not check it (Table 7.5). -/
def State.windowAllows (s : State) (g : Nat) : Bool := s.windowMode == 1 || s.windowOk g

/-- A region that has left the test window since state `old` voids its segments (R235). -/
def State.windowLeft (s old : State) (g : Nat) : State :=
  if old.windowAllows g && !s.windowAllows g then s.voidRegion g else s

/-- The same for every region. -/
def State.windowsLeft (s old : State) : State := (List.range numRegions).foldl (fun s g => s.windowLeft old g) s

/-- What a beat tick does for the tests: a register change that takes a region out of the test window since state
`old` voids its segments (R235, R244), scans end, and deferral counts go on. -/
def State.chiselTick (s old : State) : State := (s.windowsLeft old).scanEnds.deferTick

/-! ### Slots (R232) -/

/-- Slots in use, of all and of a region. -/
def State.slotsUsed (s : State) : Nat := (s.chisel.slots.filter fun e => e.2.isSome).length
def State.regionSlots (s : State) (g : Nat) : Nat :=
  (s.chisel.slots.filter fun e => match e.2 with | some x => regionOf x.tile == g | none => false).length

/-- Arming these tiles keeps every limit that applies (Table 7.5). -/
def State.slotRoom (s : State) (ts : List Nat) : Bool :=
  s.slotsUsed + ts.length ≤ 32 &&
  (s.windowMode == 2 ||
    (s.slotsUsed + ts.length ≤ fld (s.inForce Reg.chiselChiselCtl) 20 16 &&
     ts.all fun t => s.regionSlots (regionOf t) + (ts.filter fun u => regionOf u == regionOf t).length ≤
       fld (s.inForce Reg.chiselChiselCtl) 11 8))

/-- A free slot number. -/
def State.freeSlot (s : State) : Option Nat := (List.range 32).find? fun k => (s.slot k).isNone

/-- The other tile of a pair. -/
def State.pairOf (s : State) (t : Nat) : Option Nat :=
  match s.slotOf t with
  | some (_, x) => if x.role == 2 then none else some x.other
  | none => none

/-! ### Arming (R215, R218, R229) -/

/-- The tile serves a maquette session as host or referee. -/
def State.maqServes (s : State) (t : Nat) : Bool :=
  s.maq.sessions.any fun e => match e.2 with | some x => x.host == t || x.referee == some t | none => false

/-- The tile takes part in a promotion or a release. -/
def State.promoting (s : State) (t : Nat) : Bool :=
  s.map.promotions.any fun p => p.from_ == t || p.target == some t
def State.releasing (s : State) (l : Nat) : Bool :=
  s.map.releases.any fun r => ({ r0 := r.rect.1, c0 := r.rect.2.1, r1 := r.rect.2.2.1, c1 := r.rect.2.2.2 } : Rect).has l

/-- Nothing forbids arming the tile in any role: it is not HALTED, holds no slot, serves no maquette session
and is neither promoting nor releasing. -/
def State.armable (s : State) (t : Nat) : Bool :=
  !(s.tile t).core.halted && !s.inSlot t && !s.maqServes t && !s.promoting t &&
  !((s.logical t).map s.releasing).getD false

/-- A due tile that may be armed now: with ENABLE, or for cause SUSPECT or ORDER. -/
def State.mayArm (s : State) (t : Nat) : Bool :=
  let c := (s.tile t).chisel
  c.state == 1 && (s.chiselOn || c.cause != 0) && s.armable t

/-- Rank of a due tile among those to be armed (R229): smaller goes first. -/
def ChiselTile.armRank (c : ChiselTile) : Nat :=
  if c.cause == 1 then 0 else if c.cause == 2 then 1 else if c.forced then 2 else 3

/-- The due tiles in the order in which they are armed: those due by schedule go earliest due first (R229). -/
def State.chiselWaiters (s : State) : List Nat :=
  let before (a b : Nat) : Bool :=
    let x := (s.tile a).chisel
    let y := (s.tile b).chisel
    x.armRank < y.armRank ||
    (x.armRank == y.armRank &&
      (if x.armRank ≤ 1 then a ≤ b else x.dueBeat < y.dueBeat || (x.dueBeat == y.dueBeat && a ≤ b)))
  sortBy before ((s.tiles.filter fun e => e.2.chisel.state == 1).map (·.1))

/-- The partner of a tile: the nearest eligible spare, by region first, else another due tile (R215). -/
def State.choosePartner (s : State) (t : Nat) : Option Nat :=
  let spares := allTiles.filter fun u =>
    u != t && s.hostOk u && !s.inMaq u && s.armable u && s.slotRoom [t, u]
  match nearestByRegion t spares with
  | some u => some u
  | none => s.chiselWaiters.find? fun u => u != t && s.mayArm u && s.slotRoom [t, u]

/-- OPERAND of CHISEL_START and CHISEL_ABORT (Table 7.17). -/
def startOperand (func slot partner : Nat) (units segs : BitVec 16) (session : BitVec 32) : BitVec 96 :=
  opack [(94, 2, func), (89, 5, slot), (78, 11, partner), (62, 16, units.toNat), (48, 14, segs.toNat),
    (16, 32, session.toNat)]
def abortOperand (func slot reason : Nat) (retire : Bool) (rows : BitVec 66) : BitVec 96 :=
  opack [(94, 2, func), (89, 5, slot), (84, 5, reason), (83, 1, b2n retire), (17, 66, rows.toNat)]

/-- OP codes (Table 3.5). -/
def opCHISEL_START : Nat := 0x10
def opCHISEL_ABORT : Nat := 0x11
def opSEED_LOAD : Nat := 0x31

/-- Send one to a tile. -/
def State.chiselSend (s : State) (op t : Nat) (o : BitVec 96) : State :=
  s.hubSend { op, vc := if op == opSEED_LOAD then 3 else 1, operand := o, dests := oneNode t }

/-- Everything of a session that starts anew when a tile is armed. -/
def ChiselTile.fresh (c : ChiselTile) : ChiselTile :=
  { c with seg := 0xF, list := 0, got := 0, undec := 0, passed := 0, failed := 0, undone := 0
           voided := 0, inconcl := 0, results := [], badRows := 0, voidNow := false
           witness := [], undecBeat := [], badMain := false, abort := 0, saved := false, fencedIn := false, reinit := none }

/-- Arm tile `t` in slot `k` (R229): a tile without a logical tile is READY at once. -/
def State.armTile (s : State) (t k role other : Nat) (units segs : BitVec 16) (session : BitVec 32) : State :=
  let mapped := s.carries t
  let s := s.setSlot k (some { role, tile := t, other, session })
  let s := s.modChisel t fun c =>
    let d := c.fresh
    { d with
      wasDue := c.state == 1, cause := if c.state == 1 then c.cause else 0, forced := c.state == 1 && c.forced
      state := if !mapped then 4 else if c.state == 1 && c.forced then 3 else 2
      carried := mapped, slot := k, units, list := segs, armBeat := s.beat, readyBeat := s.beat }
  let forced := (s.tile t).chisel.forced
  let s := (s.tile t).chisel.orders.foldl (fun s id => s.orderDetail id session) s
  s.chiselSend opCHISEL_START t
    (startOperand (if role == 2 then 2 else b2n forced) k (if role == 2 then 0x7FF else other) units segs session)

/-- Arm a due tile with its partner: one session number for both (R212, R215). -/
def State.armPair (s : State) (t : Nat) : State :=
  if !s.mayArm t then s
  else
    match s.choosePartner t with
    | none => s
    | some u =>
      let n := s.chisel.session + 1
      let units := (s.tile t).chisel.dueUnits
      let s := { s with chisel.session := n }
      match s.freeSlot with
      | none => s
      | some k =>
        let s := s.armTile t k 0 u units 0 n
        match s.freeSlot with
        | none => s
        | some j => s.armTile u j 1 t units 0 n

/-! ### Witnesses (R218) -/

/-- The values of a segment that a tile has sent. -/
def ChiselTile.values (c : ChiselTile) (g : Nat) : List Word := tget [] c.results g

/-- The physical row of value `i` of an ARRAY segment; none for the first value (R217). -/
def valueRow (g i : Nat) : Option Nat := if (g == 2 || g == 10) && 0 < i then some (i - 1) else none

/-- The tile skips value `i` of a segment, a row in its ROW_BAD. -/
def ChiselTile.skips (c : ChiselTile) (g i : Nat) : Bool :=
  match valueRow g i with | some r => r < 66 && c.rowBad.getLsbD r | none => false

/-- The values of segment `g` that need a witness: they differ, or only one of the pair has them. -/
def disputed (a b : ChiselTile) (g : Nat) : List Nat :=
  (List.range (max (a.values g).length (b.values g).length)).filter fun i =>
    (a.skips g i != b.skips g i) ||
    (!a.skips g i && !b.skips g i && (a.values g)[i]? != (b.values g)[i]?)

/-- The witness armed for an undecided segment, and the tile's entries without a witness. -/
def ChiselTile.witnessOf (c : ChiselTile) (g : Nat) : Option Nat :=
  match tget 0 c.witness g with | 0 => none | w + 1 => some w
def ChiselTile.dropWitness (c : ChiselTile) (w : Nat) : ChiselTile := { c with witness := c.witness.filter fun e => e.2 != w + 1 }

/-- A witness for undecided segment `g` of pair (t, p): an eligible spare, else a due tile (R218);
its ROW_BAD holds none of the rows in question. -/
def State.chooseWitness (s : State) (t p g : Nat) : Option Nat :=
  let rows := (disputed (s.tile t).chisel (s.tile p).chisel g).filterMap (valueRow g)
  let fits (u : Nat) : Bool :=
    u != t && u != p && s.armable u && s.slotRoom [u] && !rows.any fun r => (s.tile u).chisel.rowBad.getLsbD r
  match nearestByRegion t (allTiles.filter fun u => s.hostOk u && !s.inMaq u && fits u) with
  | some u => some u
  | none => s.chiselWaiters.find? fun u => s.mayArm u && fits u

/-- Arm a witness for segment `g` of tile `t` of role TESTED, if none is armed for it. -/
def State.armWitnessFor (s : State) (t g : Nat) : State :=
  match (s.tile t).chisel.witnessOf g, s.slotOf t, s.freeSlot with
  | none, some (_, x), some k =>
    if x.role != 0 then s
    else
      match s.chooseWitness t x.other g with
      | none => s
      | some w =>
        let s := s.modChisel t fun c => { c with witness := tset 0 c.witness g (w + 1) }
        s.armTile w k 2 t (mask16 [segUnit g]) (mask16 [g]) x.session
  | _, _, _ => s

/-- Arm a witness for every undecided segment of tile `t` that has none. -/
def State.armWitness (s : State) (t : Nat) : State :=
  (members (s.tile t).chisel.undec).foldl (fun s g => s.armWitnessFor t g) s

/-- Arming in a dispatch phase: witnesses first, then the due tiles in their order (R229). Nothing is armed
while a restore runs. -/
def State.chiselArmAll (s : State) : State :=
  if s.castPhase == 5 then s
  else s.chiselWaiters.foldl State.armPair ((sortBy (fun a b => decide (a ≤ b)) s.slotTiles).foldl State.armWitness s)

/-! ### Disarming -/

/-- Free the slot of a tile. -/
def State.dropSlot (s : State) (t : Nat) : State :=
  match s.slotOf t with
  | some (k, _) => s.setSlot k none
  | none => s

/-- The hold of a tile under test is lifted (R225). -/
def State.liftHold (s : State) (t : Nat) : State :=
  match s.logical t with
  | some l =>
    if s.map.hub.held l then
      s.fenceSend { kind := kTEST_HOLD, fence := false, hold := true, phys := t, logical := some l } false none
    else s
  | none => s

/-- Disarm one tile: its slot is freed, its node told, and it is DUE again if it was (Table 7.6); one already held for
its start is released. It returns unforced where its count is below its limit (R228, R231). -/
def State.disarmOne (s : State) (t : Nat) : State :=
  match s.slotOf t with
  | none => s
  | some (k, x) =>
    let s := if (s.tile t).chisel.state == 6 then s.liftHold t else s
    let s := (s.dropSlot t).chiselSend opCHISEL_ABORT t (abortOperand 0 k 0 false 0)
    let s := s.modChisel t fun c =>
      { c with
        state := if c.wasDue then 1 else 0, cause := if c.wasDue then c.cause else 0
        forced := c.wasDue && c.forced && (c.cause != 0 || decide (s.deferLimit + c.ext ≤ c.deferred)) }
    (if x.role == 2 then s.modChisel x.other fun c => c.dropWitness t else s).chiselPend t

/-- Disarm a tile with the other tile of its pair. -/
def State.disarm (s : State) (t : Nat) : State :=
  match s.slotOf t with
  | none => s
  | some (_, x) =>
    let s := s.disarmOne t
    if x.role == 2 then s
    else
      match s.slotOf x.other with
      | some (_, y) => if y.other == t && y.role != 2 && (s.tile x.other).chisel.state ≤ 5 then s.disarmOne x.other else s
      | none => s

/-- CHISEL_ARM_WAIT: no idle boundary came within ARM_WAIT beats (R228). -/
def State.chiselArmWait (s : State) (t : Nat) : State :=
  let c := (s.tile t).chisel
  if c.state == 2 && c.armBeat + s.armWait ≤ s.beat then s.disarm t else s

/-! ### READY and the start (R223, R233, R234) -/

/-! ### Reports of the nodes (R247) -/

/-- RKIND of a report. -/
def rkREADY : Nat := 0
def rkRESULT : Nat := 1
def rkLIST_DONE : Nat := 2
def rkREINIT_DONE : Nat := 3

/-- The body flits of the REPLY packets of a report, 12 values to a packet, the lower-numbered value of a flit in its
low half. RSTATUS is DONE. -/
def chiselPackets (rkind seg : Nat) (session : BitVec 32) (vals : List Word) : List (List Flit) :=
  let n := max 1 ((vals.length + 11) / 12)
  (List.range n).map fun p =>
    let vs := (vals.drop (12 * p)).take 12
    BitVec.ofNat 128 (packNat [(124, 4, rDONE), (120, 4, rkind), (116, 4, seg), (112, 4, p), (108, 4, n - 1),
      (100, 8, vs.length), (68, 32, session.toNat)]) ::
    (List.range ((vs.length + 1) / 2)).map fun i =>
      BitVec.ofNat 128 (packNat [(0, 64, (vs.getD (2 * i) 0).toNat), (64, 64, (vs.getD (2 * i + 1) 0).toNat)])

/-- The values that the packets of a report carry. -/
def chiselValues (ps : List (List Flit)) : List Word :=
  ps.flatMap fun p => (List.range (flitFld (p.getD 0 0) 107 100)).map fun i =>
    let f := p.getD (i / 2 + 1) 0
    word (if i % 2 == 0 then flitFld f 63 0 else flitFld f 127 64)

/-- Node `t` sends a report of its session. -/
def State.chiselSay (s : State) (t rkind seg : Nat) (vals : List Word) : State :=
  s.sendReply t (chiselPackets rkind seg (s.tile t).chisel.node.session vals)

/-- CHISEL_READY: the armed stream stands at its boundary with no transfer incomplete, held whole in the NI or waiting
at the stack, and stays there (R223). -/
def State.chiselReady (s : State) (t : Nat) : State :=
  let x := s.tile t
  let c := x.chisel
  let boundary := (c.state == 2 && x.core.idleBoundary) || (c.state == 3 && x.core.atBoundary && !x.core.halted)
  if boundary && c.node.arm != 0 && x.core.xfers.isEmpty && x.core.stalled.isEmpty && !s.stackWaiting t && !s.nbAtWork t then
    ((s.modCore t fun c => { c with chiselStop := true }).modChisel t fun c => { c with state := 4, readyBeat := s.beat }).chiselSay t
      rkREADY 0xF []
  else s

/-- The temperature conditions of a tile's start; a BAD sensor is judged by its substitute (R233, R312). -/
def State.tempOk (s : State) (t : Nat) : Bool :=
  (match s.deciding t (regionOf t) with
   | some v => decide (v ≤ 16 * (fld (s.inForce Reg.chiselTempWin) 23 16 : Nat))
   | none => false) &&
  (match s.regionRate (regionOf t) sensorKinds with
   | some r => decide (r.2 < s.warnRate)
   | none => true)

/-- The conditions of R233 for one tile. -/
def State.startOk (s : State) (t : Nat) : Bool := s.tempOk t && s.windowAllows (regionOf t)

/-- The 12 DRAM sensors over a tile lie in the window of SLICE_S (R233). -/
def State.dramWindow (s : State) (t : Nat) : Bool :=
  let w := s.inForce Reg.chiselTempWin
  let lo : Int := 16 * (BitVec.ofNat 8 (fld w 7 0)).toInt
  let hi : Int := 16 * (fld w 15 8 : Nat)
  (List.range numLayers).all fun l => match s.sensorOver t l with
    | some v => decide (lo ≤ v && v ≤ hi)
    | none => false

/-- The session seed (R216). -/
def State.sessionSeed (s : State) (n : BitVec 32) : Word := mix64 (s.inForce Reg.chiselXseed ^^^ n.setWidth 64)

/-- The start signal goes to a tile: SEED_LOAD with the final list (R223, R233). -/
def State.seedSend (s : State) (t : Nat) : State :=
  match s.slotOf t with
  | none => s
  | some (k, x) =>
    let c := (s.tile t).chisel
    let all := if x.role == 2 then c.list else segsOf c.units
    let skip : BitVec 16 := if all.getLsbD 13 && !s.dramWindow t then mask16 [13] else 0
    let list := all &&& ~~~skip
    let seed := s.sessionSeed x.session
    let s := s.modChisel t fun c =>
      { c with state := 7, list, undone := skip, startBeat := s.beat, seed
               seg := (members list).headD 0xF }
    let s := s.bump (if x.role == 2 then Reg.chiselWitnessRuns else Reg.chiselSessions)
    let s := if c.forced && x.role != 2 then s.bump Reg.chiselForcedStarts else s
    s.chiselSend opSEED_LOAD t (opack [(91, 5, k), (77, 14, list.toNat), (0, 64, seed.toNat)])

/-- A tile begins: a mapped one by its test hold, another by its start signal. -/
def State.beginTile (s : State) (t : Nat) : State :=
  match s.logical t, s.fenced t with
  | some l, false =>
    (s.modChisel t fun c => { c with state := 6 }).fenceSend
      { kind := kTEST_HOLD, fence := false, hold := true, phys := t, logical := some l } true none
  | _, _ => s.seedSend t

/-- CHISEL_START_SIGNAL: a READY pair whose conditions hold starts; otherwise it is disarmed, or waits if
the tile is forced (R233, R234). A witness starts alone. -/
def State.chiselStart (s : State) (t : Nat) : State :=
  let waits (u : Nat) : Bool := let st := (s.tile u).chisel.state; st == 4 || st == 5
  match s.slotOf t with
  | none => s
  | some (_, x) =>
    if !waits t then s
    else if x.role == 2 then
      if s.startOk t then s.beginTile t else s
    else if !waits x.other then s
    else if s.startOk t && s.startOk x.other then (s.beginTile t).beginTile x.other
    else if (s.tile t).chisel.forced || (s.tile x.other).chisel.forced then
      [t, x.other].foldl (fun s u =>
        if (s.tile u).chisel.forced && (s.tile u).chisel.state == 4 then
          s.modChisel u fun c => { c with state := 5, readyBeat := s.beat }
        else s) s
    else s.disarm t

/-- CHISEL_STARVED (Table 7.10). -/
def State.raiseStarved (s : State) (t cause : Nat) : State :=
  let b := s.beat - (s.tile t).chisel.forcedBeat
  (s.bump Reg.chiselStarved).raise (mkRec s.time.time 0x0062 t uNODE .note
    (pack [(60, 4, cause), (0, 24, min b (2 ^ 24 - 1))]))

/-- FORCE_WAIT beats have passed for a tile in WAIT_START (R234). -/
def State.starved (s : State) (t : Nat) : Bool :=
  let c := (s.tile t).chisel
  c.state == 5 && decide (c.readyBeat + s.forceWait ≤ s.beat)

/-- A starved tile that is disarmed counts its deferral anew (R234). -/
def State.starveRestart (s : State) (t : Nat) : State :=
  s.modChisel t fun c => { c with deferred := 0, forced := c.cause != 0, forcedBeat := s.beat, startedSlotWait := false }

/-- CHISEL_STARVED: FORCE_WAIT passes in WAIT_START, for each tile of the pair that waited it out, or for a forced tile
that finds no slot or partner (R234). -/
def State.chiselStarve (s : State) (t : Nat) : State :=
  let c := (s.tile t).chisel
  if s.starved t then
    let both := t :: (s.pairOf t).toList
    let cause := if both.all s.tempOk then 1 else 2
    let out := both.filter s.starved
    out.foldl State.starveRestart ((out.foldl (fun s u => s.raiseStarved u cause) s).disarm t)
  else if c.state == 1 && c.forced && !c.startedSlotWait && c.forcedBeat + s.forceWait ≤ s.beat &&
      s.mayArm t then
    (s.raiseStarved t 3).modChisel t fun c => { c with startedSlotWait := true }
  else s

/-- Every node has sent the REPLY of its drain: no NI owes one that names the logical tile, and each holds it
(R223). -/
def State.holdDrained (s : State) (l : Nat) : Bool :=
  allTiles.all fun u =>
    let c := (s.tile u).core
    c.ni.held l && !(c.drains.any fun o => (fenceReq o).holds.contains l)

/-- TEST_HOLD_DRAINED: all drain replies are in, and the start signal goes out (R223). -/
def State.testHoldDrained (s : State) (t : Nat) : State :=
  let s := allTiles.foldl State.drainReply s
  match s.logical t with
  | some l => if (s.tile t).chisel.state == 6 && s.holdDrained l then s.seedSend t else s
  | none => s

/-- A DRAM sensor over a tile leaves its window during SLICE_S. -/
def State.voidSlices (s : State) : State :=
  s.slotTiles.foldl (fun s t =>
    if (s.tile t).chisel.seg == 13 && !s.dramWindow t then s.voidTile t else s) s

/-! ### Results (R217 to R219, R247) -/

/-- Verdict on one segment of one tile. -/
inductive SegVerdict where
  | pass | fail | inconclusive
  deriving DecidableEq, Repr

/-- A session that has not been finished takes a verdict on segment `g`: the values that failed are its rows, or the
main-phase digest or common signature (R240). -/
def ChiselTile.decide (c : ChiselTile) (g : Nat) (v : SegVerdict) (bad : List Nat) : ChiselTile :=
  if c.state != 7 && c.state != 8 then c
  else
    let b := mask16 [g]
    let c := { c with
      undec := c.undec &&& ~~~b, undecBeat := terase c.undecBeat g, witness := terase c.witness g
      badRows := (bad.filterMap (valueRow g)).foldl (fun m r => setBit m r true) c.badRows
      badMain := c.badMain || ((g == 2 || g == 10) && bad.contains 0) }
    match v with
    | .pass => { c with passed := c.passed ||| b }
    | .fail => { c with failed := c.failed ||| b }
    | .inconclusive => { c with undone := c.undone ||| b, inconcl := c.inconcl + 1 }

/-- A segment is decided for a tile. -/
def State.segDecide (s : State) (t g : Nat) (v : SegVerdict) (bad : List Nat) : State :=
  s.modChisel t fun c => c.decide g v bad

/-- Digests or signatures of a segment (R217, R219). -/
def segDigests (g : Nat) : Nat := if g == 2 || g == 10 then 67 else if g == 12 then 0 else 1

/-- Operand word `j` of segment `g` (R216). -/
def operandWord (seed : Word) (g j : Nat) : Word := mix64 (seed ^^^ word (g <<< 56) ^^^ word j)

/-- The values that a segment sends (R217, R219): digests over its outputs, or signatures; then, for a segment with a
march, 0 where it passed or else 1, and for SRAM_S the first failing block (assumption 50). -/
def segValues (seed : Word) (r : SegResult) : List Word :=
  (List.range (segDigests r.seg)).map (fun i =>
    if r.seg < 8 then
      crc64 (flipBytes (Config.segmentOutput r.seg i (operandWord seed r.seg)) ((r.flips.filter fun f => f.1 == i).map (·.2)))
    else Config.signature r.seg i ^^^ tget 0 r.wrong i) ++
  (if r.seg == 12 || r.seg == 13 then [word (b2n r.march.isSome)] else []) ++
  (if r.seg == 12 then [word (r.march.getD 0)] else [])

/-- The pattern that the march of a segment leaves in the memory it runs over (R220). -/
def State.marchLeft (s : State) (t g : Nat) : State :=
  if g == 12 then s.marchSram t else if g == 13 then (s.marchSlice t).issueRefresh t else s

/-- A structural segment against the fused signatures: the values that differ (R219). -/
def structBad (g : Nat) (vs : List Word) : List Nat :=
  (List.range (segDigests g)).filter fun i => vs[i]? != some (Config.signature g i)

/-- Judge a structural segment, on its tile alone. -/
def State.judgeStruct (s : State) (t g : Nat) (vs : List Word) : State :=
  let bad := structBad g vs
  let march := (g == 12 || g == 13) && vs[segDigests g]? != some 0
  s.segDecide t g (if bad.isEmpty && !march then .pass else .fail) bad

/-- Segment `g` of an unfinished session is in dispute from the present beat on. -/
def State.dispute (s : State) (t g : Nat) : State :=
  s.modChisel t fun c =>
    if c.state == 7 || c.state == 8 then { c with undec := c.undec ||| mask16 [g], undecBeat := tset 0 c.undecBeat g s.beat } else c

/-- Judge a cross-check segment of a pair when both results are in (R218). -/
def State.judgeCross (s : State) (t p g : Nat) : State :=
  let a := (s.tile t).chisel
  let b := (s.tile p).chisel
  if (a.values g).isEmpty || (b.values g).isEmpty then s
  else if disputed a b g == [] then (s.segDecide t g .pass []).segDecide p g .pass []
  else (s.dispute t g).dispute p g

/-- What a witness's value makes of one disputed value for the tile that sent `own`, `other` being the other
tile's, if it has one (Table 7.2). -/
def witnessSays (own other : Option Word) (w : Option Word) : SegVerdict :=
  match own, w with
  | none, _ => .pass
  | _, none => .inconclusive
  | some a, some x =>
    match other with
    | none => if x = a then .pass else .inconclusive
    | some b => if x = a && x ≠ b then .pass else if x = b && x ≠ a then .fail else .inconclusive

/-- The verdicts on the disputed values of segment `g` for tile `own`. -/
def sideVerdict (own other : ChiselTile) (g : Nat) (w : Option (List Word)) : SegVerdict × List Nat :=
  let val (c : ChiselTile) (i : Nat) : Option Word := if c.skips g i then none else (c.values g)[i]?
  let vs := (disputed own other g).map fun i => (i, witnessSays (val own i) (val other i) (w.bind fun x => x[i]?))
  let bad := (vs.filter fun e => e.2 = .fail).map (·.1)
  (if !bad.isEmpty then .fail else if vs.any fun e => e.2 = .inconclusive then .inconclusive else .pass, bad)

/-- Decide a disputed segment of the pair (t, p) with the witness's values, or with none. -/
def State.witnessDecide (s : State) (t p g : Nat) (w : Option (List Word)) : State :=
  let a := (s.tile t).chisel
  let b := (s.tile p).chisel
  let x := sideVerdict a b g w
  let y := sideVerdict b a g w
  (s.segDecide t g x.1 x.2).segDecide p g y.1 y.2

/-- The node's list goes on with its next segment; SLICE_S begins with its refresh issued in advance (R213, R221). -/
def State.segStart (s : State) (t : Nat) (segs : BitVec 16) : State :=
  let s := s.modChisel t fun c => { c with node.segs := segs, node.segBeat := s.beat }
  if (s.tile t).chisel.node.slicing then s.issueRefresh t else s

/-- The hub takes the result of the running segment, and judges it unless it was voided (R218, R219, R235). -/
def State.takeResult (s : State) (t g : Nat) (vs : List Word) : State :=
  let c := (s.tile t).chisel
  match s.slotOf t with
  | none => s
  | some (_, x) =>
    if !c.runs || c.seg != g then s
    else
      let b := mask16 [g]
      let got := c.got ||| b
      let void := c.voidNow
      let s := s.modChisel t fun c =>
        { c with got, voidNow := false, voided := if void then c.voided ||| b else c.voided
                 seg := (members (c.list &&& ~~~got)).headD 0xF
                 results := if void then c.results else tset [] c.results g vs }
      if x.role == 2 then
        match s.slotOf x.other with
        | some (_, y) =>
          if (s.tile x.other).chisel.witnessOf g == some t then
            s.witnessDecide x.other y.other g (if void then none else some vs)
          else s
        | none => s
      else if void then s
      else if g < 8 then s.judgeCross t x.other g
      else s.judgeStruct t g vs

/-- SEGMENT_RESULT: the running segment ends on its tile, and its values go to the hub, which reads them from the
packets; the tile's counters take what the segment did (R217 to R220, R247, R393). -/
def State.segmentResult (s : State) (t : Nat) (r : SegResult) : State :=
  let n := (s.tile t).chisel.node
  if (members n.segs).head? != some r.seg then s
  else
    let ps := chiselPackets rkRESULT r.seg n.session (segValues n.seed r)
    let s := (((s.count t 0 r.arrayCycles).count t 1 r.vectorCycles).count t 2 r.sramBytes).count t 3 r.sliceBytes
    let s := (s.marchLeft t r.seg).segStart t (n.segs &&& ~~~mask16 [r.seg])
    (s.sendReply t ps).takeResult t r.seg (chiselValues ps)

/-- The wait for the witness of segment `g` is over: none was armed in time, or the one armed had no start signal, and
is disarmed (R218). -/
def State.witnessLate (s : State) (t p g : Nat) : State :=
  let c := (s.tile t).chisel
  match c.witnessOf g with
  | none => if tget 0 c.undecBeat g + s.witnessWait ≤ s.beat then s.witnessDecide t p g none else s
  | some w =>
    let d := (s.tile w).chisel
    if d.state ≤ 6 && d.armBeat + s.witnessWait ≤ s.beat then (s.disarmOne w).witnessDecide t p g none else s

/-- WITNESS_WAIT_EXPIRY, for every undecided segment of tile `t`. -/
def State.witnessExpiry (s : State) (t : Nat) : State :=
  match s.slotOf t with
  | some (_, x) =>
    if x.role != 0 then s else (members (s.tile t).chisel.undec).foldl (fun s g => s.witnessLate t x.other g) s
  | none => s

/-- CHISEL_LIST_DONE: the node has run every segment of its list, and the hub has every result (Table 7.6). -/
def State.chiselListDone (s : State) (t : Nat) : State :=
  let c := (s.tile t).chisel
  if c.state == 7 && c.node.segs == 0 && c.list &&& ~~~c.got == 0 then
    (s.modChisel t fun c => { c with state := 8, seg := 0xF }).chiselSay t rkLIST_DONE 0xF []
  else s

/-! ### The end of a session (R236 to R241) -/

/-- The voided segments that still fit in the time left, in code order (R236). -/
def State.voidedFit (s : State) (t : Nat) : List Nat :=
  let c := (s.tile t).chisel
  let left := c.startBeat + s.sessionMax - s.beat
  ((members c.voided).foldl (fun (a : List Nat × Nat) g =>
    let n := s.cyclesBeats (regionOf t) (segCycles g)
    if a.2 + n ≤ left then (a.1 ++ [g], a.2 + n) else a) ([], 0)).1

/-- Repairs of Table 7.8. -/
inductive Repair where
  | spareRow | row | tile
  deriving DecidableEq, Repr

/-- Failing rows of a session that are not in ROW_BAD already (R240). -/
def ChiselTile.newRows (c : ChiselTile) : BitVec 66 := c.badRows &&& ~~~c.rowBad

/-- The repair that the failures of a session call for, with the segment that decides it. Where every failure is one
of a row already in ROW_BAD, none is needed (assumption 50). -/
def ChiselTile.repair (c : ChiselTile) : Option (Repair × Nat) :=
  let array : BitVec 16 := mask16 [2, 10]
  let rows := c.newRows
  let seg := (members (c.failed &&& array)).headD 0xF
  match members (c.failed &&& ~~~array) with
  | g :: _ => some (.tile, g)
  | [] =>
    if rows == 0 then (if c.badMain then some (.tile, seg) else none)
    else if 66 < 64 + rowCount (c.rowBad ||| rows) then some (.tile, seg)
    else if (List.range 66).any fun r => rows.getLsbD r && c.assigned r then some (.row, seg)
    else some (.spareRow, seg)

/-- Rows join ROW_BAD; where one of them was assigned, the logical rows move to the usable rows in ascending order
(Table 7.8). -/
def ChiselTile.addBad (c : ChiselTile) (rows : BitVec 66) : ChiselTile :=
  let bad := c.rowBad ||| rows
  { c with rowBad := bad, rowMap := if (List.range 66).any fun r => rows.getLsbD r && c.assigned r then rowMapOf bad else c.rowMap }

/-- The session of a tile goes to REINIT: what is not decided is UNDONE, and no later result changes that (R236). -/
def ChiselTile.toReinit (c : ChiselTile) (reason : Nat) : ChiselTile :=
  { c with
    state := 9, seg := 0xF, abort := reason, undec := 0, undecBeat := [], witness := [], voidNow := false
    undone := (c.list &&& ~~~(c.passed ||| c.failed)) ||| c.undone }

/-- FINISH, or ABORT with its reason, goes to a tile: rows and the end in RETIRED go with a FINISH (R236, R246). -/
def State.chiselFinish (s : State) (t func reason : Nat) : State :=
  match s.slotOf t with
  | none => s
  | some (k, _) =>
    let c := (s.tile t).chisel
    let rep := if reason == 0 then c.repair.map (·.1) else none
    let rows := if rep = some .row || rep = some .spareRow then c.newRows else 0
    (s.modChisel t fun c => c.toReinit reason).chiselSend opCHISEL_ABORT t
      (abortOperand func k reason (rep = some .tile) rows)

/-- The segments of a tile that can no longer be decided, because the other tile of the pair gives no value
for them, are UNDONE (R236). -/
def State.pairLost (s : State) (t p : Nat) : BitVec 16 :=
  let c := (s.tile t).chisel
  let d := (s.tile p).chisel
  let live := (d.state == 7 || d.state == 8) && (s.pairOf p) == some t
  mask16 ((List.range 8).filter fun g =>
    c.got.getLsbD g && !c.voided.getLsbD g && !c.undec.getLsbD g &&
    (!live || d.undone.getLsbD g || !d.list.getLsbD g))

/-- SESSION_MAX is reached (R236). -/
def State.sessionOver (s : State) (t : Nat) : Bool := (s.tile t).chisel.startBeat + s.sessionMax ≤ s.beat

/-- A tile in HOLDING is judged in a dispatch phase: CONTINUE, or FINISH when everything is decided or SESSION_MAX is
reached; a witness is finished at once (R236). -/
def State.chiselHolding (s : State) (t : Nat) : State :=
  let c := (s.tile t).chisel
  match s.slotOf t with
  | none => s
  | some (k, x) =>
    if c.state != 8 then s
    else if x.role == 2 || s.sessionOver t then s.chiselFinish t 1 0
    else
      let fit := s.voidedFit t
      if !fit.isEmpty then
        let m := mask16 fit
        let s := s.modChisel t fun c =>
          { c with state := 7, voided := c.voided &&& ~~~m, got := c.got &&& ~~~m, seg := fit.headD 0xF }
        s.chiselSend opCHISEL_START t (startOperand 3 k x.other c.units m x.session)
      else
        let lost := s.pairLost t x.other
        let s := s.modChisel t fun c => { c with undone := c.undone ||| c.voided ||| (lost &&& ~~~(c.passed ||| c.failed)), voided := 0 }
        let c := (s.tile t).chisel
        if c.list &&& ~~~(c.passed ||| c.failed ||| c.undone) == 0 then s.chiselFinish t 1 0 else s

/-- The holding tiles, in a dispatch phase. -/
def State.chiselHoldAll (s : State) : State := s.slotTiles.foldl State.chiselHolding s

/-- SESSION_MAX_EXPIRY (R236): a running segment is voided and ABORT sent, which leaves the tile HOLDING until the
dispatch phase finishes it; a holding tile is finished (Table 7.6). -/
def State.sessionExpiry (s : State) (t : Nat) : State :=
  let c := (s.tile t).chisel
  match s.slotOf t with
  | none => s
  | some (k, _) =>
    if !s.sessionOver t then s
    else if c.state == 7 then
      ((s.voidTile t).modChisel t fun c => { c with state := 8, seg := 0xF }).chiselSend opCHISEL_ABORT t (abortOperand 2 k 0 false 0)
    else if c.state == 8 then s.chiselFinish t 1 0
    else s

/-- OUTCOME (R239). -/
def ChiselTile.outcome (c : ChiselTile) : Nat :=
  if c.abort != 0 then 3 else if c.failed != 0 then 1
  else if c.undone == 0 && c.list &&& ~~~c.passed == 0 then 0 else 2

/-- CHISEL_END with its counters and what it means for the tile's patina (R239, R241, R242). -/
def State.chiselReport (s : State) (t partner : Nat) : State :=
  let c := (s.tile t).chisel
  let o := c.outcome
  let s := s.bump (match o with | 0 => Reg.chiselPassed | 1 => Reg.chiselFailed | 2 => Reg.chiselIncomplete | _ => Reg.chiselAborted)
  let s := s.raise (mkRec s.time.time 0x0060 t uNODE (if o == 0 then .info else if o == 1 then .fault else .note)
    (pack [(62, 2, o), (48, 14, c.passed.toNat), (34, 14, c.failed.toNat), (20, 14, c.undone.toNat),
      (16, 4, c.abort), (0, 11, partner)]))
  let s := if o == 0 then s.count t 10 1 else s
  let s := s.modPat t fun p =>
    { p with chFail := p.chFail + b2n (o == 1), chIncl := p.chIncl + c.inconcl
             chPass := p.chPass || (o == 0 && c.units &&& s.schedMask == s.schedMask) }
  s.modChisel t fun c => { c with lastFailed := if o == 1 then true else if o == 0 then false else c.lastFailed }

/-- The units whose segments in the list all passed are credited with the present beat (R239). -/
def State.chiselCredit (s : State) (t : Nat) : State :=
  s.modChisel t fun c =>
    { c with lastPass := (List.range 12).foldl (fun m u =>
        let gs := (members c.list).filter fun g => segUnit g == u
        if !gs.isEmpty && gs.all c.passed.getLsbD then tset 0 m u (s.beat + 1) else m) c.lastPass }

/-- The beat of the last passing session of a unit (R239). -/
def State.lastPassBeat (s : State) (t u : Nat) : Nat :=
  let p := tget 0 (s.tile t).chisel.lastPass u
  if p == 0 then s.life.readyBeat + 1 else p - 1

/-- A failing unit starts a taint computation where Table 5.2 says so. -/
def State.chiselTaint (s : State) (t : Nat) (units : List Nat) : State :=
  units.foldl (fun s u =>
    if u == 2 || u == 5 || (8 ≤ u && u ≤ 11) ||
        (u == 1 && fld (s.inForce Reg.sealSealCtl) 3 2 == 0) then
      s.detect { tile := t, unit := u, kind := 2, b0 := s.lastPassBeat t u, cmd := none }
    else s) s

/-- CHISEL_REPAIR (Table 7.10), decided by segment `seg`, and what the hub does for the repair (R240): rows were
added to ROW_BAD at REINIT. -/
def State.chiselRepair (s : State) (t : Nat) (rep : Repair) (seg : Nat) : State :=
  let c := (s.tile t).chisel
  let rs := (List.range 66).filter fun r => c.badRows.getLsbD r && !c.oldBad.getLsbD r
  let kind := match rep with | .spareRow => 0 | .row => 1 | .tile => 2
  let s := s.raise (mkRec s.time.time 0x0061 t uNODE .note
    (pack [(62, 2, kind), (58, 4, seg), (50, 8, rs.headD 0xFF), (42, 8, rs.length), (32, 10, (s.logical t).getD 0x3FF)]))
  match rep with
  | .spareRow => s.bump Reg.chiselRowRepairs
  | .row => rs.foldl (fun s r => s.addRepair (rowEntry t r)) (s.bump Reg.chiselRowRepairs)
  | .tile =>
    let s := s.modChisel t fun c => { c with state := 10 }
    if c.carried then { s with map.repairs := s.map.repairs ++ [t] }
    else if s.fenced t then s
    else s.fenceSend { kind := kRETIRE, fence := true, hold := false, phys := t } true none

/-- REINIT (R225): the row map that a session not aborted decided, the map from the hub by MAP_LOAD, the pairing
entries, and from the save area the SRAM image and the states of R224. A spare's side array is written empty, and a
restore that aborted the session writes the tile itself. -/
def State.chiselRestore (s : State) (t : Nat) : State :=
  let c := (s.tile t).chisel
  let s := (s.modChisel t fun c => { c with oldBad := c.rowBad, oldMap := c.rowMap }).modChisel t fun c => if c.abort == 0 then c.addBad c.node.rowBad else c
  let s := s.mapReload t
  let pairs := (List.range 32).foldl (fun (m : Tbl (Nat × Nat × Nat)) k =>
    match s.session k with
    | some x => if x.closed then m else tset (0, 0, 0) m k (x.host, x.logical, x.source)
    | none => m) []
  let s := s.modMaq t fun m => { m with pairs }
  if c.saved && c.abort != 1 then
    let sv := (tget {} s.stack.save t).core
    (s.restoreImage t).modCore t fun c =>
      { c with sems := sv.sems, gens := sv.gens, staging := sv.staging, dhash := sv.dhash, watch := sv.watch, latch := sv.latch }
  else if !c.carried then (s.emptySeals t).modCore t fun c => { c with latch := [] }
  else s

/-- The tile leaves its session: its hold is lifted and its stream resumes, unless it is RETIRED, when the
hold passes to its promotion (Table 7.6, Table 7.7). A running restore keeps its own holds. -/
def State.chiselRelease (s : State) (t : Nat) : State :=
  let c := (s.tile t).chisel
  let retired := c.state == 10 || (c.node.retire && c.abort == 0)
  let s := s.dropSlot t
  let s := if retired || (s.fenced t && s.promoting t) || s.castPhase == 5 then s else s.liftHold t
  let s := if retired then s else s.modCore t fun c => { c with chiselStop := false }
  s.modChisel t fun c =>
    { c with slot := 0, node := {}, forced := false, saved := retired && c.saved, carried := false, fencedIn := false
             reinit := none, state := if retired then 10 else 0 }

/-- A session of the tile's own has ended: its time counts for the next one (R227), its orders complete, and a
SUSPECT session that waited follows. -/
def State.chiselOver (s : State) (t : Nat) : State :=
  let s := (s.tile t).chisel.orders.foldl (fun s id => s.finish id .ok) s
  let s := (s.chiselRelease t).modChisel t fun c => { c with lastEnd := s.beat, ended := true, orders := [] }
  if (s.tile t).chisel.state == 10 then s.modChisel t fun c => { c with pend := false } else s.chiselPend t

/-- A unit that REINIT could not reset calls for a TILE repair; no other one follows an abort (R240, Table 7.6). -/
def ChiselTile.finalRepair (c : ChiselTile) (stuck : Option Nat) : Option (Repair × Nat) :=
  match c.repair, stuck with
  | some (.tile, g), _ => if c.abort == 0 then some (.tile, g) else stuck.map fun _ => (.tile, 0xF)
  | _, some _ => some (.tile, 0xF)
  | r, none => if c.abort == 0 then r else none

/-- Units whose failure may have touched the tile's results: those of failed segments, unless rows that compute
nothing are all that failed in the array, and one that could not be reset (R240, R241). -/
def ChiselTile.taintUnits (c : ChiselTile) (stuck : Option Nat) : List Nat :=
  let idle := match c.repair with | none | some (.spareRow, _) => true | _ => false
  ((((members c.failed).map segUnit).filter fun u => !(idle && u == 1)) ++ stuck.toList).dedup

/-- The dispatch phase after REINIT_DONE: the outcome is reported, taint computations start, units are credited, the
repair is made and the hold lifted. A tile fenced during its session is RETIRED (R225, R239 to R241, Table 7.7). -/
def State.chiselEnd (s : State) (t : Nat) : State :=
  let c := (s.tile t).chisel
  match s.slotOf t, c.reinit with
  | some (_, x), some stuck =>
    if c.state != 9 then s
    else if x.role == 2 then
      match stuck with
      | some u => ((s.chiselTaint t [u]).chiselRepair t .tile 0xF).chiselOver t
      | none =>
        if c.fencedIn then (s.modChisel t fun c => { c with state := 10 }).chiselOver t
        else ((s.chiselRelease t).modChisel t fun d => if c.wasDue then { d with state := 1, forced := c.forced } else d).chiselPend t
    else
      let old := { c with rowBad := c.oldBad, rowMap := c.oldMap }
      let s := ((s.chiselReport t x.other).chiselTaint t (old.taintUnits stuck)).chiselCredit t
      let s := match old.finalRepair stuck with | some r => s.chiselRepair t r.1 r.2 | none => s
      let s := if c.fencedIn then s.modChisel t fun c => { c with state := 10 } else s
      s.chiselOver t
  | _, _ => s

/-- An abort of every session (Table 7.7): RESTORE (1) disarms those not yet started, REPOSE (2) ends them
ABORTED, and both send running ones to REINIT. REPOSE finds one in REINIT too: it ends with no repair, unless it is done
already. -/
def State.chiselAbortAll (s : State) (reason : Nat) : State :=
  s.slotTiles.foldl (fun s t =>
    match s.slotOf t with
    | none => s
    | some (_, x) =>
      let c := (s.tile t).chisel
      if 6 ≤ c.state && c.state ≤ 8 then s.chiselFinish t 2 reason
      else if c.state == 9 then
        if reason == 1 then s else if c.reinit.isSome then s.chiselEnd t else s.chiselFinish t 2 reason
      else if reason == 1 then s.disarm t
      else if x.role == 2 then s.disarmOne t
      else
        let s := s.modChisel t fun c => { c with abort := reason }
        let s := s.chiselReport t x.other
        (s.chiselSend opCHISEL_ABORT t (abortOperand 0 c.slot 0 false 0)).chiselOver t) s

/-- A controlled shutdown ends every session at once, without REINIT (Table 7.6). -/
def State.chiselShutdown (s : State) : State :=
  s.slotTiles.foldl (fun s t =>
    match s.slotOf t with
    | some (_, x) =>
      let s := s.modChisel t fun c => c.toReinit 3
      let s := if x.role == 2 then s else s.chiselReport t x.other
      (s.dropSlot t).modChisel t fun c => { c with state := 0 }
    | none => s) s

/-- A quarantine or another fence of a tile disarms a session that has not started; one that has runs on, and leaves
the tile RETIRED (Table 7.7). -/
def State.chiselFenced (s : State) (t : Nat) : State :=
  let st := (s.tile t).chisel.state
  if 2 ≤ st && st ≤ 5 then s.disarm t
  else if 6 ≤ st && st ≤ 9 then s.modChisel t fun c => { c with fencedIn := true }
  else s

/-! ### Orders of this chapter (R230, R231) -/

/-- CHISEL_NOW completes STATE_ILLEGAL for this tile. -/
def State.chiselNowIllegal (s : State) (t : Nat) : Bool :=
  (s.tile t).core.halted || 4 ≤ (s.tile t).chisel.state || s.promoting t

/-- CHISEL_NOW takes effect. -/
def State.chiselNowDo (s : State) (t : Nat) (units : BitVec 16) (order : Nat) : State :=
  let s := s.chiselCall t 2 (if units == 0 then s.schedMask else units)
  s.modChisel t fun c => { c with orders := c.orders ++ [order] }

/-- The tile cannot be deferred by an order that names it. -/
def State.deferIllegal (s : State) (t : Nat) : Bool :=
  let c := (s.tile t).chisel
  6 ≤ c.state || (1 ≤ c.state && c.cause != 0)

/-- CHISEL_DEFER of one tile (R231). -/
def State.deferTile (s : State) (t beats : Nat) : State :=
  let c := (s.tile t).chisel
  let own := match s.slotOf t with | some (_, x) => x.role == 0 | none => false
  let due := c.state == 1 || (2 ≤ c.state && c.state ≤ 5 && (own || c.wasDue))
  if due && c.cause == 0 then
    let ext := min (c.ext + beats) (fld (s.inForce Reg.chiselDeferMax) 31 0)
    let s := s.modChisel t fun c => { c with ext }
    let s := if own && 2 ≤ c.state then s.disarm t else s
    if c.deferred < s.deferLimit + ext && (c.state == 1 || own) then s.modChisel t fun c => { c with forced := false } else s
  else s

/-- The tiles that a CHISEL_DEFER operand addresses (Table 7.4). -/
def deferTiles (operand : BitVec 48) : List Nat :=
  let w : Word := operand.setWidth 64
  match fld w 47 46 with
  | 0 => [fld w 43 33]
  | 1 => tilesOfRegion (fld w 32 29)
  | _ => allTiles

/-! ### Registers -/

/-- CHISEL_STATUS (Table 7.11). -/
def State.chiselStatus (s : State) : Word :=
  let rs := List.range numRegions
  pack [(48, 11, (s.tiles.filter fun e => e.2.chisel.state == 1).length), (40, 6, s.slotsUsed),
    (16, 16, (bitsWord 0 (rs.filter fun g => fld (s.inForce Reg.chiselChiselCtl) 11 8 ≤ s.regionSlots g)).toNat),
    (0, 16, (bitsWord 0 (rs.filter s.windowOk)).toNat)]

/-- SLOT[k] (Table 7.15). -/
def State.slotWord (s : State) (k : Nat) : Word :=
  match s.slot k with
  | some x =>
    let c := (s.tile x.tile).chisel
    pack [(63, 1, 1), (61, 2, x.role), (57, 4, c.state), (53, 4, c.seg), (42, 11, x.tile), (31, 11, x.other),
      (0, 31, x.session.toNat)]
  | none => 0

/-- CHISEL_STATE of a tile (Table 7.16). -/
def ChiselTile.word (c : ChiselTile) : Word :=
  pack [(60, 4, c.state), (56, 4, c.seg), (54, 2, c.cause), (53, 1, b2n c.forced), (52, 1, b2n c.lastFailed),
    (47, 5, c.slot), (24, 16, c.units.toNat), (0, 24, c.deferred)]

/-- LAST_PASS[u] of a tile (Table 7.16). -/
def ChiselTile.passWord (c : ChiselTile) (u : Nat) : Word :=
  let p := tget 0 c.lastPass u
  if p == 0 then 0 else pack [(63, 1, 1), (0, 51, p - 1)]

/-! ### Meanings -/

/-- CHISEL_DUE. -/
def execChiselDue (t : Nat) (s : State) : Host.Outcome State Fault Refusal :=
  doWhen (s.ready && !s.inRepose && t < numTiles) (fun s => s.chiselDue t) s

/-- CHISEL_FORCED. -/
def execChiselForced (t : Nat) (s : State) : Host.Outcome State Fault Refusal :=
  doWhen (s.ready && !s.inRepose && t < numTiles) (fun s => s.chiselForce t) s

/-- CHISEL_READY. -/
def execChiselReady (t : Nat) (s : State) : Host.Outcome State Fault Refusal :=
  doWhen (s.ready && t < numTiles) (fun s => s.chiselReady t) s

/-- CHISEL_ARM_WAIT. -/
def execChiselArmWait (t : Nat) (s : State) : Host.Outcome State Fault Refusal :=
  doWhen (s.ready && t < numTiles) (fun s => s.chiselArmWait t) s

/-- CHISEL_START_SIGNAL. -/
def execChiselStartSignal (t : Nat) (s : State) : Host.Outcome State Fault Refusal :=
  doWhen (s.ready && !s.inRepose && t < numTiles) (fun s => s.chiselStart t) s

/-- CHISEL_STARVED. -/
def execChiselStarved (t : Nat) (s : State) : Host.Outcome State Fault Refusal :=
  doWhen (s.ready && !s.inRepose && t < numTiles) (fun s => s.chiselStarve t) s

/-- TEST_HOLD_DRAINED. -/
def execTestHoldDrained (t : Nat) (s : State) : Host.Outcome State Fault Refusal :=
  doWhen (s.ready && t < numTiles) (fun s => s.testHoldDrained t) s

/-- SEGMENT_RESULT. -/
def execSegmentResult (t : Nat) (r : SegResult) (s : State) : Host.Outcome State Fault Refusal :=
  doWhen (s.ready && t < numTiles && r.seg < 14) (fun s => s.segmentResult t r) s

/-- WITNESS_WAIT_EXPIRY. -/
def execWitnessWaitExpiry (t : Nat) (s : State) : Host.Outcome State Fault Refusal :=
  doWhen (s.ready && t < numTiles) (fun s => s.witnessExpiry t) s

/-- CHISEL_LIST_DONE. -/
def execChiselListDone (t : Nat) (s : State) : Host.Outcome State Fault Refusal :=
  doWhen (s.ready && t < numTiles) (fun s => s.chiselListDone t) s

/-- SESSION_MAX_EXPIRY. -/
def execSessionMaxExpiry (t : Nat) (s : State) : Host.Outcome State Fault Refusal :=
  doWhen (s.ready && t < numTiles) (fun s => s.sessionExpiry t) s

end Sys2Proof.Machine
end

