-- ==== Sys2Proof/Machine/Mould.lean ====
section
/-! DEFINITION. Cast ranges, dirty sets and the mould copy of one tile (chapter 11). A mould stands in the
blocks of its slice, and what they hold is kept beside them as a value: the index, the control block and the payload
(assumption 20). -/

namespace Sys2Proof.Machine

/-- The cast ranges of the cast in progress (R332). -/
def State.castForce (s : State) : List BlkRange :=
  (List.range 16).filterMap fun k =>
    let w := tget 0 s.cast.rangesInForce k
    if bit w 63 then some (rangeOf w) else none

/-- The blocks of the cast ranges in one slice, in ascending layer and block order (R336). -/
def State.castBlocks (s : State) : List (Nat × Nat) :=
  (List.range numLayers).flatMap fun l =>
    ((List.range (runtimeEnd l)).filter fun b => s.castForce.any fun r => r.has l b).map fun b => (l, b)

/-- The dirty set of logical tile `l` on tile `t`: of a full cast, every block not yet copied in it as
well (R333). -/
def State.dirtySet (s : State) (r : CastRun) (t l : Nat) : List (Nat × Nat) :=
  let seen := (r.past.filter fun m => m.logical == l).flatMap fun m => m.blocks.map fun b => (b.1, b.2.1)
  s.castBlocks.filter fun b => s.isDirty t b.1 b.2 || (r.full && !seen.contains b)

/-- Payload blocks of a mould (R335). -/
def mouldPayload : Nat := 1022

/-- CUT_CSEQ and CUT_HALTED of CAST_TILE (Table 11.9). -/
def castTileWord (next : BitVec 24) (halted : Bool) : Word := pack [(40, 24, next.toNat), (39, 1, b2n halted)]

/-- CAST_TILE of a tile page (Table 11.9): DIRTY counts the dirty blocks that its slice holds now. -/
def State.castTileRead (s : State) (t : Nat) : Word :=
  (s.tile t).page.castTile |||
    pack [(16, 16, min (s.castBlocks.filter fun b => s.isDirty t b.1 b.2).length 0xFFFF)]

/-- The first block of the mould, in layer 1 (R335). -/
def mouldFirst : Nat := 732

/-- The index block: an entry for each payload block; an unused entry is all ones (R335). -/
def mouldIndex (bs : List (Nat × Nat)) : List Byte :=
  crcBlock (((bs.map fun (b : Nat × Nat) => packNat [(28, 4, b.1), (17, 11, b.2)]) ++
    List.replicate (mouldPayload - bs.length) 0xFFFF_FFFF).flatMap (leBytes 4))

/-- The control block of R334, its parts in the rule's order (log entry 20). -/
def mouldControl (m : CastMould) : List Byte :=
  crcBlock (leBytes 4 m.next.toNat ++ leBytes 4 (b2n m.halted + 2 * b2n m.interrupted) ++
    ((List.range 32).flatMap fun i => leBytes 4 (tget 0 m.sems i)) ++
    ((List.range 64).flatMap fun i => leBytes 16 (tget 0 m.gens i).toNat) ++ leBytes 4 m.logical)

/-- The mould copy engine writes the index and control blocks with empty seal words, and the payload with the seal
words of the blocks copied (R123, R128, R335). -/
def State.mouldWrite (s : State) (t : Nat) (m : CastMould) : State :=
  let s := s.portBlock (.slice t 1 mouldFirst) (mouldIndex (m.blocks.map fun (b : Nat × Nat × List Byte × Word) => (b.1, b.2.1))) emptySeal
  let s := s.portBlock (.slice t 1 (mouldFirst + 1)) (mouldControl m) emptySeal
  ((List.range m.blocks.length).zip m.blocks).foldl (fun s e =>
    s.portBlock (.slice t 1 (mouldFirst + 2 + e.1)) e.2.2.2.1 e.2.2.2.2) s

/-- The blocks of a mould in the log: index, control block and payload (R335, R342). -/
def mouldStored (m : CastMould) : List (List Byte) :=
  mouldIndex (m.blocks.map fun (b : Nat × Nat × List Byte × Word) => (b.1, b.2.1)) :: mouldControl m ::
    m.blocks.map fun (b : Nat × Nat × List Byte × Word) => b.2.2.1

/-- The slice of tile `t` copies the control state captured when its stream stopped and the first 1,022 dirty blocks of
logical tile `l` into its mould, clearing their dirty bits (R334, R335, R336, R340). -/
def State.mouldCopy (s : State) (t l : Nat) : State :=
  match s.cast.run with
  | none => s
  | some r =>
    let d := s.dirtySet r t l
    let bs := d.take mouldPayload
    let k := (s.tile t).core
    let c := k.cut.getD k.cutNow
    let was := (bs.filter fun b => s.isDirty t b.1 b.2).map fun b => (l, b.1, b.2)
    let m : CastMould :=
      { logical := l, next := c.next, halted := c.halted, interrupted := c.interrupted, sems := c.sems, gens := c.gens
        blocks := bs.map fun b => (b.1, b.2, s.stackBytes t b.1 b.2, s.stackSeal t b.1 b.2) }
    let x : Mould := { rec_ := m, drained := false }
    let s := (s.mouldWrite t m).modCore t fun k => { k with cut := none }
    let s := { s with
      stack.dirty := bs.foldl (fun q (b : Nat × Nat) => tset false q (stackBlock t b.1 b.2) false) s.stack.dirty
      cast.run := some { r with copied := l :: r.copied, moulds := (r.moulds.filter fun (e : Nat × Mould) => e.1 != t) ++ [(t, x)]
                                lbas := r.lbas + 2 + bs.length, cleared := was ++ r.cleared } }
    s.modPage t fun p => { p with castTile := castTileWord m.next m.halted, castLast := r.number }

/-- The mould of tile `t` goes to the mirror partner (R341). -/
def State.mirrorMould (s : State) (t : Nat) : State :=
  match s.cast.run.bind fun r => r.moulds.find? fun e => e.1 == t with
  | some e => s.mirrorQueue s.cast.partnerChip t (mouldStored e.2.rec_)
  | none => s

/-- A tile that took part in the pause without a copy makes it now: at the end of REINIT, or on the target
of its promotion (Table 11.3); after the resume its mould is mirrored at once. -/
def State.castLate (s : State) (t l : Nat) : State :=
  match s.cast.run with
  | some r =>
    if (r.phase == 3 || r.phase == 4) && (r.ready.any fun e => e.1 == l) && !r.copied.contains l then
      let s := s.mouldCopy t l
      if r.phase == 4 && r.mirror then s.mirrorMould t else s
    else s
  | none => s

/-- A mould of tile `t` is not yet drained. -/
def State.mouldBusy (s : State) (t : Nat) : Bool :=
  match s.cast.run with
  | some r => r.moulds.any fun e => e.1 == t && !e.2.drained
  | none => false

end Sys2Proof.Machine
end

