-- ==== Sys2Proof/Machine/Patina.lean ====
section
/-! DEFINITION. The patina score and levels, quarantine, promotion, and releasing a partition
(chapter 8). -/

namespace Sys2Proof.Machine

/-! ### The score (R248 to R250) -/

/-- The contributions of a beat to a tile's accumulator: input code and addition (R249, Table 8.1). -/
def patinaInputs (p : PatTile) (wa wb : Word) : List (Nat × Nat) :=
  let unit (n w : Nat) : Nat := n * w * 2 ^ 13
  [(0, unit p.sums.eccCorr (fld wa 31 16)), (1, unit p.sums.eccUncorr (fld wa 47 32)),
   (2, unit p.sums.sealFault (fld wa 63 48)), (3, unit p.maqCharge (fld wb 63 48)),
   (4, unit p.chFail (fld wb 47 32)), (5, unit p.chIncl (fld wb 31 16)),
   (6, unit p.sums.droop (fld wa 15 0)), (7, unit (b2n p.hot) (fld wb 15 0))]

/-- The input code with the largest addition, the lowest on a tie; none when nothing was added (R280). -/
def topInput (xs : List (Nat × Nat)) : Option Nat :=
  (xs.foldl (fun (b : Option (Nat × Nat)) e =>
    if e.2 == 0 then b else match b with | some c => if c.2 < e.2 then some e else some c | none => some e) none).map (·.1)

/-- The accumulator after a beat: additions, the halving of a full PASS, and decay (R249). -/
def accAfter (acc : Nat) (xs : List (Nat × Nat)) (halve decay : Bool) (shift : Nat) : Nat :=
  let a := xs.foldl (fun a e => min (a + e.2) (2 ^ 32 - 1)) acc
  let a := if halve then a / 2 else a
  if decay then a - a / 2 ^ shift else a

/-- Threshold of a level in points (Table 8.11). -/
def levelThresh (th : Word) (l : Nat) : Nat :=
  match l with | 0 => 0 | 1 => fld th 31 16 | 2 => fld th 47 32 | _ => fld th 63 48

/-- The level after a judgement (R252): a rise to the highest level reached, a fall of one. -/
def levelAfter (th : Word) (level score : Nat) : Nat :=
  let top := if levelThresh th 3 ≤ score then 3 else if levelThresh th 2 ≤ score then 2
    else if levelThresh th 1 ≤ score then 1 else 0
  if level < top then top
  else if 0 < level && score + fld th 15 0 < levelThresh th level then level - 1
  else level

/-- PATINA_LEVEL (Table 8.10). -/
def State.raiseLevel (s : State) (t old new cause score : Nat) : State :=
  s.raise (mkRec s.time.time 0x0070 t uNODE (if new == 3 then .fault else .note)
    (pack [(62, 2, old), (60, 2, new), (56, 4, cause), (0, 16, score)]))

/-- A tile's level changes: the event, the crossing counters, and on a rise its actions (R253, R254). -/
def State.levelChange (s : State) (t old new cause score : Nat) : State :=
  let s := s.raiseLevel t old new cause score
  let s := s.modPat t fun p => { p with level := new, cause, beat := s.beat }
  if old < new then
    let s := if old == 0 then s.bump Reg.patinaWatchCrossings else s
    let s := if old ≤ 1 && 2 ≤ new then s.bump Reg.patinaSuspectCrossings else s
    let s := if new == 3 then s.bump Reg.patinaQuarantines else s
    if bit (s.inForce Reg.patinaPatinaCtl) 0 then { s with map.actions := s.map.actions ++ [(t, old, new)] } else s
  else if new == 0 then s.modMaq t fun m => { m with raised := false }
  else s

/-- One tile in the patina update. -/
def State.patinaTile (s : State) (t : Nat) : State :=
  let ctl := s.inForce Reg.patinaPatinaCtl
  let hotC : Int := 16 * (fld (s.inForce Reg.patinaHot) 7 0 : Nat)
  let hot := match (s.sensor t).value with | some v => decide (hotC ≤ v) | none => false
  let p := { (s.tile t).pat with hot }
  let xs := patinaInputs p (s.inForce Reg.patinaWeightA) (s.inForce Reg.patinaWeightB)
  let halve := p.chPass && bit ctl 2
  let decay := (s.beat - s.life.readyBeat) % fld ctl 31 8 == 0 && s.beat != s.life.readyBeat
  let acc := accAfter p.acc.toNat xs halve decay (fld ctl 39 32)
  let score := acc / 2 ^ 16
  let new := levelAfter (s.inForce Reg.patinaThresh) p.level score
  let cause := (topInput xs).getD (if halve then 8 else if decay then 9 else 10)
  let p' : PatTile :=
    { p with acc := BitVec.ofNat 32 acc, maqCharge := 0, chFail := 0, chIncl := 0, chPass := false, sums := {} }
  let s := if p' = (s.tile t).pat then s else s.modPat t fun _ => p'
  if new == p.level then s else s.levelChange t p.level new cause score

/-- PATINA_UPDATE: every tile's score and level, then the count of eligible hosts (R249, R252, R184). -/
def State.patinaUpdate (s : State) : State := (allTiles.foldl State.patinaTile s).hostUpdate

/-! ### Spares and targets (R268) -/

/-- A tile may be the target of a promotion. -/
def State.targetOk (s : State) (u : Nat) : Bool :=
  let x := s.tile u
  u < numTiles && (s.logical u).isNone && !s.fenced u && x.pat.level == 0 && !x.chisel.lastFailed &&
  !s.inSlot u && !s.map.promotions.any fun p => p.target == some u

/-- The eligible spare nearest a tile, in its region. -/
def State.chooseTarget (s : State) (t : Nat) : Option Nat :=
  nearest t ((tilesOfRegion (regionOf t)).filter s.targetOk)

/-- Eligible spares of a region (Table 8.13). -/
def State.sparesFree (s : State) (g : Nat) : Nat := ((tilesOfRegion g).filter s.targetOk).length

/-! ### Fences as the hub issues them (R266) -/

/-- AUTO_PROMOTE (R271). -/
def State.autoPromote (s : State) : Bool := bit (s.inForce Reg.patinaPatinaCtl) 1

/-- The stream of a tile that stands at its boundary is held there for the fence that follows (R276, R278). -/
def State.holdBoundary (s : State) (t : Nat) : State := s.modCore t fun c => { c with fenceStop := true }

/-- What a fence of tile `t` means for its sessions, armed tests and pending orders (Tables 6.3, 7.7, R276). -/
def State.fenceHooks (s : State) (t : Nat) : State := ((s.dropPending t).maqFenced t).chiselFenced t

/-- The hub fences one tile, with or without a hold of its logical tile. -/
def State.fenceTile (s : State) (t kind : Nat) (fence hold : Bool) (order : Option Nat) : State :=
  (s.fenceHooks t).fenceSend { kind, fence, hold, phys := t, logical := s.logical t } true order

/-! ### Promotion (R268 to R272) -/

/-- PROMOTE_FAIL (Table 8.10). -/
def State.promoteFail (s : State) (reason t l : Nat) : State :=
  s.raise (mkRec s.time.time 0x0074 t uNODE .fault (pack [(60, 4, reason), (40, 11, t), (30, 10, l)]))

/-- Change the promotion of a logical tile. -/
def State.modPromotion (s : State) (l : Nat) (f : Promotion → Promotion) : State :=
  { s with map.promotions := s.map.promotions.map fun (p : Promotion) => if p.logical == l then f p else p }

/-- The promotion of a logical tile. -/
def State.promotion (s : State) (l : Nat) : Option Promotion := s.map.promotions.find? fun p => p.logical == l

/-- DETAIL of a PROMOTE order (Table 15.14). -/
def promoteDetail (target : Option Nat) (l : Nat) : BitVec 32 :=
  BitVec.ofNat 32 ((target.getD 0x7FF) <<< 10 ||| l)

/-- Step 1 of a promotion: tile `t` is fenced and its logical tile held; without an eligible spare the fence has no
hold, a hold that a test passed on is lifted, and the promotion stays pending (R269, R272). A PROMOTE order that still
waited for its boundary goes on with this promotion. -/
def State.promoteFence (s : State) (t kind : Nat) (target order : Option Nat) (saved : Bool) : State :=
  match s.logical t with
  | none => s
  | some l =>
    let was := s.promotion l
    let target := if target.isSome then target else was.bind (·.target)
    let have_ := target.isSome || (s.chooseTarget t).isSome
    let held := s.map.hub.held l
    let order := if order.isSome then order else was.bind (·.order)
    let rest := s.map.promotions.filter fun (p : Promotion) => p.logical != l
    let p : Promotion := { logical := l, from_ := t, target, step := if have_ then 1 else 0, since := s.beat, saved, uncorr := 0
                           order, kind, ready := saved, fenceBeat := s.beat }
    let s := if kind == kPROMOTE then s.holdBoundary t else s
    let fence := !s.fenced t || kind == kQUARANTINE
    let s := if !fence && (held || !have_) then s.fenceHooks t
             else s.fenceTile t kind fence (have_ && !held) none
    let s := if held && !have_ then
        s.fenceSend { kind, fence := false, hold := true, phys := t, logical := some l } false none
      else s
    let s := { s with map.promotions := rest ++ [p] }
    if have_ then s else s.promoteFail 1 t l

/-- Level QUARANTINE: a fence, also of a tile that another fence stopped before, with a promotion if one follows and
none is in progress (R253, R271). A tile that a TILE repair retired has its state in its save area already (R269).
-/
def State.quarantine (s : State) (t : Nat) : State :=
  if (s.logical t).isSome && s.autoPromote && !s.promoting t then
    s.promoteFence t kQUARANTINE none none ((s.tile t).chisel.state == 10)
  else s.fenceTile t kQUARANTINE true false none

/-- The patina actions of one rise (R253). -/
def State.patinaAction (s : State) (a : Nat × Nat × Nat) : State :=
  let s := if a.2.2 == 3 && a.2.1 < 3 then s.quarantine a.1 else s
  let s := if 2 ≤ a.2.2 && a.2.1 < 2 then s.chiselSuspect a.1 else s
  if 1 ≤ a.2.2 && a.2.1 < 1 then s.modMaq a.1 fun m => { m with raised := true } else s

/-- A tile waiting for its command boundary is fenced there: FENCE with MODE 1, and PROMOTE of a tile that
was not fenced (R276, R278). -/
def State.boundaryFences (s : State) : State :=
  let s := s.map.pendFence.foldl (fun s e =>
    if (s.tile e.1).core.atBoundary && s.map.pendFence.contains e then
      let s := { s with map.pendFence := s.map.pendFence.filter fun (x : Nat × Nat) => x != e }
      (s.holdBoundary e.1).fenceTile e.1 kORDER true false (some e.2)
    else s) s
  s.map.promotions.foldl (fun s p =>
    if p.step == 6 && (s.tile p.from_).core.atBoundary then s.promoteFence p.from_ kPROMOTE p.target p.order false else s) s

/-- The promotion began in a cast pause, between Q and resume, and waits for the pause's end (Table 8.5); one that
began in the gather runs on (Table 11.3). -/
def State.pauseBlocks (s : State) (p : Promotion) : Bool :=
  match s.cast.run with
  | some r => r.phase == 3 && r.since ≤ p.since
  | none => false

/-- The hold of a promotion that has no target left is lifted and the promotion stays pending; a PROMOTE
order behind it ends NO_SPARE (R270). -/
def State.targetLost (s : State) (p : Promotion) : State :=
  let s := s.promoteFail 2 p.from_ p.logical
  let s := s.fenceSend { kind := p.kind, fence := false, hold := true, phys := p.from_, logical := some p.logical } false none
  let s := s.finishOpt p.order .noSpare
  s.modPromotion p.logical fun q => { q with step := 0, target := none, order := none }

/-- Step 3 begins: the named target, or the nearest eligible spare; a maquette session on it ends (R268,
R269, R270). A cast pause defers the lifting of the hold where no target is left (Table 11.3). -/
def State.migrateStart (s : State) (p : Promotion) : State :=
  let free := { s with map.promotions := s.map.promotions.map fun (q : Promotion) =>
      if q.logical == p.logical then { q with target := none } else q }
  let named := match p.target with | some u => if free.targetOk u then some u else none | none => none
  match (match named with | some u => some u | none => free.chooseTarget p.from_) with
  | none =>
    if s.castPhase == 3 then free.modPromotion p.logical fun q => { q with step := 3 } else free.targetLost p
  | some u =>
    let s := (free.maqPromoted u).modPromotion p.logical fun q => { q with target := some u, step := 3, ready := false }
    match p.order with
    | some id => s.orderDetail id (promoteDetail (some u) p.logical)
    | none => s

/-- A target that was fenced or left NORMAL during steps 3 or 4 (R270). -/
def State.targetGone (s : State) (p : Promotion) : Bool :=
  match p.target with
  | some u => s.fenced u || (s.tile u).pat.level != 0
  | none => true

/-- A promotion in steps 3 or 4 whose target is gone starts again at step 3 with a new target, in the dispatch phase in
which it is lost (R270). -/
def State.targetsCheck (s : State) : State :=
  s.map.promotions.foldl (fun s p =>
    if (p.step == 3 || p.step == 4) && s.targetGone p then s.migrateStart { p with target := none } else s) s

/-- The patina actions of a dispatch phase, ascending by tile within each update, and the promotions that
follow TILE repairs (R66, R240, R253); a promotion whose target is lost looks for another (R270). -/
def State.patinaDispatch (s : State) : State :=
  let acts := s.map.actions
  let reps := s.map.repairs
  let s := { s with map.actions := [], map.repairs := [] }
  let s := acts.foldl State.patinaAction s
  let s := reps.foldl (fun s t => if (s.logical t).isSome && !s.promoting t then s.promoteFence t kPROMOTE none none true else s) s
  s.boundaryFences.targetsCheck

/-- PROMOTION_SAVE_DONE: the state of the fenced tile is in its save area, or the save did not finish within 4 beats;
migration begins (R269). A report that the hub aggregates after the beat that follows those 4 tells of a save that took
longer. A chisel session of the tile runs on to its end first (Table 7.7). -/
def State.promotionSaved (s : State) (l : Nat) (timedOut : Bool) : State :=
  match s.promotion l with
  | some p =>
    let isIn := p.ready && (s.tile p.from_).chisel.state == 10 && (s.tile p.from_).chisel.saved
    let timedOut := timedOut || p.since + 5 < s.beat
    if p.step == 1 && (s.tile p.from_).core.router && !s.pauseBlocks p && !(s.tile p.from_).chisel.inSession &&
        (isIn || !timedOut || p.since + 4 ≤ s.beat) then
      let s := if isIn then s
        else
          let s := if timedOut then s else s.saveImage p.from_
          { s with stack.save := tset {} s.stack.save p.from_ (s.tile p.from_) }
      (s.modPromotion l fun q => { q with saved := isIn || !timedOut }).migrateStart { p with saved := isIn || !timedOut }
    else s
  | none => s

/-- Entries of a table for keys from `a` to `a + n - 1`, moved to start at `b`. -/
def moveTbl {α : Type} (m : Tbl α) (a b n : Nat) : Tbl α :=
  m.filter (fun e => e.1 < b) ++
  (m.filter (fun e => a ≤ e.1 && e.1 < a + n)).map (fun e => (e.1 - a + b, e.2)) ++
  m.filter (fun e => b + n ≤ e.1)

/-- The slice of `p` is copied into that of `u`, layer by layer, without its test areas: bytes, seal words
and dirty bits move unchanged, and so does the save area (R269, R332). -/
def State.migrate (s : State) (p u : Nat) : State :=
  let s := (List.range numLayers).foldl (fun s l =>
    let a := stackBlock p l 0
    let b := stackBlock u l 0
    let n := testStart l
    { s with stack.mem := moveTbl s.stack.mem (a * blockBytes) (b * blockBytes) (n * blockBytes)
             stack.seals := moveTbl s.stack.seals a b n
             stack.check := moveTbl s.stack.check a b n
             stack.bad := moveTbl s.stack.bad a b n
             stack.dirty := moveTbl s.stack.dirty a b n }) s
  { s with
    stack.save := tset {} s.stack.save u (tget {} s.stack.save p)
    stack.saveSram := moveTbl s.stack.saveSram (p * sramBlocks * blockBytes) (u * sramBlocks * blockBytes) (sramBlocks * blockBytes)
    stack.saveSeals := moveTbl s.stack.saveSeals (p * sramBlocks) (u * sramBlocks) sramBlocks }

/-- PROMOTION_MIGRATION_DONE: the copy ended; a lost target starts step 3 again (R269, R270). -/
def State.promotionMigrated (s : State) (l uncorr : Nat) : State :=
  match s.promotion l with
  | some p =>
    if p.step != 3 || s.pauseBlocks p then s
    else if s.targetGone p then s.migrateStart { p with target := none }
    else
      match p.target with
      | some u =>
        let s := (List.range uncorr).foldl (fun s _ => s.markBad u) (s.migrate p.from_ u)
        s.modPromotion l fun q => { q with step := 4, uncorr := min (q.uncorr + uncorr) 255 }
      | none => s
  | none => s

/-- What the runtime can observe of a stream moves to the new tile, which a cast may have stopped (R224, R334): the
stream stays HALTED if its command was INTERRUPTED, or if its SRAM was not saved. -/
def Core.moveStream (new old : Core) (saved : Bool) : Core :=
  { new with
    cur := old.cur, curTime := old.curTime, last := old.last, prev := old.prev, queued := old.queued
    next := old.next, halted := old.halted || old.interrupted || !saved, sealHalt := old.sealHalt, interrupted := false
    stepping := old.stepping, stepOn := old.stepOn, stepLeft := old.stepLeft, stepOrders := old.stepOrders
    sems := old.sems, gens := old.gens, staging := old.staging, dhash := old.dhash, watch := old.watch, watchHit := old.watchHit
    latch := old.latch, coll := old.coll
    cut := old.cut
    pass := none, expect := none, retryXor := none, retryInj := none, chiselStop := false, fenceStop := false }.cutHere

/-- The stream of the old tile is gone. -/
def Core.clearStream (c : Core) : Core :=
  { c with
    cur := none, curTime := 0, last := none, prev := none, queued := 0, next := 0xFF_FFFF, halted := false
    sealHalt := false, interrupted := false, stepping := false, stepOn := false, stepLeft := 0, stepOrders := []
    castStop := false, cut := none, chiselStop := false, sems := [], gens := [], xfers := [], stalled := [], pass := none, staging := []
    expect := none, retryXor := none, retryInj := none, dhash := [], watch := [], watchHit := [], latch := [], coll := [] }

/-- PROMOTION_RESTORE_DONE: the new tile holds the state, a late mould copy is made, and MAP_COMMIT goes
out, which a cast pause defers (R269, Table 11.3). -/
def State.promotionRestored (s : State) (l : Nat) : State :=
  match s.promotion l with
  | some p =>
    if p.step != 4 || s.pauseBlocks p || s.castPhase == 3 then s
    else if s.targetGone p then s.migrateStart { p with target := none }
    else
      match p.target with
      | some u =>
        let s := if p.saved then
            { s with
              stack.sram := spliceTbl s.stack.sram s.stack.saveSram (u * sramBlocks * blockBytes) (sramBlocks * blockBytes)
              stack.sramSeals := spliceTbl s.stack.sramSeals s.stack.saveSeals (u * sramBlocks) sramBlocks }
          else s.emptySeals u
        let old := (s.tile p.from_).core
        let s := s.modCore u fun c => { c.moveStream old p.saved with castStop := c.castStop || (s.castPhase == 5 && old.castStop) }
        let s := s.modCore p.from_ Core.clearStream
        let m := (s.tile p.from_).page
        let s := s.modPage u fun q => { q with castTile := m.castTile, castLast := m.castLast }
        ((s.castLate u l).modPromotion l fun q => { q with step := 5 }).commitSend l u true
      | none => s
  | none => s

/-- The MAP_COMMIT of a logical tile still awaits acknowledgements. -/
def State.committing (s : State) (l : Nat) : Bool :=
  (s.arm.sent ++ s.arm.queue).any fun o => o.op.toNat == opMAP_COMMIT && ofld o.operand 95 86 == l

/-- PROMOTE_DONE: every node has the new map; the promotion is recorded as a soft repair, and the retired
tile is a spare (R269, Table 8.10). -/
def State.promoteDone (s : State) (l : Nat) : State :=
  match s.promotion l with
  | some p =>
    match p.target with
    | some u =>
      if p.step == 5 && !s.committing l then
        let c := (s.tile u).core
        let r := mkRec s.time.time 0x0073 p.from_ uNODE .note
          (pack [(63, 1, b2n c.halted), (52, 11, p.from_), (41, 11, u), (31, 10, l), (16, 8, p.uncorr),
            (0, 16, min (s.beat - p.fenceBeat) 0xFFFF)])
        let s := s.raise (if c.halted then r.ofCmd c.curIds else r)
        let s := { s with map.promotions := s.map.promotions.filter fun (q : Promotion) => q.logical != l }
        ((s.bump Reg.mapPromotions).addRepair (tileEntry p.from_ u l true)).finishOpt p.order .ok
      else s
    | none => s
  | none => s

/-- PROMOTION_RESUME: a spare of the region has become eligible for a pending promotion: its logical tile is
held and step 2 follows (R272). -/
def State.promotionResume (s : State) (l : Nat) : State :=
  match s.promotion l with
  | some p =>
    if p.step == 0 && (s.chooseTarget p.from_).isSome then
      (s.modPromotion l fun q => { q with step := 1, since := s.beat }).fenceSend
        { kind := p.kind, fence := false, hold := true, phys := p.from_, logical := some l } true none
    else s
  | none => s

/-! ### Orders (R276 to R278) -/

/-- The tile's fence belongs to a promotion or a release in progress. -/
def State.fenceInUse (s : State) (t : Nat) : Bool :=
  (s.map.promotions.any fun p => p.from_ == t) || s.map.hub.rel.getLsbD t

/-- FENCE completes STATE_ILLEGAL for this tile (Table 8.9). -/
def State.fenceIllegal (s : State) (t : Nat) : Bool :=
  let st := (s.tile t).chisel.state
  s.fenced t || s.heldTile t || ((s.logical t).map s.releasing).getD false || (6 ≤ st && st ≤ 9)

/-- FENCE takes effect: at once, or at the next command boundary. -/
def State.fenceDo (s : State) (t mode id : Nat) : State :=
  if mode == 0 then (s.fenceTile t kORDER true false (some id)).targetsCheck
  else if (s.tile t).core.atBoundary then ((s.holdBoundary t).fenceTile t kORDER true false (some id)).targetsCheck
  else { s with map.pendFence := s.map.pendFence ++ [(t, id)] }

/-- UNFENCE completes STATE_ILLEGAL for this tile (Table 8.9). -/
def State.unfenceIllegal (s : State) (t : Nat) (clear : Bool) : Bool :=
  !s.fenced t || s.fenceInUse t || ((s.tile t).pat.level == 3 && !clear)

/-- CLEAR of an UNFENCE (R278). -/
def State.clearPatina (s : State) (t : Nat) : State :=
  let l := (s.tile t).pat.level
  let s := if l != 0 then
      (s.raiseLevel t l 0 11 0).modPat t fun p => { p with level := 0, cause := 11, beat := s.beat }
    else s
  (s.modPat t fun p => { p with acc := 0 }).modMaq t fun m => { m with raised := false }

/-- UNFENCE takes effect; it clears the fence bit only (R278). -/
def State.unfenceDo (s : State) (t : Nat) (clear : Bool) (id : Nat) : State :=
  let s := if clear then s.clearPatina t else s
  let s := if (s.tile t).chisel.state == 10 then
      let s := (s.modChisel t fun c => { c with state := 0 }).modCore t fun c => { c with chiselStop := false }
      ({ s with map.repairs := s.map.repairs.filter (· != t) } : State).chiselCall t 2 s.schedMask
    else s
  (s.fenceSend { kind := (s.tile t).pat.kind, fence := true, hold := false, phys := t, logical := s.logical t } false (some id)).clearFenceOld t

/-- PROMOTE completes STATE_ILLEGAL (Table 8.9). -/
def State.promoteIllegal (s : State) (l : Nat) (target : Option Nat) : Bool :=
  let t := s.phys l
  let st := (s.tile t).chisel.state
  (s.promotion l).isSome || s.releasing l || (6 ≤ st && st ≤ 9) ||
  (match target with | some u => !s.targetOk u | none => false)

/-- PROMOTE takes effect, or completes NO_SPARE: a session on the target that it names ends at once (Table 6.3), and a
tile that is not fenced is stopped at its next command boundary first (R276, R278). -/
def State.promoteDo (s : State) (l : Nat) (target : Option Nat) (id : Nat) : State :=
  let t := s.phys l
  if target.isNone && (s.chooseTarget t).isNone then s.finish id .noSpare
  else
    let s := (s.orderDetail id (promoteDetail target l)).dropPending t
    let s := match target with | some u => s.maqPromoted u | none => s
    if s.fenced t || (s.tile t).core.atBoundary then
      s.promoteFence t kPROMOTE target (some id) ((s.tile t).chisel.state == 10)
    else
      { s with map.promotions := s.map.promotions ++
          [{ logical := l, from_ := t, target, step := 6, since := s.beat, saved := false, uncorr := 0, order := some id
             kind := kPROMOTE, ready := false }] }

/-! ### Releasing a partition (R279) -/

/-- The rectangle of a RELEASE_PARTITION operand. -/
def releaseRect (operand : BitVec 48) : Rect :=
  let w : Word := operand.setWidth 64
  { r0 := fld w 47 43, c0 := fld w 42 38, r1 := fld w 37 33, c1 := fld w 32 28 }

/-- The rectangle of a release in progress. -/
def Release.area (r : Release) : Rect := { r0 := r.rect.1, c0 := r.rect.2.1, r1 := r.rect.2.2.1, c1 := r.rect.2.2.2 }

/-- RELEASE_PARTITION completes STATE_ILLEGAL (Table 8.9). -/
def State.releaseIllegal (s : State) (r : Rect) : Bool :=
  (1 ≤ s.castPhase && s.castPhase ≤ 3) ||
  (s.map.promotions.any fun p => r.has p.logical) || (s.map.releases.any fun x => x.area.meets r)

/-- RELEASE_PARTITION takes effect: one fence of the rectangle (R279), which reaches the sessions, tests,
watches, digest slots and weights sets of its tiles (R372, R375, R412). -/
def State.releaseStart (s : State) (r : Rect) (id : Nat) : State :=
  let ts := (s.rectTiles r).map (·.2)
  let fenced := ts.filter fun t => !s.fenced t
  let s := ts.foldl State.maqReleased s
  let s := ts.foldl State.fenceHooks s
  let s := ((s.watchCancelAll r.has).digestRelease r).wsetRelease r
  let x : Release := { rect := (r.r0, r.c0, r.r1, r.c1), order := some id, since := s.beat, step := 1, fenced }
  let s := { s with map.releases := s.map.releases ++ [x] }
  (s.fenceSend { kind := kRELEASE, fence := true, hold := false, rect := some r } true none).targetsCheck

/-- A map operation of a release still awaits acknowledgements. -/
def State.releaseSending (s : State) (r : Rect) : Bool :=
  (s.arm.sent ++ s.arm.queue).any fun o =>
    (o.op.toNat == opFENCE_APPLY || o.op.toNat == opUNFENCE_APPLY) && (fenceReq o.operand).kind == kRELEASE &&
    (fenceReq o.operand).rect == some r

/-- Clear and scrub one tile (R279, steps 2 and 3). -/
def State.scrubTile (s : State) (t : Nat) : State :=
  let s := (s.tile t).core.stepOrders.foldl (fun s id => s.finish id .ok) s
  let s := (s.modCore t fun c => { c.clearStream with xfers := c.xfers, stalled := c.stalled }).modMaq t fun m => { m with pairs := [] }
  let s := s.clearSram t
  (List.range numLayers).foldl (fun s l =>
    let last := if l == 0 then 955 else if l < 8 then 1755 else 1300
    s.clearBlocks t l 0 last) s

/-- RELEASE_SCRUB_DONE: once every node has the fence, no tile of the rectangle is in a chisel session, every mould
there has drained and no cast pause defers the map change (Table 11.3), the tiles are clear and scrubbed, and the
fences of the release are lifted (R279). -/
def State.releaseScrubbed (s : State) : State :=
  match s.map.releases.find? fun x => x.step == 1 with
  | none => s
  | some r =>
    let a := r.area
    let ts := (s.rectTiles a).map (·.2)
    if s.castPhase == 3 || s.releaseSending a || ts.any (fun t => (s.tile t).chisel.inSession || s.mouldBusy t) then s
    else
      let s := ts.foldl State.scrubTile s
      let s := r.fenced.foldl (fun s t =>
        if (s.tile t).chisel.state == 10 then
          (s.modChisel t fun c => { c with state := 0 }).modCore t fun c => { c with chiselStop := false }
        else s) s
      let s := { s with map.releases := s.map.releases.map fun (x : Release) => if x.rect == r.rect then { x with step := 2 } else x }
      s.fenceSend { kind := kRELEASE, fence := true, hold := false, rect := some a } false none

/-- The unfence of a release is acknowledged by every node: RELEASE_DONE, and the order completes (R279). -/
def State.releaseDone (s : State) (a : Rect) : State :=
  match s.map.releases.find? fun x => x.step == 2 && x.area == a with
  | none => s
  | some r =>
    let first := s.phys (a.r0 * 32 + a.c0)
    let s := s.raise (mkRec s.time.time 0x0077 first uNODE .info
      (pack [(59, 5, a.r0), (54, 5, a.c0), (49, 5, a.r1), (44, 5, a.c1), (0, 16, min (s.beat - r.since) 0xFFFF)]))
    { s with map.releases := s.map.releases.filter fun (x : Release) => x.rect != r.rect }.finishOpt r.order .ok

/-! ### Registers (Tables 8.11, 8.13, 8.14) -/

/-- LEVEL_COUNT. -/
def State.levelCount (s : State) : Word :=
  let n (l : Nat) : Nat := (s.tiles.filter fun e => e.2.pat.level == l).length
  pack [(32, 16, n 3), (16, 16, n 2), (0, 16, n 1)]

/-- MAP_STATUS. -/
def State.mapStatus (s : State) : Word :=
  pack [(48, 16, s.fuseFree), (32, 16, s.fusedCount), (16, 16, s.softEntries.length), (4, 1, b2n s.map.saveFailed),
    (3, 1, b2n s.map.savePending), (2, 1, b2n !s.map.releases.isEmpty), (1, 1, b2n !s.map.promotions.isEmpty),
    (0, 1, b2n s.changeBusy)]

/-- SPARES_FREE; 0 until S4 sends the nodes their map (Table 8.13). -/
def State.sparesWord (s : State) : Word :=
  if s.life.stage < 4 then 0 else pack ((List.range numRegions).map fun g => (4 * g, 4, s.sparesFree g))

/-- PATINA of a tile. -/
def PatTile.word (p : PatTile) : Word := pack [(62, 2, p.level), (58, 4, p.cause), (0, 32, p.acc.toNat)]

/-- MAP_STATE of a tile; 0 until S4 sends the nodes their map (Table 8.14). -/
def State.mapState (s : State) (t : Nat) : Word :=
  let p := (s.tile t).pat
  let lg := s.logical t
  let st := if s.map.promotions.any (fun q => q.from_ == t) then 4
    else if s.map.promotions.any (fun q => q.target == some t) then 5
    else if (lg.map s.releasing).getD false then 6
    else if s.fenced t then 3
    else if s.heldTile t then 2
    else if lg.isNone then 1 else 0
  if s.life.stage < 4 then 0 else
  pack [(60, 4, st), (56, 4, p.kind), (55, 1, b2n (s.tile t).core.interrupted), (32, 10, lg.getD 0x3FF),
    (0, 16, p.chGen.toNat)]

/-! ### Meanings -/

/-- PROMOTION_SAVE_DONE: the hub starts the next step of a promotion in a dispatch phase (R269). -/
def execPromotionSaveDone (l : Nat) (timedOut : Bool) (s : State) : Host.Outcome State Fault Refusal :=
  doWhen (s.ready && s.time.phase == 7) (fun s => s.promotionSaved l timedOut) s

/-- PROMOTION_MIGRATION_DONE, in a dispatch phase (R269). -/
def execPromotionMigrationDone (l uncorr : Nat) (s : State) : Host.Outcome State Fault Refusal :=
  doWhen (s.ready && s.time.phase == 7) (fun s => s.promotionMigrated l uncorr) s

/-- PROMOTION_RESTORE_DONE, in a dispatch phase (R269). -/
def execPromotionRestoreDone (l : Nat) (s : State) : Host.Outcome State Fault Refusal :=
  doWhen (s.ready && s.time.phase == 7) (fun s => s.promotionRestored l) s

/-- PROMOTE_DONE. -/
def execPromoteDone (l : Nat) (s : State) : Host.Outcome State Fault Refusal :=
  doWhen s.ready (fun s => s.promoteDone l) s

/-- PROMOTION_RESUME: in the patina update (R272). -/
def execPromotionResume (l : Nat) (s : State) : Host.Outcome State Fault Refusal :=
  doWhen (s.ready && s.time.phase == 4) (fun s => s.promotionResume l) s

/-- RELEASE_SCRUB_DONE. -/
def execReleaseScrubDone (s : State) : Host.Outcome State Fault Refusal := doWhen s.ready State.releaseScrubbed s

end Sys2Proof.Machine
end

