-- ==== Sys2Proof/Machine/Stack.lean ====
section
/-! DEFINITION. Accesses to the stack, near-bank commands, conversions between protected and compute
blocks, the patrol scrub (chapter 9), and the hashing of weights sets (R371). -/

namespace Sys2Proof.Machine

/-! ### Banks (R284, R295) -/

/-- The postponed refreshes of a bank. -/
def State.postponed (s : State) (k : Nat) : Nat := tget 0 s.stack.refresh k

/-- The stack answers: S2 has written it, Chimin is not frozen, and no controlled shutdown has put every layer into
self-refresh (R320). -/
def State.stackLive (s : State) : Bool := s.live && 3 ≤ s.life.stage && s.life.shutdownEvent.isNone

/-- The stack interface works at tile `t`'s slice: its domain is not stopped (R303). -/
def State.stackOn (s : State) (t : Nat) : Bool := s.stackLive && !s.stackStopped t

/-! ### Ordinary accesses -/

/-- The seal word that a write leaves: a copy's own, or that of the DMA engine that brings a block from host memory or
the cast store, which makes it STORED (R123, R128). -/
def State.writeSeal (s : State) (a : StackAcc) (bytes : List Byte) : WriteSeal → Word
  | .copied _ w => w
  | .stored f gen =>
    sealWord s.time.time (a.reader.getD a.tile) gen 1 true
      (blockResidue f.toNat (unpackBlock f.toNat (bytes.take blockBytes)))

/-- A copied block was verified by the unit that brings it before it is written (R128). -/
def accVerified (a : StackAcc) : Bool :=
  match a.kind with
  | .write bytes (.copied f w) => checkBlock f.toNat 0 false w (bytes.take blockBytes) false false none = .pass
  | _ => true

/-- Perform an ordinary access at its bank (Table 9.2, R297, R298). A read's first 8 bytes become the data
returned. -/
def State.serve (s : State) (a : StackAcc) : State :=
  match a.kind with
  | .write bytes from_ =>
    let s := s.stackWrite a.tile a.layer a.block 0 (bytes.take blockBytes)
    { s.setStackSeal a.tile a.layer a.block (s.writeSeal a bytes from_) with status := stOK }
  | .read =>
    let s := if a.req.cls = .tile && a.reader == some a.tile then s
             else s.lineageServe a.tile a.reader (isHost a.req) a.chip
    let s := { s with data := word (leNat ((s.stackBytes a.tile a.layer a.block).take 8)) }
    s.sliceEcc a.tile a.layer a.block a.ecc (a.reader.bind fun r => (s.tile r).core.curIds)

/-- STACK_ACCESS. -/
def State.stackAccess (s : State) (a : StackAcc) : State :=
  match s.gate a with
  | .serve => s.serve a
  | g => s.turnAway g { acc := a, job := .access }

/-! ### Requests that waited -/

/-- A transfer whose source blocks had to wait is read and verified anew, and then goes out (R131, R295). -/
def State.sendAfter (s : State) (t : Nat) (x : Xfer) : State :=
  let r := x.blocks.foldl (fun (a : State × Bool) b =>
    if a.2 then (a.1.sendLineage t b).readVerified t (moveRead x b) {} else a) (s, true)
  if r.2 then
    r.1.resolve t { x with blocks := x.blocks.map fun b => { b with bytes := r.1.blockBytesAt b.src, sealw := r.1.blockSealAt b.src } }
  else r.1

/-- Work at a bank goes on for a request that waited, and is served with the bank's present content (R295). The units
of a tile whose stream no longer works have dropped theirs. -/
def State.runJob (s : State) (q : StackReq) : State :=
  match q.job with
  | .access => s.serve q.acc
  | .read t r => if s.mayRun t then s.firstRead t r else s
  | .second t r => if s.mayRun t then s.nextRead t r else s
  | .change t p => if s.mayRun t then s.changeBlock t p else s
  | .send t x => if s.mayRun t then s.sendAll t x State.sendAfter else s
  | .again t x b first inj => s.secondSending t x b first inj

/-- A request that waited in front of the stack interface is made anew. -/
def State.askAgain (s : State) (q : StackReq) : State :=
  match q.job with
  | .access => s.stackAccess q.acc
  | .read t r => if s.mayRun t then s.verifyRead t r else s
  | .second t r => if s.mayRun t then s.secondRead t r else s
  | .change t p => if s.mayRun t then s.partialWrite t p else s
  | .send t x => if s.mayRun t then s.sendAll t x State.sendAfter else s
  | .again t x b first inj => s.askSending t x b first inj

/-- The slice requests whose hold is over go ahead, in order (R223, R225). -/
def State.serveHolds (s : State) : State :=
  if s.stack.holdWaits.isEmpty then s
  else
    (s.stack.holdWaits.filter fun q => !s.sliceHeld q.acc).foldl (fun s q => (s.askerRing q .resume 0).askAgain q)
      { s with stack.holdWaits := s.stack.holdWaits.filter fun q => s.sliceHeld q.acc }

/-- The requests that waited for the first edge of a stack interface domain are judged, in order (R303). -/
def State.serveStops (s : State) : State :=
  if s.stack.stopWaits.isEmpty then s
  else
    (s.stack.stopWaits.filter fun q => !s.stackStopped q.acc.tile).foldl (fun s q => (s.askerRing q .resume 0).askAgain q)
      { s with stack.stopWaits := s.stack.stopWaits.filter fun q => s.stackStopped q.acc.tile }

/-- The writes that a cast pause held at tile `t`'s slice are performed after resume (R339). -/
def State.serveHeld (s : State) (t : Nat) : State :=
  (s.stack.heldWrites.filter fun a => a.tile == t).foldl State.serve
    { s with stack.heldWrites := s.stack.heldWrites.filter fun (a : StackAcc) => a.tile != t }

/-- Serve the accesses that waited at a bank, in order; the longest hold is kept (R295). -/
def State.serveWaits (s : State) (k l : Nat) : State :=
  (s.bankWaits k).foldl (fun s w =>
    let r := layerReg l 0x148
    let hold := min (s.time.time.toNat - w.1) 2047
    ((s.setReg r (word (max (s.reg r).toNat hold))).unitRing w.2.acc.tile uSLICE .resume 0).runJob w.2) { s with stack.waits := tset [] s.stack.waits k [] }

/-! ### Near-bank commands (R291 to R296) -/

/-- The blocks a near-bank command names, sources first. -/
def nbBlocks (n : NearBank) : List Nat := n.srcs ++ [n.dst]

/-- Refusal of a near-bank command, in the order of Table 9.3: status, REASON and the first failing block. -/
def State.nbRefusal (s : State) (t : Nat) (n : NearBank) : Option (Nat × Nat × Nat) :=
  let bs := nbBlocks n
  let first := bs.headD 0
  if !bit (s.layerEntry n.layer 4) 3 then some (stDENIED, 4, first)
  else if s.wsetLocks t n.layer n.dst then some (stDENIED, 4, n.dst)
  else
    match bs.find? fun b => runtimeEnd n.layer ≤ b with
    | some b => some (stRESERVED, 3, b)
    | none =>
      match bs.find? fun b => !s.isCompute n.layer b with
      | some b => some (stPROTECTED, 1, b)
      | none =>
        match bs.find? fun b => bankOf b != bankOf first with
        | some b => some (stNB_SPLIT, 2, b)
        | none => if 3 < n.srcs.length then some (stNB_SPLIT, 2, n.srcs.getD 3 0) else none

/-- The unit that reports on a layer: a near-bank group, or SLICE for a storage layer (Table 9.6). -/
def nbUnit (l : Nat) : Nat := if 8 ≤ l then uNEARBANK0 + (l - 8) else uSLICE

/-- Refreshes that a bank may postpone in the band that its refresh follows (Table 10.2, R318). -/
def State.refreshAllowance (s : State) (t l : Nat) : Nat :=
  match tget 0 (s.region (regionOf t)).refBand l with
  | 0 => 8 | 1 => 4 | _ => 1

/-- NEARBANK_COMMAND: refused with NB_REJECT and a halt, or started. It stays in the stream while its bank
is busy, an ordinary access waits there or its postponed refreshes reach the allowance. -/
def State.nearbankCommand (s : State) (t : Nat) (n : NearBank) : State :=
  match s.nbRefusal t n with
  | some (st, reason, b) =>
    let s := if st == stDENIED then s.deny { cls := .tile } true true n.layer b else s
    let s := s.bump (layerReg n.layer 0x138)
    let s := s.raiseTile t (nbUnit n.layer) 0x0081 .note (s.tile t).core.curIds
      (pack [(60, 4, reason), (56, 4, n.layer), (32, 11, b)])
    { s.halt t false with status := st }
  | none =>
    let k := bankKey t n.layer (bankOf n.dst)
    if (s.bankRun k).isSome || !(s.bankWaits k).isEmpty || s.refreshAllowance t n.layer ≤ s.postponed k then s
    else
      ({ s.bump (layerReg n.layer 0x130) with
         stack.nb := tset none s.stack.nb k (some { tile := t, cmd := n, start := s.time.time }), status := stOK } : State).unitRing
        t (nbUnit n.layer) .begin_ 0

/-- Write the destination of an operation with the NEARBANK seal of R292, free the bank, issue its
postponed refreshes and serve what waited. -/
def State.nbEnd (s : State) (k : Nat) (r : NbRun) (bytes : List Byte) : State :=
  let n := r.cmd
  let s := (s.stackWrite r.tile n.layer n.dst 0 bytes).setStackSeal r.tile n.layer n.dst
    (sealWord s.time.time r.tile n.gen 4 false 0)
  let s := ({ s with stack.nb := tset none s.stack.nb k none, stack.refresh := tset 0 s.stack.refresh k 0 } : State).unitRing
    r.tile (nbUnit n.layer) .end_ 0
  s.serveWaits k n.layer

/-- The content that a near-bank operation computes (assumption 5). -/
def State.nbBytes (s : State) (r : NbRun) : List Byte :=
  let srcs := r.cmd.srcs.map fun b => s.stackBytes r.tile r.cmd.layer b
  (List.range blockBytes).map (Config.nearBankByte r.cmd.op srcs)

/-- The plinth time at which an operation has run for `cycles` stack interface cycles, of 1.28 plinth cycles each. -/
def NbRun.after (r : NbRun) (cycles : Nat) : Nat := r.start.toNat + cycles * 128 / 100

/-- The beat in which that time lies has begun. -/
def State.nbDue (s : State) (r : NbRun) (cycles : Nat) : Bool := r.after cycles < (s.beat + 1) * beatCycles

/-- Plinth time passes up to the end of the operation; a stopped domain ends it later (R73). -/
def State.nbTime (s : State) (r : NbRun) (cycles : Nat) : State := s.toCycle (r.after cycles - s.beat * beatCycles)

/-- NEARBANK_COMPLETE after `cycles` stack interface cycles, at most 896 (R294). -/
def State.nearbankComplete (s : State) (t l bank cycles : Nat) : State :=
  let k := bankKey t l bank
  match s.bankRun k with
  | some r => if cycles ≤ 896 && s.nbDue r cycles then (s.nbTime r cycles).nbEnd k r (s.nbBytes r) else s
  | none => s

/-- Bytes that the spec leaves undefined: fresh free values (assumption 4). -/
def State.drawBytes (s : State) (n : Nat) : List Byte × State :=
  ((List.range n).map fun i => BitVec.ofNat 8 (Config.freeValue (s.free + i)).toNat, { s with free := s.free + n })

/-- NB_HUNG: the controller stops the operation at cycle 960; its destination keeps a NEARBANK seal with content
undefined, and the command halts (R294). -/
def State.nbHung (s : State) (t l bank : Nat) : State :=
  let k := bankKey t l bank
  match s.bankRun k with
  | none => s
  | some r =>
    if !s.nbDue r 960 then s
    else
      let d := (s.nbTime r 960).drawBytes blockBytes
      let s := d.2.nbEnd k r d.1
      let s := s.bump (layerReg l 0x150)
      let s := s.raiseTile t (nbUnit l) 0x0082 .fault (s.tile t).core.curIds
        (pack [(60, 4, l), (56, 4, bank), (32, 11, r.cmd.dst)])
      { s.halt t false with status := stNB_ABORTED }

/-- REFRESH_DUE: postponed while the bank is in an operation or SLICE_S scans the slice's controller, else issued
(R221, R296). It is a boundary of the refresh interval, from which a band that fell governs (R318). -/
def State.refreshDue (s : State) (t l bank : Nat) : State :=
  let k := bankKey t l bank
  let s := s.refreshBoundary (regionOf t) l
  if (s.bankRun k).isSome || s.scanning t then { s with stack.refresh := tset 0 s.stack.refresh k (s.postponed k + 1) } else s

/-- Every near-bank operation in progress completes, as before a stop of the regions (R320). -/
def State.nbFinishAll (s : State) : State :=
  s.stack.nb.foldl (fun s e => match e.2 with | some r => s.nbEnd e.1 r (s.nbBytes r) | none => s) s

/-! ### Conversions (R300, R301) -/

/-- The beat tick brings written descriptors into force: for each compute layer, blocks that leave compute
begin their re-encode. To be taken before `force` is renewed. -/
def State.mrTick (s : State) : State :=
  [8, 9, 10, 11].foldl (fun s l =>
    let old := s.mrForce l
    let new := (List.range 8).map (s.mrWord l)
    let leave := (List.range (runtimeEnd l)).filter fun b => mrCompute l old b && !mrCompute l new b
    match leave.head?, leave.getLast?, tget none s.stack.convert l with
    | some first, some last, none =>
      let k := ((List.range 8).find? fun k => mrCompute l [old.getD k 0] first).getD 0
      ({ s with stack.convert := tset none s.stack.convert l
                  (some { k, first, last, since := s.beat, old, next := [] }) } : State).layerRing l .state
    | _, _, _ => s) s

/-- The next block that tile `t`'s slice has to re-encode in a layer. -/
def State.nextConvert (s : State) (t l : Nat) : Option Nat :=
  (List.range (runtimeEnd l)).find? fun b => s.reencodePtr t l ≤ b && s.converting l b

/-- A slice that still has a converting block. -/
def State.convertLeft (s : State) (l : Nat) : Bool := allTiles.any fun t => (s.nextConvert t l).isSome

/-- When every slice is done, CONVERTING clears and CONVERT_DONE is raised. -/
def State.convertEnd (s : State) (l : Nat) (c : Convert) : State :=
  if s.convertLeft l then s
  else
    ({ s with stack.convert := tset none s.stack.convert l none }).raiseLayer l 0 0x0083 .info
      (pack [(61, 3, c.k), (32, 11, c.first), (16, 11, c.last), (0, 16, min (s.beat - c.since) 0xFFFF)])

/-- REENCODE_STEP: one block of one slice gets the check bits of its data; data and seal word stay. A conversion whose
last blocks went back to compute mode ends too. -/
def State.reencodeStep (s : State) (t l : Nat) : State :=
  match tget none s.stack.convert l, s.nextConvert t l with
  | some c, some b =>
    if (s.bankRun (bankKey t l (bankOf b))).isSome then s
    else
      ({ s with stack.check := s.checksAfter t l b true
                stack.bad := s.badAfter t l b true
                stack.convert := tset none s.stack.convert l
                  (some { c with next := tset 0 c.next t (b + 1) }) } : State).convertEnd l c
  | some c, none => s.convertEnd l c
  | none, _ => s

/-- MR_STATUS (Table 9.7): CONV_NEXT is the lowest block that some slice has still to re-encode. -/
def State.mrStatus (s : State) (l : Nat) : Word :=
  match tget none s.stack.convert l with
  | none => 0
  | some c =>
    let next := allTiles.foldl (fun m t => min m ((s.nextConvert t l).getD m)) (c.last + 1)
    pack [(16, 11, next), (1, 3, c.k), (0, 1, 1)]

/-! ### Patrol scrub (R302) -/

/-- What a visit of the patrol scrub finds. The codeword of an uncorrectable seal word is a free value: it lies in no
block. -/
def State.patrolFind (s : State) (t l b : Nat) (e : EccFinding) : State :=
  let raw := s.readsRaw t l b
  match s.eccAt t l b e with
  | .corrected n => if raw then s else s.sliceCorrected t l n
  | .uncorrectable cw => if raw then s else s.sliceUncorr t l b cw true none
  | .sealUncorrectable => let d := s.draw; d.2.sliceUncorr t l b (d.1.toNat % 256) true none
  | .clean => s

/-- The beat tick from which a layer's next patrol pass may begin: one PERIOD, in units of 1,000,000 beats, after the
last one began. -/
def State.patrolNext (s : State) (l : Nat) : Nat :=
  tget 0 s.stack.patrolFrom l + fld (s.reg (layerReg l 0x110)) 31 0 * 1000000

/-- A visit may be made: every block once per PERIOD, so that none is visited again in a pass, and the next pass begins
when the PERIOD of the last is over. -/
def State.patrolDue (s : State) (t l b : Nat) : Bool :=
  !(tget false s.stack.visited (stackBlock t l b)) &&
  (tget 0 s.stack.patrol l != 0 || tget 0 s.stack.patrolFrom l == 0 || s.patrolNext l ≤ s.life.allBeats)

/-- A layer's pass begins with its first visit. -/
def State.patrolBegin (s : State) (l : Nat) : State :=
  if tget 0 s.stack.patrol l == 0 then { s with stack.patrolFrom := tset 0 s.stack.patrolFrom l s.life.allBeats } else s

/-- The blocks of a layer, in every slice. -/
def inLayer (l k : Nat) : Bool := let b := k % sliceBlocks; blockInSlice l 0 ≤ b && b < blockInSlice l 0 + layerBlocks l

/-- PATROL_VISIT: a protected block's data and every block's seal word, the only finding of a compute block; one
visit of all blocks of all slices is a pass. -/
def State.patrolVisit (s : State) (t l b : Nat) (e : EccFinding) : State :=
  let s := (s.patrolBegin l).patrolFind t l b e
  let n := tget 0 s.stack.patrol l + 1
  if n == numTiles * layerBlocks l then
    ({ s with stack.patrol := tset 0 s.stack.patrol l 0
              stack.visited := s.stack.visited.filter fun e => !inLayer l e.1 }).bump (layerReg l 0x158)
  else { s with stack.patrol := tset 0 s.stack.patrol l n
                stack.visited := tset false s.stack.visited (stackBlock t l b) true }

/-! ### Hashing a weights set (R371) -/

/-- What is wrong with block `b` of a set in a slice: SEAL or CLASS, if anything. -/
def State.wsetBad (s : State) (fmt t l b : Nat) (ue : List (Nat × Nat)) : Option Nat :=
  let w := s.stackSeal t l b
  let e := s.eccAt t l b (if ue.any fun e => e == (t, b) then .uncorrectable 0 else .clean)
  if checkBlock fmt 0 false w (s.stackBytes t l b) false (e ≠ .clean) none ≠ .pass then some 1
  else if sealClass w != 1 then some 2 else none

/-- The first failing tile of a set, with the reason. -/
def State.wsetFault (s : State) (w fmt : Nat) (ue : List (Nat × Nat)) : Option (Nat × Nat) :=
  let r := wsetRange (s.wset w).word
  ((s.wsetTiles w).findSome? fun e =>
    ((List.range (r.last + 1 - r.first)).findSome? fun i => s.wsetBad fmt e.2 r.layer (r.first + i) ue).map
      fun reason => (e.2, reason))

/-- The root of one slice's blocks. -/
def State.sliceRoot (s : State) (t : Nat) (r : BlkRange) : List Byte :=
  let leaves := (List.range (r.last + 1 - r.first)).map fun i => sha384 (0x00 :: s.stackBytes t r.layer (r.first + i))
  treeRoot leaves.length leaves

/-- WSET_HASH_DONE: every slice has reported. -/
def State.wsetHash (s : State) (w fmt : Nat) (ue : List (Nat × Nat)) : State :=
  match s.wsetFault w fmt ue with
  | some (t, reason) => s.wsetTo w 3 reason t
  | none =>
    let r := wsetRange (s.wset w).word
    let roots := (s.wsetTiles w).map fun e => s.sliceRoot e.2 r
    (s.modWset w fun x => { x with root := treeRoot roots.length roots }).wsetTo w 2 0 0x7FF

/-! ### Commands -/

/-- STACK_ACCESS: of a block that exists and has an address, while the stack answers; a write carries a whole block,
and a copied one was verified. -/
def execStackAccess (a : StackAcc) (s : State) : Host.Outcome State Fault Refusal :=
  doWhen (s.stackLive && a.tile < numTiles && a.layer < numLayers && a.block < layerBlocks a.layer && accVerified a &&
    s.reachable a)
    (fun s => s.stackAccess a) s

/-- NEARBANK_COMMAND: of a command that runs. -/
def execNearbankCommand (t : Nat) (n : NearBank) (s : State) : Host.Outcome State Fault Refusal :=
  doWhen (s.stackOn t && t < numTiles && n.layer < numLayers && s.mayRun t &&
    (nbBlocks n).all fun b => b < layerBlocks n.layer) (fun s => s.nearbankCommand t n) s

/-- NEARBANK_COMPLETE. -/
def execNearbankComplete (t l bank cycles : Nat) (s : State) : Host.Outcome State Fault Refusal :=
  doWhen (s.stackOn t) (fun s => s.nearbankComplete t l bank cycles) s

/-- NB_HUNG. -/
def execNbHung (t l bank : Nat) (s : State) : Host.Outcome State Fault Refusal :=
  doWhen (s.stackOn t) (fun s => s.nbHung t l bank) s

/-- REFRESH_DUE. -/
def execRefreshDue (t l bank : Nat) (s : State) : Host.Outcome State Fault Refusal :=
  doWhen (s.stackOn t) (fun s => s.refreshDue t l bank) s

/-- REENCODE_STEP. -/
def execReencodeStep (t l : Nat) (s : State) : Host.Outcome State Fault Refusal :=
  doWhen (s.stackOn t && t < numTiles && !s.inRepose) (fun s => s.reencodeStep t l) s

/-- PATROL_VISIT: while SCRUB_CTL.EN is 1, of a block whose visit is due. -/
def execPatrolVisit (t l b : Nat) (e : EccFinding) (s : State) : Host.Outcome State Fault Refusal :=
  doWhen (s.stackOn t && !s.inRepose && t < numTiles && l < numLayers && b < layerBlocks l &&
    bit (s.reg (layerReg l 0x110)) 32 && s.patrolDue t l b) (fun s => s.patrolVisit t l b e) s

/-- WSET_HASH_DONE: of a set in HASHING. -/
def execWsetHashDone (w : Nat) (fmt : BitVec 4) (ue : List (Nat × Nat)) (s : State) :
    Host.Outcome State Fault Refusal :=
  doWhen (s.live && w < 8 && (s.wset w).state == 1) (fun s => s.wsetHash w fmt.toNat ue) s

end Sys2Proof.Machine
end

