-- ==== Sys2Proof/Machine/Cast.lean ====
section
/-! DEFINITION. Casts, mirror partners and restores (chapter 11). -/

namespace Sys2Proof.Machine

def opPAUSE : Nat := 0x04
def opRESUME : Nat := 0x05

/-- Change the run in progress. -/
def State.modRun (s : State) (f : CastRun → CastRun) : State := { s with cast.run := s.cast.run.map f }

/-- CAST_CTL in force. -/
def State.castCtl (s : State) : Word := s.inForce Reg.castCastCtl
def State.maxPauses (s : State) : Nat := fld s.castCtl 63 56
def State.gatherMax (s : State) : Nat := fld s.castCtl 55 44
def State.windowWait (s : State) : Nat := fld s.castCtl 43 32

/-! ### The log (R342, R359) -/

/-- LBAs that `n` data blocks take in stripes of 511 data blocks and one seal block. -/
def logLbas (n : Nat) : Nat := n + (n + 510) / 511

/-- The chain has used more log space since its full cast than that full cast (R333). -/
def chainLong (cs : List CastRec) : Bool :=
  match cs.getLast? with
  | some f => f.full && f.size < chainLbas cs.dropLast
  | none => false

/-- LBAs of the run's segments: a header block per pause begun, and its tiles' blocks. -/
def CastRun.size (r : CastRun) : Nat := logLbas (r.lbas + r.index + 1)

/-- The data block of the run's record at which its current segment starts: after the earlier segments. -/
def CastRun.segStart (r : CastRun) : Nat := r.segs.headD 0

/-- The data block of the run's record at which the mould of logical tile `l` starts: behind the segment's header
and the moulds of the lower tiles (R342). -/
def CastRun.mouldStart (r : CastRun) (l : Nat) : Nat :=
  r.segStart + 1 + ((r.ready.filter fun e => e.1 < l).map fun e => 2 + min e.2 mouldPayload).sum

/-- The data block of the run's record after its current segment. -/
def CastRun.segEnd (r : CastRun) : Nat := r.mouldStart numLogical

/-- The moulds of the current segment, in ascending logical index. -/
def CastRun.segMoulds (r : CastRun) : List CastMould :=
  r.ready.filterMap fun e => (r.moulds.find? fun m => m.2.rec_.logical == e.1).map fun m => m.2.rec_

/-- The seal words of the current segment's blocks: none of its own for the header, the index and the control block,
whose CRC protects them (R335, R342). -/
def CastRun.segSeals (r : CastRun) : List Word :=
  emptySeal :: r.segMoulds.flatMap fun m => emptySeal :: emptySeal :: m.blocks.map fun (b : Nat × Nat × List Byte × Word) => b.2.2.2

/-- The segment header block of the pause just made, 8 bytes a field in the order of R342 (assumption 58). -/
def CastRun.header (r : CastRun) (key : Word) : List Byte :=
  crcBlock ([r.number.toNat, r.index, b2n r.final, b2n r.full, Config.chipId.toNat, key.toNat, r.lastQ, r.ready.length].flatMap
    (leBytes 8))

/-- The data blocks of a cast record in the log, segment by segment (R342). -/
def recordStored (c : CastRec) : List (List Byte) :=
  let r := c.segs.foldl (fun (a : List (List Byte) × List CastMould) g =>
    (a.1 ++ g.1 :: (a.2.take g.2).flatMap mouldStored, a.2.drop g.2)) ([], c.moulds)
  r.1 ++ r.2.flatMap mouldStored

/-- Free LBAs of the own log. -/
def State.logFree (s : State) : Nat := s.cast.logSize - chainLbas s.nv.casts

/-- The cast ranges as written differ from those of the last cast (R332). -/
def State.rangesNow (s : State) : Tbl Word :=
  (List.range 16).foldl (fun m k => tset 0 m k (s.reg (Reg.castCastRange + 8 * k))) []

/-- FULL_NEXT: the next cast is full (R333). -/
def State.castFull (s : State) : Bool :=
  s.cast.fullNext || s.rangesNow ≠ s.cast.rangesInForce || chainLong s.nv.casts

/-! ### Windows (R322, R324) -/

/-- The DRAM sensors of a layer. -/
def layerSensors (l : Nat) : List Nat := (List.range 288).map fun i => numTiles + l * 288 + i

/-- The mould window: every layer 1 DRAM sensor, or its substitute in each of its regions, at or below
MOULD_TMAX. -/
def State.mouldWindow (s : State) : Bool :=
  (List.range numRegions).all fun g =>
    match groupHot (s.groupOf g (some 1)) with
    | some (_, v) => decide (v ≤ s.mouldMax)
    | none => false

/-- The sensor that decides the mould window, with its reading: that of a region without any, or else the hottest (R312,
R324, R326). -/
def State.mouldSensor (s : State) : Option (Nat × Int) :=
  let rs := (List.range numRegions).map fun g => s.groupOf g (some 1)
  match rs.find? groupLost with
  | some xs => (xs.find? fun e => e.2.bad).map fun e => (e.1, -32768)
  | none => (rs.filterMap groupHot).foldl (fun b e =>
      match b with | some c => if c.2 < e.2 then some e else some c | none => some e) none

/-- The layers that a restore writes for logical tile `l`. -/
def CastRun.layersOf (r : CastRun) (l : Nat) : List Nat :=
  (List.range numLayers).filter fun y =>
    r.chain.any fun c => c.moulds.any fun m => m.logical == l && m.blocks.any fun b => b.1 == y

/-- The first layer whose window fails for a restore of `l` on tile `t`, with its sensor. -/
def State.restoreFails (s : State) (r : CastRun) (l t : Nat) : Option Nat :=
  (r.layersOf l).find? fun y =>
    match s.sensorOver t y with
    | some v => !decide (v ≤ s.mouldMax)
    | none => true

/-- THERM_WINDOW of a restore of one tile, with the reading that decides, a substitute's where its sensor is BAD (R312,
R326). -/
def State.restoreWindow (s : State) (l y : Nat) (ended : Bool) (beats : Nat) : State :=
  let n := dramSensor y (s.phys l)
  s.raiseWindow 3 y ended (some (n, (s.sensorOver (s.phys l) y).getD (-32768))) beats

/-! ### Ends of a cast -/

/-- The hub multicasts RESUME. -/
def State.resumeSend (s : State) : State := s.hubSend { op := opRESUME, vc := 0, operand := 0, dests := allNodes }

/-- The hub multicasts PAUSE with FUNC STOP (0) or COPY (1), in bits [95:94] of the OPERAND (Table 3.5). The rest of the
operand is the model's own (assumption 20). -/
def State.pauseSend (s : State) (func : Nat) : State :=
  s.hubSend { op := opPAUSE, vc := 0, operand := BitVec.ofNat 96 (func <<< 94), dests := allNodes }

/-- A deferral of the window ends (R324). -/
def State.deferEnd (s : State) : State :=
  match s.cast.run with
  | some r =>
    match r.deferSince with
    | some b => (s.raiseWindow 2 1 true s.mouldSensor (s.beat - b)).modRun fun r => { r with deferSince := none }
    | none => s
  | none => s

/-- Every dirty bit that a copy of a cast that failed has cleared is set again, so that the chip's state is as it was
(R356). -/
def State.redirty (s : State) (r : CastRun) : State :=
  { s with stack.dirty := r.cleared.foldl (fun q b => tset false q (stackBlock (s.phys b.1) b.2.1 b.2.2) true) s.stack.dirty }

/-- A cast ends without becoming durable: CAST_FAIL, and its order (Tables 11.5, 11.6). -/
def State.castFail (s : State) (reason : Nat) (st : Status) : State :=
  let s := s.deferEnd
  match s.cast.run with
  | none => s
  | some r =>
    let s := (s.redirty r).bump Reg.castCastFails
    let s := s.raiseFrom (if reason == 5 then srcCastStore else srcPlinth) 0x00A2 .fault
      (pack [(60, 4, reason), (52, 8, if r.phase == 4 then r.index + 1 else r.index), (0, 32, r.number.toNat)])
    ({ s with cast.run := none } : State).mirrorClear.finishOpt r.order st

/-! ### A pause (R336) -/

/-- The logical tiles, each carried by one physical tile. -/
def allLogical : List Nat := List.range numLogical

/-- The window check of a pause: gather begins, or the pause is deferred (R324). -/
def State.castWindow (s : State) : State :=
  match s.cast.run with
  | none => s
  | some r =>
    if r.phase != 1 then s
    else if s.mouldWindow then
      (s.deferEnd.modRun fun r => { r with phase := 2, since := s.beat, gatherAt := s.time.time }).pauseSend 0
    else
      match r.deferSince with
      | some _ => s
      | none =>
        (s.raiseWindow 2 1 false s.mouldSensor 0).modRun fun r => { r with deferSince := some s.beat }

/-- The tile of a participant has stopped, its NI and DMA engine have no incomplete transfer, and no near-bank
operation of a command that halted still runs (R336, R338, Table 9.4). -/
def State.pauseReady (s : State) (t : Nat) : Bool :=
  let c := (s.tile t).core
  c.castStop && (c.cur.isNone || c.halted || c.interrupted || c.stepping) && c.xfers.isEmpty && c.stalled.isEmpty &&
  !s.nbAtWork t

/-- CAST_QUIESCE: the last READY arrives; this is Q, and PAUSE COPY follows. -/
def State.castQuiesce (s : State) (cyc : Nat) : State :=
  match s.cast.run with
  | none => s
  | some r =>
    if r.phase != 2 || !(allLogical.all fun l => s.pauseReady (s.phys l)) then s
    else
      let s := s.toCycle cyc
      let ready := allLogical.map fun l => (l, (s.dirtySet r (s.phys l) l).length)
      (s.modRun fun r =>
        { r with phase := 3, since := s.beat, quiesce := s.time.time, firstQ := if r.index == 0 then s.beat else r.firstQ
                 lastQ := s.beat, ready, copied := [], final := ready.all fun e => e.2 ≤ mouldPayload
                 resuming := false, slowest := 0x7FF }).pauseSend 1

/-- The gather of a cast is abandoned after GATHER_MAX beats (R337). -/
def State.gatherExpiry (s : State) : State :=
  match s.cast.run with
  | some r => if r.phase == 2 && r.since + s.gatherMax ≤ s.beat then (s.castFail 1 .gatherTimeout).resumeSend else s
  | none => s

/-- The copy of a logical tile waits: its tile is in a chisel session, or its promotion is in steps 2 to 4
(Table 11.3). -/
def State.copyLate (s : State) (l : Nat) : Bool :=
  (s.tile (s.phys l)).chisel.inSession ||
  s.map.promotions.any fun p => p.logical == l && (p.step == 1 || p.step == 3 || p.step == 4) && !s.pauseBlocks p

/-- The copy that PAUSE COPY starts in the slice of tile `t`; it waits while its stack interface domain is stopped
(R338). -/
def State.pauseCopy (s : State) (t : Nat) : State :=
  match s.cast.run, s.logical t with
  | some r, some l =>
    if r.phase == 3 && (r.ready.any fun e => e.1 == l) && !r.copied.contains l && !s.copyLate l && !s.stackStopped t then
      s.mouldCopy t l
    else s
  | _, _ => s

/-- The first edge of a stack interface domain: the copies of the pause that waited for it are made (R338). -/
def State.gapCopies (s : State) (d : Nat) : State :=
  if s.castPhase == 3 && (d == 21 || d == 22) then
    (allTiles.filter fun t => (if colOf t < 16 then 21 else 22) == d).foldl State.pauseCopy s
  else s

/-- CAST_COPY_DONE: every copy that is not late is made, and RESUME goes out. -/
def State.castCopied (s : State) (cyc : Nat) : State :=
  match s.cast.run with
  | none => s
  | some r =>
    if r.phase == 3 && !r.resuming && allLogical.all (fun l => r.copied.contains l || s.copyLate l) then
      ((s.toCycle cyc).modRun fun r => { r with resuming := true }).resumeSend
    else s

/-- The drain of a pause begins: its segment header is written, as far as the log has room, and with a mirror partner
the header and the moulds go there too, behind the whole chain if the partner has just been bound (R341, R342, R345).
-/
def State.drainStart (s : State) : State :=
  match s.cast.run with
  | none => s
  | some r =>
    let h := r.header s.detKey
    let s := if s.logFree < r.size then s else s.drainRun (s.logWrites (chainLbas s.nv.casts) r.segStart [h])
    let s := s.modRun fun r => { r with heads := r.heads ++ [(h, r.ready.length)] }
    if r.mirror then
      let peer := s.cast.partnerChip
      let s := if r.index == 0 && s.cast.mirrorChain then
          s.nv.casts.reverse.foldl (fun s c => s.mirrorQueue peer mirrorOther (recordStored c)) s
        else s
      r.moulds.foldl (fun s e => s.mirrorMould e.1) (s.mirrorQueue peer mirrorOther [h])
    else s

/-- A promotion that a cast pause held back goes on: its times count from now (Table 8.5). -/
def State.promotionsGo (s : State) : State :=
  { s with map.promotions := s.map.promotions.map fun p => if s.pauseBlocks p then { p with since := s.beat } else p }

/-- The pause is over when the last stream of a participating tile has restarted: CAST_PAUSE, and the drain (R337,
R341). -/
def State.pauseOver (s : State) : State :=
  match s.cast.run with
  | none => s
  | some r =>
    if r.phase == 3 && r.resuming && !(allLogical.any fun l => (s.tile (s.phys l)).core.castStop) then
      let s := s.promotionsGo
      let gather := r.quiesce.toNat - r.gatherAt.toNat
      let pause := s.time.time.toNat - r.quiesce.toNat
      let s := s.raiseHub 0x00A0 .info (pack [(56, 8, r.index), (32, 24, min gather (2 ^ 24 - 1)), (31, 1, b2n r.final),
        (17, 11, r.slowest), (0, 17, min pause (2 ^ 17 - 1))])
      let s := (s.bump Reg.castPauses).setReg Reg.castPauseMax
        (word (max (s.reg Reg.castPauseMax).toNat (min pause (2 ^ 32 - 1))))
      ({ s with cast.lastGather := min gather (2 ^ 32 - 1), cast.lastPause := min pause (2 ^ 32 - 1) }.modRun fun r =>
        { r with phase := 4, since := s.beat }).drainStart
    else s

/-- The stream of tile `t` restarts, and its slice performs the writes it held (R339); a participating tile that
restarts last is SLOWEST. -/
def State.restartStream (s : State) (t : Nat) : State :=
  (((s.modCore t fun c => { c with castStop := false, resumeDue := false }).serveHeld t).modRun fun r =>
    if r.phase == 3 && (s.logical t).isSome then { r with slowest := t } else r).pauseOver

/-- RESUME at node `t`: the stream restarts; on a tile whose region or stack interface domain is stopped it does so at
the domain's first edge (R336, R338). -/
def State.nodeResume (s : State) (t : Nat) : State :=
  if !(s.tile t).core.castStop then s
  else if s.regionStopped (regionOf t) || s.stackStopped t then s.modCore t fun c => { c with resumeDue := true }
  else s.restartStream t

/-- The streams whose restart waited for an edge of a region or stack interface domain restart (R338). -/
def State.resumeLate (s : State) : State :=
  (allTiles.filter fun t => (s.tile t).core.resumeDue && !s.regionStopped (regionOf t) && !s.stackStopped t).foldl
    State.restartStream s

/-! ### The drain (R340 to R343) -/

/-- Every mould of the pause is drained, late copies included. -/
def CastRun.drained (r : CastRun) : Bool :=
  r.phase == 4 && (r.ready.all fun e => r.copied.contains e.1) && r.moulds.all fun e => e.2.drained

/-- The next pause of a cast that is not final begins with its window; too many end it (R340). -/
def State.castNext (s : State) : State :=
  match s.cast.run with
  | none => s
  | some r =>
    if r.drained && !r.final then
      let s := s.modRun fun r =>
        { r with phase := 1, since := s.beat, index := r.index + 1, past := r.past ++ r.segMoulds
                 sealWords := r.sealWords ++ r.segSeals
                 segs := r.segEnd :: r.segs, moulds := [], ready := [], copied := [] }
      if s.maxPauses ≤ r.index + 1 then s.castFail 2 .dirtyOverflow else s
    else s

/-- MOULD_DRAINED: the mould of tile `t` is in the store, and acknowledged by the partner if the cast is mirrored; a
log without room ends the cast (R341). Behind the last mould of the final pause the record's seal blocks go to the
partner. -/
def State.mouldDrained (s : State) (t : Nat) : State :=
  match s.cast.run with
  | none => s
  | some r =>
    if r.phase != 4 || (r.mirror && s.cast.mirrorOut.any fun m => m.tile == t) then s
    else
      match r.moulds.find? fun e => e.1 == t && !e.2.drained with
      | none => s
      | some (_, m) =>
        if s.logFree < r.size then s.castFail 4 .noSpace
        else
          let s := s.drainRun (s.logWrites (chainLbas s.nv.casts) (r.mouldStart m.rec_.logical) (mouldStored m.rec_))
          let r := { r with moulds := r.moulds.map fun (e : Nat × Mould) => if e.1 == t then (e.1, { e.2 with drained := true }) else e }
          let s := { s with cast.run := some r }
          let s := if r.mirror && r.drained && r.final then
              s.mirrorQueue s.cast.partnerChip mirrorOther (sealBlocks (r.sealWords ++ r.segSeals))
            else s
          s.castNext

/-- The state that a binding shows (R345): 1 INDEPENDENT, 2 MIRROR_DEPENDENT. -/
def State.feedState (s : State) (pfid : BitVec 4) : Nat :=
  if pfid == s.nv.pfid || pfid == 0xF || s.nv.pfid == 0xF then 2 else 1

/-- The record of a cast whose last mould has drained. -/
def CastRun.record (r : CastRun) (key : Word) : CastRec :=
  { number := r.number, full := r.full, chip := Config.chipId, key, qBeat := r.lastQ, size := r.size
    moulds := r.past ++ r.segMoulds, lastSeg := r.segStart, segs := r.heads }

/-- CAST_DURABLE: every segment is written and flushed, the superblock names the cast (R343), and with a mirror
partner all of it is acknowledged there (R341). -/
def State.castDurable (s : State) : State :=
  match s.cast.run with
  | none => s
  | some r =>
    if !(r.drained && r.final) || (r.mirror && s.cast.mirrorOut.any fun m => m.tile != mirrorReadBack) then s
    else
      let last := pack [(63, 1, 1), (62, 1, b2n r.full), (61, 1, b2n r.mirror), (0, 32, r.number.toNat)]
      let at_ := chainLbas s.nv.casts
      let c := r.record s.detKey
      let s := s.drainRun (s.sealWrites at_ r.size (sealBlocks (r.sealWords ++ r.segSeals)) ++ [nvmeFlush])
      let w := s.superWrite
        { s.nv.superNow with
          key := s.detKey, castNum := last, casts := if r.full then [c] else c :: s.nv.casts
          logStart := if r.full then (s.nv.logStart + at_) % max 1 s.cast.logSize else s.nv.logStart }
      let s := (w.1.drainRun w.2).bump Reg.castCasts
      let s := if r.mirror then { s with cast.mirrorChain := false, cast.partner := s.feedState s.cast.partnerPfid } else s
      let s := s.raiseHub 0x00A1 .info (pack [(63, 1, b2n r.full), (62, 1, b2n r.mirror), (54, 8, r.index + 1),
        (0, 32, r.number.toNat)])
      { s with
        cast.last := last, cast.lastCut := r.lastQ, cast.durable := s.cast.durable ++ [(r.number, r.firstQ)]
        cast.fullNext := false, cast.run := none }.finishOpt r.order .ok

/-- CAST_STORE_ERROR: a write or Flush of the drain failed. -/
def State.castStoreError (s : State) : State := if s.castPhase == 4 then s.castFail 5 .storeError else s

/-! ### Orders CAST, RESTORE and PARTNER_BIND (R355, R356) -/

/-- CAST takes its number and begins with its window check (R333, R344). Ranges that changed keep the casts full until
one is durable; FULL forces this one alone. -/
def State.castStart (s : State) (operand : BitVec 48) (id : Nat) : State :=
  let full := operand.getLsbD 47 || s.castFull
  let n := s.cast.lastGiven + 1
  let r : CastRun :=
    { number := n, order := some id, full, mirror := s.cast.partner != 0 && !operand.getLsbD 46, phase := 1, since := s.beat }
  let s := { s with cast.lastGiven := n, cast.fullNext := s.cast.fullNext || s.rangesNow ≠ s.cast.rangesInForce,
                    cast.rangesInForce := s.rangesNow
                    cast.run := some r }
  (s.orderDetail id n).castWindow

/-- CAST completes STATE_ILLEGAL or NO_STORE. -/
def State.castRefusal (s : State) : Option Status :=
  if !bit s.castCtl 0 || s.castRanges.isEmpty then some .stateIllegal
  else if !s.cast.storeOk then some .noStore else none

/-- RESTORE begins: every maquette session ends (Table 6.3), and its chain is to be validated. For SOURCE PEER the hub
asks the partner for its mirror area, in a HUBMSG of 3 flits (R350; assumption 58). -/
def State.restoreStart (s : State) (operand : BitVec 48) (id : Nat) : State :=
  let n : BitVec 32 := operand.setWidth 32
  let r : CastRun :=
    { number := n, order := some id, full := false, mirror := false, phase := 5, since := s.beat
      peer := operand.getLsbD 47, foreign := operand.getLsbD 46, peerChip := (operand.toNat / 2 ^ 32) }
  let s := ({ s.maqEndAll 8 with cast.run := some r } : State).orderDetail id n
  if r.peer then s.peerSend r.peerChip false 5 [n.setWidth 128, 0] else s

/-- PARTNER_BIND with VALID 1, once the named chip has answered or not (R345). -/
def State.bindStart (s : State) (operand : BitVec 48) (answer : Option PartnerAnswer) (id : Nat) : State :=
  let chip : BitVec 13 := operand.setWidth 13
  match answer with
  | none => s.finish id .peerUnreachable
  | some a =>
    let st := s.feedState a.pfid
    if (s.routeFor chip).isNone || s.arm.unreachable.contains chip then s.finish id .peerUnreachable
    else if a.busy then s.finish id .partnerBusy
    else if !a.area then s.finish id .noStore
    else if st == 2 && !operand.getLsbD 46 then s.finish id .sameFeed
    else
      let s := { s with cast.partner := st, cast.partnerPfid := a.pfid, cast.partnerChip := chip, cast.mirrorChain := true }
      (s.raiseMirror st 0 chip).finish id (if st == 2 then .mirrorDependent else .ok)

/-- PARTNER_BIND with VALID 0 unbinds. -/
def State.unbindStart (s : State) (id : Nat) : State :=
  let chip := s.cast.partnerChip
  let was := s.cast.partner
  let s := s.mirrorClear
  let s := { s with cast.partner := 0, cast.partnerPfid := 0, cast.partnerChip := 0, cast.mirrorChain := false }
  (if was != 0 then s.raiseMirror 0 1 chip else s).finish id .ok

/-! ### Mirrors (R346, R347) -/

/-- LBAs of the mirror area (Table 11.1). -/
def State.mirrorLbas (s : State) : Nat := s.nv.lbas - 4 - s.cast.logSize

/-- Field `i` of a segment header block. -/
def segField (b : List Byte) (i : Nat) : Nat := leNat ((b.drop (8 * i)).take 8)

/-- The segments that the mirror area still needs: those from the latest full cast on whose final segment came (R342).
-/
def mirrorKeep (segs : List (BitVec 13 × List (List Byte))) : List (BitVec 13 × List (List Byte)) :=
  match (segs.filter fun e => segField (e.2.headD []) 2 == 1 && segField (e.2.headD []) 3 == 1).getLast? with
  | some e => segs.dropWhile fun x => segField (x.2.headD []) 0 != segField (e.2.headD []) 0
  | none => segs

/-- LBAs that segments take. -/
def segLbas (segs : List (BitVec 13 × List (List Byte))) : Nat := (segs.map fun e => e.2.length).sum

/-- The mirror area's superblock names the cast whose final segment has just been flushed (Table 11.1). -/
def State.mirrorSuper (s : State) (h : List Byte) : State :=
  let q := s.nv.mirrorSeq + 1
  let bs := superBytes q.toNat (segField h 4) (segField h 5) ((s.nv.pct).getD 0) s.nv.mirrorStart
    (s.nv.mirrorStart + segLbas s.nv.mirror) (segField h 0) (s.nv.mirrorStart + segLbas s.nv.mirror.dropLast) s.nv.mirrorStart
  ({ s with nv.mirrorSeq := q }).nvmeRun
    [{ op := .write, lba := copyLba (4 + s.cast.logSize) q, count := 1, data := bs }, nvmeFlush]

/-- MIRROR_SEGMENT_RECEIVE: a segment of another chip is written to the mirror area and flushed, and only
then acknowledged (R346); superseded chains make room (R347). A chip in Repose does not acknowledge (R440). -/
def State.mirrorReceive (s : State) (chip : BitVec 13) (xid : BitVec 16) (blocks : List (List Byte)) (flushed : Bool) :
    State :=
  let size := s.mirrorLbas - 2
  let fits (segs : List (BitVec 13 × List (List Byte))) : Bool := decide (segLbas segs + blocks.length ≤ size)
  let kept := if fits s.nv.mirror then s.nv.mirror else mirrorKeep s.nv.mirror
  if !s.cast.storeOk || s.inRepose || s.cast.mirrorIn.any (· != chip) || !fits kept then s
  else
    let start := (s.nv.mirrorStart + (segLbas s.nv.mirror - segLbas kept)) % max 1 size
    let base := 4 + s.cast.logSize + 2
    let k : StreamId := .sentinel chip false
    let s := { s with cast.mirrorIn := some chip, nv.mirror := kept ++ [(chip, blocks)], nv.mirrorStart := start }
    let s := s.nvmeRun (((List.range blocks.length).zip blocks).map fun e =>
      { op := .write, lba := base + (start + segLbas kept + e.1) % max 1 size, count := 1, data := e.2 })
    if !flushed then s
    else
      let s := s.nvmeRun [nvmeFlush]
      let h := blocks.headD []
      let s := if segField h 2 == 1 && h.length == blockBytes then s.mirrorSuper h else s
      { s with arm.inbox := s.arm.inbox.filter fun e => !(e.1 = k && e.2 == xid) }.sendAck k xid false

/-! ### Restore (R349 to R351) -/

/-- RESTORE_FAIL, and its order (Table 11.6). -/
def State.restoreFail (s : State) (reason tile low : Nat) (part : Bool) (st : Status) : State :=
  match s.cast.run with
  | none => s
  | some r =>
    let s := s.raiseHub 0x00A4 .fault
      (pack [(60, 4, reason), (59, 1, b2n part), (48, 11, tile), (0, 32, low)])
    { s with cast.run := none }.finishOpt r.order st

/-- The chain from its full cast to the named cast, oldest first; 0 names the latest. -/
def chainTo (cs : List CastRec) (n : BitVec 32) : Option (List CastRec) :=
  let rest := if n == 0 then cs else cs.dropWhile fun c => c.number != n
  match rest, rest.findIdx? fun c => c.full with
  | _ :: _, some i => some (rest.take (i + 1)).reverse
  | _, _ => none

/-- The control block of logical tile `l` at the final cut of a cast. -/
def finalMould (c : CastRec) (l : Nat) : Option CastMould := (c.moulds.filter fun m => m.logical == l).getLast?

/-- Fields of a generator entry (R348). -/
def genValid (e : BitVec 128) : Bool := e.getLsbD 127
def genReq (e : BitVec 128) : Nat := (e.toNat >>> 96) % 2 ^ 31
def genPos (e : BitVec 128) : Nat := (e.toNat >>> 64) % 2 ^ 32
def genGen (e : BitVec 128) : Nat := (e.toNat >>> 32) % 2 ^ 32

/-- The first generator entry that breaks R349: its logical tile and REQ. GENPOS equals POS in every control block of
the cast; POS of one REQ is the same across the control blocks of the final cut (DEDUCED: those of earlier pauses
stand at earlier tokens; assumption 58). -/
def genMismatch (c : CastRec) : Option (Nat × Nat) :=
  let every : List (Nat × BitVec 128) := c.moulds.flatMap fun m => (m.gens.filter fun e => genValid e.2).map fun e => (m.logical, e.2)
  let all : List (Nat × BitVec 128) := allLogical.flatMap fun l =>
    match finalMould c l with
    | some m => (m.gens.filter fun e => genValid e.2).map fun e => (l, e.2)
    | none => []
  ((every.find? fun e => genGen e.2 != genPos e.2).orElse fun _ => all.find? fun e =>
    all.any fun f => genReq f.2 == genReq e.2 && genPos f.2 != genPos e.2).map fun e => (e.1, genReq e.2)

/-- The whole logical grid. -/
def wholeGrid : Rect := { r0 := 0, c0 := 0, r1 := 31, c1 := 31 }

/-- A restore has validated its cast: it holds every logical tile, stops every stream, empties every queue and ends the
tests, watches and digests of Tables 7.7 and 12.3. -/
def State.restoreStop (s : State) (chain : List CastRec) (n : BitVec 32) (id : Option Nat) : State :=
  let s := s.modRun fun r => { r with chain, walked := true, number := n }
  let s := match id with | some i => s.orderDetail i n | none => s
  let s := s.digestRestore.watchCancelAll fun _ => true
  let s := s.chiselAbortAll 1
  let s := s.fenceSend { kind := kTEST_HOLD, fence := false, hold := true, rect := some wholeGrid } true none
  allLogical.foldl (fun s l => s.modCore (s.phys l) fun c => { c with castStop := true, queued := 0, next := 0xFF_FFFF }) s

/-- RESTORE_VALIDATED: the result of the chain walk. -/
def State.restoreValidated (s : State) (w : RestoreWalk) : State :=
  match s.cast.run with
  | none => s
  | some r =>
    if r.phase != 5 || r.walked then s
    else
      let s := if r.peer then s else s.nvmeRun ({ op := .read, lba := 2, count := 2 } ::
        (List.range (chainLbas s.nv.casts)).map fun i => { op := .read, lba := s.logLba i, count := 1 })
      let casts := if r.peer then w.casts else s.nv.casts
      let low := (if r.number == 0 then (casts.head?.map (·.number)).getD 0 else r.number).toNat
      if r.peer && !w.answers then s.restoreFail 6 0x7FF low false .peerUnreachable
      else if !w.crcOk then s.restoreFail 4 0x7FF low false .storeCorrupt
      else if (if r.peer then !w.chipOk
               else !r.foreign && (s.nv.storeChip != Config.chipId || casts.any fun c => c.chip != Config.chipId)) then
        s.restoreFail 7 0x7FF low false .chipMismatch
      else
        match chainTo casts r.number with
        | none => s.restoreFail 3 0x7FF low false .notFound
        | some chain =>
          match chain.getLast? with
          | none => s.restoreFail 3 0x7FF low false .notFound
          | some c =>
            if chain.any fun x => x.key != s.detKey then s.restoreFail 2 0x7FF c.number.toNat false .keyMismatch
            else
              match genMismatch c with
              | some (l, q) => s.restoreFail 1 (s.phys l) q false .restoreMismatch
              | none => s.restoreStop chain c.number r.order

/-- The hold of the restore is in force everywhere and every stream stands at a boundary. -/
def State.restoreReady (s : State) : Bool :=
  !s.changeBusy && allLogical.all fun l =>
    let x := s.tile (s.phys l)
    (x.core.cur.isNone || x.core.halted || x.core.interrupted || x.core.stepping) && !x.chisel.inSession

/-- Write one logical tile: blocks in chain order with their seal words, semaphores, generator table; the dirty
bits clear, the stream is empty, and the SRAM starts as a spare's (R350, R331). -/
def State.restoreWrite (s : State) (r : CastRun) (l : Nat) : State :=
  let t := s.phys l
  let ms := r.chain.flatMap fun c => c.moulds.filter fun m => m.logical == l
  let s := ms.foldl (fun s m => m.blocks.foldl (fun s b => s.portBlock (.slice t b.1 b.2.1) b.2.2.1 b.2.2.2) s) s
  let b0 := stackBlock t 0 0
  let s := { s with stack.dirty := s.stack.dirty.filter fun (e : Nat × Bool) => e.1 < b0 || b0 + sliceBlocks ≤ e.1 }
  let m := ms.getLast?
  let s := (s.emptySeals t).modCore t fun c =>
    { c.clearStream with
      castStop := c.castStop, sems := (m.map (·.sems)).getD [], gens := (m.map (·.gens)).getD []
      halted := (m.map fun m => m.halted || m.interrupted).getD false }
  let s := match m with
    | some m => s.modPage t fun p => { p with castTile := castTileWord m.next m.halted }
    | none => s
  s.modRun fun r => { r with written := l :: r.written, waits := r.waits.filter fun (e : Nat × Nat) => e.1 != l }

/-- RESTORE_TILE_WRITE: one tile after its window check (R324, R350). -/
def State.restoreTile (s : State) (l : Nat) : State :=
  match s.cast.run with
  | none => s
  | some r =>
    if r.phase != 5 || !r.walked || r.written.contains l || !s.restoreReady then s
    else
      let wait := r.waits.find? fun e => e.1 == l
      match s.restoreFails r l (s.phys l), wait with
      | some y, none =>
        (s.restoreWindow l y false 0).modRun fun r =>
          { r with waits := r.waits ++ [(l, s.beat)], deferTiles := min (r.deferTiles + 1) 255 }
      | some _, some _ => s
      | none, some w =>
        let y := (r.layersOf l).headD 0
        (s.restoreWindow l y true (s.beat - w.2)).restoreWrite r l
      | none, none => s.restoreWrite r l

/-- The hold of a restore is lifted; the hold of a promotion in progress goes on. -/
def State.restoreUnhold (s : State) : State :=
  let s := s.fenceSend { kind := kTEST_HOLD, fence := false, hold := true, rect := some wholeGrid } false none
  let s := (s.map.promotions.filter fun p => 1 ≤ p.step && p.step ≤ 5).foldl (fun s p =>
    s.fenceSend { kind := p.kind, fence := false, hold := true, phys := p.from_, logical := some p.logical } true none) s
  allLogical.foldl (fun s l => s.modCore (s.phys l) fun c => { c with castStop := false }) s

/-- RESTORE_DONE: every tile is written (R350). -/
def State.restoreDone (s : State) : State :=
  match s.cast.run with
  | none => s
  | some r =>
    if r.phase == 5 && r.walked && allLogical.all r.written.contains then
      let s := s.restoreUnhold
      let s := s.raiseHub 0x00A3 .info (pack [(56, 8, r.deferTiles), (32, 24, min (s.beat - r.since) (2 ^ 24 - 1)),
        (0, 32, r.number.toNat)])
      { s with cast.run := none, cast.partial_ := false, cast.fullNext := true }.finishOpt r.order .ok
    else s

/-- CAST_WINDOW_TIMEOUT: WINDOW_WAIT beats have passed since the first failed check of a pause (R356) or of
a restore's tile (R351), and the window still fails. What a restore wrote makes the next cast full (R333). -/
def State.windowTimeout (s : State) : State :=
  match s.cast.run with
  | none => s
  | some r =>
    if r.phase == 1 then
      match r.deferSince with
      | some b => if b + s.windowWait ≤ s.beat && !s.mouldWindow then s.castFail 3 .outOfWindow else s
      | none => s
    else if r.phase == 5 then
      match r.waits.find? fun e => e.2 + s.windowWait ≤ s.beat && (s.restoreFails r e.1 (s.phys e.1)).isSome with
      | none => s
      | some late =>
        let s := r.waits.foldl (fun s e =>
          s.restoreWindow e.1 ((s.restoreFails r e.1 (s.phys e.1)).getD ((r.layersOf e.1).headD 0)) true (s.beat - e.2)) s
        let tile := s.phys late.1
        let s := s.restoreUnhold
        let s := allLogical.foldl (fun s l => s.modCore (s.phys l) fun c => { c with halted := true }) s
        { s.restoreFail 5 tile r.number.toNat true .outOfWindow with cast.partial_ := true, cast.fullNext := true }
    else s

/-! ### Registers (Table 11.7) -/

/-- CAST_STATUS; FULL_NEXT reads 0 until Chimin has done the work of S0 (Table 11.7). -/
def State.castStatus (s : State) : Word :=
  pack [(61, 3, s.castPhase), (53, 8, (s.cast.run.map (·.index)).getD 0), (52, 1, b2n s.cast.storeOk),
    (51, 1, b2n s.cast.partial_), (50, 1, b2n (s.life.collected && s.castFull)),
    (0, 32, (match s.cast.run with | some r => r.number.toNat | none => 0))]

/-- PARTNER; the own PFID reads 0 until S0 has sampled it (R49, Table 11.7). -/
def State.partnerWord (s : State) : Word :=
  pack [(61, 3, s.cast.partner), (44, 4, if s.life.collected then s.nv.pfid.toNat else 0), (40, 4, s.cast.partnerPfid.toNat),
    (0, 13, s.cast.partnerChip.toNat)]

/-- MIRROR_IN. -/
def State.mirrorInWord (s : State) : Word :=
  match s.cast.mirrorIn with | some c => pack [(63, 1, 1), (0, 13, c.toNat)] | none => 0

/-- STORE_SPACE. -/
def State.storeSpace (s : State) : Word := pack [(32, 32, s.logFree), (0, 32, s.cast.logSize)]

/-- LAST_PAUSE. -/
def State.lastPauseWord (s : State) : Word := pack [(32, 32, s.cast.lastGather), (0, 32, s.cast.lastPause)]

/-! ### Meanings -/

/-- CAST_WINDOW_CHECK, in a dispatch phase (R336). -/
def execCastWindowCheck (s : State) : Host.Outcome State Fault Refusal := doWhen (s.ready && s.time.phase == 7) State.castWindow s

/-- CAST_WINDOW_TIMEOUT. -/
def execCastWindowTimeout (s : State) : Host.Outcome State Fault Refusal := doWhen s.ready State.windowTimeout s

/-- CAST_QUIESCE. -/
def execCastQuiesce (cyc : Nat) (s : State) : Host.Outcome State Fault Refusal :=
  doWhen s.ready (fun s => s.castQuiesce cyc) s

/-- CAST_COPY_DONE. -/
def execCastCopyDone (cyc : Nat) (s : State) : Host.Outcome State Fault Refusal :=
  doWhen s.ready (fun s => s.castCopied cyc) s

/-- MOULD_DRAINED. -/
def execMouldDrained (t : Nat) (s : State) : Host.Outcome State Fault Refusal :=
  doWhen s.ready (fun s => s.mouldDrained t) s

/-- CAST_DURABLE. -/
def execCastDurable (s : State) : Host.Outcome State Fault Refusal := doWhen s.ready State.castDurable s

/-- CAST_STORE_ERROR. -/
def execCastStoreError (s : State) : Host.Outcome State Fault Refusal := doWhen s.ready State.castStoreError s

/-- MIRROR_STATE. -/
def execMirrorState (why : MirrorReason) (s : State) : Host.Outcome State Fault Refusal :=
  doWhen s.ready (fun s => s.mirrorDrop why) s

/-- MIRROR_SEGMENT_RECEIVE. -/
def execMirrorSegmentReceive (chip : BitVec 13) (xid : BitVec 16) (blocks : List (List Byte)) (flushed : Bool)
    (s : State) : Host.Outcome State Fault Refusal :=
  doWhen s.ready (fun s => s.mirrorReceive chip xid blocks flushed) s

/-- RESTORE_VALIDATED. -/
def execRestoreValidated (w : RestoreWalk) (s : State) : Host.Outcome State Fault Refusal :=
  doWhen s.ready (fun s => s.restoreValidated w) s

/-- RESTORE_TILE_WRITE. -/
def execRestoreTileWrite (l : Nat) (s : State) : Host.Outcome State Fault Refusal :=
  doWhen (s.ready && l < numLogical) (fun s => s.restoreTile l) s

/-- RESTORE_DONE. -/
def execRestoreDone (s : State) : Host.Outcome State Fault Refusal := doWhen s.ready State.restoreDone s

/-- A late mould copy of the logical tile on tile `t`. -/
def State.castLateAt (s : State) (t : Nat) : State := match s.logical t with | some l => s.castLate t l | none => s

/-- The end of REINIT: the tile's state comes back, a late mould copy is made, and the node reports (R225, R247,
Table 7.7). -/
def State.reinitDone (s : State) (t : Nat) (stuck : Option Nat) : State :=
  let c := (s.tile t).chisel
  if c.state != 9 || c.node.finish == 0 || c.reinit.isSome then s
  else ((s.chiselRestore t).castLateAt t |>.modChisel t fun c => { c with reinit := some stuck }).chiselSay t rkREINIT_DONE 0xF []

/-- The sessions whose REINIT is done end in a dispatch phase (R225, R239); a cast pause defers this, because no map
change other than a fence is made then (Table 11.3). -/
def State.chiselEndAll (s : State) : State :=
  if s.castPhase == 3 then s
  else s.slotTiles.foldl (fun s t => if (s.tile t).chisel.reinit.isSome then (s.castLateAt t).chiselEnd t else s) s

/-- REINIT_DONE. -/
def execReinitDone (t : Nat) (stuck : Option Nat) (s : State) : Host.Outcome State Fault Refusal :=
  doWhen (s.ready && t < numTiles) (fun s => s.reinitDone t stuck) s

end Sys2Proof.Machine
end

