-- ==== Sys2Proof/Machine/Work.lean ====
section
/-! DEFINITION. Commands of the tile streams as Chimin sees them begin and end: counters, traces, watch
results, digests and the maquette window (chapters 6, 12 and 13). -/

namespace Sys2Proof.Machine

/-! ### Watch results (R410, R411, Table 13.15) -/

/-- What STATS forms over the blocks that a command keeps. -/
structure WatchSt where
  fmt     : Option Nat := none
  skipped : Nat := 0
  elems   : Nat := 0
  zeros   : Nat := 0
  nans    : Nat := 0
  infs    : Nat := 0
  least   : Option Nat := none      -- raw encodings
  most    : Option Nat := none
  sum     : Int := 0
  ovf     : Bool := false
  hist    : List Nat := List.replicate 32 0
  deriving DecidableEq, Repr

/-- Value of an element for comparison: −0 compares as 0. -/
def watchValue (f b : Nat) : Int := entryValue f b

/-- The element is finite. -/
def isFinite (f b : Nat) : Bool := specialOf f b == 0

/-- The histogram bin of a finite element whose value is `v` × 2^−S (R411). -/
def histBin (s : Nat) (v : Int) : Nat :=
  let a := v.natAbs
  if a == 0 then 0
  else
    let e : Int := (Nat.log2 a : Int) - s
    if e < -14 then 1 else if 15 ≤ e then 31 else (e + 16).toNat

/-- The scale of a histogram: for INT8 and INT32 an element is the integer itself. -/
def histScale (f : Nat) : Nat := if f == 1 || f == 2 then 0 else fmtScale f

/-- One element enters the statistics. The sum takes the image of R126. -/
def WatchSt.elem (w : WatchSt) (f b : Nat) : WatchSt :=
  let w := { w with elems := w.elems + 1 }
  if isFinite f b then
    let v := watchValue f b
    let bin := histBin (histScale f) v
    { w with
      zeros := if v == 0 then w.zeros + 1 else w.zeros
      least := match w.least with | some m => if v < watchValue f m then some b else some m | none => some b
      most := match w.most with | some m => if watchValue f m < v then some b else some m | none => some b
      sum := w.sum + image f b, ovf := w.ovf || !fits128 (w.sum + image f b)
      hist := w.hist.set bin (w.hist.getD bin 0 + 1) }
  else if specialOf f b == 3 then { w with nans := w.nans + 1 } else { w with infs := w.infs + 1 }

/-- One output block enters the statistics: RAW32, CANON128 and any format but the first counted are
skipped. -/
def WatchSt.block (w : WatchSt) (o : OutBlock) : WatchSt :=
  let f := o.fmt.toNat
  if f == 0 || 0xA ≤ f || (w.fmt.getD f) != f then { w with skipped := w.skipped + 1 }
  else o.elems.foldl (fun w b => w.elem f b) { w with fmt := some f }

/-- WATCH_RESULT of a slot: its 192 bytes, OVF and FMT (Table 13.15). SUM is undefined after an overflow
(assumption 6). -/
def watchStats (free : Nat) (outs : List OutBlock) : List Byte × Bool × Nat :=
  let w := outs.foldl WatchSt.block {}
  let sum : Nat := if w.ovf then (Config.watchSum free).toNat else sbits 128 w.sum
  let bs := leBytes 4 (w.most.getD 0) ++ leBytes 4 (w.least.getD 0) ++ leBytes 16 sum ++
    leBytes 4 w.zeros ++ leBytes 4 w.elems ++ leBytes 4 w.infs ++ leBytes 4 w.nans ++ leBytes 8 0 ++
    leBytes 8 w.skipped ++ leBytes 8 0 ++ w.hist.flatMap fun h => leBytes 4 h
  (bs, w.ovf, w.fmt.getD 0)

/-- The result of MODE DIGEST: the CRC-64 over the bytes of the output blocks (R411). -/
def watchDigest (outs : List OutBlock) : List Byte :=
  List.replicate 0x28 0 ++
  leBytes 8 (crc64 (outs.flatMap fun o => packBlock o.fmt.toNat o.elems)).toNat ++ List.replicate 0x90 0

/-- The three REPLY packets of a watch result: its bytes 0x00 to 0x3F, then the two halves of HIST (R424). -/
def watchReply (k : Nat) (bs : List Byte) : List (List Flit) :=
  (List.range 3).map fun p =>
    BitVec.ofNat 128 (packNat [(120, 4, p), (116, 4, 2), (113, 3, k)]) :: byteFlits ((bs.drop (64 * p)).take 64)

/-- The watch slots that cover the command return their results, and their orders complete OK (R410). -/
def State.watchEnd (s : State) (t : Nat) (c : Cmd) (outs : List OutBlock) : State :=
  (s.tile t).core.watchHit.foldl (fun s k =>
    if s.watchArmed k then
      let w := s.watch k
      let stats := fld w.1 61 60 == 0
      let r := watchStats s.free outs
      let bs := if stats then r.1 else watchDigest outs
      let st := setFld (setFld (setFld (setFld w.1 63 62 2) 59 59 (b2n (stats && r.2.1))) 58 55
        (if stats then r.2.2 else 0)) 23 0 c.cseq.toNat
      let s := ({ s with free := s.free + 1 } : State).sendReply t (watchReply k bs)
      ((s.finishOpt w.2.2 .ok).setWatch k (st, bs, none)).modCore t fun (c : Core) =>
        { c with watch := terase c.watch k }
    else s) s

/-! ### A command begins (R394, R403, R408, R410) -/

/-- The reset of the command before is applied at the node before that of a new one arises (R394). -/
def State.settleReset (s : State) (t : Nat) : State :=
  let peak := s.lastReading t
  match (s.tile t).core.resetAt with
  | some (_, mask) => s.modCore t fun c => { c.applyReset mask peak with resetAt := none }
  | none => s

/-- The plinth cycle in which a reset arising now is applied at the node: 1 to 3 cycles later (R394). -/
def State.resetTime (s : State) : Word × State :=
  let d := s.draw
  (word (s.time.time.toNat + 1 + d.1.toNat % 3), d.2)

/-- The first tile cycle of the tile's command, at its start or its restart: resets, CMD_BEGIN, the hang
ring and the lineage record (R394, R403, R408, Table 5.1). -/
def State.firstCycle (s : State) (t : Nat) (c : Cmd) : State :=
  let r := (s.settleReset t).resetTime
  let s := r.2.modCore t fun k =>
    { k with resetAt := some (r.1, c.creset), prev := k.last, last := some (cmdIds c), curTime := s.time.time
             unreported := false }
  let s := s.traceEmit t 1 (cmdIds c) 0
  (s.hangLocal t uNODE .begin_ c.cseq.toNat 0).lineageCommand t

/-- The slots armed on the tile whose LAYER and OPER the command has (R410). -/
def Core.watchesFor (k : Core) (c : Cmd) : List Nat :=
  (k.watch.filter fun e => e.2.2.1 == c.layer && e.2.2.2 == c.oper).map (·.1)

/-- A command starts, or starts again, on tile `t`; one that uses a canonical channel without the CANON feature is
refused before it moves any data, and its stream halts (R366). Answers whether the command runs. -/
def State.startCommand (s : State) (t : Nat) (c : Cmd) : State × Bool :=
  let s := s.firstCycle t c
  if c.canonical && !s.feature 0 then ((s.raiseTile t uNODE 0x00B4 .note (some (cmdIds c)) 0).halt t false, false)
  else (s, true)

/-- COMMAND_BEGIN: the next command of tile `t` begins. -/
def State.commandBegin (s : State) (t : Nat) (c : Cmd) (cyc : Nat) : State :=
  let s := s.toCycle cyc
  let hits := (s.tile t).core.watchesFor c
  let s := s.modCore t fun k =>
    { k with
      cur := some c, queued := k.queued - 1, next := c.cseq, stepLeft := if k.stepOn then k.stepLeft - 1 else k.stepLeft
      watchHit := hits }
  let r := s.startCommand t c
  if r.2 then r.1.maqBegin t c else r.1

/-- The tile waits at its boundary for a fence: of FENCE with MODE 1, or of a PROMOTE (R276). -/
def State.boundaryWait (s : State) (t : Nat) : Bool :=
  (s.map.pendFence.any fun e => e.1 == t) || s.map.promotions.any fun p => p.step == 6 && p.from_ == t

/-- A stream may begin a command: it runs, nothing stops it, its tile carries a logical tile behind an open
router and a running clock. -/
def State.mayBegin (s : State) (t : Nat) : Bool :=
  let c := (s.tile t).core
  s.ready && s.life.repose < 2 && t < numTiles && (s.logical t).isSome && !s.regionStopped (regionOf t) &&
  !c.router && c.cur.isNone && !c.stopped && !c.halted && !c.interrupted && !c.stepping && !c.frozen &&
  !(c.stepOn && c.stepLeft == 0) && !s.boundaryWait t

/-- A halted or interrupted command restarts from its start under RUN or STEP (R135, R266, R414). -/
def State.restartCommand (s : State) (t : Nat) : State :=
  match (s.tile t).core.cur with
  | some c => if (s.tile t).core.running then (s.startCommand t c).1 else s
  | none => s

/-! ### A command ends (R199, R348, R373, R403) -/

/-- The node's counts of a command's units, apart from the blocks whose reads and writes are commands of the table
(Table 13.1; assumption 59), and the entries of its vector unit and of its units' waits in their hang rings (R408). -/
def State.countCommand (s : State) (t : Nat) (e : CmdEnd) : State :=
  let s := ((((s.count t 0 e.arrayCycles).count t 1 e.vectorCycles).count t 2 e.sramBytes).count t 3 e.sliceBytes).count t 15
    e.stallCycles
  let s := if e.vectorCycles == 0 then s else (s.unitRing t uVECTOR .begin_ 0).unitRing t uVECTOR .end_ 0
  (e.ringWaits.filter fun w => w.1 ≤ uTSENS && (w.2 == 0 || w.2 == 2)).foldl
    (fun s w => (s.unitRing t w.1 .wait w.2).unitRing t w.1 .resume 0) s

/-- The semaphore waits of a command: WAIT and RESUME in the node's ring, and SYNC records of those of at
least SYNC_MIN cycles (R403, R408). -/
def State.syncRecords (s : State) (t : Nat) (c : Cmd) (ws : List SemWait) : State :=
  let least := fld (s.inForce Reg.traceTraceCtl) 63 32
  ws.foldl (fun s w =>
    let s := (s.hangLocal t uNODE .wait c.cseq.toNat 1).hangLocal t uNODE .resume c.cseq.toNat 0
    if least ≤ w.cycles then
      s.traceEmit t 3 (cmdIds c) (pack [(48, 10, w.logical), (40, 5, w.sem), (0, 40, min w.cycles (2 ^ 40 - 1))])
    else s) s

/-- Vector-unit blocks reach tile SRAM with the seal word that the vector unit forms (R128). -/
def State.sealOutputs (s : State) (t : Nat) (outs : List OutBlock) : State × List OutBlock :=
  outs.foldl (fun a o =>
    match o.dst with
    | some i =>
      if o.unit == uVECTOR && i < sramBlocks then
        let w := sealWord a.1.time.time t o.gen 3 true (blockResidue o.fmt.toNat o.elems)
        (a.1.portBlock (.sram t i) (packBlock o.fmt.toNat o.elems) w, a.2 ++ [{ o with sealw := w }])
      else (a.1, a.2 ++ [o])
    | none => (a.1, a.2 ++ [o])) (s, [])

/-- The command's contribution to the digest slots whose rectangle and range hold it is committed (R373). -/
def State.feedDigests (s : State) (t : Nat) (c : Cmd) (e : CmdEnd) : State :=
  match s.logical t with
  | none => s
  | some l =>
    (List.range 16).foldl (fun s k =>
      let d := s.dslot k
      if (d.state == 1 || d.state == 2) && d.rect.has l && d.inRange c.cseq then
        s.modCore t fun q =>
          let b := q.digBytes k
          { q with dhash := tset ([], [], []) q.dhash k (b.1 ++ c.words, b.2.1 ++ e.hostIn, b.2.2 ++ e.hostOut) }
      else s) s

/-- A generator entry: VALID, REQ, POS and GENPOS (R348). -/
def genEntry (req : BitVec 31) (pos gpos : BitVec 32) : BitVec 128 :=
  BitVec.ofNat 128 (packNat [(127, 1, 1), (96, 31, req.toNat), (64, 32, pos.toNat), (32, 32, gpos.toNat)])

/-- The sampling command advances POS and GENPOS of its request's entry by 1 (R348). -/
def genAdvance (req : BitVec 31) (v : BitVec 128) : BitVec 128 :=
  if v.getLsbD 127 && v.toNat / 2 ^ 96 % 2 ^ 31 == req.toNat then
    genEntry req (BitVec.ofNat 32 (v.toNat / 2 ^ 64 + 1)) (BitVec.ofNat 32 (v.toNat / 2 ^ 32 + 1))
  else v

/-- A generator entry as a command leaves it that sets it up for a request, or clears it: POS and GENPOS of a valid
entry change by its sampling command alone, so only one that is not valid is set up, and clearing takes away VALID
(R348). -/
def genSet (v : BitVec 128) (x : Option (BitVec 31 × BitVec 32)) : BitVec 128 :=
  match x with
  | some (r, p) => if v.getLsbD 127 then v else genEntry r p p
  | none => setBit v 127 false

/-- The generator table after a command: the entries that it set up or cleared, and the advance of its token. -/
def Core.genEnd (k : Core) (c : Cmd) (e : CmdEnd) : Core :=
  let g := e.gens.foldl (fun g x => tset 0 g (x.1 % 64) (genSet (tget 0 g (x.1 % 64)) x.2)) k.gens
  match c.sample with
  | some r => { k with gens := (List.range 64).foldl (fun m i => tset 0 m i (genAdvance r (tget 0 g i))) [] }
  | none => { k with gens := g }

/-- The semaphores after a command. -/
def Core.semEnd (k : Core) (e : CmdEnd) : Core :=
  { k with sems := e.sems.foldl (fun m x => tset 0 m (x.1 % 32) x.2) k.sems }

/-- The stream stands at the boundary after a command: the next one is known if the queue has one, and a
STEP whose last command this was leaves it STEPPING (R413). -/
def Core.afterCommand (k : Core) (c : Cmd) (queued : Nat) : Core :=
  let stops := k.stepOn && k.stepLeft == 0
  { k with
    cur := none, queued, next := if queued == 0 then 0xFF_FFFF else seqAfter c.cseq, watchHit := []
    stepping := k.stepping || stops, stepOn := k.stepOn && !stops }

/-- COMMAND_END with END DONE. -/
def State.commandDone (s : State) (t : Nat) (c : Cmd) (e : CmdEnd) : State :=
  let s := (s.countCommand t e).syncRecords t c e.waits
  let o := s.sealOutputs t e.outs
  let s := o.1.modCore t fun k => (k.semEnd e).genEnd c e
  let s := ((s.maqSourceEnd t c o.2).watchEnd t c o.2).feedDigests t c e
  ((s.traceEnd t 0).modCore t fun k => (k.afterCommand c e.queued).cutHere).stepDone t

/-- A maquette host or referee ends its run: only its record comes of it (R198, R199). -/
def State.hostDone (s : State) (t : Nat) (e : CmdEnd) : State :=
  let o := (s.countCommand t e).sealOutputs t e.outs
  o.1.hostEnd t o.2

/-- COMMAND_END at tile `t`: the counts and waits since the last row of the command, and its end, if it is not going on
or was stopped before (R393, R403). -/
def State.commandEnd (s : State) (t : Nat) (e : CmdEnd) : State :=
  match (s.tile t).core.cur with
  | none => s
  | some c =>
    let s := s.toCycle e.cyc
    let counted := if s.servesMaq t then s.countCommand t e else (s.countCommand t e).syncRecords t c e.waits
    match e.how with
    | .going => counted
    | .halted => (counted.halt t false).modCore t fun k => { k with unreported := false }
    | .done => if s.servesMaq t then s.hostDone t e else s.commandDone t c e

/-- A command may end: it runs, and a completed one has no pass, no read, no near-bank operation and no held block left
(R303), but for a maquette host's, which holds its blocks (R183); nor does one end that stalls on a held transfer or
waits for the stack (R223, R261, R295). The counts of a command that something stopped come by a row of its own. -/
def State.mayEnd (s : State) (t : Nat) (e : CmdEnd) : Bool :=
  let c := (s.tile t).core
  s.ready && t < numTiles && !s.regionStopped (regionOf t) &&
  match e.how with
  | .done => s.mayRun t && c.pass.isNone && c.expect.isNone && !s.nbAtWork t && !c.stallsWhole && !s.stackWaiting t &&
      (c.staging.isEmpty || s.servesMaq t)
  | .halted => s.mayRun t || (c.cur.isSome && !c.frozen && c.unreported)
  | .going => s.mayRun t

/-! ### Meanings -/

/-- COMMAND_BEGIN: of a tile stream, or the run of a maquette host or referee. -/
def execCommandBegin (t : Nat) (c : Cmd) (cyc : Nat) (s : State) : Host.Outcome State Fault Refusal :=
  doWhen (s.mayBegin t || s.mayHost t c)
    (fun s => if s.mayBegin t then s.commandBegin t c cyc else (s.toCycle cyc).hostBegin t c) s

/-- COMMAND_END. -/
def execCommandEnd (t : Nat) (e : CmdEnd) (s : State) : Host.Outcome State Fault Refusal :=
  doWhen (s.mayEnd t e) (fun s => s.commandEnd t e) s

end Sys2Proof.Machine
end

