-- ==== Sys2Proof/Machine/NodeOps.lean ====
section
/-! DEFINITION. Node operations as the armature nodes carry them out, packets as their endpoints take
them, and what an acknowledgement completes at the hub (chapters 3, 6, 7, 8, 11, 13). -/

namespace Sys2Proof.Machine

/-- An entry of kind STATE in the node's hang ring (R408). -/
def State.stateEntry (s : State) (t : Nat) : State :=
  s.hangFree (ringTile t uNODE) s.time.time .state (((s.tile t).core.cur.map (·.cseq.toNat)).getD 0xFF_FFFF) 0

/-! ### What each operation does at its node -/

/-- FREEZE: stream, passes, NI and DMA engine stop at once (R416, Table 13.6). -/
def State.nodeFreeze (s : State) (t : Nat) : State := (s.stopPass t).modCore t fun c => { c with frozen := true }

/-- PAUSE with FUNC STOP: the stream stops at its next command boundary, where its control state is captured (R334,
R336, R439). -/
def State.nodePause (s : State) (t : Nat) : State :=
  if (s.castPhase == 2 && !s.servesMaq t) || s.life.repose == 1 then
    s.modCore t fun c => Core.cutHere { c with castStop := true, cut := none }
  else s

/-- The fields of a CHISEL_START lie in their ranges: a unit mask of R214, a partner, or 0x7FF for a witness, and
segments as its function names them (R246, Table 7.17). -/
def chiselStartOk (o : BitVec 96) : Bool :=
  let func := ofld o 95 94
  let segs := members (BitVec.ofNat 16 (ofld o 61 48))
  ofld o 77 62 &&& 0xF041 == 0 &&
  (if func == 2 then ofld o 88 78 == 0x7FF && segs.length == 1 else decide (ofld o 88 78 < numTiles)) &&
  (if func < 2 then segs.isEmpty else true)

/-- The fields of a CHISEL_ABORT lie in their ranges: a reason of Table 7.10 for ABORT, and 0 otherwise. -/
def chiselAbortOk (o : BitVec 96) : Bool :=
  let func := ofld o 95 94
  func != 3 && (if func == 2 then ofld o 88 84 ≤ 3 else ofld o 88 84 == 0)

/-- CHISEL_START with an ARM function: IN_CHISEL for a tile that holds a slot already; else the node keeps what it
is armed for, and a tile without a stream to stop reports READY at once (R223, R246). Its reports are the REPLY
packets to this operation, with RSTATUS DONE (R247). -/
def State.nodeChiselArm (s : State) (t : Nat) (o : BitVec 96) : State :=
  let c := (s.tile t).chisel
  if c.node.arm != 0 then s.reply t rIN_CHISEL
  else
    let s := (s.modChisel t fun c => { c with node :=
      { arm := ofld o 95 94 + 1, slot := ofld o 93 89, partner := ofld o 88 78, units := BitVec.ofNat 16 (ofld o 77 62)
        session := BitVec.ofNat 32 (ofld o 47 16) } }).stateEntry t
    if c.state == 4 then s.chiselSay t rkREADY 0xF [] else s

/-- CHISEL_START with CONTINUE: the node runs the named segments again, and reports them as before (R236). -/
def State.nodeChiselContinue (s : State) (t : Nat) (o : BitVec 96) : State :=
  (s.segStart t (BitVec.ofNat 16 (ofld o 61 48))).stateEntry t

/-- CHISEL_START at a node (R246). -/
def State.nodeChiselStart (s : State) (t : Nat) (o : BitVec 96) : State :=
  if !chiselStartOk o then s.replyRejected t
  else if ofld o 95 94 == 3 then s.nodeChiselContinue t o
  else s.nodeChiselArm t o

/-- CHISEL_ABORT with DISARM: the stream resumes (R246). -/
def State.nodeDisarm (s : State) (t : Nat) : State :=
  (((s.modChisel t fun c => { c with node := {} }).modCore t fun c =>
    { c with chiselStop := c.chiselStop && (s.tile t).chisel.state == 10 }).stateEntry t).reply t rDONE

/-- CHISEL_ABORT with FINISH or ABORT: the running segment ends where it stands, and the node reinitializes its tile
with the rows and the end that a FINISH names (R236, R246). -/
def State.nodeReinit (s : State) (t : Nat) (o : BitVec 96) : State :=
  let s := match (members (s.tile t).chisel.node.segs).head? with | some g => s.marchLeft t g | none => s
  let fin := ofld o 95 94 == 1
  ((s.modChisel t fun c => { c with
    node.segs := 0, node.finish := ofld o 95 94, node.reason := ofld o 88 84, node.retire := fin && ofld o 83 83 == 1
    node.rowBad := if fin then BitVec.ofNat 66 (ofld o 82 17) else 0 }).stateEntry t).reply t rDONE

/-- CHISEL_ABORT at a node (R246). -/
def State.nodeChiselAbort (s : State) (t : Nat) (o : BitVec 96) : State :=
  if !chiselAbortOk o then s.replyRejected t
  else if ofld o 95 94 == 0 then s.nodeDisarm t
  else s.nodeReinit t o

/-- SEED_LOAD: its arrival starts the session with the seed and the final list; the image and the states of a tile
that carries a logical tile go to its save area first (R222 to R224). -/
def State.nodeSeedLoad (s : State) (t : Nat) (o : BitVec 96) : State :=
  let s := if (s.tile t).chisel.carried then
      { (s.saveImage t).modChisel t fun c => { c with saved := true } with
        stack.save := tset {} s.stack.save t (s.tile t) }
    else s
  (((s.modChisel t fun c => { c with node.seed := BitVec.ofNat 64 (ofld o 63 0) }).segStart t
    (BitVec.ofNat 16 (ofld o 90 77))).stateEntry t).reply t rDONE

/-- FUNC and the fields of a MAQ_SET lie in their ranges (R211). -/
def maqSetOk (func : Nat) (o : BitVec 96) : Bool :=
  func ≤ 6 && ofld o 86 76 < numTiles && ofld o 65 55 < numTiles &&
  (func != 6 || ofld o 3 0 == 0 || (6 ≤ ofld o 3 0 && ofld o 3 0 ≤ 12) || ofld o 3 0 == 15)

/-- The reply to a MAQ_SET that is well formed (R211). -/
def State.maqReply (s : State) (t func : Nat) (mapgen : BitVec 16) : Nat :=
  let c := s.tile t
  if (func == 0 || func == 2) && genNewer c.core.nodeGen.toNat mapgen.toNat then rREJECTED
  else if 2 ≤ func && func ≤ 4 then
    if c.core.router then rFENCED else if c.chisel.inSession then rIN_CHISEL else rDONE
  else rDONE

/-- MAQ_SET at a node, with its reply. -/
def State.nodeMaqSet (s : State) (t func : Nat) (mapgen : BitVec 16) (o : BitVec 96) : State :=
  if maqSetOk func o then
    let r := s.maqReply t func mapgen
    (s.nodeMaq t func mapgen o).reply t r
  else s.replyRejected t

/-- WATCH_SET: ARM at a fenced tile is answered FENCED, which ends the slot; a reserved FUNC or MODE is REJECTED (R87,
R410, R412, R423). -/
def State.nodeWatch (s : State) (t func : Nat) (o : BitVec 96) : State :=
  let k := ofld o 93 91
  match func with
  | 0 =>
    if 1 < ofld o 90 89 then s.replyRejected t
    else if (s.tile t).core.router then (if s.watchArmed k then s.watchCancel k else s).reply t rFENCED
    else (s.modCore t fun c =>
      { c with watch := tset (0, 0, 0) (terase c.watch k) k
                 (BitVec.ofNat 2 (ofld o 90 89), BitVec.ofNat 16 (ofld o 88 73), BitVec.ofNat 16 (ofld o 72 57)) }).reply t rDONE
  | 1 => (s.modCore t fun c => { c with watch := terase c.watch k, watchHit := c.watchHit.filter (· != k) }).reply t rDONE
  | _ => s.replyRejected t

/-- The order that waits for the hub's packet with an operation to a node. -/
def State.orderOf (s : State) (op t : Nat) : Option Nat :=
  ((s.arm.sent.find? fun o => o.op.toNat == op && o.dests.getLsbD t)).bind (·.order)

/-- A node answers FENCED to STEP or RUN: the order completes STATE_ILLEGAL, but a RUN with ALL set skips the
tile (R414, R423). -/
def State.fencedOrder (s : State) (op t : Nat) : State :=
  match (s.orderOf op t).bind s.order with
  | some o => (if op == 0x15 && bit o.word 47 then s else s.finish o.id .stateIllegal).reply t rFENCED
  | none => s.reply t rFENCED

/-- STEP at a node (R413). -/
def State.nodeStep (s : State) (t : Nat) (o : BitVec 96) : State :=
  if (s.tile t).core.router then s.fencedOrder 0x14 t
  else
    let n := ofld o 95 88
    let halted := (s.tile t).core.halted
    let id := s.orderOf 0x14 t
    let s := if halted then s.dropPass t else s
    let s := s.modCore t fun c => { c.step n with stepOrders := c.stepOrders ++ id.toList }
    ((if halted then s.restartCommand t else s).stepDone t).reply t rDONE

/-- RUN at a node: a halted or interrupted command restarts, and STEPPING ends; a STEP that had not yet ended
is over (R414). -/
def State.nodeRun (s : State) (t : Nat) : State :=
  if (s.tile t).core.router then s.fencedOrder 0x15 t
  else
    let c := (s.tile t).core
    let s := c.stepOrders.foldl (fun s id => s.finish id .ok) s
    let s := if c.halted || c.interrupted then s.dropPass t else s
    let s := s.modCore t Core.run
    (if c.halted || c.interrupted then s.restartCommand t else s).reply t rDONE

/-- COUNTER_READ: the standing reply to every capture is asked for, or ended (R397, R423). -/
def State.nodeCounterRead (s : State) (t func : Nat) : State :=
  if 1 < func then s.replyRejected t
  else (s.modCore t fun c => { c with standing := func == 0 }).reply t rDONE

/-- An operation at node `t` (Table 3.5). A code or FUNC that no table gives is REJECTED, and the hub raises
ARM_ROUTE where a map operation is concerned (R265). -/
def State.nodeDo (s : State) (t op : Nat) (mapgen : BitVec 16) (o : BitVec 96) (data : List Flit) : State :=
  match op with
  | 0x01 => s.nodeFence t 0x01 o
  | 0x02 => s.nodeFence t 0x02 o
  | 0x03 => s.nodeFreeze t
  | 0x04 => if ofld o 95 94 == 0 then s.nodePause t else s.pauseCopy t
  | 0x05 => s.nodeResume t
  | 0x10 => s.nodeChiselStart t o
  | 0x11 => s.nodeChiselAbort t o
  | 0x12 => s.nodeMaqSet t (ofld o 95 92) mapgen o
  | 0x13 => s.nodeWatch t (ofld o 95 94) o
  | 0x14 => s.nodeStep t o
  | 0x15 => s.nodeRun t
  | 0x16 => s.nodeCommit t o
  | 0x17 => s.nodeDigest t (ofld o 95 92)
  | 0x20 => s.nodeQuery t o
  | 0x21 => s.nodeHangRead t (ofld o 95 91)
  | 0x22 => s.nodeCounterRead t (ofld o 95 94)
  | 0x23 => s.nodeStateRead t
  | 0x30 => s.nodeLoad t o data
  | 0x31 => s.nodeSeedLoad t o
  | _ => s.replyRejected t

/-! ### Parking (R100, R264) -/

/-- The operation needs the tile's functional units: chisel, arm functions of MAQ_SET, STEP and RUN. -/
def needsUnits (op : Nat) (o : BitVec 96) : Bool :=
  op == 0x10 || op == 0x11 || op == 0x14 || op == 0x15 || op == 0x31 ||
  (op == 0x12 && 2 ≤ ofld o 95 92 && ofld o 95 92 ≤ 4)

/-- An order on VC1 to VC3 is parked while its MAPGEN is newer than the node's generation, or while it needs a
stopped region (R100, R264). A STEP or RUN also waits for the end of a cast pause, in which no command changes the state
(R336; assumption 58). -/
def State.mustPark (s : State) (t op : Nat) (mapgen : BitVec 16) (o : BitVec 96) : Bool :=
  0x10 ≤ op && (genNewer mapgen.toNat (s.tile t).core.nodeGen.toNat ||
    (needsUnits op o && s.regionStopped (regionOf t)) || ((op == 0x14 || op == 0x15) && (s.tile t).core.castStop))

/-- Orders parked at a node. -/
def State.parkedAt (s : State) (t : Nat) : Nat := (s.arm.parked.filter fun e => e.1 == t).length

/-- The VC of an operation (Table 3.5). -/
def opVc (op : Nat) : Nat := if op < 0x10 then 0 else op / 16

/-- The inboxes of node `t` whose packet has moved into the park area, which holds 16, or was carried out: those leave
them (R100). -/
def State.freeInboxes (s : State) (t : Nat) : State :=
  let late := (s.arm.parked.filter fun e => e.1 == t).drop 16
  (List.range 4).foldl (fun s vc =>
    if late.any fun e => opVc e.2.1.toNat == vc then s else s.leaveInbox (.order t vc)) s

/-- The parked orders of node `t` whose wait is over are carried out, oldest first; packets that found the park area
full follow into it. -/
def State.unpark (s : State) (t : Nat) : State :=
  (s.arm.parked.foldl (fun s e =>
    if e.1 == t && !s.mustPark t e.2.1.toNat e.2.2.1.mapgen e.2.2.1.operand then
      { s with arm.parked := s.arm.parked.erase e }.nodeDo t e.2.1.toNat e.2.2.1.mapgen e.2.2.1.operand e.2.2.2
    else s) s).freeInboxes t

/-- The node of tile `t` begins to wait for a stopped clock, or its wait ends (R408). -/
def State.nodeRing (s : State) (t : Nat) (k : HangKind) (cause : Nat) : State :=
  s.hangFree (ringTile t uNODE) s.time.time k 0xFF_FFFF cause

/-- At the first edge of a region after a stop, the waits of its nodes for it are over. -/
def State.nodeEdge (s : State) (t : Nat) : State :=
  (s.arm.parked.filter fun e => e.1 == t && needsUnits e.2.1.toNat e.2.2.1.operand).foldl (fun s _ => s.nodeRing t .resume 0) s

/-- A node takes an operation: it is carried out, or parked; then parked orders whose wait has ended follow. -/
def State.nodeTake (s : State) (op : Nat) (n : NodeOp) (data : List Flit) : State :=
  if s.mustPark n.node op n.mapgen n.operand then
    let s := { s with arm.parked := s.arm.parked ++ [(n.node, BitVec.ofNat 8 op, n, data)] }
    if needsUnits op n.operand && s.regionStopped (regionOf n.node) then s.nodeRing n.node .wait 5 else s
  else
    let s := s.nodeDo n.node op n.mapgen n.operand data
    if s.parkedAt n.node == 0 then s else s.unpark n.node

/-! ### Acknowledgements at the hub -/

/-- Every acknowledgement of a packet is in: what waited for it completes (R276, R278, R279, R191, R202, R379). -/
def State.ackDone (s : State) (o : Outgoing) : State :=
  let s := if isMapChange o.op.toNat then { s with arm.lastChange := s.time.time } else s
  match o.op.toNat with
  | 0x01 => (s.fenceDone o).finishOpt o.order .ok
  | 0x02 =>
    let q := fenceReq o.operand
    let clear := match o.order.bind s.order with | some r => bit r.word 47 | none => false
    let s := (s.unfenceDone o clear).finishOpt o.order .ok
    match q.rect with
    | some r => if q.kind == kRELEASE then s.releaseDone r else s
    | none => s
  | 0x12 =>
    if ofld o.operand 95 92 == 6 then (if s.lastOfOrder o.order then s.finishOpt o.order .ok else s)
    else s.maqAcked o.operand
  | 0x17 => if s.lastOfOrder o.order then s.finishOpt o.order .ok else s
  | _ => s

/-- ACK on a stream of the hub (R101); toward a peer, and at a node, it ends the packet. -/
def State.ackTake (s : State) (k : StreamId) (xid : BitVec 16) : State :=
  match k with
  | .order node vc =>
    match s.takeAck node vc xid with
    | (s, some o) => (s.ackDone o).inject
    | (s, none) => s.inject
  | .sentinel chip net => s.peerAck chip net xid
  | .report t vc => s.streamAck t vc xid false

/-- ACK_HELD on a stream of the hub (R101). -/
def State.ackHeldTake (s : State) (k : StreamId) (xid : BitVec 16) : State :=
  match k with
  | .order node vc => s.takeAckHeld node vc xid
  | .sentinel _ _ =>
    { s with arm.peers := s.arm.peers.map fun (p : PeerOut) =>
        if p.stream = k && p.xid == xid then { p with held := true, resends := 0, start := s.time.time } else p }
  | .report t vc => s.streamAck t vc xid true

/-! ### Packets as they arrive (R86, R99, R100) -/

/-- The event record in the two body flits of an EVENT packet (Table 15.9). -/
def eventOf (body : List Flit) : EvRec :=
  let w (i : Nat) : Word := word (leNat (((body.flatMap flitBytes).drop (8 * i)).take 8))
  { time := w 0
    code := BitVec.ofNat 16 (fld (w 1) 31 16), source := BitVec.ofNat 11 (fld (w 1) 15 5), unit := BitVec.ofNat 5 (fld (w 1) 4 0)
    sev := match fld (w 1) 63 60 with | 0 => .info | 1 => .note | 2 => .fault | _ => .fatal
    layer := BitVec.ofNat 16 (fld (w 2) 15 0), oper := BitVec.ofNat 16 (fld (w 2) 31 16)
    cseq := BitVec.ofNat 32 (fld (w 2) 63 32), detail := w 3 }

/-- An EVENT packet is consumed: the hub has its record, which the node keeps until the ACK comes (R98, R101). -/
def State.takeEvent (s : State) (r : EvRec) : State := { s with ev.queue := s.ev.queue ++ [r] }

/-- The late reply of a node's capture, eight flits long, still updates the tile page (R397). -/
def State.lateReply (s : State) (t : Nat) : State :=
  if s.dbg.lateNodes.contains t && (s.tile t).core.standing then
    { s with dbg.lateNodes := s.dbg.lateNodes.filter (· != t) }.counterReply s.dbg.sampled t
  else s

/-- A REPLY reaches the hub. -/
def State.takeReply (s : State) (t : Nat) (body : List Flit) : State :=
  if body.length == 7 then s.lateReply t else s

/-- A SUMMARY packet reaches the hub: what it carries is what the aggregation takes for its beat (R69, R251). -/
def State.takeSummaryPacket (s : State) (t : Nat) (body : List Flit) : State :=
  s.modCore t fun c => { c with sums := c.sums.map fun x =>
    if x.beat % 2 ^ 51 == flitFld (body.getD 0 0) 127 77 then { summaryOf body x.st with beat := x.beat } else x }

/-- The stream on which an on-die packet arrives. -/
def armStream (net : ArmNet) (at_ : Nat) (h : ArmHead) : StreamId :=
  match net with
  | .order => .order at_ h.vc
  | _ => .report h.src h.vc

/-- An accepted packet is consumed at its endpoint, or its order waits in the node's park area; a packet for
which that area has no room stays in the inbox (R100). -/
def State.consume_ (s : State) (p : ArmPacket) (h : ArmHead) (k : StreamId) : State :=
  let body := p.flits.drop 1
  let b := body.headD 0
  match p.net with
  | .order =>
    let op := flitFld b 127 120
    let n : NodeOp := { node := p.at_, mapgen := BitVec.ofNat 16 (flitFld b 119 104), operand := BitVec.ofNat 96 (flitFld b 95 0) }
    (({ s with arm.inbox := s.arm.inbox ++ [(k, h.xid)] } : State).nodeTake op n (body.drop 1)).freeInboxes p.at_
  | _ =>
    let s := if p.at_ != hubEndpoint then s
      else match h.kind with
        | 0xA => s.takeSummaryPacket h.src body
        | 0xB => s.takeEvent (eventOf body)
        | 0xC => s.takeReply h.src body
        | _ => s
    s.sendAck k h.xid false

/-- OP of a packet for ARM_LATE; a packet of the report network carries none and shows 0 (assumption 47). -/
def packetOp (p : ArmPacket) : Nat := match p.net with | .order => flitFld (p.flits.getD 1 0) 127 120 | _ => 0

/-- The virtual channel of the hub's packet that a node's acknowledgement names by its XID: acknowledgements
themselves travel on VC0 (Table 3.7, R100). -/
def State.ackVc (s : State) (node : Nat) (xid : BitVec 16) : Nat :=
  ((s.arm.sent.find? fun o => o.left.getLsbD node && o.xid == xid).map (·.vc)).getD 0

/-- The stream of node `t` that an acknowledgement of the hub names by its XID: one whose packet the hub has accepted
goes before the others (assumption 47). -/
def State.reportVc (s : State) (t : Nat) (xid : BitVec 16) : Nat :=
  let vcs := [1, 2, 3].filter fun vc => (s.streamOf t vc).map (·.xid) == some xid
  ((vcs.find? fun vc => s.lastXid (.report t vc) == some xid).or vcs.head?).getD 0

/-- The stream that an on-die acknowledgement answers: at a node one of its own streams, at the hub one of its streams
to the node that sent it (R82). -/
def State.ackStream (s : State) (at_ src : Nat) (xid : BitVec 16) : StreamId :=
  if at_ < numTiles then .report at_ (s.reportVc at_ xid) else .order src (s.ackVc src xid)

/-- An on-die packet reaches its endpoint; `broken` says that a flit of it was uncorrectable at a hop, so that its CRC
fails (R83). Its CRC is checked before its kind, and a length that does not fit its kind counts as a wrong kind
(assumption 47). -/
def State.packetOnDie (s : State) (p : ArmPacket) (broken : Bool) : State :=
  let h := armHead (p.flits.headD 0)
  let k := armStream p.net p.at_ h
  if broken || !crcPasses p.flits then
    (if p.at_ == hubEndpoint then s.packetGone h.src h.vc h.xid else s).crcDiscard p.at_ h.src h.xid
  else if !kindOk p.net h.kind p.flits.length || h.len != p.flits.length then s.routeDiscard p.at_ 0x3F h.kind h.src
  else if h.kind == 8 then s.ackTake (s.ackStream p.at_ h.src h.xid) h.xid
  else if h.kind == 9 then s.ackHeldTake (s.ackStream p.at_ h.src h.xid) h.xid
  else if s.lastXid k == some h.xid then s.sendAck k h.xid (s.inInbox k)
  else
    let s := match p.net with
      | .order => s.acceptCopy p.at_ h.vc (packetOp p) h.xid
      | _ =>
        let s := s.setLastXid k h.xid
        match s.lateReport h.src h.vc h.xid with
        | some d => s.armLate d (packetOp p) h.vc 1 p.at_
        | none => s
    s.consume_ p h k

/-- NET of the hub's packet to a chip that an acknowledgement names by its XID. -/
def State.ackNet (s : State) (chip : BitVec 13) (xid : BitVec 16) : Bool :=
  s.arm.peers.any fun p => decide (p.stream = .sentinel chip true) && p.xid == xid

/-- What the hub answers to an inquiry of a chip that wants to bind: its PFID, whether it already receives a mirror,
and whether it has a mirror area (R345); the layout is assumption 47. -/
def State.bindReply (s : State) : Flit :=
  BitVec.ofNat 128 (packNat [(124, 4, s.nv.pfid.toNat), (123, 1, b2n s.cast.mirrorIn.isSome),
    (122, 1, b2n (s.cast.storeOk && 0 < s.nv.pct.getD 0))])

/-- A HUBMSG is consumed: an inquiry, of one body flit, is answered along the hub's own table (R112, R345), and so is
a restore's request for the mirror area, of two, whose data follows over the mirror channels (R350); mirror data is
taken by MIRROR_SEGMENT_RECEIVE. -/
def State.takeHubMsg (s : State) (chip : BitVec 13) (kind len : Nat) : State :=
  if kind == 5 && len == 2 then s.peerSend chip true 0xD [s.bindReply]
  else if kind == 5 && len == 3 then
    (s.peerSend chip true 0xD [s.bindReply]).mirrorQueue chip mirrorReadBack (s.nv.mirror.flatMap (·.2))
  else s

/-- The HUBMSG carries mirror data (R346); the last of its message is acknowledged by MIRROR_SEGMENT_RECEIVE, after the
Flush. -/
def mirrorPacket (kind : Nat) (flits : List Flit) : Bool := kind == 5 && flits.length == 8
def mirrorLast (flits : List Flit) : Bool := (flits.getD 1 0).getLsbD 127

/-- A sentinel packet is consumed at its destination hub: TIMEX and ELECT are neither acknowledged nor
duplicated; a frozen hub, and one without a valid CHIP_NUM, takes no HUBMSG, and one in Repose no mirror data (R58, R99,
R112, R114, R440, Table 13.6). -/
def State.packetPeer (s : State) (link : Nat) (flits : List Flit) : State :=
  let f := flits.headD 0
  let kind := flitFld f 127 124
  let net := flitFld f 120 120 == 1
  let chip : BitVec 13 := BitVec.ofNat 13 (flitFld f 118 106)
  let xid : BitVec 16 := BitVec.ofNat 16 (flitFld f 92 77)
  let k : StreamId := .sentinel chip net
  if !crcPasses flits then s.crcDiscard hubEndpoint (chip.toNat % 2 ^ 11) xid
  else if kind == 4 then s.takeAdv (electOf link (flits.getD 1 0))
  else if kind == 3 then (if net then s else s.timexReply link)
  else if s.life.frozen || s.chipNum.isNone then s
  else if kind == 8 then s.ackTake (.sentinel chip (s.ackNet chip xid)) xid
  else if kind == 9 then s.ackHeldTake (.sentinel chip (s.ackNet chip xid)) xid
  else if s.lastXid k == some xid then s.sendAck k xid (s.inInbox k)
  else if mirrorPacket kind flits && s.inRepose then s
  else if mirrorPacket kind flits && mirrorLast flits then
    ({ s with arm.inbox := s.arm.inbox ++ [(k, xid)] } : State).setLastXid k xid
  else
    ((s.setLastXid k xid).sendAck k xid false).takeHubMsg chip kind flits.length

/-- SENTINEL_FORWARD: the packet goes on, or is consumed here (R110). -/
def State.sentinelTake (s : State) (link : Nat) (flits : List Flit) : State :=
  match s.sentinelArrive link flits with
  | (s, some fs) => s.packetPeer link fs
  | (s, none) => s

/-- PACKET_ARRIVE: routers correct flits (R83) and may discard the packet for its path (R89); a packet whose path or
masks do not lead to the endpoint that the command names has no effect there. One of the sentinel class arrives on its
link (R110). -/
def State.packetArrive (s : State) (p : ArmPacket) : State :=
  let w := throughHops p.hops p.flits
  let s := if w.1 == 0 then s else s.bump Reg.armHopCorrected w.1
  let lost := packetLostAt p
  let arrives := packetArrives p
  let p := { p with flits := w.2.2 }
  match p.net with
  | .order | .report =>
    let h := armHead (p.flits.headD 0)
    match lost with
    | some t => (if h.src < numTiles then s.packetGone h.src h.vc h.xid else s).routeDiscard t 0x3F h.kind h.src
    | none => if arrives && (p.net = .report || p.at_ < numTiles) then s.packetOnDie p w.2.1 else s
  | .sentOrder | .sentReport =>
    let net : Bool := flitFld (p.flits.headD 0) 120 120 == 1
    if s.trained p.link && net == (p.net = .sentReport) then s.sentinelTake p.link p.flits else s

/-! ### Meanings: packets and acknowledgements -/

/-- PACKET_ARRIVE. -/
def execPacketArrive (p : ArmPacket) (s : State) : Host.Outcome State Fault Refusal :=
  doWhen s.life.powered (fun s => s.packetArrive p) s

/-- ACK_HELD_TIMER: an accepted packet has stood in its inbox for 8 plinth cycles (R100). -/
def execAckHeldTimer (k : StreamId) (s : State) : Host.Outcome State Fault Refusal :=
  doWhen (s.life.powered && s.inInbox k) (fun s => s.sendAck k ((s.lastXid k).getD 0) true) s

/-- ACK. -/
def execAck (k : StreamId) (xid : BitVec 16) (s : State) : Host.Outcome State Fault Refusal :=
  doWhen s.life.powered (fun s => s.ackTake k xid) s

/-- ACK_HELD. -/
def execAckHeld (k : StreamId) (xid : BitVec 16) (s : State) : Host.Outcome State Fault Refusal :=
  doWhen s.life.powered (fun s => s.ackHeldTake k xid) s

/-- RESEND_TIMEOUT. -/
def execResendTimeout (k : StreamId) (s : State) : Host.Outcome State Fault Refusal :=
  doWhen s.life.powered (fun s => match k with
    | .order node vc => s.resendNode node vc
    | .sentinel _ _ => s.resendPeer k
    | .report t vc => s.resendStream t vc) s

/-- SENTINEL_FORWARD. -/
def execSentinelForward (link : Nat) (flits : List Flit) (s : State) : Host.Outcome State Fault Refusal :=
  doWhen (s.life.powered && s.trained link) (fun s => s.sentinelTake link flits) s

/-- ROUTE_PRIMARY_BACK. -/
def execRoutePrimaryBack (k : Nat) (s : State) : Host.Outcome State Fault Refusal :=
  doWhen s.life.powered (fun s => s.routeBack k) s

/-- NI_MAP_APPLY. -/
def execNiMapApply (t : Nat) (s : State) : Host.Outcome State Fault Refusal :=
  doWhen (s.life.powered && t < numTiles) (fun s => (s.niMapApply t).serveHolds) s

/-- TRANSFER_COMPLETION. -/
def execTransferCompletion (t id : Nat) (s : State) : Host.Outcome State Fault Refusal :=
  doWhen (s.live && (s.tile t).core.xfers.any fun x => x.id == id) (fun s => (s.xferDone t id).drainReply t) s

/-- FENCED_ACK: of an acknowledgement that is on its way. -/
def execFencedAck (t id logical : Nat) (gen : BitVec 16) (s : State) : Host.Outcome State Fault Refusal :=
  doWhen (s.live && t < numTiles && (s.tile t).core.ackIsDue id logical gen)
    (fun s => (s.fencedAck t id logical gen).drainReply t) s

/-! ### Meanings: node operations. The row names the operation and its FUNC; the operand's FUNC field is
taken from the row. -/

/-- The operand with its FUNC field, [95:96-`w`], as the row says. -/
def withFunc (n : NodeOp) (w func : Nat) : NodeOp :=
  { n with operand := BitVec.ofNat 96 (n.operand.toNat % 2 ^ (96 - w) + func * 2 ^ (96 - w)) }

/-- The hub's packet, outstanding to the node, that carries this operation and was not accepted there yet. -/
def State.carrier (s : State) (op : Nat) (n : NodeOp) : Option Outgoing :=
  s.arm.sent.find? fun o => o.op.toNat == op && o.operand == n.operand && o.left.getLsbD n.node &&
    s.lastXid (.order n.node o.vc) != some o.xid

/-- A node operation reaches its node: the packet that carries it, where the hub has one outstanding, is accepted into
its inbox with it, and acknowledged when it leaves that (R97, R99, R100). An order that finds the park area full stays
in its inbox, and one whose inbox is taken cannot have come (R98, R100). -/
def State.nodeAccept (s : State) (op : Nat) (n : NodeOp) (data : List Flit) : State :=
  let o := s.carrier op n
  let xid := (o.map (·.xid)).getD 0
  let k : StreamId := .order n.node (opVc op)
  if 16 ≤ s.parkedAt n.node && s.inInbox k then s
  else
    let s := match o with | some o => s.acceptCopy n.node o.vc op o.xid | none => s
    let s := if o.isSome || 16 ≤ s.parkedAt n.node then { s with arm.inbox := s.arm.inbox ++ [(k, xid)] } else s
    (s.nodeTake op n data).freeInboxes n.node

/-- A node operation reaches its node. Nodes live in the plinth domain and answer in every state (R91). -/
def nodeRow (op : Nat) (n : NodeOp) (data : List Flit) (s : State) : Host.Outcome State Fault Refusal :=
  doWhen (s.life.powered && n.node < numTiles) (fun s => s.nodeAccept op n data) s

/-- FENCE_APPLY. -/
def execFenceApply (o : NodeOp) (s : State) : Host.Outcome State Fault Refusal := nodeRow 0x01 o [] s
/-- UNFENCE_APPLY. -/
def execUnfenceApply (o : NodeOp) (s : State) : Host.Outcome State Fault Refusal := nodeRow 0x02 o [] s
/-- MAP_COMMIT. -/
def execMapCommit (o : NodeOp) (s : State) : Host.Outcome State Fault Refusal := nodeRow 0x16 o [] s
/-- MAP_LOAD. -/
def execMapLoad (o : NodeOp) (data : List Flit) (s : State) : Host.Outcome State Fault Refusal := nodeRow 0x30 o data s
/-- NODE_FREEZE. -/
def execNodeFreeze (o : NodeOp) (s : State) : Host.Outcome State Fault Refusal := nodeRow 0x03 o [] s
/-- PAUSE_STOP. -/
def execPauseStop (o : NodeOp) (s : State) : Host.Outcome State Fault Refusal := nodeRow 0x04 (withFunc o 2 0) [] s
/-- PAUSE_COPY. -/
def execPauseCopy (o : NodeOp) (s : State) : Host.Outcome State Fault Refusal := nodeRow 0x04 (withFunc o 2 1) [] s
/-- RESUME. -/
def execResume (o : NodeOp) (s : State) : Host.Outcome State Fault Refusal := nodeRow 0x05 o [] s
/-- CHISEL_START_ARM_IDLE. -/
def execChiselStartArmIdle (o : NodeOp) (s : State) : Host.Outcome State Fault Refusal := nodeRow 0x10 (withFunc o 2 0) [] s
/-- CHISEL_START_ARM_FORCED. -/
def execChiselStartArmForced (o : NodeOp) (s : State) : Host.Outcome State Fault Refusal := nodeRow 0x10 (withFunc o 2 1) [] s
/-- CHISEL_START_ARM_WITNESS. -/
def execChiselStartArmWitness (o : NodeOp) (s : State) : Host.Outcome State Fault Refusal := nodeRow 0x10 (withFunc o 2 2) [] s
/-- CHISEL_START_CONTINUE. -/
def execChiselStartContinue (o : NodeOp) (s : State) : Host.Outcome State Fault Refusal := nodeRow 0x10 (withFunc o 2 3) [] s
/-- CHISEL_ABORT_DISARM. -/
def execChiselAbortDisarm (o : NodeOp) (s : State) : Host.Outcome State Fault Refusal := nodeRow 0x11 (withFunc o 2 0) [] s
/-- CHISEL_ABORT_FINISH. -/
def execChiselAbortFinish (o : NodeOp) (s : State) : Host.Outcome State Fault Refusal := nodeRow 0x11 (withFunc o 2 1) [] s
/-- CHISEL_ABORT_ABORT. -/
def execChiselAbortAbort (o : NodeOp) (s : State) : Host.Outcome State Fault Refusal := nodeRow 0x11 (withFunc o 2 2) [] s
/-- SEED_LOAD. -/
def execSeedLoad (o : NodeOp) (s : State) : Host.Outcome State Fault Refusal := nodeRow 0x31 o [] s
/-- MAQ_SET_PAIR_ADD. -/
def execMaqSetPairAdd (o : NodeOp) (s : State) : Host.Outcome State Fault Refusal := nodeRow 0x12 (withFunc o 4 0) [] s
/-- MAQ_SET_PAIR_DEL. -/
def execMaqSetPairDel (o : NodeOp) (s : State) : Host.Outcome State Fault Refusal := nodeRow 0x12 (withFunc o 4 1) [] s
/-- MAQ_SET_ARM_SOURCE. -/
def execMaqSetArmSource (o : NodeOp) (s : State) : Host.Outcome State Fault Refusal := nodeRow 0x12 (withFunc o 4 2) [] s
/-- MAQ_SET_ARM_HOST. -/
def execMaqSetArmHost (o : NodeOp) (s : State) : Host.Outcome State Fault Refusal := nodeRow 0x12 (withFunc o 4 3) [] s
/-- MAQ_SET_ARM_REFEREE. -/
def execMaqSetArmReferee (o : NodeOp) (s : State) : Host.Outcome State Fault Refusal := nodeRow 0x12 (withFunc o 4 4) [] s
/-- MAQ_SET_END. -/
def execMaqSetEnd (o : NodeOp) (s : State) : Host.Outcome State Fault Refusal := nodeRow 0x12 (withFunc o 4 5) [] s
/-- MAQ_SET_SET_RATE. -/
def execMaqSetSetRate (o : NodeOp) (s : State) : Host.Outcome State Fault Refusal := nodeRow 0x12 (withFunc o 4 6) [] s
/-- WATCH_SET_ARM. -/
def execWatchSetArm (o : NodeOp) (s : State) : Host.Outcome State Fault Refusal := nodeRow 0x13 (withFunc o 2 0) [] s
/-- WATCH_SET_DISARM. -/
def execWatchSetDisarm (o : NodeOp) (s : State) : Host.Outcome State Fault Refusal := nodeRow 0x13 (withFunc o 2 1) [] s
/-- NODE_STEP. -/
def execNodeStep (o : NodeOp) (s : State) : Host.Outcome State Fault Refusal := nodeRow 0x14 o [] s
/-- NODE_RUN. -/
def execNodeRun (o : NodeOp) (s : State) : Host.Outcome State Fault Refusal := nodeRow 0x15 o [] s
/-- LINEAGE_QUERY. -/
def execLineageQuery (o : NodeOp) (s : State) : Host.Outcome State Fault Refusal := nodeRow 0x20 o [] s
/-- HANG_READ. -/
def execHangRead (o : NodeOp) (s : State) : Host.Outcome State Fault Refusal := nodeRow 0x21 o [] s
/-- COUNTER_READ_STANDING. -/
def execCounterReadStanding (o : NodeOp) (s : State) : Host.Outcome State Fault Refusal := nodeRow 0x22 (withFunc o 2 0) [] s
/-- COUNTER_READ_STOP. -/
def execCounterReadStop (o : NodeOp) (s : State) : Host.Outcome State Fault Refusal := nodeRow 0x22 (withFunc o 2 1) [] s
/-- STATE_READ. -/
def execStateRead (o : NodeOp) (s : State) : Host.Outcome State Fault Refusal := nodeRow 0x23 o [] s

end Sys2Proof.Machine
end

