-- ==== Sys2Proof/Machine/Bringup.lean ====
section
/-! DEFINITION. Bring-up, whole-chip reset, links, and Repose (chapter 14). -/

namespace Sys2Proof.Machine

/-! ### Report words (Tables 14.2 and 14.3) -/

/-- The limits of S0 to S4 in beats (Table 14.1). -/
def stageLimitBeats : Nat → Nat
  | 0 => 250 | 1 => 62500 | 2 => 150000 | 3 => 250 | _ => 87000

/-- The report word of the current stage (R432, Table 14.2). -/
def State.reportWord (s : State) (result fields : Nat) : Word :=
  pack [(60, 4, s.life.stage), (58, 2, result), (32, 24, s.life.stageBeats), (0, 32, fields)]

/-- BRINGUP_FAIL with its reason and the stage fields so far: the stage's word shows FAILED, and bring-up stops
(R428, R432, Table 14.9; log entry 19). -/
def State.bringupFail (s : State) (reason fields : Nat) : State :=
  let s := s.setReg (Reg.bringupReport + 8 * s.life.stage) (s.reportWord 2 fields)
  { s.raiseHub 0x00D1 .fatal (pack [(60, 4, s.life.stage), (56, 4, reason), (0, 32, fields)]) with life.worst := 2 }.mgmtAsk 3

/-- The report word of the current stage goes to REPORT and to Palalmux, and the next stage follows (R432). -/
def State.stageEnd (s : State) (result fields : Nat) : State :=
  let s := s.setReg (Reg.bringupReport + 8 * s.life.stage) (s.reportWord result fields)
  { s with life.stage := s.life.stage + 1, life.stageBeats := 0, life.worst := max s.life.worst result
           life.degraded := s.life.degraded || result == 1 }.mgmtAsk 3

/-- Bring-up runs in this stage: powered, not failed, not frozen. -/
def State.inStage (s : State) (n : Nat) : Bool := s.live && s.life.stage == n && s.life.worst != 2

/-- The current stage has reached its limit. -/
def State.stageOver (s : State) : Bool := stageLimitBeats s.life.stage ≤ s.life.stageBeats

/-! ### S0 -/

/-- What the plinth loses at a reset or without power, and what it keeps: the fuses and the cast store
(Table 14.5); host memory is not Chimin's. -/
def State.freshPlinth (s : State) (powered : Bool) : State :=
  { State.reset with life.powered := powered, nv := s.nv, hostMem := s.hostMem, free := s.free, pending := s.pending }

/-- The hub sends the STATE_READ multicast of S0: all nodes but the silent ones acknowledge and answer it (Table
3.12). -/
def State.askNodes (s : State) (silent : List Nat) : State :=
  let s := s.hubSend { op := 0x23, vc := 2, operand := 0, dests := allNodes }
  let left := nodeSet silent
  { s with
    arm.sent := (s.arm.sent.map fun o => { o with left }).filter fun o => o.left != 0
    arm.replyXids := (allTiles.filter fun t => !silent.contains t).map fun t => (t, 1) }

/-- The nodes that stayed silent are unreachable, once each (R102). -/
def State.giveUp (s : State) (silent : List Nat) : State :=
  silent.foldl (fun s t =>
    if s.arm.sent.any fun o => o.gone.getLsbD t then s
    else (s.mapSent fun o => if o.left.getLsbD t then { o with gone := setBit o.gone t true } else o).unreachNode t) s

/-- The work of S0 (Table 14.1): power good is collected, PFID sampled, and the STATE_READ multicast sent. -/
def State.s0Work (s : State) (i : S0In) : State :=
  ({ s with life.collected := true, life.powerGood := i.powerGood, life.silent := i.silent, nv.pfid := i.pfid
            arm.ondieOk := i.silent.isEmpty
            arm.routes := allTiles.map fun t => (t, routeBits (routeWord t (hubPortTile t))) } : State).askNodes i.silent

/-- Every domain from 1 to 25 has power good. -/
def powerOk (v : BitVec 26) : Bool := (List.range 25).all fun d => v.getLsbD (d + 1)

/-- Fields of the S0 word. -/
def State.s0Fields (s : State) : Nat :=
  packNat [(28, 4, s.nv.pfid.toNat), (27, 1, b2n s.arm.ondieOk), (1, 25, s.life.powerGood.toNat / 2)]

/-- S0 ends: once everything has answered, or at its limit (R102). -/
def State.s0End (s : State) : State :=
  if !powerOk s.life.powerGood then s.bringupFail 1 s.s0Fields
  else (s.giveUp s.life.silent).stageEnd 0 s.s0Fields

/-- S0's work is complete at a beat tick. -/
def State.s0Tick (s : State) : State :=
  if s.inStage 0 && s.life.collected && powerOk s.life.powerGood && s.life.silent.isEmpty then s.s0End else s

/-! ### S1 -/

/-- A record copy is considered at S1: its seal verifies and its chip ID matches (R274). -/
def NonVol.recordUsable (v : NonVol) (i : S1In) : Bool := i.recordOk && v.recordNow.sealOk && v.recordChip == Config.chipId
def NonVol.otherUsable (v : NonVol) (i : S1In) : Bool :=
  i.otherOk && v.recordOther.sealOk && v.recordOther.seq != 0 && v.recordOther.chip == Config.chipId

/-- The seal of some record copy verifies, whichever chip wrote it. A store with such a record serves casts and
restores: R41 excludes one whose record fails its seal check, and a store moved from another chip is restored with
FOREIGN (R354). DEDUCED, assumption 58. -/
def NonVol.recordSealed (v : NonVol) (i : S1In) : Bool :=
  !v.blank && ((i.recordOk && v.recordNow.sealOk) || (i.otherOk && v.recordOther.seq != 0 && v.recordOther.sealOk))

/-- The store that stands behind the port was moved here from another chip (R354); its mirror area and its older copies
are not read. -/
def NonVol.takeStore (v : NonVol) (m : StoreContent) : NonVol :=
  let c : RecordCopy := { seq := m.recordSeq, chip := m.recordChip, entries := m.record }
  { v with
    record := m.record, recordSeq := m.recordSeq, recordChip := m.recordChip, recordSeal := storedSeal 0 c.bytes
    blank := false, recordOther := {}, casts := m.casts, castNum := m.castNum, storeChip := m.storeChip
    storeKey := m.storeKey, superSeq := m.superSeq, logStart := m.logStart, pct := m.pct, superOther := {}, mirror := [] }

/-- The record copy that S1 uses: of the usable ones that with the higher SEQ. A copy that is not usable counts as
SEQ 0 (R274). -/
def NonVol.chooseRecord (v : NonVol) (i : S1In) : NonVol :=
  if v.blank then v
  else if v.otherUsable i && (!v.recordUsable i || v.recordSeq < v.recordOther.seq) then
    { v with record := v.recordOther.entries, recordSeq := v.recordOther.seq, recordChip := v.recordOther.chip, recordSeal := v.recordOther.sealw
             recordOther := if i.recordOk then v.recordNow else {} }
  else
    { v with recordSeq := if i.recordOk then v.recordSeq else 0
             recordOther := if i.otherOk then v.recordOther else {} }

/-- The superblock copy that S1 uses, by the rules of the record (R274). With neither usable, the store names no
cast. -/
def NonVol.chooseSuper (v : NonVol) (i : S1In) : NonVol :=
  let own := i.superOk && v.storeChip == Config.chipId
  let o := v.superOther
  if i.superOtherOk && o.seq != 0 && o.chip == Config.chipId && (!own || v.superSeq < o.seq) then
    { v with superSeq := o.seq, storeChip := o.chip, storeKey := o.key, pct := o.pct, logStart := o.logStart
             castNum := o.castNum, casts := o.casts, superOther := if i.superOk then v.superNow else {} }
  else if i.superOk then { v with superOther := if i.superOtherOk then o else {} }
  else { v with superSeq := 0, pct := none, castNum := 0, casts := [], superOther := if i.superOtherOk then o else {} }

/-- CSTORE of the S1 word. -/
def State.cstore (s : State) (i : S1In) : Nat :=
  match i.store with
  | .absent => 1 | .format => 2 | .tooSmall => 3 | .timeout => 5
  | .ok =>
    if i.lbas < 4194304 then 3
    else if s.nv.blank then 6
    else if s.nv.recordUsable i || s.nv.otherUsable i then 0
    else 4

/-- One entry of the repair table acts on the hub's map and the tiles' rows (R273); a map change that leaves the
region is refused (R26). -/
def State.applyRepair (s : State) (w : Word) : State :=
  match entKind w with
  | 1 => s.applyRow w
  | 2 =>
    if entNew w < numTiles && entLogical w < numLogical && regionOf (entNew w) == regionOfLogical (entLogical w) then
      { s with map.hub := s.map.hub.setPhys (entLogical w) (entNew w) }
    else s
  | _ => s

/-- The store's superblock is read, and laid out again, both copies rewritten, where its split differs (R344,
R359). -/
def State.superblock (s : State) (i : S1In) (usable : Bool) : State :=
  let s := { s with cast.storeOk := usable }
  if !usable then s
  else
    let pct := fld (s.reg Reg.castCastCtl) 23 16
    let span := i.lbas - 4
    let log := (span - span * pct / 100) / 512 * 512
    let s := { s with nv.lbas := i.lbas, cast.logSize := log }
    let s := if s.nv.pct = some pct then s
      else
        let c : SuperCopy := { seq := 0, chip := 0, key := s.detKey, pct := some pct, logStart := 0, castNum := 0, casts := [] }
        let a := ({ s with nv.mirror := [], cast.fullNext := true } : State).superWrite c
        let b := a.1.superWrite c
        b.1.nvmeRun (a.2 ++ b.2)
    if s.nv.storeChip = Config.chipId then
      { s with cast.last := s.nv.castNum, cast.lastGiven := BitVec.ofNat 32 (fld s.nv.castNum 31 0)
               cast.lastCut := (s.nv.casts.head?.map (·.qBeat)).getD 0 }
    else s

/-- The work of S1, then its word (Table 14.1). -/
def State.s1End (s : State) (i : S1In) (late : Bool) : State :=
  if !i.fuseOk then s.bringupFail 3 0
  else
    let s := match i.store, i.moved with | .ok, some m => { s with nv := s.nv.takeStore m } | _, _ => s
    let cs := s.cstore i
    let usable := cs == 0 || cs == 6 || (cs == 4 && s.nv.recordSealed i)
    let s := if cs == 0 || cs == 4 || cs == 6 then { s with nv := (s.nv.chooseRecord i).chooseSuper i } else s
    let soft := if cs == 0 then s.nv.record else []
    let table := (s.nv.fused ++ soft).take repairSlots
    let s := { s with map.table := table, cast.storeThere := cs == 0 || cs == 4 || cs == 6
                      map.saveSeq := if cs == 0 then s.nv.recordSeq else 0 }
    let s := if s.cast.storeThere then s.nvmeStart.nvmeRun [{ op := .read, lba := 0, count := 4 }] else s
    let s := table.foldl State.applyRepair s
    let s := (s.setReg Reg.maqSeed i.seed).setReg Reg.chiselXseed i.xseed
    let s := { s with force := tset (regReset Reg.chiselXseed) (tset (regReset Reg.maqSeed) s.force Reg.maqSeed i.seed)
                        Reg.chiselXseed i.xseed }
    let s := s.superblock i usable
    let s := { s with life.grade125 := s.life.features.getLsbD 4 }
    s.stageEnd (if cs == 0 || cs == 6 then b2n late else 1)
      (packNat [(31, 1, 1), (30, 1, b2n late), (27, 3, cs), (18, 9, s.fusedCount), (9, 9, (soft.take (repairSlots - s.nv.fused.length)).length),
        (4, 5, s.life.features.toNat), (3, 1, b2n s.life.grade125)])

/-! ### S2 -/

/-- A layer whose sensors, or their substitutes, lie outside 0 °C to 85 °C is trained without writes: the lowest such
sensor, which decides (R312, R323, R326). -/
def State.outsideTraining (s : State) (l : Nat) : Option Nat :=
  (layerSensors l).find? fun n =>
    (sensorRegions n).any fun g => match s.deciding n g with | some v => v < 0 || 1360 < v | none => false

/-- The hottest DRAM reading in whole °C, signed; a free value before any reading. -/
def State.hottestDram (s : State) : Nat × State :=
  match s.hottestOf ((List.range numLayers).flatMap layerSensors) with
  | some (_, v) => (sbits 8 (v / 16), s)
  | none => let d := s.draw; (d.1.toNat % 256, d.2)

/-- The work of S2: training, zeros and empty seal words in every block, then its word; the sensors that decided
against writes are kept for their THERM_WINDOW (R288, R323, R326). The thermal decision phases of S2 take the bands
from the first readings (R318). -/
def State.s2End (s : State) (i : S2In) : State :=
  let ro := (List.range numLayers).filter fun l => (s.outsideTraining l).isSome
  let h := s.hottestDram
  let s := h.2
  let fields := packNat [(20, 12, (bitsWord 0 ro).toNat), (8, 12, (~~~i.trained).toNat), (0, 8, h.1)]
  if i.trained != BitVec.allOnes 12 then s.bringupFail 2 fields
  else
    ({ s with stack := {}, life.readOnly := BitVec.ofNat 12 (bitsWord 0 ro).toNat
              heat.windowBy := ro.foldl (fun m l => tset 0 m l ((s.outsideTraining l).getD 0)) [] } : State).stageEnd
    (if ro.isEmpty then 0 else 1) fields

/-! ### S3 -/

/-- Tiles that the repair table fences (R273). -/
def State.fencedOld (s : State) : List Nat :=
  (s.map.table.filter fun w => entKind w == 2 && entFenceOld w && entTile w < numTiles).map entTile

/-- The work of S3: maps of generation 1 with every repair go to every node, then its word (R255, R273). The
election runs from S4 on: the chip is ELECTING, under the ROLE set by then (R57, R78, Table 2.7; log entry 43). -/
def State.s3End (s : State) : State :=
  let ts := s.fencedOld
  let hub : NiMap := { s.map.hub with fence := ts.foldl (fun v t => setBit v t true) s.map.hub.fence, gen := 1 }
  let s := { s with map.hub := hub }
  let s := ts.foldl (fun s t => s.mapMark t kRETIRE) s
  let s := allTiles.foldl (fun s t =>
    s.modCore t fun c => { c with ni := hub, nodeGen := 1, router := hub.fenced t, fenceStop := hub.fenced t }) s
  let fewest := (List.range numRegions).foldl (fun m g => min m (s.sparesFree g)) 15
  { s.stageEnd 0 (packNat [(16, 16, 1), (12, 4, fewest), (0, 11, ts.dedup.length)]) with
    time.state := 1, time.ctlInForce := s.reg Reg.beatSyncCtl }

/-! ### Links (R433, R434) -/

/-- Width of a link from its good lanes: 8, 4, 2 or 0. -/
def linkWidth (lanes : BitVec 8) : Nat :=
  let n := ((List.range 8).filter lanes.getLsbD).length
  if n == 8 then 8 else if 4 ≤ n then 4 else if 2 ≤ n then 2 else 0

/-- State of a link from its width (Table 14.4); in Repose a trained link carries the sentinel class only. -/
def State.linkState (s : State) (w : Nat) : Nat :=
  if w == 0 then 0 else if s.life.repose == 2 then 4 else if w == 8 then 2 else 3

/-- LINK_DOWN (Table 14.9), and its routes switch (R113). -/
def State.raiseLinkDown (s : State) (n : Nat) : State :=
  (s.raiseLink n 0x00D2 .fault (pack [(58, 6, n), (50, 8, (s.link n).laneOk.toNat)])).routesLose n

/-- The hang ring of a link whose state changed takes an entry of kind STATE (R408). -/
def State.linkChanged (s : State) (n : Nat) : State :=
  let st := s.localStamp (linkDomain n)
  st.2.hangFree (ringLink n) st.1 .state 0xFF_FFFF 0

/-- One attempt at training a DOWN link; `retry` raises LINK_UP when it trains. -/
def State.trainLink (s : State) (x : LinkTrain) (retry : Bool) : State :=
  let n := x.link
  if numLinks ≤ n || (s.link n).state != 0 then s
  else
    let w := linkWidth x.laneOk
    let s := s.modLink n fun l =>
      { l with state := s.linkState w, width := w, laneOk := x.laneOk, retrains := min (l.retrains + 1) 0xFFFF
               peer := if w == 0 then l.peer else x.peer }
    let s := if w == 0 then s else s.linkChanged n
    let s := if retry && w != 0 then
        s.raiseLink n 0x00D4 .info (pack [(58, 6, n), (54, 4, w), (41, 13, (x.peer.getD 0).toNat)])
      else s
    if w == 4 || w == 2 then
      s.raiseLink n 0x00D3 .note (pack [(58, 6, n), (54, 4, w), (46, 8, x.laneOk.toNat)])
    else s

/-- The DOWN links, each with its result in a round of training; a link without one found no lane. -/
def State.downLinks (s : State) (ls : List LinkTrain) : List LinkTrain :=
  ((List.range numLinks).filter fun n => (s.link n).state == 0).map fun n =>
    (ls.find? fun x => x.link == n).getD { link := n, laneOk := 0, peer := none }

/-- Links of a width: UP, NARROW and DOWN. -/
def State.linkCount (s : State) (p : Nat → Bool) : Nat :=
  ((List.range numLinks).filter fun n => p (s.link n).width).length

/-- LINK_SUMMARY (Table 14.10). -/
def State.linkSummary (s : State) : Word :=
  let u := s.linkCount (· == 8)
  pack [(58, 6, u), (52, 6, s.linkCount fun w => w == 4 || w == 2), (46, 6, s.linkCount (· == 0)), (45, 1, b2n (u == 48))]

/-- LINK_STATE (Table 14.4). -/
def Link.word (l : Link) : Word :=
  pack [(61, 3, l.state), (57, 4, l.width), (49, 8, l.laneOk.toNat), (48, 1, b2n l.peer.isSome),
    (35, 13, (l.peer.getD 0).toNat), (16, 16, l.retrains)]

/-- LINK_RETRAIN: a round of training at S4, or of retries once each LINK_RETRAIN beats (R434). -/
def State.linkRetrain (s : State) (ls : List LinkTrain) : State :=
  let first := s.life.retrain.isNone && s.life.stage == 4
  let due := match s.life.retrain with
    | some b => b + fld (s.inForce Reg.bringupLinkRetrain) 31 0 ≤ s.life.allBeats
    | none => false
  if first || due then
    { (s.downLinks ls).foldl (fun s x => s.trainLink x due) s with life.retrain := some s.life.allBeats }
  else s

/-- LINK_DOWN: a trained link goes down (R434). -/
def State.linkDown (s : State) (n : Nat) : State :=
  if s.trained n then (s.modLink n fun l => { l with state := 0, width := 0 }).linkChanged n |>.raiseLinkDown n else s

/-! ### S4 and Ready -/

/-- Ready (R428, R432): the S5 word and BRINGUP_READY, the standing COUNTER_READ to every node (R397), and one
THERM_WINDOW for each layer trained without writes (R324). -/
def State.readyStart (s : State) : State :=
  let w := pack [(60, 4, 5), (58, 2, b2n s.life.degraded), (32, 24, s.life.allBeats)]
  let s := s.setReg (Reg.bringupReport + 40) w
  let s := { s with life.readyBeat := s.beat
                    dbg.nextSample := some (s.beat + fld (s.inForce Reg.countCountCtl) 47 32)
                    maq.exp0 := s.effExp 0 }
  let period := fld (s.inForce Reg.countCountCtl) 47 32
  let s := (s.raiseHub 0x00D0 .info w).hubSend
    { op := 0x22, vc := 2, operand := opack [(78, 16, period), (27, 51, s.beat + period)], dests := allNodes }
  ((List.range numLayers).filter fun l => s.life.readOnly.getLsbD l).foldl (fun s l =>
    let n := tget 0 s.heat.windowBy l
    s.raiseWindow 1 l true (some (n, (s.deciding n ((sensorRegions n).headD 0)).getD (-32768))) 0) s

/-- From Ready on an entry whose primary route has no trained first link stands on its alternate (R113). -/
def State.routesCheck (s : State) : State :=
  (List.range 64).foldl (fun s k =>
    let w := s.route0 k
    if bit w 63 && !s.onAlt k && !s.trained (routeLink w) then s.routeFail k else s) s

/-- S4 ends: links not yet trained make their attempt, those that stay DOWN are reported, and Ready follows
(R433, R434). -/
def State.s4End (s : State) (ls : List LinkTrain) : State :=
  let s := if s.life.retrain.isNone then
      { (s.downLinks ls).foldl (fun s x => s.trainLink x false) s with life.retrain := some s.life.allBeats }
    else s
  let down := (List.range numLinks).filter fun n => (s.link n).state == 0
  let s := (down.foldl State.raiseLinkDown s).routesCheck
  let u := s.linkCount (· == 8)
  let s := s.stageEnd (b2n (u != 48))
    (packNat [(26, 6, u), (20, 6, s.linkCount fun w => w == 4 || w == 2), (14, 6, down.length), (13, 1, b2n (u == 48)),
      (10, 3, s.time.state), (9, 1, b2n s.time.adopted)])
  s.readyStart

/-! ### Repose (R438 to R441) -/

/-- The operand of REPOSE names a wake. -/
def isWake (operand : BitVec 48) : Bool := operand.getLsbD 47

/-- REPOSE with WAKE 0 completes STATE_ILLEGAL (R439). -/
def State.reposeIllegal (s : State) : Bool :=
  s.inRepose || s.cast.run.isSome || s.map.commit.isSome || !s.map.releases.isEmpty ||
  (s.map.promotions.any fun p => p.step != 0) || s.anyHashing || s.life.freezePending

/-- Entry to Repose is dispatched: sessions, tests and digests end, and the streams are to stop (Table 14.7). -/
def State.reposeStart (s : State) (id : Nat) : State :=
  let s := (s.maqEndAll 9).chiselAbortAll 2
  let s := s.digestRepose
  { s with life.repose := 1, life.reposeBeat := s.beat, life.reposeStart := s.beat, life.reposeOrder := some id }.pauseSend 0

/-- Every stream stands at a boundary, nothing is in flight and no test is left. -/
def State.reposeReady (s : State) : Bool :=
  allTiles.all fun t => s.pauseReady t && !(s.tile t).chisel.inSession

/-- REPOSE_GATHER_DONE: save areas are written, region clocks stop, layers enter self-refresh and links carry
the sentinel class only; the order completes (Table 14.7). -/
def State.reposeGathered (s : State) : State :=
  if s.life.repose != 1 || !s.reposeReady then s
  else
    let s := { s with stack.save := s.tiles, stack.saveSram := s.stack.sram, stack.saveSeals := s.stack.sramSeals }
    let s := (List.range numRegions).foldl State.stopRegion s
    let s := ((List.range numLinks).filter s.trained).foldl (fun s n =>
      (s.modLink n fun l => { l with state := 4 }).linkChanged n) s
    let s := (s.bump Reg.powerReposeCount).raiseHub 0x00D6 .info (word (min (s.beat - s.life.reposeStart) (2 ^ 32 - 1)))
    { s with life.repose := 2, life.reposeBeat := s.beat, life.reposeOrder := none }.finishOpt s.life.reposeOrder .ok

/-- The gather of an entry to Repose reaches GATHER_MAX: the tiles resume (R439). -/
def State.reposeExpiry (s : State) : State :=
  if s.life.repose == 1 && s.life.reposeStart + fld (s.inForce Reg.powerReposeCtl) 15 0 ≤ s.beat then
    ({ s with life.repose := 0, life.reposeBeat := s.beat, life.reposeOrder := none }.finishOpt s.life.reposeOrder
      .gatherTimeout).resumeSend
  else s

/-- REPOSE with WAKE 1 is dispatched. -/
def State.wakeStart (s : State) (id : Nat) : State :=
  { s with life.repose := 3, life.lastWake := pack [(32, 32, min (s.beat - s.life.reposeBeat) (2 ^ 32 - 1))]
           life.reposeBeat := s.beat, life.reposeOrder := some id, life.wakeAt := s.time.time }

/-- The state of a tile comes back from its save area, and its map and pairings from the hub. -/
def State.wakeTile (s : State) (t : Nat) : State :=
  let pairs := (List.range 32).foldl (fun (m : Tbl (Nat × Nat × Nat)) k =>
    match s.session k with
    | some x => if x.closed then m else tset (0, 0, 0) m k (x.host, x.logical, x.source)
    | none => m) []
  (s.modCore t fun c =>
    { c with ni := s.map.hub, niPend := [], nodeGen := s.map.hub.gen, castStop := false }).modMaq t fun m => { m with pairs }

/-- WAKE_DONE (Table 14.8): every region logs GAP at its first edge, maps, pairings and saved state are back,
parked orders are carried out, streams resume and links reopen (R100). -/
def State.wakeDone (s : State) (cyc : Nat) : State :=
  if s.life.repose != 3 then s
  else
    let s := s.toCycle cyc
    let s := ((List.range numRegions).filter s.regionStopped).foldl (fun s g => s.domainGap (g + 1)) s
    let s := { s with stack.sram := s.stack.saveSram, stack.sramSeals := s.stack.saveSeals }
    let s := allTiles.foldl State.wakeTile s
    let s := (s.arm.parked.map (·.1)).eraseDups.foldl State.unpark s
    let s := ((List.range numLinks).filter fun n => (s.link n).state == 4).foldl (fun s n =>
      (s.modLink n fun l => { l with state := if l.width == 8 then 2 else 3 }).linkChanged n) s
    let s := { s with life.repose := 0, life.reposeBeat := s.beat, life.reposeOrder := none }
    let w := pack [(32, 32, fld s.life.lastWake 63 32), (0, 32, min (s.time.time.toNat - s.life.wakeAt.toNat) (2 ^ 32 - 1))]
    { s with life.lastWake := w }.raiseHub 0x00D7 .info w |>.finishOpt s.life.reposeOrder .ok

/-- POWER_STATE (Table 14.11). -/
def State.powerState (s : State) : Word := pack [(61, 3, s.life.repose), (0, 51, s.life.reposeBeat)]

/-- STAGE (Table 14.10). -/
def State.stageWord (s : State) : Word := pack [(6, 2, s.life.worst), (0, 3, s.life.stage)]

/-! ### Meanings -/

/-- PLINTH_POWER_GOOD: S0 begins at plinth time 0 and collects what it needs. -/
def execPlinthPowerGood (i : S0In) (s : State) : Host.Outcome State Fault Refusal :=
  doWhen (!s.life.powered || (s.life.stage == 0 && !s.life.collected)) (fun s => (s.freshPlinth true).s0Work i) s

/-- WHOLE_CHIP_RESET, in any state that has power (R435). -/
def execWholeChipReset (i : S0In) (s : State) : Host.Outcome State Fault Refusal :=
  doWhen s.life.powered (fun s => (s.freshPlinth true).s0Work i) s

/-- POWER_REMOVED (R52). -/
def execPowerRemoved (s : State) : Host.Outcome State Fault Refusal :=
  doWhen s.life.powered (fun s => s.freshPlinth false) s

/-- STAGE_S1: Chimin's work is done and firmware has written FW_READY (R429). -/
def execStageS1 (i : S1In) (s : State) : Host.Outcome State Fault Refusal :=
  doWhen (s.inStage 1 && s.life.fwReady) (fun s => s.s1End i false) s

/-- STAGE_S2. -/
def execStageS2 (i : S2In) (s : State) : Host.Outcome State Fault Refusal := doWhen (s.inStage 2) (fun s => s.s2End i) s

/-- STAGE_S3. -/
def execStageS3 (s : State) : Host.Outcome State Fault Refusal := doWhen (s.inStage 3) State.s3End s

/-- STAGE_S4. -/
def execStageS4 (ls : List LinkTrain) (s : State) : Host.Outcome State Fault Refusal :=
  doWhen (s.inStage 4) (fun s => s.s4End ls) s

/-- The current stage ends with what it has (Table 14.1). -/
def State.stageLimit (s : State) (i1 : S1In) (i2 : S2In) (ls : List LinkTrain) : State :=
  match s.life.stage with
  | 0 => s.s0End
  | 1 => s.s1End i1 (!s.life.fwReady)
  | 2 => s.s2End i2
  | 3 => s.s3End
  | _ => s.s4End ls

/-- STAGE_LIMIT. -/
def execStageLimit (i1 : S1In) (i2 : S2In) (ls : List LinkTrain) (s : State) : Host.Outcome State Fault Refusal :=
  doWhen (s.live && s.life.stage < 5 && s.life.worst != 2 && s.stageOver) (fun s => s.stageLimit i1 i2 ls) s

/-- LINK_DOWN. -/
def execLinkDown (n : Nat) (s : State) : Host.Outcome State Fault Refusal :=
  doWhen (s.live && 4 ≤ s.life.stage) (fun s => s.linkDown n) s

/-- LINK_RETRAIN. -/
def execLinkRetrain (ls : List LinkTrain) (s : State) : Host.Outcome State Fault Refusal :=
  doWhen (s.live && 4 ≤ s.life.stage) (fun s => s.linkRetrain ls) s

/-- REPOSE_GATHER_DONE. -/
def execReposeGatherDone (s : State) : Host.Outcome State Fault Refusal := doWhen s.ready State.reposeGathered s

/-- GATHER_TIMEOUT: of a cast (R337) or of an entry to Repose (R439). -/
def execGatherTimeout (s : State) : Host.Outcome State Fault Refusal :=
  doWhen s.ready (fun s => s.gatherExpiry.reposeExpiry) s

/-- WAKE_DONE. -/
def execWakeDone (cyc : Nat) (s : State) : Host.Outcome State Fault Refusal := doWhen s.ready (fun s => s.wakeDone cyc) s

end Sys2Proof.Machine
end

