-- ==== Sys2Proof/Machine/Orders.lean ====
section
/-! DEFINITION. Orders: the window's intake, legality, the dispatch turn of each order, and the dispatch phase
(R65 to R67, R460 to R466, R474 to R477). -/

namespace Sys2Proof.Machine

/-! ### Operands -/

/-- The operand of an order word, as a word. -/
def ordOperand (w : Word) : Word := word (fld w 47 0)

/-- A field of the operand is zero. -/
def zeroFld (w : Word) (hi lo : Nat) : Bool := fld w hi lo == 0

/-- EXP of MAQ_RATE (Table 6.1). -/
def expOk (e : Nat) : Bool := e == 0 || (6 ≤ e && e ≤ 12) || e == 15

/-- TARGET of a PROMOTE, when valid. -/
def promoteTarget (w : Word) : Option Nat := if bit w 47 then some (fld w 42 32) else none

/-- BAD_OPERAND: a reserved opcode, a reserved encoding or a value out of range (R460, Tables 6.1, 7.3, 7.4,
8.8, 11.4, 12.5, 13.9, R439, R275, R279). -/
def State.badOperand (s : State) (w : Word) : Bool :=
  match ordOpcode w with
  | 0x01 => !(fld w 47 46 ≤ 1 && zeroFld w 45 11 && fld w 10 0 < numTiles)
  | 0x02 => !(zeroFld w 46 11 && fld w 10 0 < numTiles)
  | 0x03 =>
    !(zeroFld w 46 43 && zeroFld w 31 10 &&
      (match promoteTarget w with
       | some u => u < numTiles && regionOf u == regionOfLogical (fld w 9 0)
       | none => true))
  | 0x04 => !(zeroFld w 31 11 && fld w 10 0 < numTiles && fld w 47 32 &&& 0xF041 == 0)
  | 0x05 => !(fld w 47 46 != 3 && zeroFld w 45 44 && zeroFld w 28 24 && fld w 43 33 < numTiles && fld w 23 0 != 0)
  | 0x06 => !(fld w 47 46 != 3 && zeroFld w 45 43 && zeroFld w 31 20 && zeroFld w 15 4 && fld w 42 32 < numTiles &&
      expOk (fld w 3 0))
  | 0x07 => !(zeroFld w 45 0)
  | 0x08 => bit w 45
  | 0x09 => fld w 44 43 == 3 || bit w 32
  | 0x0A => !(zeroFld w 39 10)
  | 0x0B => !(zeroFld w 46 10)
  | 0x0C => !(zeroFld w 47 32)
  | 0x0D => !(zeroFld w 43 24)
  | 0x0E =>
    let d := s.dslot (fld w 47 44)
    !(zeroFld w 43 24) || 2 ^ 23 ≤ cseqDiff (BitVec.ofNat 24 (fld w 23 0)) d.first
  | 0x0F => !(zeroFld w 46 0)
  | 0x10 => !(zeroFld w 47 0)
  | 0x11 => !(zeroFld w 45 13)
  | 0x12 => !(zeroFld w 27 0 && (releaseRect (BitVec.ofNat 48 (fld w 47 0))).ok)
  | _ => true

/-! ### Legality (R475 to R477) -/

/-- Table 16.4: the order is legal in the chip's state. -/
def State.legal (s : State) (w : Word) : Bool :=
  let op := ordOpcode w
  let p := s.castPhase
  if op == opFREEZE then true
  else if s.life.stage != 5 then false
  else if op == opREPOSE && bit w 47 then s.life.repose == 2
  else if s.inRepose then false
  else if 1 ≤ p && p ≤ 3 then
    !(op == opCAST || op == opRESTORE || op == opREPOSE || op == opPARTNER_BIND || op == opRELEASE_PARTITION)
  else if p == 4 then !(op == opCAST || op == opRESTORE || op == opREPOSE || op == opPARTNER_BIND)
  else if p == 5 then op == opCHISEL_DEFER || op == opMAQ_RATE || op == opFUSE_COMMIT
  else true

/-- The logical tile is fenced, held, promoting or releasing (Table 13.10). -/
def State.unsteppable (s : State) (l : Nat) : Bool :=
  s.fenced (s.phys l) || s.map.hub.held l || (s.promotion l).isSome || s.releasing l

/-- STATE_ILLEGAL by the order's own status table. -/
def State.ownIllegal (s : State) (w : Word) : Bool :=
  match ordOpcode w with
  | 0x01 => s.fenceIllegal (fld w 10 0)
  | 0x02 => s.unfenceIllegal (fld w 10 0) (bit w 47)
  | 0x03 => s.promoteIllegal (fld w 9 0) (promoteTarget w)
  | 0x04 => s.chiselNowIllegal (fld w 10 0)
  | 0x05 => fld w 47 46 == 0 && s.deferIllegal (fld w 43 33)
  | 0x07 => s.castRefusal == some .stateIllegal
  | 0x09 =>
    let k := fld w 47 45
    if fld w 44 43 == 2 then !s.watchArmed k
    else s.watchArmed k || fld w 31 16 == 0xFFFF || fld w 15 0 == 0xFFFF
  | 0x0A => s.cast.partial_ || s.unsteppable (fld w 9 0)
  | 0x0B =>
    s.cast.partial_ ||
    (!bit w 47 && (s.unsteppable (fld w 9 0) ||
      !((s.tile (s.phys (fld w 9 0))).core.halted || (s.tile (s.phys (fld w 9 0))).core.stepping)))
  | 0x0D => s.digestOpenIllegal (fld w 47 44)
  | 0x0E => (s.dslot (fld w 47 44)).state != 1
  | 0x0F => !bit w 47 && s.reposeIllegal
  | 0x10 => s.map.commit.isSome || s.mgmtSilent
  | 0x12 => s.releaseIllegal (releaseRect (BitVec.ofNat 48 (fld w 47 0)))
  | _ => false

/-- NOT_LICENSED: MAQ_RATE with EXP 6, and PARTNER_BIND, without their features (Table 12.8). -/
def State.unlicensed (s : State) (w : Word) : Bool :=
  (ordOpcode w == opMAQ_RATE && fld w 3 0 == 6 && !s.feature 2) ||
  (ordOpcode w == opPARTNER_BIND && bit w 47 && !s.feature 3)

/-- The first status that refuses an order in its turn, in the precedence of R474. -/
def State.refusedAs (s : State) (w : Word) : Option Status :=
  if s.badOperand w then some .badOperand
  else if s.life.freezePending || !s.legal w || s.ownIllegal w then some .stateIllegal
  else if s.unlicensed w then some .notLicensed
  else if (ordOpcode w == opCAST || ordOpcode w == opRESTORE) && !s.cast.storeOk then some .noStore
  else none

/-! ### What each order does in its turn -/

/-- MAQ_RATE: SET_RATE goes to the addressed nodes (R192). -/
def State.maqRateDo (s : State) (w : Word) (id : Nat) : State :=
  let ts := match fld w 47 46 with
    | 0 => oneNode (fld w 42 32)
    | 1 => nodeSet (tilesOfRegion (fld w 19 16))
    | _ => allNodes
  s.maqSend 6 0 0 0 0 (fld w 3 0) ts (some id)

/-- WATCH with MODE STATS or DIGEST arms the slot (R410). -/
def State.watchArmDo (s : State) (w : Word) (id : Nat) : State :=
  let k := fld w 47 45
  let l := fld w 42 33
  let s := s.setWatch k (pack [(62, 2, 1), (60, 2, fld w 44 43), (45, 10, l)], [], some id)
  s.hubSend { op := 0x13, vc := 1, dests := oneNode (s.phys l), order := some id
              operand := opack [(91, 3, k), (89, 2, fld w 44 43), (73, 16, fld w 31 16), (57, 16, fld w 15 0)] }

/-- WATCH with MODE DISARM ends the slot CANCELLED, and its own order completes OK (R412, Table 13.10). -/
def State.watchDisarmDo (s : State) (w : Word) (id : Nat) : State :=
  let k := fld w 47 45
  let t := s.phys (fld (s.watch k).1 54 45)
  ((s.watchCancel k).hubSend { op := 0x13, vc := 1, dests := oneNode t, operand := opack [(94, 2, 1), (91, 3, k)] }).finish
    id .ok

/-- STEP goes to the tile's node (R413). -/
def State.stepDo (s : State) (w : Word) (id : Nat) : State :=
  s.hubSend { op := 0x14, vc := 1, dests := oneNode (s.phys (fld w 9 0)), order := some id
              operand := opack [(88, 8, fld w 47 40)] }

/-- The tiles on which RUN acts (R414). -/
def State.runTiles (s : State) (w : Word) : List Nat :=
  if bit w 47 then
    ((List.range numLogical).filter fun l =>
      !s.unsteppable l && ((s.tile (s.phys l)).core.halted || (s.tile (s.phys l)).core.stepping)).map s.phys
  else [s.phys (fld w 9 0)]

/-- RUN goes to their nodes and completes OK (R414). -/
def State.runDo (s : State) (w : Word) (id : Nat) : State :=
  let ts := s.runTiles w
  let s := if ts.isEmpty then s
    else s.hubSend { op := 0x15, vc := 1, dests := nodeSet ts, operand := 0, order := some id }
  s.finish id .ok

/-- FREEZE is pending from here on (R416). -/
def State.freezeDo (s : State) (w : Word) (id : Nat) : State :=
  ({ s with life.freezePending := true, life.freezeReason := BitVec.ofNat 32 (fld w 31 0) } : State).finish id .ok

/-- PARTNER_BIND with VALID 1: the answer decides; until it comes the hub asks the named chip by HUBMSG,
whose content the spec leaves open (assumption 47). A chip that no route reaches cannot answer (R112, R345). -/
def State.bindDo (s : State) (w : Word) (id : Nat) (ans : Option (Option PartnerAnswer)) : State :=
  let chip : BitVec 13 := BitVec.ofNat 13 (fld w 12 0)
  match ans with
  | some a => s.bindStart (BitVec.ofNat 48 (fld w 47 0)) a id
  | none =>
    if (s.routeFor chip).isNone || s.arm.unreachable.contains chip then s.finish id .peerUnreachable
    else
      let d := s.draw
      d.2.peerSend chip false 5 [d.1.setWidth 128]

/-- DIGEST_OPEN opens the slot and arms it at every node of RECT; it completes when all have acknowledged (R379). -/
def State.digestOpenSend (s : State) (k : Nat) (first : BitVec 24) (id : Nat) : State :=
  let ts := (s.rectTiles (rectOf (s.inForce (Reg.digestSlotCfg + 8 * k)) 0)).map (·.2)
  (s.digestOpenDo k first).hubSend
    { op := opDIGEST_ARM, vc := 1, dests := nodeSet ts, operand := digestArm k first, order := some id }

/-- The effect of an order that nothing refuses. -/
def State.orderDo (s : State) (o : OrderRec) (ans : Option (Option PartnerAnswer)) : State :=
  let w := o.word
  let operand : BitVec 48 := BitVec.ofNat 48 (fld w 47 0)
  match ordOpcode w with
  | 0x01 => s.fenceDo (fld w 10 0) (fld w 47 46) o.id
  | 0x02 =>
    if 1 ≤ s.castPhase && s.castPhase ≤ 3 then s.modOrder o.id fun o => { o with wait := true }
    else s.unfenceDo (fld w 10 0) (bit w 47) o.id
  | 0x03 => s.promoteDo (fld w 9 0) (promoteTarget w) o.id
  | 0x04 => s.chiselNowDo (fld w 10 0) (BitVec.ofNat 16 (fld w 47 32)) o.id
  | 0x05 => ((deferTiles operand).foldl (fun s t => s.deferTile t (fld w 23 0)) s).finish o.id .ok
  | 0x06 => s.maqRateDo w o.id
  | 0x07 => s.castStart operand o.id
  | 0x08 => s.restoreStart operand o.id
  | 0x09 => if fld w 44 43 == 2 then s.watchDisarmDo w o.id else s.watchArmDo w o.id
  | 0x0A => s.stepDo w o.id
  | 0x0B => s.runDo w o.id
  | 0x0C => s.freezeDo w o.id
  | 0x0D => s.digestOpenSend (fld w 47 44) (BitVec.ofNat 24 (fld w 23 0)) o.id
  | 0x0E => s.digestCloseDo (fld w 47 44) (BitVec.ofNat 24 (fld w 23 0)) o.id
  | 0x0F => if bit w 47 then s.wakeStart o.id else s.reposeStart o.id
  | 0x10 => s.commitStart o.id
  | 0x11 => if bit w 47 then s.bindDo w o.id ans else s.unbindStart o.id
  | 0x12 => s.releaseStart (releaseRect operand) o.id
  | _ => s

/-- The dispatch turn of an order (R66, R474). -/
def State.orderTurn (s : State) (id : Nat) (ans : Option (Option PartnerAnswer)) : State :=
  match s.order id with
  | none => s
  | some o =>
    if o.turn then s
    else
      let s := s.modOrder id fun o => { o with turn := true }
      match s.refusedAs o.word with
      | some st => s.finish id st
      | none => s.orderDo o ans

/-! ### Intake (R65, R462, R463) -/

/-- Status entries that an order reserves (R463). DEDUCED: two for MAQ_RATE, as the rule says and its worked example
does not (log entry 42). -/
def entriesFor (w : Word) : Nat :=
  let op := ordOpcode w
  if op == opCHISEL_DEFER || op == opRUN || op == opFREEZE || op == 0 || 0x12 < op then 1
  else if op == opWATCH && fld w 44 43 == 2 then 1 else 2

/-- Entries of a master's ring that are neither written and unread nor reserved. -/
def State.ringFree (s : State) (m : OrderMaster) : Nat :=
  let used := match m with
    | .hostk => unread s.ord.hostWr (s.reg Reg.orderHostRd)
    | .mgmt => unread s.ord.mgmtWr (s.reg Reg.orderMgmtRd)
  let held := ((s.ord.orders.filter fun o => o.ref.master = m).map (·.reserved)).sum
  64 - used - held

/-- DETAIL from the operand alone (Table 15.14). -/
def detailOf (w : Word) : BitVec 32 :=
  match ordOpcode w with
  | 0x03 => promoteDetail none (fld w 9 0)
  | 0x09 => BitVec.ofNat 32 (fld w 47 45)
  | 0x0C => BitVec.ofNat 32 (fld w 31 0)
  | 0x0E => BitVec.ofNat 32 (fld w 47 44)
  | _ => 0

/-- An order may be taken: its reservation fits beside the 4 kept entries, or it is a FREEZE that takes one of
them. `stopped` says that intake has stopped for its master in this beat. -/
def State.mayTake (s : State) (m : OrderMaster) (w : Word) (stopped : Bool) : Bool :=
  (!stopped && entriesFor w + 4 ≤ s.ringFree m) || (ordOpcode w == opFREEZE && 1 ≤ s.ringFree m)

/-- Take an order. -/
def State.takeOrder (s : State) (r : OrderRef) (w : Word) : State :=
  let o : OrderRec :=
    { id := s.ord.nextId, ref := r, word := w, reserved := entriesFor w, detail := detailOf w
      beat := s.beat }
  ({ s with ord.orders := s.ord.orders ++ [o], ord.nextId := s.ord.nextId + 1 } : State).bump Reg.orderTaken

/-- The slots of a master from its NEXT on (R462). -/
def State.slotOrder (s : State) (m : OrderMaster) : List Nat :=
  match m with
  | .mgmt => (List.range 8).map fun i => 56 + (s.ord.mgmtNext - 56 + i) % 8
  | .hostk => (List.range 56).map fun i => (s.ord.hostNext + i) % 56

/-- NEXT after a slot was taken. -/
def State.setNext (s : State) (m : OrderMaster) (slot : Nat) : State :=
  match m with
  | .mgmt => { s with ord.mgmtNext := 56 + (slot - 56 + 1) % 8 }
  | .hostk => { s with ord.hostNext := (slot + 1) % 56 }

/-- The word in a slot of the window. -/
def State.window (s : State) (k : Nat) : Word := tget 0 s.ord.window k

/-- What intake carries along: the state, the orders taken, and whether it stopped for the master. -/
abbrev Intake := State × Nat × Bool

/-- Intake looks at one slot: an order written since the tick waits (R65). -/
def intakeSlot (m : OrderMaster) (a : Intake) (k : Nat) : Intake :=
  let w := a.1.window k
  if w == 0 || a.1.ord.waiting.contains k || 32 ≤ a.2.1 then a
  else if a.1.mayTake m w a.2.2 then
    let s := a.1.takeOrder { master := m, slot := k, tag := BitVec.ofNat 8 (ordTag w) } w
    let s := { s with ord.window := tset 0 s.ord.window k 0 }
    (s.setNext m k, a.2.1 + 1, a.2.2)
  else (a.1, a.2.1, true)

/-- ORDER_INTAKE: first MGMT, then HOSTK. -/
def State.intake (s : State) : State :=
  let a := (s.slotOrder .mgmt).foldl (intakeSlot .mgmt) (s, 0, false)
  let b := (a.1.slotOrder .hostk).foldl (intakeSlot .hostk) (a.1, a.2.1, false)
  if a.2.2 || b.2.2 then b.1.bump Reg.orderLeftWaiting else b.1

/-! ### The dispatch phase (R66) -/

/-- Orders that wait: an UNFENCE of a cast pause is applied at its resume, and a PARTNER_BIND ends when its chip
has become unreachable, or has not answered by the last dispatch within 4 beats of intake (R475, R345, R355). -/
def State.waitingOrders (s : State) : State :=
  s.ord.orders.foldl (fun s o =>
    if o.done.isSome || !o.turn then s
    else if o.wait && !(1 ≤ s.castPhase && s.castPhase ≤ 3) then
      (s.modOrder o.id fun o => { o with wait := false }).unfenceDo (fld o.word 10 0) (bit o.word 47) o.id
    else if ordOpcode o.word == opPARTNER_BIND &&
        (o.beat + 3 ≤ s.beat || s.arm.unreachable.contains (BitVec.ofNat 13 (fld o.word 12 0))) then
      s.finish o.id .peerUnreachable
    else s) s

/-- The scheduling actions of a dispatch phase, which come before the orders: patina first, then the tests that
hold or wait, and the pairings to be removed (R66, R202, R229). On the way into Repose patina actions
are held, and aborted sessions end (Tables 7.7, 14.7). -/
def State.scheduled (s : State) : State :=
  if s.life.stage != 5 then s
  else if s.inRepose then s.chiselEndAll.maqClose
  else s.patinaDispatch.chiselEndAll.chiselHoldAll.chiselArmAll.maqClose

/-- DISPATCH: patina actions, the taint computation that is due, the orders (R66, R168). In the beat of a controlled
shutdown nothing is dispatched; of a frozen chip only read requests are carried out (Table 13.6, R409). -/
def State.dispatchAll (s : State) : State :=
  if s.life.frozen then s.readDispatch
  else if s.life.shutdownEvent.isSome then s
  else
    let s := s.scheduled
    let s := if s.ready then s.taintStart else s
    let s := s.ord.orders.foldl (fun s o => s.orderTurn o.id none) s.waitingOrders
    s.readDispatch

/-! ### Meanings: one row per order. The order is taken, with its entries reserved, and its turn comes. -/

/-- The slot belongs to the master (R461). -/
def OrderRef.own (r : OrderRef) : Bool :=
  match r.master with
  | .hostk => r.slot < 56
  | .mgmt => 56 ≤ r.slot && r.slot < 64

/-- An order of the table's row reaches its turn; none does in the beat of a controlled shutdown (R320). -/
def orderRow (r : OrderRef) (w : Word) (ans : Option (Option PartnerAnswer)) (s : State) :
    Host.Outcome State Fault Refusal :=
  doWhen (s.live && s.life.shutdownEvent.isNone && OrderRef.own r && s.mayTake r.master w false)
    (fun s => (s.takeOrder r w).orderTurn s.ord.nextId ans) s

/-- The operand with a field as the row says. -/
def withField (operand : BitVec 48) (hi lo v : Nat) : BitVec 48 := (setFld (operand.setWidth 64) hi lo v).setWidth 48

/-- FENCE. -/
def execFence (r : OrderRef) (operand : BitVec 48) (s : State) : Host.Outcome State Fault Refusal :=
  orderRow r (ordWord opFENCE r.tag operand) none s
/-- UNFENCE. -/
def execUnfence (r : OrderRef) (operand : BitVec 48) (s : State) : Host.Outcome State Fault Refusal :=
  orderRow r (ordWord opUNFENCE r.tag operand) none s
/-- PROMOTE. -/
def execPromote (r : OrderRef) (operand : BitVec 48) (s : State) : Host.Outcome State Fault Refusal :=
  orderRow r (ordWord opPROMOTE r.tag operand) none s
/-- CHISEL_NOW. -/
def execChiselNow (r : OrderRef) (operand : BitVec 48) (s : State) : Host.Outcome State Fault Refusal :=
  orderRow r (ordWord opCHISEL_NOW r.tag operand) none s
/-- CHISEL_DEFER. -/
def execChiselDefer (r : OrderRef) (operand : BitVec 48) (s : State) : Host.Outcome State Fault Refusal :=
  orderRow r (ordWord opCHISEL_DEFER r.tag operand) none s
/-- MAQ_RATE. -/
def execMaqRate (r : OrderRef) (operand : BitVec 48) (s : State) : Host.Outcome State Fault Refusal :=
  orderRow r (ordWord opMAQ_RATE r.tag operand) none s
/-- CAST. -/
def execCast (r : OrderRef) (operand : BitVec 48) (s : State) : Host.Outcome State Fault Refusal :=
  orderRow r (ordWord opCAST r.tag operand) none s
/-- RESTORE. -/
def execRestore (r : OrderRef) (operand : BitVec 48) (s : State) : Host.Outcome State Fault Refusal :=
  orderRow r (ordWord opRESTORE r.tag operand) none s
/-- WATCH with a MODE other than DISARM. -/
def execWatchArm (r : OrderRef) (operand : BitVec 48) (s : State) : Host.Outcome State Fault Refusal :=
  orderRow r (ordWord opWATCH r.tag (if fld (operand.setWidth 64) 44 43 == 2 then withField operand 44 43 0 else operand)) none s
/-- WATCH with MODE DISARM. -/
def execWatchDisarm (r : OrderRef) (operand : BitVec 48) (s : State) : Host.Outcome State Fault Refusal :=
  orderRow r (ordWord opWATCH r.tag (withField operand 44 43 2)) none s
/-- STEP. -/
def execStepTile (r : OrderRef) (operand : BitVec 48) (s : State) : Host.Outcome State Fault Refusal :=
  orderRow r (ordWord opSTEP r.tag operand) none s
/-- RUN. -/
def execRun (r : OrderRef) (operand : BitVec 48) (s : State) : Host.Outcome State Fault Refusal :=
  orderRow r (ordWord opRUN r.tag operand) none s
/-- FREEZE. -/
def execFreeze (r : OrderRef) (operand : BitVec 48) (s : State) : Host.Outcome State Fault Refusal :=
  orderRow r (ordWord opFREEZE r.tag operand) none s
/-- DIGEST_OPEN. -/
def execDigestOpen (r : OrderRef) (operand : BitVec 48) (s : State) : Host.Outcome State Fault Refusal :=
  orderRow r (ordWord opDIGEST_OPEN r.tag operand) none s
/-- DIGEST_CLOSE. -/
def execDigestClose (r : OrderRef) (operand : BitVec 48) (s : State) : Host.Outcome State Fault Refusal :=
  orderRow r (ordWord opDIGEST_CLOSE r.tag operand) none s
/-- REPOSE with WAKE 0. -/
def execReposeEnter (r : OrderRef) (operand : BitVec 48) (s : State) : Host.Outcome State Fault Refusal :=
  orderRow r (ordWord opREPOSE r.tag (withField operand 47 47 0)) none s
/-- REPOSE with WAKE 1. -/
def execReposeWake (r : OrderRef) (operand : BitVec 48) (s : State) : Host.Outcome State Fault Refusal :=
  orderRow r (ordWord opREPOSE r.tag (withField operand 47 47 1)) none s
/-- FUSE_COMMIT. -/
def execFuseCommit (r : OrderRef) (operand : BitVec 48) (s : State) : Host.Outcome State Fault Refusal :=
  orderRow r (ordWord opFUSE_COMMIT r.tag operand) none s
/-- PARTNER_BIND with VALID 1: an order that waits for its partner's answer gets it, another one is taken. -/
def execPartnerBind (r : OrderRef) (operand : BitVec 48) (answer : Option PartnerAnswer) (s : State) :
    Host.Outcome State Fault Refusal :=
  let w := ordWord opPARTNER_BIND r.tag (withField operand 47 47 1)
  match s.ord.orders.find? fun o => o.ref = r && o.word == w && o.turn && o.done.isNone with
  | some o => doWhen s.live (fun s => s.bindDo w o.id (some answer)) s
  | none => orderRow r w (some answer) s
/-- PARTNER_BIND with VALID 0. -/
def execPartnerUnbind (r : OrderRef) (operand : BitVec 48) (s : State) : Host.Outcome State Fault Refusal :=
  orderRow r (ordWord opPARTNER_BIND r.tag (withField operand 47 47 0)) none s
/-- RELEASE_PARTITION. -/
def execReleasePartition (r : OrderRef) (operand : BitVec 48) (s : State) : Host.Outcome State Fault Refusal :=
  orderRow r (ordWord opRELEASE_PARTITION r.tag operand) none s

end Sys2Proof.Machine
end

