-- ==== Sys2Proof/Machine/Beat.lean ====
section
/-! DEFINITION. The beat: its tick, its phases and what the environment brings between them: time
synchronization, droops, voltage samples, licences, digests, sample sets and Palalmux (chapters 1, 2,
8, 10, 12 and 13). -/

namespace Sys2Proof.Machine

/-! ### The tick (R53, R55) -/

/-- Let plinth cycles pass up to a beat tick (R53, assumption 7). -/
def State.passTo (s : State) (now : Nat) : State :=
  let n := now - s.time.time.toNat
  { (s.ackDrain n).slew n with time.time := word now }

/-- The chip of a valid SROUTE word 0 has a packet outstanding. -/
def State.wordBusy (s : State) (w : Word) : Bool := bit w 63 && s.peerBusy (BitVec.ofNat 13 (fld w 60 48))

/-- Both words are valid entries for one chip. -/
def sameChip (a b : Word) : Bool := bit a 63 && bit b 63 && fld a 60 48 == fld b 60 48

/-- An entry that would come into force beside one of the entries `w`, which stay as they are, for the same chip: it
waits with them, since two valid entries for one chip are not allowed (R119). -/
def State.routeBeside (s : State) (w : List Nat) : Option Nat :=
  (List.range 64).find? fun i =>
    !w.contains i && w.any fun j => sameChip (s.reg (Reg.armSrouteW0 + 16 * i)) (s.route0 j)

/-- The entries that wait for a later tick, `w` among them. -/
def State.routesStay (s : State) : Nat → List Nat → List Nat
  | 0, w => w
  | n + 1, w => match s.routeBeside w with | some i => s.routesStay n (i :: w) | none => w

/-- The SROUTE entries that wait at a tick: those with a packet to their chip outstanding, and those kept behind them
(R119). -/
def State.routesWait (s : State) : List Nat :=
  match (List.range 64).filter fun i => s.wordBusy (s.route0 i) with
  | [] => []
  | w => s.routesStay 64 w

/-- A word of one of those entries. -/
def routeIn (w : List Nat) (k : Nat) : Bool :=
  Reg.armSrouteW0 ≤ k && k < Reg.armSrouteW0 + 1024 && w.contains ((k - Reg.armSrouteW0) / 16)

/-- Registers written since the last tick come into force (R119, R155, R209, R244, R281, R359, R389, R426). -/
def State.forceTick (s : State) : State :=
  let old := s
  let s := s.mrTick
  let w := s.routesWait
  let keep := s.force.filter fun e => routeIn w e.1
  let new := s.regs.filter fun e => !routeIn w e.1
  ({ s with force := keep.foldl (fun m e => tset (regReset e.1) m e.1 e.2) new } : State).routesTick old

/-- The next sampling beat while ENABLE is 0, and from the tick at which it returns; one that passed without its sampling
phase is followed by the next (R395). -/
def State.sampleTick (s : State) : State :=
  let ctl := s.inForce Reg.countCountCtl
  if !bit ctl 0 then { s with dbg.nextSample := none }
  else if s.dbg.nextSample.isNone && s.life.stage == 5 then
    { s with dbg.nextSample := some (s.beat + fld ctl 47 32) }
  else { s with dbg.nextSample := s.dbg.nextSample.map fun b => if b < s.beat then b + fld ctl 47 32 else b }

/-- The microjoules of a region that fall to tile `t`: its part of `e` in proportion to its work, or an equal
part of 72; how a part that is no whole number rounds is free (Table 13.1, assumption 4). -/
def energyShare (e work total : Nat) (free : Word) : Nat :=
  let n := if total == 0 then e else e * work
  let d := if total == 0 then 72 else total
  n / d + (if n % d == 0 then 0 else free.toNat % 2)

/-- The energy of a beat of one region (Table 13.1, Table 15.20). -/
def State.regionEnergy (s : State) (g e : Nat) : State :=
  let s := s.modRegion g fun x => { x with energy := x.energy + BitVec.ofNat 48 e }
  let ts := tilesOfRegion g
  let total := ts.foldl (fun a t => a + (s.tile t).core.beatWork) 0
  ts.foldl (fun s t =>
    let d := s.draw
    d.2.count t 14 (energyShare e (s.tile t).core.beatWork total d.1)) s

/-- Plinth cycles of a beat in which a region stood above step 0 are counted for its tiles (Table 13.1). -/
def State.countThrottle (s : State) (g n : Nat) : State :=
  (tilesOfRegion g).foldl (fun s t => s.count t 12 n) s

/-- The rest of a beat's throttle counts: the cycles after the thermal decisions, or all of them. -/
def State.throttleRest (s : State) : State :=
  let n := if s.time.phase < 5 then beatCycles else beatCycles - 5632
  (List.range numRegions).foldl (fun s g => if 0 < (s.region g).step then s.countThrottle g n else s) s

/-- Every count of a summary saturates at its field (Table 8.2). -/
def Summary.clip (x : Summary) : Summary :=
  { x with evdrop := min x.evdrop 0xFF, eccCorr := min x.eccCorr 0xFF, eccUncorr := min x.eccUncorr 0xF
           sealFault := min x.sealFault 0xF, sealInj := min x.sealInj 0xF, droop := min x.droop 0xF
           passes := min x.passes 0x3FF_FFFF }

/-- A node closes its counts of the beat: the summary waits for the aggregation, the ARM_CRC count for its
record (R251, R479). A node whose event queue still stands above EVQ_HI throttles in the new beat too (R105).
The summary leaves at cycle 64 of the new beat, unless an earlier one is still outstanding (R98). -/
def Core.closeBeat (c : Core) (b : Nat) (report high : Bool) (at64 : Word) : Core :=
  let x := { c.sum.clip with beat := b, halted := c.halted, gen := c.nodeGen }
  let c' := { c with
    sums := if report then c.sums ++ [x] else c.sums, sum := { throttle := high }, beatWork := 0, crcOld := c.crc, crc := {} }
  if report && c.outSummary.isNone then c'.summaryNext at64 else c'

/-- The nodes' part of a tick. Nodes send summaries from Ready on (R430). -/
def State.nodesTick (s : State) (b : Nat) : State :=
  let report := s.life.stage == 5
  allTiles.foldl (fun s t =>
    if report || (s.tile t).core.crc.first.isSome || (s.tile t).core.beatWork != 0 || (s.tile t).core.sum ≠ {} then
      s.modCore t fun c => c.closeBeat b report (s.evqHi < s.inUse t) (s.time.time + 64)
    else s) s

/-- A change of the determinism key fails running slots (R369). -/
def State.keyTick (s : State) (old : Word) : State := if s.detKey == old then s else s.digestKeyChange

/-- What the hub does at a tick (R65, R69, R163, R228, R275, R371, R381, R395, R429, R432). -/
def State.hubTick (s : State) : State :=
  let old := s
  let key := s.detKey
  let s := (s.closeCounts.traceDropTick.forceTick.keyTick key).digestPosture.wsetTick.selTick.licTick.sampleTick.chiselTick old |>.commitTick
  let s := { s with
    ord.waiting := []
    contain.disabled := if bit (s.inForce Reg.containContainCtl) 0 then s.contain.disabled
                        else (s.beat :: s.contain.disabled).take 130
    life.stageBeats := s.life.stageBeats + 1 }
  s.lineageTick.s0Tick

/-- Everything that a tick of the beat engine does at the plinth time of the tick; `b` is the beat that it ends. A beat
cut short counts as one elapsed beat, also of the PPS_LOST span (R60, R432, assumption 46). Of a
frozen chip, time, beats and the time exchange between chips go on (Table 13.6). -/
def State.tickAfter (s : State) (b : Nat) : State :=
  let s := { s with time.phase := 0, time.ppsBeats := s.time.ppsBeats + 1, life.allBeats := s.life.allBeats + 1,
                    arm.linkOut := [] }.mgmtTick.electSend
  if s.life.frozen then s else (s.nodesTick b).hubTick

/-- BEAT_TICK. -/
def State.beatTick (s : State) (energy : List (Nat × Nat)) : State :=
  let s := if s.life.frozen then s
    else energy.foldl (fun s e => if e.1 < numRegions && s.powerRegsOn then s.regionEnergy e.1 e.2 else s) s.throttleRest
  (s.passTo ((s.beat + 1) * beatCycles)).tickAfter s.beat

/-- TIME_ADOPT: the beat is cut short, and the master's time is loaded at its tick (R60). No plinth cycle passes by
the load, and the timestamps of a domain start anew behind it (R53, R71). -/
def State.timeAdopt (s : State) (master : Word) : State :=
  let d := master - s.time.time
  let b := s.beat
  let s := { s with time.time := master, time.slewPend := 0, time.stamps := [] }.tickAfter b
  { s with time.adopted := true, time.adoptStep := d }.raiseHub 0x0011 .info d

/-! ### Phases (Table 2.1) -/

/-- A phase may be done: plinth is powered, no later phase of the beat was done, and its last cycle has not
passed (R64). -/
def State.mayPhase (s : State) (rank last : Nat) : Bool := s.life.powered && s.time.phase < rank && s.cyc ≤ last

/-- The phase of that rank is under way at plinth cycle `c` of the beat. -/
def State.atPhase (s : State) (rank c : Nat) : State := ({ s with time.phase := rank } : State).toCycle c

/-- LINEAGE_CLOSING: nodes also send their closed ARM_CRC counts (R163, R479). -/
def State.lineagePhase (s : State) : State :=
  let s := if s.life.frozen then s else s.lineageClose
  allTiles.foldl (fun s t =>
    match (s.tile t).core.crcOld.record 32 32 with
    | some r => (s.modCore t fun c => { c with crcOld := {} }).raiseNode t r
    | none => s) s

/-- The summary has come: its ACK is in, or its packet can come or came to the hub (R98). -/
def State.summaryHere (s : State) (t : Nat) (x : Summary) : Bool :=
  !x.st.taken && (x.st.acked || ((s.tile t).core.outSummary == some x && !x.st.lost))

/-- The hub has a summary: one whose ACK is in is done with; one that came in a packet waits for its ACK; any other
comes now, and its ACK with it (R98 to R100; log entry 4). -/
def State.summaryIn (s : State) (t : Nat) (x : Summary) : State :=
  let s := s.modCore t fun c => { c with
    sums := if x.st.acked then c.sums.erase x else c.sums.map fun y => if y = x then { y with st.taken := true } else y }
  if !x.st.acked && s.onItsWay t 1 then s.exchanged t 1 else s

/-- A node's summary is applied once (R69, R106, R190, R202, R250). -/
def State.takeSummary (s : State) (t : Nat) (x : Summary) : State :=
  let s := s.summaryIn t x
  let s := s.modPat t fun p =>
    { p with sums := { p.sums with
        eccCorr := p.sums.eccCorr + x.eccCorr, eccUncorr := p.sums.eccUncorr + x.eccUncorr
        sealFault := p.sums.sealFault + x.sealFault, droop := p.sums.droop + x.droop } }
  let s := { s with
    arm.throttled := if x.throttle then t :: s.arm.throttled.filter (· != t) else s.arm.throttled.filter (· != t)
    arm.flagged := s.arm.flagged + b2n x.throttle, arm.dropped := s.arm.dropped + x.evdrop }
  let s := s.maqOutcome t x
  let s := if x.halted then s.maqSourceHalt t else s
  if x.due then s.modMaq t fun m => { m with due := some x.beat } else s

/-- LATE_SUMMARY: the oldest summary of the node that missed its aggregation is applied in this beat (R69). -/
def State.lateSummary (s : State) (t : Nat) : State :=
  match (s.tile t).core.sums.find? fun x => x.beat + 1 < s.beat && s.summaryHere t x with
  | some x =>
    let s := s.takeSummary t x
    { s.bump Reg.beatLateReports with
      time.lateNow := s.time.lateNow + 1
      time.lateOldest := if s.time.lateNow == 0 then x.beat else min s.time.lateOldest x.beat }
  | none => s

/-- VERDICT_AGGREGATION: the summaries of the previous beat that have come are applied, and the phase closes
(R69, R106). -/
def State.aggregate (s : State) (late : List Nat) : State :=
  let s := allTiles.foldl (fun s t =>
    match (s.tile t).core.sums.find? fun x => x.beat + 1 == s.beat && s.summaryHere t x with
    | some x => if late.contains t then s else s.takeSummary t x
    | none => s) s
  let s := if s.arm.flagged == 0 then s
    else s.raiseHub 0x0023 .note (pack [(32, 32, s.arm.flagged), (0, 32, s.arm.dropped)])
  let s := if s.time.lateNow == 0 then s
    else s.raiseHub 0x0017 .note (pack [(32, 32, s.time.lateNow), (0, 32, s.time.lateOldest)])
  { s with arm.flagged := 0, arm.dropped := 0, time.lateNow := 0, time.lateOldest := 0 }

/-- PEAK_TEMP takes the logic readings accepted in this beat, the first one as it is; readings compare as signed (Table
13.1). -/
def State.peakTemps (s : State) : State :=
  if s.life.frozen then s
  else
    s.heat.sensors.foldl (fun s e =>
      match e.2.fresh with
      | some v =>
        let c := (s.tile e.1).core.settled s.time.time (some v)
        if e.1 < numTiles && (!c.peakSet || s16 ((c.counter 13).setWidth 16) < s16 v) then
          s.modCore e.1 fun _ => { c.setCounter 13 (v.setWidth 48) with peakSet := true }
        else s
      | none => s) s

/-- The plinth cycles of this beat up to 5,631 in which region `g` stood above step 0. The cycle at which the new
clock starts lies from 5,120 to 5,631 and is a free value (R68, assumption 4). -/
def State.countThrottleChange (s : State) (g old new : Nat) : State :=
  let d := s.draw
  let c := 5120 + d.1.toNat % 512
  let s := if 0 < old then d.2.countThrottle g c else d.2
  if 0 < new then s.countThrottle g (5632 - c) else s

/-- THERMAL_DECISIONS: decisions, then what they end: segments outside their window, and at a controlled
shutdown every session and near-bank operation (R235, R314, R320). -/
def State.thermalPhase (s : State) : State :=
  let old := s
  let s := s.peakTemps.thermDecide
  let s := if s.life.frozen then s
    else (List.range numRegions).foldl (fun s g =>
      (s.countThrottleChange g (old.region g).step (s.region g).step).windowLeft old g) s
  let s := s.voidSlices
  if s.life.shutdownEvent.isSome && old.life.shutdownEvent.isNone then
    (if s.life.frozen then s else s.chiselShutdown).nbFinishAll
  else s

/-- COUNTER_SAMPLING: on a sampling beat every node captures, and the next one is fixed (R395). -/
def State.samplePhase (s : State) : State :=
  if s.dbg.nextSample == some s.beat then
    { s.sampleAll with dbg.nextSample := some (s.beat + fld (s.inForce Reg.countCountCtl) 47 32) }
  else s

/-! ### What the environment brings -/

/-- GAP: the domain's first edge after a stop; in a region, map changes and parked orders follow; in a stack
interface domain, the copies of a cast pause and the requests that waited; a stream whose RESUME has come restarts (R73,
R257, R264, R303, R338). A region that Repose or a shutdown stopped
does not restart so. -/
def State.gap (s : State) (d cyc : Nat) : State :=
  let s := (s.toCycle cyc).domainGap d
  if 1 ≤ d && d ≤ 16 then (tilesOfRegion (d - 1)).foldl (fun s t => ((s.niApplyAll t).serveHolds.nodeEdge t).unpark t) s.resumeLate
  else ((s.gapCopies d).serveStops).resumeLate

/-- The domain is stopped and may show an edge. -/
def State.mayGap (s : State) (d : Nat) : Bool :=
  s.life.powered && 1 ≤ d && d ≤ 25 && s.time.stopped.getLsbD d && !s.time.ordered.getLsbD d

/-- VOLTAGE_DROOP: segments of the region are voided, each of its tiles whose clock ran was stretched, and
DROOPS counts while its domain runs (R235, R448, Tables 8.1 and 15.19). -/
def State.droop (s : State) (g : Nat) : State :=
  let s := (if s.powerRegsOn then s.bump (regionReg g 0x188) else s).voidRegion g
  if s.regionStopped g then s
  else (tilesOfRegion g).foldl (fun s t => s.modCore t fun c => { c with sum.droop := c.sum.droop + 1 }) s

/-- REGION_VOLTAGE_SAMPLE (R233, R235). -/
def State.voltage (s : State) (g : Nat) (mv : BitVec 16) : State :=
  let old := s
  let s := s.modRegion g fun x => { x with volt := mv }
  if s.life.frozen then s else s.windowLeft old g

/-- Palalmux answers: MGMT_OK is set, and MGMT_BACK ends a silence (R45, Table 15.17). The ring of a frozen chip
takes no such record (Table 13.6). -/
def State.mgmtAnswer (s : State) : State :=
  let lost := s.life.mgmtLostBeat
  let s := { s with life.mgmtOk := true, life.mgmtLostBeat := 0 }
  if lost == 0 || s.life.frozen then s
  else s.raiseFrom srcPalalmux 0x0004 .info (word (min (s.beat - lost) (2 ^ 32 - 1)))

/-- MGMT_BACK: Palalmux answers the reports and requests that no register answers (log entry 52). The result of a
FUSE_COMMIT request comes by PROG_RESULT, and is still awaited. -/
def State.mgmtBack (s : State) : State :=
  { s with life.mgmtReqs := s.life.mgmtReqs.filter fun r => r.kind == 1 }.mgmtAnswer

/-- Beats that a Palalmux request waits (R45), and that a signature may take (R375). -/
def mgmtBeats : Nat := 12500

/-- A request whose time-out is due: unanswered for 12,500 beats, and not yet reported. -/
def MgmtReq.due (r : MgmtReq) (kind : BitVec 8) : Bool := r.kind == kind.toNat && mgmtBeats ≤ r.waited && !r.lost

/-- The time-out that MGMT_TIMEOUT names is due (R45). -/
def State.mayLose (s : State) (kind : BitVec 8) : Bool := s.life.mgmtReqs.any fun r => r.due kind

/-- MGMT_TIMEOUT: a request has gone unanswered, and Palalmux is unresponsive from here on; a FUSE_COMMIT that runs
ends STATE_ILLEGAL (R45). A frozen chip records no event and completes no order (Table 13.6). -/
def State.mgmtLost (s : State) (kind : BitVec 8) : State :=
  let n := s.life.mgmtReqs.foldl (fun n r => if r.due kind then max n r.waited else n) 0
  let s := { s with life.mgmtOk := false, life.mgmtLostBeat := s.beat
                    life.mgmtReqs := s.life.mgmtReqs.map fun r => if r.due kind then { r with lost := true } else r }
  if s.life.frozen then s
  else
    let s := s.raiseFrom srcPalalmux 0x0003 .fault (pack [(56, 8, kind.toNat), (0, 32, n)])
    s.commitEnd 3 .stateIllegal

/-! ### Meanings: the beat -/

/-- BEAT_TICK. -/
def execBeatTick (energy : List (Nat × Nat)) (s : State) : Host.Outcome State Fault Refusal :=
  doWhen s.life.powered (fun s => s.beatTick energy) s

/-- LINEAGE_CLOSING, cycles 0 to 63. -/
def execLineageClosing (s : State) : Host.Outcome State Fault Refusal :=
  doWhen (s.mayPhase 1 63) (fun s => (s.atPhase 1 0).lineagePhase) s

/-- ORDER_INTAKE, cycles 0 to 255. -/
def execOrderIntake (s : State) : Host.Outcome State Fault Refusal :=
  doWhen (s.mayPhase 2 255) (fun s => if s.life.frozen then s.atPhase 2 0 else (s.atPhase 2 0).intake) s

/-- VERDICT_AGGREGATION, closing at cycle 4,095. -/
def execVerdictAggregation (late : List Nat) (s : State) : Host.Outcome State Fault Refusal :=
  doWhen (s.mayPhase 3 4095) (fun s => if s.ready then (s.atPhase 3 4095).aggregate late else s.atPhase 3 4095) s

/-- LATE_SUMMARY, before the aggregation closes. -/
def execLateSummary (t : Nat) (s : State) : Host.Outcome State Fault Refusal :=
  doWhen (s.ready && s.mayPhase 3 4095) (fun s => s.lateSummary t) s

/-- PATINA_UPDATE, from cycle 4,096. -/
def execPatinaUpdate (s : State) : Host.Outcome State Fault Refusal :=
  doWhen (s.mayPhase 4 5119) (fun s => if s.ready then (s.atPhase 4 4096).patinaUpdate else s.atPhase 4 4096) s

/-- THERMAL_DECISIONS, from cycle 5,120. -/
def execThermalDecisions (s : State) : Host.Outcome State Fault Refusal :=
  doWhen (s.mayPhase 5 5631) (fun s => (s.atPhase 5 5120).thermalPhase) s

/-- COUNTER_SAMPLING, at cycle 5,632. -/
def execCounterSampling (s : State) : Host.Outcome State Fault Refusal :=
  doWhen (s.mayPhase 6 5632) (fun s => if s.up then (s.atPhase 6 5632).samplePhase else s.atPhase 6 5632) s

/-- DISPATCH, from cycle 5,632. -/
def execDispatch (s : State) : Host.Outcome State Fault Refusal :=
  doWhen (s.mayPhase 7 7935) (fun s => (s.atPhase 7 5632).dispatchAll) s

/-- STATUS_POSTING, from cycle 7,936; a taint report that is ready is published in it (R174). -/
def execStatusPosting (s : State) : Host.Outcome State Fault Refusal :=
  doWhen (s.mayPhase 8 8191) (fun s =>
    let s := s.atPhase 8 7936
    (if s.ready then s.taintPublish else s).posting) s

/-- EVENT_HOST_COPY. -/
def execEventHostCopy (s : State) : Host.Outcome State Fault Refusal := doWhen s.life.powered State.hostCopyAll s

/-! ### Meanings: plinth time -/

/-- SYNC_PPS_EDGE. -/
def execSyncPpsEdge (cyc : Nat) (s : State) : Host.Outcome State Fault Refusal :=
  doWhen s.life.powered (fun s => (s.toCycle cyc).ppsEdge) s

/-- PPS_LOST. -/
def execPpsLost (s : State) : Host.Outcome State Fault Refusal := doWhen s.life.powered State.ppsLose s

/-- ELECT, from S4 on. -/
def execElect (advs : List ElectAdv) (s : State) : Host.Outcome State Fault Refusal :=
  doWhen (s.life.powered && 4 ≤ s.life.stage) (fun s => s.elect advs) s

/-- TIMEX, from S4 on. -/
def execTimex (x : Option TimexIn) (s : State) : Host.Outcome State Fault Refusal :=
  doWhen (s.life.powered && 4 ≤ s.life.stage) (fun s => s.timex x) s

/-- TIME_ADOPT: once, when this chip first is a follower during S4, at a tick of the master. -/
def execTimeAdopt (master : Word) (s : State) : Host.Outcome State Fault Refusal :=
  doWhen (s.life.powered && s.life.stage == 4 && s.time.state == 2 && !s.time.adopted && master.toNat % beatCycles == 0)
    (fun s => s.timeAdopt master) s

/-- TIME_MASTER. -/
def execTimeMaster (s : State) : Host.Outcome State Fault Refusal := doWhen s.life.powered State.timeMaster s

/-- DOMAIN_STOP_DETECT. -/
def execDomainStopDetect (d : Nat) (lastEdge : Word) (s : State) : Host.Outcome State Fault Refusal :=
  doWhen s.life.powered (fun s => s.domainStop d lastEdge) s

/-- GAP. -/
def execGap (d cyc : Nat) (s : State) : Host.Outcome State Fault Refusal := doWhen (s.mayGap d) (fun s => s.gap d cyc) s

/-- VOLTAGE_DROOP. -/
def execVoltageDroop (g : Nat) (s : State) : Host.Outcome State Fault Refusal :=
  doWhen (s.live && g < numRegions) (fun s => s.droop g) s

/-- REGION_VOLTAGE_SAMPLE: the domain of the sample's register delivers it (R448). -/
def execRegionVoltageSample (g : Nat) (mv : BitVec 16) (s : State) : Host.Outcome State Fault Refusal :=
  doWhen (s.life.powered && g < numRegions && s.powerRegsOn) (fun s => s.voltage g mv) s

/-! ### Meanings: digests, licences, sample sets, trace and Palalmux -/

/-- DIGEST_SETTLING. -/
def execDigestSettling (k : Nat) (s : State) : Host.Outcome State Fault Refusal :=
  doWhen (s.ready && k < 16 && (s.dslot k).state == 2 && s.digestSettled k) (fun s => s.digestSettle k) s

/-- DIGEST_SETTLE_EXPIRY. -/
def execDigestSettleExpiry (k : Nat) (s : State) : Host.Outcome State Fault Refusal :=
  doWhen (s.ready && k < 16 && (s.dslot k).state == 3 &&
      (s.dslot k).since + fld (s.inForce Reg.digestDigestCtl) 7 0 ≤ s.beat) (fun s => s.digestSign k) s

/-- DIGEST_READY. -/
def execDigestReady (k : Nat) (sigR sigS : BitVec 384) (s : State) : Host.Outcome State Fault Refusal :=
  doWhen (s.ready && k < 16 && (s.dslot k).state == 4) (fun s => s.digestReady k sigR sigS) s

/-- SIGN_TIMEOUT. -/
def execSignTimeout (k : Nat) (s : State) : Host.Outcome State Fault Refusal :=
  doWhen (s.ready && k < 16 && (s.dslot k).state == 4 && (s.dslot k).since + mgmtBeats ≤ s.beat)
    (fun s => s.digestFail k 7 0x7FF) s

/-- LICENCE_VERDICT; no verdict counts as TIMEOUT once 125 beats have passed. -/
def execLicenceVerdict (sigOk : Option Bool) (s : State) : Host.Outcome State Fault Refusal :=
  doWhen (s.live && s.digest.licPending && (sigOk.isSome || s.digest.licBeat + 125 ≤ s.beat)) (fun s => s.licVerdict sigOk) s

/-- SAMPLE_SET_BUILD: with every reply in, or at the posting of the next beat with some late. -/
def execSampleSetBuild (late : List Nat) (s : State) : Host.Outcome State Fault Refusal :=
  doWhen (s.up && s.dbg.sampled && (late.isEmpty || (s.sampleNext.beat < s.beat && s.time.phase == 8)))
    (fun s => s.sampleBuild late) s

/-- TRACE_DRAIN. -/
def execTraceDrain (s : State) : Host.Outcome State Fault Refusal := doWhen s.live State.traceDrain s

/-- MGMT_TIMEOUT, once S1 has completed. -/
def execMgmtTimeout (kind : BitVec 8) (s : State) : Host.Outcome State Fault Refusal :=
  doWhen (s.life.powered && 2 ≤ s.life.stage && s.mayLose kind) (fun s => s.mgmtLost kind) s

/-- MGMT_BACK. -/
def execMgmtBack (s : State) : Host.Outcome State Fault Refusal := doWhen s.life.powered State.mgmtBack s

/-- MSIX_ENTRY_UNMASK. -/
def execMsixEntryUnmask (v : Nat) (s : State) : Host.Outcome State Fault Refusal :=
  doWhen s.life.powered (fun s => s.unmask v) s

end Sys2Proof.Machine
end

