-- ==== Sys2Proof/Machine/RegRead.lean ====
section
/-! DEFINITION. Reading the register window: the value of every register, the header of every page, and
the judgement, latching and clearing that go with a read (R17, R19, R383 to R388, R420, R444 to R451). -/

namespace Sys2Proof.Machine

/-! ### Values of global pages -/

/-- TOP_STATUS.STATE (Table 15.8). -/
def State.topState (s : State) : Nat :=
  if s.life.shutdown then 4 else if s.life.frozen then 3 else if s.inRepose then 2 else if s.life.stage == 5 then 1 else 0

/-- EVT_ANY of a page (Table 15.1). -/
def State.evtAny (s : State) (page : Nat) : Bool :=
  (s.pend page).setWidth 64 &&& ~~~(s.reg (page * 0x1000 + 0x020)) != 0

/-- The pages whose event base is 0x0010 × k (Table 15.4). -/
def pagesOfBase (k : Nat) : List Nat :=
  if k == 8 then (List.range numLayers).map (0x070 + ·) else [eventPage (16 * k) 0 0]

/-- EVT_SUMMARY (Table 15.7). -/
def State.evtSummary (s : State) : Word := bitsWord 0 ((List.range 14).filter fun k => (pagesOfBase k).any s.evtAny)

/-- TOP, Table 15.7. -/
def State.topRead (s : State) (off : Nat) : Word :=
  match off with
  | 0x100 => Config.chipId
  | 0x108 => pack [(61, 3, s.topState), (58, 3, s.life.stage), (57, 1, b2n s.life.degraded), (56, 1, b2n s.life.mgmtOk),
      (55, 1, b2n (bit (s.reg Reg.evtEvtCtl) 0))]
  | 0x110 => s.evtSummary
  | 0x118 => word (s.mgmtWait % 2 ^ 32)
  | _ =>
    match s.ev.firstFatal with
    | some (r, seq) => word (leNat (((recordBytes r seq).drop (off - 0x140)).take 8))
    | none => 0

/-- SYNC_STATUS (Table 2.7). DEPTH above 15 shows modulo 16, which the spec leaves open (DESIGN CHOICE, assumption
46). -/
def State.syncStatus (s : State) : Word :=
  pack [(16, 6, s.time.uplink), (8, 4, s.time.depth), (6, 1, b2n s.time.adopted), (5, 1, b2n s.time.ppsLost),
    (4, 1, b2n s.time.ppsLock), (3, 1, b2n s.time.skewMet), (0, 3, s.time.state)]

/-- BEAT, Table 2.5. -/
def State.beatRead (s : State) (off : Nat) : Word :=
  match off with
  | 0x100 => s.time.time
  | 0x108 => word s.beat
  | 0x118 => s.syncStatus
  | 0x120 => s.time.masterId
  | 0x128 => s.time.offset.setWidth 64
  | 0x130 => s.time.ppsStamp
  | 0x138 => s.time.ppsErr.setWidth 64
  | 0x140 => s.time.adoptStep
  | _ => s.stoppedWord

/-- Half `h` of entry `i` of a status ring. -/
def ringWord (m : Tbl (Word × Word)) (i : Nat) : Word :=
  let e := tget (0, 0) m (i / 2)
  if i % 2 == 0 then e.1 else e.2

/-- Orders of a master that posted ACCEPTED and are not yet final. -/
def State.ordersOut (s : State) (m : OrderMaster) : Nat :=
  (s.ord.orders.filter fun o => o.accepted && o.ref.master == m).length

/-- ORDER, Table 15.16. -/
def State.orderRead (s : State) (off : Nat) : Word :=
  if 0x200 ≤ off && off < 0x400 then s.window ((off - 0x200) / 8)
  else if 0x800 ≤ off && off < 0xC00 then ringWord s.ord.hostRing ((off - 0x800) / 8)
  else if 0xC00 ≤ off then ringWord s.ord.mgmtRing ((off - 0xC00) / 8)
  else
    match off with
    | 0x108 => pack [(40, 8, s.ordersOut .hostk), (32, 8, s.ordersOut .mgmt), (24, 6, s.ord.mgmtNext), (16, 6, s.ord.hostNext)]
    | 0x110 => s.ord.hostWr.setWidth 64
    | _ => s.ord.mgmtWr.setWidth 64

/-- EVT, Table 15.10. -/
def State.evtRead (s : State) (off : Nat) : Word :=
  match off with
  | 0x118 => s.ev.hostWr.setWidth 64
  | 0x128 => word s.ev.held
  | _ => s.ev.lastSeq.setWidth 64

/-- A field of the published report, 0 while there is none. -/
def State.ofReport (s : State) (f : Report → Word) : Word := (s.contain.report.map f).getD 0

/-- CONTAIN, Table 5.7. -/
def State.containRead (s : State) (off : Nat) : Word :=
  if 0x180 ≤ off && off < 0x200 then
    s.ofReport fun r => match tget none r.first ((off - 0x180) / 8) with | some b => pack [(63, 1, 1), (0, 51, b)] | none => 0
  else if 0x200 ≤ off && off < 0x300 then
    s.ofReport fun r => bitsWord (64 * ((off - 0x200) / 8)) (r.tiles.filterMap fun e => e.2.map fun _ => e.1)
  else
    match off with
    | 0x108 => pack [(8, 4, s.contain.queue.length), (1, 1, b2n s.contain.running.isSome), (0, 1, b2n s.contain.waiting)]
    | 0x110 => s.ofReport Report.sum
    | 0x118 => s.ofReport fun r => pack [(53, 11, r.det.tile), (48, 5, r.det.unit), (44, 4, r.det.kind)]
    | 0x120 => s.ofReport fun r => cmdWord r.det.cmd
    | 0x128 => s.ofReport fun r => word r.det.b0
    | 0x130 => s.ofReport fun r => word r.cmin
    | 0x138 => s.ofReport fun r => word r.cmax
    | _ => s.contain.reportCast

/-- SESSION[k] (Table 6.9). -/
def State.sessionWord (s : State) (k : Nat) : Word :=
  match s.session k with
  | some x =>
    pack [(63, 1, 1), (60, 3, x.phase), (48, 11, x.host), (36, 11, x.source), (24, 11, x.referee.getD 0x7FF),
      (0, 24, ((x.cmd.map fun c => c.cseq.toNat)).getD 0xFF_FFFF)]
  | none => 0

/-- MAQ, Table 6.7. -/
def State.maqRead (s : State) (off : Nat) : Word :=
  if 0x200 ≤ off && off < 0x300 then s.sessionWord ((off - 0x200) / 8)
  else if 0x300 ≤ off then bitsWord (64 * ((off - 0x300) / 8)) (allTiles.filter fun t => (s.tile t).maq.eligible)
  else pack [(40, 8, s.maqActive), (32, 8, s.hostCount), (0, 1, b2n s.maq.low)]

/-- CHISEL, Table 7.11. -/
def State.chiselRead (s : State) (off : Nat) : Word :=
  if 0x200 ≤ off then s.slotWord ((off - 0x200) / 8)
  else if off == 0x138 then s.chiselStatus else s.chisel.session.setWidth 64

/-- MAP, Table 8.13. -/
def State.mapRead (s : State) (off : Nat) : Word :=
  if 0x800 ≤ off then
    let l := (off - 0x800) / 2
    pack ((List.range 4).map fun i => (16 * i, 16, s.phys (l + i)))
  else if 0x300 ≤ off then bitsWord (64 * ((off - 0x300) / 8)) ((List.range numLogical).filter s.map.hub.held)
  else if 0x200 ≤ off then bitsWord (64 * ((off - 0x200) / 8)) (allTiles.filter s.fenced)
  else
    match off with
    | 0x100 => s.map.hub.gen.setWidth 64
    | 0x108 => s.mapStatus
    | 0x110 => s.sparesWord
    | 0x120 => s.map.table.getD (fld (s.reg Reg.mapRepairIndex) 8 0) 0
    | _ => s.map.saveSeq

/-- ARM_STATUS (Table 3.12). -/
def State.armStatus (s : State) : Word :=
  pack [(16, 11, s.arm.throttled.length), (2, 1, b2n (s.arm.onAlt != 0)),
    (1, 1, b2n ((List.range numLinks).any s.trained)), (0, 1, b2n s.arm.ondieOk)]

/-- THERM, Table 10.8. -/
def State.thermRead (s : State) (off : Nat) : Word :=
  match off with
  | 0x118 => s.thermStatus
  | 0x120 => s.hottestWord false
  | _ => s.hottestWord true

/-- CAST, Table 11.7. -/
def State.castRead (s : State) (off : Nat) : Word :=
  match off with
  | 0x108 => s.castStatus
  | 0x110 => s.cast.last
  | 0x118 => word s.cast.lastCut
  | 0x120 => s.partnerWord
  | 0x128 => s.mirrorInWord
  | 0x130 => s.storeSpace
  | _ => s.lastPauseWord

/-- The 8 bytes of a byte string at an offset, as a register shows them (R16). -/
def wordAt (bs : List Byte) (off : Nat) : Word := word (leNat ((bs.drop off).take 8))

/-- WSET[w], word 1 (Table 12.13). -/
def WSet.word1 (x : WSet) : Word := pack [(61, 3, x.state), (57, 4, x.reason), (0, 11, if x.state == 3 then x.tile else 0)]

/-- DIGEST, Table 12.13. -/
def State.digestRead (s : State) (m : Requester) (off : Nat) : Word :=
  let slots (p : Nat → Bool) : Nat := (bitsWord 0 ((List.range 16).filter fun k => p (s.dslot k).state)).toNat
  if 0xE00 ≤ off then wordAt (s.recordWindow (s.selSlot m)) (off - 0xE00)
  else if 0x600 ≤ off then word (leNat ((List.range 8).map fun i => Config.certByte (off - 0x600 + i)))
  else if 0x380 ≤ off then wordAt (s.wset ((off - 0x380) / 48)).root ((off - 0x380) % 48)
  else if 0x300 ≤ off then (s.wset ((off - 0x308) / 16)).word1
  else if 0x280 ≤ off then
    let d := s.dslot ((off - 0x280) / 8)
    pack [(60, 4, d.state), (56, 4, d.reason), (24, 24, (d.last.getD 0).toNat), (0, 24, d.first.toNat)]
  else
    match off with
    | 0x100 => s.detKey
    | 0x118 => pack [(32, 16, slots (· == 5)), (16, 16, slots (· == 6)), (0, 16, slots fun x => 1 ≤ x && x ≤ 4)]
    | 0x120 => word (s.selWritten m)
    | _ => (s.dslot (s.selSlot m)).reads.setWidth 64

/-- LICENCE, Table 12.14. -/
def State.licenceRead (s : State) (off : Nat) : Word :=
  match off with
  | 0x108 => pack [(63, 1, b2n s.digest.licPending), (60, 3, s.digest.licReason), (32, 16, s.digest.licCount),
      (0, 32, s.digest.licSerial.toNat)]
  | 0x110 => pack [(32, 5, s.life.pendingReset.toNat), (0, 5, s.life.features.toNat)]
  | _ => Config.chipId

/-- COUNT, Table 13.13. -/
def State.countRead (s : State) (off : Nat) : Word :=
  if 0x200 ≤ off then tget 0 s.dbg.chipSum ((off - 0x200) / 8)
  else
    match off with
    | 0x108 => pack [(32, 32, unread s.dbg.hostWr (s.reg Reg.countHostRd)), (0, 32, s.dbg.setSeq.toNat)]
    | _ => s.dbg.hostWr.setWidth 64

/-- DEBUG, Table 13.15. -/
def State.debugRead (s : State) (off : Nat) : Word :=
  if 0xC00 ≤ off then wordAt s.dbg.readBuf (off - 0xC00)
  else if 0x400 ≤ off then wordAt (s.watch ((off - 0x400) / 192)).2.1 ((off - 0x400) % 192)
  else if 0x140 ≤ off then (s.watch ((off - 0x140) / 8)).1
  else
    let v := s.dbg.readReq
    pack [(63, 1, b2n s.dbg.readValid), (62, 1, b2n s.dbg.readBusy), (60, 2, fld v 63 60), (52, 8, s.dbg.readEntries),
      (16, 5, fld v 20 16), (0, 11, fld v 10 0)]

/-- BRINGUP, Table 14.10, without REPORT. -/
def State.bringupRead (s : State) (off : Nat) : Word :=
  match off with
  | 0x100 => s.stageWord
  | 0x110 => word s.life.readyBeat
  | _ => s.linkSummary

/-- FUSE, Table 15.18. -/
def State.fuseRead (s : State) (off : Nat) : Word :=
  match off with
  | 0x100 => s.fuseStatus
  | 0x108 => word (b2n s.map.progReq)
  | 0x110 => s.map.progEntry
  | 0x118 => word s.map.progSlot
  | 0x128 => s.map.lastError.setWidth 64
  | _ => s.map.tempSpan

/-- A whole number rounded up to 4 KiB. -/
def up4k (n : Nat) : Nat := (n + 4095) / 4096 * 4096

/-- The sections of a dump, by KIND, with their lengths (Table 13.7); `opt` is DUMP_CTL.OPTIONAL. -/
def dumpSections (opt : Nat) : List (Nat × Nat) :=
  [(1, 0x40000), (2, 0x7C000), (3, 0x480000)] ++
  ([(4, 15036 * 1024), (5, 1198080), (6, 0x400000), (7, 3630956544), (8, 1152 * 65536)].filter fun e => opt.testBit (e.1 - 4))

/-- Bytes that the image needs: header, and sections each 4 KiB aligned (R419). -/
def dumpNeeded (opt : Nat) : Nat := (dumpSections opt).foldl (fun a e => up4k a + e.2) 4096

/-- DUMP, Table 13.16. -/
def State.dumpRead (s : State) (off : Nat) : Word :=
  match off with
  | 0x118 => pack [(61, 3, s.dbg.dumpState), (0, 48, s.dbg.dumpBytes)]
  | _ => word (dumpNeeded (fld (s.reg Reg.dumpDumpCtl) 12 8))

/-! ### Values of region, link, layer and tile pages -/

/-- Region page, Tables 10.11 and 15.19. -/
def State.regionRead (s : State) (g off : Nat) : Word :=
  match off with
  | 0x100 => s.throttleWord g
  | 0x110 => s.bandsWord g
  | 0x118 => s.tempWord g
  | 0x180 => (s.region g).volt.setWidth 64
  | _ => (s.region g).energy.setWidth 64

/-- Link page, Tables 13.18 and 14.4. -/
def State.linkRead (s : State) (n off : Nat) : Word :=
  match off with
  | 0x100 => (s.link n).word
  | 0x200 => (s.link n).tx.setWidth 64
  | 0x208 => (s.link n).rx.setWidth 64
  | 0x210 => (s.link n).sentTx.setWidth 64
  | _ => (s.link n).sentRx.setWidth 64

/-- Layer page, Table 9.7 and R330. -/
def State.layerRead (s : State) (l off : Nat) : Word :=
  if 0x400 ≤ off then s.sensorWord (numTiles + l * 288 + (off - 0x400) / 8)
  else if off == 0x108 then s.mrStatus l
  else pack [(32, 11, runtimeEnd l), (16, 11, layerBlocks l), (4, 1, b2n (8 ≤ l)), (0, 4, l)]

/-- MAQ_RATE and MAQ_STATE of a tile (Table 6.10). -/
def State.maqRateWord (s : State) (t : Nat) : Word :=
  let m := (s.tile t).maq
  pack [(12, 1, b2n m.raised), (8, 4, s.effExp t), (0, 4, m.config)]
def MaqTile.stateWord (m : MaqTile) : Word :=
  pack [(20, 1, b2n m.eligible), (9, 11, m.partner), (4, 5, m.slot), (0, 3, m.role)]

/-- DBG_STATE of a tile (Table 13.17). -/
def Core.dbgWord (c : Core) : Word :=
  pack [(60, 4, c.stream), (52, 8, c.stepLeft), (0, 24, ((c.cur.map (·.cseq)).getD c.next).toNat)]

/-- Tile page, Table 15.20. -/
def State.tileRead (s : State) (t off : Nat) : Word :=
  let x := s.tile t
  if 0x100 ≤ off && off < 0x180 then (tget 0 x.page.counters ((off - 0x100) / 8)).setWidth 64
  else if 0x320 ≤ off && off < 0x380 then x.chisel.passWord ((off - 0x320) / 8)
  else
    match off with
    | 0x180 => x.page.tag
    | 0x188 => pack [(32, 32, x.core.stackTrace), (0, 32, x.core.stackSample)]
    | 0x190 => x.core.dbgWord
    | 0x240 => s.castTileRead t
    | 0x248 => x.page.castLast.setWidth 64
    | 0x280 => x.pat.word
    | 0x288 => word x.pat.beat
    | 0x290 => s.mapState t
    | 0x300 => x.chisel.word
    | 0x308 => if s.life.stage == 5 then word (s.chiselDueAt t) else 0
    | 0x310 => x.chisel.rowBad.setWidth 64
    | 0x318 => (x.chisel.rowBad >>> 64).setWidth 64
    | 0x380 => s.taintState t
    | 0x388 => s.taintBeat t
    | 0x390 => s.taintCmd t
    | 0x398 => (s.linLast t).setWidth 64
    | 0x3A0 => (s.linLast t >>> 64).setWidth 64
    | 0x3C0 => s.maqRateWord t
    | 0x3C8 => x.maq.stateWord
    | 0x3D0 => x.maq.counts
    | _ => s.sensorWord t

/-! ### Any register -/

/-- The page shows STALE: a domain that holds registers of it is stopped (R448). -/
def State.stale (s : State) (page : Nat) : Bool :=
  match pageKind page with
  | 1 => s.time.stopped.getLsbD 24
  | 2 => s.time.stopped.getLsbD (17 + (page - 0x040) / 12)
  | 3 => s.time.stopped.getLsbD 21 || s.time.stopped.getLsbD 22
  | _ => false

/-- PAGE_STATUS (Table 15.1). -/
def State.pageStatus (s : State) (page : Nat) : Nat :=
  packNat [(2, 1, b2n (s.stale page)), (1, 1, b2n (bit (s.reg (page * 0x1000 + 0x028)) 0)), (0, 1, b2n (s.evtAny page))]

/-- The value of a read-only register of a page's body. -/
def State.bodyRead (s : State) (m : Requester) (page off : Nat) : Word :=
  match page with
  | 0x00 => s.topRead off
  | 0x01 => s.beatRead off
  | 0x02 => s.orderRead off
  | 0x03 => s.evtRead off
  | 0x04 => s.ev.lastDenied
  | 0x05 => word ((s.tiles.filter fun e => e.2.core.halted && e.2.core.sealHalt).length)
  | 0x06 => s.containRead off
  | 0x07 => s.maqRead off
  | 0x08 => s.chiselRead off
  | 0x09 => s.levelCount
  | 0x0A => s.mapRead off
  | 0x0B => s.armStatus
  | 0x0C => s.thermRead off
  | 0x0D => s.castRead off
  | 0x0E => s.digestRead m off
  | 0x0F => s.licenceRead off
  | 0x10 => s.countRead off
  | 0x11 => if off == 0x120 then s.dbg.trWr else word s.dbg.trBuf.length
  | 0x12 => s.debugRead off
  | 0x13 => if 0x140 ≤ off then s.reg (0x13000 + off) else s.bringupRead off
  | 0x14 => if off == 0x100 then s.powerState else s.life.lastWake
  | 0x15 => s.fuseRead off
  | 0x16 => s.dumpRead off
  | _ =>
    match pageKind page with
    | 1 => s.regionRead (pageInstance page) off
    | 2 => s.linkRead (pageInstance page) off
    | 3 => s.layerRead (pageInstance page) off
    | _ => s.tileRead (pageInstance page) off

/-- Registers of the window that hold a field of their own although they may be written: the order slots and
RECORD_SEL. -/
def ownField (page off : Nat) : Bool := (page == 0x002 && 0x200 ≤ off && off < 0x400) || (page == 0x00E && off == 0x120)

/-- Word 0 of an SROUTE entry shows whether the entry is on its alternate (Table 3.16). -/
def isSroute0 (k : Nat) : Bool := Reg.armSrouteW0 ≤ k && k < Reg.armSrouteW0 + 1024 && (k - Reg.armSrouteW0) % 16 == 0
def State.srouteRead (s : State) (k : Nat) : Word :=
  setFld (s.reg k) 62 62 (b2n (s.onAlt ((k - Reg.armSrouteW0) / 16)))

/-- The value that the 8 bytes at an aligned offset of an existing page show to a master that may read them. The
SEED of R187 shows 0 to every master, XSEED to all but HOSTK and MGMT; a write-only register shows 0 (R17). -/
def State.regRead (s : State) (m : Requester) (page off : Nat) : Word :=
  let k := page * 0x1000 + off
  if off == 0x000 then word (pageIdWord page + 2 ^ 32 * 0x0001_0000)
  else if off == 0x008 then word (pageCapsWord page + 2 ^ 32 * s.pageStatus page)
  else if off == 0x018 then (s.pend page).setWidth 64
  else if 0x040 ≤ off && off < 0x080 then s.pageEntry page ((off - 0x040) / 8)
  else if k == Reg.maqSeed then 0
  else if k == Reg.chiselXseed && m.cls != .hostk && m.cls != .mgmt then 0
  else
    match findRow page off with
    | none => 0
    | some r =>
      match r.acc with
      | .wo => 0
      | .ro => s.bodyRead m page off
      | .rc => if pageKind page == 4 then s.tileRead (pageInstance page) off else s.reg k
      | _ => if ownField page off then s.bodyRead m page off else if isSroute0 k then s.srouteRead k else s.reg k

/-- The offset is a register's: not reserved (R446). -/
def offsetExists (page off : Nat) : Bool :=
  (findRow page off).isSome || ((off == 0x000 || off == 0x008) && pageExists page)

/-- A register clears when it is read (R17). -/
def isRc (page off : Nat) : Bool := ((findRow page off).map fun r => r.acc == .rc).getD false

/-- Clear an RC register. -/
def State.rcClear (s : State) (page off : Nat) : State :=
  if pageKind page == 4 then s.modMaq (pageInstance page) fun m => { m with counts := 0 }
  else s.setReg (page * 0x1000 + off) 0

/-- The size and alignment of an access that the window accepts, on a page that exists (R445, R446). -/
def accessOk (page off size : Nat) : Bool :=
  (size == 4 || size == 8) && off % size == 0 && off < 0x1000 && pageExists page

/-- A read of bytes 0 to 7 of a READY record counts (R378). -/
def State.countRecordRead (s : State) (m : Requester) (page off size : Nat) : State :=
  let k := s.selSlot m
  if page == 0x00E && off == 0xE00 && size == 8 && (s.dslot k).state == 5 then
    s.modDslot k fun d => { d with reads := BitVec.ofNat 32 (min (d.reads.toNat + 1) (2 ^ 32 - 1)) }
  else s

/-- The latch of a master for the register at window offset `k` (R77, R445). -/
def State.latchKey (s : State) (m : Requester) (k : Nat) : Nat := s.selKey m * 2 ^ 24 + k
def State.latch (s : State) (m : Requester) (k : Nat) : Option (BitVec 32) := tget none s.latches (s.latchKey m k)
def State.setLatch (s : State) (m : Requester) (k : Nat) (v : Option (BitVec 32)) : State :=
  { s with latches := tset none s.latches (s.latchKey m k) v }

/-- A permitted 4-byte read: the lower half latches the upper one for this master, and its next read of that
upper half returns what was latched; the 4-byte registers of the header latch nothing (R445, R449). -/
def State.halfRead (s : State) (m : Requester) (page off : Nat) : State :=
  let v := s.regRead m page (off - off % 8)
  let k := page * 0x1000 + off / 8 * 8
  let hi : BitVec 32 := (v >>> 32).setWidth 32
  if off % 8 == 0 then
    let s := { s with data := word (v.toNat % 2 ^ 32) }
    let s := if off < 0x010 then s else s.setLatch m k (some hi)
    if isRc page off then s.rcClear page off else s
  else
    match s.latch m k with
    | some h => { s with data := h.setWidth 64 }.setLatch m k none
    | none => { s with data := hi.setWidth 64 }

/-- A permitted 8-byte read. -/
def State.wholeRead (s : State) (m : Requester) (page off : Nat) : State :=
  let s := { s with data := s.regRead m page off }
  if isRc page off then s.rcClear page off else s

/-- A read of the window: refused shapes and reserved offsets answer 0; a denied read answers 0 and has no
effect but its denial (R386, R446). -/
def State.readAccess (s : State) (m : Requester) (page off size : Nat) : State :=
  if !accessOk page off size then { s with data := 0 }
  else if !s.permits m page off false then { s.deny m false false page off with data := 0 }
  else if !offsetExists page (off - off % 8) then { s with data := 0 }
  else
    let r := if size == 8 then s.wholeRead m page off else s.halfRead m page off
    r.countRecordRead m page off size

/-! ### Meanings -/

/-- RC_READ: of an RC register. -/
def execRcRead (m : Requester) (page off size : Nat) (s : State) : Host.Outcome State Fault Refusal :=
  doWhen (s.life.powered && isRc page (off - off % 8)) (fun s => s.readAccess m page off size) s

/-- HALF_READ_LATCH. -/
def execHalfReadLatch (m : Requester) (page off : Nat) (s : State) : Host.Outcome State Fault Refusal :=
  doWhen s.life.powered (fun s => s.readAccess m page off 4) s

/-- RECORD_READ: in the record window. -/
def execRecordRead (m : Requester) (off size : Nat) (s : State) : Host.Outcome State Fault Refusal :=
  doWhen (s.life.powered && off < 0x200) (fun s => s.readAccess m 0x00E (0xE00 + off) size) s

end Sys2Proof.Machine
end

