-- ==== Sys2Proof/Machine/RegWrite.lean ====
section
/-! DEFINITION. Writing the register window: judgement, access codes, each register's own rule and what a
write sets going; the order window, the licence, weights sets, injections and the test access port (R17 to
R20, R156, R175, R378, R381, R387, R409, R418, R421, R436, R445 to R447, R451, R457, R461, R467, R469). -/

namespace Sys2Proof.Machine

/-! ### Who may write what -/

/-- An entry of an access table at this offset of the page: its class, and whether it is a layer's memory table
(Table 15.1, Table 9.7). -/
def entryAt (page off : Nat) : Option (Nat × Bool) :=
  if 0x040 ≤ off && off < 0x080 then some ((off - 0x040) / 8, false)
  else if pageKind page == 3 && 0x180 ≤ off && off < 0x1C0 then some ((off - 0x180) / 8, true)
  else none

/-- The write is permitted: entries of access tables have writers of their own (R387), as do the two ring
pointers of the order page and the maquette seed (R467, R187); everything else follows the page's table. -/
def State.mayWrite (s : State) (m : Requester) (page off : Nat) : Bool :=
  match entryAt page off with
  | some (c, _) => entryWriter m.cls c
  | none => s.permits m page off true

/-- The write goes to an entry of an access table that ignores writes (R387). -/
def writeIgnored (page off : Nat) : Bool :=
  match entryAt page off with
  | some (c, mem) => entryIgnores page c mem
  | none => false

/-- Masters that a register names as its only writers; the write of another has no effect. -/
def onlyWriter (m : Requester) (k : Nat) : Bool :=
  if k == Reg.orderHostRd then m.cls == .hostk
  else if k == Reg.orderMgmtRd then m.cls == .mgmt
  else if k == Reg.maqSeed || k == Reg.chiselXseed then m.cls == .hostk || m.cls == .mgmt
  else true

/-- What a frozen chip still lets a write do (R447). -/
def frozenWritable (page off : Nat) : Bool :=
  page == 0x016 || page * 0x1000 + off == Reg.debugReadReq || off == 0x018

/-- The 64 bits that a write of `size` bytes at an offset leaves, before masking: a 4-byte write replaces one
half of the present value. -/
def mergeHalf (old : Word) (off size : Nat) (v : Word) : Word :=
  if size == 8 then v
  else if off % 8 == 0 then setFld old 31 0 (fld v 31 0)
  else setFld old 63 32 (fld v 31 0)

/-- Only defined bits are written (R20). -/
def masked (mask old new : Word) : Word := (new &&& mask) ||| (old &&& ~~~mask)

/-! ### The order window (R461) -/

/-- A window write is ignored, counted, and the beat's first raises WINDOW_MISUSE. -/
def State.windowMisuse (s : State) (m : Requester) (slot reason : Nat) : State :=
  let src := if m.cls == .mgmt then srcPalalmux else srcHostIf
  let r := (s.bump Reg.orderIgnoredWrites).recordFrom src 0x0005 .note (pack [(60, 4, reason), (48, 6, slot)])
  { r.2 with ev.misuse := r.2.ev.misuse.add r.1 }

/-- The slot belongs to the master that writes it. -/
def ownSlot (m : Requester) (slot : Nat) : Bool :=
  if slot < 56 then m.cls == .hostk else m.cls == .mgmt

/-- A write to a slot: an order enters an empty slot of its master's own, and waits for the next intake that
follows a tick (R65, R461). -/
def State.windowWrite (s : State) (m : Requester) (slot size : Nat) (v : Word) : State :=
  if size != 8 then s.windowMisuse m slot 1
  else if !ownSlot m slot then s.windowMisuse m slot 2
  else if s.window slot != 0 then s.windowMisuse m slot 3
  else if v == 0 then s.windowMisuse m slot 4
  else { s with ord.window := tset 0 s.ord.window slot v, ord.waiting := slot :: s.ord.waiting.filter (· != slot) }

/-! ### What a write sets going -/

/-- RESET_REQ: always refused (R436). -/
def State.resetRefused (s : State) (v : Word) : State :=
  (s.bump Reg.bringupResetsRefused).raiseFrom srcHostIf 0x00D5 .note (pack [(60, 4, fld v 63 60), (0, 11, fld v 10 0)])

/-- DUMP_CTL: OPTIONAL is stored, and GO starts the dump of a frozen chip (R418). A GO of firmware is Palalmux's
answer to the freeze indication (R45, Table 1.5). -/
def State.dumpCtl (s : State) (m : Requester) (v : Word) : State :=
  let s := s.setReg Reg.dumpDumpCtl (masked 0x1F00 0 v)
  if bit v 0 && s.life.frozen && s.dbg.dumpState != 1 && fld (s.reg Reg.dumpDumpBase) 11 0 == 0 then
    let s := { s with dbg.dumpState := 1, dbg.dumpBytes := 0 }
    if m.cls = .mgmt then (s.mgmtDone 2).mgmtAnswer else s
  else s

/-- FW_READY: heeded during S1 only (R429). Firmware's write is an answer of Palalmux. -/
def State.fwReady (s : State) (m : Requester) (v : Word) : State :=
  if bit v 0 && s.life.stage == 1 then
    let s := { s with life.fwReady := true }
    if m.cls = .mgmt then (s.mgmtDone 3).mgmtAnswer else s
  else s

/-- A write-only register acts on the value (R17). -/
def State.writeOnly (s : State) (m : Requester) (k : Nat) (v : Word) : State :=
  if k == Reg.containReportAck then s.reportAck v
  else if k == Reg.licenceLicCtl then s.licInstall v
  else if k == Reg.debugReadReq then s.readRequest v
  else if k == Reg.bringupFwReady then s.fwReady m v
  else if k == Reg.bringupResetReq then s.resetRefused v
  else if k == Reg.fuseProgResult then (if s.map.progReq && bit v 63 then s.mgmtAnswer.progResult v else s)
  else s

/-- What follows the storing of a register: HOST_EN copies every record still held (R457), and a WSET definition
takes effect at the next tick (R371, R372). -/
def State.afterStore (s : State) (k : Nat) (old v : Word) : State :=
  if k == Reg.evtEvtCtl && !bit old 0 && bit v 0 then s.hostCopyAll
  else if k == Reg.countHostRd then s.countFall v
  else if k == Reg.traceHostRd then s.traceFall v
  else if Reg.digestWsetW0 ≤ k && k < Reg.digestWsetW0 + 16 * 8 && (k - Reg.digestWsetW0) % 16 == 0 then
    { s with digest.setNext := tset none s.digest.setNext ((k - Reg.digestWsetW0) / 16) (some v) }
  else s

/-- A register that stores what its rule lets it store. -/
def State.storeReg (s : State) (page off : Nat) (old new : Word) : State :=
  match s.fieldRule page off old new with
  | some v => (s.setReg (page * 0x1000 + off) v).afterStore (page * 0x1000 + off) old v
  | none => s

/-- A permitted write to the register at `off8`: by its access code (R17, R18, R451). -/
def State.regWrite (s : State) (m : Requester) (page off size : Nat) (v : Word) (r : RegRow) : State :=
  let off8 := off - off % 8
  let k := page * 0x1000 + off8
  let old := s.reg k
  match r.acc with
  | .ro | .rc => s
  | .w1c =>
    let bits : BitVec 16 := (mergeHalf 0 off size v).setWidth 16
    { s with ev.pend := tset 0 s.ev.pend page (s.pend page &&& ~~~bits) }
  | .wo => s.writeOnly m k (masked r.mask 0 (mergeHalf 0 off size v))
  | acc =>
    if acc == .lk && bit (s.reg (page * 0x1000 + 0x028)) 0 then s
    else if page == 0x002 && 0x200 ≤ off8 && off8 < 0x400 then s.windowWrite m ((off8 - 0x200) / 8) size v
    else
      let new := masked r.mask old (mergeHalf old off size v)
      if k == page * 0x1000 + 0x028 then (if bit new 0 then s.setReg k 1 else s)
      else if k == Reg.dumpDumpCtl then s.dumpCtl m (mergeHalf old off size v)
      else if page == 0x00E && off8 == 0x120 then
        { s with digest.selNext := tset none s.digest.selNext (s.selKey m)
                   (some (fld (mergeHalf (word (s.selWritten m)) off size v) 3 0)) }
      else s.storeReg page off8 old new

/-- A write to the window: refused shapes and reserved offsets have no effect, a denied write only its denial,
and a frozen chip ignores all but what its rule names (R386, R446, R447). -/
def State.writeAccess (s : State) (m : Requester) (page off size : Nat) (v : Word) : State :=
  if !accessOk page off size then s
  else if !s.mayWrite m page off then s.deny m true false page off
  else if writeIgnored page off then s
  else if s.life.frozen && !frozenWritable page (off - off % 8) then s
  else if !onlyWriter m (page * 0x1000 + (off - off % 8)) then s
  else
    match findRow page (off - off % 8) with
    | some r => if off < 0x010 then s else s.regWrite m page off size v r
    | none => s

/-! ### The test access port (R421) -/

/-- TAP_EN. -/
def State.tapOn (s : State) : Bool := bit (s.reg Reg.debugDbgCtl) 0

/-- The test access port as a master. -/
def tapMaster : Requester := { cls := .debug }

/-- Page, offset and size that CHM_ADDR names. -/
def State.tapPage (s : State) : Nat := (s.dbg.tapAddr.toNat % 2 ^ 24) / 0x1000
def State.tapOff (s : State) : Nat := s.dbg.tapAddr.toNat % 0x1000
def State.tapSize (s : State) : Nat := if s.dbg.tapAddr.getLsbD 24 then 8 else 4

/-- CHM_DATA, Capture-DR: the read that CHM_ADDR names; DENIED shows whether it was refused. -/
def State.tapCapture (s : State) : State :=
  let denied := accessOk s.tapPage s.tapOff s.tapSize && !s.permits tapMaster s.tapPage s.tapOff false
  let s := s.readAccess tapMaster s.tapPage s.tapOff s.tapSize
  { s with dbg.tapData := s.data, dbg.tapDenied := denied }

/-- CHM_DATA, Update-DR: the write that CHM_ADDR names. -/
def State.tapUpdate (s : State) (v : Word) : State :=
  let denied := accessOk s.tapPage s.tapOff s.tapSize && !s.mayWrite tapMaster s.tapPage s.tapOff
  { s.writeAccess tapMaster s.tapPage s.tapOff s.tapSize v with dbg.tapDenied := denied }

/-! ### Meanings -/

/-- A write of the window as one of the table's rows. -/
def writeRow (m : Requester) (page off size : Nat) (v : Word) (s : State) : Host.Outcome State Fault Refusal :=
  doWhen s.life.powered (fun s => s.writeAccess m page off size v) s

/-- REGISTER_WRITE. -/
def execRegisterWrite (m : Requester) (page off size : Nat) (v : Word) (s : State) : Host.Outcome State Fault Refusal :=
  writeRow m page off size v s

/-- FW_READY: BRINGUP 0x108. -/
def execFwReady (m : Requester) (v : Word) (s : State) : Host.Outcome State Fault Refusal :=
  writeRow m 0x013 0x108 8 v s

/-- ORDER_WINDOW_WRITE: ORDER 0x200 + 8 × slot. -/
def execOrderWindowWrite (m : Requester) (slot size : Nat) (v : Word) (s : State) : Host.Outcome State Fault Refusal :=
  doWhen (s.life.powered && slot < 64) (fun s => s.writeAccess m 0x002 (0x200 + 8 * slot) size v) s

/-- ORDER_RD_WRITE: ORDER 0x118 or 0x128. -/
def execOrderRdWrite (m : Requester) (mgmtRing : Bool) (v : Word) (s : State) : Host.Outcome State Fault Refusal :=
  writeRow m 0x002 (if mgmtRing then 0x128 else 0x118) 8 v s

/-- EVT_HOST_RD_WRITE: EVT 0x120. -/
def execEvtHostRdWrite (m : Requester) (v : Word) (s : State) : Host.Outcome State Fault Refusal :=
  writeRow m 0x003 0x120 8 v s

/-- EVT_HOST_ENABLE: EVT 0x100. -/
def execEvtHostEnable (m : Requester) (v : Word) (s : State) : Host.Outcome State Fault Refusal :=
  writeRow m 0x003 0x100 8 v s

/-- COUNT_HOST_RD_WRITE: COUNT 0x128. -/
def execCountHostRdWrite (m : Requester) (v : Word) (s : State) : Host.Outcome State Fault Refusal :=
  writeRow m 0x010 0x128 8 v s

/-- TRACE_HOST_RD_WRITE: TRACE 0x128. -/
def execTraceHostRdWrite (m : Requester) (v : Word) (s : State) : Host.Outcome State Fault Refusal :=
  writeRow m 0x011 0x128 8 v s

/-- W1C_WRITE: PAGE_EVT_PEND of a page. -/
def execW1cWrite (m : Requester) (page : Nat) (v : Word) (s : State) : Host.Outcome State Fault Refusal :=
  writeRow m page 0x018 8 v s

/-- PAGE_LOCK of a page, written 1. -/
def execPageLock (m : Requester) (page : Nat) (s : State) : Host.Outcome State Fault Refusal :=
  writeRow m page 0x028 8 1 s

/-- INJECT_ARM: SEAL 0x160 with a KIND other than 0. -/
def execInjectArm (m : Requester) (v : Word) (s : State) : Host.Outcome State Fault Refusal :=
  doWhen (s.life.powered && fld v 21 19 != 0) (fun s => s.writeAccess m 0x005 0x160 8 v) s

/-- INJECT_DISARM: SEAL 0x160 with KIND 0. -/
def execInjectDisarm (m : Requester) (v : Word) (s : State) : Host.Outcome State Fault Refusal :=
  writeRow m 0x005 0x160 8 (setFld v 21 19 0) s

/-- REPORT_ACK: CONTAIN 0x140. -/
def execReportAck (m : Requester) (v : Word) (s : State) : Host.Outcome State Fault Refusal :=
  writeRow m 0x006 0x140 8 v s

/-- HANG_READ_REQ: DEBUG 0x108 with KIND HANG. -/
def execHangReadReq (m : Requester) (v : Word) (s : State) : Host.Outcome State Fault Refusal :=
  writeRow m 0x012 0x108 8 (setFld v 63 60 0) s

/-- STATE_READ_REQ: DEBUG 0x108 with KIND STATE. -/
def execStateReadReq (m : Requester) (v : Word) (s : State) : Host.Outcome State Fault Refusal :=
  writeRow m 0x012 0x108 8 (setFld v 63 60 1) s

/-- DUMP_GO: DUMP 0x100 with GO. -/
def execDumpGo (m : Requester) (v : Word) (s : State) : Host.Outcome State Fault Refusal :=
  writeRow m 0x016 0x100 8 (setFld v 0 0 1) s

/-- LICENCE_INSTALL: LICENCE 0x100. -/
def execLicenceInstall (m : Requester) (v : Word) (s : State) : Host.Outcome State Fault Refusal :=
  writeRow m 0x00F 0x100 8 v s

/-- RESET_REQ: BRINGUP 0x128. -/
def execResetReq (m : Requester) (v : Word) (s : State) : Host.Outcome State Fault Refusal :=
  writeRow m 0x013 0x128 8 v s

/-- MR_WRITE: descriptor `k` of a layer. -/
def execMrWrite (m : Requester) (layer k : Nat) (v : Word) (s : State) : Host.Outcome State Fault Refusal :=
  doWhen (s.life.powered && layer < numLayers && k < 8)
    (fun s => s.writeAccess m (0x070 + layer) (0x200 + 8 * k) 8 v) s

/-- WSET_WRITE_VALID: WSET[w] word 0 with VALID 1. -/
def execWsetWriteValid (m : Requester) (w : Nat) (v : Word) (s : State) : Host.Outcome State Fault Refusal :=
  doWhen (s.life.powered && w < 8) (fun s => s.writeAccess m 0x00E (0x300 + 16 * w) 8 (setFld v 63 63 1)) s

/-- WSET_RETIRE: WSET[w] word 0 with VALID 0. -/
def execWsetRetire (m : Requester) (w : Nat) (v : Word) (s : State) : Host.Outcome State Fault Refusal :=
  doWhen (s.life.powered && w < 8) (fun s => s.writeAccess m 0x00E (0x300 + 16 * w) 8 (setFld v 63 63 0)) s

/-- FUSE_PROG_RESULT: FUSE 0x120. -/
def execFuseProgResult (m : Requester) (v : Word) (s : State) : Host.Outcome State Fault Refusal :=
  writeRow m 0x015 0x120 8 v s

/-- TAP_CHM_ADDR: while TAP_EN is 0 the instruction selects the bypass register. -/
def execTapChmAddr (bits : BitVec 26) (s : State) : Host.Outcome State Fault Refusal :=
  doWhen (s.life.powered && s.tapOn) (fun s => { s with dbg.tapAddr := bits }) s

/-- TAP_CHM_DATA_CAPTURE. -/
def execTapChmDataCapture (s : State) : Host.Outcome State Fault Refusal :=
  doWhen (s.life.powered && s.tapOn && !s.dbg.tapAddr.getLsbD 25) State.tapCapture s

/-- TAP_CHM_DATA_UPDATE. -/
def execTapChmDataUpdate (v : Word) (s : State) : Host.Outcome State Fault Refusal :=
  doWhen (s.life.powered && s.tapOn && s.dbg.tapAddr.getLsbD 25) (fun s => s.tapUpdate v) s

end Sys2Proof.Machine
end

