-- ==== Sys2Proof/Machine/Dump.lean ====
section
/-! DEFINITION. The firmware dump: the sections of the image, its header and its end (R418 to R420, Table 13.7). -/

namespace Sys2Proof.Machine

/-- Bytes `bs` made `n` bytes long, zeros following. -/
def padTo (n : Nat) (bs : List Byte) : List Byte := (bs ++ List.replicate (n - bs.length) 0).take n

/-- The bytes of a page as a dump shows them: what MGMT would read, without a side effect (R420). -/
def State.pageBytes (s : State) (page : Nat) : List Byte :=
  (List.range 512).flatMap fun i => leBytes 8 (s.regRead { cls := .mgmt } page (8 * i)).toNat

/-- The 8,192 places of the event ring. -/
def State.eventBytes (s : State) : List Byte :=
  (List.range 8192).flatMap fun i =>
    match tget none s.ev.store i with
    | some e => recordBytes e.1 e.2
    | none => List.replicate 32 0

/-- A node's 65 lineage records: the 64 of the horizon, oldest first, then the open one (R163). -/
def State.lineageBytes (s : State) (t : Nat) : List Byte :=
  let b := s.contain.lastClosed.getD 0
  let c := (s.tile t).core
  ((List.range 64).flatMap fun i => leBytes 16 (if b + i < 63 then linEmpty 0 else c.linRec (b + i - 63)).toNat) ++
  leBytes 16 (linWord (b + 1) c.lin).toNat

/-- A tile's SRAM image and its 768 seal words. -/
def State.sramImage (s : State) (t : Nat) : List Byte :=
  (List.range sramBlocks).flatMap (s.sramBytes t) ++
  (List.range sramBlocks).flatMap fun i => leBytes 8 (s.sramSeal t i).toNat

/-- A tile's commit staging: sixteen blocks. -/
def State.stagingBytes (s : State) (t : Nat) : List Byte :=
  padTo 65536 ((s.tile t).core.staging.flatMap fun (h : Held) => packBlock h.fmt.toNat h.elems)

/-- The bytes of the section of a KIND (Table 13.7). -/
def State.sectionBytes (s : State) (kind : Nat) : List Byte :=
  let ring (r : Nat) := padTo 1024 (s.ringBytes r)
  match kind with
  | 1 => s.eventBytes
  | 2 => (List.range 0x07C).flatMap s.pageBytes
  | 3 => (List.range numTiles).flatMap fun t => s.pageBytes (0x400 + t)
  | 4 => (List.range numTiles).flatMap (fun t => (List.range 13).flatMap fun u => ring (ringTile t u)) ++
         (List.range numLinks).flatMap (fun n => ring (ringLink n)) ++
         (List.range numLayers).flatMap (fun l => ring (ringLayer l))
  | 5 => (List.range numTiles).flatMap s.lineageBytes
  | 6 => padTo traceBufBytes s.dbg.trBuf
  | 7 => (List.range numTiles).flatMap s.sramImage
  | _ => (List.range numTiles).flatMap s.stagingBytes

/-- The selected sections with their offsets: (KIND, OFFSET, LENGTH), each 4 KiB aligned (R419). -/
def dumpPlan (opt : Nat) : List (Nat × Nat × Nat) :=
  ((dumpSections opt).foldl (fun (a : Nat × List (Nat × Nat × Nat)) e =>
    let off := up4k a.1
    (off + e.2, a.2 ++ [(e.1, off, e.2)])) (4096, [])).2

/-- DUMP_CTL.OPTIONAL. -/
def State.dumpOpt (s : State) : Nat := fld (s.reg Reg.dumpDumpCtl) 12 8

/-- The sections that DUMP_SIZE holds, in order, up to the first that does not fit. -/
def State.dumpFits (s : State) : List (Nat × Nat × Nat) :=
  (dumpPlan s.dumpOpt).takeWhile fun e => e.2.1 + e.2.2 ≤ (s.reg Reg.dumpDumpSize).toNat

/-- The first selected section that does not fit, if any. -/
def State.dumpCut (s : State) : Option (Nat × Nat × Nat) := (dumpPlan s.dumpOpt)[s.dumpFits.length]?

/-- DUMP_SIZE holds the header. -/
def State.dumpHeaderFits (s : State) : Bool := decide (4096 ≤ (s.reg Reg.dumpDumpSize).toNat)

/-- A directory entry (R419). -/
def dirEntry (kind flags off len : Nat) (crc : Word) : List Byte :=
  leBytes 2 kind ++ leBytes 2 flags ++ leBytes 4 0 ++ leBytes 8 off ++ leBytes 8 len ++ leBytes 8 crc.toNat

/-- The 4 KiB header: of a section that was cut, LENGTH and CRC are free values `len` and `crc` (R419). -/
def State.dumpHeader (s : State) (len crc : Word) : List Byte :=
  let cut := match s.dumpCut with
    | some e => dirEntry e.1 1 e.2.1 len.toNat crc
    | none => []
  let first := match s.ev.firstFatal with
    | some e => recordBytes e.1 e.2
    | none => []
  padTo 4096 (padTo 512 (leBytes 8 1 ++ leBytes 8 Config.chipId.toNat ++ leBytes 8 s.life.freezeTime.toNat ++
    leBytes 8 0 ++ first) ++
    (s.dumpFits.flatMap fun e => dirEntry e.1 0 e.2.1 e.2.2 (crc64 (s.sectionBytes e.1))) ++ cut)

/-- The image reaches host memory: the header, and each section that fits, at DUMP_BASE; bytes written end with
the last of them. -/
def State.dumpWrite (s : State) (state : Nat) : State :=
  let base := (s.reg Reg.dumpDumpBase).toNat
  let len := s.draw
  let crc := len.2.draw
  let s' := (s.hostWrite base (s.dumpHeader len.1 crc.1))
  let s' := s.dumpFits.foldl (fun w e => w.hostWrite (base + e.2.1) (s.sectionBytes e.1)) s'
  { s' with free := crc.2.free, dbg.dumpState := state
            dbg.dumpBytes := (s.dumpFits.getLast?.map fun e => e.2.1 + e.2.2).getD 4096 }

/-- The dump ends (R418): whole; cut at the section named, 0 being the header; or with a failed write, after
which the count of bytes written is a free value. An end that DUMP_SIZE does not give is none. -/
def State.dumpEnd (s : State) : DumpEnd → State
  | .done => if s.dumpHeaderFits && s.dumpCut.isNone then s.dumpWrite 2 else s
  | .truncated k =>
    if !s.dumpHeaderFits then
      if k == 0 then { s with dbg.dumpState := 3, dbg.dumpBytes := 0 } else s
    else
      match s.dumpCut with
      | some e => if e.1 == k then s.dumpWrite 3 else s
      | none => s
  | .error => let d := s.draw; { d.2 with dbg.dumpState := 4, dbg.dumpBytes := d.1.toNat % 2 ^ 48 }

/-- DUMP_DONE. -/
def execDumpDone (e : DumpEnd) (s : State) : Host.Outcome State Fault Refusal :=
  doWhen (s.life.powered && s.life.frozen && s.dbg.dumpState == 1) (fun s => s.dumpEnd e) s

end Sys2Proof.Machine
end

