-- ==== Sys2Proof/Machine/Dispatch.lean ====
section
/-! DEFINITION. The dispatch: one arm per constructor of Instr, each a direct call of its meaning. -/

namespace Sys2Proof.Machine

def exec (i : Instr) (s : State) : Host.Outcome State Fault Refusal :=
  match i with
  | .plinthPowerGood arg => Sys2Proof.Machine.execPlinthPowerGood arg s
  | .wholeChipReset arg => Sys2Proof.Machine.execWholeChipReset arg s
  | .stageS1 arg => Sys2Proof.Machine.execStageS1 arg s
  | .stageS2 arg => Sys2Proof.Machine.execStageS2 arg s
  | .stageS3 => Sys2Proof.Machine.execStageS3 s
  | .stageS4 links => Sys2Proof.Machine.execStageS4 links s
  | .stageLimit i1 i2 links => Sys2Proof.Machine.execStageLimit i1 i2 links s
  | .fwReady m v => Sys2Proof.Machine.execFwReady m v s
  | .beatTick energy => Sys2Proof.Machine.execBeatTick energy s
  | .lineageClosing => Sys2Proof.Machine.execLineageClosing s
  | .orderIntake => Sys2Proof.Machine.execOrderIntake s
  | .verdictAggregation late => Sys2Proof.Machine.execVerdictAggregation late s
  | .lateSummary t => Sys2Proof.Machine.execLateSummary t s
  | .patinaUpdate => Sys2Proof.Machine.execPatinaUpdate s
  | .thermalDecisions => Sys2Proof.Machine.execThermalDecisions s
  | .sensorSample n reading => Sys2Proof.Machine.execSensorSample n reading s
  | .counterSampling => Sys2Proof.Machine.execCounterSampling s
  | .dispatch => Sys2Proof.Machine.execDispatch s
  | .statusPosting => Sys2Proof.Machine.execStatusPosting s
  | .eventHostCopy => Sys2Proof.Machine.execEventHostCopy s
  | .syncPpsEdge cyc => Sys2Proof.Machine.execSyncPpsEdge cyc s
  | .ppsLost => Sys2Proof.Machine.execPpsLost s
  | .elect advs => Sys2Proof.Machine.execElect advs s
  | .timex x => Sys2Proof.Machine.execTimex x s
  | .timeAdopt master => Sys2Proof.Machine.execTimeAdopt master s
  | .timeMaster => Sys2Proof.Machine.execTimeMaster s
  | .domainStopDetect d lastEdge => Sys2Proof.Machine.execDomainStopDetect d lastEdge s
  | .gap d cyc => Sys2Proof.Machine.execGap d cyc s
  | .packetArrive p => Sys2Proof.Machine.execPacketArrive p s
  | .ackHeldTimer sid => Sys2Proof.Machine.execAckHeldTimer sid s
  | .ack sid xid => Sys2Proof.Machine.execAck sid xid s
  | .ackHeld sid xid => Sys2Proof.Machine.execAckHeld sid xid s
  | .resendTimeout sid => Sys2Proof.Machine.execResendTimeout sid s
  | .sentinelForward link flits => Sys2Proof.Machine.execSentinelForward link flits s
  | .routePrimaryBack k => Sys2Proof.Machine.execRoutePrimaryBack k s
  | .fenceApply o => Sys2Proof.Machine.execFenceApply o s
  | .unfenceApply o => Sys2Proof.Machine.execUnfenceApply o s
  | .mapCommit o => Sys2Proof.Machine.execMapCommit o s
  | .mapLoad o data => Sys2Proof.Machine.execMapLoad o data s
  | .niMapApply t => Sys2Proof.Machine.execNiMapApply t s
  | .nodeFreeze o => Sys2Proof.Machine.execNodeFreeze o s
  | .pauseStop o => Sys2Proof.Machine.execPauseStop o s
  | .pauseCopy o => Sys2Proof.Machine.execPauseCopy o s
  | .resume o => Sys2Proof.Machine.execResume o s
  | .chiselStartArmIdle o => Sys2Proof.Machine.execChiselStartArmIdle o s
  | .chiselStartArmForced o => Sys2Proof.Machine.execChiselStartArmForced o s
  | .chiselStartArmWitness o => Sys2Proof.Machine.execChiselStartArmWitness o s
  | .chiselStartContinue o => Sys2Proof.Machine.execChiselStartContinue o s
  | .chiselAbortDisarm o => Sys2Proof.Machine.execChiselAbortDisarm o s
  | .chiselAbortFinish o => Sys2Proof.Machine.execChiselAbortFinish o s
  | .chiselAbortAbort o => Sys2Proof.Machine.execChiselAbortAbort o s
  | .seedLoad o => Sys2Proof.Machine.execSeedLoad o s
  | .maqSetPairAdd o => Sys2Proof.Machine.execMaqSetPairAdd o s
  | .maqSetPairDel o => Sys2Proof.Machine.execMaqSetPairDel o s
  | .maqSetArmSource o => Sys2Proof.Machine.execMaqSetArmSource o s
  | .maqSetArmHost o => Sys2Proof.Machine.execMaqSetArmHost o s
  | .maqSetArmReferee o => Sys2Proof.Machine.execMaqSetArmReferee o s
  | .maqSetEnd o => Sys2Proof.Machine.execMaqSetEnd o s
  | .maqSetSetRate o => Sys2Proof.Machine.execMaqSetSetRate o s
  | .watchSetArm o => Sys2Proof.Machine.execWatchSetArm o s
  | .watchSetDisarm o => Sys2Proof.Machine.execWatchSetDisarm o s
  | .nodeStep o => Sys2Proof.Machine.execNodeStep o s
  | .nodeRun o => Sys2Proof.Machine.execNodeRun o s
  | .lineageQuery o => Sys2Proof.Machine.execLineageQuery o s
  | .hangRead o => Sys2Proof.Machine.execHangRead o s
  | .counterReadStanding o => Sys2Proof.Machine.execCounterReadStanding o s
  | .counterReadStop o => Sys2Proof.Machine.execCounterReadStop o s
  | .stateRead o => Sys2Proof.Machine.execStateRead o s
  | .fence r operand => Sys2Proof.Machine.execFence r operand s
  | .unfence r operand => Sys2Proof.Machine.execUnfence r operand s
  | .promote r operand => Sys2Proof.Machine.execPromote r operand s
  | .chiselNow r operand => Sys2Proof.Machine.execChiselNow r operand s
  | .chiselDefer r operand => Sys2Proof.Machine.execChiselDefer r operand s
  | .maqRate r operand => Sys2Proof.Machine.execMaqRate r operand s
  | .cast r operand => Sys2Proof.Machine.execCast r operand s
  | .restore r operand => Sys2Proof.Machine.execRestore r operand s
  | .watchArm r operand => Sys2Proof.Machine.execWatchArm r operand s
  | .watchDisarm r operand => Sys2Proof.Machine.execWatchDisarm r operand s
  | .stepTile r operand => Sys2Proof.Machine.execStepTile r operand s
  | .run r operand => Sys2Proof.Machine.execRun r operand s
  | .freeze r operand => Sys2Proof.Machine.execFreeze r operand s
  | .digestOpen r operand => Sys2Proof.Machine.execDigestOpen r operand s
  | .digestClose r operand => Sys2Proof.Machine.execDigestClose r operand s
  | .reposeEnter r operand => Sys2Proof.Machine.execReposeEnter r operand s
  | .reposeWake r operand => Sys2Proof.Machine.execReposeWake r operand s
  | .fuseCommit r operand => Sys2Proof.Machine.execFuseCommit r operand s
  | .partnerBind r operand answer => Sys2Proof.Machine.execPartnerBind r operand answer s
  | .partnerUnbind r operand => Sys2Proof.Machine.execPartnerUnbind r operand s
  | .releasePartition r operand => Sys2Proof.Machine.execReleasePartition r operand s
  | .releaseScrubDone => Sys2Proof.Machine.execReleaseScrubDone s
  | .orderWindowWrite m slot size v => Sys2Proof.Machine.execOrderWindowWrite m slot size v s
  | .orderRdWrite m mgmtRing v => Sys2Proof.Machine.execOrderRdWrite m mgmtRing v s
  | .evtHostRdWrite m v => Sys2Proof.Machine.execEvtHostRdWrite m v s
  | .evtHostEnable m v => Sys2Proof.Machine.execEvtHostEnable m v s
  | .countHostRdWrite m v => Sys2Proof.Machine.execCountHostRdWrite m v s
  | .traceHostRdWrite m v => Sys2Proof.Machine.execTraceHostRdWrite m v s
  | .rcRead m page off size => Sys2Proof.Machine.execRcRead m page off size s
  | .halfReadLatch m page off => Sys2Proof.Machine.execHalfReadLatch m page off s
  | .w1cWrite m page v => Sys2Proof.Machine.execW1cWrite m page v s
  | .pageLock m page => Sys2Proof.Machine.execPageLock m page s
  | .registerWrite m page off size v => Sys2Proof.Machine.execRegisterWrite m page off size v s
  | .injectArm m v => Sys2Proof.Machine.execInjectArm m v s
  | .injectDisarm m v => Sys2Proof.Machine.execInjectDisarm m v s
  | .reportAck m v => Sys2Proof.Machine.execReportAck m v s
  | .hangReadReq m v => Sys2Proof.Machine.execHangReadReq m v s
  | .stateReadReq m v => Sys2Proof.Machine.execStateReadReq m v s
  | .dumpGo m v => Sys2Proof.Machine.execDumpGo m v s
  | .dumpDone e => Sys2Proof.Machine.execDumpDone e s
  | .licenceInstall m v => Sys2Proof.Machine.execLicenceInstall m v s
  | .licenceVerdict sigOk => Sys2Proof.Machine.execLicenceVerdict sigOk s
  | .resetReq m v => Sys2Proof.Machine.execResetReq m v s
  | .mrWrite m layer k v => Sys2Proof.Machine.execMrWrite m layer k v s
  | .reencodeStep t layer => Sys2Proof.Machine.execReencodeStep t layer s
  | .wsetWriteValid m w v => Sys2Proof.Machine.execWsetWriteValid m w v s
  | .wsetRetire m w v => Sys2Proof.Machine.execWsetRetire m w v s
  | .wsetHashDone w fmt ue => Sys2Proof.Machine.execWsetHashDone w fmt ue s
  | .recordRead m off size => Sys2Proof.Machine.execRecordRead m off size s
  | .fuseProgResult m v => Sys2Proof.Machine.execFuseProgResult m v s
  | .tapChmAddr bits => Sys2Proof.Machine.execTapChmAddr bits s
  | .tapChmDataCapture => Sys2Proof.Machine.execTapChmDataCapture s
  | .tapChmDataUpdate v => Sys2Proof.Machine.execTapChmDataUpdate v s
  | .mgmtTimeout kind => Sys2Proof.Machine.execMgmtTimeout kind s
  | .mgmtBack => Sys2Proof.Machine.execMgmtBack s
  | .voltageDroop region => Sys2Proof.Machine.execVoltageDroop region s
  | .linkDown link => Sys2Proof.Machine.execLinkDown link s
  | .linkRetrain links => Sys2Proof.Machine.execLinkRetrain links s
  | .commandBegin t c cyc => Sys2Proof.Machine.execCommandBegin t c cyc s
  | .commandEnd t e => Sys2Proof.Machine.execCommandEnd t e s
  | .passStart t p entry => Sys2Proof.Machine.execPassStart t p entry s
  | .blockVerdict t f => Sys2Proof.Machine.execBlockVerdict t f s
  | .passRerun t x fs => Sys2Proof.Machine.execPassRerun t x fs s
  | .blockRelease t x => Sys2Proof.Machine.execBlockRelease t x s
  | .sealVerifyRead t r => Sys2Proof.Machine.execSealVerifyRead t r s
  | .sealSecondRead t r => Sys2Proof.Machine.execSealSecondRead t r s
  | .partialBlockWrite t w => Sys2Proof.Machine.execPartialBlockWrite t w s
  | .transferSend t x => Sys2Proof.Machine.execTransferSend t x s
  | .transferReceive t x => Sys2Proof.Machine.execTransferReceive t x s
  | .fencedAck t id logical gen => Sys2Proof.Machine.execFencedAck t id logical gen s
  | .subscribedCopyDrop k => Sys2Proof.Machine.execSubscribedCopyDrop k s
  | .maqHostAssign => Sys2Proof.Machine.execMaqHostAssign s
  | .maqArmTimeout k => Sys2Proof.Machine.execMaqArmTimeout k s
  | .maqCompare k host => Sys2Proof.Machine.execMaqCompare k host s
  | .maqDeadline k => Sys2Proof.Machine.execMaqDeadline k s
  | .maqRefereeAssign k => Sys2Proof.Machine.execMaqRefereeAssign k s
  | .maqArbitration k referee => Sys2Proof.Machine.execMaqArbitration k referee s
  | .taintComputation => Sys2Proof.Machine.execTaintComputation s
  | .taintClosure => Sys2Proof.Machine.execTaintClosure s
  | .taint => Sys2Proof.Machine.execTaint s
  | .chiselDue t => Sys2Proof.Machine.execChiselDue t s
  | .chiselForced t => Sys2Proof.Machine.execChiselForced t s
  | .chiselReady t => Sys2Proof.Machine.execChiselReady t s
  | .chiselArmWait t => Sys2Proof.Machine.execChiselArmWait t s
  | .chiselStartSignal t => Sys2Proof.Machine.execChiselStartSignal t s
  | .chiselStarved t => Sys2Proof.Machine.execChiselStarved t s
  | .testHoldDrained t => Sys2Proof.Machine.execTestHoldDrained t s
  | .segmentResult t r => Sys2Proof.Machine.execSegmentResult t r s
  | .witnessWaitExpiry t => Sys2Proof.Machine.execWitnessWaitExpiry t s
  | .chiselListDone t => Sys2Proof.Machine.execChiselListDone t s
  | .sessionMaxExpiry t => Sys2Proof.Machine.execSessionMaxExpiry t s
  | .reinitDone t stuck => Sys2Proof.Machine.execReinitDone t stuck s
  | .promotionSaveDone logical timedOut => Sys2Proof.Machine.execPromotionSaveDone logical timedOut s
  | .promotionMigrationDone logical uncorr => Sys2Proof.Machine.execPromotionMigrationDone logical uncorr s
  | .promotionRestoreDone logical => Sys2Proof.Machine.execPromotionRestoreDone logical s
  | .promoteDone logical => Sys2Proof.Machine.execPromoteDone logical s
  | .promotionResume logical => Sys2Proof.Machine.execPromotionResume logical s
  | .repairRecordWrite ok => Sys2Proof.Machine.execRepairRecordWrite ok s
  | .stackAccess a => Sys2Proof.Machine.execStackAccess a s
  | .nearbankCommand t n => Sys2Proof.Machine.execNearbankCommand t n s
  | .nearbankComplete t layer bank cycles => Sys2Proof.Machine.execNearbankComplete t layer bank cycles s
  | .nbHung t layer bank => Sys2Proof.Machine.execNbHung t layer bank s
  | .refreshDue t layer bank => Sys2Proof.Machine.execRefreshDue t layer bank s
  | .patrolVisit t layer block found => Sys2Proof.Machine.execPatrolVisit t layer block found s
  | .castWindowCheck => Sys2Proof.Machine.execCastWindowCheck s
  | .castWindowTimeout => Sys2Proof.Machine.execCastWindowTimeout s
  | .castQuiesce cyc => Sys2Proof.Machine.execCastQuiesce cyc s
  | .gatherTimeout => Sys2Proof.Machine.execGatherTimeout s
  | .castCopyDone cyc => Sys2Proof.Machine.execCastCopyDone cyc s
  | .mouldDrained t => Sys2Proof.Machine.execMouldDrained t s
  | .castDurable => Sys2Proof.Machine.execCastDurable s
  | .castStoreError => Sys2Proof.Machine.execCastStoreError s
  | .mirrorState why => Sys2Proof.Machine.execMirrorState why s
  | .mirrorSegmentReceive chip xid blocks flushed => Sys2Proof.Machine.execMirrorSegmentReceive chip xid blocks flushed s
  | .restoreValidated w => Sys2Proof.Machine.execRestoreValidated w s
  | .restoreTileWrite logical => Sys2Proof.Machine.execRestoreTileWrite logical s
  | .restoreDone => Sys2Proof.Machine.execRestoreDone s
  | .digestSettling k => Sys2Proof.Machine.execDigestSettling k s
  | .digestSettleExpiry k => Sys2Proof.Machine.execDigestSettleExpiry k s
  | .digestReady k sigR sigS => Sys2Proof.Machine.execDigestReady k sigR sigS s
  | .signTimeout k => Sys2Proof.Machine.execSignTimeout k s
  | .sampleSetBuild late => Sys2Proof.Machine.execSampleSetBuild late s
  | .traceDrain => Sys2Proof.Machine.execTraceDrain s
  | .reposeGatherDone => Sys2Proof.Machine.execReposeGatherDone s
  | .wakeDone cyc => Sys2Proof.Machine.execWakeDone cyc s
  | .regionVoltageSample region mv => Sys2Proof.Machine.execRegionVoltageSample region mv s
  | .transferCompletion t id => Sys2Proof.Machine.execTransferCompletion t id s
  | .powerRemoved => Sys2Proof.Machine.execPowerRemoved s
  | .msixEntryUnmask v => Sys2Proof.Machine.execMsixEntryUnmask v s

end Sys2Proof.Machine
end

