-- ==== Sys2Proof/Safety.lean ====
section
/-! DEFINITION. What counts as a safe run of the block (no command stops it), and the words in which claims speak of a
state: the parts of State that a command leaves alone, well-formed memories, and when a master may use a register. -/

namespace Sys2Proof

/-- A step that answers a next state. -/
def Completes (s : Machine.State) : Prop := ∃ t, Machine.step s = .next t

/-- `k` steps from a state answer a next state each. -/
def SafeRun : Nat → Machine.State → Prop
  | 0, _ => True
  | k + 1, s => ∃ t, Machine.step s = .next t ∧ SafeRun k t

namespace Machine

/-! ### Frames -/

/-- The parts of State, one for each field. -/
inductive Part where
  | life | time | regs | force | therm | latches | data | ev | ord | arm | map | tiles | maq | chisel
  | contain | heat | stack | cast | digest | dbg | links | hostMem | fatalN | tripN | nv | free | status | pending
  deriving DecidableEq, Repr

/-- A part has the same contents in two states. -/
def Same (s t : State) : Part → Prop
  | .life => t.life = s.life
  | .time => t.time = s.time
  | .regs => t.regs = s.regs
  | .force => t.force = s.force
  | .therm => t.therm = s.therm
  | .latches => t.latches = s.latches
  | .data => t.data = s.data
  | .ev => t.ev = s.ev
  | .ord => t.ord = s.ord
  | .arm => t.arm = s.arm
  | .map => t.map = s.map
  | .tiles => t.tiles = s.tiles
  | .maq => t.maq = s.maq
  | .chisel => t.chisel = s.chisel
  | .contain => t.contain = s.contain
  | .heat => t.heat = s.heat
  | .stack => t.stack = s.stack
  | .cast => t.cast = s.cast
  | .digest => t.digest = s.digest
  | .dbg => t.dbg = s.dbg
  | .links => t.links = s.links
  | .hostMem => t.hostMem = s.hostMem
  | .fatalN => t.fatalN = s.fatalN
  | .tripN => t.tripN = s.tripN
  | .nv => t.nv = s.nv
  | .free => t.free = s.free
  | .status => t.status = s.status
  | .pending => t.pending = s.pending

/-- Every part of State that is not listed is unchanged from `s` to `t`. -/
def OnlyChanges (ps : List Part) (s t : State) : Prop := ∀ p, p ∉ ps → Same s t p

/-- Every register of the window but those listed reads as before. -/
def OnlyRegs (ks : List Nat) (s t : State) : Prop := ∀ k, k ∉ ks → t.reg k = s.reg k

/-- Every tile but those listed is as before. -/
def OnlyTiles (us : List Nat) (s t : State) : Prop := ∀ u, u ∉ us → t.tile u = s.tile u

/-! ### Memories -/

/-- Every addressed memory of the block is in its canonical form. -/
abbrev State.MemWf (s : State) : Prop :=
  Memory.wf s.hostMem ∧ Memory.wf s.stack.mem ∧ Memory.wf s.stack.sram ∧ Memory.wf s.stack.saveSram

/-! ### Use of the register window -/

/-- The chip is powered and not frozen, and the page's access table lets `m` write at this offset (R19, R383). -/
abbrev State.mayUse (s : State) (m : Requester) (page off : Nat) : Prop :=
  s.life.powered = true ∧ s.life.frozen = false ∧ s.mayWrite m page off = true

/-- The chip is powered and the page's access table lets `m` read at this offset. -/
abbrev State.maySee (s : State) (m : Requester) (page off : Nat) : Prop :=
  s.life.powered = true ∧ s.permits m page off false = true

/-- A node takes operation `op` at once: it exists, nothing is parked at the hub for any node, and the operation need
not wait for a newer map or a stopped region (R100, R264). -/
abbrev State.nodeReady (s : State) (op : Nat) (n : NodeOp) : Prop :=
  s.life.powered = true ∧ n.node < numTiles ∧ s.arm.parked = [] ∧ s.mustPark n.node op n.mapgen n.operand = false

/-- A slice request reaches the bank: it is the tile's own, or the tile carries a logical tile, its router is open and
its logical tile is not held. -/
abbrev State.reaches (s : State) (a : StackAcc) : Prop :=
  s.reachable a = true ∧ (ownAccess a = true ∨ (s.tile a.tile).core.router = false) ∧ s.sliceHeld a = false

/-- The tile in whose SRAM or slice a block lies. -/
def blockTile : BlockAddr → Nat
  | .sram u _ => u
  | .slice u _ _ => u

/-- The hub has a record like `r`, with a timestamp of its source's clock domain (R70). -/
def State.logged (s : State) (r : EvRec) : Prop := ∃ x ∈ s.ev.queue, { x with time := r.time } = r

/-- The node's last reply was of one flit with this RSTATUS. -/
abbrev State.replied (s : State) (t rstatus : Nat) : Prop := s.arm.lastReply = some (t, [BitVec.ofNat 128 (rstatus <<< 124)])

/-- A packet that the hub has sent or has queued. -/
abbrev State.has (s : State) (p : Outgoing) : Prop := p ∈ s.arm.sent ++ s.arm.queue

/-- Order `w` in a slot of `r` is taken and no status refuses it: the chip is live, no controlled shutdown has been
decided, the slot is its master's, its
entries can be reserved, its number is new, and neither BAD_OPERAND, STATE_ILLEGAL, NOT_LICENSED nor NO_STORE
applies. -/
abbrev State.ordered (s : State) (r : OrderRef) (w : Word) : Prop :=
  s.live = true ∧ s.life.shutdownEvent = none ∧ OrderRef.own r = true ∧ s.mayTake r.master w false = true ∧
  (∀ o ∈ s.ord.orders, o.id ≠ s.ord.nextId) ∧ s.refusedAs w = none

/-- The order has its final status, which is posted next. -/
def State.doneAs (s : State) (id : Nat) (st : Status) : Prop := ∃ o, s.order id = some o ∧ o.done = some st

/-- The order has had its turn and is still running. -/
def State.runs (s : State) (id : Nat) : Prop := ∃ o, s.order id = some o ∧ o.done = none ∧ o.turn = true

/-- PAGE_LOCK of a page is set. -/
abbrev State.locked (s : State) (page : Nat) : Prop := (s.reg (page * 0x1000 + 0x028)).getLsbD 0 = true

end Machine

end Sys2Proof
end

