-- ==== Sys2Proof/Certificates/Slice0/Obligations.lean ====
section
/-! DEFINITION. The statements for the provers: one proposition per obligation, listed in OBLIGATIONS.json. -/

open Sys2Proof Sys2Proof.Machine

/-- A denied access has no effect but its denial. For every register write and read of an accepted shape that the
page's access table denies: the command completes, no register but ACCESS.DENIED changes, DENIED counts one more
(saturating), the beat's denials count one more and keep the first one's record (which R479 writes), a denied
read returns 0, and nothing else changes: no RC field clears and nothing is latched. (R386) -/
def Obligations.WindowDenied : Prop :=
  (∀ (m : Requester) (page off size : Nat) (v : Word) (s : State),
    s.life.powered = true → s.life.frozen = false → accessOk page off size = true → s.mayWrite m page off = false →
    ∃ t, exec (.registerWrite m page off size v) s = .next t ∧ OnlyChanges [.regs, .ev] s t ∧
      OnlyRegs [Reg.accessDenied] s t ∧
      (t.reg Reg.accessDenied).toNat = min ((s.reg Reg.accessDenied).toNat + 1) (regMask Reg.accessDenied) ∧
      t.ev = { s.ev with
        lastDenied := deniedDetail m.cls true false page off
        denied := s.ev.denied.add (mkRec s.time.time 0x00B5 srcPlinth 0 .note (deniedDetail m.cls true false page off)) }) ∧
  (∀ (m : Requester) (page off : Nat) (s : State),
    s.life.powered = true → s.life.frozen = false → accessOk page off 4 = true → s.permits m page off false = false →
    ∃ t, exec (.halfReadLatch m page off) s = .next t ∧ t.data = 0 ∧ OnlyChanges [.regs, .ev, .data] s t ∧
      OnlyRegs [Reg.accessDenied] s t ∧
      (t.reg Reg.accessDenied).toNat = min ((s.reg Reg.accessDenied).toNat + 1) (regMask Reg.accessDenied) ∧
      t.ev = { s.ev with
        lastDenied := deniedDetail m.cls false false page off
        denied := s.ev.denied.add (mkRec s.time.time 0x00B5 srcPlinth 0 .note (deniedDetail m.cls false false page off)) }) ∧
  (∀ (m : Requester) (page off size : Nat) (s : State),
    s.life.powered = true → s.life.frozen = false → accessOk page off size = true → isRc page (off - off % 8) = true →
    s.permits m page off false = false →
    ∃ t, exec (.rcRead m page off size) s = .next t ∧ t.data = 0 ∧ OnlyChanges [.regs, .ev, .data] s t ∧
      OnlyRegs [Reg.accessDenied] s t ∧
      (t.reg Reg.accessDenied).toNat = min ((s.reg Reg.accessDenied).toNat + 1) (regMask Reg.accessDenied) ∧
      t.ev = { s.ev with
        lastDenied := deniedDetail m.cls false false page off
        denied := s.ev.denied.add (mkRec s.time.time 0x00B5 srcPlinth 0 .note (deniedDetail m.cls false false page off)) })

/-- PAGE_LOCK is set, and then the page's LK fields ignore writes. A permitted write of 1 to PAGE_LOCK sets it and
changes nothing else; with PAGE_LOCK set, a permitted write of any size and value to a register whose access
code is LK leaves the state as it is; and a write of 0 to PAGE_LOCK leaves the state as it is. It says of this
command, under conditions on the state and the operands alone, that it completes: PAGE_LOCK. (spec/00_scope.md
Table 0.4; spec/15_register_pages.md Table 15.1) -/
def Obligations.PageLockSets : Prop :=
  (∀ (m : Requester) (page : Nat) (s : State), pageExists page = true → s.mayUse m page 0x028 →
    exec (.pageLock m page) s = .next (s.setReg (page * 0x1000 + 0x028) 1)) ∧
  (∀ (m : Requester) (page off size : Nat) (v : Word) (r : RegRow) (s : State), s.life.powered = true → s.locked page →
    findRow page (off - off % 8) = some r → r.acc = .lk → accessOk page off size = true → s.mayWrite m page off = true →
    exec (.registerWrite m page off size v) s = .next s) ∧
  (∀ (m : Requester) (page : Nat) (s : State), pageExists page = true → s.mayUse m page 0x028 →
    exec (.registerWrite m page 0x028 8 0) s = .next s)

/-- W1C: exactly the bits written 1 clear, also on a frozen chip. A permitted W1C write to PAGE_EVT_PEND of a page
clears exactly the bits written 1, frozen or not; every other page's bits and everything else stay. It says of
this command, under conditions on the state and the operands alone, that it completes: W1C_WRITE.
(spec/15_register_pages.md Table 15.1; spec/00_scope.md Table 0.4) -/
def Obligations.PendClearsWrittenOnes : Prop :=
  ∀ (m : Requester) (page : Nat) (v : Word) (s : State), pageExists page = true → s.life.powered = true →
    s.mayWrite m page 0x018 = true →
    ∃ t, exec (.w1cWrite m page v) s = .next t ∧ t.pend page = s.pend page &&& ~~~(v.setWidth 16) ∧
      (∀ p, p ≠ page → t.pend p = s.pend p) ∧ OnlyChanges [.ev] s t ∧ { t.ev with pend := s.ev.pend } = s.ev

/-- REGISTER_WRITE stores the defined bits of an ordinary register. A permitted 8-byte REGISTER_WRITE to an aligned
RW register of a page, or an LK register of an unlocked page, that no rule of its own governs (SCRATCH,
PAGE_CTL, PAGE_EVT_MASK, access table entries that do not ignore writes, every register whose field rule accepts
any value in every state) stores exactly the defined bits and keeps the others (R20); a 4-byte write changes
only its half of them; only that register changes. It says of this command, under conditions on the state and
the operands alone, that it completes: REGISTER_WRITE. (spec/00_scope.md R20; spec/00_scope.md Table 0.4;
spec/15_register_pages.md R445) -/
def Obligations.RegisterWriteStores : Prop :=
  ∀ (m : Requester) (page off size : Nat) (v : Word) (r : RegRow) (s : State), s.mayUse m page off →
    accessOk page off size = true → findRow page (off - off % 8) = some r →
    (r.acc = .rw ∨ r.acc = .lk ∧ ¬ s.locked page) →
    (∀ (s' : State) (old new : Word), s'.fieldRule page (off - off % 8) old new = some new) →
    onlyWriter m (page * 0x1000 + (off - off % 8)) = true → writeIgnored page off = false →
    off - off % 8 ≠ 0x028 → page * 0x1000 + (off - off % 8) ≠ Reg.dumpDumpCtl → ownField page (off - off % 8) = false →
    0x010 ≤ off →
    let k := page * 0x1000 + (off - off % 8)
    ∃ t, exec (.registerWrite m page off size v) s = .next t ∧ OnlyChanges [.regs] s t ∧ OnlyRegs [k] s t ∧
      (∀ i, i < 64 → (t.reg k).getLsbD i =
        if r.mask.getLsbD i && (size == 8 || decide (i / 32 * 4 = off % 8))
        then v.getLsbD (if size == 8 then i else i % 32) else (s.reg k).getLsbD i)

/-- ORDER_WINDOW_WRITE: an order enters its master's own empty slot. A permitted 8-byte write of a nonzero order
word to an empty slot of the writer's own half of the window stores it there, leaves every other slot as it was,
marks it as waiting for the next intake that follows a tick, and changes nothing else. It says of this command,
under conditions on the state and the operands alone, that it completes: ORDER_WINDOW_WRITE.
(spec/15_register_pages.md R461; spec/02_plinth_and_beat.md R65) -/
def Obligations.OrderWindowAccepts : Prop :=
  ∀ (m : Requester) (slot : Nat) (v : Word) (s : State), slot < 64 → s.mayUse m 0x002 (0x200 + 8 * slot) →
    ownSlot m slot = true → s.window slot = 0 → v ≠ 0 →
    ∃ t, exec (.orderWindowWrite m slot 8 v) s = .next t ∧ t.window slot = v ∧ slot ∈ t.ord.waiting ∧
      (∀ k, k ≠ slot → t.window k = s.window k) ∧ OnlyChanges [.ord] s t ∧
      { t.ord with window := s.ord.window, waiting := s.ord.waiting } = s.ord

/-- A misused window write is ignored and counted. A permitted write to a slot that is not 8 bytes wide (reason 1),
not the writer's own (2), to a full slot (3) or of the word 0 (4) is ignored: the window is unchanged,
IGNORED_WRITES counts one more, and the beat's misuse count takes a record that names the first reason that
holds and the slot. (spec/15_register_pages.md R461; spec/16_event_and_status_catalogue.md) -/
def Obligations.OrderWindowMisuse : Prop :=
  ∀ (m : Requester) (slot size : Nat) (v : Word) (s : State), slot < 64 → (size = 4 ∨ size = 8) →
    s.mayUse m 0x002 (0x200 + 8 * slot) →
    ∀ reason : Nat,
      (size = 4 ∧ reason = 1 ∨ size = 8 ∧ ownSlot m slot = false ∧ reason = 2 ∨
       size = 8 ∧ ownSlot m slot = true ∧ s.window slot ≠ 0 ∧ reason = 3 ∨
       size = 8 ∧ ownSlot m slot = true ∧ s.window slot = 0 ∧ v = 0 ∧ reason = 4) →
    ∃ t x, exec (.orderWindowWrite m slot size v) s = .next t ∧ t.ord = s.ord ∧ OnlyChanges [.regs, .ev, .time, .free] s t ∧
      t.time.time = s.time.time ∧
      OnlyRegs [Reg.orderIgnoredWrites] s t ∧
      (t.reg Reg.orderIgnoredWrites).toNat =
        min ((s.reg Reg.orderIgnoredWrites).toNat + 1) (regMask Reg.orderIgnoredWrites) ∧
      t.ev.misuse = s.ev.misuse.add x ∧ { x with time := s.time.time } =
        mkRec s.time.time 0x0005 (if m.cls == .mgmt then srcPalalmux else srcHostIf) 0 .note (pack [(60, 4, reason), (48, 6, slot)])

/-- RD pointers and HOST_EN: stored when not past WR, else ignored. Writing HOST_RD (by HOSTK), MGMT_RD (by MGMT),
the event ring's, the counter ring's or the trace ring's RD stores the defined bits when they do not pass the
ring's WR (a counter or trace threshold counts as fallen once the unconsumed count is below it) and leaves the
state as it is when they do. An EVT_CTL write with HOST_EN 0 stores it; one with HOST_EN 1 stores it when
HOST_SIZE and HOST_BASE are legal, and leaves the state as it is when they are not. It says of each of these
commands, under conditions on the state and the operands alone, that it completes: ORDER_RD_WRITE,
EVT_HOST_RD_WRITE, EVT_HOST_ENABLE, COUNT_HOST_RD_WRITE, TRACE_HOST_RD_WRITE. (spec/15_register_pages.md R457;
spec/15_register_pages.md R459; spec/15_register_pages.md R467; spec/13_counters_trace_debug.md R399;
spec/13_counters_trace_debug.md R405) -/
def Obligations.RingPointers : Prop :=
  (∀ (m : Requester) (v : Word) (s : State), s.mayUse m 0x002 0x118 → m.cls = .hostk →
    let w := masked 0xFFFFFFFF (s.reg Reg.orderHostRd) v
    exec (.orderRdWrite m false v) s = .next (if w.toNat ≤ s.ord.hostWr.toNat then s.setReg Reg.orderHostRd w else s)) ∧
  (∀ (m : Requester) (v : Word) (s : State), s.mayUse m 0x002 0x128 → m.cls = .mgmt →
    let w := masked 0xFFFFFFFF (s.reg Reg.orderMgmtRd) v
    exec (.orderRdWrite m true v) s = .next (if w.toNat ≤ s.ord.mgmtWr.toNat then s.setReg Reg.orderMgmtRd w else s)) ∧
  (∀ (m : Requester) (v : Word) (s : State), s.mayUse m 0x003 0x120 →
    let w := masked 0xFFFFFFFF (s.reg Reg.evtHostRd) v
    exec (.evtHostRdWrite m v) s = .next (if w.toNat ≤ s.ev.hostWr.toNat then s.setReg Reg.evtHostRd w else s)) ∧
  (∀ (m : Requester) (v : Word) (s : State), s.mayUse m 0x010 0x128 →
    let w := masked 0xFFFFFFFF (s.reg Reg.countHostRd) v
    exec (.countHostRdWrite m v) s = .next (if w.toNat ≤ s.dbg.hostWr.toNat then
      { s.setReg Reg.countHostRd w with
        dbg.overThresh := (s.dbg.overThresh && decide ((s.inForce Reg.countThresh).toNat ≤ s.dbg.hostWr.toNat - w.toNat)) }
      else s)) ∧
  (∀ (m : Requester) (v : Word) (s : State), s.mayUse m 0x011 0x128 →
    let w := masked 0xFFFFFFFFFFFFFFFF (s.reg Reg.traceHostRd) v
    exec (.traceHostRdWrite m v) s = .next (if w.toNat ≤ s.dbg.trWr.toNat then
      { s.setReg Reg.traceHostRd w with
        dbg.trOver := (s.dbg.trOver && decide ((s.inForce Reg.traceThresh).toNat ≤ s.dbg.trWr.toNat - w.toNat)) }
      else s)) ∧
  (∀ (m : Requester) (v : Word) (s : State), s.mayUse m 0x003 0x100 → bit v 0 = true → s.evtHostOk = false →
    exec (.evtHostEnable m v) s = .next s) ∧
  (∀ (m : Requester) (v : Word) (s : State), s.mayUse m 0x003 0x100 → bit v 0 = true → s.evtHostOk = true →
    ∃ t, exec (.evtHostEnable m v) s = .next t ∧ bit (t.reg Reg.evtEvtCtl) 0 = true ∧ OnlyRegs [Reg.evtEvtCtl] s t ∧
      OnlyChanges [.regs, .ev, .hostMem] s t) ∧
  (∀ (m : Requester) (v : Word) (s : State), s.mayUse m 0x003 0x100 → bit v 0 = false →
    ∃ t, exec (.evtHostEnable m v) s = .next t ∧ bit (t.reg Reg.evtEvtCtl) 0 = false ∧ OnlyRegs [Reg.evtEvtCtl] s t ∧
      OnlyChanges [.regs] s t)

/-- A permitted read returns the register and clears only what is RC. A permitted read of an RC register returns it
(its half, for 4 bytes) and clears it. A permitted 4-byte read of a lower half returns it and latches the upper
half for the reader alone; a read of that upper half then returns what was latched and uses it up, and one
without a latch returns the present upper half; registers other than RC ones are unchanged. An 8-byte read of
bytes 0 to 7 of a READY record counts one more in READ_COUNT, and changes nothing else but the data returned. It
says of each of these commands, under conditions on the state and the operands alone, that it completes:
RC_READ, HALF_READ_LATCH, RECORD_READ. (spec/15_register_pages.md R445; spec/00_scope.md Table 0.4;
spec/12_determinism_digests_trust.md R378) -/
def Obligations.WindowReads : Prop :=
  (∀ (m : Requester) (page off : Nat) (s : State), s.maySee m page off → accessOk page off 8 = true → isRc page off = true →
    page ≠ 0x00E →
    ∃ t, exec (.rcRead m page off 8) s = .next t ∧ t.data = s.regRead m page off ∧
      (pageKind page ≠ 4 → t.reg (page * 0x1000 + off) = 0 ∧ OnlyChanges [.regs, .data] s t ∧ OnlyRegs [page * 0x1000 + off] s t) ∧
      (pageKind page = 4 → (t.tile (pageInstance page)).maq.counts = 0 ∧ OnlyChanges [.tiles, .data] s t ∧
        OnlyTiles [pageInstance page] s t)) ∧
  (∀ (m : Requester) (page off : Nat) (s : State), s.maySee m page off → accessOk page off 8 = true → 0x010 ≤ off →
    (findRow page off).isSome = true → isRc page off = false →
    ∃ t, exec (.halfReadLatch m page off) s = .next t ∧ t.data = word ((s.regRead m page off).toNat % 2 ^ 32) ∧
      t.latch m (page * 0x1000 + off) = some (((s.regRead m page off) >>> 32).setWidth 32) ∧
      OnlyChanges [.data, .latches] s t ∧ (∀ k, k ≠ page * 0x1000 + off → t.latch m k = s.latch m k) ∧
      (∀ m' k, k < 2 ^ 24 → s.selKey m' ≠ s.selKey m → t.latch m' k = s.latch m' k)) ∧
  (∀ (m : Requester) (page off : Nat) (h : BitVec 32) (s : State), s.maySee m page (off + 4) →
    accessOk page off 8 = true → (findRow page off).isSome = true → s.latch m (page * 0x1000 + off) = some h →
    ∃ t, exec (.halfReadLatch m page (off + 4)) s = .next t ∧ t.data = h.setWidth 64 ∧ t.latch m (page * 0x1000 + off) = none ∧
      OnlyChanges [.data, .latches] s t ∧ (∀ k, k ≠ page * 0x1000 + off → t.latch m k = s.latch m k)) ∧
  (∀ (m : Requester) (page off : Nat) (s : State), s.maySee m page (off + 4) →
    accessOk page off 8 = true → (findRow page off).isSome = true → s.latch m (page * 0x1000 + off) = none →
    ∃ t, exec (.halfReadLatch m page (off + 4)) s = .next t ∧
      t.data = (((s.regRead m page off) >>> 32).setWidth 32).setWidth 64 ∧ OnlyChanges [.data] s t) ∧
  (∀ (m : Requester) (s : State), s.maySee m 0x00E 0xE00 → (s.dslot (s.selSlot m)).state = 5 →
    ∃ t, exec (.recordRead m 0 8) s = .next t ∧ t.data = s.regRead m 0x00E 0xE00 ∧ OnlyChanges [.digest, .data] s t ∧
      (t.dslot (s.selSlot m)).reads.toNat = min ((s.dslot (s.selSlot m)).reads.toNat + 1) (2 ^ 32 - 1) ∧
      { t.dslot (s.selSlot m) with reads := (s.dslot (s.selSlot m)).reads } = s.dslot (s.selSlot m) ∧
      (∀ k, k ≠ s.selSlot m → t.dslot k = s.dslot k)) ∧
  (∀ (m : Requester) (off : Nat) (s : State), s.maySee m 0x00E (0xE00 + off) → off < 0x200 → off % 8 = 0 → 0 < off →
    ∃ t, exec (.recordRead m off 8) s = .next t ∧ t.data = s.regRead m 0x00E (0xE00 + off) ∧ OnlyChanges [.data] s t)

/-- Write-only registers set their request going. Permitted writes complete as follows. INJECT_ARM with a legal
target stores the order with ARMED set, INJECT_DISARM with ARMED clear. LICENCE_INSTALL with INSTALL 1 and none
pending asks for an installation at the next tick. HANG_READ_REQ and STATE_READ_REQ make READ busy with the
request, and leave the state as it is while it is busy, also on a frozen chip. RESET_REQ is refused: it is
counted and logged RESET_REFUSED. FW_READY of 1 during S1 is heeded, and one of firmware shows that Palalmux
answers; after S1 it leaves the state as it is. DUMP_GO starts the dump of a frozen chip whose DUMP_BASE is 4
KiB aligned, and one of firmware answers the freeze indication. FUSE_PROG_RESULT without VALID changes nothing.
The TAP's address register takes its bits, its capture reads and its update writes the window as class DEBUG. It
says of each of these commands, under conditions on the state and the operands alone, that it completes:
FW_READY, INJECT_ARM, INJECT_DISARM, HANG_READ_REQ, STATE_READ_REQ, DUMP_GO, LICENCE_INSTALL, RESET_REQ,
TAP_CHM_ADDR, TAP_CHM_DATA_CAPTURE, TAP_CHM_DATA_UPDATE. (spec/04_block_seals.md R156;
spec/12_determinism_digests_trust.md R381; spec/13_counters_trace_debug.md R409; spec/13_counters_trace_debug.md
R418; spec/13_counters_trace_debug.md R421; spec/14_bringup_reset_repose.md R429;
spec/14_bringup_reset_repose.md R436; spec/15_register_pages.md R469) -/
def Obligations.WriteOnlyRequests : Prop :=
  (∀ (m : Requester) (v : Word) (s : State), s.mayUse m 0x005 0x160 → fld v 10 0 < numTiles →
    1 ≤ fld v 21 19 → fld v 21 19 ≤ 4 →
    exec (.injectArm m v) s = .next (s.setReg Reg.sealInject (setFld (masked 0x7F807FF (s.reg Reg.sealInject) v) 63 63 1))) ∧
  (∀ (m : Requester) (v : Word) (s : State), s.mayUse m 0x005 0x160 → fld v 10 0 < numTiles →
    exec (.injectDisarm m v) s =
      .next (s.setReg Reg.sealInject (setFld (masked 0x7F807FF (s.reg Reg.sealInject) (setFld v 21 19 0)) 63 63 0))) ∧
  (∀ (m : Requester) (v : Word) (s : State), s.mayUse m 0x00F 0x100 → bit v 0 = true → s.digest.licPending = false →
    s.digest.licTick = false →
    exec (.licenceInstall m v) s = .next { s with digest.licTick := true }) ∧
  (∀ (m : Requester) (v : Word) (s : State), s.life.powered = true → s.mayWrite m 0x012 0x108 = true →
    s.dbg.readBusy = false →
    exec (.hangReadReq m v) s = .next { s with
      dbg.readReq := setFld v 63 60 0 &&& 0xF0000000001F07FF, dbg.readBusy := true, dbg.readValid := false } ∧
    exec (.stateReadReq m v) s = .next { s with
      dbg.readReq := setFld v 63 60 1 &&& 0xF0000000001F07FF, dbg.readBusy := true, dbg.readValid := false }) ∧
  (∀ (m : Requester) (v : Word) (s : State), s.mayUse m 0x013 0x128 →
    ∃ t, exec (.resetReq m v) s = .next t ∧ OnlyChanges [.regs, .ev, .time, .free] s t ∧ t.time.time = s.time.time ∧
      OnlyRegs [Reg.bringupResetsRefused] s t ∧
      (t.reg Reg.bringupResetsRefused).toNat =
        min ((s.reg Reg.bringupResetsRefused).toNat + 1) (regMask Reg.bringupResetsRefused) ∧
      t.logged (mkRec s.time.time 0x00D5 srcHostIf 0 .note (pack [(60, 4, fld v 63 60), (0, 11, fld v 10 0)]))) ∧
  (∀ (m : Requester) (v : Word) (s : State), s.mayUse m 0x013 0x108 → bit v 0 = true → s.life.stage = 1 → m.cls ≠ .mgmt →
    exec (.fwReady m v) s = .next { s with life.fwReady := true }) ∧
  (∀ (m : Requester) (v : Word) (s : State), s.life.powered = true → s.mayWrite m 0x016 0x100 = true →
    s.life.frozen = true → s.dbg.dumpState ≠ 1 → fld (s.reg Reg.dumpDumpBase) 11 0 = 0 →
    ∃ t, exec (.dumpGo m v) s = .next t ∧ OnlyChanges [.regs, .dbg, .life] s t ∧ OnlyRegs [Reg.dumpDumpCtl] s t ∧
      t.reg Reg.dumpDumpCtl = v &&& 0x1F00 ∧ t.dbg = { s.dbg with dumpState := 1, dumpBytes := 0 } ∧
      (m.cls ≠ .mgmt → t.life = s.life) ∧
      (m.cls = .mgmt → t.life.mgmtOk = true ∧ t.mgmtWaits 2 = false)) ∧
  (∀ (m : Requester) (v : Word) (s : State), s.mayUse m 0x015 0x120 → bit v 63 = false →
    exec (.fuseProgResult m v) s = .next s) ∧
  (∀ (b : BitVec 26) (s : State), s.life.powered = true → s.tapOn = true →
    exec (.tapChmAddr b) s = .next { s with dbg.tapAddr := b }) ∧
  (∀ (s : State), s.life.powered = true → s.tapOn = true → s.dbg.tapAddr.getLsbD 25 = false →
    ∃ t, exec .tapChmDataCapture s = .next t ∧ t.dbg.tapData = t.data ∧
      t.data = (s.readAccess tapMaster s.tapPage s.tapOff s.tapSize).data ∧ t.dbg.tapDenied = (accessOk s.tapPage s.tapOff s.tapSize &&
        !s.permits tapMaster s.tapPage s.tapOff false)) ∧
  (∀ (v : Word) (s : State), s.life.powered = true → s.tapOn = true → s.dbg.tapAddr.getLsbD 25 = true →
    ∃ t, exec (.tapChmDataUpdate v) s = .next t ∧ t.regs = (s.writeAccess tapMaster s.tapPage s.tapOff s.tapSize v).regs ∧
      t.dbg.tapDenied = (accessOk s.tapPage s.tapOff s.tapSize && !s.mayWrite tapMaster s.tapPage s.tapOff)) ∧
  (∀ (m : Requester) (v : Word) (s : State), s.life.powered = true → s.mayWrite m 0x012 0x108 = true → s.dbg.readBusy = true →
    exec (.hangReadReq m v) s = .next s ∧ exec (.stateReadReq m v) s = .next s) ∧
  (∀ (m : Requester) (v : Word) (s : State), s.mayUse m 0x013 0x108 → bit v 0 = true →
    (s.life.stage = 1 → m.cls = .mgmt → ∃ t, exec (.fwReady m v) s = .next t ∧ OnlyChanges [.life, .regs, .ev, .time, .free] s t ∧
      t.life.fwReady = true ∧ t.life.mgmtOk = true) ∧
    (s.life.stage ≠ 1 → exec (.fwReady m v) s = .next s))

/-- MR, WSET and thermal limits: accepted whole or ignored whole. A permitted write of memory descriptor k stores
its defined bits when the layer's rule accepts them and leaves the state as it is otherwise. A WSET definition
that the rules accept is stored and set to take effect at the next tick, for a definition (VALID 1) and a
retirement (VALID 0); one they refuse leaves the state as it is. A write of LIMITS, THERM_CTL or MOULD_WIN of an
unlocked page stores its defined bits when every field is in range and the levels are in order, and leaves the
state as it is when not. It says of each of these commands, under conditions on the state and the operands
alone, that it completes: REGISTER_WRITE, MR_WRITE, WSET_WRITE_VALID, WSET_RETIRE. (spec/09_memory_boundary.md
R300; spec/12_determinism_digests_trust.md R370; spec/12_determinism_digests_trust.md R371;
spec/12_determinism_digests_trust.md R372; spec/10_thermal.md R328) -/
def Obligations.GuardedTables : Prop :=
  (∀ (m : Requester) (l k : Nat) (v : Word) (s : State), l < numLayers → k < 8 → s.mayUse m (0x070 + l) (0x200 + 8 * k) →
    let w := masked 0xC000000007FF07FF (s.mrWord l k) v
    exec (.mrWrite m l k v) s = .next (if s.mrOk l k w then s.setReg (layerReg l (0x200 + 8 * k)) w else s)) ∧
  (∀ (m : Requester) (w : Nat) (v : Word) (s : State), w < 8 → s.mayUse m 0x00E (0x300 + 16 * w) →
    let x := masked 0x8FFFFFF1FFFFF800 (s.reg (Reg.digestWsetW0 + 16 * w)) (setFld v 63 63 1)
    exec (.wsetWriteValid m w v) s = .next (if s.wsetOk w x then
      { s.setReg (Reg.digestWsetW0 + 16 * w) x with digest.setNext := tset none s.digest.setNext w (some x) } else s)) ∧
  (∀ (m : Requester) (w : Nat) (v : Word) (s : State), w < 8 → s.mayUse m 0x00E (0x300 + 16 * w) →
    let x := masked 0x8FFFFFF1FFFFF800 (s.reg (Reg.digestWsetW0 + 16 * w)) (setFld v 63 63 0)
    exec (.wsetRetire m w v) s = .next (if s.wsetNamed w then s else
      { s.setReg (Reg.digestWsetW0 + 16 * w) x with digest.setNext := tset none s.digest.setNext w (some x) })) ∧
  (∀ (m : Requester) (k : Nat) (ok : Bool) (r : RegRow) (v : Word) (s : State), s.mayUse m 0x00C (k % 0x1000) → ¬ s.locked 0x00C →
    findRow 0x00C (k % 0x1000) = some r →
    let w := masked r.mask (s.reg k) v
    (k = Reg.thermLimits ∧ ok = (inRange w 63 48 32 64 && inRange w 47 32 16 32 && decide (fld w 47 32 < fld w 63 48) &&
        inRange w 23 16 2 10 && inRange w 15 8 60 95 && inRange w 7 0 60 105) ∨
      k = Reg.thermThermCtl ∧ ok = (inRange w 47 40 16 250 && inRange w 39 32 4 48 && inRange w 20 16 2 16 &&
        inRange w 12 8 2 16 && inRange w 4 0 2 16 && decide (fld w 12 8 < fld w 20 16) && decide (fld w 4 0 < fld w 12 8)) ∨
      k = Reg.thermMouldWin ∧ ok = inRange w 7 0 60 95) →
    exec (.registerWrite m 0x00C (k % 0x1000) 8 v) s = .next (if ok then s.setReg k w else s))

/-- A step runs the command at the front of the queue. For every command c and state s: step of s with c at the
front of its queue is exec of c on s with the queue's rest. (spec/00_scope.md) -/
def Obligations.StepTakesTheFrontCommand : Prop :=
  ∀ (c : Instr) (q : List Instr) (s : State),
    step { s with pending := c :: q } = exec c { s with pending := q }

/-- No command faults or is refused, and an idle step lets one plinth cycle pass. Every command, in every state,
answers a next state with the same commands waiting: what the spec gives no occasion for leaves the state as it
is (assumption 2). On an empty queue step answers a next state whose queue is empty. Without power nothing
changes; with power only plinth time and the packets that may now be injected change, and plinth time moves by
0, 1 or 2 counts within its beat (R53; that a tick of the beat is a command of its own is the model's choice,
assumption 7). (spec/02_plinth_and_beat.md R53; assumption 2; assumption 7) -/
def Obligations.EveryStepCompletes : Prop :=
  (∀ (c : Instr) (s : State), ∃ t, exec c s = .next t ∧ t.pending = s.pending) ∧
  (∀ s : State, s.pending = [] →
    ∃ t, step s = .next t ∧ t.pending = [] ∧ OnlyChanges [.time, .arm] s t ∧ (s.life.powered = false → t = s) ∧
      t.beat = s.beat ∧
      (t.time.time = s.time.time ∨ t.time.time = s.time.time + 1 ∨ t.time.time = s.time.time + 2))

/-- BEAT_TICK: the next beat starts and written registers come into force. With power, BEAT_TICK completes: plinth
time stands at the next multiple of 8,192 counts and no phase of the new beat is done. On a chip that is not
frozen no slot of the order window waits any more, and every register outside the route table is in force with
the value last written. Trace records dropped in the beat that ends are reported by one TRACE_DROP (at the tick:
the model's choice, assumption 34). On a frozen chip only time, the counts of beats and the time exchange on the
links go on. It says of this command, under conditions on the state and the operands alone, that it completes:
BEAT_TICK. (spec/02_plinth_and_beat.md R55; spec/02_plinth_and_beat.md R65; spec/04_block_seals.md R155;
spec/13_counters_trace_debug.md R405; assumption 34; spec/13_counters_trace_debug.md Table 13.6) -/
def Obligations.BeatTickStartsABeat : Prop :=
  ∀ (energy : List (Nat × Nat)) (s : State), s.life.powered = true →
    ∃ t, exec (.beatTick energy) s = .next t ∧ t.time.time = word ((s.beat + 1) * beatCycles) ∧ t.time.phase = 0 ∧
      (s.life.frozen = false → t.ord.waiting = [] ∧
        ∀ k, (k < Reg.armSrouteW0 ∨ Reg.armSrouteW0 + 1024 ≤ k) → t.inForce k = s.reg k) ∧
      (s.life.frozen = true → OnlyChanges [.time, .life, .arm, .links] s t) ∧
      (s.life.frozen = false → s.dbg.trDropNow ≠ 0 → t.dbg.trDropNow = 0 ∧
        mkRec t.time.time 0x00C4 srcPlinth 0 .note (pack [(32, 32, s.dbg.trDropNow), (0, 11, s.dbg.trDropTile)]) ∈ t.ev.queue)

/-- The phases of a beat run once each, in their order. Each phase of the beat (LINEAGE_CLOSING, ORDER_INTAKE,
VERDICT_AGGREGATION, PATINA_UPDATE, THERMAL_DECISIONS, COUNTER_SAMPLING, DISPATCH, STATUS_POSTING) that may run
(its rank in Table 2.1 is above that of every phase done in this beat, and its last cycle has not passed)
completes: it is done in this beat, and plinth time stands at or after the phase's first cycle (that of the
aggregation at its last), in the same beat. A phase that was done, or a later one of which was, or whose last
cycle has passed, leaves the state as it is. It says of each of these commands, under conditions on the state
and the operands alone, that it completes: LINEAGE_CLOSING, ORDER_INTAKE, VERDICT_AGGREGATION, PATINA_UPDATE,
THERMAL_DECISIONS, COUNTER_SAMPLING, DISPATCH, STATUS_POSTING. (spec/02_plinth_and_beat.md R64;
spec/02_plinth_and_beat.md Table 2.1) -/
def Obligations.PhasesRunInOrder : Prop :=
  ∀ s : State,
    let ran := fun (rank first : Nat) (t : State) => t.time.phase = rank ∧ t.beat = s.beat ∧ t.cyc = max s.cyc first
    (s.mayPhase 1 63 = true → ∃ t, exec .lineageClosing s = .next t ∧ ran 1 0 t) ∧
    (s.mayPhase 2 255 = true → ∃ t, exec .orderIntake s = .next t ∧ ran 2 0 t) ∧
    (s.mayPhase 3 4095 = true → ∀ late, ∃ t, exec (.verdictAggregation late) s = .next t ∧ ran 3 4095 t) ∧
    (s.mayPhase 4 5119 = true → ∃ t, exec .patinaUpdate s = .next t ∧ ran 4 4096 t) ∧
    (s.mayPhase 5 5631 = true → ∃ t, exec .thermalDecisions s = .next t ∧ ran 5 5120 t) ∧
    (s.mayPhase 6 5632 = true → ∃ t, exec .counterSampling s = .next t ∧ ran 6 5632 t) ∧
    (s.mayPhase 7 7935 = true → ∃ t, exec .dispatch s = .next t ∧ ran 7 5632 t) ∧
    (s.mayPhase 8 8191 = true → ∃ t, exec .statusPosting s = .next t ∧ ran 8 7936 t) ∧
    (s.mayPhase 1 63 = false → exec .lineageClosing s = .next s) ∧
    (s.mayPhase 2 255 = false → exec .orderIntake s = .next s) ∧
    (s.mayPhase 3 4095 = false → ∀ late, exec (.verdictAggregation late) s = .next s) ∧
    (s.mayPhase 4 5119 = false → exec .patinaUpdate s = .next s) ∧
    (s.mayPhase 5 5631 = false → exec .thermalDecisions s = .next s) ∧
    (s.mayPhase 6 5632 = false → exec .counterSampling s = .next s) ∧
    (s.mayPhase 7 7935 = false → exec .dispatch s = .next s) ∧
    (s.mayPhase 8 8191 = false → exec .statusPosting s = .next s)

/-- ORDER_INTAKE takes at most 32 orders, all written before the tick, and DISPATCH gives every order its turn. On a
live chip whose intake may run, ORDER_INTAKE completes: the orders taken stand behind those already running,
they are at most 32, each is the word of a slot of its own master that was in the window and not written since
the tick, that slot is empty afterwards, and every slot that waits for the next tick keeps its order. With no
order running, both status rings read out and at most 30 orders written before the tick, every one of them is
taken. On a live chip whose dispatch may run, and that is not about to shut down, DISPATCH completes: the same
orders stand in the same sequence, and every one of them has had its turn. On a frozen chip neither phase
touches an order, the map or the stack. It says of each of these commands, under conditions on the state and the
operands alone, that it completes: ORDER_INTAKE, DISPATCH. (spec/02_plinth_and_beat.md R65;
spec/02_plinth_and_beat.md R66; spec/15_register_pages.md R461) -/
def Obligations.IntakeAndDispatch : Prop :=
  (∀ s : State, s.live = true → s.mayPhase 2 255 = true →
    ∃ t new, exec .orderIntake s = .next t ∧ t.ord.orders = s.ord.orders ++ new ∧ new.length ≤ 32 ∧
      (∀ o ∈ new, OrderRef.own o.ref = true ∧ o.word = s.window o.ref.slot ∧ o.word ≠ 0 ∧ o.ref.slot ∉ s.ord.waiting ∧
        t.window o.ref.slot = 0 ∧ o.done = none ∧ o.turn = false) ∧
      (∀ k ∈ s.ord.waiting, t.window k = s.window k)) ∧
  (∀ s : State, s.live = true → s.mayPhase 7 7935 = true → s.life.shutdownEvent = none → (s.ord.orders.map fun o => o.id).Nodup →
    ∃ t, exec .dispatch s = .next t ∧ (t.ord.orders.map fun o => (o.id, o.word, o.ref)) = (s.ord.orders.map fun o => (o.id, o.word, o.ref)) ∧
      ∀ o ∈ t.ord.orders, o.turn = true) ∧
  (∀ s : State, s.life.frozen = true → s.mayPhase 7 7935 = true →
    ∃ t, exec .dispatch s = .next t ∧ t.ord = s.ord ∧ t.map = s.map ∧ t.stack = s.stack) ∧
  (∀ s : State, s.life.frozen = true → s.mayPhase 2 255 = true →
    ∃ t, exec .orderIntake s = .next t ∧ t.ord = s.ord ∧ t.map = s.map ∧ t.stack = s.stack) ∧
  (∀ s : State, s.live = true → s.mayPhase 2 255 = true → s.ord.orders = [] →
    s.ord.hostWr = (s.reg Reg.orderHostRd).setWidth 32 → s.ord.mgmtWr = (s.reg Reg.orderMgmtRd).setWidth 32 →
    ((List.range 64).filter fun k => s.window k != 0 && !s.ord.waiting.contains k).length ≤ 30 →
    ∃ t, exec .orderIntake s = .next t ∧ ∀ k, k < 64 → k ∉ s.ord.waiting → s.window k ≠ 0 →
      t.window k = 0 ∧ ∃ o ∈ t.ord.orders, o.ref.slot = k ∧ o.word = s.window k)

/-- LINEAGE_CLOSING writes every node's record of the beat before. While lineage records are being written,
LINEAGE_CLOSING of a live chip closes at every node the record of the beat before: it is the word of what was
entered (Table 5.1), the older records within 64 beats stay, and the last closed beat is shown. It says of this
command, under conditions on the state and the operands alone, that it completes: LINEAGE_CLOSING.
(spec/05_containment_and_taint.md R163; spec/05_containment_and_taint.md Table 5.1) -/
def Obligations.LineageRecordCloses : Prop :=
  ∀ (s : State) (u : Nat), s.live = true → s.mayPhase 1 63 = true → s.contain.linOn = true → u < numTiles →
    (∀ e ∈ (s.tile u).core.linRecs, e.1 < s.beat - 1) →
    ∃ t, exec .lineageClosing s = .next t ∧ t.contain.lastClosed = some (s.beat - 1) ∧
      (t.tile u).core.linRec (s.beat - 1) = linWord (s.beat - 1) (s.tile u).core.lin ∧
      (∀ b, b < s.beat - 1 → s.beat - 1 < b + 64 → (t.tile u).core.linRec b = (s.tile u).core.linRec b)

/-- VERDICT_AGGREGATION and LATE_SUMMARY apply a summary once. At Ready VERDICT_AGGREGATION that does not name a
node late takes its one summary of the beat before, whose acknowledgement is in or whose packet comes, adds the
summary's counts to the tile's patina inputs and closes the counts of late and throttled summaries. The one
node's summary that it names late stays, with the tile's patina inputs as they were. So does one whose packet
was discarded on its way. A summary of an older beat is taken by LATE_SUMMARY, which adds its counts, counts it
in LATE_REPORTS and for the BEAT_LATE event of this beat; that event is logged when the aggregation closes. It
says of each of these commands, under conditions on the state and the operands alone, that it completes:
VERDICT_AGGREGATION, LATE_SUMMARY. (spec/02_plinth_and_beat.md R69; spec/03_armature_network.md R105;
spec/08_patina_quarantine_repair.md R250) -/
def Obligations.SummariesCountOnce : Prop :=
  (∀ (s : State) (u : Nat) (x : Summary) (late : List Nat), s.ready = true → s.mayPhase 3 4095 = true → u < numTiles →
    (s.tile u).core.sums = [x] → x.beat + 1 = s.beat → u ∉ late → x.st.taken = false →
    (x.st.acked = true ∨ s.onItsWay u 1 = true) →
    ∃ t, exec (.verdictAggregation late) s = .next t ∧ t.time.phase = 3 ∧ t.time.lateNow = 0 ∧ t.arm.flagged = 0 ∧
      (t.tile u).core.sums = [] ∧
      (t.tile u).pat.sums.eccCorr = (s.tile u).pat.sums.eccCorr + x.eccCorr ∧
      (t.tile u).pat.sums.eccUncorr = (s.tile u).pat.sums.eccUncorr + x.eccUncorr ∧
      (t.tile u).pat.sums.sealFault = (s.tile u).pat.sums.sealFault + x.sealFault ∧
      (t.tile u).pat.sums.droop = (s.tile u).pat.sums.droop + x.droop ∧
      (s.time.lateNow ≠ 0 → mkRec t.time.time 0x0017 srcPlinth 0 .note
        (pack [(32, 32, s.time.lateNow), (0, 32, s.time.lateOldest)]) ∈ t.ev.queue)) ∧
  (∀ (s : State) (u : Nat) (x : Summary) (late : List Nat), s.ready = true → s.mayPhase 3 4095 = true → u < numTiles →
    (∀ v, v ≠ u → (s.tile v).core.sums = []) → (s.tile u).core.sums = [x] → x.beat + 1 = s.beat → u ∈ late →
    ∃ t, exec (.verdictAggregation late) s = .next t ∧ t.time.phase = 3 ∧ t.time.lateNow = 0 ∧ t.arm.flagged = 0 ∧
      (t.tile u).core.sums = [x] ∧ (t.tile u).pat = (s.tile u).pat) ∧
  (∀ (s : State) (u : Nat) (x : Summary), s.ready = true → s.mayPhase 3 4095 = true → u < numTiles →
    (∀ v, v ≠ u → (s.tile v).core.sums = []) → (s.tile u).core.sums = [x] → x.st.acked = false → x.st.lost = true →
    ∃ t, exec (.verdictAggregation []) s = .next t ∧ (t.tile u).core.sums = [x] ∧ (t.tile u).pat = (s.tile u).pat) ∧
  (∀ (s : State) (u : Nat) (x : Summary), s.ready = true → s.mayPhase 3 4095 = true →
    (s.tile u).core.sums = [x] → x.beat + 1 < s.beat → x.st.taken = false → (x.st.acked = true ∨ s.onItsWay u 1 = true) →
    ∃ t, exec (.lateSummary u) s = .next t ∧ (t.tile u).core.sums = [] ∧ t.time.lateNow = s.time.lateNow + 1 ∧
      t.time.lateOldest = (if s.time.lateNow = 0 then x.beat else min s.time.lateOldest x.beat) ∧
      (t.tile u).pat.sums.eccCorr = (s.tile u).pat.sums.eccCorr + x.eccCorr ∧
      (t.tile u).pat.sums.eccUncorr = (s.tile u).pat.sums.eccUncorr + x.eccUncorr ∧
      (t.tile u).pat.sums.sealFault = (s.tile u).pat.sums.sealFault + x.sealFault ∧
      (t.tile u).pat.sums.droop = (s.tile u).pat.sums.droop + x.droop ∧
      (t.reg Reg.beatLateReports).toNat =
        min ((s.reg Reg.beatLateReports).toNat + 1) (regMask Reg.beatLateReports))

/-- SYNC_PPS, election, exchange, adoption and the domain watch. A SYNC_PPS edge is stamped with its plinth time and
its interval's error against 1,024,000,000 counts is kept. After 250,000 beats without an edge PPS_LOST is set,
and a master drops its lock and logs it. A chip with no trained link elects itself ISOLATED. A follower's lost
exchange counts; one that completes shows its offset and its depth. Adoption loads the master's time at its
tick, shows the step and logs TIME_ADOPTED. A chip that has become master after the loss of its master logs it
once. A domain without an edge for 64 plinth cycles shows as stopped; its first edge clears that and logs GAP.
It says of each of these commands, under conditions on the state and the operands alone, that it completes:
SYNC_PPS_EDGE, PPS_LOST, ELECT, TIMEX, TIME_ADOPT, TIME_MASTER, DOMAIN_STOP_DETECT, GAP.
(spec/02_plinth_and_beat.md R57; spec/02_plinth_and_beat.md R58; spec/02_plinth_and_beat.md R60;
spec/02_plinth_and_beat.md R61; spec/02_plinth_and_beat.md R62; spec/02_plinth_and_beat.md R63;
spec/02_plinth_and_beat.md R73; spec/03_armature_network.md R114) -/
def Obligations.SynchronizationCommands : Prop :=
  (∀ (cyc : Nat) (s : State), s.life.powered = true → s.cyc ≤ cyc → cyc < beatCycles →
    ∃ t, exec (.syncPpsEdge cyc) s = .next t ∧ t.time.ppsStamp = word (s.beat * beatCycles + cyc) ∧ t.time.ppsLost = false ∧
      t.time.ppsBeats = 0 ∧ OnlyChanges [.time, .ev, .arm] s t ∧
      (s.time.ppsSeen = true →
        t.time.ppsErr = BitVec.ofInt 32 ((word (s.beat * beatCycles + cyc) - s.time.ppsStamp).toInt - 1024000000))) ∧
  (∀ s : State, s.life.powered = true → s.time.ppsLost = false → 250000 ≤ s.time.ppsBeats →
    ∃ t, exec .ppsLost s = .next t ∧ t.time.ppsLost = true ∧ t.time.ppsGood = 0 ∧ OnlyChanges [.time, .ev] s t ∧
      (s.isMaster = true → t.time.ppsLock = false ∧
        t.ev.queue = s.ev.queue ++ [mkRec s.time.time 0x0015 srcPlinth 0 .note s.time.ppsStamp]) ∧
      (s.isMaster = false → t.time.ppsLock = s.time.ppsLock ∧ t.ev = s.ev)) ∧
  (∀ (advs : List ElectAdv) (s : State), s.life.powered = true → 4 ≤ s.life.stage →
    (∀ n, n < numLinks → s.trained n = false) →
    ∃ t, exec (.elect advs) s = .next t ∧ t.time.state = 4 ∧ t.time.masterId = Config.chipId ∧ t.time.uplink = 0x3F ∧
      t.time.depth = 0 ∧ t.time.skewMet = true ∧ OnlyChanges [.time] s t) ∧
  (∀ (advs : List ElectAdv) (s : State), s.life.powered = true → 4 ≤ s.life.stage →
    (∃ n, n < numLinks ∧ s.trained n = true) → (∀ a ∈ s.electAdvs advs, a.master = none ∨ a.master = some Config.chipId) →
    fld (s.reg Reg.beatSyncCtl) 1 0 ≠ 2 →
    ∃ t, exec (.elect advs) s = .next t ∧ t.time.state = 3 ∧ t.time.masterId = Config.chipId ∧ OnlyChanges [.time] s t) ∧
  (∀ s : State, s.life.powered = true → 4 ≤ s.life.stage → s.time.state = 2 → s.time.missed < 3 →
    ∃ t, exec (.timex none) s = .next t ∧ t.time.missed = s.time.missed + 1 ∧ t.time.good = s.time.good ∧
      OnlyRegs [Reg.armSentLost] s t ∧ OnlyChanges [.time, .regs] s t) ∧
  (∀ (x : TimexIn) (s : State), s.life.powered = true → 4 ≤ s.life.stage → s.time.state = 2 →
    ∃ t, exec (.timex (some x)) s = .next t ∧ t.time.offset = BitVec.ofInt 32 (timexOffset x) ∧ t.time.missed = 0 ∧
      t.time.depth = x.depth + 1 ∧ t.time.slewPend = timexCounts x ∧ OnlyChanges [.time, .ev] s t) ∧
  (∀ (master : Word) (s : State), s.life.powered = true → s.life.stage = 4 → s.time.state = 2 → s.time.adopted = false →
    master.toNat % beatCycles = 0 →
    ∃ t, exec (.timeAdopt master) s = .next t ∧ t.time.time = master ∧ t.time.adopted = true ∧
      t.time.adoptStep = master - s.time.time ∧ t.time.slewPend = 0 ∧
      mkRec master 0x0011 srcPlinth 0 .info (master - s.time.time) ∈ t.ev.queue) ∧
  (∀ s : State, s.life.powered = true → s.time.state = 3 → s.time.masterLost = true →
    exec .timeMaster s = .next ({ s with time.masterLost := false }.raise (mkRec s.time.time 0x0012 srcPlinth 0 .note Config.chipId))) ∧
  (∀ (d : Nat) (lastEdge : Word) (s : State), s.life.powered = true → 1 ≤ d → d ≤ 25 → s.time.stopped.getLsbD d = false →
    lastEdge.toNat + 64 ≤ s.time.time.toNat →
    ∃ t, exec (.domainStopDetect d lastEdge) s = .next t ∧ t.time.stopped.getLsbD d = true ∧
      tget 0 t.time.lastEdge d = lastEdge ∧ OnlyChanges [.time] s t ∧
      (∀ e, e ≠ d → t.time.stopped.getLsbD e = s.time.stopped.getLsbD e)) ∧
  (∀ (d cyc : Nat) (s : State), s.life.powered = true → 17 ≤ d → d ≤ 25 → s.time.stopped.getLsbD d = true →
    s.time.ordered.getLsbD d = false → s.cyc = cyc → s.castPhase ≠ 3 → s.stack.stopWaits = [] →
    (∀ u, (s.tile u).core.resumeDue = false) →
    ∃ t, exec (.gap d cyc) s = .next t ∧ t.time.stopped.getLsbD d = false ∧ OnlyChanges [.time, .ev] s t ∧
      t.ev.queue = s.ev.queue ++ [mkRec s.time.time 0x0010 srcPlinth 0 .note
        (pack [(56, 8, d), (0, 56, (tget 0 s.time.lastEdge d).toNat)])])

/-- STATUS_POSTING writes the queued records in order and freezes on a FATAL one. On a live chip with room in the
event ring, no order running, no lost records, no report that waits to be published and no shutdown,
STATUS_POSTING writes every record that has reached the hub, in order (those of the nodes whose packets come
among them: every one of them, where no packet of a node was discarded on its way), under consecutive SEQ
numbers; each sets its bit of PAGE_EVT_PEND and the queue is empty. A FATAL record freezes the chip: CHM_FATAL_N
falls and the freeze time is kept. Without one the chip stays as it was. It says of this command, under
conditions on the state and the operands alone, that it completes: STATUS_POSTING. (spec/15_register_pages.md
R450; spec/15_register_pages.md R456; spec/13_counters_trace_debug.md R416; spec/01_host_chip_boundary.md R47) -/
def Obligations.PostingWritesTheRing : Prop :=
  ∀ s : State, s.live = true → s.mayPhase 8 8191 = true → s.ord.orders = [] → s.ev.lostNow = 0 →
    s.closedRecords = [] → s.life.shutdownEvent = none → s.life.freezePending = false → s.contain.ready = [] →
    s.ev.held + s.ev.queue.length + s.ev.flight.length ≤ 7680 →
    bit (s.reg Reg.evtEvtCtl) 0 = false →
    let rs := s.eventsIn.ev.queue
    ((∀ e ∈ s.ev.flight, ∃ x, tget none s.ev.stream e.1 = some x ∧ x.lost = false ∧ x.xid = tget 0 s.ev.xids e.1 ∧
      s.lastXid (.report e.1 2) ≠ some x.xid) → rs = s.ev.queue ++ s.ev.flight.map (·.2) ∧ s.eventsIn.ev.flight = []) ∧
    ∃ t, exec .statusPosting s = .next t ∧ t.ev.queue = [] ∧ t.ev.flight = s.eventsIn.ev.flight ∧
      t.ev.lastSeq = s.ev.lastSeq + BitVec.ofNat 28 rs.length ∧ t.ev.held = s.ev.held + rs.length ∧
      (∀ i r, rs[i]? = some r → ((t.pend r.page).getLsbD r.pendBit = true) ∧
        tget none t.ev.store ((s.ev.lastSeq + BitVec.ofNat 28 (i + 1)).toNat % 8192) =
          some (r, s.ev.lastSeq + BitVec.ofNat 28 (i + 1))) ∧
      (t.life.frozen = rs.any fun r => r.sev = .fatal) ∧
      (t.life.frozen = true → t.fatalN = false) ∧ (t.life.frozen = false → t.fatalN = s.fatalN)

/-- EVENT_HOST_COPY moves held records; unmasking sends what was pending. EVENT_HOST_COPY with HOST_EN 1, records
held and room in the host ring copies as many records as are held and fit, the oldest first: its 32 bytes go to
HOST_BASE + (WR mod HOST_SIZE) × 32, WR advances by the records copied and no byte outside the ring changes. It
copies nothing with HOST_EN 0. Unmasking an MSI-X entry clears its mask, and sends its message exactly when one
was pending. It says of each of these commands, under conditions on the state and the operands alone, that it
completes: EVENT_HOST_COPY, MSIX_ENTRY_UNMASK. (spec/15_register_pages.md R457; spec/01_host_chip_boundary.md
R39) -/
def Obligations.HostCopyAndMessages : Prop :=
  (∀ s : State, s.life.powered = true → bit (s.reg Reg.evtEvtCtl) 0 = false → exec .eventHostCopy s = .next s) ∧
  (∀ (s : State) (r : EvRec) (seq : BitVec 28), s.life.powered = true → bit (s.reg Reg.evtEvtCtl) 0 = true →
    let size := (s.reg Reg.evtHostSize).toNat
    let used := s.ev.hostWr.toNat - (s.reg Reg.evtHostRd).toNat
    let n := min s.ev.held (size - used)
    1 ≤ s.ev.held → s.ev.held ≤ 8192 → used < size → s.ev.hostWr.toNat + s.ev.held < 2 ^ 32 →
    (s.reg Reg.evtHostRd).toNat ≤ s.ev.hostWr.toNat →
    (∀ i, i < n → tget none s.ev.store ((s.oldestHeld + i) % 8192) ≠ none) →
    tget none s.ev.store (s.oldestHeld % 8192) = some (r, seq) →
    ∃ t, exec .eventHostCopy s = .next t ∧
      t.ev = { s.ev with held := s.ev.held - n, hostWr := s.ev.hostWr + BitVec.ofNat 32 n } ∧
      OnlyChanges [.ev, .hostMem] s t ∧
      (let a := (s.reg Reg.evtHostBase).toNat
       t.hostMem.readBytes (a + s.ev.hostWr.toNat % size * 32) 32 = recordBytes r seq ∧
       ∀ b, (b < a ∨ a + size * 32 ≤ b) → t.hostMem.read b = s.hostMem.read b)) ∧
  (∀ (v : Nat) (s : State), s.life.powered = true → v < 10 →
    ∃ t, exec (.msixEntryUnmask v) s = .next t ∧ t.ev.msixMask.getLsbD v = false ∧ t.ev.msixPend.getLsbD v = false ∧
      OnlyChanges [.ev] s t ∧ (s.ev.msixPend.getLsbD v = true → t.ev.msixSent = [v]) ∧
      (s.ev.msixPend.getLsbD v = false → t.ev.msixSent = s.ev.msixSent))

/-- What the machine holds right after a whole-chip reset. Right after reset: plinth time is 0 and stage S0 is
running; every register of the window reads the reset value of its table (ORDER_CTL 1, THERM_CTL, LIMITS and
MOULD_WIN at their defaults among them); no event is pending, no record is held and both status rings are empty;
every patina accumulator is 0; logical tile (lr, lc) stands on physical row lr + lr div 8; CHM_FATAL_N and
THERM_TRIP_N are high; no page is locked, every memory is in its canonical form; and no command waits.
(spec/14_bringup_reset_repose.md R435; spec/02_plinth_and_beat.md R53; spec/01_host_chip_boundary.md R27;
spec/10_thermal.md; spec/15_register_pages.md) -/
def Obligations.ResetState : Prop :=
  State.reset.time.time = 0 ∧ State.reset.life.stage = 0 ∧ State.reset.life.frozen = false ∧
  (∀ k, State.reset.reg k = regReset k) ∧ (∀ k, State.reset.inForce k = regReset k) ∧
  State.reset.reg 0x02100 = 1 ∧ State.reset.reg Reg.thermThermCtl = 0x7D0C00100804 ∧
  State.reset.reg Reg.thermLimits = 0x40002000055F69 ∧ State.reset.reg Reg.thermMouldWin = 0x5A ∧
  (∀ p, State.reset.pend p = 0) ∧ State.reset.ev.held = 0 ∧ State.reset.ord.hostWr = 0 ∧ State.reset.ord.mgmtWr = 0 ∧
  State.reset.ord.hostNext = 0 ∧ State.reset.ord.mgmtNext = 56 ∧ (∀ k, State.reset.window k = 0) ∧
  (∀ t, (State.reset.tile t).pat.acc = 0 ∧ (State.reset.tile t).core.cur = none) ∧
  (∀ r c, r < 32 → c < 32 → State.reset.phys (r * 32 + c) = (r + r / 8) * 32 + c) ∧
  State.reset.fatalN = true ∧ State.reset.tripN = true ∧ State.reset.pending = [] ∧
  State.reset.MemWf ∧ (∀ p, ¬ State.reset.locked p)

/-- A whole-chip reset loses everything volatile, in every state. In any state with power (any stage, Repose,
frozen) WHOLE_CHIP_RESET answers the state right after reset: every domain starts again at S0 with plinth time 0
and what S0 collects; only what Table 14.5 keeps crosses it (fuses and the cast store, with the PFID straps
sampled again; the hub asks every node for its state with one STATE_READ), and host memory and the sender's
queue, which are not the chip's. PLINTH_POWER_GOOD does the same for a chip without power, and POWER_REMOVED
leaves a chip without power that keeps no more. It says of each of these commands, under conditions on the state
and the operands alone, that it completes: PLINTH_POWER_GOOD, WHOLE_CHIP_RESET, POWER_REMOVED. (R435) -/
def Obligations.WholeChipReset : Prop :=
  (∀ (i : S0In) (s : State), s.life.powered = true →
    exec (.wholeChipReset i) s = .next (({ State.reset with
      life := { State.reset.life with powered := true, collected := true, powerGood := i.powerGood, silent := i.silent }
      arm := { State.reset.arm with
        ondieOk := i.silent.isEmpty, routes := allTiles.map fun u => (u, routeBits (routeWord u (hubPortTile u))) }
      nv := { s.nv with pfid := i.pfid }, hostMem := s.hostMem, free := s.free, pending := s.pending } : State).askNodes i.silent)) ∧
  (∀ (i : S0In) (s : State), s.life.powered = false →
    exec (.plinthPowerGood i) s = .next (({ State.reset with
      life := { State.reset.life with powered := true, collected := true, powerGood := i.powerGood, silent := i.silent }
      arm := { State.reset.arm with
        ondieOk := i.silent.isEmpty, routes := allTiles.map fun u => (u, routeBits (routeWord u (hubPortTile u))) }
      nv := { s.nv with pfid := i.pfid }, hostMem := s.hostMem, free := s.free, pending := s.pending } : State).askNodes i.silent)) ∧
  (∀ s : State, s.life.powered = true →
    exec .powerRemoved s = .next { State.reset with
      life := { State.reset.life with powered := false }
      nv := s.nv, hostMem := s.hostMem, free := s.free, pending := s.pending })

/-- Each stage of bring-up ends with its report word and the next begins. In its stage of a chip that has not
failed: S1 ends once firmware is ready and the fuses read, drawing SEED and XSEED anew; S2 ends with every block
of the stack zero under an empty seal word once every layer trained; S3 ends with every node holding the hub's
map of generation 1; S4 ends at Ready. Each end writes the report word of its stage with the stage's number and
its elapsed beats and enters the next stage at beat 0 of it. Fuses that do not read, or a layer that does not
train, log BRINGUP_FAIL and stop bring-up in the stage. A stage at its limit ends with what it has: S0 by what
power good was collected, S1 with FW_LATE when firmware is not ready, S2 to S4 as they end otherwise. It says of
each of these commands, under conditions on the state and the operands alone, that it completes: STAGE_S1,
STAGE_S2, STAGE_S3, STAGE_S4, STAGE_LIMIT. (spec/14_bringup_reset_repose.md R428;
spec/14_bringup_reset_repose.md R432; spec/14_bringup_reset_repose.md Table 14.1; spec/09_memory_boundary.md
R288; spec/08_patina_quarantine_repair.md R255) -/
def Obligations.StagesFollowOneAnother : Prop :=
  (∀ (i : S1In) (s : State), s.inStage 1 = true → s.life.fwReady = true → i.fuseOk = true →
    ∃ t, exec (.stageS1 i) s = .next t ∧ t.life.stage = 2 ∧ t.life.stageBeats = 0 ∧
      fld (t.reg (Reg.bringupReport + 8)) 63 60 = 1 ∧
      fld (t.reg (Reg.bringupReport + 8)) 55 32 = s.life.stageBeats % 2 ^ 24 ∧
      t.reg Reg.maqSeed = i.seed ∧ t.reg Reg.chiselXseed = i.xseed) ∧
  (∀ (i : S1In) (s : State), s.inStage 1 = true → s.life.fwReady = true → i.fuseOk = false →
    ∃ t, exec (.stageS1 i) s = .next t ∧ t.life.stage = 1 ∧ t.life.worst = 2 ∧
      fld (t.reg (Reg.bringupReport + 8)) 59 58 = 2 ∧ OnlyRegs [Reg.bringupReport + 8] s t ∧ OnlyChanges [.life, .ev, .regs] s t ∧
      t.ev.queue = s.ev.queue ++ [mkRec s.time.time 0x00D1 srcPlinth 0 .fatal (pack [(60, 4, 1), (56, 4, 3), (0, 32, 0)])]) ∧
  (∀ (i : S2In) (s : State), s.inStage 2 = true → i.trained = BitVec.allOnes 12 →
    ∃ t, exec (.stageS2 i) s = .next t ∧ t.life.stage = 3 ∧ t.life.stageBeats = 0 ∧
      fld (t.reg (Reg.bringupReport + 16)) 63 60 = 2 ∧ fld (t.reg (Reg.bringupReport + 16)) 55 32 = s.life.stageBeats % 2 ^ 24 ∧
      t.stack.mem = [] ∧ (∀ u l b, t.stackSeal u l b = emptySeal)) ∧
  (∀ (i : S2In) (s : State), s.inStage 2 = true → i.trained ≠ BitVec.allOnes 12 →
    ∃ t, exec (.stageS2 i) s = .next t ∧ t.life.stage = 2 ∧ t.life.worst = 2 ∧ t.stack = s.stack ∧
      fld (t.reg (Reg.bringupReport + 16)) 59 58 = 2 ∧ (∃ r ∈ t.ev.queue, r.code = 0xD1 ∧ r.sev = .fatal)) ∧
  (∀ s : State, s.inStage 3 = true →
    ∃ t, exec .stageS3 s = .next t ∧ t.life.stage = 4 ∧ t.life.stageBeats = 0 ∧ t.map.hub.gen = 1 ∧
      fld (t.reg (Reg.bringupReport + 24)) 63 60 = 3 ∧ fld (t.reg (Reg.bringupReport + 24)) 55 32 = s.life.stageBeats % 2 ^ 24 ∧
      (∀ u, u < numTiles → (t.tile u).core.ni = t.map.hub ∧ (t.tile u).core.nodeGen = 1 ∧
        (t.tile u).core.router = t.fenced u)) ∧
  (∀ (ls : List LinkTrain) (s : State), s.inStage 4 = true →
    ∃ t, exec (.stageS4 ls) s = .next t ∧ t.life.stage = 5 ∧ t.life.stageBeats = 0 ∧ t.life.readyBeat = s.beat ∧
      fld (t.reg (Reg.bringupReport + 32)) 63 60 = 4 ∧ fld (t.reg (Reg.bringupReport + 32)) 55 32 = s.life.stageBeats % 2 ^ 24 ∧
      fld (t.reg (Reg.bringupReport + 40)) 63 60 = 5 ∧ fld (t.reg (Reg.bringupReport + 40)) 55 32 = s.life.allBeats % 2 ^ 24) ∧
  (∀ (i1 : S1In) (i2 : S2In) (ls : List LinkTrain) (s : State), s.inStage 0 = true → 250 ≤ s.life.stageBeats →
    powerOk s.life.powerGood = true →
    ∃ t, exec (.stageLimit i1 i2 ls) s = .next t ∧ t.life.stage = 1 ∧ t.life.stageBeats = 0) ∧
  (∀ (i1 : S1In) (i2 : S2In) (ls : List LinkTrain) (s : State), s.inStage 0 = true → 250 ≤ s.life.stageBeats →
    powerOk s.life.powerGood = false →
    ∃ t, exec (.stageLimit i1 i2 ls) s = .next t ∧ t.life.stage = 0 ∧ t.life.worst = 2 ∧ fld (t.reg Reg.bringupReport) 59 58 = 2 ∧
      OnlyRegs [Reg.bringupReport] s t ∧ OnlyChanges [.life, .ev, .regs] s t) ∧
  (∀ (i1 : S1In) (i2 : S2In) (ls : List LinkTrain) (s : State), s.live = true → s.life.worst ≠ 2 →
    (s.life.stage = 1 → 62500 ≤ s.life.stageBeats → i1.fuseOk = true →
      ∃ t, exec (.stageLimit i1 i2 ls) s = .next t ∧ t.life.stage = 2 ∧ t.life.stageBeats = 0 ∧
        fld (t.reg (Reg.bringupReport + 8)) 30 30 = b2n (!s.life.fwReady)) ∧
    (s.life.stage = 2 → 150000 ≤ s.life.stageBeats → exec (.stageLimit i1 i2 ls) s = exec (.stageS2 i2) s) ∧
    (s.life.stage = 3 → 250 ≤ s.life.stageBeats → exec (.stageLimit i1 i2 ls) s = exec .stageS3 s) ∧
    (s.life.stage = 4 → 87000 ≤ s.life.stageBeats → exec (.stageLimit i1 i2 ls) s = exec (.stageS4 ls) s))

/-- Links go down and train again; Repose is entered and left. A trained link that goes down shows DOWN with width
0, logs LINK_DOWN as a FAULT and counts no other link down. At S4 the first round of training gives each DOWN
link the widest of 8, 4 or 2 lanes for which enough passed. When every stream stands and no test is left, an
entry to Repose completes: each tile is saved, the region clocks stand still, and trained links carry the
sentinel class only. A wake that completes starts them again, restores the SRAM images and reopens the links. An
entry whose gather reaches its limit is abandoned. It says of each of these commands, under conditions on the
state and the operands alone, that it completes: LINK_DOWN, LINK_RETRAIN, GATHER_TIMEOUT, REPOSE_GATHER_DONE,
WAKE_DONE. (spec/14_bringup_reset_repose.md R433; spec/14_bringup_reset_repose.md R434;
spec/14_bringup_reset_repose.md R439; spec/14_bringup_reset_repose.md R441) -/
def Obligations.LinksAndRepose : Prop :=
  (∀ (n : Nat) (s : State), s.live = true → 4 ≤ s.life.stage → s.trained n = true →
    ∃ t, exec (.linkDown n) s = .next t ∧ t.link n = { s.link n with state := 0, width := 0 } ∧
      (∀ j, j ≠ n → t.link j = s.link j) ∧
      t.logged (mkRec s.time.time 0x00D2 (srcLink n) 0x1F .fault (pack [(58, 6, n), (50, 8, (s.link n).laneOk.toNat)]))) ∧
  (∀ (ls : List LinkTrain) (s : State), s.live = true → s.life.stage = 4 → s.life.retrain = none →
    ∃ t, exec (.linkRetrain ls) s = .next t ∧ t.life.retrain = some s.life.allBeats ∧
      (∀ n, n < numLinks → (s.link n).state = 0 →
        (t.link n).width = linkWidth ((ls.find? fun x => x.link == n).map (·.laneOk) |>.getD 0)) ∧
      (∀ n, (s.link n).state ≠ 0 → t.link n = s.link n)) ∧
  (∀ s : State, s.ready = true → s.life.repose = 1 → s.reposeReady = true → s.life.reposeOrder = none →
    ∃ t, exec .reposeGatherDone s = .next t ∧ t.life.repose = 2 ∧ t.stack.save = s.tiles ∧ t.stack.saveSram = s.stack.sram ∧
      (∀ g, g < numRegions → t.regionStopped g = true) ∧
      (∀ n, s.trained n = true → (t.link n).state = 4) ∧
      (t.reg Reg.powerReposeCount).toNat = min ((s.reg Reg.powerReposeCount).toNat + 1) (regMask Reg.powerReposeCount)) ∧
  (∀ s : State, s.ready = true → s.life.repose = 3 → s.life.reposeOrder = none → s.arm.parked = [] →
    ∃ t, exec (.wakeDone s.cyc) s = .next t ∧ t.life.repose = 0 ∧ t.stack.sram = s.stack.saveSram ∧
      (∀ g, g < numRegions → t.regionStopped g = false) ∧
      (∀ u, u < numTiles → (t.tile u).core.ni = s.map.hub ∧ (t.tile u).core.castStop = false) ∧
      (∀ n, n < numLinks → (s.link n).state = 4 → (t.link n).state = if (s.link n).width == 8 then 2 else 3)) ∧
  (∀ s : State, s.ready = true → s.life.repose = 1 → s.life.reposeOrder = none → s.cast.run = none →
    s.life.reposeStart + fld (s.inForce Reg.powerReposeCtl) 15 0 ≤ s.beat →
    ∃ t, exec .gatherTimeout s = .next t ∧ t.life.repose = 0)

/-- FENCE_APPLY, UNFENCE_APPLY, MAP_COMMIT, MAP_LOAD at a node, and NI_MAP_APPLY. At a node that takes it at once
and has no change pending: FENCE_APPLY naming its tile queues the change for its NI, adopts the generation,
closes its router and stops its stream; a running command that no STEP watches becomes INTERRUPTED.
UNFENCE_APPLY of another kind than RELEASE naming a closed tile opens it, and an INTERRUPTED stream stays
HALTED. MAP_COMMIT within its region queues the change and adopts its generation; to a tile of another region it
answers REJECTED. A MAP_LOAD section without LAST goes to the load buffer alone. NI_MAP_APPLY applies the oldest
queued change to the NI of a running region. No other tile changes. It says of each of these commands, under
conditions on the state and the operands alone, that it completes: FENCE_APPLY, UNFENCE_APPLY, MAP_COMMIT,
MAP_LOAD, NI_MAP_APPLY. (spec/08_patina_quarantine_repair.md R257; spec/08_patina_quarantine_repair.md R265;
spec/08_patina_quarantine_repair.md R266; spec/08_patina_quarantine_repair.md R278) -/
def Obligations.NodeMapOperations : Prop :=
  (∀ (n : NodeOp) (s : State), s.nodeReady 0x01 n → (fenceReq n.operand).ok = true → (fenceReq n.operand).rect = none →
    (fenceReq n.operand).fence = true → (fenceReq n.operand).phys = n.node → (s.tile n.node).core.niPend = [] →
    (s.tile n.node).core.router = false →
    ∃ t, exec (.fenceApply n) s = .next t ∧ OnlyTiles [n.node] s t ∧ (t.tile n.node).core.router = true ∧
      (t.tile n.node).core.fenceStop = true ∧ (t.tile n.node).core.niPend = [(1, n.operand)] ∧
      (t.tile n.node).core.nodeGen = BitVec.ofNat 16 (ofld n.operand 47 32) ∧
      ((s.tile n.node).core.running = true → (s.tile n.node).core.stepping = false →
        (t.tile n.node).core.interrupted = true)) ∧
  (∀ (n : NodeOp) (s : State), s.nodeReady 0x02 n → (fenceReq n.operand).ok = true → (fenceReq n.operand).rect = none →
    (fenceReq n.operand).fence = true → (fenceReq n.operand).phys = n.node → (fenceReq n.operand).kind ≠ 5 →
    (s.tile n.node).core.niPend = [] → (s.tile n.node).core.router = true →
    ∃ t, exec (.unfenceApply n) s = .next t ∧ OnlyTiles [n.node] s t ∧
      OnlyChanges [.tiles, .arm, .ev, .dbg, .free, .time] s t ∧
      (t.tile n.node).core.router = false ∧ (t.tile n.node).core.fenceStop = false ∧
      (t.tile n.node).core.halted = ((s.tile n.node).core.halted || (s.tile n.node).core.interrupted)) ∧
  (∀ (n : NodeOp) (s : State), s.nodeReady 0x16 n →
    (numTiles ≤ ofld n.operand 85 75 ∨ regionOf (ofld n.operand 85 75) ≠ regionOfLogical (ofld n.operand 95 86)) →
    ∃ t, exec (.mapCommit n) s = .next t ∧ t.replied n.node rREJECTED ∧ OnlyChanges [.arm, .ev] s t) ∧
  (∀ (n : NodeOp) (s : State), s.nodeReady 0x16 n → ofld n.operand 85 75 < numTiles →
    regionOf (ofld n.operand 85 75) = regionOfLogical (ofld n.operand 95 86) →
    ∃ t, exec (.mapCommit n) s = .next t ∧ OnlyChanges [.tiles, .arm, .ev] s t ∧ OnlyTiles [n.node] s t ∧
      (t.tile n.node).core.niPend = (s.tile n.node).core.niPend ++ [(0x16, n.operand)] ∧
      (t.tile n.node).core.nodeGen = BitVec.ofNat 16 (ofld n.operand 73 58) ∧ (t.tile n.node).core.ni = (s.tile n.node).core.ni) ∧
  (∀ (n : NodeOp) (data : List Flit) (m : NiMap) (s : State), s.nodeReady 0x30 n →
    loadSection (s.tile n.node).core.loadBuf n.operand data = some m → ofld n.operand 72 72 = 0 →
    ∃ t, exec (.mapLoad n data) s = .next t ∧ OnlyChanges [.tiles, .arm, .ev] s t ∧ OnlyTiles [n.node] s t ∧
      (t.tile n.node).core = { (s.tile n.node).core with loadBuf := m }) ∧
  (∀ (u : Nat) (op : BitVec 8) (o : BitVec 96) (rest : List (BitVec 8 × BitVec 96)) (s : State), s.life.powered = true →
    u < numTiles → s.regionStopped (regionOf u) = false → (s.tile u).core.niPend = (op, o) :: rest →
    op.toNat ≠ opMAP_LOAD → (s.tile u).core.stalled = [] → s.stack.holdWaits = [] →
    ∃ t c, exec (.niMapApply u) s = .next t ∧ OnlyChanges [.tiles, .arm] s t ∧ OnlyTiles [u] s t ∧
      c = { (s.tile u).core with niPend := rest, ni := (s.tile u).core.ni.change op.toNat o } ∧
      (t.tile u).core = { c with drains := c.drains.filter fun d => !c.drained d } ∧
      (c.drains.any c.drained = false → t.arm = s.arm) ∧ (c.drains.any c.drained = true → t.replied u rDONE))

/-- FREEZE, PAUSE and RESUME at a node. FREEZE leaves its tile FROZEN, which is what stops its stream, passes, NI
and DMA; at a tile without a pass it changes nothing else of it. PAUSE with FUNC STOP during a gather stops the
stream, and at a stream that stands captures its control state at once; RESUME lets a stream that it stopped run
again, on a tile whose region or stack interface domain is stopped at that domain's first edge. PAUSE with FUNC
COPY of a tile whose logical tile is READY and not copied copies its mould, and writes no byte of the stack
outside the tile's mould. FREEZE, PAUSE STOP and RESUME change no other tile. It says of each of these commands,
under conditions on the state and the operands alone, that it completes: NODE_FREEZE, PAUSE_STOP, PAUSE_COPY,
RESUME. (spec/13_counters_trace_debug.md R416; spec/11_cast_snapshots.md R334; spec/11_cast_snapshots.md R336;
spec/11_cast_snapshots.md R338) -/
def Obligations.NodeStopsAndResumes : Prop :=
  (∀ (n : NodeOp) (s : State), s.nodeReady 0x03 n →
    ∃ t, exec (.nodeFreeze n) s = .next t ∧ OnlyTiles [n.node] s t ∧ (t.tile n.node).core.frozen = true ∧
      ((s.tile n.node).core.pass = none →
        OnlyChanges [.tiles, .arm, .ev] s t ∧ t.tile n.node = { s.tile n.node with core.frozen := true })) ∧
  (∀ (n : NodeOp) (s : State), s.nodeReady 0x04 n → (s.castPhase = 2 ∧ s.servesMaq n.node = false ∨ s.life.repose = 1) →
    ∃ t, exec (.pauseStop n) s = .next t ∧ OnlyTiles [n.node] s t ∧ OnlyChanges [.tiles, .arm, .ev] s t ∧
      (let c := (s.tile n.node).core
       t.tile n.node = { s.tile n.node with
         core.castStop := true
         core.cut := if c.cur.isNone || c.halted || c.interrupted || c.stepping then some c.cutNow else none })) ∧
  (∀ (n : NodeOp) (l : Nat) (r : CastRun) (s : State), s.nodeReady 0x04 n → s.cast.run = some r → s.logical n.node = some l →
    r.phase = 3 → (r.ready.any fun e => e.1 == l) = true → r.copied.contains l = false → s.copyLate l = false →
    s.stackStopped n.node = false →
    ∃ t r', exec (.pauseCopy n) s = .next t ∧ t.cast.run = some r' ∧ l ∈ r'.copied ∧
      (r'.moulds.any fun e => e.1 == n.node) = true ∧
      (∀ x, x < stackBlock n.node 1 mouldFirst * blockBytes ∨ stackBlock n.node 1 (mouldFirst + 1024) * blockBytes ≤ x →
        Memory.read t.stack.mem x = Memory.read s.stack.mem x)) ∧
  (∀ (n : NodeOp) (s : State), s.nodeReady 0x05 n → (s.tile n.node).core.castStop = true → s.cast.run = none →
    s.regionStopped (regionOf n.node) = false → s.stackStopped n.node = false →
    (s.stack.heldWrites.filter fun a => a.tile == n.node) = [] →
    ∃ t, exec (.resume n) s = .next t ∧
      (t.tile n.node).core = { (s.tile n.node).core with castStop := false, resumeDue := false } ∧
      OnlyTiles [n.node] s t ∧ OnlyChanges [.tiles, .stack, .arm, .ev] s t ∧ t.stack.mem = s.stack.mem) ∧
  (∀ (n : NodeOp) (s : State), s.nodeReady 0x05 n → (s.tile n.node).core.castStop = true →
    s.regionStopped (regionOf n.node) = true ∨ s.stackStopped n.node = true →
    ∃ t, exec (.resume n) s = .next t ∧ (t.tile n.node).core = { (s.tile n.node).core with resumeDue := true } ∧
      OnlyTiles [n.node] s t ∧ OnlyChanges [.tiles, .arm] s t)

/-- CHISEL_START, CHISEL_ABORT and SEED_LOAD at a node, and the steps of a session. An ARM function of CHISEL_START
(IDLE, FORCED, WITNESS) at a node that is not armed arms it with that function and the fields of its operand,
and answers by its READY report, at once if the stream stands ready; at one that is armed it changes no tile and
answers IN_CHISEL, and with a field out of range REJECTED. CONTINUE gives the node its segments, and answers by
its reports. FINISH and ABORT end the list, keep their fields and answer DONE; DISARM ends the arming and
answers DONE. SEED_LOAD gives the node its seed and segments; at a tile that carries a logical tile it writes
its SRAM image and state to its save area first. Where its occasion holds, each step of a session goes on: a
tile becomes DUE, is forced, stands READY, is disarmed, starts, is starved, has its hold drained, takes a
result, gives up a witness, is HOLDING, is finished at SESSION_MAX, and reports its REINIT. It says of each of
these commands, under conditions on the state and the operands alone, that it completes: CHISEL_START_ARM_IDLE,
CHISEL_START_ARM_FORCED, CHISEL_START_ARM_WITNESS, CHISEL_START_CONTINUE, CHISEL_ABORT_DISARM,
CHISEL_ABORT_FINISH, CHISEL_ABORT_ABORT, SEED_LOAD, CHISEL_DUE, CHISEL_FORCED, CHISEL_READY, CHISEL_ARM_WAIT,
CHISEL_START_SIGNAL, CHISEL_STARVED, TEST_HOLD_DRAINED, SEGMENT_RESULT, WITNESS_WAIT_EXPIRY, CHISEL_LIST_DONE,
SESSION_MAX_EXPIRY, REINIT_DONE. (spec/07_chisel_in_field_tests.md R218; spec/07_chisel_in_field_tests.md R223;
spec/07_chisel_in_field_tests.md R225; spec/07_chisel_in_field_tests.md R227; spec/07_chisel_in_field_tests.md
R228; spec/07_chisel_in_field_tests.md R233; spec/07_chisel_in_field_tests.md R234;
spec/07_chisel_in_field_tests.md R236; spec/07_chisel_in_field_tests.md R246; spec/07_chisel_in_field_tests.md
R247) -/
def Obligations.NodeTestOperations : Prop :=
  (∀ (n : NodeOp) (s : State),
    let ok := fun f => chiselStartOk (withFunc n 2 f).operand = true
    let armed := fun (f : Nat) (t : State) => OnlyTiles [n.node] s t ∧ OnlyChanges [.tiles, .dbg, .arm, .ev, .free] s t ∧
      (t.tile n.node).chisel = { (s.tile n.node).chisel with node :=
        { arm := f + 1, slot := ofld n.operand 93 89, partner := ofld n.operand 88 78
          units := BitVec.ofNat 16 (ofld n.operand 77 62), session := BitVec.ofNat 32 (ofld n.operand 47 16) } } ∧
      ((s.tile n.node).chisel.state ≠ 4 → t.arm.lastReply = s.arm.lastReply) ∧
      ((s.tile n.node).chisel.state = 4 → t.arm.lastReply =
        some (n.node, (chiselPackets rkREADY 0xF (BitVec.ofNat 32 (ofld n.operand 47 16)) []).flatten))
    let answered := fun (st : Nat) (t : State) => t.replied n.node st ∧ OnlyChanges [.arm, .ev] s t
    (s.nodeReady 0x10 (withFunc n 2 0) →
      (ok 0 → (s.tile n.node).chisel.node.arm = 0 → ∃ t, exec (.chiselStartArmIdle n) s = .next t ∧ armed 0 t) ∧
      (ok 0 → (s.tile n.node).chisel.node.arm ≠ 0 → ∃ t, exec (.chiselStartArmIdle n) s = .next t ∧ answered rIN_CHISEL t) ∧
      (¬ ok 0 → ∃ t, exec (.chiselStartArmIdle n) s = .next t ∧ answered rREJECTED t)) ∧
    (s.nodeReady 0x10 (withFunc n 2 1) →
      (ok 1 → (s.tile n.node).chisel.node.arm = 0 → ∃ t, exec (.chiselStartArmForced n) s = .next t ∧ armed 1 t) ∧
      (ok 1 → (s.tile n.node).chisel.node.arm ≠ 0 → ∃ t, exec (.chiselStartArmForced n) s = .next t ∧ answered rIN_CHISEL t) ∧
      (¬ ok 1 → ∃ t, exec (.chiselStartArmForced n) s = .next t ∧ answered rREJECTED t)) ∧
    (s.nodeReady 0x10 (withFunc n 2 2) →
      (ok 2 → (s.tile n.node).chisel.node.arm = 0 → ∃ t, exec (.chiselStartArmWitness n) s = .next t ∧ armed 2 t) ∧
      (ok 2 → (s.tile n.node).chisel.node.arm ≠ 0 → ∃ t, exec (.chiselStartArmWitness n) s = .next t ∧ answered rIN_CHISEL t) ∧
      (¬ ok 2 → ∃ t, exec (.chiselStartArmWitness n) s = .next t ∧ answered rREJECTED t))) ∧
  (∀ (n : NodeOp) (s : State), s.nodeReady 0x10 (withFunc n 2 3) → chiselStartOk (withFunc n 2 3).operand = true →
    ∃ t, exec (.chiselStartContinue n) s = .next t ∧ OnlyTiles [n.node] s t ∧ t.arm.lastReply = s.arm.lastReply ∧
      (t.tile n.node).chisel = { (s.tile n.node).chisel with
        node.segs := BitVec.ofNat 16 (ofld n.operand 61 48), node.segBeat := s.beat }) ∧
  (∀ (n : NodeOp) (s : State),
    let ended := fun (f : Nat) (t : State) => t.replied n.node rDONE ∧ OnlyTiles [n.node] s t ∧
      (t.tile n.node).chisel = { (s.tile n.node).chisel with
        node.segs := 0, node.finish := f, node.reason := ofld n.operand 88 84
        node.retire := f == 1 && ofld n.operand 83 83 == 1
        node.rowBad := if f == 1 then BitVec.ofNat 66 (ofld n.operand 82 17) else 0 }
    (s.nodeReady 0x11 (withFunc n 2 1) → chiselAbortOk (withFunc n 2 1).operand = true →
      ∃ t, exec (.chiselAbortFinish n) s = .next t ∧ ended 1 t) ∧
    (s.nodeReady 0x11 (withFunc n 2 2) → chiselAbortOk (withFunc n 2 2).operand = true →
      ∃ t, exec (.chiselAbortAbort n) s = .next t ∧ ended 2 t)) ∧
  (∀ (n : NodeOp) (s : State), s.nodeReady 0x11 (withFunc n 2 0) → chiselAbortOk (withFunc n 2 0).operand = true →
    ∃ t, exec (.chiselAbortDisarm n) s = .next t ∧ t.replied n.node rDONE ∧ (t.tile n.node).chisel.node = {} ∧
      OnlyTiles [n.node] s t ∧ OnlyChanges [.tiles, .dbg, .arm, .ev, .free] s t ∧
      ((s.tile n.node).chisel.state ≠ 10 → (t.tile n.node).core.chiselStop = false)) ∧
  (∀ (n : NodeOp) (s : State), s.nodeReady 0x31 n → (s.tile n.node).chisel.carried = true →
    ∃ t, exec (.seedLoad n) s = .next t ∧ t.replied n.node rDONE ∧ OnlyTiles [n.node] s t ∧
      tget {} t.stack.save n.node = s.tile n.node ∧
      (t.tile n.node).chisel.saved = true ∧ (t.tile n.node).chisel.node.seed = BitVec.ofNat 64 (ofld n.operand 63 0) ∧
      (t.tile n.node).chisel.node.segs = BitVec.ofNat 16 (ofld n.operand 90 77) ∧
      t.stack.sram = s.stack.sram ∧ t.stack.mem = s.stack.mem ∧
      (∀ a, n.node * sramBlocks * blockBytes ≤ a → a < (n.node + 1) * sramBlocks * blockBytes →
        t.stack.saveSram.read a = s.stack.sram.read a)) ∧
  (∀ (n : NodeOp) (s : State), s.nodeReady 0x31 n → (s.tile n.node).chisel.carried = false →
    ∃ t, exec (.seedLoad n) s = .next t ∧ t.replied n.node rDONE ∧ OnlyTiles [n.node] s t ∧
      (t.tile n.node).chisel = { (s.tile n.node).chisel with
        node.seed := BitVec.ofNat 64 (ofld n.operand 63 0), node.segs := BitVec.ofNat 16 (ofld n.operand 90 77)
        node.segBeat := s.beat } ∧
      t.stack.sram = s.stack.sram ∧ t.stack.mem = s.stack.mem ∧ t.stack.save = s.stack.save) ∧
  (∀ (u : Nat) (s : State), s.ready = true → s.inRepose = false → u < numTiles →
    ((s.tile u).chisel.state = 0 → s.chiselDueAt u ≤ s.beat →
      ∃ t, exec (.chiselDue u) s = .next t ∧ (t.tile u).chisel.state = 1) ∧
    ((s.tile u).chisel.state = 1 → (s.tile u).chisel.forced = false → s.carries u = true →
      s.deferLimit + (s.tile u).chisel.ext ≤ (s.tile u).chisel.deferred →
      ∃ t, exec (.chiselForced u) s = .next t ∧ (t.tile u).chisel.forced = true) ∧
    ((s.tile u).chisel.state = 2 → (s.tile u).core.idleBoundary = true → (s.tile u).chisel.node.arm ≠ 0 →
      (s.tile u).core.xfers = [] → (s.tile u).core.stalled = [] → s.stackWaiting u = false → s.nbAtWork u = false →
      ∃ t, exec (.chiselReady u) s = .next t ∧ (t.tile u).chisel.state = 4) ∧
    ((s.tile u).chisel.state = 2 → s.slotOf u ≠ none → (s.tile u).chisel.armBeat + s.armWait ≤ s.beat →
      (s.tile u).chisel.pend = false →
      ∃ t, exec (.chiselArmWait u) s = .next t ∧ (t.tile u).chisel.state = (if (s.tile u).chisel.wasDue then 1 else 0)) ∧
    (∀ k x, s.slotOf u = some (k, x) → x.role = 2 → (s.tile u).chisel.state = 4 → s.startOk u = true → s.logical u = none →
      ∃ t, exec (.chiselStartSignal u) s = .next t ∧ (t.tile u).chisel.state = 7) ∧
    ((s.tile u).chisel.state = 1 → (s.tile u).chisel.forced = true → (s.tile u).chisel.startedSlotWait = false →
      s.mayArm u = true → (s.tile u).chisel.forcedBeat + s.forceWait ≤ s.beat →
      ∃ t, exec (.chiselStarved u) s = .next t ∧ (t.tile u).chisel.startedSlotWait = true)) ∧
  (∀ (u : Nat) (s : State), s.ready = true → u < numTiles →
    (∀ l, s.logical u = some l → s.slotOf u ≠ none → (s.tile u).chisel.state = 6 → s.holdDrained l = true →
      (∀ v, v < numTiles → (s.tile v).core.drains = []) →
      ∃ t, exec (.testHoldDrained u) s = .next t ∧ (t.tile u).chisel.state = 7) ∧
    (∀ r : SegResult, s.slotOf u ≠ none → (s.tile u).chisel.state = 7 → (s.tile u).chisel.seg = r.seg → r.seg < 14 →
      (members (s.tile u).chisel.node.segs).head? = some r.seg →
      ∃ t, exec (.segmentResult u r) s = .next t ∧ (t.tile u).chisel.got.getLsbD r.seg = true) ∧
    (∀ k x g, s.slotOf u = some (k, x) → x.role = 0 → (s.tile u).chisel.state = 8 → g < 8 →
      (s.tile u).chisel.undec = mask16 [g] → (s.tile u).chisel.witnessOf g = none →
      tget 0 (s.tile u).chisel.undecBeat g + s.witnessWait ≤ s.beat →
      ∃ t, exec (.witnessWaitExpiry u) s = .next t ∧ (t.tile u).chisel.undec.getLsbD g = false) ∧
    ((s.tile u).chisel.state = 7 → (s.tile u).chisel.node.segs = 0 → (s.tile u).chisel.list &&& ~~~(s.tile u).chisel.got = 0 →
      ∃ t, exec (.chiselListDone u) s = .next t ∧ (t.tile u).chisel.state = 8) ∧
    (s.slotOf u ≠ none → s.sessionOver u = true → (s.tile u).chisel.state = 8 →
      ∃ t, exec (.sessionMaxExpiry u) s = .next t ∧ (t.tile u).chisel.state = 9) ∧
    (∀ stuck, (s.tile u).chisel.state = 9 → (s.tile u).chisel.node.finish ≠ 0 → (s.tile u).chisel.reinit = none →
      ∃ t, exec (.reinitDone u stuck) s = .next t ∧ (t.tile u).chisel.reinit = some stuck))

/-- MAQ_SET at a node, and the steps of a session. MAQ_SET at a node that takes it at once: PAIR_ADD under a map
that is not older than the node's enters the pairing of its slot, PAIR_DEL removes it; ARM_SOURCE, ARM_HOST and
ARM_REFEREE at a tile neither fenced nor in a chisel session give it its role, partner and slot; END frees the
tile of that slot; SET_RATE sets its configured exponent. Each answers DONE, and no other tile changes. An arm
at a fenced tile answers FENCED. Where its occasion holds, each step of a session goes on: a due tile gets its
host, an arm time-out and a deadline end the session, a host that halted reports, arbitration ends when the host
is fenced, and a dropped copy leaves its transfer. It says of each of these commands, under conditions on the
state and the operands alone, that it completes: MAQ_SET_PAIR_ADD, MAQ_SET_PAIR_DEL, MAQ_SET_ARM_SOURCE,
MAQ_SET_ARM_HOST, MAQ_SET_ARM_REFEREE, MAQ_SET_END, MAQ_SET_SET_RATE, SUBSCRIBED_COPY_DROP, MAQ_HOST_ASSIGN,
MAQ_ARM_TIMEOUT, MAQ_COMPARE, MAQ_DEADLINE, MAQ_REFEREE_ASSIGN, MAQ_ARBITRATION.
(spec/06_maquette_spot_checks.md R188; spec/06_maquette_spot_checks.md R190; spec/06_maquette_spot_checks.md
R196; spec/06_maquette_spot_checks.md R198; spec/06_maquette_spot_checks.md R201;
spec/06_maquette_spot_checks.md R204; spec/06_maquette_spot_checks.md R205; spec/06_maquette_spot_checks.md
R211) -/
def Obligations.NodeMaquetteOperations : Prop :=
  (∀ (n : NodeOp) (s : State), s.nodeReady 0x12 (withFunc n 4 0) → maqSetOk 0 (withFunc n 4 0).operand = true →
    genNewer (s.tile n.node).core.nodeGen.toNat n.mapgen.toNat = false →
    ∃ t, exec (.maqSetPairAdd n) s = .next t ∧ t.replied n.node rDONE ∧ OnlyTiles [n.node] s t ∧ OnlyChanges [.tiles, .arm, .ev] s t ∧
      tget (0, 0, 0) (t.tile n.node).maq.pairs (ofld n.operand 91 87) =
        (ofld n.operand 86 76, ofld n.operand 75 66, ofld n.operand 65 55)) ∧
  (∀ (n : NodeOp) (s : State), s.nodeReady 0x12 (withFunc n 4 1) → maqSetOk 1 (withFunc n 4 1).operand = true →
    ∃ t, exec (.maqSetPairDel n) s = .next t ∧ t.replied n.node rDONE ∧ OnlyTiles [n.node] s t ∧ OnlyChanges [.tiles, .arm, .ev] s t ∧
      tget (0, 0, 0) (t.tile n.node).maq.pairs (ofld n.operand 91 87) = (0, 0, 0)) ∧
  (∀ (n : NodeOp) (s : State), s.nodeReady 0x12 (withFunc n 4 2) → maqSetOk 2 (withFunc n 4 2).operand = true → s.armOk n.node = true →
    genNewer (s.tile n.node).core.nodeGen.toNat n.mapgen.toNat = false →
    ∃ t, exec (.maqSetArmSource n) s = .next t ∧ t.replied n.node rDONE ∧ OnlyTiles [n.node] s t ∧ OnlyChanges [.tiles, .arm, .ev] s t ∧
      (t.tile n.node).maq =
        { (s.tile n.node).maq with role := 1, partner := ofld n.operand 86 76, slot := ofld n.operand 91 87 }) ∧
  (∀ (n : NodeOp) (s : State), s.nodeReady 0x12 (withFunc n 4 3) → maqSetOk 3 (withFunc n 4 3).operand = true → s.armOk n.node = true →
    ∃ t, exec (.maqSetArmHost n) s = .next t ∧ t.replied n.node rDONE ∧ OnlyTiles [n.node] s t ∧ OnlyChanges [.tiles, .arm, .ev] s t ∧
      (t.tile n.node).maq =
        { (s.tile n.node).maq with
          role := 3, partner := ofld n.operand 65 55, slot := ofld n.operand 91 87, descr := none, begun := false, staged := [] }) ∧
  (∀ (n : NodeOp) (s : State), s.nodeReady 0x12 (withFunc n 4 4) → maqSetOk 4 (withFunc n 4 4).operand = true → s.armOk n.node = true →
    ∃ t, exec (.maqSetArmReferee n) s = .next t ∧ t.replied n.node rDONE ∧ OnlyTiles [n.node] s t ∧
      OnlyChanges [.tiles, .arm, .ev, .regs] s t ∧ OnlyRegs [Reg.maqMirrorBytes] s t ∧
      (s.session (ofld n.operand 91 87) = none → (t.tile n.node).maq =
        { (s.tile n.node).maq with role := 4, partner := ofld n.operand 65 55, slot := ofld n.operand 91 87 }) ∧
      (∀ x, s.session (ofld n.operand 91 87) = some x → (t.tile n.node).maq =
        { (s.tile n.node).maq with
          role := 4, partner := ofld n.operand 65 55, slot := ofld n.operand 91 87, descr := x.cmd, begun := false
          staged := (s.tile x.host).maq.staged })) ∧
  (∀ (n : NodeOp) (s : State), s.nodeReady 0x12 (withFunc n 4 3) → maqSetOk 3 (withFunc n 4 3).operand = true → (s.tile n.node).core.router = true →
    ∃ t, exec (.maqSetArmHost n) s = .next t ∧ t.replied n.node rFENCED ∧ OnlyChanges [.maq, .arm, .ev] s t) ∧
  (∀ (n : NodeOp) (s : State), s.nodeReady 0x12 (withFunc n 4 5) → maqSetOk 5 (withFunc n 4 5).operand = true → (s.tile n.node).maq.slot = ofld n.operand 91 87 →
    ∃ t, exec (.maqSetEnd n) s = .next t ∧ t.replied n.node rDONE ∧ OnlyTiles [n.node] s t ∧ OnlyChanges [.tiles, .arm, .ev] s t ∧
      (t.tile n.node).maq = { (s.tile n.node).maq with role := 0, partner := 0, slot := 0, descr := none, begun := false, staged := [] }) ∧
  (∀ (n : NodeOp) (s : State), s.nodeReady 0x12 (withFunc n 4 6) → maqSetOk 6 (withFunc n 4 6).operand = true →
    ∃ t, exec (.maqSetSetRate n) s = .next t ∧ t.replied n.node rDONE ∧ OnlyTiles [n.node] s t ∧ OnlyChanges [.tiles, .arm, .ev] s t ∧
      (t.tile n.node).maq = { (s.tile n.node).maq with config := ofld n.operand 3 0 }) ∧
  (∀ (n : NodeOp) (s : State) (f : Nat) (c : Instr), s.nodeReady 0x12 (withFunc n 4 f) → maqSetOk f (withFunc n 4 f).operand = false →
    (c, f) ∈ [(Instr.maqSetPairAdd n, 0), (.maqSetPairDel n, 1), (.maqSetArmSource n, 2), (.maqSetArmHost n, 3),
      (.maqSetArmReferee n, 4), (.maqSetEnd n, 5), (.maqSetSetRate n, 6)] →
    ∃ t, exec c s = .next t ∧ t.replied n.node rREJECTED ∧ OnlyChanges [.arm, .ev] s t) ∧
  (∀ (u h : Nat) (s : State), s.ready = true → s.inRepose = false → s.dispatching = true → bit (s.inForce Reg.maqMaqCtl) 0 = true →
    s.dueTiles = [u] → s.sourceOk u = true → s.maqActive < fld (s.inForce Reg.maqMaqCtl) 62 56 → (∃ k, k < 32 ∧ s.session k = none) →
    nearestByRegion u s.freeHosts = some h →
    ∃ t, exec .maqHostAssign s = .next t ∧ (t.tile u).maq.due = none ∧
      ∃ k, s.session k = none ∧ t.session k = some { host := h, source := u, logical := (s.logical u).getD 0 }) ∧
  (∀ (k : Nat) (x : Session) (s : State), s.ready = true → s.session k = some x →
    (x.phase = 0 → s.armOver x = true → ∃ t, exec (.maqArmTimeout k) s = .next t ∧ t.session k = some { x with phase := 4 }) ∧
    (x.phase = 1 → s.maqLate x = true → ∃ t, exec (.maqDeadline k) s = .next t ∧ t.session k = some { x with phase := 4 }) ∧
    (x.phase = 1 → (s.tile x.host).core.halted = true →
      ∃ t, exec (.maqCompare k x.host) s = .next t ∧ t.session k = some { x with phase := 2 }) ∧
    (x.phase = 3 → x.referee = none → s.dispatching = true → s.fenced x.host = true →
      ∃ t, exec (.maqRefereeAssign k) s = .next t ∧ t.session k = some { x with phase := 4 }) ∧
    (∀ q, x.phase = 3 → x.referee = some q → s.fenced x.host = true →
      ∃ t, exec (.maqArbitration k q) s = .next t ∧ t.session k = some { x with phase := 4 }) ∧
    (∀ u y, s.tiles = [(u, s.tile u)] → (s.tile u).core.xfers = [y] → y.hosts = [x.host] →
      ∃ t, exec (.subscribedCopyDrop k) s = .next t ∧ (t.tile u).core.xfers = [{ y with hosts := [] }]))

/-- WATCH_SET, STEP, RUN, queries and reads at a node. WATCH_SET ARM at an open tile holds the slot's layer,
operation and mode at the node, at a fenced one it answers FENCED, and a reserved mode is REJECTED; DISARM drops
it. STEP of n at an open idle tile with n 0 leaves it STEPPING; a STEP of 1 or more counts n commands. RUN at an
open tile without a command clears HALTED, INTERRUPTED and STEPPING. LINEAGE_QUERY parks the query until the
record closes. HANG_READ answers the ring of its unit, oldest entry first, and REJECTED for a unit that no tile
has; STATE_READ answers the state flit; COUNTER_READ sets the standing reply on or off. It says of each of these
commands, under conditions on the state and the operands alone, that it completes: WATCH_SET_ARM,
WATCH_SET_DISARM, NODE_STEP, NODE_RUN, LINEAGE_QUERY, HANG_READ, COUNTER_READ_STANDING, COUNTER_READ_STOP,
STATE_READ. (spec/13_counters_trace_debug.md R410; spec/13_counters_trace_debug.md R413;
spec/13_counters_trace_debug.md R414; spec/13_counters_trace_debug.md R423; spec/13_counters_trace_debug.md
R424; spec/05_containment_and_taint.md R169) -/
def Obligations.NodeDebugOperations : Prop :=
  (∀ (n : NodeOp) (s : State), s.nodeReady 0x13 (withFunc n 2 0) → (s.tile n.node).core.router = false →
    ofld n.operand 90 89 ≤ 1 →
    ∃ t, exec (.watchSetArm n) s = .next t ∧ t.replied n.node rDONE ∧ OnlyTiles [n.node] s t ∧ OnlyChanges [.tiles, .arm, .ev] s t ∧
      (∀ w, w = (BitVec.ofNat 2 (ofld n.operand 90 89), BitVec.ofNat 16 (ofld n.operand 88 73), BitVec.ofNat 16 (ofld n.operand 72 57)) →
        tget (0, 0, 0) (t.tile n.node).core.watch (ofld n.operand 93 91) = w)) ∧
  (∀ (n : NodeOp) (s : State), s.nodeReady 0x13 (withFunc n 2 0) → (s.tile n.node).core.router = true →
    s.watchArmed (ofld n.operand 93 91) = false → ofld n.operand 90 89 ≤ 1 →
    ∃ t, exec (.watchSetArm n) s = .next t ∧ t.replied n.node rFENCED ∧ OnlyChanges [.arm, .ev] s t) ∧
  (∀ (n : NodeOp) (s : State), s.nodeReady 0x13 (withFunc n 2 0) → 1 < ofld n.operand 90 89 →
    ∃ t, exec (.watchSetArm n) s = .next t ∧ t.replied n.node rREJECTED ∧ OnlyChanges [.arm, .ev] s t) ∧
  (∀ (n : NodeOp) (s : State), s.nodeReady 0x13 (withFunc n 2 1) →
    ∃ t, exec (.watchSetDisarm n) s = .next t ∧ t.replied n.node rDONE ∧ OnlyTiles [n.node] s t ∧ OnlyChanges [.tiles, .arm, .ev] s t ∧
      tget (0, 0, 0) (t.tile n.node).core.watch (ofld n.operand 93 91) = (0, 0, 0) ∧
      (ofld n.operand 93 91) ∉ (t.tile n.node).core.watchHit) ∧
  (∀ (n : NodeOp) (s : State), s.nodeReady 0x14 n → (s.tile n.node).core.router = false → (s.tile n.node).core.halted = false →
    (s.tile n.node).core.stepping = false →
    (ofld n.operand 95 88 = 0 → (s.tile n.node).core.cur = none →
      ∃ t, exec (.nodeStep n) s = .next t ∧ t.replied n.node rDONE ∧ OnlyTiles [n.node] s t ∧
        (t.tile n.node).core.stepping = true ∧ (t.tile n.node).core.stepOn = false) ∧
    (0 < ofld n.operand 95 88 →
      ∃ t, exec (.nodeStep n) s = .next t ∧ t.replied n.node rDONE ∧ OnlyTiles [n.node] s t ∧
        (t.tile n.node).core.stepOn = true ∧ (t.tile n.node).core.stepLeft = ofld n.operand 95 88)) ∧
  (∀ (n : NodeOp) (s : State), s.nodeReady 0x15 n → (s.tile n.node).core.router = false → (s.tile n.node).core.cur = none →
    ∃ t, exec (.nodeRun n) s = .next t ∧ t.replied n.node rDONE ∧ OnlyTiles [n.node] s t ∧
      (t.tile n.node).core.halted = false ∧ (t.tile n.node).core.interrupted = false ∧ (t.tile n.node).core.stepping = false ∧
      (t.tile n.node).core.stepOrders = []) ∧
  (∀ (n : NodeOp) (s : State), s.nodeReady 0x20 n →
    ∃ t, exec (.lineageQuery n) s = .next t ∧ OnlyTiles [n.node] s t ∧ OnlyChanges [.tiles, .arm, .ev] s t ∧
      t.tile n.node = { s.tile n.node with
        core.query := some (BitVec.ofNat 16 (ofld n.operand 79 64), ofld n.operand 50 0, s.beat) }) ∧
  (∀ (n : NodeOp) (s : State), s.nodeReady 0x21 n → ofld n.operand 95 91 < 13 →
    ∃ t, exec (.hangRead n) s = .next t ∧ OnlyChanges [.arm, .dbg, .ev] s t ∧ t.dbg.rings = s.dbg.rings ∧
      t.arm.lastReply = some (n.node, (recordReply 0 0 (tget [] s.dbg.rings (ringTile n.node (ofld n.operand 95 91))).reverse).flatten)) ∧
  (∀ (n : NodeOp) (s : State), s.nodeReady 0x21 n → 13 ≤ ofld n.operand 95 91 →
    ∃ t, exec (.hangRead n) s = .next t ∧ t.replied n.node rREJECTED ∧ OnlyChanges [.arm, .dbg, .ev] s t ∧ t.dbg.rings = s.dbg.rings) ∧
  (∀ (n : NodeOp) (s : State), s.nodeReady 0x23 n →
    ∃ t, exec (.stateRead n) s = .next t ∧ OnlyChanges [.arm, .dbg, .ev] s t ∧
      t.arm.lastReply = some (n.node, [s.stateFlit n.node])) ∧
  (∀ (n : NodeOp) (s : State), s.nodeReady 0x22 (withFunc n 2 0) →
    ∃ t, exec (.counterReadStanding n) s = .next t ∧ t.replied n.node rDONE ∧ OnlyTiles [n.node] s t ∧
      (t.tile n.node).core = { (s.tile n.node).core with standing := true }) ∧
  (∀ (n : NodeOp) (s : State), s.nodeReady 0x22 (withFunc n 2 1) →
    ∃ t, exec (.counterReadStop n) s = .next t ∧ t.replied n.node rDONE ∧ OnlyTiles [n.node] s t ∧
      (t.tile n.node).core = { (s.tile n.node).core with standing := false })

/-- ACK, ACK_HELD, the inbox timer and the re-sends of the hub. An ACK_HELD of a stream's outstanding packet
restarts that node's timer with its count at 0. An ACK with another XID than the outstanding packet's changes
nothing outstanding; a peer's ACK ends its packet. A packet that stands in an inbox is answered ACK_HELD with
its stream's last XID. A timeout whose limit has passed sends the packet again with the same XID and counts it,
while fewer than RESEND_LIMIT re-sends were made; after them an on-die node is unreachable: FATAL, and ONDIE_OK
clears. The last acknowledgement of a MAQ_RATE or a DIGEST_OPEN completes the order OK. It says of each of these
commands, under conditions on the state and the operands alone, that it completes: ACK_HELD_TIMER, ACK,
ACK_HELD, RESEND_TIMEOUT. (spec/03_armature_network.md R100; spec/03_armature_network.md R101;
spec/03_armature_network.md R102; spec/15_register_pages.md R463) -/
def Obligations.AcknowledgementsAndResends : Prop :=
  (∀ (k : StreamId) (s : State), s.life.powered = true → s.inInbox k = true →
    exec (.ackHeldTimer k) s = .next (s.sendAck k ((s.lastXid k).getD 0) true)) ∧
  (∀ (node vc : Nat) (o : Outgoing) (s : State), s.life.powered = true → node < numTiles → s.arm.sent = [o] → o.vc = vc →
    o.left.getLsbD node = true →
    ∃ t o', exec (.ackHeld (.order node vc) o.xid) s = .next t ∧ OnlyChanges [.arm] s t ∧ t.arm.sent = [o'] ∧
      o'.held.getLsbD node = true ∧ tget 0 o'.resends node = 0 ∧ o'.timer node = s.time.time ∧ o'.left = o.left) ∧
  (∀ (node vc : Nat) (o : Outgoing) (x : BitVec 16) (s : State), s.life.powered = true → s.arm.sent = [o] → s.arm.queue = [] →
    x ≠ o.xid → exec (.ack (.order node vc) x) s = .next s) ∧
  (∀ (node vc : Nat) (o : Outgoing) (s : State), s.life.powered = true → node < numTiles → s.arm.sent = [o] → s.arm.queue = [] →
    o.vc = vc → o.left = oneNode node → o.op = 0x03 →
    ∃ t, exec (.ack (.order node vc) o.xid) s = .next t ∧ t.arm.sent = [] ∧ OnlyChanges [.arm] s t) ∧
  (∀ (chip : BitVec 13) (net : Bool) (x : BitVec 16) (s : State), s.life.powered = true →
    (s.arm.peerWait.find? fun w => w.1 = .sentinel chip net) = none → s.cast.mirrorOut = [] →
    exec (.ack (.sentinel chip net) x) s = .next { s with
      arm.peers := s.arm.peers.filter fun (p : PeerOut) => !(p.stream = .sentinel chip net && p.xid == x) }) ∧
  (∀ (node vc : Nat) (o : Outgoing) (s : State), s.life.powered = true → node < numTiles → s.arm.sent = [o] → o.vc = vc →
    o.left.getLsbD node = true → o.gone.getLsbD node = false → s.timerExpired o node = true →
    tget 0 o.resends node < s.resendLimit →
    ∃ t o', exec (.resendTimeout (.order node vc)) s = .next t ∧ OnlyChanges [.arm, .regs] s t ∧ t.arm.sent = [o'] ∧
      o'.xid = o.xid ∧ tget 0 o'.resends node = tget 0 o.resends node + 1 ∧ o'.late = o.late ∧ o'.timer node = s.time.time ∧
      t.arm.hubOut = (if (nodesOf o.left).length ≤ 16 then [o.uniCopy node] else o.copies) ∧
      ((nodesOf o.left).length ≤ 16 → ∀ v, v ≠ node → tget 0 o'.resends v = tget 0 o.resends v ∧ o'.timer v = o.timer v) ∧
      OnlyRegs [Reg.armResends] s t ∧
      (t.reg Reg.armResends).toNat = min ((s.reg Reg.armResends).toNat + 1) (regMask Reg.armResends)) ∧
  (∀ (node vc : Nat) (o : Outgoing) (s : State), s.life.powered = true → node < numTiles → s.arm.sent = [o] → o.vc = vc →
    o.left.getLsbD node = true → o.gone.getLsbD node = false → s.timerExpired o node = true →
    s.resendLimit ≤ tget 0 o.resends node →
    ∃ t, exec (.resendTimeout (.order node vc)) s = .next t ∧ OnlyChanges [.arm, .ev] s t ∧ t.arm.ondieOk = false ∧
      t.ev.queue = s.ev.queue ++ [mkRec s.time.time 0x0021 srcPlinth 0 .fatal (word node)]) ∧
  (∀ (node vc id : Nat) (o : Outgoing) (s : State), s.life.powered = true → node < numTiles → s.arm.sent = [o] → s.arm.queue = [] →
    o.vc = vc → o.left = oneNode node → o.order = some id → s.order id ≠ none →
    (o.op = 0x17 ∨ (o.op = 0x12 ∧ ofld o.operand 95 92 = 6)) →
    ∃ t, exec (.ack (.order node vc) o.xid) s = .next t ∧ t.arm.sent = [] ∧ t.doneAs id .ok ∧ OnlyChanges [.arm, .ord] s t)

/-- PACKET_ARRIVE, SENTINEL_FORWARD and ROUTE_PRIMARY_BACK. An on-die packet that reaches its endpoint and whose CRC
fails, or a flit of which a router found uncorrectable, is discarded and counted in CRC_DISCARDS; the flits that
routers corrected on its way count in HOP_CORRECTED. A unicast whose path breaks a rule of the turn codes is
discarded by the router that reads it, which logs ARM_ROUTE, and one that leads elsewhere has no effect at this
endpoint. One with a good CRC and a legal kind and length whose XID is its stream's last is acknowledged again
and changes nothing else. A sentinel packet that this chip only forwards goes out on the next hop's link with
its new ROUTE and CLS and the CRC field changed by the same difference, and its bytes count on each of both
links whose PHY group domain runs; onto a link that is not trained nothing goes. A route whose primary's first
link was lost and trains again, with nothing outstanding to its chip, leaves its alternate and logs it. It says
of each of these commands, under conditions on the state and the operands alone, that it completes:
PACKET_ARRIVE, SENTINEL_FORWARD, ROUTE_PRIMARY_BACK. (spec/03_armature_network.md R83;
spec/03_armature_network.md R88; spec/03_armature_network.md R89; spec/03_armature_network.md R90;
spec/03_armature_network.md R99; spec/03_armature_network.md R110; spec/03_armature_network.md R113) -/
def Obligations.PacketsArrive : Prop :=
  (∀ (p : ArmPacket) (s : State), s.life.powered = true → p.net = .order → p.at_ < numTiles → packetArrives p = true →
    (throughHops p.hops p.flits).2.1 = true ∨ crcPasses (throughHops p.hops p.flits).2.2 = false →
    ∃ t, exec (.packetArrive p) s = .next t ∧ OnlyChanges [.regs, .tiles] s t ∧
      OnlyRegs [Reg.armCrcDiscards, Reg.armHopCorrected] s t ∧
      (t.reg Reg.armHopCorrected).toNat = min ((s.reg Reg.armHopCorrected).toNat + (throughHops p.hops p.flits).1) (regMask Reg.armHopCorrected) ∧
      (t.reg Reg.armCrcDiscards).toNat = min ((s.reg Reg.armCrcDiscards).toNat + 1) (regMask Reg.armCrcDiscards) ∧
      OnlyTiles [p.at_] s t ∧ (t.tile p.at_).core.crc.count = (s.tile p.at_).core.crc.count + 1) ∧
  (∀ (p : ArmPacket) (u : Nat) (h : ArmHead) (s : State), s.life.powered = true → p.net = .order ∨ p.net = .report →
    h = armHead ((throughHops p.hops p.flits).2.2.headD 0) → packetLostAt p = some u → u < numTiles →
    ∃ t, exec (.packetArrive p) s = .next t ∧ OnlyChanges [.regs, .tiles, .ev, .dbg, .arm] s t ∧
      OnlyRegs [Reg.armHopCorrected] s t ∧ OnlyTiles [u, h.src] s t ∧
      t.ev.flight = s.ev.flight ++ [(u, mkRec s.time.time 0x0022 u uNODE .fault
        (pack [(58, 6, 0x3F), (54, 4, h.kind), (0, 13, h.src)]))]) ∧
  (∀ (p : ArmPacket) (s : State), s.life.powered = true → p.net = .order ∨ p.net = .report → packetLostAt p = none →
    packetArrives p = false →
    ∃ t, exec (.packetArrive p) s = .next t ∧ OnlyChanges [.regs] s t ∧ OnlyRegs [Reg.armHopCorrected] s t) ∧
  (∀ (p : ArmPacket) (h : ArmHead) (s : State), s.life.powered = true → p.net = .order → p.at_ < numTiles → packetArrives p = true →
    h = armHead ((throughHops p.hops p.flits).2.2.headD 0) → (throughHops p.hops p.flits).2.1 = false →
    crcPasses (throughHops p.hops p.flits).2.2 = true → kindOk p.net h.kind (throughHops p.hops p.flits).2.2.length = true →
    h.len = (throughHops p.hops p.flits).2.2.length →
    h.kind ≠ 8 → h.kind ≠ 9 → s.lastXid (.order p.at_ h.vc) = some h.xid →
    ∃ t, exec (.packetArrive p) s = .next t ∧ OnlyChanges [.arm, .regs] s t ∧ OnlyRegs [Reg.armHopCorrected] s t ∧
      t.arm = (s.sendAck (.order p.at_ h.vc) h.xid (s.inInbox (.order p.at_ h.vc))).arm) ∧
  (∀ (link n route cls : Nat) (h : Flit) (body : List Flit) (s : State), s.life.powered = true → s.trained link = true →
    kindOk (if flitFld h 120 120 == 1 then .sentReport else .sentOrder) (flitFld h 127 124) (body.length + 1) = true →
    flitFld h 123 121 = body.length → flitFld h 127 124 ≠ 3 → flitFld h 127 124 ≠ 4 →
    s.chipNum ≠ some (BitVec.ofNat 13 (flitFld h 105 93)) → s.nextHop link h = some (n, route, cls) → n ≠ link →
    s.trained n = true →
    ∃ t, exec (.sentinelForward link (h :: body)) s = .next t ∧ OnlyChanges [.links, .arm] s t ∧
      t.arm = { s.arm with lastForward := some (n, reheader h body route cls) } ∧
      (t.link link).sentRx = (s.link link).sentRx +
        (if s.time.stopped.getLsbD (linkDomain link) then 0 else BitVec.ofNat 48 (16 * (body.length + 1))) ∧
      (t.link n).sentTx = (s.link n).sentTx +
        (if s.time.stopped.getLsbD (linkDomain n) then 0 else BitVec.ofNat 48 (16 * (body.length + 1)))) ∧
  (∀ (link n route cls : Nat) (h : Flit) (body : List Flit) (s : State), s.life.powered = true → s.trained link = true →
    kindOk (if flitFld h 120 120 == 1 then .sentReport else .sentOrder) (flitFld h 127 124) (body.length + 1) = true →
    flitFld h 123 121 = body.length → flitFld h 127 124 ≠ 3 → flitFld h 127 124 ≠ 4 →
    s.chipNum ≠ some (BitVec.ofNat 13 (flitFld h 105 93)) → s.nextHop link h = some (n, route, cls) →
    s.trained n = false →
    ∃ t, exec (.sentinelForward link (h :: body)) s = .next t ∧ OnlyChanges [.links] s t ∧
      (∀ j, j ≠ link → t.link j = s.link j)) ∧
  (∀ (k : Nat) (s : State), s.life.powered = true → k < 64 → bit (s.route0 k) 63 = true → s.onAlt k = true →
    s.arm.primLost.getLsbD k = true → s.trained (routeLink (s.route0 k)) = true → s.peerBusy (BitVec.ofNat 13 (fld (s.route0 k) 60 48)) = false →
    ∃ t, exec (.routePrimaryBack k) s = .next t ∧ t.onAlt k = false ∧ (∀ j, j ≠ k → t.onAlt j = s.onAlt j) ∧
      (BitVec.ofNat 13 (fld (s.route0 k) 60 48)) ∉ t.arm.unreachable ∧ OnlyChanges [.arm, .ev] s t ∧
      t.ev.queue = s.ev.queue ++ [mkRec s.time.time 0x0024 srcPlinth 0 .note
        (pack [(16, 13, fld (s.route0 k) 60 48), (6, 1, 0), (0, 6, k)])])

/-- The first status that applies refuses an order. An order whose operand is bad completes BAD_OPERAND; else one
that the chip's state, a pending freeze or its own conditions make illegal completes STATE_ILLEGAL and logs
ORDER_ILLEGAL with its word; else an unlicensed one completes NOT_LICENSED; only then do its own statuses apply.
It changes nothing but the order records, the counters and that event. MAQ_RATE with EXP 6, unlicensed and taken
in Repose, completes STATE_ILLEGAL; with SCOPE 3 it completes BAD_OPERAND. (R474) -/
def Obligations.OrdersRefusedInOrder : Prop :=
  (∀ (r : OrderRef) (o : BitVec 48) (c : Instr) (w : Word) (s : State), (c, w) ∈
      [(Instr.fence r o, ordWord opFENCE r.tag o), (.unfence r o, ordWord opUNFENCE r.tag o),
      (.promote r o, ordWord opPROMOTE r.tag o), (.chiselNow r o, ordWord opCHISEL_NOW r.tag o),
      (.chiselDefer r o, ordWord opCHISEL_DEFER r.tag o), (.maqRate r o, ordWord opMAQ_RATE r.tag o),
      (.cast r o, ordWord opCAST r.tag o), (.restore r o, ordWord opRESTORE r.tag o),
      (.watchDisarm r o, ordWord opWATCH r.tag (withField o 44 43 2)), (.stepTile r o, ordWord opSTEP r.tag o),
      (.run r o, ordWord opRUN r.tag o), (.freeze r o, ordWord opFREEZE r.tag o),
      (.digestOpen r o, ordWord opDIGEST_OPEN r.tag o), (.digestClose r o, ordWord opDIGEST_CLOSE r.tag o),
      (.reposeEnter r o, ordWord opREPOSE r.tag (withField o 47 47 0)),
      (.reposeWake r o, ordWord opREPOSE r.tag (withField o 47 47 1)), (.fuseCommit r o, ordWord opFUSE_COMMIT r.tag o),
      (.partnerUnbind r o, ordWord opPARTNER_BIND r.tag (withField o 47 47 0)),
      (.releasePartition r o, ordWord opRELEASE_PARTITION r.tag o)] →
    s.live = true → s.life.shutdownEvent = none → OrderRef.own r = true → s.mayTake r.master w false = true →
    (∀ x ∈ s.ord.orders, x.id ≠ s.ord.nextId) →
    (s.badOperand w = true →
      ∃ t, exec c s = .next t ∧ t.doneAs s.ord.nextId .badOperand ∧ OnlyChanges [.ord, .regs] s t) ∧
    (s.badOperand w = false → (s.life.freezePending = true ∨ s.legal w = false ∨ s.ownIllegal w = true) →
      ∃ t, exec c s = .next t ∧ t.doneAs s.ord.nextId .stateIllegal ∧ OnlyChanges [.ord, .regs, .ev] s t ∧
        t.ev = { s.ev with queue := s.ev.queue ++ [mkRec s.time.time 0x0002 (orderSource r.master) 0 .note w] }) ∧
    (s.badOperand w = false → s.life.freezePending = false → s.legal w = true → s.ownIllegal w = false →
      s.unlicensed w = true →
      ∃ t, exec c s = .next t ∧ t.doneAs s.ord.nextId .notLicensed ∧ OnlyChanges [.ord, .regs] s t) ∧
    (s.badOperand w = false → s.life.freezePending = false → s.legal w = true → s.ownIllegal w = false →
      s.unlicensed w = false → (ordOpcode w = opCAST ∨ ordOpcode w = opRESTORE) → s.cast.storeOk = false →
      ∃ t, exec c s = .next t ∧ t.doneAs s.ord.nextId .noStore ∧ OnlyChanges [.ord, .regs] s t)) ∧
  (∀ (r : OrderRef) (o : BitVec 48) (s : State), s.live = true → s.life.shutdownEvent = none → OrderRef.own r = true →
    s.mayTake r.master (ordWord opMAQ_RATE r.tag o) false = true → (∀ x ∈ s.ord.orders, x.id ≠ s.ord.nextId) →
    s.inRepose = true → s.feature 2 = false →
    (o = BitVec.ofNat 48 (2 <<< 46 ||| 6) → ∃ t, exec (.maqRate r o) s = .next t ∧ t.doneAs s.ord.nextId .stateIllegal) ∧
    (o = BitVec.ofNat 48 (3 <<< 46 ||| 6) → ∃ t, exec (.maqRate r o) s = .next t ∧ t.doneAs s.ord.nextId .badOperand))

/-- The table of order legality by chip state. For every opcode and each column of Table 16.4 (before Ready, Ready,
cast pause, cast drain, restore, Repose) an order is legal exactly where the table shows L; REPOSE with WAKE 1
is legal in Repose once the entry is complete. (spec/16_event_and_status_catalogue.md R475;
spec/16_event_and_status_catalogue.md R476; spec/14_bringup_reset_repose.md R431) -/
def Obligations.OrderLegality : Prop :=
  (∀ (op : Nat) (cols : List Bool) (w : Word) (s : State), (op, cols) ∈
      [(0x01, [false, true, true, true, false, false]), (0x02, [false, true, true, true, false, false]),
       (0x03, [false, true, true, true, false, false]), (0x04, [false, true, true, true, false, false]),
       (0x05, [false, true, true, true, true, false]), (0x06, [false, true, true, true, true, false]),
       (0x07, [false, true, false, false, false, false]), (0x08, [false, true, false, false, false, false]),
       (0x09, [false, true, true, true, false, false]), (0x0A, [false, true, true, true, false, false]),
       (0x0B, [false, true, true, true, false, false]), (0x0C, [true, true, true, true, true, true]),
       (0x0D, [false, true, true, true, false, false]), (0x0E, [false, true, true, true, false, false]),
       (0x0F, [false, true, false, false, false, false]), (0x10, [false, true, true, true, true, false]),
       (0x11, [false, true, false, false, false, false]), (0x12, [false, true, false, true, false, false])] →
    ordOpcode w = op → (op = 0x0F → bit w 47 = false) →
    (s.life.stage ≠ 5 → s.legal w = cols.getD 0 false) ∧
    (s.life.stage = 5 → s.inRepose = false → s.castPhase = 0 → s.legal w = cols.getD 1 false) ∧
    (s.life.stage = 5 → s.inRepose = false → 1 ≤ s.castPhase → s.castPhase ≤ 3 → s.legal w = cols.getD 2 false) ∧
    (s.life.stage = 5 → s.inRepose = false → s.castPhase = 4 → s.legal w = cols.getD 3 false) ∧
    (s.life.stage = 5 → s.inRepose = false → s.castPhase = 5 → s.legal w = cols.getD 4 false) ∧
    (s.life.stage = 5 → s.inRepose = true → s.legal w = cols.getD 5 false)) ∧
  (∀ (w : Word) (s : State), ordOpcode w = 0x0F → bit w 47 = true →
    s.legal w = decide (s.life.stage = 5 ∧ s.life.repose = 2))

/-- FENCE, UNFENCE, PROMOTE and RELEASE_PARTITION. FENCE with MODE 0 that nothing refuses fences the tile in the
hub's map, under the next generation where no promotion migrates or restores, sends FENCE_APPLY to every node
for the order, and fences no other tile; with MODE 1 of a tile that is not at a command boundary it waits there.
UNFENCE opens the tile (CLEAR sets its accumulator to 0 and its level to NORMAL); during a cast pause it waits.
PROMOTE without a target completes NO_SPARE when its region has none, and else records a promotion that carries
the order. RELEASE_PARTITION records the release and fences every tile of its rectangle; when the scrub of a
release is done, the streams there are empty, and every SRAM block and every slice block below the reserved
areas reads as zeros. It says of each of these commands, under conditions on the state and the operands alone,
that it completes: FENCE, UNFENCE, PROMOTE, RELEASE_PARTITION, RELEASE_SCRUB_DONE.
(spec/08_patina_quarantine_repair.md R276; spec/08_patina_quarantine_repair.md R278;
spec/08_patina_quarantine_repair.md R279; spec/08_patina_quarantine_repair.md R268;
spec/16_event_and_status_catalogue.md R475) -/
def Obligations.FenceOrders : Prop :=
  (∀ (r : OrderRef) (o : BitVec 48) (s : State), s.ordered r (ordWord opFENCE r.tag o) →
    let u := fld (ordWord opFENCE r.tag o) 10 0
    (fld (ordWord opFENCE r.tag o) 47 46 = 0 →
      ∃ t, exec (.fence r o) s = .next t ∧ t.fenced u = true ∧ (∀ v, v ≠ u → t.fenced v = s.fenced v) ∧
        ((∀ p ∈ s.map.promotions, p.step ≠ 3 ∧ p.step ≠ 4) → t.map.hub.gen = nextGen s.map.hub.gen) ∧
        (∀ l, t.phys l = s.phys l) ∧
        ∃ p, t.has p ∧ p.op = 0x01 ∧ p.dests = allNodes ∧ p.order = some s.ord.nextId) ∧
    (fld (ordWord opFENCE r.tag o) 47 46 = 1 → (s.tile u).core.atBoundary = false →
      ∃ t, exec (.fence r o) s = .next t ∧ t.runs s.ord.nextId ∧ OnlyChanges [.map, .ord, .regs] s t ∧
        t.map = { s.map with pendFence := s.map.pendFence ++ [(u, s.ord.nextId)] })) ∧
  (∀ (r : OrderRef) (o : BitVec 48) (s : State), s.ordered r (ordWord opUNFENCE r.tag o) →
    let u := fld (ordWord opUNFENCE r.tag o) 10 0
    ((s.castPhase = 0 ∨ 4 ≤ s.castPhase) → (s.tile u).pat.kind ≠ 5 →
      ∃ t, exec (.unfence r o) s = .next t ∧ t.fenced u = false ∧ (∀ v, v ≠ u → t.fenced v = s.fenced v) ∧
        (bit (ordWord opUNFENCE r.tag o) 47 = true → (t.tile u).pat.level = 0 ∧ (t.tile u).pat.acc = 0) ∧
        (bit (ordWord opUNFENCE r.tag o) 47 = false →
          (t.tile u).pat.level = (s.tile u).pat.level ∧ (t.tile u).pat.acc = (s.tile u).pat.acc)) ∧
    (1 ≤ s.castPhase → s.castPhase ≤ 3 →
      ∃ t x, exec (.unfence r o) s = .next t ∧ t.order s.ord.nextId = some x ∧ x.wait = true ∧ x.done = none ∧
        OnlyChanges [.ord, .regs] s t)) ∧
  (∀ (r : OrderRef) (o : BitVec 48) (s : State), s.ordered r (ordWord opPROMOTE r.tag o) →
    let l := fld (ordWord opPROMOTE r.tag o) 9 0
    let tg := promoteTarget (ordWord opPROMOTE r.tag o)
    (tg = none → s.chooseTarget (s.phys l) = none →
      ∃ t, exec (.promote r o) s = .next t ∧ t.doneAs s.ord.nextId .noSpare ∧ OnlyChanges [.ord, .regs] s t) ∧
    ((tg ≠ none ∨ s.chooseTarget (s.phys l) ≠ none) → s.logical (s.phys l) = some l →
      ∃ t p, exec (.promote r o) s = .next t ∧ p ∈ t.map.promotions ∧ p.logical = l ∧ p.from_ = s.phys l ∧ p.target = tg ∧
        p.order = some s.ord.nextId)) ∧
  (∀ (r : OrderRef) (o : BitVec 48) (s : State), s.ordered r (ordWord opRELEASE_PARTITION r.tag o) →
    let a := releaseRect (BitVec.ofNat 48 (fld (ordWord opRELEASE_PARTITION r.tag o) 47 0))
    ∃ t x, exec (.releasePartition r o) s = .next t ∧ x ∈ t.map.releases ∧ x.area = a ∧ x.order = some s.ord.nextId ∧
      x.step = 1 ∧ ∀ l, l ∈ a.tiles → s.phys l < numTiles → t.fenced (s.phys l) = true) ∧
  (∀ (x : Release) (s : State), s.ready = true → (s.map.releases.find? fun y => y.step == 1) = some x → s.castPhase ≠ 3 →
    s.releaseSending x.area = false →
    (∀ l ∈ x.area.tiles, (s.tile (s.phys l)).chisel.inSession = false ∧ s.mouldBusy (s.phys l) = false) →
    ∃ t, exec .releaseScrubDone s = .next t ∧ { x with step := 2 } ∈ t.map.releases ∧
      ∀ l ∈ x.area.tiles, (t.tile (s.phys l)).core.cur = none ∧ (t.tile (s.phys l)).core.sems = [] ∧
        (∀ i, i < sramBlocks → t.sramBytes (s.phys l) i = List.replicate blockBytes 0) ∧
        ∀ y b, y < numLayers → b < (if y = 0 then runtimeEnd 0 else testStart y) →
          t.stackBytes (s.phys l) y b = List.replicate blockBytes 0)

/-- CHISEL_NOW, CHISEL_DEFER and MAQ_RATE. CHISEL_NOW that nothing refuses makes its tile due and forced for cause
ORDER (SUSPECT stays), joins its units with those that it is already due for, and the session carries the order.
CHISEL_DEFER completes OK; it extends the deferral of each addressed tile that is due by schedule and holds no
slot by BEATS, at most to DEFER_MAX, and a tile whose count is then below its limit is no longer forced.
MAQ_RATE sends SET_RATE with its exponent to exactly the nodes that its scope names, for the order. It says of
each of these commands, under conditions on the state and the operands alone, that it completes: CHISEL_NOW,
CHISEL_DEFER, MAQ_RATE. (spec/07_chisel_in_field_tests.md R230; spec/07_chisel_in_field_tests.md R229;
spec/07_chisel_in_field_tests.md R231; spec/06_maquette_spot_checks.md R192) -/
def Obligations.TestAndRateOrders : Prop :=
  (∀ (r : OrderRef) (o : BitVec 48) (s : State), s.ordered r (ordWord opCHISEL_NOW r.tag o) →
    let u := fld (ordWord opCHISEL_NOW r.tag o) 10 0
    let v := fld (ordWord opCHISEL_NOW r.tag o) 47 32
    let m := if v = 0 then s.schedMask else BitVec.ofNat 16 v
    ∃ t, exec (.chiselNow r o) s = .next t ∧ t.runs s.ord.nextId ∧ OnlyChanges [.tiles, .ord, .regs] s t ∧ (s.slotOf u = none → OnlyTiles [u] s t) ∧
      (t.tile u).chisel.orders = (s.tile u).chisel.orders ++ [s.ord.nextId] ∧ (t.tile u).chisel.forced = true ∧
      ((s.tile u).chisel.state = 0 → (t.tile u).chisel.state = 1 ∧ (t.tile u).chisel.cause = 2 ∧ (t.tile u).chisel.dueUnits = m) ∧
      ((s.tile u).chisel.state ≠ 0 → (t.tile u).chisel.state = (s.tile u).chisel.state ∧
        ((s.tile u).chisel.state = 1 ∨ (s.tile u).chisel.wasDue = true →
          (t.tile u).chisel.dueUnits = (s.tile u).chisel.dueUnits ||| m ∧
          ((s.tile u).chisel.cause = 0 → (t.tile u).chisel.cause = 2) ∧
          ((s.tile u).chisel.cause = 1 → (t.tile u).chisel.cause = 1)))) ∧
  (∀ (r : OrderRef) (o : BitVec 48) (s : State), s.ordered r (ordWord opCHISEL_DEFER r.tag o) →
    let w := ordWord opCHISEL_DEFER r.tag o
    ∃ t, exec (.chiselDefer r o) s = .next t ∧ t.doneAs s.ord.nextId .ok ∧
      ∀ u ∈ deferTiles (BitVec.ofNat 48 (fld w 47 0)), (s.tile u).chisel.state = 1 → (s.tile u).chisel.cause = 0 →
        s.slotOf u = none →
        (t.tile u).chisel.ext = min ((s.tile u).chisel.ext + fld w 23 0) (fld (s.inForce Reg.chiselDeferMax) 31 0) ∧
        ((s.tile u).chisel.deferred < s.deferLimit + (t.tile u).chisel.ext → (t.tile u).chisel.forced = false)) ∧
  (∀ (r : OrderRef) (o : BitVec 48) (s : State), s.ordered r (ordWord opMAQ_RATE r.tag o) →
    let w := ordWord opMAQ_RATE r.tag o
    ∃ t p, exec (.maqRate r o) s = .next t ∧ OnlyChanges [.arm, .ord, .regs] s t ∧ t.has p ∧ p.op = 0x12 ∧
      p.order = some s.ord.nextId ∧ ofld p.operand 95 92 = 6 ∧ ofld p.operand 3 0 = fld w 3 0 ∧
      (fld w 47 46 = 0 → p.dests = oneNode (fld w 42 32)) ∧
      (fld w 47 46 = 1 → p.dests = nodeSet (tilesOfRegion (fld w 19 16))) ∧ (fld w 47 46 = 2 → p.dests = allNodes))

/-- CAST, RESTORE, DIGEST_OPEN and DIGEST_CLOSE. CAST that nothing refuses takes the number after the last one
given, shows it in its DETAIL and begins with its window check, in phase 2 if the mould window holds and else in
phase 1; it is full when FULL is set or a full cast is due. RESTORE ends every maquette session and begins in
phase 5 with the number, PEER, FOREIGN and PEERCHIP of its operand; without PEER it sends nothing. DIGEST_OPEN
opens the slot with FIRST and with its configuration and nonce as in force, drops what its tiles had fed and is
sent to every node of RECT for the order; a tile that has already begun a command in range fails the slot
LATE_OPEN at once (log entry 26). DIGEST_CLOSE moves the slot to CLOSING with LAST, for the order. It says of
each of these commands, under conditions on the state and the operands alone, that it completes: CAST, RESTORE,
DIGEST_OPEN, DIGEST_CLOSE. (spec/11_cast_snapshots.md R344; spec/11_cast_snapshots.md R333;
spec/11_cast_snapshots.md R355; spec/12_determinism_digests_trust.md Table 12.3;
spec/12_determinism_digests_trust.md Table 12.5) -/
def Obligations.CastAndDigestOrders : Prop :=
  (∀ (r : OrderRef) (o : BitVec 48) (s : State), s.ordered r (ordWord opCAST r.tag o) →
    ∃ t x c, exec (.cast r o) s = .next t ∧ t.cast.lastGiven = s.cast.lastGiven + 1 ∧ t.cast.run = some c ∧
      c.number = s.cast.lastGiven + 1 ∧ c.order = some s.ord.nextId ∧ c.phase = (if s.mouldWindow then 2 else 1) ∧
      c.full = (o.getLsbD 47 || s.castFull) ∧ c.mirror = (s.cast.partner != 0 && !o.getLsbD 46) ∧
      t.order s.ord.nextId = some x ∧ x.done = none ∧ x.detail = s.cast.lastGiven + 1) ∧
  (∀ (r : OrderRef) (o : BitVec 48) (s : State), s.ordered r (ordWord opRESTORE r.tag o) →
    ∃ t c, exec (.restore r o) s = .next t ∧ t.runs s.ord.nextId ∧ t.cast.run = some c ∧
      c.number = o.setWidth 32 ∧ c.order = some s.ord.nextId ∧ c.phase = 5 ∧ c.peer = o.getLsbD 47 ∧ c.foreign = o.getLsbD 46 ∧
      c.peerChip = BitVec.ofNat 13 (o.toNat / 2 ^ 32) ∧ (∀ k x, k < 32 → t.session k = some x → x.phase = 4) ∧
      OnlyChanges [.cast, .ord, .regs, .maq, .tiles, .ev, .arm, .links] s t ∧
      (o.getLsbD 47 = false → t.arm = s.arm ∧ t.links = s.links)) ∧
  (∀ (r : OrderRef) (o : BitVec 48) (s : State), s.ordered r (ordWord opDIGEST_OPEN r.tag o) →
    let k := fld (ordWord opDIGEST_OPEN r.tag o) 47 44
    let d : DigSlot := { first := BitVec.ofNat 24 (fld (ordWord opDIGEST_OPEN r.tag o) 23 0) }
    let ts := s.rectTiles (rectOf (s.inForce (Reg.digestSlotCfg + 8 * k)) 0)
    ((∀ e ∈ ts, ∀ i, (s.tile e.2).core.last = some i → d.inRange i.2.2 = false) →
      ∃ t, exec (.digestOpen r o) s = .next t ∧ t.runs s.ord.nextId ∧ OnlyChanges [.digest, .tiles, .arm, .ord, .regs] s t ∧
        (t.dslot k).state = 1 ∧ (t.dslot k).first = d.first ∧ (t.dslot k).cfg = s.inForce (Reg.digestSlotCfg + 8 * k) ∧
        (t.dslot k).nonce = s.inForce (Reg.digestSlotNonce + 8 * k) ∧ (∀ j, j ≠ k → t.dslot j = s.dslot j) ∧
        (∀ e ∈ ts, (t.tile e.2).core.digBytes k = ([], [], [])) ∧
        ∀ e ∈ ts, e.2 < numTiles → ∃ p, t.has p ∧ p.op = 0x17 ∧ p.dests.getLsbD e.2 = true ∧ p.operand = digestArm k d.first ∧
          p.order = some s.ord.nextId) ∧
    ((∃ e ∈ ts, ∃ i, (s.tile e.2).core.last = some i ∧ d.inRange i.2.2 = true) →
      ∃ t, exec (.digestOpen r o) s = .next t ∧ t.runs s.ord.nextId ∧ (t.dslot k).state = 6 ∧ (t.dslot k).reason = 1)) ∧
  (∀ (r : OrderRef) (o : BitVec 48) (s : State), s.ordered r (ordWord opDIGEST_CLOSE r.tag o) →
    let k := fld (ordWord opDIGEST_CLOSE r.tag o) 47 44
    ∃ t, exec (.digestClose r o) s = .next t ∧ OnlyChanges [.digest, .ord, .regs] s t ∧ t.runs s.ord.nextId ∧
      (∀ j, j ≠ k → t.dslot j = s.dslot j) ∧
      t.dslot k = { s.dslot k with
        state := 2, last := some (BitVec.ofNat 24 (fld (ordWord opDIGEST_CLOSE r.tag o) 23 0)), order := some s.ord.nextId })

/-- WATCH, STEP, RUN and FREEZE. WATCH with MODE STATS or DIGEST arms its slot for the order and sends WATCH_SET ARM
to the node of its logical tile. WATCH with MODE DISARM ends the slot CANCELLED together with the order that
armed it, and completes OK. STEP sends its COUNT to the node of the tile and stays running. RUN completes OK and
goes to the nodes of exactly the tiles on which it acts. FREEZE marks the freeze as pending with its REASON and
completes OK. It says of each of these commands, under conditions on the state and the operands alone, that it
completes: WATCH_ARM, WATCH_DISARM, STEP, RUN, FREEZE. (spec/13_counters_trace_debug.md R410;
spec/13_counters_trace_debug.md R412; spec/13_counters_trace_debug.md R413; spec/13_counters_trace_debug.md
R414; spec/13_counters_trace_debug.md R416) -/
def Obligations.DebugOrders : Prop :=
  (∀ (r : OrderRef) (o : BitVec 48) (s : State),
    let w := ordWord opWATCH r.tag (if fld (o.setWidth 64) 44 43 == 2 then withField o 44 43 0 else o)
    s.ordered r w →
    ∃ t p, exec (.watchArm r o) s = .next t ∧ OnlyChanges [.dbg, .arm, .ord, .regs] s t ∧ t.runs s.ord.nextId ∧
      t.watchArmed (fld w 47 45) = true ∧ (t.watch (fld w 47 45)).2.2 = some s.ord.nextId ∧
      fld (t.watch (fld w 47 45)).1 54 45 = fld w 42 33 ∧ (∀ j, j ≠ fld w 47 45 → t.watch j = s.watch j) ∧
      t.has p ∧ p.op = 0x13 ∧ p.dests = oneNode (s.phys (fld w 42 33)) ∧ p.order = some s.ord.nextId ∧
      ofld p.operand 88 73 = fld w 31 16 ∧ ofld p.operand 72 57 = fld w 15 0) ∧
  (∀ (r : OrderRef) (o : BitVec 48) (s : State),
    let w := ordWord opWATCH r.tag (withField o 44 43 2)
    s.ordered r w →
    ∃ t, exec (.watchDisarm r o) s = .next t ∧ OnlyChanges [.dbg, .arm, .ord, .regs] s t ∧ t.doneAs s.ord.nextId .ok ∧
      fld (t.watch (fld w 47 45)).1 63 62 = 3 ∧ (∀ j, j ≠ fld w 47 45 → t.watch j = s.watch j) ∧
      ∀ id x, (s.watch (fld w 47 45)).2.2 = some id → s.order id = some x → t.doneAs id .cancelled) ∧
  (∀ (r : OrderRef) (o : BitVec 48) (s : State), s.ordered r (ordWord opSTEP r.tag o) →
    let w := ordWord opSTEP r.tag o
    ∃ t p, exec (.stepTile r o) s = .next t ∧ OnlyChanges [.arm, .ord, .regs] s t ∧ t.runs s.ord.nextId ∧ t.has p ∧
      p.op = 0x14 ∧ p.dests = oneNode (s.phys (fld w 9 0)) ∧ p.order = some s.ord.nextId ∧
      ofld p.operand 95 88 = fld w 47 40) ∧
  (∀ (r : OrderRef) (o : BitVec 48) (s : State), s.ordered r (ordWord opRUN r.tag o) →
    let w := ordWord opRUN r.tag o
    ∃ t, exec (.run r o) s = .next t ∧ OnlyChanges [.arm, .ord, .regs] s t ∧ t.doneAs s.ord.nextId .ok ∧
      (∀ u ∈ s.runTiles w, u < numTiles → ∃ p, t.has p ∧ p.op = 0x15 ∧ p.dests.getLsbD u = true ∧ p.order = some s.ord.nextId) ∧
      ((∀ p, s.has p → p.order ≠ some s.ord.nextId) →
        ∀ p u, t.has p → p.order = some s.ord.nextId → p.dests.getLsbD u = true → u ∈ s.runTiles w) ∧
      (s.runTiles w = [] → t.arm = s.arm)) ∧
  (∀ (r : OrderRef) (o : BitVec 48) (s : State), s.ordered r (ordWord opFREEZE r.tag o) →
    ∃ t, exec (.freeze r o) s = .next t ∧ OnlyChanges [.life, .ord, .regs] s t ∧ t.doneAs s.ord.nextId .ok ∧
      t.life = { s.life with freezePending := true
                             freezeReason := BitVec.ofNat 32 (fld (ordWord opFREEZE r.tag o) 31 0) })

/-- REPOSE, FUSE_COMMIT, FUSE_PROG_RESULT and PARTNER_BIND. REPOSE with WAKE 0 ends every maquette session and fails
every digest slot in OPEN to SIGNING, begins the entry and stops the streams; with WAKE 1 it begins the wake.
FUSE_COMMIT completes FUSE_FULL when the soft entries do not fit and OUT_OF_WINDOW outside the temperature
window, both with the repair table unchanged; else it presents the first soft entry to Palalmux, or completes OK
when there is none, and the repair record is to be written again. A reported slot is fused and counted; an error
ends the commit and logs FUSE_ABORT. PARTNER_BIND completes PEER_UNREACHABLE, PARTNER_BUSY, NO_STORE or
SAME_FEED with no effect, in that order, or binds the partner; unbinding ends the binding. Without an answer, or
where no route reaches the chip, the status is PEER_UNREACHABLE. It says of each of these commands, under
conditions on the state and the operands alone, that it completes: REPOSE_ENTER, REPOSE_WAKE, FUSE_COMMIT,
PARTNER_BIND, PARTNER_UNBIND, FUSE_PROG_RESULT. (spec/14_bringup_reset_repose.md R439;
spec/14_bringup_reset_repose.md R441; spec/08_patina_quarantine_repair.md R275; spec/15_register_pages.md R469;
spec/11_cast_snapshots.md R345) -/
def Obligations.PowerFuseAndPartnerOrders : Prop :=
  (∀ (r : OrderRef) (o : BitVec 48) (s : State), s.ordered r (ordWord opREPOSE r.tag (withField o 47 47 0)) →
    ∃ t p, exec (.reposeEnter r o) s = .next t ∧ t.life.repose = 1 ∧ t.life.reposeOrder = some s.ord.nextId ∧
      t.life.reposeStart = s.beat ∧ (∀ k x, k < 32 → t.session k = some x → x.phase = 4) ∧
      (∀ k, k < 16 → 1 ≤ (s.dslot k).state → (s.dslot k).state ≤ 4 → (t.dslot k).state = 6 ∧ (t.dslot k).reason = 6) ∧
      t.has p ∧ p.op = 0x04 ∧ p.vc = 0 ∧ p.dests = allNodes) ∧
  (∀ (r : OrderRef) (o : BitVec 48) (s : State), s.ordered r (ordWord opREPOSE r.tag (withField o 47 47 1)) →
    ∃ t, exec (.reposeWake r o) s = .next t ∧ OnlyChanges [.life, .ord, .regs] s t ∧ t.runs s.ord.nextId ∧ t.life.repose = 3 ∧
      t.life.reposeOrder = some s.ord.nextId ∧ t.life.wakeAt = s.time.time) ∧
  (∀ (r : OrderRef) (o : BitVec 48) (s : State), s.ordered r (ordWord opFUSE_COMMIT r.tag o) →
    (s.fuseFree < s.softEntries.length →
      ∃ t, exec (.fuseCommit r o) s = .next t ∧ t.doneAs s.ord.nextId .fuseFull ∧ OnlyChanges [.ord, .regs] s t) ∧
    (s.softEntries.length ≤ s.fuseFree → s.fuseWindow = false →
      ∃ t, exec (.fuseCommit r o) s = .next t ∧ t.doneAs s.ord.nextId .outOfWindow ∧ OnlyChanges [.map, .ord, .regs] s t ∧
        t.map = { s.map with tempSpan := s.spanNow, committed := 0 }) ∧
    (s.softEntries.length ≤ s.fuseFree → s.fuseWindow = true → s.softEntries ≠ [] →
      ∃ t, exec (.fuseCommit r o) s = .next t ∧ t.runs s.ord.nextId ∧ t.map.commitState = 1 ∧ t.map.progReq = true ∧
        s.softEntries.head? = some t.map.progEntry ∧ t.mgmtWaits 1 = true ∧ t.map.table = s.map.table) ∧
    (s.softEntries = [] → s.fuseWindow = true →
      ∃ t, exec (.fuseCommit r o) s = .next t ∧ t.doneAs s.ord.nextId .ok ∧ t.map.commitState = 2 ∧ t.nv = s.nv ∧
        (s.cast.storeThere = true → t.map.savePending = true))) ∧
  (∀ (m : Requester) (v : Word) (id j n : Nat) (s : State), s.mayUse m 0x015 0x120 → bit v 63 = true →
    s.map.commit = some (id, j, n) → s.map.progReq = true →
    (fld v 7 0 = 0 → ∃ t, exec (.fuseProgResult m v) s = .next t ∧
      t.nv.fused = s.nv.fused ++ [setFld s.map.progEntry 61 61 1] ∧ t.map.committed = n + 1) ∧
    (fld v 7 0 ≠ 0 → ∃ t, exec (.fuseProgResult m v) s = .next t ∧ t.map.commitState = 3 ∧ t.map.commit = none ∧
      t.map.progReq = false ∧ t.map.lastError = BitVec.ofNat 8 (fld v 7 0) ∧ t.nv.halfSlots = s.nv.halfSlots + 1 ∧
      t.nv.fused = s.nv.fused ∧
      mkRec s.time.time 0x0076 (entTile s.map.progEntry) uNODE .fault (pack [(8, 8, n), (0, 8, fld v 7 0)]) ∈ t.ev.queue)) ∧
  (∀ (r : OrderRef) (o : BitVec 48) (ans : Option PartnerAnswer) (s : State),
    s.ordered r (ordWord opPARTNER_BIND r.tag (withField o 47 47 1)) → (∀ x ∈ s.ord.orders, x.ref ≠ r) →
    let chip : BitVec 13 := o.setWidth 13
    let reached := s.routeFor chip ≠ none ∧ chip ∉ s.arm.unreachable
    (∀ st, (ans = none ∨ ¬ reached) ∧ st = .peerUnreachable ∨
        (∃ a, ans = some a ∧ reached ∧ ((a.busy = true ∧ st = .partnerBusy) ∨ (a.busy = false ∧ a.area = false ∧ st = .noStore) ∨
          (a.busy = false ∧ a.area = true ∧ s.feedState a.pfid = 2 ∧ o.getLsbD 46 = false ∧ st = .sameFeed))) →
      ∃ t, exec (.partnerBind r o ans) s = .next t ∧ t.doneAs s.ord.nextId st ∧ OnlyChanges [.ord, .regs] s t) ∧
    (∀ a, ans = some a → reached → a.busy = false → a.area = true → (s.feedState a.pfid = 1 ∨ o.getLsbD 46 = true) →
      ∃ t, exec (.partnerBind r o ans) s = .next t ∧ OnlyChanges [.cast, .ev, .ord, .regs] s t ∧
        t.doneAs s.ord.nextId (if s.feedState a.pfid = 2 then .mirrorDependent else .ok) ∧
        t.cast.partner = s.feedState a.pfid ∧ t.cast.partnerPfid = a.pfid ∧ t.cast.partnerChip = o.setWidth 13)) ∧
  (∀ (r : OrderRef) (o : BitVec 48) (s : State), s.ordered r (ordWord opPARTNER_BIND r.tag (withField o 47 47 0)) →
    ∃ t, exec (.partnerUnbind r o) s = .next t ∧ OnlyChanges [.cast, .ev, .arm, .ord, .regs] s t ∧ t.doneAs s.ord.nextId .ok ∧
      t.cast.partner = 0 ∧ t.cast.partnerChip = 0 ∧ (s.cast.partner = 0 → t.ev = s.ev))

/-- COMMAND_BEGIN and COMMAND_END. A command that may begin is in progress and is the tile's last begun one; a STEP
counts it. One that uses a canonical channel without its feature halts at once. A command that ends HALTED stays
in progress with its stream halted. One that ends DONE leaves the stream at its boundary: the next sequence is
known if the queue has a command, a STEP that it was the last of leaves the tile STEPPING, its array cycles are
counted, and its words and host bytes are fed to every digest slot that is open over its tile and range. No
other tile changes, but a maquette host, which gets the descriptor of a command that its source samples; that
host then runs the command once, and forms the record of its outputs from what it ran. It says of each of these
commands, under conditions on the state and the operands alone, that it completes: COMMAND_BEGIN, COMMAND_END.
(spec/13_counters_trace_debug.md R394; spec/13_counters_trace_debug.md R403; spec/13_counters_trace_debug.md
R413; spec/12_determinism_digests_trust.md R366; spec/12_determinism_digests_trust.md R373;
spec/06_maquette_spot_checks.md R193; spec/06_maquette_spot_checks.md R198; spec/06_maquette_spot_checks.md
R199) -/
def Obligations.CommandsBeginAndEnd : Prop :=
  (∀ (u : Nat) (c : Cmd) (cyc : Nat) (s : State), s.mayBegin u = true → (c.canonical = false ∨ s.feature 0 = true) →
    let hosts := if (s.tile u).maq.role = 1 then ((s.session (s.tile u).maq.slot).map fun x => [x.host]).getD [] else []
    ∃ t, exec (.commandBegin u c cyc) s = .next t ∧ OnlyTiles (u :: hosts) s t ∧ t.stack.sram = s.stack.sram ∧
      (t.tile u).core.cur = some c ∧ (t.tile u).core.last = some (cmdIds c) ∧ (t.tile u).core.next = c.cseq ∧
      (t.tile u).core.halted = false ∧
      (t.tile u).core.stepLeft = (s.tile u).core.stepLeft - (if (s.tile u).core.stepOn then 1 else 0)) ∧
  (∀ (u : Nat) (c : Cmd) (cyc : Nat) (s : State), s.mayBegin u = true → c.canonical = true → s.feature 0 = false →
    ∃ t, exec (.commandBegin u c cyc) s = .next t ∧ OnlyTiles [u] s t ∧ (t.tile u).core.cur = some c ∧
      (t.tile u).core.halted = true) ∧
  (∀ (u : Nat) (c : Cmd) (e : CmdEnd) (s : State), s.mayEnd u e = true → (s.tile u).core.cur = some c → e.how = .halted →
    ∃ t, exec (.commandEnd u e) s = .next t ∧ OnlyTiles [u] s t ∧ (t.tile u).core.cur = some c ∧
      (t.tile u).core.halted = true ∧ (t.tile u).core.sems = (s.tile u).core.sems) ∧
  (∀ (u : Nat) (c : Cmd) (e : CmdEnd) (s : State), s.mayEnd u e = true → (s.tile u).core.cur = some c → e.how = .done →
    s.servesMaq u = false → (s.tile u).core.resetAt = none →
    ∃ t, exec (.commandEnd u e) s = .next t ∧ OnlyTiles [u] s t ∧ (t.tile u).core.cur = none ∧
      (t.tile u).core.queued = e.queued ∧ (t.tile u).core.next = (if e.queued = 0 then 0xFFFFFF else seqAfter c.cseq) ∧
      (t.tile u).core.stepping = ((s.tile u).core.stepOn && (s.tile u).core.stepLeft == 0) ∧
      (t.tile u).core.counter 0 = (s.tile u).core.counter 0 + BitVec.ofNat 48 e.arrayCycles ∧
      ∀ k l, k < 16 → s.logical u = some l → ((s.dslot k).state = 1 ∨ (s.dslot k).state = 2) → (s.dslot k).rect.has l = true →
        (s.dslot k).inRange c.cseq = true →
        (t.tile u).core.digBytes k = (((s.tile u).core.digBytes k).1 ++ c.words,
          ((s.tile u).core.digBytes k).2.1 ++ e.hostIn, ((s.tile u).core.digBytes k).2.2 ++ e.hostOut)) ∧
  (∀ (u : Nat) (c : Cmd) (cyc : Nat) (s : State), s.mayBegin u = false → s.mayHost u c = true →
    ∃ t, exec (.commandBegin u c cyc) s = .next t ∧ OnlyTiles [u] s t ∧ (t.tile u).core.cur = some c ∧
      (t.tile u).maq.begun = true ∧ (t.tile u).core.last = (s.tile u).core.last) ∧
  (∀ (u : Nat) (c : Cmd) (e : CmdEnd) (x : Session) (s : State), s.mayEnd u e = true → (s.tile u).core.cur = some c →
    e.how = .done → (s.tile u).maq.role = 3 → s.session (s.tile u).maq.slot = some x →
    ∃ t r, exec (.commandEnd u e) s = .next t ∧ OnlyTiles [u] s t ∧ (t.tile u).core.cur = none ∧
      t.session (s.tile u).maq.slot = some { x with hostRec := some r } ∧ r.units = e.outs.map (·.unit) ∧
      r.digest = crc64 (e.outs.flatMap fun o => packBlock o.fmt.toNat o.elems))

/-- PASS_START, BLOCK_VERDICT, PASS_RERUN and BLOCK_RELEASE. A pass that R481 refuses, or one that a special operand
abandons, halts its command and leaves no pass. One whose operands and entry checks are good stands in the array
with its accumulators and predicted residues. An entry check that fails marks the pass for its rerun, or halts
the command when reruns are off. The next block of a pass drains into commit staging with its verdict. A rerun
reads and verifies its operands again; when its blocks all pass it puts them in place and ends the pass; one
with a refused operand, a failing entry check or a failing block halts the command. The first held block leaves
only with verdict PASS; a failed one stays. It says of each of these commands, under conditions on the state and
the operands alone, that it completes: PASS_START, BLOCK_VERDICT, PASS_RERUN, BLOCK_RELEASE.
(spec/04_block_seals.md R481; spec/04_block_seals.md R142; spec/04_block_seals.md R147; spec/04_block_seals.md
R148; spec/04_block_seals.md R149; spec/05_containment_and_taint.md R158; spec/05_containment_and_taint.md R160) -/
def Obligations.PassesAndVerdicts : Prop :=
  (∀ (u : Nat) (p : PassDesc) (entry : List EntryFault) (s : State), s.live = true → s.mayRun u = true →
    (s.tile u).core.pass = none → p.acts.length ≤ 65536 → p.weights.length = p.acts.length →
    (∀ k, s.injected u k = none) →
    let ctl := s.inForce Reg.sealSealCtl
    let c := (s.tile u).core
    let x := passOf c.passNo p entry ctl
    (refuseReason p ≠ 0 →
      ∃ t, exec (.passStart u p entry) s = .next t ∧ OnlyTiles [u] s t ∧ t.stack.sram = s.stack.sram ∧ (t.tile u).core.halted = true ∧
        (t.tile u).core.pass = none ∧ ∃ x, (u, x) ∈ t.ev.flight ∧ x.code = 0x39 ∧ x.detail = pack [(60, 4, refuseReason p)]) ∧
    (refuseReason p = 0 → firstEntry p entry none = none → firstSpecial (latched p entry) = none →
      ∃ t, exec (.passStart u p entry) s = .next t ∧ OnlyTiles [u] s t ∧ OnlyChanges [.tiles, .dbg, .free, .time] s t ∧
        (t.tile u).core = { c with
          passNo := c.passNo + 1, latch := (latched p entry).weights.getLast?.getD c.latch, pass := some x }) ∧
    (refuseReason p = 0 → firstEntry p entry none = none → firstSpecial (latched p entry) ≠ none →
      abandonsSpecial p ctl = true →
      ∃ t, exec (.passStart u p entry) s = .next t ∧ OnlyTiles [u] s t ∧ (t.tile u).core.halted = true ∧ (t.tile u).core.pass = none) ∧
    (refuseReason p = 0 → firstEntry p entry none = none → firstSpecial (latched p entry) ≠ none →
      abandonsSpecial p ctl = false →
      ∃ t, exec (.passStart u p entry) s = .next t ∧ OnlyTiles [u] s t ∧
        (t.tile u).core.pass = some x ∧ (t.tile u).core.halted = false) ∧
    (∀ f, refuseReason p = 0 → firstEntry p entry none = some f → bit ctl 1 = true → c.atWork = true →
      ∃ t, exec (.passStart u p entry) s = .next t ∧ OnlyTiles [u] s t ∧
        (t.tile u).core.pass = some { x with entry := true, fails := [f] } ∧ (t.tile u).core.halted = false) ∧
    (refuseReason p = 0 → firstEntry p entry none ≠ none → bit ctl 1 = false →
      ∃ t, exec (.passStart u p entry) s = .next t ∧ OnlyTiles [u] s t ∧ (t.tile u).core.pass = none ∧
        (t.tile u).core.halted = true)) ∧
  (∀ (u : Nat) (p : PassSt) (f : DrainFaults) (s : State), s.mayDrain u f = true → f.sum = none → (s.tile u).core.pass = some p →
    p.entry = false → p.next < passBlocks p.desc → (s.tile u).core.staging.length < stagingBlocks →
    (∀ k, s.injected u k = none) →
    let h := p.held u s.time.time p.next (p.drain p.next f none none)
    ∃ t, exec (.blockVerdict u f) s = .next t ∧ OnlyTiles [u] s t ∧
      (t.tile u).core.staging = (s.tile u).core.staging ++ [h] ∧
      (p.desc.outIndex + p.next < sramBlocks → t.sramSeal u (p.desc.outIndex + p.next) = h.sealw) ∧
      (p.next + 1 < passBlocks p.desc → ∃ q, (t.tile u).core.pass = some q ∧ q.next = p.next + 1 ∧
        q.fails = p.fails ++ (p.drain p.next f none none).fails) ∧
      (p.next + 1 = passBlocks p.desc → p.fails ++ (p.drain p.next f none none).fails = [] →
        (t.tile u).core.pass = none ∧ (t.tile u).core.halted = (s.tile u).core.halted)) ∧
  (∀ (u : Nat) (p : PassSt) (reads : List (Finding × Finding)) (entry : List EntryFault) (fs : List DrainFaults) (s : State),
    s.live = true → s.mayRun u = true → (s.tile u).core.pass = some p → p.fails ≠ [] →
    (p.entry = true ∨ p.next = passBlocks p.desc) → (s.tile u).core.rerunFits p = true →
    (∀ q ∈ p.desc.reads, s.unitGate u q.addr false = .serve) →
    let r := s.rereadAll u p.desc.reads reads
    (r.2 = false →
      ∃ t, exec (.passRerun u { reads, entry } fs) s = .next t ∧ OnlyTiles [u] s t ∧ (t.tile u).core.pass = none ∧
        (t.tile u).core.halted = true) ∧
    (r.2 = true → (∀ k, r.1.injected u k = none) → firstEntry p.desc entry none ≠ none →
      ∃ t, exec (.passRerun u { reads, entry } fs) s = .next t ∧ OnlyTiles [u] s t ∧ (t.tile u).core.pass = none ∧
        (t.tile u).core.halted = true) ∧
    (r.2 = true → (∀ k, r.1.injected u k = none) → firstEntry p.desc entry none = none →
      firstSpecial (latched p.desc entry) = none →
      let x := passOf p.id p.desc entry p.ctl
      let ds := x.drainAll fs none none
      (ds.all (·.ok) = true →
        ∃ t, exec (.passRerun u { reads, entry } fs) s = .next t ∧ OnlyTiles [u] s t ∧ (t.tile u).core.pass = none ∧
          (t.tile u).core.halted = false ∧ (t.tile u).core.staging = replaceHeld (s.tile u).core.staging p
            ((ds.zip (List.range ds.length)).map fun d => x.held u s.time.time d.2 d.1)) ∧
      (ds.all (·.ok) = false →
        ∃ t, exec (.passRerun u { reads, entry } fs) s = .next t ∧ OnlyTiles [u] s t ∧ (t.tile u).core.pass = none ∧
          (t.tile u).core.halted = true ∧ (t.tile u).core.staging = (s.tile u).core.staging))) ∧
  (∀ (u : Nat) (x : Xfer) (h : Held) (rest : List Held) (b : BlockMove) (bs : List BlockMove) (s : State), s.live = true →
    u < numTiles → (s.tile u).core.staging = h :: rest → x.blocks = b :: bs →
    (h.passed = false → exec (.blockRelease u x) s = .next s) ∧
    (h.passed = true → (s.tile u).core.halted = false → (s.tile u).core.interrupted = false → (s.tile u).core.frozen = false →
      (s.tile u).core.ni.fenced u = false → (s.tile u).maq.role ≠ 3 → (s.tile u).maq.role ≠ 4 →
      s.regionStopped (regionOf u) = false →
      ∃ t, exec (.blockRelease u x) s = .next t ∧ OnlyTiles [u] s t ∧ t.stack = s.stack ∧ (t.tile u).core.staging = rest))

/-- SEAL_VERIFY_READ, SEAL_SECOND_READ and PARTIAL_BLOCK_WRITE. A read whose check passes is accepted: it adds 1 to
the tile's count of accepted blocks, and a read of a sampled command is mirrored. A residue that differs is read
once more when RETRY_EN is 1 and else halts the command; an invalid or stale block halts it at once. A second
read that passes is counted as a retry and the command goes on; one that differs again halts it. A RESEAL source
of CLASS NEARBANK reaches tile SRAM unchanged under a COMPUTED seal. A partial write of a slice block is judged
as any write of its layer: refused it completes DENIED or RESERVED with no effect. Where the stack interface
serves a read or a write at once, it is carried out: a partial write verifies the whole block first, by a second
read if need be: it then writes the changed elements with a seal word of its writer's class; if the verification
fails it halts the command and writes nothing. It says of each of these commands, under conditions on the state
and the operands alone, that it completes: SEAL_VERIFY_READ, SEAL_SECOND_READ, PARTIAL_BLOCK_WRITE.
(spec/04_block_seals.md R131; spec/04_block_seals.md R132; spec/04_block_seals.md R133; spec/04_block_seals.md
R134; spec/04_block_seals.md R135; spec/04_block_seals.md R129; spec/09_memory_boundary.md R299) -/
def Obligations.VerifiedReads : Prop :=
  (∀ (u : Nat) (r : ReadReq) (s : State), s.live = true → s.mayRun u = true → (s.tile u).core.expect = none →
    blockExists r.addr = true → r.reseal.getD 0 < sramBlocks → r.ecc = .clean → s.injected u 3 = none →
    s.unitGate u r.addr false = .serve → (s.tile u).core.resetAt = none →
    let kept := fun (t : State) => OnlyTiles [u, blockTile r.addr] s t ∧
      (bit (s.inForce Reg.traceTraceCtl) 1 = false → t.stack = s.stack)
    (s.resealSource u r = false → s.checkRead u r none = .pass →
      ∃ t, exec (.sealVerifyRead u r) s = .next t ∧ OnlyTiles [u, blockTile r.addr] s t ∧
        OnlyChanges [.tiles, .maq, .regs, .status] s t ∧
        (t.tile u).core.counter 6 = (s.tile u).core.counter 6 + 1 ∧ (t.tile u).core.expect = none ∧
        (s.sampling u = none → t.maq = s.maq)) ∧
    (∀ x, s.resealSource u r = false → s.checkRead u r none = .mismatch x → s.retryEn = true →
      ∃ t, exec (.sealVerifyRead u r) s = .next t ∧ kept t ∧ (t.tile u).core.expect = some r ∧
        (t.tile u).core.retryXor = some (BitVec.ofNat 31 x) ∧ (t.tile u).core.retryInj = none ∧ (t.tile u).core.halted = false) ∧
    (∀ x, s.resealSource u r = false → s.checkRead u r none = .mismatch x → s.retryEn = false →
      ∃ t, exec (.sealVerifyRead u r) s = .next t ∧ kept t ∧ (t.tile u).core.halted = true ∧
        (t.tile u).core.sealHalt = true) ∧
    (∀ c code, s.resealSource u r = false → s.checkRead u r none = c → (∃ n, (c, code) ∈ [(Check.invalid n, 0x35), (.stale, 0x36)]) →
      ∃ t x, exec (.sealVerifyRead u r) s = .next t ∧ kept t ∧ (t.tile u).core.halted = true ∧
        (u, x) ∈ t.ev.flight ∧ x.code = code ∧ x.sev = .fault) ∧
    (s.resealSource u r = true → (s.readBytes u r.addr).length = blockBytes →
      ∃ t, exec (.sealVerifyRead u r) s = .next t ∧ OnlyTiles [u, blockTile r.addr] s t ∧
        OnlyChanges [.stack, .tiles, .regs, .status, .dbg, .free, .time] s t ∧ t.stack.mem = s.stack.mem ∧
        t.sramBytes u (r.reseal.getD 0) = s.readBytes u r.addr ∧ sealClass (t.sramSeal u (r.reseal.getD 0)) = 3 ∧
        sealValid (t.sramSeal u (r.reseal.getD 0)) = true)) ∧
  (∀ (u : Nat) (r e : ReadReq) (s : State), s.live = true → s.mayRun u = true → (s.tile u).core.expect = some e → e.addr = r.addr →
    r.ecc = .clean → s.unitGate u r.addr false = .serve →
    let c := s.checkRead u (readAs e { flips := r.flips, ecc := r.ecc }) (s.tile u).core.retryInj
    (c = .pass → ∃ t, exec (.sealSecondRead u r) s = .next t ∧ OnlyTiles [u, blockTile r.addr] s t ∧ t.stack = s.stack ∧
      (t.tile u).core.expect = none ∧ (t.tile u).core.halted = false ∧
      (t.reg Reg.sealReadRetries).toNat = min ((s.reg Reg.sealReadRetries).toNat + 1) (regMask Reg.sealReadRetries)) ∧
    (c ≠ .pass → ∃ t, exec (.sealSecondRead u r) s = .next t ∧ OnlyTiles [u, blockTile r.addr] s t ∧
      (bit (s.inForce Reg.traceTraceCtl) 1 = false → t.stack = s.stack) ∧
      (t.tile u).core.expect = none ∧ (t.tile u).core.halted = true)) ∧
  (∀ (u : Nat) (p : PartialWrite) (s : State), s.live = true → s.mayRun u = true → (s.tile u).core.expect = none →
    blockExists p.read.addr = true → s.unitGate u p.read.addr true = .serve → p.read.ecc = .clean → s.injected u 3 = none →
    let f := p.read.fmt.toNat
    let es := unpackBlock f (s.readBytes u p.read.addr)
    let new := (p.elems.filter fun e => e.1 < fmtElems f).map fun e => (e.1, e.2 % 2 ^ fmtBits f)
    let w := sealWord s.time.time u p.read.gen (writerClass p.writer) true
      (partialResidue f (sealResidue (s.readSeal u p.read.addr)) es new)
    let again := fun c => s.retryEn = true ∧ (∃ x, s.checkRead u p.read none = .mismatch x) ∧
      s.checkRead u (readAs p.read p.again) none = c
    ((s.checkRead u p.read none = .pass ∨ again .pass) →
      ∃ t, exec (.partialBlockWrite u p) s = .next t ∧ OnlyTiles [u, blockTile p.read.addr] s t ∧
        (s.checkRead u p.read none = .pass → OnlyChanges [.stack, .tiles, .maq, .regs, .status] s t) ∧
        (s.stagedAt u p.read.addr = none →
          t.blockSealAt p.read.addr = w ∧
          ((packBlock f (new.foldl (fun a e => a.set e.1 e.2) es)).length = blockBytes →
            t.blockBytesAt p.read.addr = packBlock f (new.foldl (fun a e => a.set e.1 e.2) es))) ∧
        (s.stagedAt u p.read.addr ≠ none → t.stack = s.stack ∧ t.readSeal u p.read.addr = w ∧
          t.readBytes u p.read.addr = packBlock f (new.foldl (fun a e => a.set e.1 e.2) es))) ∧
    ((s.checkRead u p.read none = .stale ∨ (∃ n, s.checkRead u p.read none = .invalid n) ∨
        (s.retryEn = false ∧ ∃ x, s.checkRead u p.read none = .mismatch x) ∨ ∃ c, c ≠ .pass ∧ again c) →
      ∃ t, exec (.partialBlockWrite u p) s = .next t ∧ OnlyTiles [u, blockTile p.read.addr] s t ∧
        (bit (s.inForce Reg.traceTraceCtl) 1 = false → t.stack = s.stack) ∧ (t.tile u).core.halted = true)) ∧
  (∀ (u v l b : Nat) (p : PartialWrite) (s : State), s.live = true → s.mayRun u = true → (s.tile u).core.expect = none →
    p.read.addr = .slice v l b → blockExists p.read.addr = true → s.stagedAt u p.read.addr = none →
    s.reaches (unitAcc u v l b true) → s.stackStopped v = false →
    (s.stackPermits (unitAcc u v l b true) = false →
      ∃ t, exec (.partialBlockWrite u p) s = .next t ∧ OnlyChanges [.regs, .ev, .status] s t ∧ t.status = stDENIED) ∧
    (s.stackPermits (unitAcc u v l b true) = true → runtimeEnd l ≤ b →
      exec (.partialBlockWrite u p) s = .next { s with status := stRESERVED }))

/-- TRANSFER_SEND, TRANSFER_RECEIVE, FENCED_ACK and TRANSFER_COMPLETION. A transfer with a destination that its own
NI holds waits whole. Otherwise its fenced destinations are completed FENCED for its command and the rest is
under way. A transfer that arrives behind a closed port is absorbed, counted and acknowledged FENCED to its
source with the node's generation. One whose source the NI has fenced is refused likewise, with the NI's. A
verified block reaches the SRAM it is written to with its seal word; one from host memory gets a STORED seal of
its content. A FENCED acknowledgement with a newer generation keeps the copy, one for a held destination waits
behind the hold, and one that stands completes FENCED. A completion ends the transfer. It says of each of these
commands, under conditions on the state and the operands alone, that it completes: TRANSFER_SEND,
TRANSFER_RECEIVE, FENCED_ACK, TRANSFER_COMPLETION. (spec/05_containment_and_taint.md R164;
spec/08_patina_quarantine_repair.md R259; spec/08_patina_quarantine_repair.md R260;
spec/08_patina_quarantine_repair.md R261; spec/08_patina_quarantine_repair.md R262;
spec/08_patina_quarantine_repair.md R258; spec/06_maquette_spot_checks.md R194; spec/04_block_seals.md R128;
spec/07_chisel_in_field_tests.md R223) -/
def Obligations.Transfers : Prop :=
  (∀ (u : Nat) (x : Xfer) (s : State), s.live = true → s.mayRun u = true → (∀ l ∈ x.dests, l < numLogical) →
    s.servesMaq u = false → (s.tile u).core.staging.length < stagingBlocks → (∀ b ∈ x.blocks, s.sendsBlock b = true) →
    (s.tile u).core.stallsWhole = false → (∀ b ∈ x.blocks, s.unitGate u b.src false = .serve) →
    let us := u :: x.blocks.map fun b => blockTile b.src
    let ni := (s.tile u).core.ni
    ((∃ l ∈ x.dests, ni.held l = true) →
      ∃ t, exec (.transferSend u x) s = .next t ∧ OnlyTiles us s t ∧
        (t.tile u).core.stalled = (s.tile u).core.stalled ++ [(wholeWait, ni.gen.toNat, x)] ∧
        (t.tile u).core.xfers = (s.tile u).core.xfers ∧ (t.tile u).core.fencedDone = (s.tile u).core.fencedDone ∧
        t.stack = s.stack ∧ t.hostMem = s.hostMem) ∧
    ((∀ l ∈ x.dests, ni.held l = false) →
      let go := x.dests.filter fun l => !ni.fenced (ni.phys l)
      let hosts := s.pairedHosts u go
      let done := (s.tile u).core.fencedDone ++ (x.dests.filter fun l => ni.fenced (ni.phys l)).map fun l =>
        ((s.tile u).core.curIds, x.id, l)
      (go = [] → x.toHost = false → x.toChip = none →
        ∃ t, exec (.transferSend u x) s = .next t ∧ OnlyTiles us s t ∧ (t.tile u).core.fencedDone = done ∧
          (t.tile u).core.xfers = (s.tile u).core.xfers ∧ t.stack = s.stack ∧ t.hostMem = s.hostMem) ∧
      ((go ≠ [] ∨ x.toHost = true ∨ x.toChip ≠ none) →
      ∃ t, exec (.transferSend u x) s = .next t ∧ OnlyTiles us s t ∧
        (t.tile u).core.xfers = (s.tile u).core.xfers ++ [{ x with
          dests := go, mgen := ni.gen.setWidth 8, hosts, subscribed := !hosts.isEmpty }] ∧
        (t.tile u).core.fencedDone = done))) ∧
  (∀ (u : Nat) (x : XferIn) (s : State), s.live = true → u < numTiles →
    s.regionStopped (regionOf u) = false → x.fromLink = none → x.fromHost = none →
    x.exempt = false → ((s.tile u).core.router = true ∨ (s.tile u).core.ni.fenced x.src = true) →
    ∃ t, exec (.transferReceive u x) s = .next t ∧ OnlyChanges [.regs, .tiles] s t ∧ OnlyRegs [Reg.mapAbsorbed] s t ∧
      OnlyTiles [x.src] s t ∧
      (t.tile x.src).core.acksDue = (s.tile x.src).core.acksDue ++ [(x.x.id, x.dest,
        if (s.tile u).core.router = true then (s.tile u).core.nodeGen else (s.tile u).core.ni.gen)] ∧
      (t.reg Reg.mapAbsorbed).toNat = min ((s.reg Reg.mapAbsorbed).toNat + 1) (regMask Reg.mapAbsorbed)) ∧
  (∀ (u i : Nat) (x : XferIn) (b : BlockMove) (s : State), s.live = true → u < numTiles →
    s.regionStopped (regionOf u) = false → x.fromLink = none → x.fromHost = none →
    x.exempt = false → (s.tile u).core.router = false → (s.tile u).core.ni.fenced x.src = false → (s.tile u).maq.role = 0 →
    x.x.blocks = [b] → b.dst = .sram u i → i < sramBlocks → b.bytes.length = blockBytes → b.coll = none →
    s.injected u 3 = none → checkMoved b (b.bytes, b.sealw) .clean none = .pass →
    ∃ t, exec (.transferReceive u x) s = .next t ∧ OnlyChanges [.tiles, .stack] s t ∧ OnlyTiles [u] s t ∧
      t.sramBytes u i = b.bytes ∧ t.sramSeal u i = b.sealw ∧ t.stack.mem = s.stack.mem) ∧
  (∀ (u i : Nat) (x : XferIn) (b : BlockMove) (g : BitVec 8) (s : State), s.live = true → u < numTiles →
    s.regionStopped (regionOf u) = false → x.fromLink = none → x.fromHost = some g → (s.tile u).core.router = false → (s.tile u).maq.role = 0 →
    x.x.blocks = [b] → b.dst = .sram u i → i < sramBlocks → b.bytes.length = blockBytes →
    ∃ t, exec (.transferReceive u x) s = .next t ∧ OnlyChanges [.tiles, .stack, .dbg, .free, .time] s t ∧ OnlyTiles [u] s t ∧
      t.sramBytes u i = b.bytes ∧ t.stack.mem = s.stack.mem ∧
      t.sramSeal u i = sealWord s.time.time u g 1 true (blockResidue b.fmt.toNat (unpackBlock b.fmt.toNat b.bytes))) ∧
  (∀ (u id l : Nat) (gen : BitVec 16) (x : Xfer) (s : State), s.live = true → u < numTiles → (s.tile u).core.drains = [] →
    (s.tile u).core.ackIsDue id l gen = true → x ∈ (s.tile u).core.xfers → x.id = id → l ∈ x.dests →
    (∀ y ∈ (s.tile u).core.xfers, y.id = id → y = x) →
    (genNewer gen.toNat (s.tile u).core.ni.gen.toNat = true →
      ∃ t, exec (.fencedAck u id l gen) s = .next t ∧ OnlyChanges [.tiles] s t ∧ OnlyTiles [u] s t ∧
        (t.tile u).core.stalled = (s.tile u).core.stalled ++
          [(l, gen.toNat, { x with dests := [l], toHost := false, toChip := none })]) ∧
    (genNewer gen.toNat (s.tile u).core.ni.gen.toNat = false → (s.tile u).core.ni.held l = true →
      ∃ t, exec (.fencedAck u id l gen) s = .next t ∧ OnlyChanges [.tiles] s t ∧ OnlyTiles [u] s t ∧
        (t.tile u).core.stalled = (s.tile u).core.stalled ++
          [(l, (s.tile u).core.ni.gen.toNat, { x with dests := [l], toHost := false, toChip := none })]) ∧
    (genNewer gen.toNat (s.tile u).core.ni.gen.toNat = false → (s.tile u).core.ni.held l = false →
      ∃ t, exec (.fencedAck u id l gen) s = .next t ∧ OnlyChanges [.tiles] s t ∧ OnlyTiles [u] s t ∧
        (t.tile u).core.fencedDone = (s.tile u).core.fencedDone ++ [((s.tile u).core.curIds, id, l)] ∧ (t.tile u).core.stalled = (s.tile u).core.stalled)) ∧
  (∀ (u : Nat) (x : Xfer) (s : State), s.live = true → x ∈ (s.tile u).core.xfers → (∀ y ∈ (s.tile u).core.xfers, y.id = x.id → y = x) →
    (s.tile u).core.drains = [] →
    ∃ t, exec (.transferCompletion u x.id) s = .next t ∧ OnlyTiles [u] s t ∧ OnlyChanges [.tiles, .dbg, .free, .time] s t ∧
      (t.tile u).core = { (s.tile u).core with
        xfers := (s.tile u).core.xfers.filter fun y => y.id != x.id
        hostDma := if x.toHost = true then some (s.dmaStatus x) else (s.tile u).core.hostDma })

/-- Unpacking a packed block gives its elements back. For every format of Table 4.3 and every block of its elements,
each any value that its bits admit: the elements read from the packed bytes are the elements, and an FP6 block
has its pads zero. (spec/04_block_seals.md R125; spec/04_block_seals.md Table 4.3; spec/04_block_seals.md R127) -/
def Obligations.BlockPackingRoundTrip : Prop :=
  ∀ (f : Nat) (es : List Nat), f ≤ 0xA → es.length = fmtElems f → (∀ e ∈ es, e < 2 ^ fmtBits f) →
    unpackBlock f (packBlock f es) = es ∧ padsBad f (packBlock f es) = false ∧ (packBlock f es).length = blockBytes

/-- A pass in which nothing goes wrong passes; one wrong accumulator fails its block. For every pass without a
special operand, whose weight rows have at most 64 elements, whatever its formats, load and steps: each block
that drains without an error has verdict PASS, because the predicted row residues equal those of the
accumulators; and a block of which one accumulator left the array changed by a number that p does not divide has
verdict FAIL. (spec/04_block_seals.md R139; spec/04_block_seals.md R140; spec/04_block_seals.md R141;
spec/04_block_seals.md R146) -/
def Obligations.PassVerdictsAreSound : Prop :=
  ∀ (id : Nat) (p : PassDesc) (ctl : Word) (b : Nat), firstSpecial p = none → (∀ ws ∈ p.weights, ∀ r ∈ ws, r.length ≤ 64) →
    b < passBlocks p →
    ((passOf id p [] ctl).drain b { acc := [], ra := [], rb := [] } none none).ok = true ∧
    ∀ (i : Nat) (d : Int), b * passRows p * 64 ≤ i → i < (b + 1) * passRows p * 64 → d % (sealPrime : Int) ≠ 0 →
      ((passOf id p [] ctl).drain b { acc := [(i, d)], ra := [], rb := [] } none none).ok = false

/-- Residues lie below p, and a partial write keeps the seal true. The residue of a block is below p, in every
format and for every content, so 0x7FFF_FFFF is never written; and the residue formed from the old residue and
the old and new values of the changed elements is the residue of the block as changed. (spec/04_block_seals.md
R122; spec/04_block_seals.md R127; spec/04_block_seals.md R129) -/
def Obligations.ResiduesOfBlocks : Prop :=
  (∀ (f : Nat) (es : List Nat), blockResidue f es < sealPrime) ∧
  (∀ (f : Nat) (es : List Nat) (new : List (Nat × Nat)), (∀ e ∈ new, e.1 < es.length) →
    partialResidue f (blockResidue f es) es new = blockResidue f (new.foldl (fun a e => a.set e.1 e.2) es))

/-- The life of a maquette session. A host is assigned to the first due tile when one is free: the session takes the
first free slot, and its PAIR_ADD goes to every node. An armed session that no command reached ends MISSED once
ARM_TIMEOUT is over; a sampled one ends after DEADLINE. A branch that drops a subscribed copy takes it from the
oldest transfer under way that carries one to the host. The host's comparison reports AGREE or DISAGREE exactly
by the compared fields and the digest, and abandons a check whose host halted, whose host misses an operand or
that comes too late. A disagreement gets the nearest free referee, or ends UNRESOLVED with its host fenced or
REF_WAIT over. A referee that agrees with the host alone charges the source, with the source alone the host, and
otherwise both. It says of each of these commands, under conditions on the state and the operands alone, that it
completes: SUBSCRIBED_COPY_DROP, MAQ_HOST_ASSIGN, MAQ_ARM_TIMEOUT, MAQ_COMPARE, MAQ_DEADLINE,
MAQ_REFEREE_ASSIGN, MAQ_ARBITRATION. (spec/06_maquette_spot_checks.md R190; spec/06_maquette_spot_checks.md
R191; spec/06_maquette_spot_checks.md R196; spec/06_maquette_spot_checks.md R200;
spec/06_maquette_spot_checks.md R201; spec/06_maquette_spot_checks.md R204; spec/06_maquette_spot_checks.md
R205; spec/06_maquette_spot_checks.md R206) -/
def Obligations.MaquetteSessions : Prop :=
  (∀ (u h k : Nat) (rest : List Nat) (s : State), s.ready = true → s.inRepose = false → s.dispatching = true → bit (s.inForce Reg.maqMaqCtl) 0 = true →
    s.dueTiles = u :: rest → s.sourceOk u = true → s.maqActive < fld (s.inForce Reg.maqMaqCtl) 62 56 →
    ((List.range 32).find? fun k => (s.session k).isNone) = some k → nearestByRegion u s.freeHosts = some h →
    ∃ t p, exec .maqHostAssign s = .next t ∧ (t.tile u).maq.due = none ∧ OnlyTiles s.dueTiles s t ∧ t.has p ∧ p.op = 0x12 ∧
      p.dests = allNodes ∧ ofld p.operand 95 92 = 0 ∧ ofld p.operand 91 87 = k ∧
      t.session k = some { host := h, source := u, logical := (s.logical u).getD 0 }) ∧
  (∀ (k a : Nat) (x : Session) (s : State), s.ready = true → s.session k = some x → x.phase = 0 → x.armBeat = some a →
    a + fld (s.inForce Reg.maqMaqCtl) 47 40 < s.beat →
    ∃ t, exec (.maqArmTimeout k) s = .next t ∧ t.session k = some { x with phase := 4 } ∧ (∀ j, j ≠ k → t.session j = s.session j) ∧
      (t.reg Reg.maqMissed).toNat = min ((s.reg Reg.maqMissed).toNat + 1) (regMask Reg.maqMissed)) ∧
  (∀ (k e : Nat) (x : Session) (s : State), s.ready = true → s.session k = some x → x.phase = 1 → x.endBeat = some e →
    e + fld (s.inForce Reg.maqMaqCtl) 55 48 < s.beat →
    ∃ t, exec (.maqDeadline k) s = .next t ∧ t.session k = some { x with phase := 4 } ∧
      (t.reg Reg.maqAbandoned).toNat = min ((s.reg Reg.maqAbandoned).toNat + 1) (regMask Reg.maqAbandoned)) ∧
  (∀ (k : Nat) (x : Session) (r h : MaqRecord) (s : State), s.ready = true → s.session k = some x → x.phase = 1 →
    s.operandMissing x = false →
    x.src = some r → x.hostRec = some h → (s.tile x.host).core.halted = false → s.maqLate x = false →
    ∃ t, exec (.maqCompare k x.host) s = .next t ∧ t.session k = some { x with phase := 2 } ∧
      OnlyTiles [x.host] s t ∧ OnlyChanges [.maq, .tiles] s t ∧ (t.tile x.host).core.sum.maqOut = (if maqAgrees r h then 1 else 2) ∧
      (t.tile x.host).core.sum.maqSlot = k ∧ (t.tile x.host).core.sum.maqPartner = x.source) ∧
  (∀ (k : Nat) (x : Session) (s : State), s.ready = true → s.session k = some x → x.phase = 1 →
    ((s.tile x.host).core.halted = true ∨ s.operandMissing x = true) →
    ∃ t, exec (.maqCompare k x.host) s = .next t ∧ t.session k = some { x with phase := 2 } ∧ OnlyTiles [x.host] s t ∧
      (t.tile x.host).core.sum.maqOut = 3 ∧
      (t.tile x.host).core.sum.maqReason = (if (s.tile x.host).core.halted = true then 7 else 1)) ∧
  (∀ (k : Nat) (x : Session) (r h : MaqRecord) (s : State), s.ready = true → s.session k = some x → x.phase = 1 →
    s.operandMissing x = false →
    x.src = some r → x.hostRec = some h → (s.tile x.host).core.halted = false → s.maqLate x = true →
    ∃ t, exec (.maqCompare k x.host) s = .next t ∧ t.session k = some { x with phase := 2 } ∧ OnlyTiles [x.host] s t ∧
      (t.tile x.host).core.sum.maqOut = 3 ∧ (t.tile x.host).core.sum.maqReason = 2) ∧
  (∀ (k u : Nat) (x : Session) (pre post : List Xfer) (y : Xfer) (s : State), s.ready = true → s.session k = some x →
    (s.tiles.find? fun e => e.2.core.xfers.any fun y => y.hosts.contains x.host) = some (u, s.tile u) →
    (s.tile u).core.xfers = pre ++ y :: post → (∀ z ∈ pre, x.host ∉ z.hosts) → x.host ∈ y.hosts →
    ∃ t, exec (.subscribedCopyDrop k) s = .next t ∧ OnlyTiles [u] s t ∧ OnlyChanges [.tiles] s t ∧
      (t.tile u).core = { (s.tile u).core with xfers := pre ++ { y with hosts := y.hosts.erase x.host } :: post }) ∧
  (∀ (k : Nat) (s : State), s.ready = true →
    (∀ x, s.session k = some x → ∀ e ∈ s.tiles, ∀ y ∈ e.2.core.xfers, x.host ∉ y.hosts) →
    exec (.subscribedCopyDrop k) s = .next s) ∧
  (∀ (k r : Nat) (x : Session) (s : State), s.ready = true → s.dispatching = true → s.session k = some x → x.phase = 3 →
    x.referee = none → s.fenced x.host = false → s.beat ≤ x.disBeat + fld (s.inForce Reg.maqMaqCtl) 39 36 →
    nearestByRegion x.source (s.freeHosts.filter fun t => t != x.host && t != x.source) = some r →
    ∃ t p, exec (.maqRefereeAssign k) s = .next t ∧ t.session k = some { x with referee := some r, refBeat := s.beat } ∧
      t.has p ∧ p.op = 0x12 ∧ p.dests = oneNode r ∧ ofld p.operand 95 92 = 4) ∧
  (∀ (k : Nat) (x : Session) (s : State), s.ready = true → s.dispatching = true → s.session k = some x → x.phase = 3 →
    x.referee = none → (s.fenced x.host = true ∨ x.disBeat + fld (s.inForce Reg.maqMaqCtl) 39 36 < s.beat) →
    ∃ t, exec (.maqRefereeAssign k) s = .next t ∧ t.session k = some { x with phase := 4 } ∧
      (t.reg Reg.maqUnresolved).toNat = min ((s.reg Reg.maqUnresolved).toNat + 1) (regMask Reg.maqUnresolved)) ∧
  (∀ (k q : Nat) (x : Session) (a b r : MaqRecord) (s : State), s.ready = true → s.session k = some x → x.phase = 3 →
    x.referee = some q → x.refRec = some r → (s.tile q).core.halted = false →
    x.src = some a → x.hostRec = some b → x.source ≠ x.host → s.fenced x.host = false →
    s.beat ≤ x.refBeat + fld (s.inForce Reg.maqMaqCtl) 55 48 →
    ∃ t, exec (.maqArbitration k q) s = .next t ∧ (t.session k).map (·.phase) = some 4 ∧
      (maqAgrees r b = true → maqAgrees r a = false →
        (t.tile x.source).pat.maqCharge = (s.tile x.source).pat.maqCharge + 1 ∧
        (t.tile x.host).pat.maqCharge = (s.tile x.host).pat.maqCharge) ∧
      (maqAgrees r a = true → maqAgrees r b = false →
        (t.tile x.host).pat.maqCharge = (s.tile x.host).pat.maqCharge + 1 ∧
        (t.tile x.source).pat.maqCharge = (s.tile x.source).pat.maqCharge) ∧
      (maqAgrees r a = maqAgrees r b →
        (t.tile x.host).pat.maqCharge = (s.tile x.host).pat.maqCharge + 1 ∧
        (t.tile x.source).pat.maqCharge = (s.tile x.source).pat.maqCharge + 1))

/-- A late detection becomes a report that stays until it is acknowledged. With no computation running,
TAINT_COMPUTATION, between the patina update and the orders, starts the oldest detection and sends LINEAGE_QUERY
with its number and first beat to every node; with one running it changes nothing. TAINT_CLOSURE, once every
node has captured, forms the report, whose tainted tiles include the detecting one from its first beat on, and
drops the captures. TAINT, at status posting, publishes the oldest report when none waits for an acknowledgement
and logs TAINT; while one waits it changes nothing. A permitted write of the published report's REPORT_ID to
REPORT_ACK ends the wait and keeps the report in the page; any other value leaves the state as it is. It says of
each of these commands, under conditions on the state and the operands alone, that it completes: REPORT_ACK,
TAINT_COMPUTATION, TAINT_CLOSURE, TAINT. (spec/05_containment_and_taint.md R168;
spec/05_containment_and_taint.md R170; spec/05_containment_and_taint.md R171; spec/05_containment_and_taint.md
R172; spec/05_containment_and_taint.md R174; spec/05_containment_and_taint.md R175) -/
def Obligations.TaintComputations : Prop :=
  (∀ (d : Detection) (rest : List Detection) (s : State), s.ready = true → s.afterPatina = true → s.contain.running = none →
    s.contain.queue = d :: rest →
    ∃ t p, exec .taintComputation s = .next t ∧ OnlyChanges [.contain, .arm, .time] s t ∧ t.contain.running = some d ∧
      t.contain.queue = rest ∧ t.contain.nextId = nextGen s.contain.nextId ∧ t.has p ∧ p.op = 0x20 ∧ p.dests = allNodes ∧
      ofld p.operand 79 64 = s.contain.nextId.toNat ∧ ofld p.operand 50 0 = d.b0 % 2 ^ 51) ∧
  (∀ s : State, s.ready = true → s.afterPatina = true → (s.contain.running ≠ none ∨ s.contain.queue = []) →
    exec .taintComputation s = .next (s.toCycle 5632)) ∧
  (∀ s : State, s.afterPatina = false → exec .taintComputation s = .next s) ∧
  (∀ (d : Detection) (s : State), s.ready = true → s.contain.running = some d → s.allCaptured = true → d.tile < numTiles →
    ∃ t r, exec .taintClosure s = .next t ∧ OnlyChanges [.contain, .tiles] s t ∧ t.contain.running = none ∧
      t.contain.ready = s.contain.ready ++ [r] ∧ r.det = d ∧ (∃ x, tget none r.tiles d.tile = some x ∧ x.f = d.b0) ∧
      ∀ u, u < numTiles → (t.tile u).core = { (s.tile u).core with captured := none }) ∧
  (∀ s : State, s.ready = true → s.allCaptured = false → exec .taintClosure s = .next s) ∧
  (∀ (r : Report) (rest : List Report) (s : State), s.ready = true → s.time.phase = 7 → s.contain.waiting = false →
    s.contain.ready = r :: rest →
    ∃ t, exec .taint s = .next t ∧ t.contain.report = some r ∧ t.contain.waiting = true ∧ t.contain.ready = rest ∧
      (∃ x ∈ t.ev.queue, x.code = 0x40 ∧ x.detail = r.sum) ∧
      (∀ k e, k < 16 → (s.dslot k).running = true → e ∈ s.rectTiles (s.dslot k).rect → r.has e.2 = true →
        (t.dslot k).state = 6 ∧ (t.dslot k).reason = 2)) ∧
  (∀ s : State, s.ready = true → s.time.phase = 7 → s.contain.waiting = true → exec .taint s = .next (s.toCycle 7936)) ∧
  (∀ s : State, s.time.phase ≠ 7 → exec .taint s = .next s) ∧
  (∀ (m : Requester) (v : Word) (s : State), s.mayUse m 0x006 0x140 →
    (∀ r, s.contain.report = some r → fld v 15 0 = r.id.toNat →
      exec (.reportAck m v) s = .next { s with contain.waiting := false }) ∧
    (∀ r, s.contain.report = some r → fld v 15 0 ≠ r.id.toNat → exec (.reportAck m v) s = .next s) ∧
    (s.contain.report = none → exec (.reportAck m v) s = .next s))

/-- A tile becomes due, is armed, stands ready and starts, or is disarmed. A tile whose cover time has come becomes
DUE for cause SCHEDULE with SCHED_MASK. One whose deferral count reaches its limit is forced. An armed tile at
its boundary with no transfer, request or near-bank operation left becomes READY and its stream stops there.
ARM_WAIT without a boundary disarms the pair. A READY witness whose conditions hold starts. FORCE_WAIT without a
slot logs CHISEL_STARVED once. The nodes whose NIs have drained reply; when every NI holds the logical tile and
none owes a reply, the start signal goes out: SEED_LOAD with the list, and segments run. It says of each of
these commands, under conditions on the state and the operands alone, that it completes: CHISEL_DUE,
CHISEL_FORCED, CHISEL_READY, CHISEL_ARM_WAIT, CHISEL_START_SIGNAL, CHISEL_STARVED, TEST_HOLD_DRAINED.
(spec/07_chisel_in_field_tests.md R227; spec/07_chisel_in_field_tests.md R228; spec/07_chisel_in_field_tests.md
R223; spec/07_chisel_in_field_tests.md R229; spec/07_chisel_in_field_tests.md R233;
spec/07_chisel_in_field_tests.md R234) -/
def Obligations.ChiselSchedule : Prop :=
  (∀ (u : Nat) (s : State), s.ready = true → s.inRepose = false → u < numTiles → (s.tile u).chisel.state = 0 →
    s.chiselDueAt u ≤ s.beat →
    ∃ t, exec (.chiselDue u) s = .next t ∧ OnlyChanges [.tiles] s t ∧ OnlyTiles [u] s t ∧ (t.tile u).chisel.state = 1 ∧
      (t.tile u).chisel.cause = 0 ∧ (t.tile u).chisel.forced = false ∧ (t.tile u).chisel.dueUnits = s.schedMask ∧
      (t.tile u).chisel.deferred = 0 ∧ (t.tile u).chisel.dueBeat = s.beat ∧ (t.tile u).core = (s.tile u).core) ∧
  (∀ (u : Nat) (s : State), s.ready = true → s.inRepose = false → u < numTiles →
    ((s.tile u).chisel.state ≠ 0 ∨ s.beat < s.chiselDueAt u) → exec (.chiselDue u) s = .next s) ∧
  (∀ (u : Nat) (s : State), s.ready = true → s.inRepose = false → u < numTiles → (s.tile u).chisel.state = 1 →
    (s.tile u).chisel.forced = false → s.logical u ≠ none → s.fenced u = false → s.deferLimit + (s.tile u).chisel.ext ≤ (s.tile u).chisel.deferred →
    ∃ t, exec (.chiselForced u) s = .next t ∧ OnlyChanges [.tiles] s t ∧ OnlyTiles [u] s t ∧
      (t.tile u).chisel = { (s.tile u).chisel with forced := true, forcedBeat := s.beat, startedSlotWait := false }) ∧
  (∀ (u : Nat) (s : State), s.ready = true → u < numTiles → (s.tile u).chisel.node.arm ≠ 0 → (s.tile u).core.xfers = [] →
    (s.tile u).core.stalled = [] → s.stackWaiting u = false → s.nbAtWork u = false →
    (((s.tile u).chisel.state = 2 ∧ (s.tile u).core.idleBoundary = true) ∨
      ((s.tile u).chisel.state = 3 ∧ (s.tile u).core.atBoundary = true ∧ (s.tile u).core.halted = false)) →
    ∃ t, exec (.chiselReady u) s = .next t ∧ OnlyChanges [.tiles, .arm] s t ∧ OnlyTiles [u] s t ∧ (t.tile u).chisel.state = 4 ∧
      (t.tile u).chisel.readyBeat = s.beat ∧ (t.tile u).core = { (s.tile u).core with chiselStop := true } ∧
      t.arm.lastReply = some (u, (chiselPackets rkREADY 0xF (s.tile u).chisel.node.session []).flatten)) ∧
  (∀ (u k : Nat) (x : Slot) (s : State), s.ready = true → u < numTiles → (s.tile u).chisel.state = 2 →
    s.slotOf u = some (k, x) → x.role = 2 → (s.tile u).chisel.armBeat + s.armWait ≤ s.beat → x.other ≠ u →
    (s.tile u).chisel.pend = false →
    ∃ t p, exec (.chiselArmWait u) s = .next t ∧ t.slot k = none ∧ t.has p ∧ p.op = 0x11 ∧ p.dests = oneNode u ∧
      OnlyTiles [u, x.other] s t ∧ (t.tile u).chisel.state = (if (s.tile u).chisel.wasDue then 1 else 0)) ∧
  (∀ (u k : Nat) (x : Slot) (s : State), s.ready = true → s.inRepose = false → u < numTiles → s.slotOf u = some (k, x) → x.role = 2 →
    (s.tile u).chisel.state = 4 → s.startOk u = true → s.logical u = none →
    ∃ t p, exec (.chiselStartSignal u) s = .next t ∧ OnlyTiles [u] s t ∧ (t.tile u).chisel.state = 7 ∧
      (t.tile u).chisel.startBeat = s.beat ∧ (t.tile u).chisel.seed = s.sessionSeed x.session ∧ t.has p ∧ p.op = 0x31 ∧
      p.dests = oneNode u ∧ p.vc = 3) ∧
  (∀ (u l k : Nat) (x : Slot) (s : State), s.ready = true → s.inRepose = false → u < numTiles → s.slotOf u = some (k, x) → x.role = 2 →
    (s.tile u).chisel.state = 4 → s.startOk u = true → s.logical u = some l → l < numLogical → s.fenced u = false →
    ∃ t p, exec (.chiselStartSignal u) s = .next t ∧ OnlyTiles [u, s.phys l] s t ∧ (t.tile u).chisel.state = 6 ∧
      t.map.hub.held l = true ∧ (∀ v, t.fenced v = s.fenced v) ∧ t.has p ∧ p.op = 0x01) ∧
  (∀ (u : Nat) (s : State), s.ready = true → s.inRepose = false → u < numTiles → (s.tile u).chisel.state = 1 →
    (s.tile u).chisel.forced = true → (s.tile u).chisel.startedSlotWait = false → s.mayArm u = true →
    (s.tile u).chisel.forcedBeat + s.forceWait ≤ s.beat →
    ∃ t, exec (.chiselStarved u) s = .next t ∧ OnlyTiles [u] s t ∧ (t.tile u).chisel.startedSlotWait = true ∧
      (∃ r ∈ t.ev.queue, r.code = 0x62 ∧ r.source = BitVec.ofNat 11 u) ∧
      (t.reg Reg.chiselStarved).toNat = min ((s.reg Reg.chiselStarved).toNat + 1) (regMask Reg.chiselStarved)) ∧
  (∀ (u : Nat) (s : State), s.ready = true → u < numTiles →
    let r := allTiles.foldl State.drainReply s
    (∀ (l k : Nat) (x : Slot), r.logical u = some l → (r.tile u).chisel.state = 6 → r.slotOf u = some (k, x) → r.holdDrained l = true →
      ∃ t p, exec (.testHoldDrained u) s = .next t ∧ OnlyTiles [u] r t ∧ (t.tile u).chisel.state = 7 ∧
        (t.tile u).chisel.seg = ((members (t.tile u).chisel.list).headD 0xF) ∧ t.has p ∧ p.op = 0x31) ∧
    ((∀ l, r.logical u = some l → r.holdDrained l = false) → exec (.testHoldDrained u) s = .next r))

/-- Segment results, their verdicts, and the end of a session. A structural segment whose signature is the fused one
passes, and one with a value that differs fails; the SRAM march fails on a block that it finds wrong, and leaves
its pattern. Equal results of a pair pass their cross-check segment on both tiles; different ones leave it
undecided on both. A voided result decides nothing. When every segment of the list has its result the tile is
HOLDING. SESSION_MAX voids the running segment by ABORT and leaves the tile HOLDING; a holding tile it finishes.
A witness that never came leaves the segment undone on both. REINIT loads the map of the hub anew. In the next
dispatch phase a restored tile without failures reports CHISEL_END PASSED, and is idle again with its stream
running and its slot free. It says of each of these commands, under conditions on the state and the operands
alone, that it completes: SEGMENT_RESULT, WITNESS_WAIT_EXPIRY, CHISEL_LIST_DONE, SESSION_MAX_EXPIRY,
REINIT_DONE. (spec/07_chisel_in_field_tests.md R217; spec/07_chisel_in_field_tests.md R218;
spec/07_chisel_in_field_tests.md R219; spec/07_chisel_in_field_tests.md R220; spec/07_chisel_in_field_tests.md
R225; spec/07_chisel_in_field_tests.md R235; spec/07_chisel_in_field_tests.md R236;
spec/07_chisel_in_field_tests.md R237; spec/07_chisel_in_field_tests.md R239; spec/07_chisel_in_field_tests.md
R247) -/
def Obligations.ChiselResults : Prop :=
  (∀ (u : Nat) (k : Nat) (x : Slot) (r : SegResult) (s : State), s.ready = true → u < numTiles → s.slotOf u = some (k, x) → x.role ≠ 2 →
    (s.tile u).chisel.state = 7 → (s.tile u).chisel.seg = r.seg → (s.tile u).chisel.voidNow = false → 8 ≤ r.seg → r.seg < 12 → r.seg ≠ 10 →
    (members (s.tile u).chisel.node.segs).head? = some r.seg →
    ∃ t, exec (.segmentResult u r) s = .next t ∧ OnlyChanges [.tiles, .arm, .stack] s t ∧ OnlyTiles [u] s t ∧
      (t.tile u).chisel.got.getLsbD r.seg = true ∧ t.stack.sram = s.stack.sram ∧
      (tget 0 r.wrong 0 = 0 →
        (t.tile u).chisel.passed.getLsbD r.seg = true ∧ (t.tile u).chisel.failed = (s.tile u).chisel.failed) ∧
      (tget 0 r.wrong 0 ≠ 0 → (t.tile u).chisel.failed.getLsbD r.seg = true ∧
        (t.tile u).chisel.passed = (s.tile u).chisel.passed)) ∧
  (∀ (u : Nat) (k : Nat) (x : Slot) (r : SegResult) (s : State), s.ready = true → u < numTiles → s.slotOf u = some (k, x) → x.role ≠ 2 →
    (s.tile u).chisel.state = 7 → (s.tile u).chisel.seg = 12 → (s.tile u).chisel.voidNow = false → r.seg = 12 →
    (members (s.tile u).chisel.node.segs).head? = some 12 →
    ∃ t, exec (.segmentResult u r) s = .next t ∧ OnlyTiles [u] s t ∧
      ((t.tile u).chisel.passed.getLsbD 12 = true ↔ (r.march = none ∨ (s.tile u).chisel.passed.getLsbD 12 = true)) ∧
      (r.march ≠ none → (t.tile u).chisel.failed.getLsbD 12 = true) ∧
      ∀ i, i < sramBlocks → t.sramSeal u i = Config.marchSeal i) ∧
  (∀ (u k : Nat) (x : Slot) (r : SegResult) (s : State), s.ready = true → u < numTiles → s.slotOf u = some (k, x) → x.role ≠ 2 →
    x.other ≠ u → (s.tile u).chisel.state = 7 → (s.tile u).chisel.seg = r.seg → (s.tile u).chisel.voidNow = false → r.seg < 8 →
    r.seg ≠ 2 → (members (s.tile u).chisel.node.segs).head? = some r.seg →
    ((s.tile x.other).chisel.state = 7 ∨ (s.tile x.other).chisel.state = 8) → (s.tile x.other).chisel.values r.seg ≠ [] →
    let vs := segValues (s.tile u).chisel.node.seed r
    ((s.tile x.other).chisel.values r.seg = vs →
      ∃ t, exec (.segmentResult u r) s = .next t ∧ OnlyTiles [u, x.other] s t ∧
        (t.tile u).chisel.passed.getLsbD r.seg = true ∧ (t.tile x.other).chisel.passed.getLsbD r.seg = true) ∧
    ((s.tile x.other).chisel.values r.seg ≠ vs →
      ∃ t, exec (.segmentResult u r) s = .next t ∧ OnlyTiles [u, x.other] s t ∧
        (t.tile u).chisel.undec.getLsbD r.seg = true ∧ (t.tile x.other).chisel.undec.getLsbD r.seg = true ∧
        tget 0 (t.tile u).chisel.undecBeat r.seg = s.beat ∧
        (t.tile u).chisel.passed = (s.tile u).chisel.passed)) ∧
  (∀ (u k : Nat) (x : Slot) (r : SegResult) (s : State), s.ready = true → u < numTiles → s.slotOf u = some (k, x) → x.role ≠ 2 →
    (s.tile u).chisel.state = 7 → (s.tile u).chisel.seg = r.seg → (s.tile u).chisel.voidNow = true → r.seg < 14 →
    (members (s.tile u).chisel.node.segs).head? = some r.seg →
    ∃ t, exec (.segmentResult u r) s = .next t ∧ OnlyTiles [u] s t ∧ (t.tile u).chisel.voided.getLsbD r.seg = true ∧
      (t.tile u).chisel.passed = (s.tile u).chisel.passed ∧ (t.tile u).chisel.failed = (s.tile u).chisel.failed) ∧
  (∀ (u : Nat) (s : State), s.ready = true → u < numTiles → (s.tile u).chisel.state = 7 → (s.tile u).chisel.node.segs = 0 →
    (s.tile u).chisel.list &&& ~~~(s.tile u).chisel.got = 0 →
    ∃ t, exec (.chiselListDone u) s = .next t ∧ OnlyChanges [.tiles, .arm] s t ∧ OnlyTiles [u] s t ∧
      (t.tile u).chisel = { (s.tile u).chisel with state := 8, seg := 0xF }) ∧
  (∀ (u k : Nat) (x : Slot) (s : State), s.ready = true → u < numTiles → s.slotOf u = some (k, x) →
    s.sessionOver u = true →
    ((s.tile u).chisel.state = 7 →
      ∃ t p, exec (.sessionMaxExpiry u) s = .next t ∧ OnlyTiles [u] s t ∧ (t.tile u).chisel.state = 8 ∧
        (t.tile u).chisel.seg = 0xF ∧ ((s.tile u).chisel.seg ≠ 0xF → (t.tile u).chisel.voidNow = true) ∧
        t.has p ∧ p.op = 0x11 ∧ p.dests = oneNode u ∧ ofld p.operand 95 94 = 2) ∧
    ((s.tile u).chisel.state = 8 →
      ∃ t p, exec (.sessionMaxExpiry u) s = .next t ∧ OnlyTiles [u] s t ∧ (t.tile u).chisel.state = 9 ∧
        (t.tile u).chisel.undec = 0 ∧ (t.tile u).chisel.passed = (s.tile u).chisel.passed ∧
        t.has p ∧ p.op = 0x11 ∧ p.dests = oneNode u ∧ ofld p.operand 95 94 = 1)) ∧
  (∀ (u k g : Nat) (x : Slot) (s : State), s.ready = true → u < numTiles → s.slotOf u = some (k, x) → x.role = 0 → x.other ≠ u →
    (s.tile u).chisel.undec = mask16 [g] → g < 8 → (s.tile u).chisel.witnessOf g = none →
    (s.tile u).chisel.state = 8 → tget 0 (s.tile u).chisel.undecBeat g + s.witnessWait ≤ s.beat →
    disputed (s.tile u).chisel (s.tile x.other).chisel g ≠ [] →
    (∀ i, (s.tile u).chisel.skips g i = false ∧ (s.tile x.other).chisel.skips g i = false) →
    (∀ i ∈ disputed (s.tile u).chisel (s.tile x.other).chisel g, i < ((s.tile u).chisel.values g).length) →
    ∃ t, exec (.witnessWaitExpiry u) s = .next t ∧ OnlyChanges [.tiles] s t ∧ OnlyTiles [u, x.other] s t ∧
      (t.tile u).chisel.undone.getLsbD g = true ∧ (t.tile u).chisel.undec.getLsbD g = false) ∧
  (∀ (u : Nat) (stuck : Option Nat) (s : State), s.ready = true → u < numTiles → (s.tile u).chisel.state = 9 →
    (s.tile u).chisel.node.finish ≠ 0 → (s.tile u).chisel.reinit = none → s.logical u = none →
    (∀ l, l < numLogical → s.map.hub.phys l < numTiles ∧ regionOf (s.map.hub.phys l) = regionOfLogical l) →
    ∃ t, exec (.reinitDone u stuck) s = .next t ∧ OnlyTiles [u] s t ∧ (t.tile u).chisel.reinit = some stuck ∧
      (t.tile u).chisel.state = 9 ∧
      (∀ l, l < numLogical → (t.tile u).core.ni.phys l = s.map.hub.phys l ∧ (t.tile u).core.ni.held l = s.map.hub.held l) ∧
      (∀ v, v < numTiles → (t.tile u).core.ni.fenced v = s.map.hub.fenced v) ∧ (t.tile u).core.ni.gen = s.map.hub.gen) ∧
  (∀ (u k : Nat) (x : Slot) (s : State), s.ready = true → u < numTiles → s.slotOf u = some (k, x) → x.role ≠ 2 →
    (s.tile u).chisel.state = 9 → (s.tile u).chisel.reinit = some none → s.castPhase ≠ 5 → (s.tile u).chisel.abort = 0 →
    (s.tile u).chisel.failed = 0 → (s.tile u).chisel.undone = 0 → (s.tile u).chisel.list &&& ~~~(s.tile u).chisel.passed = 0 →
    (s.tile u).chisel.badRows = 0 → (s.tile u).chisel.badMain = false → (s.tile u).chisel.node.retire = false →
    (s.tile u).chisel.pend = false → (s.tile u).chisel.fencedIn = false → s.logical u = none → (s.tile u).chisel.orders = [] →
    (s.tile u).core.resetAt = none →
    let t := s.chiselEnd u
    OnlyTiles [u] s t ∧ (t.tile u).chisel.state = 0 ∧ (t.tile u).core.chiselStop = false ∧
      (t.tile u).chisel.ended = true ∧ (t.tile u).chisel.lastEnd = s.beat ∧ t.slot k = none ∧
      (∃ r ∈ t.ev.queue, r.code = 0x60 ∧ r.sev = .info) ∧
      (t.tile u).core.counter 10 = (s.tile u).core.counter 10 + 1 ∧
      (t.reg Reg.chiselPassed).toNat = min ((s.reg Reg.chiselPassed).toNat + 1) (regMask Reg.chiselPassed)) ∧
  (∀ (u : Nat) (s : State), s.castPhase ≠ 3 → s.slotTiles = [u] →
    s.chiselEndAll = if (s.tile u).chisel.reinit.isSome = true then (s.castLateAt u).chiselEnd u else s)

/-- A promotion moves a logical tile to its target in steps. The hub starts a next step in a dispatch phase. The
save of a fenced tile completes and migration begins toward the named target. Migration copies its slice and
goes on to the restore. The restore moves the stream to the target, commits the map for the logical tile and
clears the old stream. When every node has the new map the promotion ends: it is logged and recorded as a
repair, and its order completes OK. A pending promotion resumes when a spare has become eligible. The record in
the cast store holds the soft entries under the next SEQ and a STORED seal of its block, or the failure is kept.
It says of each of these commands, under conditions on the state and the operands alone, that it completes:
PROMOTION_SAVE_DONE, PROMOTION_MIGRATION_DONE, PROMOTION_RESTORE_DONE, PROMOTE_DONE, PROMOTION_RESUME,
REPAIR_RECORD_WRITE. (spec/08_patina_quarantine_repair.md R268; spec/08_patina_quarantine_repair.md R269;
spec/08_patina_quarantine_repair.md R270; spec/08_patina_quarantine_repair.md R272;
spec/08_patina_quarantine_repair.md R274) -/
def Obligations.Promotions : Prop :=
  (∀ (l u : Nat) (p : Promotion) (s : State), s.ready = true → s.time.phase = 7 → s.promotion l = some p → p.target = some u →
    p.step = 1 → p.ready = false → s.beat ≤ p.since + 5 → (s.tile p.from_).core.router = true → s.pauseBlocks p = false →
    (s.tile p.from_).chisel.inSession = false →
    s.inSlot u = false → u < numTiles → s.logical u = none → s.fenced u = false →
    (s.tile u).pat.level = 0 → (s.tile u).chisel.lastFailed = false → (∀ q ∈ s.map.promotions, q.logical ≠ l → q.target ≠ some u) →
    ∃ t q, exec (.promotionSaveDone l false) s = .next t ∧ t.promotion l = some q ∧ q.step = 3 ∧ q.saved = true ∧
      q.target = some u ∧ q.from_ = p.from_ ∧ tget {} t.stack.save p.from_ = s.tile p.from_ ∧ t.stack.mem = s.stack.mem) ∧
  (∀ (l u : Nat) (uncorr : Nat) (p : Promotion) (s : State), s.ready = true → s.time.phase = 7 → s.promotion l = some p →
    p.target = some u → p.step = 3 → s.pauseBlocks p = false → s.fenced u = false → (s.tile u).pat.level = 0 → p.from_ ≠ u →
    ∃ t q, exec (.promotionMigrationDone l uncorr) s = .next t ∧ OnlyChanges [.map, .stack, .free] s t ∧ t.promotion l = some q ∧
      q.step = 4 ∧ q.uncorr = min (p.uncorr + uncorr) 255 ∧
      (∀ y b, y < numLayers → b < testStart y → t.stackBytes u y b = s.stackBytes p.from_ y b ∧
        t.stackSeal u y b = s.stackSeal p.from_ y b) ∧
      (∀ y b, y < numLayers → b < layerBlocks y → t.stackBytes p.from_ y b = s.stackBytes p.from_ y b)) ∧
  (∀ (l u : Nat) (p : Promotion) (s : State), s.ready = true → s.time.phase = 7 → s.promotion l = some p → p.target = some u →
    p.step = 4 → s.pauseBlocks p = false → s.cast.run = none → s.fenced u = false → (s.tile u).pat.level = 0 → p.from_ ≠ u →
    u < numTiles →
    ∃ t q, exec (.promotionRestoreDone l) s = .next t ∧ t.promotion l = some q ∧ q.step = 5 ∧ t.phys l = u ∧
      t.map.hub.held l = false ∧ t.map.hub.gen = nextGen s.map.hub.gen ∧
      (t.tile u).core.cur = (s.tile p.from_).core.cur ∧ (t.tile p.from_).core.cur = none ∧
      (t.tile u).core.sems = (s.tile p.from_).core.sems ∧
      (t.tile u).core.halted = ((s.tile p.from_).core.halted || (s.tile p.from_).core.interrupted || !p.saved)) ∧
  (∀ (l u : Nat) (p : Promotion) (s : State), s.ready = true → s.promotion l = some p → p.target = some u →
    p.step = 5 → s.committing l = false → s.map.table.length < repairSlots →
    ∃ t, exec (.promoteDone l) s = .next t ∧ OnlyChanges [.map, .ev, .regs, .ord] s t ∧
      t.map.promotions = (s.map.promotions.filter fun q => q.logical != l) ∧
      t.map.table = s.map.table ++ [tileEntry p.from_ u l true] ∧ (∃ r ∈ t.ev.queue, r.code = 0x73) ∧
      ∀ id, p.order = some id → s.order id ≠ none → t.doneAs id .ok) ∧
  (∀ (l : Nat) (p : Promotion) (s : State), s.ready = true → s.time.phase = 4 → s.promotion l = some p → p.step = 0 →
    s.chooseTarget p.from_ ≠ none → l < numLogical →
    ∃ t q, exec (.promotionResume l) s = .next t ∧ t.promotion l = some q ∧ q.step = 1 ∧ t.map.hub.held l = true) ∧
  (∀ s : State, s.live = true → s.map.savePending = true →
    (∃ t, exec (.repairRecordWrite true) s = .next t ∧ OnlyChanges [.map, .nv, .cast] s t ∧ t.nv.record = s.softEntries.take 504 ∧
      t.nv.recordSeq = s.nextRecordSeq ∧ t.nv.recordChip = Config.chipId ∧ t.nv.recordOther = s.nv.recordNow ∧
      t.nv.recordSeal = storedSeal s.time.time t.nv.recordNow.bytes ∧ t.map.savePending = false ∧ t.map.saveFailed = false) ∧
    (∃ t, exec (.repairRecordWrite false) s = .next t ∧ OnlyChanges [.map, .ev] s t ∧ t.map.savePending = false ∧
      t.map.saveFailed = true ∧ t.nv = s.nv))

/-- STACK_ACCESS by the steps of Table 9.3. A permitted read of a protected block without an uncorrectable codeword
answers OK with the block's first bytes; corrected codewords are counted. One with an uncorrectable codeword
answers UE, is counted and raises MEM_UNCORR. A codeword left uncorrectable is found again. A read of a block
without check bits answers NO_ECC and is counted. No read writes the stack. A permitted write puts its whole
block, its seal word and the dirty bit in place and no other byte. The seal of a write is the copied one, or
STORED for data from host memory or the cast store. A refused access answers DENIED or RESERVED and a host
access in Repose is unsupported; none of them is performed. One from outside to a fenced tile is absorbed
FENCED, and one to a held logical tile waits. An access to a bank in a near-bank operation waits there. A write
from outside between Q and resume is held. One to a slice whose stack interface is stopped waits for its first
edge. It says of this command, under conditions on the state and the operands alone, that it completes:
STACK_ACCESS. (spec/09_memory_boundary.md R290; spec/09_memory_boundary.md Table 9.3; spec/09_memory_boundary.md
R295; spec/09_memory_boundary.md R297; spec/09_memory_boundary.md R298; spec/11_cast_snapshots.md R339;
spec/14_bringup_reset_repose.md R440; spec/08_patina_quarantine_repair.md R259; spec/07_chisel_in_field_tests.md
R223; spec/04_block_seals.md R128; spec/09_memory_boundary.md R303; spec/09_memory_boundary.md R285) -/
def Obligations.StackAccesses : Prop :=
  (∀ (a : StackAcc) (s : State), s.stackOn a.tile = true → a.tile < numTiles → a.layer < numLayers → a.block < runtimeEnd a.layer →
    s.reaches a → (s.inRepose && isHost a.req) = false → s.stackPermits a = true → s.bankRun (bankKey a.tile a.layer (bankOf a.block)) = none →
    a.kind = .read →
    (s.readsRaw a.tile a.layer a.block = false → s.eccAt a.tile a.layer a.block a.ecc = .clean →
      ∃ t, exec (.stackAccess a) s = .next t ∧ OnlyChanges [.tiles, .data, .status] s t ∧ t.status = stOK ∧
        t.data = word (leNat ((s.stackBytes a.tile a.layer a.block).take 8))) ∧
    (∀ n, s.readsRaw a.tile a.layer a.block = false → s.eccAt a.tile a.layer a.block a.ecc = .corrected n →
      ∃ t, exec (.stackAccess a) s = .next t ∧ t.stack = s.stack ∧ t.status = stOK ∧
        t.reg (layerReg a.layer 0x118) = word (min ((s.reg (layerReg a.layer 0x118)).toNat + n) (regMask (layerReg a.layer 0x118)))) ∧
    (∀ cw, s.readsRaw a.tile a.layer a.block = false → s.eccAt a.tile a.layer a.block a.ecc = .uncorrectable cw →
      ∃ t, exec (.stackAccess a) s = .next t ∧ t.stack = s.stack ∧ t.status = stUE ∧
        t.data = word (leNat ((s.stackBytes a.tile a.layer a.block).take 8)) ∧
        (t.tile a.tile).core.sum.eccUncorr = (s.tile a.tile).core.sum.eccUncorr + 1 ∧
        (∃ e ∈ t.ev.flight, e.1 = a.tile ∧ e.2.code = 0x80 ∧ e.2.detail = pack [(60, 4, a.layer), (59, 1, 0), (32, 11, a.block), (0, 8, cw)])) ∧
    (s.readsRaw a.tile a.layer a.block = true →
      ∃ t, exec (.stackAccess a) s = .next t ∧ OnlyChanges [.tiles, .data, .status, .regs] s t ∧ t.status = stNO_ECC ∧
        t.data = word (leNat ((s.stackBytes a.tile a.layer a.block).take 8)) ∧ OnlyRegs [layerReg a.layer 0x128] s t ∧
        t.reg (layerReg a.layer 0x128) = word (min ((s.reg (layerReg a.layer 0x128)).toNat + 1) (regMask (layerReg a.layer 0x128))))) ∧
  (∀ (a : StackAcc) (bs : List Byte) (w : WriteSeal) (s : State), s.stackOn a.tile = true → a.tile < numTiles →
    a.layer < numLayers → a.block < runtimeEnd a.layer → s.reaches a → accVerified a = true → (s.inRepose && isHost a.req) = false → s.stackPermits a = true →
    s.bankRun (bankKey a.tile a.layer (bankOf a.block)) = none → a.kind = .write bs w → bs.length = blockBytes →
    (s.castPhase ≠ 3 ∨ (s.tile a.tile).core.castStop = false ∨ a.external = false) →
    ∃ t, exec (.stackAccess a) s = .next t ∧ OnlyChanges [.stack, .status] s t ∧ t.status = stOK ∧
      t.stackBytes a.tile a.layer a.block = bs ∧ t.isDirty a.tile a.layer a.block = true ∧
      t.stackSeal a.tile a.layer a.block = (match w with
        | .copied _ w => w
        | .stored f g => sealWord s.time.time (a.reader.getD a.tile) g 1 true (blockResidue f.toNat (unpackBlock f.toNat bs))) ∧
      (∀ x, x < stackBlock a.tile a.layer a.block * blockBytes ∨ (stackBlock a.tile a.layer a.block + 1) * blockBytes ≤ x →
        Memory.read t.stack.mem x = Memory.read s.stack.mem x) ∧ t.stack.sram = s.stack.sram ∧ t.stack.saveSram = s.stack.saveSram) ∧
  (∀ (a : StackAcc) (s : State), s.stackOn a.tile = true → a.tile < numTiles → a.layer < numLayers → a.block < layerBlocks a.layer →
    accVerified a = true → s.reachable a = true →
    (ownAccess a = false → (s.tile a.tile).core.router = true →
      ∃ t, exec (.stackAccess a) s = .next t ∧ OnlyChanges [.regs, .status] s t ∧ t.status = stFENCED ∧ OnlyRegs [Reg.mapAbsorbed] s t ∧
        (t.reg Reg.mapAbsorbed).toNat = min ((s.reg Reg.mapAbsorbed).toNat + 1) (regMask Reg.mapAbsorbed)) ∧
    ((ownAccess a = true ∨ (s.tile a.tile).core.router = false) → s.sliceHeld a = true →
      ∃ t, exec (.stackAccess a) s = .next t ∧ OnlyChanges [.stack, .dbg, .free, .time] s t ∧ t.time.time = s.time.time ∧
        t.stack = { s.stack with holdWaits := s.stack.holdWaits ++ [{ acc := a, job := .access }] }) ∧
    (s.reaches a → (s.inRepose && isHost a.req) = true →
      ∃ t, exec (.stackAccess a) s = .next t ∧ OnlyChanges [.regs, .status] s t ∧ t.status = stUR) ∧
    (s.reaches a → (s.inRepose && isHost a.req) = false → s.stackPermits a = false →
      ∃ t, exec (.stackAccess a) s = .next t ∧ OnlyChanges [.regs, .ev, .status] s t ∧ t.status = stDENIED) ∧
    (s.reaches a → (s.inRepose && isHost a.req) = false → s.stackPermits a = true → runtimeEnd a.layer ≤ a.block →
      exec (.stackAccess a) s = .next { s with status := stRESERVED }) ∧
    (s.reaches a → (s.inRepose && isHost a.req) = false → s.stackPermits a = true → a.block < runtimeEnd a.layer → s.castPhase = 3 →
      (s.tile a.tile).core.castStop = true → a.external = true → accWrites a = true →
      ∃ t, exec (.stackAccess a) s = .next t ∧ OnlyChanges [.regs, .stack, .status] s t ∧ t.status = stOK ∧
        t.stack.heldWrites = s.stack.heldWrites ++ [a] ∧ t.stack.mem = s.stack.mem ∧ t.stack.seals = s.stack.seals) ∧
    (s.reaches a → (s.inRepose && isHost a.req) = false → s.stackPermits a = true → a.block < runtimeEnd a.layer → s.castPhase ≠ 3 →
      s.bankRun (bankKey a.tile a.layer (bankOf a.block)) ≠ none →
      ∃ t, exec (.stackAccess a) s = .next t ∧ OnlyChanges [.regs, .stack, .dbg, .free, .time] s t ∧ OnlyRegs [layerReg a.layer 0x140] s t ∧
        t.stack.mem = s.stack.mem ∧ t.stack.seals = s.stack.seals ∧ t.bankWaits (bankKey a.tile a.layer (bankOf a.block)) =
          s.bankWaits (bankKey a.tile a.layer (bankOf a.block)) ++ [(s.time.time.toNat, { acc := a, job := .access })])) ∧
  (∀ (a : StackAcc) (s : State), s.stackLive = true → s.stackStopped a.tile = true → a.tile < numTiles → a.layer < numLayers →
    a.block < layerBlocks a.layer → accVerified a = true → s.reaches a →
    ∃ t, exec (.stackAccess a) s = .next t ∧ OnlyChanges [.stack, .dbg, .free, .time] s t ∧ t.time.time = s.time.time ∧
      t.stack = { s.stack with stopWaits := s.stack.stopWaits ++ [{ acc := a, job := .access }] })

/-- Near-bank commands, refreshes, re-encoding and the patrol scrub. A near-bank command that Table 9.3 refuses is
not performed: it halts with that status. One that may start occupies its bank; while the bank is busy, an
access waits or too many refreshes are postponed it stays in the stream. When it completes, 1.28 plinth cycles
after its start for each cycle it ran, its destination holds the computed bytes with the NEARBANK seal of R292
and no other block changes. One that hangs is stopped: the seal is the same, NB_HUNG is raised and the command
halts. A refresh in a busy bank, or in a slice whose controller SLICE_S scans, is postponed. A re-encode step
moves the slice's pointer past one block or ends the conversion; it changes no data and no seal word. A refresh
is the boundary from which a band governs. A patrol visit, which a block gets once in a pass, changes none
either, counts toward the pass and reports what it finds in a protected block. It says of each of these
commands, under conditions on the state and the operands alone, that it completes: REENCODE_STEP,
NEARBANK_COMMAND, NEARBANK_COMPLETE, NB_HUNG, REFRESH_DUE, PATROL_VISIT. (spec/09_memory_boundary.md R292;
spec/09_memory_boundary.md R293; spec/09_memory_boundary.md R294; spec/09_memory_boundary.md R295;
spec/09_memory_boundary.md R296; spec/09_memory_boundary.md R301; spec/09_memory_boundary.md R302) -/
def Obligations.NearBankAndScrub : Prop :=
  (∀ (u st why b : Nat) (n : NearBank) (s : State), s.stackOn u = true → n.layer < numLayers → s.mayRun u = true →
    (∀ x ∈ nbBlocks n, x < layerBlocks n.layer) → s.nbRefusal u n = some (st, why, b) →
    (s.tile u).core.cur.isSome = true → (s.tile u).core.halted = false →
    ∃ t, exec (.nearbankCommand u n) s = .next t ∧ OnlyTiles [u] s t ∧ t.status = st ∧ (t.tile u).core.halted = true ∧
      t.stack.nb = s.stack.nb ∧ (bit (s.inForce Reg.traceTraceCtl) 1 = false → t.stack = s.stack)) ∧
  (∀ (u : Nat) (n : NearBank) (s : State), s.stackOn u = true → n.layer < numLayers → s.mayRun u = true →
    (∀ x ∈ nbBlocks n, x < layerBlocks n.layer) → s.nbRefusal u n = none →
    (s.bankRun (bankKey u n.layer (bankOf n.dst)) = none → s.bankWaits (bankKey u n.layer (bankOf n.dst)) = [] →
      s.postponed (bankKey u n.layer (bankOf n.dst)) < s.refreshAllowance u n.layer →
      ∃ t, exec (.nearbankCommand u n) s = .next t ∧ OnlyChanges [.regs, .stack, .status, .dbg, .free, .time] s t ∧ t.status = stOK ∧
        t.time.time = s.time.time ∧ OnlyRegs [layerReg n.layer 0x130] s t ∧ t.stack.mem = s.stack.mem ∧ t.stack.seals = s.stack.seals ∧
        t.bankRun (bankKey u n.layer (bankOf n.dst)) = some { tile := u, cmd := n, start := s.time.time }) ∧
    (s.bankRun (bankKey u n.layer (bankOf n.dst)) ≠ none ∨ s.bankWaits (bankKey u n.layer (bankOf n.dst)) ≠ [] ∨
      s.refreshAllowance u n.layer ≤ s.postponed (bankKey u n.layer (bankOf n.dst)) →
      exec (.nearbankCommand u n) s = .next s)) ∧
  (∀ (u l bank cycles : Nat) (r : NbRun) (s : State), s.stackOn u = true → s.bankRun (bankKey u l bank) = some r → cycles ≤ 896 →
    s.bankWaits (bankKey u l bank) = [] → s.nbDue r cycles = true →
    ∃ t, exec (.nearbankComplete u l bank cycles) s = .next t ∧ OnlyChanges [.stack, .time, .arm, .dbg, .free] s t ∧
      t.time.time = (s.nbTime r cycles).time.time ∧ t.bankRun (bankKey u l bank) = none ∧
      t.postponed (bankKey u l bank) = 0 ∧ t.stackBytes r.tile r.cmd.layer r.cmd.dst = s.nbBytes r ∧
      t.stackSeal r.tile r.cmd.layer r.cmd.dst = sealWord t.time.time r.tile r.cmd.gen 4 false 0 ∧
      t.isDirty r.tile r.cmd.layer r.cmd.dst = true ∧
      (∀ x, x < stackBlock r.tile r.cmd.layer r.cmd.dst * blockBytes ∨ (stackBlock r.tile r.cmd.layer r.cmd.dst + 1) * blockBytes ≤ x →
        Memory.read t.stack.mem x = Memory.read s.stack.mem x) ∧ t.stack.sram = s.stack.sram ∧
      ∀ k, k ≠ stackBlock r.tile r.cmd.layer r.cmd.dst → tget emptySeal t.stack.seals k = tget emptySeal s.stack.seals k) ∧
  (∀ (u l bank : Nat) (r : NbRun) (s : State), s.stackOn u = true → s.bankRun (bankKey u l bank) = some r →
    s.bankWaits (bankKey u l bank) = [] → s.nbDue r 960 = true → (s.tile u).core.cur.isSome = true → bit (s.inForce Reg.traceTraceCtl) 1 = false →
    ∃ t, exec (.nbHung u l bank) s = .next t ∧ OnlyTiles [u] s t ∧ t.bankRun (bankKey u l bank) = none ∧ t.status = stNB_ABORTED ∧
      t.stackSeal r.tile r.cmd.layer r.cmd.dst = sealWord t.time.time r.tile r.cmd.gen 4 false 0 ∧
      (t.tile u).core.halted = true ∧ (∃ e ∈ t.ev.flight, e.1 = u ∧ e.2.code = 0x82) ∧
      (∀ x, x < stackBlock r.tile r.cmd.layer r.cmd.dst * blockBytes ∨ (stackBlock r.tile r.cmd.layer r.cmd.dst + 1) * blockBytes ≤ x →
        Memory.read t.stack.mem x = Memory.read s.stack.mem x)) ∧
  (∀ (u l bank : Nat) (s : State), s.stackOn u = true →
    ((s.bankRun (bankKey u l bank) ≠ none ∨ s.scanning u = true) →
      ∃ t, exec (.refreshDue u l bank) s = .next t ∧ OnlyChanges [.stack, .heat] s t ∧ t.stack.mem = s.stack.mem ∧
        t.stack.seals = s.stack.seals ∧ tget 0 (t.region (regionOf u)).refBand l = tget 0 (s.region (regionOf u)).bands l ∧ t.postponed (bankKey u l bank) = s.postponed (bankKey u l bank) + 1) ∧
    (s.bankRun (bankKey u l bank) = none → s.scanning u = false → exec (.refreshDue u l bank) s = .next (s.refreshBoundary (regionOf u) l))) ∧
  (∀ (u l b : Nat) (c : Convert) (s : State), s.stackOn u = true → u < numTiles → s.inRepose = false →
    tget none s.stack.convert l = some c → s.nextConvert u l = some b →
    (s.bankRun (bankKey u l (bankOf b)) = none →
      ∃ t, exec (.reencodeStep u l) s = .next t ∧ t.stack.mem = s.stack.mem ∧ t.stack.seals = s.stack.seals ∧ t.tiles = s.tiles ∧
        (t.reencodePtr u l = b + 1 ∨ (tget none t.stack.convert l = none ∧ ∃ r ∈ t.ev.queue, r.code = 0x83))) ∧
    (s.bankRun (bankKey u l (bankOf b)) ≠ none → exec (.reencodeStep u l) s = .next s)) ∧
  (∀ (u l b : Nat) (s : State), s.stackOn u = true → s.inRepose = false → u < numTiles → l < numLayers → b < layerBlocks l →
    bit (s.reg (layerReg l 0x110)) 32 = true → s.patrolDue u l b = true →
    (tget none s.stack.bad (stackBlock u l b) = none → tget 0 s.stack.patrol l + 1 ≠ numTiles * layerBlocks l →
      ∃ t, exec (.patrolVisit u l b .clean) s = .next t ∧ OnlyChanges [.stack] s t ∧ t.stack.mem = s.stack.mem ∧
        t.stack.seals = s.stack.seals ∧ tget 0 t.stack.patrol l = tget 0 s.stack.patrol l + 1 ∧ t.patrolDue u l b = false) ∧
    (tget none s.stack.bad (stackBlock u l b) = none → tget 0 s.stack.patrol l + 1 = numTiles * layerBlocks l →
      ∃ t, exec (.patrolVisit u l b .clean) s = .next t ∧ OnlyChanges [.stack, .regs] s t ∧ tget 0 t.stack.patrol l = 0 ∧
        t.reg (layerReg l 0x158) = word (min ((s.reg (layerReg l 0x158)).toNat + 1) (regMask (layerReg l 0x158)))) ∧
    (∀ cw, s.readsRaw u l b = false →
      ∃ t, exec (.patrolVisit u l b (.uncorrectable cw)) s = .next t ∧ t.stack.mem = s.stack.mem ∧ t.stack.seals = s.stack.seals ∧
        (∃ e ∈ t.ev.flight, e.1 = u ∧ e.2.code = 0x80 ∧ e.2.detail = pack [(60, 4, l), (59, 1, 1), (32, 11, b), (0, 8, cw)])))

/-- SENSOR_SAMPLE and THERMAL_DECISIONS. A scheduled reading is taken in if it is in range and within 8 °C of the
last accepted one; the first implausible one is discarded and kept for comparison; a second one is accepted
within 1 °C of the discarded one, and makes the sensor BAD otherwise. A reading out of range makes it BAD at
once, no reading at the second scheduled sample. The twelfth counted reading of a BAD sensor makes it valid. No
other sensor changes. A DRAM sensor whose stack interface domain is stopped gives no reading. The decisions take
in the fresh readings, raise the step of a region with a reading at or above its limit, lower it by one when the
region is clear and has held its step, never leave it below the floor, keep every band at least that of the
hottest reading of its group, let no refresh follow a band below the one in force, and stop every region clock
when a sensor calls for a shutdown. A frozen chip and one in Repose keep their steps. No sample is taken after
the decisions of its beat. It says of each of these commands, under conditions on the state and the operands
alone, that it completes: THERMAL_DECISIONS, SENSOR_SAMPLE. (spec/10_thermal.md R309; spec/10_thermal.md R310;
spec/10_thermal.md R312; spec/10_thermal.md R314; spec/10_thermal.md R317; spec/10_thermal.md R318;
spec/10_thermal.md R319; spec/10_thermal.md R320) -/
def Obligations.ThermalSamplesAndDecisions : Prop :=
  (∀ (n : Nat) (v : BitVec 16) (s : State), s.life.powered = true → s.time.phase < 5 → s.sampleDue n = true →
    s.sensorReads n = true →
    ((s.sensor n).bad = false → readingOk v = true →
      (((s.sensor n).reading = 0x8000 ∨ near 128 (s.sensor n).reading v = true ∨ ∃ d, (s.sensor n).doubt = some d ∧ near 16 d v = true) →
        ∃ t, exec (.sensorSample n (some v)) s = .next t ∧ OnlyChanges [.heat] s t ∧ (∀ m, m ≠ n → t.sensor m = s.sensor m) ∧
          t.sensor n = { s.sensor n with sampled := some s.life.allBeats, fresh := some v, doubt := none, missed := 0 }) ∧
      ((s.sensor n).reading ≠ 0x8000 → near 128 (s.sensor n).reading v = false → (s.sensor n).doubt = none →
        ∃ t, exec (.sensorSample n (some v)) s = .next t ∧ OnlyChanges [.heat] s t ∧ (∀ m, m ≠ n → t.sensor m = s.sensor m) ∧
          t.sensor n = { s.sensor n with sampled := some s.life.allBeats, doubt := some v, missed := 0 }) ∧
      (∀ d, (s.sensor n).reading ≠ 0x8000 → near 128 (s.sensor n).reading v = false → (s.sensor n).doubt = some d → near 16 d v = false →
        ∃ t, exec (.sensorSample n (some v)) s = .next t ∧ OnlyChanges [.heat, .regs, .ev, .dbg, .free] s t ∧
          (∀ m, m ≠ n → t.sensor m = s.sensor m) ∧ (t.sensor n).bad = true ∧ (t.sensor n).fast = true ∧ (t.sensor n).value = none)) ∧
    ((s.sensor n).bad = false → readingOk v = false →
      ∃ t, exec (.sensorSample n (some v)) s = .next t ∧ (∀ m, m ≠ n → t.sensor m = s.sensor m) ∧ (t.sensor n).bad = true ∧
        (s.life.frozen = false → ∃ r ∈ t.ev.queue, r.code = 0x94 ∧ r.sev = .fault)) ∧
    ((s.sensor n).bad = false → (s.sensor n).missed = 0 →
      ∃ t, exec (.sensorSample n none) s = .next t ∧ OnlyChanges [.heat] s t ∧
        t.sensor n = { s.sensor n with sampled := some s.life.allBeats, missed := 1 }) ∧
    ((s.sensor n).bad = false → 1 ≤ (s.sensor n).missed →
      ∃ t, exec (.sensorSample n none) s = .next t ∧ (t.sensor n).bad = true ∧ (∀ m, m ≠ n → t.sensor m = s.sensor m)) ∧
    (∀ w b, (s.sensor n).bad = true → readingOk v = true → (s.sensor n).recover = 11 → (s.sensor n).recLast = some w → near 128 w v = true →
      (s.sensor n).sampled = some b → b + 1 = s.life.allBeats →
      ∃ t, exec (.sensorSample n (some v)) s = .next t ∧ (t.sensor n).bad = false ∧ (t.sensor n).fresh = some v ∧
        (t.sensor n).history = [] ∧ (∀ m, m ≠ n → t.sensor m = s.sensor m))) ∧
  (∀ (n : Nat) (r : Option (BitVec 16)) (s : State), s.sensorReads n = false →
    ∃ t, exec (.sensorSample n r) s = .next t ∧ exec (.sensorSample n none) s = .next t) ∧
  (∀ (n : Nat) (r : Option (BitVec 16)) (s : State), (5 ≤ s.time.phase ∨ s.sampleDue n = false) → exec (.sensorSample n r) s = .next s) ∧
  (∀ s : State, s.mayPhase 5 5631 = true →
    let u := (s.atPhase 5 5120).peakTemps.thermReadings
    ∃ t, exec .thermalDecisions s = .next t ∧
      (∀ n v, (s.sensor n).fresh = some v → (t.sensor n).reading = v ∧ (t.sensor n).fresh = none) ∧
      (∀ g, g < numRegions →
        (s.life.frozen = true ∨ s.inRepose = true → (t.region g).step = (s.region g).step ∧ (t.region g).held = (s.region g).held) ∧
        (s.life.frozen = false → s.inRepose = false →
          u.floorOf g ≤ (t.region g).step ∧ (t.region g).step ≤ max (u.floorOf g) (max (s.region g).step (min ((s.region g).step + 1) 5)) ∧
          (∀ n v, u.regionWorst g = some (n, v) → u.limitOf n ≤ v →
            (t.region g).step = max (min ((s.region g).step + 1) 5) (u.floorOf g)) ∧
          ((∀ n v, u.regionWorst g = some (n, v) → v < u.limitOf n) → (∀ n v, u.regionRate g sensorKinds = some (n, v) → v < u.actRate) →
            ¬ (u.actRate ≤ 0) →
            ((s.region g).step ≤ u.floorOf g ∨ (s.region g).held < fld (u.inTherm Reg.thermThermCtl) 47 40) →
            (t.region g).step = max (s.region g).step (u.floorOf g) ∧
            (u.floorOf g ≤ (s.region g).step → (t.region g).held = satAdd 16 (s.region g).held 1)) ∧
          ((∀ k ∈ sensorKinds, ∀ e, groupHot (u.groupOf g k) = some e → e.2 ≤ u.limitOf e.1 - 16 * (fld u.limits 23 16 : Nat)) →
            (∀ n v, u.regionWorst g = some (n, v) → v < u.limitOf n) → (∀ n v, u.regionRate g sensorKinds = some (n, v) → v < u.actRate ∧ v < u.warnRate) →
            0 < u.actRate → 0 < u.warnRate → fld (u.inTherm Reg.thermThermCtl) 47 40 ≤ (s.region g).held → u.floorOf g < (s.region g).step →
            (t.region g).step = (s.region g).step - 1 ∧ (t.region g).held = 0)) ∧
        (∀ l e, l < numLayers → groupHot (u.groupOf g (some l)) = some e → bandOf e.2 ≤ tget 0 (t.region g).bands l) ∧
        (∀ l, l < numLayers → tget 0 (t.region g).bands l ≤ tget 0 (t.region g).refBand l)) ∧
      (∀ e, u.tripping = some e → s.life.shutdown = false → s.life.shutdownEvent = none →
        t.life.shutdownEvent ≠ none ∧ ∀ g, g < numRegions → t.regionStopped g = true))

/-- PATINA_UPDATE, COUNTER_SAMPLING, VOLTAGE_DROOP and REGION_VOLTAGE_SAMPLE. PATINA_UPDATE gives every tile the
accumulator of R249 from its inputs of the beat, judges its level by R252, empties the inputs and leaves the
tile's stream alone; with ENABLE a rise is kept as an action for the dispatch phase. On a sampling beat
COUNTER_SAMPLING captures the counters of every tile that no reset awaits and fixes the next sampling beat; on
another beat nothing is captured. A droop counts in its region, voids the segments that run there and counts for
each of its tiles whose clock ran. A voltage sample is the region's voltage, and voids nothing while the region
stays as far inside the window as it was. It says of each of these commands, under conditions on the state and
the operands alone, that it completes: PATINA_UPDATE, COUNTER_SAMPLING, VOLTAGE_DROOP, REGION_VOLTAGE_SAMPLE.
(spec/08_patina_quarantine_repair.md R249; spec/08_patina_quarantine_repair.md R252;
spec/08_patina_quarantine_repair.md R253; spec/13_counters_trace_debug.md R395; spec/07_chisel_in_field_tests.md
R235; spec/07_chisel_in_field_tests.md R233) -/
def Obligations.PatinaAndVoltage : Prop :=
  (∀ (u : Nat) (s : State), s.ready = true → s.mayPhase 4 5119 = true → u < numTiles →
    let ctl := s.inForce Reg.patinaPatinaCtl
    let p := { (s.tile u).pat with
      hot := match (s.sensor u).value with
        | some v => decide ((16 * (fld (s.inForce Reg.patinaHot) 7 0 : Nat) : Int) ≤ v)
        | none => false }
    let acc := accAfter p.acc.toNat (patinaInputs p (s.inForce Reg.patinaWeightA) (s.inForce Reg.patinaWeightB)) (p.chPass && bit ctl 2)
      ((s.beat - s.life.readyBeat) % fld ctl 31 8 == 0 && s.beat != s.life.readyBeat) (fld ctl 39 32)
    let new := levelAfter (s.inForce Reg.patinaThresh) p.level (acc / 2 ^ 16)
    ∃ t, exec .patinaUpdate s = .next t ∧ OnlyChanges [.time, .arm, .tiles, .regs, .ev, .map, .maq] s t ∧
      (t.tile u).pat.acc = BitVec.ofNat 32 acc ∧ (t.tile u).pat.level = new ∧ (t.tile u).pat.maqCharge = 0 ∧
      (t.tile u).pat.chFail = 0 ∧ (t.tile u).pat.chIncl = 0 ∧ (t.tile u).pat.chPass = false ∧ (t.tile u).pat.sums = {} ∧
      (t.tile u).core = (s.tile u).core ∧ (t.tile u).chisel = (s.tile u).chisel ∧
      (p.level < new → bit ctl 0 = true → (u, p.level, new) ∈ t.map.actions) ∧
      (p.level ≠ new → ∃ r ∈ t.ev.queue, r.code = 0x70 ∧ r.source = BitVec.ofNat 11 u)) ∧
  (∀ s : State, s.up = true → s.mayPhase 6 5632 = true →
    (s.dbg.nextSample = some s.beat →
      ∃ t, exec .counterSampling s = .next t ∧ t.dbg.sampled = true ∧ t.dbg.sampleBeat = s.beat ∧
        t.dbg.nextSample = some (s.beat + fld (s.inForce Reg.countCountCtl) 47 32) ∧
        ∀ u, u < numTiles → (s.tile u).core.resetAt = none → (t.tile u).core.capture = (s.tile u).core.counters) ∧
    (s.dbg.nextSample ≠ some s.beat → exec .counterSampling s = .next (s.atPhase 6 5632))) ∧
  (∀ (g : Nat) (s : State), s.live = true → g < numRegions →
    ∃ t, exec (.voltageDroop g) s = .next t ∧ OnlyChanges [.regs, .tiles] s t ∧
      (s.powerRegsOn = true →
        t.reg (regionReg g 0x188) = word (min ((s.reg (regionReg g 0x188)).toNat + 1) (regMask (regionReg g 0x188)))) ∧
      (s.powerRegsOn = false → t.reg (regionReg g 0x188) = s.reg (regionReg g 0x188)) ∧
      (∀ u k x, s.slotOf u = some (k, x) → regionOf u = g → (s.tile u).chisel.runs = true → (t.tile u).chisel.voidNow = true) ∧
      (∀ u, u < numTiles → regionOf u = g → s.regionStopped g = false →
        (t.tile u).core.sum.droop = (s.tile u).core.sum.droop + 1) ∧
      (∀ u, u < numTiles → regionOf u = g → s.regionStopped g = true → (t.tile u).core = (s.tile u).core) ∧
      (∀ u, regionOf u ≠ g → t.tile u = s.tile u)) ∧
  (∀ (g : Nat) (mv : BitVec 16) (s : State), s.life.powered = true → g < numRegions → s.powerRegsOn = true →
    ∃ t, exec (.regionVoltageSample g mv) s = .next t ∧ OnlyChanges [.heat, .regs, .tiles] s t ∧ t.region g = { s.region g with volt := mv } ∧
      (∀ h, h ≠ g → t.region h = s.region h) ∧ (s.windowOk g = false → OnlyChanges [.heat] s t) ∧
      (t.windowOk g = true → OnlyChanges [.heat] s t) ∧
      (∀ u k x, s.life.frozen = false → s.windowOk g = true → t.windowOk g = false → s.windowMode ≠ 1 → s.slotOf u = some (k, x) →
        regionOf u = g → (s.tile u).chisel.runs = true → (t.tile u).chisel.voidNow = true))

/-- The steps of a cast. With its window open a pause begins: PAUSE goes to every node; with it closed the pause is
deferred from this beat on, and WINDOW_WAIT beats later the cast fails OUT_OF_WINDOW. When every stream stands
ready the cut is made and the copies are ordered; when every copy is made, RESUME goes out. A drained mould is
counted; a log without room or a store error fails the cast, and then every dirty bit that its copies had
cleared is set again. A mould that the partner has not acknowledged waits. A cast whose final pause is drained
becomes durable: it joins the chain of the store, or starts it when full, and its order completes OK. A mirror
that fails is dropped from the cast. A segment of another chip is kept, and acknowledged once flushed. It says
of each of these commands, under conditions on the state and the operands alone, that it completes:
CAST_WINDOW_CHECK, CAST_WINDOW_TIMEOUT, CAST_QUIESCE, CAST_COPY_DONE, MOULD_DRAINED, CAST_DURABLE,
CAST_STORE_ERROR, MIRROR_STATE, MIRROR_SEGMENT_RECEIVE. (spec/10_thermal.md R324; spec/11_cast_snapshots.md
R333; spec/11_cast_snapshots.md R336; spec/11_cast_snapshots.md R340; spec/11_cast_snapshots.md R341;
spec/11_cast_snapshots.md R343; spec/11_cast_snapshots.md R346; spec/11_cast_snapshots.md R347;
spec/11_cast_snapshots.md R355; spec/11_cast_snapshots.md R356) -/
def Obligations.CastsFromWindowToDurable : Prop :=
  (∀ (r : CastRun) (s : State), s.ready = true → s.time.phase = 7 → s.cast.run = some r → r.phase = 1 →
    (s.mouldWindow = true →
      ∃ t p q, exec .castWindowCheck s = .next t ∧ t.cast.run = some q ∧ q.phase = 2 ∧ q.since = s.beat ∧ q.gatherAt = s.time.time ∧
        q.deferSince = none ∧ t.has p ∧ p.op = 0x04 ∧ p.operand = 0 ∧ p.dests = allNodes ∧ t.stack = s.stack ∧ t.tiles = s.tiles) ∧
    (s.mouldWindow = false → r.deferSince = none →
      ∃ t, exec .castWindowCheck s = .next t ∧ OnlyChanges [.cast, .ev, .regs, .dbg] s t ∧
        t.cast.run = some { r with deferSince := some s.beat }) ∧
    (s.mouldWindow = false → r.deferSince ≠ none → exec .castWindowCheck s = .next s) ∧
    (∀ b id, r.deferSince = some b → r.order = some id → s.order id ≠ none → b + s.windowWait ≤ s.beat → s.mouldWindow = false →
      ∃ t, exec .castWindowTimeout s = .next t ∧ t.cast.run = none ∧ t.doneAs id .outOfWindow ∧
        (∃ x ∈ t.ev.queue, x.code = 0xA2 ∧ x.sev = .fault)) ∧
    (∀ b, r.deferSince = some b → (s.beat < b + s.windowWait ∨ s.mouldWindow = true) → exec .castWindowTimeout s = .next s)) ∧
  (∀ (r : CastRun) (cyc : Nat) (s : State), s.ready = true → s.cast.run = some r → r.phase = 2 →
    ((∀ l, l < numLogical → s.pauseReady (s.phys l) = true) → s.cyc ≤ cyc → cyc < beatCycles →
      ∃ t p q, exec (.castQuiesce cyc) s = .next t ∧ OnlyChanges [.time, .cast, .arm] s t ∧ t.cast.run = some q ∧ q.phase = 3 ∧
        q.quiesce = t.time.time ∧ t.cyc = cyc ∧ q.lastQ = s.beat ∧ q.copied = [] ∧ q.resuming = false ∧
        (∀ l, l < numLogical → (l, (s.dirtySet r (s.phys l) l).length) ∈ q.ready) ∧
        t.has p ∧ p.op = 0x04 ∧ p.operand = BitVec.ofNat 96 (1 <<< 94) ∧ p.dests = allNodes) ∧
    (∀ l, l < numLogical → s.pauseReady (s.phys l) = false → exec (.castQuiesce cyc) s = .next s)) ∧
  (∀ (r : CastRun) (cyc : Nat) (s : State), s.ready = true → s.cast.run = some r → r.phase = 3 → r.resuming = false →
    ((∀ l, l < numLogical → r.copied.contains l = true ∨ s.copyLate l = true) →
      ∃ t p, exec (.castCopyDone cyc) s = .next t ∧ OnlyChanges [.time, .cast, .arm] s t ∧
        t.cast.run = some { r with resuming := true } ∧ t.has p ∧ p.op = 0x05 ∧ p.dests = allNodes) ∧
    (∀ l, l < numLogical → r.copied.contains l = false → s.copyLate l = false → exec (.castCopyDone cyc) s = .next s)) ∧
  (∀ (u : Nat) (m : Mould) (r : CastRun) (s : State), s.ready = true → s.cast.run = some r → r.phase = 4 →
    r.moulds.find? (fun e => e.1 == u && !e.2.drained) = some (u, m) →
    let acked := r.mirror = false ∨ ∀ x ∈ s.cast.mirrorOut, x.tile ≠ u
    (acked → r.size ≤ s.logFree → r.final = true →
      ∃ t, exec (.mouldDrained u) s = .next t ∧ (r.mirror = false → OnlyChanges [.cast, .regs] s t) ∧
        OnlyChanges [.cast, .regs, .arm, .links] s t ∧
        t.cast.run = some { r with moulds := r.moulds.map fun (e : Nat × Mould) => if e.1 == u then (e.1, { e.2 with drained := true }) else e }) ∧
    (r.mirror = true → (∃ x ∈ s.cast.mirrorOut, x.tile = u) → exec (.mouldDrained u) s = .next s) ∧
    (∀ id, acked → s.logFree < r.size → r.order = some id → s.order id ≠ none →
      ∃ t, exec (.mouldDrained u) s = .next t ∧ t.cast.run = none ∧ t.doneAs id .noSpace)) ∧
  (∀ (r : CastRun) (id : Nat) (s : State), s.ready = true → s.cast.run = some r → r.order = some id → s.order id ≠ none →
    (r.drained = true → r.final = true → (r.mirror = false ∨ ∀ x ∈ s.cast.mirrorOut, x.tile = mirrorReadBack) →
      ∃ t c, exec .castDurable s = .next t ∧ OnlyChanges [.cast, .nv, .regs, .ev, .ord] s t ∧ t.cast.run = none ∧ t.doneAs id .ok ∧
        t.nv.casts = (if r.full then [c] else c :: s.nv.casts) ∧ c.number = r.number ∧ c.full = r.full ∧ c.key = s.detKey ∧
        c.moulds = r.past ++ r.segMoulds ∧ t.cast.lastCut = r.lastQ ∧ t.cast.fullNext = false ∧
        (∃ x ∈ t.ev.queue, x.code = 0xA1)) ∧
    (r.drained = false ∨ r.final = false → exec .castDurable s = .next s) ∧
    (r.mirror = true → (∃ x ∈ s.cast.mirrorOut, x.tile ≠ mirrorReadBack) → exec .castDurable s = .next s) ∧
    (r.phase = 4 →
      ∃ t, exec .castStoreError s = .next t ∧ t.cast.run = none ∧ t.doneAs id .storeError ∧ t.nv = s.nv ∧
        (∃ x ∈ t.ev.queue, x.code = 0xA2) ∧
        (∀ b ∈ r.cleared, t.isDirty (s.phys b.1) b.2.1 b.2.2 = true) ∧
        ∀ u l b, s.isDirty u l b = true → t.isDirty u l b = true) ∧
    (r.phase ≠ 4 → exec .castStoreError s = .next s)) ∧
  (∀ (r : CastRun) (why : MirrorReason) (s : State), s.ready = true → s.cast.run = some r →
    (r.phase = 4 → r.mirror = true →
      ∃ t, exec (.mirrorState why) s = .next t ∧ OnlyChanges [.cast, .ev, .arm] s t ∧ t.cast.run = some { r with mirror := false } ∧
        t.cast.partner = 3 ∧ t.cast.mirrorChain = true ∧ (∃ x ∈ t.ev.queue, x.code = 0xA5)) ∧
    (r.phase ≠ 4 ∨ r.mirror = false → exec (.mirrorState why) s = .next s)) ∧
  (∀ (chip : BitVec 13) (xid : BitVec 16) (bs : List (List Byte)) (flushed : Bool) (s : State), s.ready = true →
    (s.cast.storeOk = true → s.inRepose = false → (s.cast.mirrorIn = none ∨ s.cast.mirrorIn = some chip) →
      segLbas s.nv.mirror + bs.length ≤ s.mirrorLbas - 2 →
      ∃ t, exec (.mirrorSegmentReceive chip xid bs flushed) s = .next t ∧ OnlyChanges [.cast, .nv, .arm, .links] s t ∧
        t.nv.mirror = s.nv.mirror ++ [(chip, bs)] ∧ t.cast.mirrorIn = some chip ∧
        (flushed = true → t.arm.lastAck = some (.sentinel chip false, xid, false)) ∧ (flushed = false → t.arm = s.arm ∧ t.links = s.links)) ∧
    (s.cast.storeOk = false ∨ s.inRepose = true → exec (.mirrorSegmentReceive chip xid bs flushed) s = .next s))

/-- The steps of a restore. A restore whose walk meets a damaged store fails STORE_CORRUPT, one with another
determinism key KEY_MISMATCH, one with generators that differ RESTORE_MISMATCH, and nothing is written. A sound
one holds every logical tile and stops every stream. A tile whose window is open is written: the blocks of the
cast with their seal words, its semaphores, no dirty bit, and its stream halted if the cast says so; with its
window closed the write waits from this beat on. When every tile is written the holds are lifted, the streams
may run and the order completes OK. A restore whose window stays closed for WINDOW_WAIT beats ends OUT_OF_WINDOW
with every stream halted and PARTIAL set. It says of each of these commands, under conditions on the state and
the operands alone, that it completes: CAST_WINDOW_TIMEOUT, RESTORE_VALIDATED, RESTORE_TILE_WRITE, RESTORE_DONE.
(spec/10_thermal.md R324; spec/11_cast_snapshots.md R349; spec/11_cast_snapshots.md R350;
spec/11_cast_snapshots.md R351; spec/11_cast_snapshots.md R358) -/
def Obligations.Restores : Prop :=
  (∀ (r : CastRun) (id : Nat) (w : RestoreWalk) (s : State), s.ready = true → s.cast.run = some r → r.phase = 5 → r.walked = false →
    r.peer = false → r.order = some id → s.order id ≠ none →
    (w.crcOk = false →
      ∃ t, exec (.restoreValidated w) s = .next t ∧ OnlyChanges [.cast, .ev, .ord] s t ∧ t.cast.run = none ∧ t.doneAs id .storeCorrupt) ∧
    (∀ chain c, w.crcOk = true → r.foreign = true → chainTo s.nv.casts r.number = some chain → chain.getLast? = some c →
      ((∃ x ∈ chain, x.key ≠ s.detKey) →
        ∃ t, exec (.restoreValidated w) s = .next t ∧ OnlyChanges [.cast, .ev, .ord] s t ∧ t.cast.run = none ∧ t.doneAs id .keyMismatch) ∧
      ((∀ x ∈ chain, x.key = s.detKey) → genMismatch c ≠ none →
        ∃ t, exec (.restoreValidated w) s = .next t ∧ OnlyChanges [.cast, .ev, .ord] s t ∧ t.cast.run = none ∧
          t.doneAs id .restoreMismatch) ∧
      ((∀ x ∈ chain, x.key = s.detKey) → genMismatch c = none →
        ∃ t q, exec (.restoreValidated w) s = .next t ∧ t.cast.run = some q ∧ q.walked = true ∧ q.chain = chain ∧ q.phase = 5 ∧
          ∀ l, l < numLogical → t.map.hub.held l = true ∧ (t.tile (t.phys l)).core.castStop = true))) ∧
  (∀ (r : CastRun) (l : Nat) (s : State), s.ready = true → l < numLogical → s.cast.run = some r → r.phase = 5 → r.walked = true →
    r.written.contains l = false → s.restoreReady = true →
    (s.restoreFails r l (s.phys l) = none → (r.waits.find? fun e => e.1 == l) = none →
      ∃ t q, exec (.restoreTileWrite l) s = .next t ∧ OnlyChanges [.stack, .tiles, .cast] s t ∧ OnlyTiles [s.phys l] s t ∧
        t.cast.run = some q ∧ q.written = l :: r.written ∧ (t.tile (s.phys l)).core.cur = none ∧
        (t.tile (s.phys l)).core.castStop = (s.tile (s.phys l)).core.castStop ∧
        (∀ y b, y < numLayers → b < layerBlocks y → t.isDirty (s.phys l) y b = false) ∧
        ∀ c m y b bytes v, r.chain = [c] → (c.moulds.filter fun m => m.logical == l) = [m] →
          (t.tile (s.phys l)).core.sems = m.sems ∧ (t.tile (s.phys l)).core.halted = (m.halted || m.interrupted) ∧
          (m.blocks = [(y, b, bytes, v)] → bytes.length = blockBytes →
            t.stackBytes (s.phys l) y b = bytes ∧ t.stackSeal (s.phys l) y b = v)) ∧
    (s.restoreFails r l (s.phys l) ≠ none → (r.waits.find? fun e => e.1 == l) = none →
      ∃ t q, exec (.restoreTileWrite l) s = .next t ∧ OnlyChanges [.cast, .ev, .regs, .dbg] s t ∧ t.cast.run = some q ∧
        q.waits = r.waits ++ [(l, s.beat)] ∧ q.written = r.written)) ∧
  (∀ (r : CastRun) (id : Nat) (s : State), s.ready = true → s.cast.run = some r → r.phase = 5 → r.order = some id → s.order id ≠ none →
    s.map.promotions = [] →
    (r.walked = true → (∀ l, l < numLogical → r.written.contains l = true) →
      ∃ t, exec .restoreDone s = .next t ∧ t.cast.run = none ∧ t.cast.partial_ = false ∧ t.cast.fullNext = true ∧ t.doneAs id .ok ∧
        (∃ x ∈ t.ev.queue, x.code = 0xA3) ∧
        ∀ l, l < numLogical → t.map.hub.held l = false ∧ (t.tile (t.phys l)).core.castStop = false) ∧
    (∀ l, l < numLogical → r.written.contains l = false → exec .restoreDone s = .next s) ∧
    ((∀ e ∈ r.waits, s.restoreFails r e.1 (s.phys e.1) = none ∨ s.beat < e.2 + s.windowWait) → exec .castWindowTimeout s = .next s) ∧
    (∀ e ∈ r.waits, e.2 + s.windowWait ≤ s.beat → s.restoreFails r e.1 (s.phys e.1) ≠ none →
      ∃ t, exec .castWindowTimeout s = .next t ∧ t.cast.run = none ∧ t.cast.partial_ = true ∧ t.cast.fullNext = true ∧ t.doneAs id .outOfWindow ∧
        ∀ l, l < numLogical → (t.tile (t.phys l)).core.halted = true ∧ t.map.hub.held l = false))

/-- The life of a digest slot, a weights set and a licence. A closing slot whose tiles have settled begins SETTLING
with its close time captured; after SETTLE beats its record is hashed and handed out for its signature. The
signature completes the record: the slot is READY, DIGEST_READY is raised and the close completes OK. Without a
signature in 12,500 beats the slot fails with reason 7 and the close completes DIGEST_FAILED. A set whose blocks
are all good is LOCKED with the root of its slices' roots; a bad block fails it with its tile and reason. An
accepted licence brings its features into force at the next tick, GRADE_125 only before S1 ends; a refused one
brings none. Each verdict raises its event. It says of each of these commands, under conditions on the state and
the operands alone, that it completes: LICENCE_VERDICT, WSET_HASH_DONE, DIGEST_SETTLING, DIGEST_SETTLE_EXPIRY,
DIGEST_READY, SIGN_TIMEOUT. (spec/12_determinism_digests_trust.md R371; spec/12_determinism_digests_trust.md
R374; spec/12_determinism_digests_trust.md R375; spec/12_determinism_digests_trust.md R377;
spec/12_determinism_digests_trust.md R381; spec/12_determinism_digests_trust.md R382;
spec/12_determinism_digests_trust.md Table 12.3) -/
def Obligations.DigestsWeightsAndLicences : Prop :=
  (∀ (k : Nat) (s : State), s.ready = true → k < 16 → (s.dslot k).state = 2 →
    (s.digestSettled k = true →
      ∃ t, exec (.digestSettling k) s = .next t ∧ OnlyChanges [.digest] s t ∧
        t.dslot k = { s.dslot k with state := 3, closed := s.time.time, since := s.beat } ∧ (∀ j, j ≠ k → t.dslot j = s.dslot j)) ∧
    (s.digestSettled k = false → exec (.digestSettling k) s = .next s)) ∧
  (∀ (k : Nat) (s : State), s.ready = true → k < 16 → (s.dslot k).state = 3 →
    ((s.dslot k).since + fld (s.inForce Reg.digestDigestCtl) 7 0 ≤ s.beat →
      ∃ t, exec (.digestSettleExpiry k) s = .next t ∧ OnlyChanges [.digest] s t ∧ (t.dslot k).state = 4 ∧
        (t.dslot k).record = s.recordBody k ++ sha384 (s.recordBody k) ∧ (∀ j, j ≠ k → t.dslot j = s.dslot j)) ∧
    (s.beat < (s.dslot k).since + fld (s.inForce Reg.digestDigestCtl) 7 0 → exec (.digestSettleExpiry k) s = .next s)) ∧
  (∀ (k id : Nat) (a b : BitVec 384) (s : State), s.ready = true → k < 16 → (s.dslot k).state = 4 → (s.dslot k).order = some id →
    s.order id ≠ none →
    (∃ t, exec (.digestReady k a b) s = .next t ∧ OnlyChanges [.digest, .ev, .regs, .ord] s t ∧ (t.dslot k).state = 5 ∧
      (t.dslot k).record = (s.dslot k).record ++ sigBytes a ++ sigBytes b ++ List.replicate 112 0 ∧ t.doneAs id .ok ∧
      (∃ x ∈ t.ev.queue, x.code = 0xB0 ∧ x.sev = .info) ∧
      (t.reg Reg.digestRecordsSigned).toNat = min ((s.reg Reg.digestRecordsSigned).toNat + 1) (regMask Reg.digestRecordsSigned)) ∧
    ((s.dslot k).since + 12500 ≤ s.beat →
      ∃ t, exec (.signTimeout k) s = .next t ∧ OnlyChanges [.digest, .ev, .regs, .ord] s t ∧ (t.dslot k).state = 6 ∧
        (t.dslot k).reason = 7 ∧ t.doneAs id .digestFailed ∧ (∃ x ∈ t.ev.queue, x.code = 0xB1 ∧ x.sev = .fault)) ∧
    (s.beat < (s.dslot k).since + 12500 → exec (.signTimeout k) s = .next s)) ∧
  (∀ (w : Nat) (fmt : BitVec 4) (ue : List (Nat × Nat)) (s : State), s.live = true → w < 8 → (s.wset w).state = 1 →
    (s.wsetFault w fmt.toNat ue = none →
      ∃ t, exec (.wsetHashDone w fmt ue) s = .next t ∧ OnlyChanges [.digest, .ev] s t ∧ (t.wset w).state = 2 ∧
        (t.wset w).root = treeRoot (s.wsetTiles w).length ((s.wsetTiles w).map fun e => s.sliceRoot e.2 (wsetRange (s.wset w).word))) ∧
    (∀ u why, s.wsetFault w fmt.toNat ue = some (u, why) →
      ∃ t, exec (.wsetHashDone w fmt ue) s = .next t ∧ OnlyChanges [.digest, .ev] s t ∧
        t.wset w = { s.wset w with state := 3, reason := why, tile := u } ∧ (∃ x ∈ t.ev.queue, x.code = 0xB2))) ∧
  (∀ (sigOk : Option Bool) (s : State), s.live = true → s.digest.licPending = true →
    (sigOk = none → s.digest.licBeat + 125 ≤ s.beat) →
    let blob := s.digest.licBlob
    let mask : BitVec 5 := BitVec.ofNat 5 (leNat ((blob.drop 16).take 4))
    ∃ t, exec (.licenceVerdict sigOk) s = .next t ∧ OnlyChanges [.digest, .life, .ev, .time, .free] s t ∧ t.time.time = s.time.time ∧ t.digest.licPending = false ∧
      t.digest.licReason = licReason blob sigOk ∧
      (∃ x ∈ t.ev.queue, x.code = 0xB3 ∧ fld x.detail 63 60 = licReason blob sigOk) ∧
      (licReason blob sigOk = 0 → s.life.stage ≤ 1 → t.life.featuresNext = s.life.featuresNext ||| mask ∧
        t.life.pendingReset = s.life.pendingReset) ∧
      (licReason blob sigOk = 0 → 1 < s.life.stage → t.life.featuresNext = s.life.featuresNext ||| setBit mask 4 false ∧
        (mask.getLsbD 4 = true → t.life.pendingReset.getLsbD 4 = true)) ∧
      (licReason blob sigOk ≠ 0 → t.life.featuresNext = s.life.featuresNext ∧ t.life.pendingReset = s.life.pendingReset) ∧
      t.life.features = s.life.features)

/-- SAMPLE_SET_BUILD, TRACE_DRAIN, DUMP_DONE, MGMT_TIMEOUT and MGMT_BACK. A sample set is built once, from the
oldest capture without one: the capture is used up, the set is counted, the chip sums are those of the nodes
that answered in time and the late ones are counted. The nodes' trace records move into the buffer, in the order
of the nodes, while it has room, and nothing drains with trace off or under SINK 1. A dump that fits is written
whole from DUMP_BASE; bytes of host memory outside it stay. One whose header does not fit writes nothing and
ends TRUNCATED. A Palalmux request that stays unanswered for 12,500 beats clears MGMT_OK, raises MGMT_LOST once
and ends a running commit; an answer sets MGMT_OK again and after a silence raises MGMT_BACK (which answer ends
which request: log entry 52). It says of each of these commands, under conditions on the state and the operands
alone, that it completes: DUMP_DONE, MGMT_TIMEOUT, MGMT_BACK, SAMPLE_SET_BUILD, TRACE_DRAIN.
(spec/13_counters_trace_debug.md R397; spec/13_counters_trace_debug.md R398; spec/13_counters_trace_debug.md
R405; spec/13_counters_trace_debug.md R418; spec/13_counters_trace_debug.md R419; spec/01_host_chip_boundary.md
R45; spec/08_patina_quarantine_repair.md R275) -/
def Obligations.SamplesTraceDumpsAndPalalmux : Prop :=
  (∀ (late : List Nat) (s : State), s.up = true → s.dbg.sampled = true →
    (late = [] ∨ (s.sampleNext.beat < s.beat ∧ s.time.phase = 8)) →
    let x := s.sampleNext
    let out := allTiles.filter fun u => late.contains u || !(s.tile u).core.standing
    ∃ t, exec (.sampleSetBuild late) s = .next t ∧ OnlyChanges [.dbg, .tiles, .stack, .hostMem, .regs, .ev] s t ∧
      t.dbg.sampled = x.old ∧ t.dbg.older = none ∧ (s.dbg.older = none → x.beat = s.dbg.sampleBeat ∧ x.old = false) ∧
      t.dbg.setsBuilt = s.dbg.setsBuilt + 1 ∧ t.dbg.setSeq = BitVec.ofNat 32 s.dbg.setsBuilt ∧ t.dbg.lateNodes = out ∧
      t.dbg.chipSum = s.chipSums x out ∧
      (t.reg Reg.countRecordsLate).toNat = min ((s.reg Reg.countRecordsLate).toNat + out.length) (regMask Reg.countRecordsLate) ∧
      (bit (s.inForce Reg.countCountCtl) 1 = false → t.hostMem = s.hostMem) ∧
      (bit (s.inForce Reg.countCountCtl) 2 = false → t.stack = s.stack) ∧
      ∀ u, u < numTiles → u ∉ out → (t.tile u).page.counters = ((s.tile u).core.capOf x.old).1) ∧
  (∀ s : State, s.live = true → (bit (s.inForce Reg.traceTraceCtl) 0 = false ∨ bit (s.inForce Reg.traceTraceCtl) 1 = true) →
    exec .traceDrain s = .next s) ∧
  (∀ s : State, s.live = true → bit (s.inForce Reg.traceTraceCtl) 0 = true → bit (s.inForce Reg.traceTraceCtl) 1 = false →
    (∀ u, u < numTiles → ∀ r ∈ (s.tile u).core.traceQ, r.length = 32) →
    s.dbg.trBuf.length + (allTiles.map fun u => 32 * (s.tile u).core.traceQ.length).sum < 0x10000 →
    ∃ t, exec .traceDrain s = .next t ∧ OnlyChanges [.tiles, .dbg, .regs, .ev] s t ∧
      t.dbg.trBuf = s.dbg.trBuf ++ (allTiles.flatMap fun u => (s.tile u).core.traceQ.flatten) ∧
      (∀ u, u < numTiles → t.tile u = { s.tile u with core.traceQ := [] }) ∧ t.dbg.trWr = s.dbg.trWr) ∧
  (∀ s : State, s.life.powered = true → s.life.frozen = true → s.dbg.dumpState = 1 →
    (s.dumpHeaderFits = true → s.dumpCut = none →
      ∃ t, exec (.dumpDone .done) s = .next t ∧ OnlyChanges [.dbg, .hostMem, .free] s t ∧ t.dbg.dumpState = 2 ∧
        t.hostMem.readBytes (s.reg Reg.dumpDumpBase).toNat 8 = leBytes 8 1 ∧
        t.dbg.dumpBytes ≤ (s.reg Reg.dumpDumpSize).toNat ∧
        ∀ a, (a < (s.reg Reg.dumpDumpBase).toNat ∨ (s.reg Reg.dumpDumpBase).toNat + (s.reg Reg.dumpDumpSize).toNat ≤ a) →
          t.hostMem.read a = s.hostMem.read a) ∧
    (s.dumpHeaderFits = false →
      exec (.dumpDone (.truncated 0)) s = .next { s with dbg.dumpState := 3, dbg.dumpBytes := 0 } ∧
      exec (.dumpDone .done) s = .next s) ∧
    (∃ t, exec (.dumpDone .error) s = .next t ∧ t.dbg.dumpState = 4 ∧ OnlyChanges [.dbg, .free] s t)) ∧
  (∀ (e : DumpEnd) (s : State), (s.life.frozen = false ∨ s.dbg.dumpState ≠ 1) → exec (.dumpDone e) s = .next s) ∧
  (∀ (kind : BitVec 8) (s : State), s.live = true → 2 ≤ s.life.stage →
    (∃ r ∈ s.life.mgmtReqs, r.kind = kind.toNat ∧ 12500 ≤ r.waited ∧ r.lost = false) →
    ∃ t, exec (.mgmtTimeout kind) s = .next t ∧ OnlyChanges [.life, .ev, .map, .nv, .ord, .regs, .time, .free] s t ∧ t.life.mgmtOk = false ∧
      t.life.mgmtLostBeat = s.beat ∧ t.map.commit = none ∧ t.mayLose kind = false ∧
      (∃ x ∈ t.ev.queue, x.code = 0x03 ∧ x.sev = .fault ∧ x.source = BitVec.ofNat 11 srcPalalmux) ∧
      (∀ id j n, s.map.commit = some (id, j, n) → s.order id ≠ none → t.doneAs id .stateIllegal)) ∧
  (∀ s : State, s.live = true →
    ∃ t, exec .mgmtBack s = .next t ∧ OnlyChanges [.life, .ev, .time, .free] s t ∧ t.life.mgmtOk = true ∧ t.life.mgmtLostBeat = 0 ∧
      t.life.mgmtReqs = (s.life.mgmtReqs.filter fun r => r.kind == 1) ∧ (s.life.mgmtLostBeat ≠ 0 → ∃ x ∈ t.ev.queue, x.code = 0x04 ∧ x.sev = .info) ∧ (s.life.mgmtLostBeat = 0 → t.ev = s.ev))

/-- Every command and every step keeps the memories canonical. In every state whose memories (host memory as Chimin
has written it, the stack, tile SRAM and its save areas) list their addresses strictly rising with no blank
byte, every command answers a next state in which they do so too, and so does every step. So equal memories are
equal data, whatever was written, cleared, moved between slices or restored in between (the form is the model's
own, assumption 9; the moves are those of R222, R224, R269, R279 and R350). (spec/07_chisel_in_field_tests.md
R222; spec/07_chisel_in_field_tests.md R224; spec/08_patina_quarantine_repair.md R269;
spec/08_patina_quarantine_repair.md R279; spec/11_cast_snapshots.md R350; assumption 9) -/
def Obligations.MemoriesStayCanonical : Prop :=
  (∀ (c : Instr) (s : State), s.MemWf → ∃ t, exec c s = .next t ∧ t.MemWf) ∧
  (∀ s : State, s.MemWf → ∃ t, step s = .next t ∧ t.MemWf)

/-- A page's lock stays until the EX4 is reset as a whole. In every state, every command but the three that begin
with fresh registers (power coming, power going, whole-chip reset) leaves each page's PAGE_LOCK set if it was
set, a frozen chip frozen, and each of the lines CHM_FATAL_N and THERM_TRIP_N low if it was low; so does a step
that idles. A write of 0 to PAGE_LOCK leaves the state as it is. (R18) -/
def Obligations.LocksStayUntilReset : Prop :=
  (∀ (c : Instr) (s : State), (∀ i, c ≠ .plinthPowerGood i) → (∀ i, c ≠ .wholeChipReset i) → c ≠ .powerRemoved →
    ∃ t, exec c s = .next t ∧ (∀ p, pageExists p = true → s.locked p → t.locked p) ∧
      (s.life.frozen = true → t.life.frozen = true) ∧ (s.fatalN = false → t.fatalN = false) ∧ (s.tripN = false → t.tripN = false)) ∧
  (∀ s : State, s.pending = [] →
    ∃ t, step s = .next t ∧ (∀ p, pageExists p = true → s.locked p → t.locked p) ∧
      (s.life.frozen = true → t.life.frozen = true) ∧ (s.fatalN = false → t.fatalN = false) ∧ (s.tripN = false → t.tripN = false)) ∧
  (∀ (m : Requester) (p size : Nat) (s : State), pageExists p = true → s.mayUse m p 0x028 → (size = 4 ∨ size = 8) →
    exec (.registerWrite m p 0x028 size 0) s = .next s)
end

