-- ==== Sys2Proof/Laws/Tbl.lean ====
section
/-! SUPPORT. What reading a table after a change of it gives, and that every change keeps the canonical form. -/

namespace Sys2Proof.Machine

variable {α : Type}

/-! ### Reading after writing -/

theorem tget_terase_self (d : α) (m : Tbl α) (k : Nat) : tget d (terase m k) k = d := by
  induction m with
  | nil => rfl
  | cons e m ih =>
    obtain ⟨a, v⟩ := e
    by_cases h : a = k <;> simp_all [terase, tget]

theorem tget_terase_ne (d : α) (m : Tbl α) {k k' : Nat} (h : k' ≠ k) : tget d (terase m k) k' = tget d m k' := by
  induction m with
  | nil => rfl
  | cons e m ih =>
    obtain ⟨a, v⟩ := e
    by_cases ha : a = k
    · subst ha; simp_all [terase, tget, Ne.symm h]
    · by_cases hb : a = k' <;> simp_all [terase, tget]

theorem tget_tins_ne (d v : α) (m : Tbl α) {k k' : Nat} (h : k' ≠ k) : tget d (tins k v m) k' = tget d m k' := by
  induction m with
  | nil => simp [tins, tget, Ne.symm h]
  | cons e m ih =>
    obtain ⟨a, w⟩ := e
    by_cases hk : k < a
    · simp [tins, tget, hk, Ne.symm h]
    · simp [tins, tget, hk, ih]

theorem tget_tins_self (d v : α) (m : Tbl α) (k : Nat) (h : ∀ e ∈ m, e.1 ≠ k) : tget d (tins k v m) k = v := by
  induction m with
  | nil => simp [tins, tget]
  | cons e m ih =>
    obtain ⟨a, w⟩ := e
    have ha : a ≠ k := h (a, w) (by simp)
    have hm : ∀ e ∈ m, e.1 ≠ k := fun e he => h e (by simp [he])
    by_cases hk : k < a
    · simp [tins, tget, hk]
    · simp [tins, tget, hk, ha, ih hm]

theorem mem_terase_ne {m : Tbl α} {k : Nat} {e : Nat × α} (h : e ∈ terase m k) : e.1 ≠ k := by
  simp [terase] at h; exact h.2

/-- Reading the key just written gives what was written. -/
@[simp] theorem tget_tset_self [DecidableEq α] (d : α) (m : Tbl α) (k : Nat) (v : α) : tget d (tset d m k v) k = v := by
  unfold tset
  split
  · rename_i h; rw [h]; exact tget_terase_self d m k
  · exact tget_tins_self d v _ k fun e he => mem_terase_ne he

/-- Reading another key gives what it held; the default of the key written does not matter. -/
theorem tget_tset_ne [DecidableEq α] (d d' : α) (m : Tbl α) {k k' : Nat} (v : α) (h : k' ≠ k) :
    tget d (tset d' m k v) k' = tget d m k' := by
  unfold tset
  split
  · exact tget_terase_ne d m h
  · rw [tget_tins_ne d v _ h, tget_terase_ne d m h]

theorem tget_tset [DecidableEq α] (d : α) (m : Tbl α) (k k' : Nat) (v : α) :
    tget d (tset d m k v) k' = if k' = k then v else tget d m k' := by
  split
  · rename_i h; rw [h]; exact tget_tset_self d m k v
  · rename_i h; exact tget_tset_ne d d m v h

/-- A table that lists `f t` at every key `t` of a list reads as `f` there. -/
theorem tget_map (d : α) (f : Nat → α) (l : List Nat) {k : Nat} (h : k ∈ l) : tget d (l.map fun t => (t, f t)) k = f k := by
  induction l with
  | nil => cases h
  | cons a l ih =>
    by_cases ha : a = k
    · simp [tget, ha]
    · simp [tget, ha, ih (by simpa [Ne.symm ha] using h)]

/-! ### The canonical form -/

/-- The canonical form, said with the list's own predicates. -/
theorem Tbl.wf_iff [DecidableEq α] (d : α) (m : Tbl α) :
    Tbl.wf d m = true ↔ m.Pairwise (fun a b => a.1 < b.1) ∧ ∀ e ∈ m, e.2 ≠ d := by
  induction m with
  | nil => simp [Tbl.wf]
  | cons e m ih =>
    obtain ⟨a, v⟩ := e
    cases m with
    | nil => simp [Tbl.wf]
    | cons e' m =>
      obtain ⟨b, w⟩ := e'
      simp only [Tbl.wf, Bool.and_eq_true, bne_iff_ne, decide_eq_true_eq, ih, List.pairwise_cons, List.mem_cons,
        forall_eq_or_imp]
      constructor
      · rintro ⟨⟨h1, h2⟩, ⟨h3, h4⟩, h5, h6⟩
        exact ⟨⟨⟨h2, fun x hx => Nat.lt_trans h2 (h3 x hx)⟩, h3, h4⟩, h1, h5, h6⟩
      · rintro ⟨⟨⟨h1, h2⟩, h3, h4⟩, h5, h6, h7⟩
        exact ⟨⟨h5, h1⟩, ⟨h3, h4⟩, h6, h7⟩

theorem Tbl.wf_nil [DecidableEq α] (d : α) : Tbl.wf d ([] : Tbl α) = true := rfl

/-- Any selection of a canonical table's entries is canonical. -/
theorem Tbl.wf_filter [DecidableEq α] (d : α) (m : Tbl α) (p : Nat × α → Bool) (h : Tbl.wf d m = true) :
    Tbl.wf d (m.filter p) = true := by
  rw [Tbl.wf_iff] at h ⊢
  exact ⟨h.1.filter p, fun e he => h.2 e (List.mem_of_mem_filter he)⟩

theorem mem_tins {m : Tbl α} {k : Nat} {v : α} {e : Nat × α} : e ∈ tins k v m ↔ e = (k, v) ∨ e ∈ m := by
  induction m with
  | nil => simp [tins]
  | cons x m ih =>
    obtain ⟨a, w⟩ := x
    by_cases hk : k < a
    · simp [tins, hk]
    · simp only [tins, hk, if_false, List.mem_cons, ih]
      tauto

theorem pairwise_tins {m : Tbl α} {k : Nat} {v : α} (hm : m.Pairwise (fun a b => a.1 < b.1)) (hk : ∀ e ∈ m, e.1 ≠ k) :
    (tins k v m).Pairwise (fun a b => a.1 < b.1) := by
  induction m with
  | nil => simp [tins]
  | cons x m ih =>
    obtain ⟨a, w⟩ := x
    simp only [List.pairwise_cons] at hm
    have ha : a ≠ k := hk (a, w) (by simp)
    by_cases hlt : k < a
    · simp only [tins, hlt, if_true, List.pairwise_cons, List.mem_cons]
      refine ⟨?_, hm⟩
      rintro e (rfl | he)
      · exact hlt
      · exact Nat.lt_trans hlt (hm.1 e he)
    · simp only [tins, hlt, if_false, List.pairwise_cons]
      refine ⟨fun e he => ?_, ih hm.2 fun e he => hk e (by simp [he])⟩
      rcases mem_tins.1 he with rfl | he
      · simp only; omega
      · exact hm.1 e he

/-- Writing a key keeps the canonical form. -/
theorem Tbl.wf_tset [DecidableEq α] (d : α) (m : Tbl α) (k : Nat) (v : α) (h : Tbl.wf d m = true) :
    Tbl.wf d (tset d m k v) = true := by
  have he : Tbl.wf d (terase m k) = true := Tbl.wf_filter d m _ h
  unfold tset
  split
  · exact he
  · rename_i hv
    rw [Tbl.wf_iff] at he ⊢
    refine ⟨pairwise_tins he.1 fun e h => mem_terase_ne h, fun e h => ?_⟩
    rcases mem_tins.1 h with rfl | h
    · exact hv
    · exact he.2 e h

/-- Three tables one after another, each in its own range of keys. -/
theorem Tbl.wf_append3 [DecidableEq α] (d : α) (a b c : Tbl α) (x y : Nat) (ha : Tbl.wf d a = true)
    (hb : Tbl.wf d b = true) (hc : Tbl.wf d c = true) (h1 : ∀ e ∈ a, e.1 < x) (h2 : ∀ e ∈ b, x ≤ e.1 ∧ e.1 < y)
    (h3 : ∀ e ∈ c, y ≤ e.1) (hxy : x ≤ y) : Tbl.wf d (a ++ b ++ c) = true := by
  rw [Tbl.wf_iff] at *
  refine ⟨?_, ?_⟩
  · rw [List.pairwise_append, List.pairwise_append]
    refine ⟨⟨ha.1, hb.1, fun e he f hf => ?_⟩, hc.1, fun e he f hf => ?_⟩
    · have := h1 e he; have := (h2 f hf).1; omega
    · have hf := h3 f hf
      rcases List.mem_append.1 he with he | he
      · have := h1 e he; omega
      · have := (h2 e he).2; omega
  · intro e he
    rcases List.mem_append.1 he with he | he
    · rcases List.mem_append.1 he with he | he
      · exact ha.2 e he
      · exact hb.2 e he
    · exact hc.2 e he

theorem Memory.mem_cells {a : Nat} {bs : List Byte} {e : Host.Cell} (h : e ∈ Memory.cells a bs) :
    a ≤ e.1 ∧ e.1 < a + bs.length := by
  induction bs generalizing a with
  | nil => simp [Memory.cells] at h
  | cons b bs ih =>
    simp only [Memory.cells] at h
    split at h
    · have := ih h; simp only [List.length_cons]; omega
    · rcases List.mem_cons.1 h with rfl | h
      · simp
      · have := ih h; simp only [List.length_cons]; omega

theorem Memory.wf_cells (a : Nat) (bs : List Byte) : Memory.wf (Memory.cells a bs) = true := by
  rw [Memory.wf, Tbl.wf_iff]
  induction bs generalizing a with
  | nil => simp [Memory.cells]
  | cons b bs ih =>
    simp only [Memory.cells]
    split
    · exact ih (a + 1)
    · rename_i hb
      refine ⟨List.pairwise_cons.2 ⟨fun e he => ?_, (ih (a + 1)).1⟩, ?_⟩
      · have := (Memory.mem_cells he).1; simp only; omega
      · intro e he
        rcases List.mem_cons.1 he with rfl | he
        · exact hb
        · exact (ih (a + 1)).2 e he

/-- Writing one byte keeps the canonical form. -/
theorem Memory.wf_write (m : Memory) (a : Nat) (b : Byte) (h : Memory.wf m = true) : Memory.wf (m.write a b) = true :=
  Tbl.wf_tset _ m a b h

/-- Writing consecutive bytes keeps the canonical form. -/
theorem Memory.wf_writeBytes (m : Memory) (a : Nat) (bs : List Byte) (h : Memory.wf m = true) :
    Memory.wf (m.writeBytes a bs) = true := by
  refine Tbl.wf_append3 _ _ _ _ a (a + bs.length) (Tbl.wf_filter _ _ _ h) (Memory.wf_cells a bs)
    (Tbl.wf_filter _ _ _ h) ?_ (fun e he => Memory.mem_cells he) ?_ (Nat.le_add_right _ _)
  · intro e he; simpa using (List.mem_filter.1 he).2
  · intro e he; simpa using (List.mem_filter.1 he).2

/-- Clearing a range keeps the canonical form. -/
theorem Memory.wf_clear (m : Memory) (a n : Nat) (h : Memory.wf m = true) : Memory.wf (m.clear a n) = true :=
  Tbl.wf_filter _ _ _ h

/-! ### Bytes -/

theorem tget_filter (d : α) (m : Tbl α) (p : Nat → Bool) (k : Nat) :
    tget d (m.filter fun e => p e.1) k = if p k then tget d m k else d := by
  induction m with
  | nil => simp [tget]
  | cons e m ih =>
    obtain ⟨a, v⟩ := e
    by_cases hp : p a <;> by_cases hk : a = k <;> simp_all [tget]

theorem tget_append_left (d : α) (a b : Tbl α) (k : Nat) (h : ∀ e ∈ b, e.1 ≠ k) : tget d (a ++ b) k = tget d a k := by
  induction a with
  | nil =>
    induction b with
    | nil => rfl
    | cons e b ih =>
      have h1 := h e (by simp)
      have h2 := ih fun x hx => h x (by simp [hx])
      simp_all [tget]
  | cons e a ih => simp [tget, ih]

theorem tget_append_right (d : α) (a b : Tbl α) (k : Nat) (h : ∀ e ∈ a, e.1 ≠ k) : tget d (a ++ b) k = tget d b k := by
  induction a with
  | nil => rfl
  | cons e a ih =>
    have h1 := h e (by simp)
    have h2 := ih fun x hx => h x (by simp [hx])
    simp_all [tget]

theorem Memory.read_cells (a : Nat) (bs : List Byte) (i : Nat) (h : i < bs.length) :
    Memory.read (Memory.cells a bs) (a + i) = bs[i] := by
  induction bs generalizing a i with
  | nil => simp at h
  | cons b bs ih =>
    cases i with
    | zero =>
      simp only [Memory.cells]
      split
      · rename_i hb
        simp only [Memory.read, Nat.add_zero, List.getElem_cons_zero, hb]
        have : ∀ e ∈ Memory.cells (a + 1) bs, e.1 ≠ a := fun e he => by have := (Memory.mem_cells he).1; omega
        have h0 := tget_append_left Memory.blank ([] : Memory) (Memory.cells (a + 1) bs) a this
        simpa [tget] using h0
      · simp [Memory.read, tget]
    | succ i =>
      have hi : i < bs.length := by simpa using h
      have := ih (a + 1) i hi
      simp only [Memory.cells, List.getElem_cons_succ]
      have e1 : a + (i + 1) = a + 1 + i := by omega
      split
      · rw [e1]; exact this
      · simp only [Memory.read, tget, e1] at *
        have h1 : ¬ a = a + 1 + i := by omega
        rw [if_neg h1]; exact this

/-- Inside the bytes written, reading gives them. -/
theorem Memory.read_writeBytes_in (m : Memory) (a : Nat) (bs : List Byte) (i : Nat) (h : i < bs.length) :
    Memory.read (m.writeBytes a bs) (a + i) = bs[i] := by
  unfold Memory.read Memory.writeBytes
  rw [tget_append_left, tget_append_right]
  · exact Memory.read_cells a bs i h
  · intro e he; have : e.1 < a := by simpa using (List.mem_filter.1 he).2
    omega
  · intro e he; have : a + bs.length ≤ e.1 := by simpa using (List.mem_filter.1 he).2
    omega

/-- Outside the bytes written, reading gives what was there. -/
theorem Memory.read_writeBytes_out (m : Memory) (a : Nat) (bs : List Byte) (k : Nat) (h : k < a ∨ a + bs.length ≤ k) :
    Memory.read (m.writeBytes a bs) k = Memory.read m k := by
  unfold Memory.read Memory.writeBytes
  have hl := tget_filter Memory.blank m (fun x => decide (x < a)) k
  have hr := tget_filter Memory.blank m (fun x => decide (a + bs.length ≤ x)) k
  rcases h with h | h
  · rw [tget_append_left, tget_append_left, hl]
    · simp [h]
    · intro e he; have := (Memory.mem_cells he).1; omega
    · intro e he; have : a + bs.length ≤ e.1 := by simpa using (List.mem_filter.1 he).2
      omega
  · rw [tget_append_right, hr]
    · simp [h]
    · intro e he
      rcases List.mem_append.1 he with he | he
      · have : e.1 < a := by simpa using (List.mem_filter.1 he).2
        omega
      · have := (Memory.mem_cells he).2; omega

@[simp] theorem Memory.length_readBytes (m : Memory) (a n : Nat) : (m.readBytes a n).length = n := by
  induction n generalizing a with
  | zero => rfl
  | succ n ih => simp [Memory.readBytes, ih]

/-- Reading back what was written. -/
theorem Memory.readBytes_writeBytes (m : Memory) (a : Nat) (bs : List Byte) :
    (m.writeBytes a bs).readBytes a bs.length = bs := by
  have key : ∀ (n i : Nat), i + n = bs.length → (m.writeBytes a bs).readBytes (a + i) n = bs.drop i := by
    intro n
    induction n with
    | zero => intro i h; simp [Memory.readBytes, List.drop_of_length_le (by omega : bs.length ≤ i)]
    | succ n ih =>
      intro i h
      have hi : i < bs.length := by omega
      rw [Memory.readBytes, Memory.read_writeBytes_in m a bs i hi, List.drop_eq_getElem_cons hi]
      congr 1
      exact ih (i + 1) (by omega)
  simpa using key bs.length 0 (by omega)

end Sys2Proof.Machine
end

