-- ==== Sys2Proof/Laws/State.lean ====
section
/-! SUPPORT. One lemma per field of State for each named update, and what reading a register, a tile or another
numbered part gives after an update, so that no proof unfolds a record update. -/

namespace Sys2Proof.Machine

/-! ### setReg -/

@[simp] theorem State.setReg_life (s : State) (k : Nat) (v : Word) : (s.setReg k v).life = s.life := rfl
@[simp] theorem State.setReg_time (s : State) (k : Nat) (v : Word) : (s.setReg k v).time = s.time := rfl
@[simp] theorem State.setReg_force (s : State) (k : Nat) (v : Word) : (s.setReg k v).force = s.force := rfl
@[simp] theorem State.setReg_therm (s : State) (k : Nat) (v : Word) : (s.setReg k v).therm = s.therm := rfl
@[simp] theorem State.setReg_latches (s : State) (k : Nat) (v : Word) : (s.setReg k v).latches = s.latches := rfl
@[simp] theorem State.setReg_data (s : State) (k : Nat) (v : Word) : (s.setReg k v).data = s.data := rfl
@[simp] theorem State.setReg_ev (s : State) (k : Nat) (v : Word) : (s.setReg k v).ev = s.ev := rfl
@[simp] theorem State.setReg_ord (s : State) (k : Nat) (v : Word) : (s.setReg k v).ord = s.ord := rfl
@[simp] theorem State.setReg_arm (s : State) (k : Nat) (v : Word) : (s.setReg k v).arm = s.arm := rfl
@[simp] theorem State.setReg_map (s : State) (k : Nat) (v : Word) : (s.setReg k v).map = s.map := rfl
@[simp] theorem State.setReg_tiles (s : State) (k : Nat) (v : Word) : (s.setReg k v).tiles = s.tiles := rfl
@[simp] theorem State.setReg_maq (s : State) (k : Nat) (v : Word) : (s.setReg k v).maq = s.maq := rfl
@[simp] theorem State.setReg_chisel (s : State) (k : Nat) (v : Word) : (s.setReg k v).chisel = s.chisel := rfl
@[simp] theorem State.setReg_contain (s : State) (k : Nat) (v : Word) : (s.setReg k v).contain = s.contain := rfl
@[simp] theorem State.setReg_heat (s : State) (k : Nat) (v : Word) : (s.setReg k v).heat = s.heat := rfl
@[simp] theorem State.setReg_stack (s : State) (k : Nat) (v : Word) : (s.setReg k v).stack = s.stack := rfl
@[simp] theorem State.setReg_cast (s : State) (k : Nat) (v : Word) : (s.setReg k v).cast = s.cast := rfl
@[simp] theorem State.setReg_digest (s : State) (k : Nat) (v : Word) : (s.setReg k v).digest = s.digest := rfl
@[simp] theorem State.setReg_dbg (s : State) (k : Nat) (v : Word) : (s.setReg k v).dbg = s.dbg := rfl
@[simp] theorem State.setReg_links (s : State) (k : Nat) (v : Word) : (s.setReg k v).links = s.links := rfl
@[simp] theorem State.setReg_hostMem (s : State) (k : Nat) (v : Word) : (s.setReg k v).hostMem = s.hostMem := rfl
@[simp] theorem State.setReg_fatalN (s : State) (k : Nat) (v : Word) : (s.setReg k v).fatalN = s.fatalN := rfl
@[simp] theorem State.setReg_tripN (s : State) (k : Nat) (v : Word) : (s.setReg k v).tripN = s.tripN := rfl
@[simp] theorem State.setReg_nv (s : State) (k : Nat) (v : Word) : (s.setReg k v).nv = s.nv := rfl
@[simp] theorem State.setReg_free (s : State) (k : Nat) (v : Word) : (s.setReg k v).free = s.free := rfl
@[simp] theorem State.setReg_status (s : State) (k : Nat) (v : Word) : (s.setReg k v).status = s.status := rfl
@[simp] theorem State.setReg_pending (s : State) (k : Nat) (v : Word) : (s.setReg k v).pending = s.pending := rfl

/-! ### bump -/

@[simp] theorem State.bump_life (s : State) (k n : Nat) : (s.bump k n).life = s.life := rfl
@[simp] theorem State.bump_time (s : State) (k n : Nat) : (s.bump k n).time = s.time := rfl
@[simp] theorem State.bump_force (s : State) (k n : Nat) : (s.bump k n).force = s.force := rfl
@[simp] theorem State.bump_therm (s : State) (k n : Nat) : (s.bump k n).therm = s.therm := rfl
@[simp] theorem State.bump_latches (s : State) (k n : Nat) : (s.bump k n).latches = s.latches := rfl
@[simp] theorem State.bump_data (s : State) (k n : Nat) : (s.bump k n).data = s.data := rfl
@[simp] theorem State.bump_ev (s : State) (k n : Nat) : (s.bump k n).ev = s.ev := rfl
@[simp] theorem State.bump_ord (s : State) (k n : Nat) : (s.bump k n).ord = s.ord := rfl
@[simp] theorem State.bump_arm (s : State) (k n : Nat) : (s.bump k n).arm = s.arm := rfl
@[simp] theorem State.bump_map (s : State) (k n : Nat) : (s.bump k n).map = s.map := rfl
@[simp] theorem State.bump_tiles (s : State) (k n : Nat) : (s.bump k n).tiles = s.tiles := rfl
@[simp] theorem State.bump_maq (s : State) (k n : Nat) : (s.bump k n).maq = s.maq := rfl
@[simp] theorem State.bump_chisel (s : State) (k n : Nat) : (s.bump k n).chisel = s.chisel := rfl
@[simp] theorem State.bump_contain (s : State) (k n : Nat) : (s.bump k n).contain = s.contain := rfl
@[simp] theorem State.bump_heat (s : State) (k n : Nat) : (s.bump k n).heat = s.heat := rfl
@[simp] theorem State.bump_stack (s : State) (k n : Nat) : (s.bump k n).stack = s.stack := rfl
@[simp] theorem State.bump_cast (s : State) (k n : Nat) : (s.bump k n).cast = s.cast := rfl
@[simp] theorem State.bump_digest (s : State) (k n : Nat) : (s.bump k n).digest = s.digest := rfl
@[simp] theorem State.bump_dbg (s : State) (k n : Nat) : (s.bump k n).dbg = s.dbg := rfl
@[simp] theorem State.bump_links (s : State) (k n : Nat) : (s.bump k n).links = s.links := rfl
@[simp] theorem State.bump_hostMem (s : State) (k n : Nat) : (s.bump k n).hostMem = s.hostMem := rfl
@[simp] theorem State.bump_fatalN (s : State) (k n : Nat) : (s.bump k n).fatalN = s.fatalN := rfl
@[simp] theorem State.bump_tripN (s : State) (k n : Nat) : (s.bump k n).tripN = s.tripN := rfl
@[simp] theorem State.bump_nv (s : State) (k n : Nat) : (s.bump k n).nv = s.nv := rfl
@[simp] theorem State.bump_free (s : State) (k n : Nat) : (s.bump k n).free = s.free := rfl
@[simp] theorem State.bump_status (s : State) (k n : Nat) : (s.bump k n).status = s.status := rfl
@[simp] theorem State.bump_pending (s : State) (k n : Nat) : (s.bump k n).pending = s.pending := rfl

/-! ### setTile -/

@[simp] theorem State.setTile_life (s : State) (t : Nat) (x : Tile) : (s.setTile t x).life = s.life := rfl
@[simp] theorem State.setTile_time (s : State) (t : Nat) (x : Tile) : (s.setTile t x).time = s.time := rfl
@[simp] theorem State.setTile_regs (s : State) (t : Nat) (x : Tile) : (s.setTile t x).regs = s.regs := rfl
@[simp] theorem State.setTile_force (s : State) (t : Nat) (x : Tile) : (s.setTile t x).force = s.force := rfl
@[simp] theorem State.setTile_therm (s : State) (t : Nat) (x : Tile) : (s.setTile t x).therm = s.therm := rfl
@[simp] theorem State.setTile_latches (s : State) (t : Nat) (x : Tile) : (s.setTile t x).latches = s.latches := rfl
@[simp] theorem State.setTile_data (s : State) (t : Nat) (x : Tile) : (s.setTile t x).data = s.data := rfl
@[simp] theorem State.setTile_ev (s : State) (t : Nat) (x : Tile) : (s.setTile t x).ev = s.ev := rfl
@[simp] theorem State.setTile_ord (s : State) (t : Nat) (x : Tile) : (s.setTile t x).ord = s.ord := rfl
@[simp] theorem State.setTile_arm (s : State) (t : Nat) (x : Tile) : (s.setTile t x).arm = s.arm := rfl
@[simp] theorem State.setTile_map (s : State) (t : Nat) (x : Tile) : (s.setTile t x).map = s.map := rfl
@[simp] theorem State.setTile_maq (s : State) (t : Nat) (x : Tile) : (s.setTile t x).maq = s.maq := rfl
@[simp] theorem State.setTile_chisel (s : State) (t : Nat) (x : Tile) : (s.setTile t x).chisel = s.chisel := rfl
@[simp] theorem State.setTile_contain (s : State) (t : Nat) (x : Tile) : (s.setTile t x).contain = s.contain := rfl
@[simp] theorem State.setTile_heat (s : State) (t : Nat) (x : Tile) : (s.setTile t x).heat = s.heat := rfl
@[simp] theorem State.setTile_stack (s : State) (t : Nat) (x : Tile) : (s.setTile t x).stack = s.stack := rfl
@[simp] theorem State.setTile_cast (s : State) (t : Nat) (x : Tile) : (s.setTile t x).cast = s.cast := rfl
@[simp] theorem State.setTile_digest (s : State) (t : Nat) (x : Tile) : (s.setTile t x).digest = s.digest := rfl
@[simp] theorem State.setTile_dbg (s : State) (t : Nat) (x : Tile) : (s.setTile t x).dbg = s.dbg := rfl
@[simp] theorem State.setTile_links (s : State) (t : Nat) (x : Tile) : (s.setTile t x).links = s.links := rfl
@[simp] theorem State.setTile_hostMem (s : State) (t : Nat) (x : Tile) : (s.setTile t x).hostMem = s.hostMem := rfl
@[simp] theorem State.setTile_fatalN (s : State) (t : Nat) (x : Tile) : (s.setTile t x).fatalN = s.fatalN := rfl
@[simp] theorem State.setTile_tripN (s : State) (t : Nat) (x : Tile) : (s.setTile t x).tripN = s.tripN := rfl
@[simp] theorem State.setTile_nv (s : State) (t : Nat) (x : Tile) : (s.setTile t x).nv = s.nv := rfl
@[simp] theorem State.setTile_free (s : State) (t : Nat) (x : Tile) : (s.setTile t x).free = s.free := rfl
@[simp] theorem State.setTile_status (s : State) (t : Nat) (x : Tile) : (s.setTile t x).status = s.status := rfl
@[simp] theorem State.setTile_pending (s : State) (t : Nat) (x : Tile) : (s.setTile t x).pending = s.pending := rfl

/-! ### modTile -/

@[simp] theorem State.modTile_life (s : State) (t : Nat) (f : Tile → Tile) : (s.modTile t f).life = s.life := rfl
@[simp] theorem State.modTile_time (s : State) (t : Nat) (f : Tile → Tile) : (s.modTile t f).time = s.time := rfl
@[simp] theorem State.modTile_regs (s : State) (t : Nat) (f : Tile → Tile) : (s.modTile t f).regs = s.regs := rfl
@[simp] theorem State.modTile_force (s : State) (t : Nat) (f : Tile → Tile) : (s.modTile t f).force = s.force := rfl
@[simp] theorem State.modTile_therm (s : State) (t : Nat) (f : Tile → Tile) : (s.modTile t f).therm = s.therm := rfl
@[simp] theorem State.modTile_latches (s : State) (t : Nat) (f : Tile → Tile) : (s.modTile t f).latches = s.latches := rfl
@[simp] theorem State.modTile_data (s : State) (t : Nat) (f : Tile → Tile) : (s.modTile t f).data = s.data := rfl
@[simp] theorem State.modTile_ev (s : State) (t : Nat) (f : Tile → Tile) : (s.modTile t f).ev = s.ev := rfl
@[simp] theorem State.modTile_ord (s : State) (t : Nat) (f : Tile → Tile) : (s.modTile t f).ord = s.ord := rfl
@[simp] theorem State.modTile_arm (s : State) (t : Nat) (f : Tile → Tile) : (s.modTile t f).arm = s.arm := rfl
@[simp] theorem State.modTile_map (s : State) (t : Nat) (f : Tile → Tile) : (s.modTile t f).map = s.map := rfl
@[simp] theorem State.modTile_maq (s : State) (t : Nat) (f : Tile → Tile) : (s.modTile t f).maq = s.maq := rfl
@[simp] theorem State.modTile_chisel (s : State) (t : Nat) (f : Tile → Tile) : (s.modTile t f).chisel = s.chisel := rfl
@[simp] theorem State.modTile_contain (s : State) (t : Nat) (f : Tile → Tile) : (s.modTile t f).contain = s.contain := rfl
@[simp] theorem State.modTile_heat (s : State) (t : Nat) (f : Tile → Tile) : (s.modTile t f).heat = s.heat := rfl
@[simp] theorem State.modTile_stack (s : State) (t : Nat) (f : Tile → Tile) : (s.modTile t f).stack = s.stack := rfl
@[simp] theorem State.modTile_cast (s : State) (t : Nat) (f : Tile → Tile) : (s.modTile t f).cast = s.cast := rfl
@[simp] theorem State.modTile_digest (s : State) (t : Nat) (f : Tile → Tile) : (s.modTile t f).digest = s.digest := rfl
@[simp] theorem State.modTile_dbg (s : State) (t : Nat) (f : Tile → Tile) : (s.modTile t f).dbg = s.dbg := rfl
@[simp] theorem State.modTile_links (s : State) (t : Nat) (f : Tile → Tile) : (s.modTile t f).links = s.links := rfl
@[simp] theorem State.modTile_hostMem (s : State) (t : Nat) (f : Tile → Tile) : (s.modTile t f).hostMem = s.hostMem := rfl
@[simp] theorem State.modTile_fatalN (s : State) (t : Nat) (f : Tile → Tile) : (s.modTile t f).fatalN = s.fatalN := rfl
@[simp] theorem State.modTile_tripN (s : State) (t : Nat) (f : Tile → Tile) : (s.modTile t f).tripN = s.tripN := rfl
@[simp] theorem State.modTile_nv (s : State) (t : Nat) (f : Tile → Tile) : (s.modTile t f).nv = s.nv := rfl
@[simp] theorem State.modTile_free (s : State) (t : Nat) (f : Tile → Tile) : (s.modTile t f).free = s.free := rfl
@[simp] theorem State.modTile_status (s : State) (t : Nat) (f : Tile → Tile) : (s.modTile t f).status = s.status := rfl
@[simp] theorem State.modTile_pending (s : State) (t : Nat) (f : Tile → Tile) : (s.modTile t f).pending = s.pending := rfl

/-! ### modCore -/

@[simp] theorem State.modCore_life (s : State) (t : Nat) (f : Core → Core) : (s.modCore t f).life = s.life := rfl
@[simp] theorem State.modCore_time (s : State) (t : Nat) (f : Core → Core) : (s.modCore t f).time = s.time := rfl
@[simp] theorem State.modCore_regs (s : State) (t : Nat) (f : Core → Core) : (s.modCore t f).regs = s.regs := rfl
@[simp] theorem State.modCore_force (s : State) (t : Nat) (f : Core → Core) : (s.modCore t f).force = s.force := rfl
@[simp] theorem State.modCore_therm (s : State) (t : Nat) (f : Core → Core) : (s.modCore t f).therm = s.therm := rfl
@[simp] theorem State.modCore_latches (s : State) (t : Nat) (f : Core → Core) : (s.modCore t f).latches = s.latches := rfl
@[simp] theorem State.modCore_data (s : State) (t : Nat) (f : Core → Core) : (s.modCore t f).data = s.data := rfl
@[simp] theorem State.modCore_ev (s : State) (t : Nat) (f : Core → Core) : (s.modCore t f).ev = s.ev := rfl
@[simp] theorem State.modCore_ord (s : State) (t : Nat) (f : Core → Core) : (s.modCore t f).ord = s.ord := rfl
@[simp] theorem State.modCore_arm (s : State) (t : Nat) (f : Core → Core) : (s.modCore t f).arm = s.arm := rfl
@[simp] theorem State.modCore_map (s : State) (t : Nat) (f : Core → Core) : (s.modCore t f).map = s.map := rfl
@[simp] theorem State.modCore_maq (s : State) (t : Nat) (f : Core → Core) : (s.modCore t f).maq = s.maq := rfl
@[simp] theorem State.modCore_chisel (s : State) (t : Nat) (f : Core → Core) : (s.modCore t f).chisel = s.chisel := rfl
@[simp] theorem State.modCore_contain (s : State) (t : Nat) (f : Core → Core) : (s.modCore t f).contain = s.contain := rfl
@[simp] theorem State.modCore_heat (s : State) (t : Nat) (f : Core → Core) : (s.modCore t f).heat = s.heat := rfl
@[simp] theorem State.modCore_stack (s : State) (t : Nat) (f : Core → Core) : (s.modCore t f).stack = s.stack := rfl
@[simp] theorem State.modCore_cast (s : State) (t : Nat) (f : Core → Core) : (s.modCore t f).cast = s.cast := rfl
@[simp] theorem State.modCore_digest (s : State) (t : Nat) (f : Core → Core) : (s.modCore t f).digest = s.digest := rfl
@[simp] theorem State.modCore_dbg (s : State) (t : Nat) (f : Core → Core) : (s.modCore t f).dbg = s.dbg := rfl
@[simp] theorem State.modCore_links (s : State) (t : Nat) (f : Core → Core) : (s.modCore t f).links = s.links := rfl
@[simp] theorem State.modCore_hostMem (s : State) (t : Nat) (f : Core → Core) : (s.modCore t f).hostMem = s.hostMem := rfl
@[simp] theorem State.modCore_fatalN (s : State) (t : Nat) (f : Core → Core) : (s.modCore t f).fatalN = s.fatalN := rfl
@[simp] theorem State.modCore_tripN (s : State) (t : Nat) (f : Core → Core) : (s.modCore t f).tripN = s.tripN := rfl
@[simp] theorem State.modCore_nv (s : State) (t : Nat) (f : Core → Core) : (s.modCore t f).nv = s.nv := rfl
@[simp] theorem State.modCore_free (s : State) (t : Nat) (f : Core → Core) : (s.modCore t f).free = s.free := rfl
@[simp] theorem State.modCore_status (s : State) (t : Nat) (f : Core → Core) : (s.modCore t f).status = s.status := rfl
@[simp] theorem State.modCore_pending (s : State) (t : Nat) (f : Core → Core) : (s.modCore t f).pending = s.pending := rfl

/-! ### modMaq -/

@[simp] theorem State.modMaq_life (s : State) (t : Nat) (f : MaqTile → MaqTile) : (s.modMaq t f).life = s.life := rfl
@[simp] theorem State.modMaq_time (s : State) (t : Nat) (f : MaqTile → MaqTile) : (s.modMaq t f).time = s.time := rfl
@[simp] theorem State.modMaq_regs (s : State) (t : Nat) (f : MaqTile → MaqTile) : (s.modMaq t f).regs = s.regs := rfl
@[simp] theorem State.modMaq_force (s : State) (t : Nat) (f : MaqTile → MaqTile) : (s.modMaq t f).force = s.force := rfl
@[simp] theorem State.modMaq_therm (s : State) (t : Nat) (f : MaqTile → MaqTile) : (s.modMaq t f).therm = s.therm := rfl
@[simp] theorem State.modMaq_latches (s : State) (t : Nat) (f : MaqTile → MaqTile) : (s.modMaq t f).latches = s.latches := rfl
@[simp] theorem State.modMaq_data (s : State) (t : Nat) (f : MaqTile → MaqTile) : (s.modMaq t f).data = s.data := rfl
@[simp] theorem State.modMaq_ev (s : State) (t : Nat) (f : MaqTile → MaqTile) : (s.modMaq t f).ev = s.ev := rfl
@[simp] theorem State.modMaq_ord (s : State) (t : Nat) (f : MaqTile → MaqTile) : (s.modMaq t f).ord = s.ord := rfl
@[simp] theorem State.modMaq_arm (s : State) (t : Nat) (f : MaqTile → MaqTile) : (s.modMaq t f).arm = s.arm := rfl
@[simp] theorem State.modMaq_map (s : State) (t : Nat) (f : MaqTile → MaqTile) : (s.modMaq t f).map = s.map := rfl
@[simp] theorem State.modMaq_maq (s : State) (t : Nat) (f : MaqTile → MaqTile) : (s.modMaq t f).maq = s.maq := rfl
@[simp] theorem State.modMaq_chisel (s : State) (t : Nat) (f : MaqTile → MaqTile) : (s.modMaq t f).chisel = s.chisel := rfl
@[simp] theorem State.modMaq_contain (s : State) (t : Nat) (f : MaqTile → MaqTile) : (s.modMaq t f).contain = s.contain := rfl
@[simp] theorem State.modMaq_heat (s : State) (t : Nat) (f : MaqTile → MaqTile) : (s.modMaq t f).heat = s.heat := rfl
@[simp] theorem State.modMaq_stack (s : State) (t : Nat) (f : MaqTile → MaqTile) : (s.modMaq t f).stack = s.stack := rfl
@[simp] theorem State.modMaq_cast (s : State) (t : Nat) (f : MaqTile → MaqTile) : (s.modMaq t f).cast = s.cast := rfl
@[simp] theorem State.modMaq_digest (s : State) (t : Nat) (f : MaqTile → MaqTile) : (s.modMaq t f).digest = s.digest := rfl
@[simp] theorem State.modMaq_dbg (s : State) (t : Nat) (f : MaqTile → MaqTile) : (s.modMaq t f).dbg = s.dbg := rfl
@[simp] theorem State.modMaq_links (s : State) (t : Nat) (f : MaqTile → MaqTile) : (s.modMaq t f).links = s.links := rfl
@[simp] theorem State.modMaq_hostMem (s : State) (t : Nat) (f : MaqTile → MaqTile) : (s.modMaq t f).hostMem = s.hostMem := rfl
@[simp] theorem State.modMaq_fatalN (s : State) (t : Nat) (f : MaqTile → MaqTile) : (s.modMaq t f).fatalN = s.fatalN := rfl
@[simp] theorem State.modMaq_tripN (s : State) (t : Nat) (f : MaqTile → MaqTile) : (s.modMaq t f).tripN = s.tripN := rfl
@[simp] theorem State.modMaq_nv (s : State) (t : Nat) (f : MaqTile → MaqTile) : (s.modMaq t f).nv = s.nv := rfl
@[simp] theorem State.modMaq_free (s : State) (t : Nat) (f : MaqTile → MaqTile) : (s.modMaq t f).free = s.free := rfl
@[simp] theorem State.modMaq_status (s : State) (t : Nat) (f : MaqTile → MaqTile) : (s.modMaq t f).status = s.status := rfl
@[simp] theorem State.modMaq_pending (s : State) (t : Nat) (f : MaqTile → MaqTile) : (s.modMaq t f).pending = s.pending := rfl

/-! ### modChisel -/

@[simp] theorem State.modChisel_life (s : State) (t : Nat) (f : ChiselTile → ChiselTile) : (s.modChisel t f).life = s.life := rfl
@[simp] theorem State.modChisel_time (s : State) (t : Nat) (f : ChiselTile → ChiselTile) : (s.modChisel t f).time = s.time := rfl
@[simp] theorem State.modChisel_regs (s : State) (t : Nat) (f : ChiselTile → ChiselTile) : (s.modChisel t f).regs = s.regs := rfl
@[simp] theorem State.modChisel_force (s : State) (t : Nat) (f : ChiselTile → ChiselTile) : (s.modChisel t f).force = s.force := rfl
@[simp] theorem State.modChisel_therm (s : State) (t : Nat) (f : ChiselTile → ChiselTile) : (s.modChisel t f).therm = s.therm := rfl
@[simp] theorem State.modChisel_latches (s : State) (t : Nat) (f : ChiselTile → ChiselTile) : (s.modChisel t f).latches = s.latches := rfl
@[simp] theorem State.modChisel_data (s : State) (t : Nat) (f : ChiselTile → ChiselTile) : (s.modChisel t f).data = s.data := rfl
@[simp] theorem State.modChisel_ev (s : State) (t : Nat) (f : ChiselTile → ChiselTile) : (s.modChisel t f).ev = s.ev := rfl
@[simp] theorem State.modChisel_ord (s : State) (t : Nat) (f : ChiselTile → ChiselTile) : (s.modChisel t f).ord = s.ord := rfl
@[simp] theorem State.modChisel_arm (s : State) (t : Nat) (f : ChiselTile → ChiselTile) : (s.modChisel t f).arm = s.arm := rfl
@[simp] theorem State.modChisel_map (s : State) (t : Nat) (f : ChiselTile → ChiselTile) : (s.modChisel t f).map = s.map := rfl
@[simp] theorem State.modChisel_maq (s : State) (t : Nat) (f : ChiselTile → ChiselTile) : (s.modChisel t f).maq = s.maq := rfl
@[simp] theorem State.modChisel_chisel (s : State) (t : Nat) (f : ChiselTile → ChiselTile) : (s.modChisel t f).chisel = s.chisel := rfl
@[simp] theorem State.modChisel_contain (s : State) (t : Nat) (f : ChiselTile → ChiselTile) : (s.modChisel t f).contain = s.contain := rfl
@[simp] theorem State.modChisel_heat (s : State) (t : Nat) (f : ChiselTile → ChiselTile) : (s.modChisel t f).heat = s.heat := rfl
@[simp] theorem State.modChisel_stack (s : State) (t : Nat) (f : ChiselTile → ChiselTile) : (s.modChisel t f).stack = s.stack := rfl
@[simp] theorem State.modChisel_cast (s : State) (t : Nat) (f : ChiselTile → ChiselTile) : (s.modChisel t f).cast = s.cast := rfl
@[simp] theorem State.modChisel_digest (s : State) (t : Nat) (f : ChiselTile → ChiselTile) : (s.modChisel t f).digest = s.digest := rfl
@[simp] theorem State.modChisel_dbg (s : State) (t : Nat) (f : ChiselTile → ChiselTile) : (s.modChisel t f).dbg = s.dbg := rfl
@[simp] theorem State.modChisel_links (s : State) (t : Nat) (f : ChiselTile → ChiselTile) : (s.modChisel t f).links = s.links := rfl
@[simp] theorem State.modChisel_hostMem (s : State) (t : Nat) (f : ChiselTile → ChiselTile) : (s.modChisel t f).hostMem = s.hostMem := rfl
@[simp] theorem State.modChisel_fatalN (s : State) (t : Nat) (f : ChiselTile → ChiselTile) : (s.modChisel t f).fatalN = s.fatalN := rfl
@[simp] theorem State.modChisel_tripN (s : State) (t : Nat) (f : ChiselTile → ChiselTile) : (s.modChisel t f).tripN = s.tripN := rfl
@[simp] theorem State.modChisel_nv (s : State) (t : Nat) (f : ChiselTile → ChiselTile) : (s.modChisel t f).nv = s.nv := rfl
@[simp] theorem State.modChisel_free (s : State) (t : Nat) (f : ChiselTile → ChiselTile) : (s.modChisel t f).free = s.free := rfl
@[simp] theorem State.modChisel_status (s : State) (t : Nat) (f : ChiselTile → ChiselTile) : (s.modChisel t f).status = s.status := rfl
@[simp] theorem State.modChisel_pending (s : State) (t : Nat) (f : ChiselTile → ChiselTile) : (s.modChisel t f).pending = s.pending := rfl

/-! ### modPat -/

@[simp] theorem State.modPat_life (s : State) (t : Nat) (f : PatTile → PatTile) : (s.modPat t f).life = s.life := rfl
@[simp] theorem State.modPat_time (s : State) (t : Nat) (f : PatTile → PatTile) : (s.modPat t f).time = s.time := rfl
@[simp] theorem State.modPat_regs (s : State) (t : Nat) (f : PatTile → PatTile) : (s.modPat t f).regs = s.regs := rfl
@[simp] theorem State.modPat_force (s : State) (t : Nat) (f : PatTile → PatTile) : (s.modPat t f).force = s.force := rfl
@[simp] theorem State.modPat_therm (s : State) (t : Nat) (f : PatTile → PatTile) : (s.modPat t f).therm = s.therm := rfl
@[simp] theorem State.modPat_latches (s : State) (t : Nat) (f : PatTile → PatTile) : (s.modPat t f).latches = s.latches := rfl
@[simp] theorem State.modPat_data (s : State) (t : Nat) (f : PatTile → PatTile) : (s.modPat t f).data = s.data := rfl
@[simp] theorem State.modPat_ev (s : State) (t : Nat) (f : PatTile → PatTile) : (s.modPat t f).ev = s.ev := rfl
@[simp] theorem State.modPat_ord (s : State) (t : Nat) (f : PatTile → PatTile) : (s.modPat t f).ord = s.ord := rfl
@[simp] theorem State.modPat_arm (s : State) (t : Nat) (f : PatTile → PatTile) : (s.modPat t f).arm = s.arm := rfl
@[simp] theorem State.modPat_map (s : State) (t : Nat) (f : PatTile → PatTile) : (s.modPat t f).map = s.map := rfl
@[simp] theorem State.modPat_maq (s : State) (t : Nat) (f : PatTile → PatTile) : (s.modPat t f).maq = s.maq := rfl
@[simp] theorem State.modPat_chisel (s : State) (t : Nat) (f : PatTile → PatTile) : (s.modPat t f).chisel = s.chisel := rfl
@[simp] theorem State.modPat_contain (s : State) (t : Nat) (f : PatTile → PatTile) : (s.modPat t f).contain = s.contain := rfl
@[simp] theorem State.modPat_heat (s : State) (t : Nat) (f : PatTile → PatTile) : (s.modPat t f).heat = s.heat := rfl
@[simp] theorem State.modPat_stack (s : State) (t : Nat) (f : PatTile → PatTile) : (s.modPat t f).stack = s.stack := rfl
@[simp] theorem State.modPat_cast (s : State) (t : Nat) (f : PatTile → PatTile) : (s.modPat t f).cast = s.cast := rfl
@[simp] theorem State.modPat_digest (s : State) (t : Nat) (f : PatTile → PatTile) : (s.modPat t f).digest = s.digest := rfl
@[simp] theorem State.modPat_dbg (s : State) (t : Nat) (f : PatTile → PatTile) : (s.modPat t f).dbg = s.dbg := rfl
@[simp] theorem State.modPat_links (s : State) (t : Nat) (f : PatTile → PatTile) : (s.modPat t f).links = s.links := rfl
@[simp] theorem State.modPat_hostMem (s : State) (t : Nat) (f : PatTile → PatTile) : (s.modPat t f).hostMem = s.hostMem := rfl
@[simp] theorem State.modPat_fatalN (s : State) (t : Nat) (f : PatTile → PatTile) : (s.modPat t f).fatalN = s.fatalN := rfl
@[simp] theorem State.modPat_tripN (s : State) (t : Nat) (f : PatTile → PatTile) : (s.modPat t f).tripN = s.tripN := rfl
@[simp] theorem State.modPat_nv (s : State) (t : Nat) (f : PatTile → PatTile) : (s.modPat t f).nv = s.nv := rfl
@[simp] theorem State.modPat_free (s : State) (t : Nat) (f : PatTile → PatTile) : (s.modPat t f).free = s.free := rfl
@[simp] theorem State.modPat_status (s : State) (t : Nat) (f : PatTile → PatTile) : (s.modPat t f).status = s.status := rfl
@[simp] theorem State.modPat_pending (s : State) (t : Nat) (f : PatTile → PatTile) : (s.modPat t f).pending = s.pending := rfl

/-! ### modPage -/

@[simp] theorem State.modPage_life (s : State) (t : Nat) (f : TilePage → TilePage) : (s.modPage t f).life = s.life := rfl
@[simp] theorem State.modPage_time (s : State) (t : Nat) (f : TilePage → TilePage) : (s.modPage t f).time = s.time := rfl
@[simp] theorem State.modPage_regs (s : State) (t : Nat) (f : TilePage → TilePage) : (s.modPage t f).regs = s.regs := rfl
@[simp] theorem State.modPage_force (s : State) (t : Nat) (f : TilePage → TilePage) : (s.modPage t f).force = s.force := rfl
@[simp] theorem State.modPage_therm (s : State) (t : Nat) (f : TilePage → TilePage) : (s.modPage t f).therm = s.therm := rfl
@[simp] theorem State.modPage_latches (s : State) (t : Nat) (f : TilePage → TilePage) : (s.modPage t f).latches = s.latches := rfl
@[simp] theorem State.modPage_data (s : State) (t : Nat) (f : TilePage → TilePage) : (s.modPage t f).data = s.data := rfl
@[simp] theorem State.modPage_ev (s : State) (t : Nat) (f : TilePage → TilePage) : (s.modPage t f).ev = s.ev := rfl
@[simp] theorem State.modPage_ord (s : State) (t : Nat) (f : TilePage → TilePage) : (s.modPage t f).ord = s.ord := rfl
@[simp] theorem State.modPage_arm (s : State) (t : Nat) (f : TilePage → TilePage) : (s.modPage t f).arm = s.arm := rfl
@[simp] theorem State.modPage_map (s : State) (t : Nat) (f : TilePage → TilePage) : (s.modPage t f).map = s.map := rfl
@[simp] theorem State.modPage_maq (s : State) (t : Nat) (f : TilePage → TilePage) : (s.modPage t f).maq = s.maq := rfl
@[simp] theorem State.modPage_chisel (s : State) (t : Nat) (f : TilePage → TilePage) : (s.modPage t f).chisel = s.chisel := rfl
@[simp] theorem State.modPage_contain (s : State) (t : Nat) (f : TilePage → TilePage) : (s.modPage t f).contain = s.contain := rfl
@[simp] theorem State.modPage_heat (s : State) (t : Nat) (f : TilePage → TilePage) : (s.modPage t f).heat = s.heat := rfl
@[simp] theorem State.modPage_stack (s : State) (t : Nat) (f : TilePage → TilePage) : (s.modPage t f).stack = s.stack := rfl
@[simp] theorem State.modPage_cast (s : State) (t : Nat) (f : TilePage → TilePage) : (s.modPage t f).cast = s.cast := rfl
@[simp] theorem State.modPage_digest (s : State) (t : Nat) (f : TilePage → TilePage) : (s.modPage t f).digest = s.digest := rfl
@[simp] theorem State.modPage_dbg (s : State) (t : Nat) (f : TilePage → TilePage) : (s.modPage t f).dbg = s.dbg := rfl
@[simp] theorem State.modPage_links (s : State) (t : Nat) (f : TilePage → TilePage) : (s.modPage t f).links = s.links := rfl
@[simp] theorem State.modPage_hostMem (s : State) (t : Nat) (f : TilePage → TilePage) : (s.modPage t f).hostMem = s.hostMem := rfl
@[simp] theorem State.modPage_fatalN (s : State) (t : Nat) (f : TilePage → TilePage) : (s.modPage t f).fatalN = s.fatalN := rfl
@[simp] theorem State.modPage_tripN (s : State) (t : Nat) (f : TilePage → TilePage) : (s.modPage t f).tripN = s.tripN := rfl
@[simp] theorem State.modPage_nv (s : State) (t : Nat) (f : TilePage → TilePage) : (s.modPage t f).nv = s.nv := rfl
@[simp] theorem State.modPage_free (s : State) (t : Nat) (f : TilePage → TilePage) : (s.modPage t f).free = s.free := rfl
@[simp] theorem State.modPage_status (s : State) (t : Nat) (f : TilePage → TilePage) : (s.modPage t f).status = s.status := rfl
@[simp] theorem State.modPage_pending (s : State) (t : Nat) (f : TilePage → TilePage) : (s.modPage t f).pending = s.pending := rfl

/-! ### modLink -/

@[simp] theorem State.modLink_life (s : State) (n : Nat) (f : Link → Link) : (s.modLink n f).life = s.life := rfl
@[simp] theorem State.modLink_time (s : State) (n : Nat) (f : Link → Link) : (s.modLink n f).time = s.time := rfl
@[simp] theorem State.modLink_regs (s : State) (n : Nat) (f : Link → Link) : (s.modLink n f).regs = s.regs := rfl
@[simp] theorem State.modLink_force (s : State) (n : Nat) (f : Link → Link) : (s.modLink n f).force = s.force := rfl
@[simp] theorem State.modLink_therm (s : State) (n : Nat) (f : Link → Link) : (s.modLink n f).therm = s.therm := rfl
@[simp] theorem State.modLink_latches (s : State) (n : Nat) (f : Link → Link) : (s.modLink n f).latches = s.latches := rfl
@[simp] theorem State.modLink_data (s : State) (n : Nat) (f : Link → Link) : (s.modLink n f).data = s.data := rfl
@[simp] theorem State.modLink_ev (s : State) (n : Nat) (f : Link → Link) : (s.modLink n f).ev = s.ev := rfl
@[simp] theorem State.modLink_ord (s : State) (n : Nat) (f : Link → Link) : (s.modLink n f).ord = s.ord := rfl
@[simp] theorem State.modLink_arm (s : State) (n : Nat) (f : Link → Link) : (s.modLink n f).arm = s.arm := rfl
@[simp] theorem State.modLink_map (s : State) (n : Nat) (f : Link → Link) : (s.modLink n f).map = s.map := rfl
@[simp] theorem State.modLink_tiles (s : State) (n : Nat) (f : Link → Link) : (s.modLink n f).tiles = s.tiles := rfl
@[simp] theorem State.modLink_maq (s : State) (n : Nat) (f : Link → Link) : (s.modLink n f).maq = s.maq := rfl
@[simp] theorem State.modLink_chisel (s : State) (n : Nat) (f : Link → Link) : (s.modLink n f).chisel = s.chisel := rfl
@[simp] theorem State.modLink_contain (s : State) (n : Nat) (f : Link → Link) : (s.modLink n f).contain = s.contain := rfl
@[simp] theorem State.modLink_heat (s : State) (n : Nat) (f : Link → Link) : (s.modLink n f).heat = s.heat := rfl
@[simp] theorem State.modLink_stack (s : State) (n : Nat) (f : Link → Link) : (s.modLink n f).stack = s.stack := rfl
@[simp] theorem State.modLink_cast (s : State) (n : Nat) (f : Link → Link) : (s.modLink n f).cast = s.cast := rfl
@[simp] theorem State.modLink_digest (s : State) (n : Nat) (f : Link → Link) : (s.modLink n f).digest = s.digest := rfl
@[simp] theorem State.modLink_dbg (s : State) (n : Nat) (f : Link → Link) : (s.modLink n f).dbg = s.dbg := rfl
@[simp] theorem State.modLink_hostMem (s : State) (n : Nat) (f : Link → Link) : (s.modLink n f).hostMem = s.hostMem := rfl
@[simp] theorem State.modLink_fatalN (s : State) (n : Nat) (f : Link → Link) : (s.modLink n f).fatalN = s.fatalN := rfl
@[simp] theorem State.modLink_tripN (s : State) (n : Nat) (f : Link → Link) : (s.modLink n f).tripN = s.tripN := rfl
@[simp] theorem State.modLink_nv (s : State) (n : Nat) (f : Link → Link) : (s.modLink n f).nv = s.nv := rfl
@[simp] theorem State.modLink_free (s : State) (n : Nat) (f : Link → Link) : (s.modLink n f).free = s.free := rfl
@[simp] theorem State.modLink_status (s : State) (n : Nat) (f : Link → Link) : (s.modLink n f).status = s.status := rfl
@[simp] theorem State.modLink_pending (s : State) (n : Nat) (f : Link → Link) : (s.modLink n f).pending = s.pending := rfl

/-! ### modSensor -/

@[simp] theorem State.modSensor_life (s : State) (n : Nat) (f : Sensor → Sensor) : (s.modSensor n f).life = s.life := rfl
@[simp] theorem State.modSensor_time (s : State) (n : Nat) (f : Sensor → Sensor) : (s.modSensor n f).time = s.time := rfl
@[simp] theorem State.modSensor_regs (s : State) (n : Nat) (f : Sensor → Sensor) : (s.modSensor n f).regs = s.regs := rfl
@[simp] theorem State.modSensor_force (s : State) (n : Nat) (f : Sensor → Sensor) : (s.modSensor n f).force = s.force := rfl
@[simp] theorem State.modSensor_therm (s : State) (n : Nat) (f : Sensor → Sensor) : (s.modSensor n f).therm = s.therm := rfl
@[simp] theorem State.modSensor_latches (s : State) (n : Nat) (f : Sensor → Sensor) : (s.modSensor n f).latches = s.latches := rfl
@[simp] theorem State.modSensor_data (s : State) (n : Nat) (f : Sensor → Sensor) : (s.modSensor n f).data = s.data := rfl
@[simp] theorem State.modSensor_ev (s : State) (n : Nat) (f : Sensor → Sensor) : (s.modSensor n f).ev = s.ev := rfl
@[simp] theorem State.modSensor_ord (s : State) (n : Nat) (f : Sensor → Sensor) : (s.modSensor n f).ord = s.ord := rfl
@[simp] theorem State.modSensor_arm (s : State) (n : Nat) (f : Sensor → Sensor) : (s.modSensor n f).arm = s.arm := rfl
@[simp] theorem State.modSensor_map (s : State) (n : Nat) (f : Sensor → Sensor) : (s.modSensor n f).map = s.map := rfl
@[simp] theorem State.modSensor_tiles (s : State) (n : Nat) (f : Sensor → Sensor) : (s.modSensor n f).tiles = s.tiles := rfl
@[simp] theorem State.modSensor_maq (s : State) (n : Nat) (f : Sensor → Sensor) : (s.modSensor n f).maq = s.maq := rfl
@[simp] theorem State.modSensor_chisel (s : State) (n : Nat) (f : Sensor → Sensor) : (s.modSensor n f).chisel = s.chisel := rfl
@[simp] theorem State.modSensor_contain (s : State) (n : Nat) (f : Sensor → Sensor) : (s.modSensor n f).contain = s.contain := rfl
@[simp] theorem State.modSensor_stack (s : State) (n : Nat) (f : Sensor → Sensor) : (s.modSensor n f).stack = s.stack := rfl
@[simp] theorem State.modSensor_cast (s : State) (n : Nat) (f : Sensor → Sensor) : (s.modSensor n f).cast = s.cast := rfl
@[simp] theorem State.modSensor_digest (s : State) (n : Nat) (f : Sensor → Sensor) : (s.modSensor n f).digest = s.digest := rfl
@[simp] theorem State.modSensor_dbg (s : State) (n : Nat) (f : Sensor → Sensor) : (s.modSensor n f).dbg = s.dbg := rfl
@[simp] theorem State.modSensor_links (s : State) (n : Nat) (f : Sensor → Sensor) : (s.modSensor n f).links = s.links := rfl
@[simp] theorem State.modSensor_hostMem (s : State) (n : Nat) (f : Sensor → Sensor) : (s.modSensor n f).hostMem = s.hostMem := rfl
@[simp] theorem State.modSensor_fatalN (s : State) (n : Nat) (f : Sensor → Sensor) : (s.modSensor n f).fatalN = s.fatalN := rfl
@[simp] theorem State.modSensor_tripN (s : State) (n : Nat) (f : Sensor → Sensor) : (s.modSensor n f).tripN = s.tripN := rfl
@[simp] theorem State.modSensor_nv (s : State) (n : Nat) (f : Sensor → Sensor) : (s.modSensor n f).nv = s.nv := rfl
@[simp] theorem State.modSensor_free (s : State) (n : Nat) (f : Sensor → Sensor) : (s.modSensor n f).free = s.free := rfl
@[simp] theorem State.modSensor_status (s : State) (n : Nat) (f : Sensor → Sensor) : (s.modSensor n f).status = s.status := rfl
@[simp] theorem State.modSensor_pending (s : State) (n : Nat) (f : Sensor → Sensor) : (s.modSensor n f).pending = s.pending := rfl

/-! ### modRegion -/

@[simp] theorem State.modRegion_life (s : State) (g : Nat) (f : Throttle → Throttle) : (s.modRegion g f).life = s.life := rfl
@[simp] theorem State.modRegion_time (s : State) (g : Nat) (f : Throttle → Throttle) : (s.modRegion g f).time = s.time := rfl
@[simp] theorem State.modRegion_regs (s : State) (g : Nat) (f : Throttle → Throttle) : (s.modRegion g f).regs = s.regs := rfl
@[simp] theorem State.modRegion_force (s : State) (g : Nat) (f : Throttle → Throttle) : (s.modRegion g f).force = s.force := rfl
@[simp] theorem State.modRegion_therm (s : State) (g : Nat) (f : Throttle → Throttle) : (s.modRegion g f).therm = s.therm := rfl
@[simp] theorem State.modRegion_latches (s : State) (g : Nat) (f : Throttle → Throttle) : (s.modRegion g f).latches = s.latches := rfl
@[simp] theorem State.modRegion_data (s : State) (g : Nat) (f : Throttle → Throttle) : (s.modRegion g f).data = s.data := rfl
@[simp] theorem State.modRegion_ev (s : State) (g : Nat) (f : Throttle → Throttle) : (s.modRegion g f).ev = s.ev := rfl
@[simp] theorem State.modRegion_ord (s : State) (g : Nat) (f : Throttle → Throttle) : (s.modRegion g f).ord = s.ord := rfl
@[simp] theorem State.modRegion_arm (s : State) (g : Nat) (f : Throttle → Throttle) : (s.modRegion g f).arm = s.arm := rfl
@[simp] theorem State.modRegion_map (s : State) (g : Nat) (f : Throttle → Throttle) : (s.modRegion g f).map = s.map := rfl
@[simp] theorem State.modRegion_tiles (s : State) (g : Nat) (f : Throttle → Throttle) : (s.modRegion g f).tiles = s.tiles := rfl
@[simp] theorem State.modRegion_maq (s : State) (g : Nat) (f : Throttle → Throttle) : (s.modRegion g f).maq = s.maq := rfl
@[simp] theorem State.modRegion_chisel (s : State) (g : Nat) (f : Throttle → Throttle) : (s.modRegion g f).chisel = s.chisel := rfl
@[simp] theorem State.modRegion_contain (s : State) (g : Nat) (f : Throttle → Throttle) : (s.modRegion g f).contain = s.contain := rfl
@[simp] theorem State.modRegion_stack (s : State) (g : Nat) (f : Throttle → Throttle) : (s.modRegion g f).stack = s.stack := rfl
@[simp] theorem State.modRegion_cast (s : State) (g : Nat) (f : Throttle → Throttle) : (s.modRegion g f).cast = s.cast := rfl
@[simp] theorem State.modRegion_digest (s : State) (g : Nat) (f : Throttle → Throttle) : (s.modRegion g f).digest = s.digest := rfl
@[simp] theorem State.modRegion_dbg (s : State) (g : Nat) (f : Throttle → Throttle) : (s.modRegion g f).dbg = s.dbg := rfl
@[simp] theorem State.modRegion_links (s : State) (g : Nat) (f : Throttle → Throttle) : (s.modRegion g f).links = s.links := rfl
@[simp] theorem State.modRegion_hostMem (s : State) (g : Nat) (f : Throttle → Throttle) : (s.modRegion g f).hostMem = s.hostMem := rfl
@[simp] theorem State.modRegion_fatalN (s : State) (g : Nat) (f : Throttle → Throttle) : (s.modRegion g f).fatalN = s.fatalN := rfl
@[simp] theorem State.modRegion_tripN (s : State) (g : Nat) (f : Throttle → Throttle) : (s.modRegion g f).tripN = s.tripN := rfl
@[simp] theorem State.modRegion_nv (s : State) (g : Nat) (f : Throttle → Throttle) : (s.modRegion g f).nv = s.nv := rfl
@[simp] theorem State.modRegion_free (s : State) (g : Nat) (f : Throttle → Throttle) : (s.modRegion g f).free = s.free := rfl
@[simp] theorem State.modRegion_status (s : State) (g : Nat) (f : Throttle → Throttle) : (s.modRegion g f).status = s.status := rfl
@[simp] theorem State.modRegion_pending (s : State) (g : Nat) (f : Throttle → Throttle) : (s.modRegion g f).pending = s.pending := rfl

/-! ### setSession -/

@[simp] theorem State.setSession_life (s : State) (k : Nat) (x : Option Session) : (s.setSession k x).life = s.life := rfl
@[simp] theorem State.setSession_time (s : State) (k : Nat) (x : Option Session) : (s.setSession k x).time = s.time := rfl
@[simp] theorem State.setSession_regs (s : State) (k : Nat) (x : Option Session) : (s.setSession k x).regs = s.regs := rfl
@[simp] theorem State.setSession_force (s : State) (k : Nat) (x : Option Session) : (s.setSession k x).force = s.force := rfl
@[simp] theorem State.setSession_therm (s : State) (k : Nat) (x : Option Session) : (s.setSession k x).therm = s.therm := rfl
@[simp] theorem State.setSession_latches (s : State) (k : Nat) (x : Option Session) : (s.setSession k x).latches = s.latches := rfl
@[simp] theorem State.setSession_data (s : State) (k : Nat) (x : Option Session) : (s.setSession k x).data = s.data := rfl
@[simp] theorem State.setSession_ev (s : State) (k : Nat) (x : Option Session) : (s.setSession k x).ev = s.ev := rfl
@[simp] theorem State.setSession_ord (s : State) (k : Nat) (x : Option Session) : (s.setSession k x).ord = s.ord := rfl
@[simp] theorem State.setSession_arm (s : State) (k : Nat) (x : Option Session) : (s.setSession k x).arm = s.arm := rfl
@[simp] theorem State.setSession_map (s : State) (k : Nat) (x : Option Session) : (s.setSession k x).map = s.map := rfl
@[simp] theorem State.setSession_tiles (s : State) (k : Nat) (x : Option Session) : (s.setSession k x).tiles = s.tiles := rfl
@[simp] theorem State.setSession_chisel (s : State) (k : Nat) (x : Option Session) : (s.setSession k x).chisel = s.chisel := rfl
@[simp] theorem State.setSession_contain (s : State) (k : Nat) (x : Option Session) : (s.setSession k x).contain = s.contain := rfl
@[simp] theorem State.setSession_heat (s : State) (k : Nat) (x : Option Session) : (s.setSession k x).heat = s.heat := rfl
@[simp] theorem State.setSession_stack (s : State) (k : Nat) (x : Option Session) : (s.setSession k x).stack = s.stack := rfl
@[simp] theorem State.setSession_cast (s : State) (k : Nat) (x : Option Session) : (s.setSession k x).cast = s.cast := rfl
@[simp] theorem State.setSession_digest (s : State) (k : Nat) (x : Option Session) : (s.setSession k x).digest = s.digest := rfl
@[simp] theorem State.setSession_dbg (s : State) (k : Nat) (x : Option Session) : (s.setSession k x).dbg = s.dbg := rfl
@[simp] theorem State.setSession_links (s : State) (k : Nat) (x : Option Session) : (s.setSession k x).links = s.links := rfl
@[simp] theorem State.setSession_hostMem (s : State) (k : Nat) (x : Option Session) : (s.setSession k x).hostMem = s.hostMem := rfl
@[simp] theorem State.setSession_fatalN (s : State) (k : Nat) (x : Option Session) : (s.setSession k x).fatalN = s.fatalN := rfl
@[simp] theorem State.setSession_tripN (s : State) (k : Nat) (x : Option Session) : (s.setSession k x).tripN = s.tripN := rfl
@[simp] theorem State.setSession_nv (s : State) (k : Nat) (x : Option Session) : (s.setSession k x).nv = s.nv := rfl
@[simp] theorem State.setSession_free (s : State) (k : Nat) (x : Option Session) : (s.setSession k x).free = s.free := rfl
@[simp] theorem State.setSession_status (s : State) (k : Nat) (x : Option Session) : (s.setSession k x).status = s.status := rfl
@[simp] theorem State.setSession_pending (s : State) (k : Nat) (x : Option Session) : (s.setSession k x).pending = s.pending := rfl

/-! ### setSlot -/

@[simp] theorem State.setSlot_life (s : State) (k : Nat) (x : Option Slot) : (s.setSlot k x).life = s.life := rfl
@[simp] theorem State.setSlot_time (s : State) (k : Nat) (x : Option Slot) : (s.setSlot k x).time = s.time := rfl
@[simp] theorem State.setSlot_regs (s : State) (k : Nat) (x : Option Slot) : (s.setSlot k x).regs = s.regs := rfl
@[simp] theorem State.setSlot_force (s : State) (k : Nat) (x : Option Slot) : (s.setSlot k x).force = s.force := rfl
@[simp] theorem State.setSlot_therm (s : State) (k : Nat) (x : Option Slot) : (s.setSlot k x).therm = s.therm := rfl
@[simp] theorem State.setSlot_latches (s : State) (k : Nat) (x : Option Slot) : (s.setSlot k x).latches = s.latches := rfl
@[simp] theorem State.setSlot_data (s : State) (k : Nat) (x : Option Slot) : (s.setSlot k x).data = s.data := rfl
@[simp] theorem State.setSlot_ev (s : State) (k : Nat) (x : Option Slot) : (s.setSlot k x).ev = s.ev := rfl
@[simp] theorem State.setSlot_ord (s : State) (k : Nat) (x : Option Slot) : (s.setSlot k x).ord = s.ord := rfl
@[simp] theorem State.setSlot_arm (s : State) (k : Nat) (x : Option Slot) : (s.setSlot k x).arm = s.arm := rfl
@[simp] theorem State.setSlot_map (s : State) (k : Nat) (x : Option Slot) : (s.setSlot k x).map = s.map := rfl
@[simp] theorem State.setSlot_tiles (s : State) (k : Nat) (x : Option Slot) : (s.setSlot k x).tiles = s.tiles := rfl
@[simp] theorem State.setSlot_maq (s : State) (k : Nat) (x : Option Slot) : (s.setSlot k x).maq = s.maq := rfl
@[simp] theorem State.setSlot_contain (s : State) (k : Nat) (x : Option Slot) : (s.setSlot k x).contain = s.contain := rfl
@[simp] theorem State.setSlot_heat (s : State) (k : Nat) (x : Option Slot) : (s.setSlot k x).heat = s.heat := rfl
@[simp] theorem State.setSlot_stack (s : State) (k : Nat) (x : Option Slot) : (s.setSlot k x).stack = s.stack := rfl
@[simp] theorem State.setSlot_cast (s : State) (k : Nat) (x : Option Slot) : (s.setSlot k x).cast = s.cast := rfl
@[simp] theorem State.setSlot_digest (s : State) (k : Nat) (x : Option Slot) : (s.setSlot k x).digest = s.digest := rfl
@[simp] theorem State.setSlot_dbg (s : State) (k : Nat) (x : Option Slot) : (s.setSlot k x).dbg = s.dbg := rfl
@[simp] theorem State.setSlot_links (s : State) (k : Nat) (x : Option Slot) : (s.setSlot k x).links = s.links := rfl
@[simp] theorem State.setSlot_hostMem (s : State) (k : Nat) (x : Option Slot) : (s.setSlot k x).hostMem = s.hostMem := rfl
@[simp] theorem State.setSlot_fatalN (s : State) (k : Nat) (x : Option Slot) : (s.setSlot k x).fatalN = s.fatalN := rfl
@[simp] theorem State.setSlot_tripN (s : State) (k : Nat) (x : Option Slot) : (s.setSlot k x).tripN = s.tripN := rfl
@[simp] theorem State.setSlot_nv (s : State) (k : Nat) (x : Option Slot) : (s.setSlot k x).nv = s.nv := rfl
@[simp] theorem State.setSlot_free (s : State) (k : Nat) (x : Option Slot) : (s.setSlot k x).free = s.free := rfl
@[simp] theorem State.setSlot_status (s : State) (k : Nat) (x : Option Slot) : (s.setSlot k x).status = s.status := rfl
@[simp] theorem State.setSlot_pending (s : State) (k : Nat) (x : Option Slot) : (s.setSlot k x).pending = s.pending := rfl

/-! ### modDslot -/

@[simp] theorem State.modDslot_life (s : State) (k : Nat) (f : DigSlot → DigSlot) : (s.modDslot k f).life = s.life := rfl
@[simp] theorem State.modDslot_time (s : State) (k : Nat) (f : DigSlot → DigSlot) : (s.modDslot k f).time = s.time := rfl
@[simp] theorem State.modDslot_regs (s : State) (k : Nat) (f : DigSlot → DigSlot) : (s.modDslot k f).regs = s.regs := rfl
@[simp] theorem State.modDslot_force (s : State) (k : Nat) (f : DigSlot → DigSlot) : (s.modDslot k f).force = s.force := rfl
@[simp] theorem State.modDslot_therm (s : State) (k : Nat) (f : DigSlot → DigSlot) : (s.modDslot k f).therm = s.therm := rfl
@[simp] theorem State.modDslot_latches (s : State) (k : Nat) (f : DigSlot → DigSlot) : (s.modDslot k f).latches = s.latches := rfl
@[simp] theorem State.modDslot_data (s : State) (k : Nat) (f : DigSlot → DigSlot) : (s.modDslot k f).data = s.data := rfl
@[simp] theorem State.modDslot_ev (s : State) (k : Nat) (f : DigSlot → DigSlot) : (s.modDslot k f).ev = s.ev := rfl
@[simp] theorem State.modDslot_ord (s : State) (k : Nat) (f : DigSlot → DigSlot) : (s.modDslot k f).ord = s.ord := rfl
@[simp] theorem State.modDslot_arm (s : State) (k : Nat) (f : DigSlot → DigSlot) : (s.modDslot k f).arm = s.arm := rfl
@[simp] theorem State.modDslot_map (s : State) (k : Nat) (f : DigSlot → DigSlot) : (s.modDslot k f).map = s.map := rfl
@[simp] theorem State.modDslot_tiles (s : State) (k : Nat) (f : DigSlot → DigSlot) : (s.modDslot k f).tiles = s.tiles := rfl
@[simp] theorem State.modDslot_maq (s : State) (k : Nat) (f : DigSlot → DigSlot) : (s.modDslot k f).maq = s.maq := rfl
@[simp] theorem State.modDslot_chisel (s : State) (k : Nat) (f : DigSlot → DigSlot) : (s.modDslot k f).chisel = s.chisel := rfl
@[simp] theorem State.modDslot_contain (s : State) (k : Nat) (f : DigSlot → DigSlot) : (s.modDslot k f).contain = s.contain := rfl
@[simp] theorem State.modDslot_heat (s : State) (k : Nat) (f : DigSlot → DigSlot) : (s.modDslot k f).heat = s.heat := rfl
@[simp] theorem State.modDslot_stack (s : State) (k : Nat) (f : DigSlot → DigSlot) : (s.modDslot k f).stack = s.stack := rfl
@[simp] theorem State.modDslot_cast (s : State) (k : Nat) (f : DigSlot → DigSlot) : (s.modDslot k f).cast = s.cast := rfl
@[simp] theorem State.modDslot_dbg (s : State) (k : Nat) (f : DigSlot → DigSlot) : (s.modDslot k f).dbg = s.dbg := rfl
@[simp] theorem State.modDslot_links (s : State) (k : Nat) (f : DigSlot → DigSlot) : (s.modDslot k f).links = s.links := rfl
@[simp] theorem State.modDslot_hostMem (s : State) (k : Nat) (f : DigSlot → DigSlot) : (s.modDslot k f).hostMem = s.hostMem := rfl
@[simp] theorem State.modDslot_fatalN (s : State) (k : Nat) (f : DigSlot → DigSlot) : (s.modDslot k f).fatalN = s.fatalN := rfl
@[simp] theorem State.modDslot_tripN (s : State) (k : Nat) (f : DigSlot → DigSlot) : (s.modDslot k f).tripN = s.tripN := rfl
@[simp] theorem State.modDslot_nv (s : State) (k : Nat) (f : DigSlot → DigSlot) : (s.modDslot k f).nv = s.nv := rfl
@[simp] theorem State.modDslot_free (s : State) (k : Nat) (f : DigSlot → DigSlot) : (s.modDslot k f).free = s.free := rfl
@[simp] theorem State.modDslot_status (s : State) (k : Nat) (f : DigSlot → DigSlot) : (s.modDslot k f).status = s.status := rfl
@[simp] theorem State.modDslot_pending (s : State) (k : Nat) (f : DigSlot → DigSlot) : (s.modDslot k f).pending = s.pending := rfl

/-! ### modWset -/

@[simp] theorem State.modWset_life (s : State) (w : Nat) (f : WSet → WSet) : (s.modWset w f).life = s.life := rfl
@[simp] theorem State.modWset_time (s : State) (w : Nat) (f : WSet → WSet) : (s.modWset w f).time = s.time := rfl
@[simp] theorem State.modWset_regs (s : State) (w : Nat) (f : WSet → WSet) : (s.modWset w f).regs = s.regs := rfl
@[simp] theorem State.modWset_force (s : State) (w : Nat) (f : WSet → WSet) : (s.modWset w f).force = s.force := rfl
@[simp] theorem State.modWset_therm (s : State) (w : Nat) (f : WSet → WSet) : (s.modWset w f).therm = s.therm := rfl
@[simp] theorem State.modWset_latches (s : State) (w : Nat) (f : WSet → WSet) : (s.modWset w f).latches = s.latches := rfl
@[simp] theorem State.modWset_data (s : State) (w : Nat) (f : WSet → WSet) : (s.modWset w f).data = s.data := rfl
@[simp] theorem State.modWset_ev (s : State) (w : Nat) (f : WSet → WSet) : (s.modWset w f).ev = s.ev := rfl
@[simp] theorem State.modWset_ord (s : State) (w : Nat) (f : WSet → WSet) : (s.modWset w f).ord = s.ord := rfl
@[simp] theorem State.modWset_arm (s : State) (w : Nat) (f : WSet → WSet) : (s.modWset w f).arm = s.arm := rfl
@[simp] theorem State.modWset_map (s : State) (w : Nat) (f : WSet → WSet) : (s.modWset w f).map = s.map := rfl
@[simp] theorem State.modWset_tiles (s : State) (w : Nat) (f : WSet → WSet) : (s.modWset w f).tiles = s.tiles := rfl
@[simp] theorem State.modWset_maq (s : State) (w : Nat) (f : WSet → WSet) : (s.modWset w f).maq = s.maq := rfl
@[simp] theorem State.modWset_chisel (s : State) (w : Nat) (f : WSet → WSet) : (s.modWset w f).chisel = s.chisel := rfl
@[simp] theorem State.modWset_contain (s : State) (w : Nat) (f : WSet → WSet) : (s.modWset w f).contain = s.contain := rfl
@[simp] theorem State.modWset_heat (s : State) (w : Nat) (f : WSet → WSet) : (s.modWset w f).heat = s.heat := rfl
@[simp] theorem State.modWset_stack (s : State) (w : Nat) (f : WSet → WSet) : (s.modWset w f).stack = s.stack := rfl
@[simp] theorem State.modWset_cast (s : State) (w : Nat) (f : WSet → WSet) : (s.modWset w f).cast = s.cast := rfl
@[simp] theorem State.modWset_dbg (s : State) (w : Nat) (f : WSet → WSet) : (s.modWset w f).dbg = s.dbg := rfl
@[simp] theorem State.modWset_links (s : State) (w : Nat) (f : WSet → WSet) : (s.modWset w f).links = s.links := rfl
@[simp] theorem State.modWset_hostMem (s : State) (w : Nat) (f : WSet → WSet) : (s.modWset w f).hostMem = s.hostMem := rfl
@[simp] theorem State.modWset_fatalN (s : State) (w : Nat) (f : WSet → WSet) : (s.modWset w f).fatalN = s.fatalN := rfl
@[simp] theorem State.modWset_tripN (s : State) (w : Nat) (f : WSet → WSet) : (s.modWset w f).tripN = s.tripN := rfl
@[simp] theorem State.modWset_nv (s : State) (w : Nat) (f : WSet → WSet) : (s.modWset w f).nv = s.nv := rfl
@[simp] theorem State.modWset_free (s : State) (w : Nat) (f : WSet → WSet) : (s.modWset w f).free = s.free := rfl
@[simp] theorem State.modWset_status (s : State) (w : Nat) (f : WSet → WSet) : (s.modWset w f).status = s.status := rfl
@[simp] theorem State.modWset_pending (s : State) (w : Nat) (f : WSet → WSet) : (s.modWset w f).pending = s.pending := rfl

/-! ### modOrder -/

@[simp] theorem State.modOrder_life (s : State) (id : Nat) (f : OrderRec → OrderRec) : (s.modOrder id f).life = s.life := rfl
@[simp] theorem State.modOrder_time (s : State) (id : Nat) (f : OrderRec → OrderRec) : (s.modOrder id f).time = s.time := rfl
@[simp] theorem State.modOrder_regs (s : State) (id : Nat) (f : OrderRec → OrderRec) : (s.modOrder id f).regs = s.regs := rfl
@[simp] theorem State.modOrder_force (s : State) (id : Nat) (f : OrderRec → OrderRec) : (s.modOrder id f).force = s.force := rfl
@[simp] theorem State.modOrder_therm (s : State) (id : Nat) (f : OrderRec → OrderRec) : (s.modOrder id f).therm = s.therm := rfl
@[simp] theorem State.modOrder_latches (s : State) (id : Nat) (f : OrderRec → OrderRec) : (s.modOrder id f).latches = s.latches := rfl
@[simp] theorem State.modOrder_data (s : State) (id : Nat) (f : OrderRec → OrderRec) : (s.modOrder id f).data = s.data := rfl
@[simp] theorem State.modOrder_ev (s : State) (id : Nat) (f : OrderRec → OrderRec) : (s.modOrder id f).ev = s.ev := rfl
@[simp] theorem State.modOrder_arm (s : State) (id : Nat) (f : OrderRec → OrderRec) : (s.modOrder id f).arm = s.arm := rfl
@[simp] theorem State.modOrder_map (s : State) (id : Nat) (f : OrderRec → OrderRec) : (s.modOrder id f).map = s.map := rfl
@[simp] theorem State.modOrder_tiles (s : State) (id : Nat) (f : OrderRec → OrderRec) : (s.modOrder id f).tiles = s.tiles := rfl
@[simp] theorem State.modOrder_maq (s : State) (id : Nat) (f : OrderRec → OrderRec) : (s.modOrder id f).maq = s.maq := rfl
@[simp] theorem State.modOrder_chisel (s : State) (id : Nat) (f : OrderRec → OrderRec) : (s.modOrder id f).chisel = s.chisel := rfl
@[simp] theorem State.modOrder_contain (s : State) (id : Nat) (f : OrderRec → OrderRec) : (s.modOrder id f).contain = s.contain := rfl
@[simp] theorem State.modOrder_heat (s : State) (id : Nat) (f : OrderRec → OrderRec) : (s.modOrder id f).heat = s.heat := rfl
@[simp] theorem State.modOrder_stack (s : State) (id : Nat) (f : OrderRec → OrderRec) : (s.modOrder id f).stack = s.stack := rfl
@[simp] theorem State.modOrder_cast (s : State) (id : Nat) (f : OrderRec → OrderRec) : (s.modOrder id f).cast = s.cast := rfl
@[simp] theorem State.modOrder_digest (s : State) (id : Nat) (f : OrderRec → OrderRec) : (s.modOrder id f).digest = s.digest := rfl
@[simp] theorem State.modOrder_dbg (s : State) (id : Nat) (f : OrderRec → OrderRec) : (s.modOrder id f).dbg = s.dbg := rfl
@[simp] theorem State.modOrder_links (s : State) (id : Nat) (f : OrderRec → OrderRec) : (s.modOrder id f).links = s.links := rfl
@[simp] theorem State.modOrder_hostMem (s : State) (id : Nat) (f : OrderRec → OrderRec) : (s.modOrder id f).hostMem = s.hostMem := rfl
@[simp] theorem State.modOrder_fatalN (s : State) (id : Nat) (f : OrderRec → OrderRec) : (s.modOrder id f).fatalN = s.fatalN := rfl
@[simp] theorem State.modOrder_tripN (s : State) (id : Nat) (f : OrderRec → OrderRec) : (s.modOrder id f).tripN = s.tripN := rfl
@[simp] theorem State.modOrder_nv (s : State) (id : Nat) (f : OrderRec → OrderRec) : (s.modOrder id f).nv = s.nv := rfl
@[simp] theorem State.modOrder_free (s : State) (id : Nat) (f : OrderRec → OrderRec) : (s.modOrder id f).free = s.free := rfl
@[simp] theorem State.modOrder_status (s : State) (id : Nat) (f : OrderRec → OrderRec) : (s.modOrder id f).status = s.status := rfl
@[simp] theorem State.modOrder_pending (s : State) (id : Nat) (f : OrderRec → OrderRec) : (s.modOrder id f).pending = s.pending := rfl

/-! ### raise -/

@[simp] theorem State.raise_life (s : State) (r : EvRec) : (s.raise r).life = s.life := rfl
@[simp] theorem State.raise_time (s : State) (r : EvRec) : (s.raise r).time = s.time := rfl
@[simp] theorem State.raise_regs (s : State) (r : EvRec) : (s.raise r).regs = s.regs := rfl
@[simp] theorem State.raise_force (s : State) (r : EvRec) : (s.raise r).force = s.force := rfl
@[simp] theorem State.raise_therm (s : State) (r : EvRec) : (s.raise r).therm = s.therm := rfl
@[simp] theorem State.raise_latches (s : State) (r : EvRec) : (s.raise r).latches = s.latches := rfl
@[simp] theorem State.raise_data (s : State) (r : EvRec) : (s.raise r).data = s.data := rfl
@[simp] theorem State.raise_ord (s : State) (r : EvRec) : (s.raise r).ord = s.ord := rfl
@[simp] theorem State.raise_arm (s : State) (r : EvRec) : (s.raise r).arm = s.arm := rfl
@[simp] theorem State.raise_map (s : State) (r : EvRec) : (s.raise r).map = s.map := rfl
@[simp] theorem State.raise_tiles (s : State) (r : EvRec) : (s.raise r).tiles = s.tiles := rfl
@[simp] theorem State.raise_maq (s : State) (r : EvRec) : (s.raise r).maq = s.maq := rfl
@[simp] theorem State.raise_chisel (s : State) (r : EvRec) : (s.raise r).chisel = s.chisel := rfl
@[simp] theorem State.raise_contain (s : State) (r : EvRec) : (s.raise r).contain = s.contain := rfl
@[simp] theorem State.raise_heat (s : State) (r : EvRec) : (s.raise r).heat = s.heat := rfl
@[simp] theorem State.raise_stack (s : State) (r : EvRec) : (s.raise r).stack = s.stack := rfl
@[simp] theorem State.raise_cast (s : State) (r : EvRec) : (s.raise r).cast = s.cast := rfl
@[simp] theorem State.raise_digest (s : State) (r : EvRec) : (s.raise r).digest = s.digest := rfl
@[simp] theorem State.raise_dbg (s : State) (r : EvRec) : (s.raise r).dbg = s.dbg := rfl
@[simp] theorem State.raise_links (s : State) (r : EvRec) : (s.raise r).links = s.links := rfl
@[simp] theorem State.raise_hostMem (s : State) (r : EvRec) : (s.raise r).hostMem = s.hostMem := rfl
@[simp] theorem State.raise_fatalN (s : State) (r : EvRec) : (s.raise r).fatalN = s.fatalN := rfl
@[simp] theorem State.raise_tripN (s : State) (r : EvRec) : (s.raise r).tripN = s.tripN := rfl
@[simp] theorem State.raise_nv (s : State) (r : EvRec) : (s.raise r).nv = s.nv := rfl
@[simp] theorem State.raise_free (s : State) (r : EvRec) : (s.raise r).free = s.free := rfl
@[simp] theorem State.raise_status (s : State) (r : EvRec) : (s.raise r).status = s.status := rfl
@[simp] theorem State.raise_pending (s : State) (r : EvRec) : (s.raise r).pending = s.pending := rfl

/-! ### hostWrite -/

@[simp] theorem State.hostWrite_life (s : State) (a : Nat) (bs : List Byte) : (s.hostWrite a bs).life = s.life := rfl
@[simp] theorem State.hostWrite_time (s : State) (a : Nat) (bs : List Byte) : (s.hostWrite a bs).time = s.time := rfl
@[simp] theorem State.hostWrite_regs (s : State) (a : Nat) (bs : List Byte) : (s.hostWrite a bs).regs = s.regs := rfl
@[simp] theorem State.hostWrite_force (s : State) (a : Nat) (bs : List Byte) : (s.hostWrite a bs).force = s.force := rfl
@[simp] theorem State.hostWrite_therm (s : State) (a : Nat) (bs : List Byte) : (s.hostWrite a bs).therm = s.therm := rfl
@[simp] theorem State.hostWrite_latches (s : State) (a : Nat) (bs : List Byte) : (s.hostWrite a bs).latches = s.latches := rfl
@[simp] theorem State.hostWrite_data (s : State) (a : Nat) (bs : List Byte) : (s.hostWrite a bs).data = s.data := rfl
@[simp] theorem State.hostWrite_ev (s : State) (a : Nat) (bs : List Byte) : (s.hostWrite a bs).ev = s.ev := rfl
@[simp] theorem State.hostWrite_ord (s : State) (a : Nat) (bs : List Byte) : (s.hostWrite a bs).ord = s.ord := rfl
@[simp] theorem State.hostWrite_arm (s : State) (a : Nat) (bs : List Byte) : (s.hostWrite a bs).arm = s.arm := rfl
@[simp] theorem State.hostWrite_map (s : State) (a : Nat) (bs : List Byte) : (s.hostWrite a bs).map = s.map := rfl
@[simp] theorem State.hostWrite_tiles (s : State) (a : Nat) (bs : List Byte) : (s.hostWrite a bs).tiles = s.tiles := rfl
@[simp] theorem State.hostWrite_maq (s : State) (a : Nat) (bs : List Byte) : (s.hostWrite a bs).maq = s.maq := rfl
@[simp] theorem State.hostWrite_chisel (s : State) (a : Nat) (bs : List Byte) : (s.hostWrite a bs).chisel = s.chisel := rfl
@[simp] theorem State.hostWrite_contain (s : State) (a : Nat) (bs : List Byte) : (s.hostWrite a bs).contain = s.contain := rfl
@[simp] theorem State.hostWrite_heat (s : State) (a : Nat) (bs : List Byte) : (s.hostWrite a bs).heat = s.heat := rfl
@[simp] theorem State.hostWrite_stack (s : State) (a : Nat) (bs : List Byte) : (s.hostWrite a bs).stack = s.stack := rfl
@[simp] theorem State.hostWrite_cast (s : State) (a : Nat) (bs : List Byte) : (s.hostWrite a bs).cast = s.cast := rfl
@[simp] theorem State.hostWrite_digest (s : State) (a : Nat) (bs : List Byte) : (s.hostWrite a bs).digest = s.digest := rfl
@[simp] theorem State.hostWrite_dbg (s : State) (a : Nat) (bs : List Byte) : (s.hostWrite a bs).dbg = s.dbg := rfl
@[simp] theorem State.hostWrite_links (s : State) (a : Nat) (bs : List Byte) : (s.hostWrite a bs).links = s.links := rfl
@[simp] theorem State.hostWrite_fatalN (s : State) (a : Nat) (bs : List Byte) : (s.hostWrite a bs).fatalN = s.fatalN := rfl
@[simp] theorem State.hostWrite_tripN (s : State) (a : Nat) (bs : List Byte) : (s.hostWrite a bs).tripN = s.tripN := rfl
@[simp] theorem State.hostWrite_nv (s : State) (a : Nat) (bs : List Byte) : (s.hostWrite a bs).nv = s.nv := rfl
@[simp] theorem State.hostWrite_free (s : State) (a : Nat) (bs : List Byte) : (s.hostWrite a bs).free = s.free := rfl
@[simp] theorem State.hostWrite_status (s : State) (a : Nat) (bs : List Byte) : (s.hostWrite a bs).status = s.status := rfl
@[simp] theorem State.hostWrite_pending (s : State) (a : Nat) (bs : List Byte) : (s.hostWrite a bs).pending = s.pending := rfl

/-! ### Reading a register -/

@[simp] theorem State.reg_setReg_self (s : State) (k : Nat) (v : Word) : (s.setReg k v).reg k = v :=
  tget_tset_self _ _ _ _

theorem State.reg_setReg_ne (s : State) {k j : Nat} (v : Word) (h : j ≠ k) : (s.setReg k v).reg j = s.reg j :=
  tget_tset_ne _ _ _ _ h

theorem State.reg_setReg (s : State) (k j : Nat) (v : Word) :
    (s.setReg k v).reg j = if j = k then v else s.reg j := by
  split
  · rename_i h; rw [h, State.reg_setReg_self]
  · rename_i h; exact State.reg_setReg_ne s v h

/-- Two states with the same registers read the same. -/
theorem State.reg_of_regs {s t : State} (h : t.regs = s.regs) (k : Nat) : t.reg k = s.reg k := by
  unfold State.reg; rw [h]

theorem State.reg_bump_ne (s : State) {k j : Nat} (n : Nat) (h : j ≠ k) : (s.bump k n).reg j = s.reg j :=
  State.reg_setReg_ne s _ h

/-! ### Reading a tile -/

@[simp] theorem State.tile_setTile_self (s : State) (t : Nat) (x : Tile) : (s.setTile t x).tile t = x :=
  tget_tset_self _ _ _ _

theorem State.tile_setTile_ne (s : State) {t u : Nat} (x : Tile) (h : u ≠ t) : (s.setTile t x).tile u = s.tile u :=
  tget_tset_ne _ _ _ _ h

theorem State.tile_of_tiles {s t : State} (h : t.tiles = s.tiles) (u : Nat) : t.tile u = s.tile u := by
  unfold State.tile; rw [h]

@[simp] theorem State.tile_modTile_self (s : State) (t : Nat) (f : Tile → Tile) :
    (s.modTile t f).tile t = f (s.tile t) := State.tile_setTile_self s t _

theorem State.tile_modTile_ne (s : State) {t u : Nat} (f : Tile → Tile) (h : u ≠ t) :
    (s.modTile t f).tile u = s.tile u := State.tile_setTile_ne s _ h

@[simp] theorem State.tile_modCore_self (s : State) (t : Nat) (f : Core → Core) :
    (s.modCore t f).tile t = { s.tile t with core := f (s.tile t).core } := State.tile_modTile_self s t _

theorem State.tile_modCore_ne (s : State) {t u : Nat} (f : Core → Core) (h : u ≠ t) :
    (s.modCore t f).tile u = s.tile u := State.tile_modTile_ne s _ h

@[simp] theorem State.tile_modMaq_self (s : State) (t : Nat) (f : MaqTile → MaqTile) :
    (s.modMaq t f).tile t = { s.tile t with maq := f (s.tile t).maq } := State.tile_modTile_self s t _

theorem State.tile_modMaq_ne (s : State) {t u : Nat} (f : MaqTile → MaqTile) (h : u ≠ t) :
    (s.modMaq t f).tile u = s.tile u := State.tile_modTile_ne s _ h

@[simp] theorem State.tile_modChisel_self (s : State) (t : Nat) (f : ChiselTile → ChiselTile) :
    (s.modChisel t f).tile t = { s.tile t with chisel := f (s.tile t).chisel } := State.tile_modTile_self s t _

theorem State.tile_modChisel_ne (s : State) {t u : Nat} (f : ChiselTile → ChiselTile) (h : u ≠ t) :
    (s.modChisel t f).tile u = s.tile u := State.tile_modTile_ne s _ h

@[simp] theorem State.tile_modPat_self (s : State) (t : Nat) (f : PatTile → PatTile) :
    (s.modPat t f).tile t = { s.tile t with pat := f (s.tile t).pat } := State.tile_modTile_self s t _

theorem State.tile_modPat_ne (s : State) {t u : Nat} (f : PatTile → PatTile) (h : u ≠ t) :
    (s.modPat t f).tile u = s.tile u := State.tile_modTile_ne s _ h

@[simp] theorem State.tile_modPage_self (s : State) (t : Nat) (f : TilePage → TilePage) :
    (s.modPage t f).tile t = { s.tile t with page := f (s.tile t).page } := State.tile_modTile_self s t _

theorem State.tile_modPage_ne (s : State) {t u : Nat} (f : TilePage → TilePage) (h : u ≠ t) :
    (s.modPage t f).tile u = s.tile u := State.tile_modTile_ne s _ h

/-! ### Reading another numbered part -/

@[simp] theorem State.link_modLink_self (s : State) (n : Nat) (f : Link → Link) :
    (s.modLink n f).link n = f (s.link n) := tget_tset_self _ _ _ _

theorem State.link_modLink_ne (s : State) {n j : Nat} (f : Link → Link) (h : j ≠ n) :
    (s.modLink n f).link j = s.link j := tget_tset_ne _ _ _ _ h

@[simp] theorem State.sensor_modSensor_self (s : State) (n : Nat) (f : Sensor → Sensor) :
    (s.modSensor n f).sensor n = f (s.sensor n) := tget_tset_self _ _ _ _

theorem State.sensor_modSensor_ne (s : State) {n j : Nat} (f : Sensor → Sensor) (h : j ≠ n) :
    (s.modSensor n f).sensor j = s.sensor j := tget_tset_ne _ _ _ _ h

@[simp] theorem State.region_modRegion_self (s : State) (n : Nat) (f : Throttle → Throttle) :
    (s.modRegion n f).region n = f (s.region n) := tget_tset_self _ _ _ _

theorem State.region_modRegion_ne (s : State) {n j : Nat} (f : Throttle → Throttle) (h : j ≠ n) :
    (s.modRegion n f).region j = s.region j := tget_tset_ne _ _ _ _ h

@[simp] theorem State.session_setSession_self (s : State) (n : Nat) (x : Option Session) :
    (s.setSession n x).session n = x := tget_tset_self _ _ _ _

theorem State.session_setSession_ne (s : State) {n j : Nat} (x : Option Session) (h : j ≠ n) :
    (s.setSession n x).session j = s.session j := tget_tset_ne _ _ _ _ h

@[simp] theorem State.slot_setSlot_self (s : State) (n : Nat) (x : Option Slot) :
    (s.setSlot n x).slot n = x := tget_tset_self _ _ _ _

theorem State.slot_setSlot_ne (s : State) {n j : Nat} (x : Option Slot) (h : j ≠ n) :
    (s.setSlot n x).slot j = s.slot j := tget_tset_ne _ _ _ _ h

@[simp] theorem State.dslot_modDslot_self (s : State) (n : Nat) (f : DigSlot → DigSlot) :
    (s.modDslot n f).dslot n = f (s.dslot n) := tget_tset_self _ _ _ _

theorem State.dslot_modDslot_ne (s : State) {n j : Nat} (f : DigSlot → DigSlot) (h : j ≠ n) :
    (s.modDslot n f).dslot j = s.dslot j := tget_tset_ne _ _ _ _ h

@[simp] theorem State.wset_modWset_self (s : State) (n : Nat) (f : WSet → WSet) :
    (s.modWset n f).wset n = f (s.wset n) := tget_tset_self _ _ _ _

theorem State.wset_modWset_ne (s : State) {n j : Nat} (f : WSet → WSet) (h : j ≠ n) :
    (s.modWset n f).wset j = s.wset j := tget_tset_ne _ _ _ _ h

/-! ### Command outcomes -/

theorem doWhen_true {c : Bool} {f : State → State} {s : State} (h : c = true) : doWhen c f s = .next (f s) := by
  simp [doWhen, h]

theorem doWhen_false {c : Bool} {f : State → State} {s : State} (h : c = false) : doWhen c f s = .next s := by
  simp [doWhen, h]

end Sys2Proof.Machine
end

