-- ==== Sys2Proof/Laws/Window.lean ====
section
/-! SUPPORT. What an access of the register window does, said once: the denied one, the permitted write of a register,
and the permitted reads; and what OnlyChanges gives. -/

namespace Sys2Proof.Machine

/-! ### Frames -/

theorem OnlyChanges.refl (ps : List Part) (s : State) : OnlyChanges ps s s := fun p _ => by cases p <;> rfl

theorem OnlyChanges.trans {ps : List Part} {a b c : State} (h : OnlyChanges ps a b) (h' : OnlyChanges ps b c) :
    OnlyChanges ps a c := by
  intro p hp
  have h1 := h p hp
  have h2 := h' p hp
  cases p <;> simp only [Same] at * <;> rw [h2, h1]

theorem OnlyChanges.mono {ps qs : List Part} {a b : State} (h : OnlyChanges ps a b) (hs : ps ⊆ qs) : OnlyChanges qs a b :=
  fun p hp => h p fun hq => hp (hs hq)

theorem OnlyRegs.trans {ks : List Nat} {a b c : State} (h : OnlyRegs ks a b) (h' : OnlyRegs ks b c) : OnlyRegs ks a c :=
  fun k hk => (h' k hk).trans (h k hk)

theorem OnlyRegs.of_regs {ks : List Nat} {a b : State} (h : b.regs = a.regs) : OnlyRegs ks a b :=
  fun k _ => State.reg_of_regs h k

theorem OnlyRegs.setReg (s : State) (k : Nat) (v : Word) : OnlyRegs [k] s (s.setReg k v) :=
  fun j hj => State.reg_setReg_ne s v (by simpa using hj)

theorem OnlyRegs.bump (s : State) (k n : Nat) : OnlyRegs [k] s (s.bump k n) := OnlyRegs.setReg s k _

/-- A counter saturates at the bits it counts in. -/
theorem State.reg_bump_self (s : State) (k n : Nat) (h : regMask k < 2 ^ 64) :
    ((s.bump k n).reg k).toNat = min ((s.reg k).toNat + n) (regMask k) := by
  unfold State.bump
  rw [State.reg_setReg_self]
  simp only [word, BitVec.toNat_ofNat]
  exact Nat.mod_eq_of_lt (by omega)

theorem regMask_lt (k : Nat) : regMask k < 2 ^ 64 := by
  unfold regMask
  split
  · exact BitVec.isLt _
  · decide

/-! ### Writes -/

/-- A denied write has no effect but its denial (R19, R386). -/
theorem State.writeAccess_denied (s : State) (m : Requester) (page off size : Nat) (v : Word)
    (ha : accessOk page off size = true) (hw : s.mayWrite m page off = false) :
    s.writeAccess m page off size v = s.deny m true false page off := by
  simp [State.writeAccess, ha, hw]

/-- A permitted write to a live chip acts on its register. -/
theorem State.writeAccess_row (s : State) (m : Requester) (page off size : Nat) (v : Word) (r : RegRow)
    (ha : accessOk page off size = true) (hw : s.mayWrite m page off = true) (hi : writeIgnored page off = false) (hf : s.life.frozen = false)
    (ho : onlyWriter m (page * 0x1000 + (off - off % 8)) = true) (hr : findRow page (off - off % 8) = some r)
    (h10 : 0x010 ≤ off) :
    s.writeAccess m page off size v = s.regWrite m page off size v r := by
  have h10' : ¬ off < 0x010 := by omega
  simp [State.writeAccess, ha, hw, hi, hf, ho, hr, h10']

/-- The same where a frozen chip still lets the write act (R447). -/
theorem State.writeAccess_frozen_row (s : State) (m : Requester) (page off size : Nat) (v : Word) (r : RegRow)
    (ha : accessOk page off size = true) (hw : s.mayWrite m page off = true) (hi : writeIgnored page off = false)
    (hf : frozenWritable page (off - off % 8) = true)
    (ho : onlyWriter m (page * 0x1000 + (off - off % 8)) = true) (hr : findRow page (off - off % 8) = some r)
    (h10 : 0x010 ≤ off) :
    s.writeAccess m page off size v = s.regWrite m page off size v r := by
  have h10' : ¬ off < 0x010 := by omega
  simp [State.writeAccess, ha, hw, hi, hf, ho, hr, h10']

/-- What a denial does: DENIED counts, and the beat's denials keep the first one's record (R386, R479). -/
theorem State.deny_eq (s : State) (m : Requester) (w mem : Bool) (page off : Nat) (hf : s.life.frozen = false) :
    s.deny m w mem page off = { s.bump Reg.accessDenied with
      ev.lastDenied := deniedDetail m.cls w mem page off
      ev.denied := s.ev.denied.add (mkRec s.time.time 0x00B5 srcPlinth 0 .note (deniedDetail m.cls w mem page off)) } := by
  simp [State.deny, hf]

end Sys2Proof.Machine
end

