-- ==== Sys2Proof/Laws/Frames.lean ====
section
/-! SUPPORT. What each shared operation may change, said once: provers cite these frames in place of unfolding
the operations. -/

namespace Sys2Proof.Machine

/-! ### Registers and parts by number -/

theorem OnlyChanges.setReg (s : State) (k : Nat) (v : Word) : OnlyChanges [.regs] s (s.setReg k v) :=
  fun p hp => by cases p <;> first | rfl | simp at hp

theorem OnlyChanges.bump (s : State) (k n : Nat) : OnlyChanges [.regs] s (s.bump k n) := OnlyChanges.setReg s k _

theorem OnlyChanges.setTile (s : State) (t : Nat) (x : Tile) : OnlyChanges [.tiles] s (s.setTile t x) :=
  fun p hp => by cases p <;> first | rfl | simp at hp

theorem OnlyTiles.setTile (s : State) (t : Nat) (x : Tile) : OnlyTiles [t] s (s.setTile t x) := fun u hu => by
  simp only [List.mem_singleton] at hu
  exact tget_tset_ne _ _ _ _ hu

theorem OnlyTiles.trans {us : List Nat} {a b c : State} (h : OnlyTiles us a b) (h' : OnlyTiles us b c) : OnlyTiles us a c :=
  fun u hu => (h' u hu).trans (h u hu)

theorem OnlyTiles.of_tiles {us : List Nat} {a b : State} (h : b.tiles = a.tiles) : OnlyTiles us a b :=
  fun u _ => by simp only [State.tile, h]

theorem OnlyChanges.modCore (s : State) (t : Nat) (f : Core → Core) : OnlyChanges [.tiles] s (s.modCore t f) :=
  OnlyChanges.setTile s t _

theorem OnlyTiles.modCore (s : State) (t : Nat) (f : Core → Core) : OnlyTiles [t] s (s.modCore t f) :=
  OnlyTiles.setTile s t _

theorem OnlyTiles.bump (s : State) (k n : Nat) : OnlyTiles [] s (s.bump k n) := OnlyTiles.of_tiles rfl

theorem OnlyTiles.mono {us vs : List Nat} {a b : State} (h : OnlyTiles us a b) (hs : us ⊆ vs) : OnlyTiles vs a b :=
  fun u hu => h u fun hq => hu (hs hq)

theorem OnlyChanges.modChisel (s : State) (t : Nat) (f : ChiselTile → ChiselTile) :
    OnlyChanges [.tiles] s (s.modChisel t f) := OnlyChanges.setTile s t _

theorem OnlyChanges.modMaq (s : State) (t : Nat) (f : MaqTile → MaqTile) : OnlyChanges [.tiles] s (s.modMaq t f) :=
  OnlyChanges.setTile s t _

theorem OnlyChanges.modPat (s : State) (t : Nat) (f : PatTile → PatTile) : OnlyChanges [.tiles] s (s.modPat t f) :=
  OnlyChanges.setTile s t _

theorem OnlyChanges.modLink (s : State) (n : Nat) (f : Link → Link) : OnlyChanges [.links] s (s.modLink n f) :=
  fun p hp => by cases p <;> first | rfl | simp at hp

theorem OnlyChanges.modSensor (s : State) (n : Nat) (f : Sensor → Sensor) : OnlyChanges [.heat] s (s.modSensor n f) :=
  fun p hp => by cases p <;> first | rfl | simp at hp

theorem OnlyChanges.modRegion (s : State) (g : Nat) (f : Throttle → Throttle) : OnlyChanges [.heat] s (s.modRegion g f) :=
  fun p hp => by cases p <;> first | rfl | simp at hp

theorem OnlyChanges.setSession (s : State) (k : Nat) (x : Option Session) : OnlyChanges [.maq] s (s.setSession k x) :=
  fun p hp => by cases p <;> first | rfl | simp at hp

theorem OnlyChanges.modOrder (s : State) (id : Nat) (f : OrderRec → OrderRec) : OnlyChanges [.ord] s (s.modOrder id f) :=
  fun p hp => by cases p <;> first | rfl | simp at hp

/-! ### Time, free values, records and rings -/

theorem OnlyChanges.draw (s : State) : OnlyChanges [.free] s s.draw.2 :=
  fun p hp => by cases p <;> first | rfl | simp at hp

theorem OnlyChanges.localStamp (s : State) (d : Nat) : OnlyChanges [.time, .free] s (s.localStamp d).2 := by
  unfold State.localStamp
  dsimp only
  split
  · split
    · exact OnlyChanges.refl _ s
    · exact fun p hp => by cases p <;> first | rfl | simp at hp
  · exact fun p hp => by cases p <;> first | rfl | simp at hp

theorem OnlyChanges.ackDrain (s : State) (n : Nat) : OnlyChanges [.arm] s (s.ackDrain n) := by
  unfold State.ackDrain
  split
  · exact OnlyChanges.refl _ s
  · exact fun p hp => by cases p <;> first | rfl | simp at hp

theorem OnlyChanges.toCycle (s : State) (c : Nat) : OnlyChanges [.time, .arm] s (s.toCycle c) := by
  unfold State.toCycle
  split
  · exact ((OnlyChanges.ackDrain s _).mono (by simp)).trans fun p hp => by cases p <;> first | rfl | simp at hp
  · exact OnlyChanges.refl _ s

theorem OnlyChanges.raise (s : State) (r : EvRec) : OnlyChanges [.ev] s (s.raise r) :=
  fun p hp => by cases p <;> first | rfl | simp at hp

theorem OnlyChanges.hang (s : State) (ring : Nat) (time : Word) (k : HangKind) (cseq data : Nat) :
    OnlyChanges [.dbg] s (s.hang ring time k cseq data) := by
  unfold State.hang
  split
  · exact OnlyChanges.refl _ s
  · exact fun p hp => by cases p <;> first | rfl | simp at hp

theorem OnlyChanges.hangFree (s : State) (ring : Nat) (time : Word) (k : HangKind) (cseq cause : Nat) :
    OnlyChanges [.dbg, .free] s (s.hangFree ring time k cseq cause) :=
  ((OnlyChanges.draw s).mono (by simp)).trans ((OnlyChanges.hang _ _ _ _ _ _).mono (by simp))

theorem OnlyChanges.hangLocal (s : State) (t unit : Nat) (k : HangKind) (cseq cause : Nat) :
    OnlyChanges [.dbg, .free, .time] s (s.hangLocal t unit k cseq cause) :=
  ((OnlyChanges.localStamp s _).mono (by simp)).trans ((OnlyChanges.hangFree _ _ _ _ _ _).mono (by simp))

theorem OnlyChanges.unitRing (s : State) (t unit : Nat) (k : HangKind) (cause : Nat) :
    OnlyChanges [.dbg, .free, .time] s (s.unitRing t unit k cause) :=
  OnlyChanges.hangLocal s t unit k _ cause

theorem OnlyChanges.layerRing (s : State) (l : Nat) (k : HangKind) :
    OnlyChanges [.dbg, .free, .time] s (s.layerRing l k) :=
  ((OnlyChanges.localStamp s _).mono (by simp)).trans ((OnlyChanges.hangFree _ _ _ _ _ _).mono (by simp))

theorem OnlyChanges.askerRing (s : State) (q : StackReq) (k : HangKind) (cause : Nat) :
    OnlyChanges [.dbg, .free, .time] s (s.askerRing q k cause) :=
  OnlyChanges.unitRing s _ _ k cause

theorem OnlyChanges.eventNext (s : State) (t : Nat) : OnlyChanges [.ev] s (s.eventNext t) := by
  unfold State.eventNext
  split
  · exact OnlyChanges.refl _ s
  · dsimp only
    split
    · exact OnlyChanges.refl _ s
    · exact fun p hp => by cases p <;> first | rfl | simp at hp

theorem OnlyChanges.raiseNode (s : State) (t : Nat) (r : EvRec) :
    OnlyChanges [.dbg, .tiles, .regs, .ev] s (s.raiseNode t r) := by
  have h := (OnlyChanges.hang s (ringTile t r.unit.toNat) r.time .event (r.cseq.toNat % 2 ^ 24) (hangEventData r)).mono
    (qs := [.dbg, .tiles, .regs, .ev]) (by simp)
  unfold State.raiseNode
  dsimp only
  split
  · exact (h.trans ((OnlyChanges.modCore _ t _).mono (by simp))).trans ((OnlyChanges.bump _ _ _).mono (by simp))
  · refine h.trans ?_
    have he (u : State) : OnlyChanges [.dbg, .tiles, .regs, .ev] u
        (({ u with ev.flight := u.ev.flight ++ [(t, r)] } : State).eventNext t) :=
      OnlyChanges.trans (b := { u with ev.flight := u.ev.flight ++ [(t, r)] })
        (fun p hp => by cases p <;> first | rfl | simp at hp) ((OnlyChanges.eventNext _ t).mono (by simp))
    split
    · exact (he _).trans ((OnlyChanges.modCore _ t _).mono (by simp))
    · exact he _

theorem OnlyTiles.raiseNode (s : State) (t : Nat) (r : EvRec) : OnlyTiles [t] s (s.raiseNode t r) := by
  have h : OnlyTiles [t] s (s.hang (ringTile t r.unit.toNat) r.time .event (r.cseq.toNat % 2 ^ 24) (hangEventData r)) :=
    OnlyTiles.of_tiles (OnlyChanges.hang s _ _ _ _ _ .tiles (by simp))
  unfold State.raiseNode
  dsimp only
  split
  · exact (h.trans (OnlyTiles.modCore _ t _)).trans ((OnlyTiles.bump _ _ _).mono (by simp))
  · refine h.trans ?_
    have he (u : State) : OnlyTiles [t] u (({ u with ev.flight := u.ev.flight ++ [(t, r)] } : State).eventNext t) :=
      OnlyTiles.of_tiles ((OnlyChanges.eventNext _ t .tiles (by simp)).trans rfl)
    split
    · exact (he _).trans (OnlyTiles.modCore _ t _)
    · exact he _

theorem OnlyChanges.raiseTile (s : State) (t unit code : Nat) (sev : Severity)
    (c : Option (BitVec 16 × BitVec 16 × BitVec 24)) (d : Word) :
    OnlyChanges [.free, .time, .dbg, .tiles, .regs, .ev] s (s.raiseTile t unit code sev c d) :=
  ((OnlyChanges.localStamp s _).mono (by simp)).trans ((OnlyChanges.raiseNode _ _ _).mono (by simp))

theorem OnlyTiles.raiseTile (s : State) (t unit code : Nat) (sev : Severity)
    (c : Option (BitVec 16 × BitVec 16 × BitVec 24)) (d : Word) : OnlyTiles [t] s (s.raiseTile t unit code sev c d) :=
  OnlyTiles.trans (OnlyTiles.of_tiles (OnlyChanges.localStamp s _ .tiles (by simp))) (OnlyTiles.raiseNode _ _ _)

theorem OnlyChanges.count (s : State) (t i n : Nat) : OnlyChanges [.tiles] s (s.count t i n) := by
  unfold State.count
  split
  · exact OnlyChanges.refl _ s
  · exact OnlyChanges.modCore s t _

theorem OnlyChanges.ite {ps : List Part} {s a b : State} (c : Bool) (ha : OnlyChanges ps s a) (hb : OnlyChanges ps s b) :
    OnlyChanges ps s (if c then a else b) := by
  cases c
  · exact hb
  · exact ha

theorem OnlyChanges.ringWrite (s : State) (t : Nat) (r : BlkRange) (per i : Nat) (bs : List Byte) :
    OnlyChanges [.stack] s (s.ringWrite t r per i bs) :=
  fun p hp => by cases p <;> first | rfl | simp at hp

theorem OnlyChanges.traceDropped (s : State) (t : Nat) : OnlyChanges [.tiles, .regs, .dbg] s (s.traceDropped t) :=
  fun p hp => by cases p <;> first | rfl | simp at hp

theorem OnlyChanges.tracePut (s : State) (t : Nat) (bs : List Byte) :
    OnlyChanges [.tiles, .regs, .dbg, .stack] s (s.tracePut t bs) := by
  unfold State.tracePut
  refine OnlyChanges.ite _ ?_ ?_
  · exact (((OnlyChanges.ringWrite s t _ _ _ bs).mono (by simp)).trans ((OnlyChanges.modCore _ t _).mono (by simp))).trans
      ((OnlyChanges.bump _ _ _).mono (by simp))
  · split
    · exact (OnlyChanges.modCore s t _).mono (by simp)
    · exact (OnlyChanges.traceDropped s t).mono (by simp)

theorem OnlyChanges.traceEmit (s : State) (t kind : Nat) (i : BitVec 16 × BitVec 16 × BitVec 24) (d : Word) :
    OnlyChanges [.free, .time, .tiles, .regs, .dbg, .stack] s (s.traceEmit t kind i d) := by
  have put (u : State) (bs : List Byte) : OnlyChanges [.free, .time, .tiles, .regs, .dbg, .stack] u (u.tracePut t bs) :=
    (OnlyChanges.tracePut u t bs).mono (by simp)
  unfold State.traceEmit
  dsimp only
  split
  · exact OnlyChanges.refl _ s
  · refine OnlyChanges.ite _ ?_ (OnlyChanges.refl _ s)
    refine OnlyChanges.trans (b := (s.localStamp (tileDomain t)).2) ((OnlyChanges.localStamp s _).mono (by simp)) ?_
    refine OnlyChanges.ite _ (put _ _) (OnlyChanges.ite _ ?_ ?_)
    swap
    · exact (OnlyChanges.traceDropped _ t).mono (by simp)
    exact (((OnlyChanges.modCore _ t _).mono (by simp)).trans (put _ _)).trans (put _ _)

theorem OnlyChanges.traceEnd (s : State) (t how : Nat) :
    OnlyChanges [.free, .time, .tiles, .regs, .dbg, .stack] s (s.traceEnd t how) := by
  unfold State.traceEnd
  split
  · exact (OnlyChanges.traceEmit s t 2 _ _).trans ((OnlyChanges.hangLocal _ _ _ _ _ _).mono (by simp))
  · exact OnlyChanges.refl _ s

/-! ### Orders, packets and host memory -/

theorem OnlyChanges.hostWrite (s : State) (a : Nat) (bs : List Byte) : OnlyChanges [.hostMem] s (s.hostWrite a bs) :=
  fun p hp => by cases p <;> first | rfl | simp at hp

theorem OnlyChanges.inject (s : State) : OnlyChanges [.arm] s s.inject := by
  unfold State.inject
  split
  · exact OnlyChanges.refl _ s
  · exact fun p hp => by cases p <;> first | rfl | simp at hp

theorem OnlyChanges.hubPacket (s : State) (q : SendReq) (d : BitVec 1152) : OnlyChanges [.arm] s (s.hubPacket q d) := by
  unfold State.hubPacket
  exact OnlyChanges.trans (fun p hp => by cases p <;> first | rfl | simp at hp) (OnlyChanges.inject _)

theorem OnlyChanges.foldl {α : Type} {ps : List Part} (f : State → α → State) (h : ∀ u x, OnlyChanges ps u (f u x)) :
    ∀ (l : List α) (s : State), OnlyChanges ps s (l.foldl f s)
  | [], s => OnlyChanges.refl ps s
  | x :: xs, s => (h s x).trans (OnlyChanges.foldl f h xs (f s x))

theorem OnlyChanges.hubSend (s : State) (q : SendReq) : OnlyChanges [.arm] s (s.hubSend q) := by
  unfold State.hubSend
  split
  · exact OnlyChanges.hubPacket s q _
  · exact OnlyChanges.hubPacket s q _
  · exact OnlyChanges.foldl _ (fun u g => OnlyChanges.hubPacket u q _) _ s

theorem OnlyChanges.replyNext (s : State) (t : Nat) : OnlyChanges [.arm] s (s.replyNext t) := by
  unfold State.replyNext
  split
  · exact OnlyChanges.refl _ s
  · exact fun p hp => by cases p <;> first | rfl | simp at hp

theorem OnlyChanges.replyPacket (s : State) (t : Nat) (b : List Flit) : OnlyChanges [.arm] s (s.replyPacket t b) := by
  unfold State.replyPacket
  dsimp only
  split
  · exact fun p hp => by cases p <;> first | rfl | simp at hp
  · exact OnlyChanges.trans (fun p hp => by cases p <;> first | rfl | simp at hp) (OnlyChanges.replyNext _ t)

theorem OnlyChanges.sendReply (s : State) (t : Nat) (ps : List (List Flit)) : OnlyChanges [.arm] s (s.sendReply t ps) :=
  OnlyChanges.trans (b := { s with arm.lastReply := some (t, ps.flatten) })
    (fun p hp => by cases p <;> first | rfl | simp at hp)
    (OnlyChanges.foldl _ (fun u b => OnlyChanges.replyPacket u t b) ps _)

theorem OnlyChanges.reply (s : State) (t rstatus : Nat) : OnlyChanges [.arm] s (s.reply t rstatus) :=
  OnlyChanges.sendReply s t _

theorem OnlyChanges.nvmeRun (s : State) (cs : List NvmeCmd) : OnlyChanges [.cast] s (s.nvmeRun cs) :=
  OnlyChanges.foldl _ (fun _ _ => fun p hp => by cases p <;> first | rfl | simp at hp) cs s

theorem OnlyChanges.finish (s : State) (id : Nat) (st : Status) : OnlyChanges [.ord, .ev, .regs] s (s.finish id st) := by
  unfold State.finish
  split
  · exact OnlyChanges.refl _ s
  · dsimp only
    split
    · exact (((OnlyChanges.modOrder s id _).mono (by simp)).trans ((OnlyChanges.raise _ _).mono (by simp))).trans
        ((OnlyChanges.bump _ _ _).mono (by simp))
    · exact (OnlyChanges.modOrder s id _).mono (by simp)

theorem OnlyChanges.finishOpt (s : State) (id : Option Nat) (st : Status) :
    OnlyChanges [.ord, .ev, .regs] s (s.finishOpt id st) := by
  cases id with
  | none => exact OnlyChanges.refl _ s
  | some i => exact OnlyChanges.finish s i st

end Sys2Proof.Machine
end

