-- ==== Sys2Proof/Tests/Slice0.lean ====
section
/-! SUPPORT. Tests: an ill-formed term for each check of WellFormed, numbers that the spec itself gives, and for every
statement with hypotheses a state and operands that meet them, clause by clause. -/

set_option Elab.async false
set_option linter.unusedVariables false

namespace Sys2Proof.Tests

open Sys2Proof Sys2Proof.Machine

/-! ### Small states and operands -/

def rd : State := { State.reset with life.powered := true, life.stage := 5 }
def st (n : Nat) : State := { State.reset with life.stage := n }
def hk : Requester := { cls := .hostk }
def hu : Requester := { cls := .hostu }
def mg : Requester := { cls := .mgmt }
def sc : Requester := { cls := .sec }
def tq : Requester := { cls := .tile }
def inT (s : State) (u : Nat) (t : Tile) : State := { s with tiles := tset {} s.tiles u t }
def inC (s : State) (u : Nat) (c : Core) : State := inT s u { core := c }
def frz (s : State) : State := { s with life.frozen := true }
def o96 (l : List (Nat × Nat × Nat)) : BitVec 96 := BitVec.ofNat 96 (packNat l)
def fl (l : List (Nat × Nat × Nat)) : Flit := BitVec.ofNat 128 (packNat l)
def pkt (h : Flit) (b : List Flit) : List Flit := (h ||| (packetCrc (h :: b)).setWidth 128) :: b
def toN (d : Nat) (l : List (Nat × Nat × Nat)) : Flit :=
  fl (l ++ [(107, 11, 0x4C0), (96, 11, d), (78, 2, (routeWord (hubPortTile d) d).1), (32, 46, (routeWord (hubPortTile d) d).2)])
def nd (o : BitVec 96) : NodeOp := { node := 3, mapgen := 0, operand := o }
def fnc : BitVec 96 := o96 [(91, 1, 1), (90, 1, 1), (78, 11, 3), (68, 10, 3), (32, 16, 7)]
def og : Outgoing := { vc := 1, op := 3, operand := 0, mapgen := 0, data := [], dests := oneNode 3, left := oneNode 3, held := 0, xid := 5, sentAt := 0, resends := [], timers := [], late := false, order := none }
def cmd : Cmd := { cseq := 9, layer := 1, oper := 2, creset := 3, computes := true, nearBank := false, sealedIn := true, operandBytes := 4, canonical := false, sample := none, words := [] }
def mould0 : Mould := { rec_ := { logical := 3, next := 0, halted := false, interrupted := false, sems := [], gens := [], blocks := [] }, drained := false }
def crun (ph : Nat) : CastRun := { number := 1, order := none, full := true, mirror := false, phase := ph }
def inCast (r : CastRun) : State := { rd with cast.run := some r }
def hr : OrderRef := { master := .hostk, slot := 0, tag := 7 }
def mr : OrderRef := { master := .mgmt, slot := 63, tag := 7 }
def o0 : OrderRec := { id := 0, ref := hr, word := 0, reserved := 1 }
def castable : State := { rd.setReg Reg.castCastCtl 0xFFFFFFFF00000001 |>.setReg Reg.castCastRange 0x8000000000000000 with cast.storeOk := true, force := [(Reg.castCastCtl, 0xFFFFFFFF00000001)] }
def pasx : PartnerAnswer := { pfid := 2, busy := false, area := true }
def ce (h : EndKind) : CmdEnd := { how := h, outs := [], hostIn := [], hostOut := [], queued := 0, cyc := 100, arrayCycles := 1, vectorCycles := 2, sramBytes := 3, sliceBytes := 4, stallCycles := 5, waits := [], sems := [(1, 2)], gens := [] }
def run3 : State := inC rd 3 { cur := some cmd }
def run3' (c : Core) : State := inC rd 3 { c with cur := some cmd }
def pd : PassDesc := { aFmt := 1, wFmt := 1, outFmt := 1, oscale := 0, gen := 0, acts := [[[1]]], weights := [[[1]]], canon := none, outIndex := 0 }
def ps0 : PassSt := { id := 0, desc := pd, acc := [], states := [], pred := [], special := false, next := 0, fails := [], entry := false, ctl := 3, rel := [] }
def pz : PassDesc := { pd with canon := some [], acts := [], weights := [] }
def pn : PassDesc := { pd with aFmt := 7, wFmt := 7, acts := [[[0x7F]]] }
def ef : EntryFault := { step := 0, row := 0, isAct := false, col := 0, flips := 5 }
def nf : DrainFaults := { acc := [], ra := [], rb := [] }
def fx : Fail := { code := 0x30, detail := 0, inj := false }
def hd (b : Bool) : Held := { index := 0, elems := [0], fmt := 1, sealw := 0, passed := b }
def bm : BlockMove := { src := .sram 3 0, dst := .sram 5 0, fmt := 1, bytes := [], sealw := 0x280000000 }
def bz : BlockMove := { bm with bytes := List.replicate 4096 0 }
def xf : Xfer := { id := 1, dests := [5], toHost := false, toChip := none, layer := 1, oper := 2, blocks := [bm] }
def xi : XferIn := { src := 3, dest := 5, exempt := false, fromLink := none, x := xf }
def rr : ReadReq := { addr := .sram 3 0, unit := 2, fmt := 0xA, gen := 0, genCheck := false, reseal := none, toHost := false, flips := [], ecc := .clean }
def rf : ReadReq := { rr with flips := [(0, 1)] }
def sealed (s : State) (w : Word) : State := { s with stack.sramSeals := [(sramBlock 3 0, w)] }
def w0 : Word := 0x280000000
def pw : PartialWrite := { read := rr, elems := [(0, 5)], writer := .vector }
def ss : Session := { host := 300, source := 3, logical := 3 }
def mrec : MaqRecord := { seals := [1], units := [2], digest := 5 }
def mq (x : Session) : State := { rd with maq.sessions := [(0, some x)] }
def det0 : Detection := { tile := 3, unit := 2, kind := 1, b0 := 0, cmd := none }
def rep0 : Report := { id := 1, det := det0, cmin := 0, cmax := 0, exceeded := false, first := [], tiles := [], chip := none, chips := false }
def slt (r t o : Nat) : Slot := { role := r, tile := t, other := o, session := 1 }
def ch3 (x : Slot) (c : ChiselTile) : State := { inT rd 3 { chisel := c } with chisel.slots := [(0, some x)] }
def pairS : State := inT (ch3 (slt 0 3 4) { state := 7, seg := 1, node.segs := 2 }) 4
  { chisel := { state := 7, results := [(1, segValues 0 { seg := 1 })] } }
def pr (st : Nat) (u : Option Nat) : Promotion := { logical := 3, from_ := 3, target := u, step := st, since := 0, saved := false, uncorr := 0, order := none, kind := 2, ready := false }
def inP (p : Promotion) : State := { rd with map.promotions := [p] }
def hotAt (t : Nat) : State := { rd with heat.sensors := [(t, { reading := 300 })], force := [(Reg.chiselChiselWindow, 0x1000000000000)] }
def hotM : State := { rd with heat.sensors := (List.range 16).map fun g => (dramSensor 1 (g / 4 * 288 + g % 4 * 8), { reading := 300 }) }
def sa : StackAcc := { req := hk, tile := 3, layer := 2, block := 5, kind := .read, ecc := .clean, external := true, reader := none }
def nbc : NearBank := { op := 0, layer := 8, srcs := [0], dst := 16, gen := 0 }
def cpt : State := { run3 with force := [(layerReg 8 0x200, 0xC000000000640000)] }
def inBank (s : State) (l b : Nat) : State := { s with stack.nb := [(bankKey 3 l b, some { tile := 3, cmd := nbc, start := s.time.time })] }
def cvtR : Convert := { k := 0, first := 0, last := 100, since := 0, old := [0xC000000000640000], next := [] }
def cvt : State := { rd with stack.convert := [(8, some cvtR)] }
def sn (x : Sensor) : State := { rd with heat.sensors := [(0, x)] }
def wOrd (s : State) : State := { s with ord.orders := [o0], ord.nextId := 1 }
def cO (r : CastRun) : State := wOrd (inCast { r with order := some 0 })
def rO (r : CastRun) : CastRun := { r with order := some 0 }
def cr0 : CastRec := { number := 1, full := true, chip := 0, key := 0, qBeat := 0, size := 1, moulds := [] }
def wk : RestoreWalk := { crcOk := true, answers := true, chipOk := true, casts := [] }
def allT (f : Nat → Tile) : Tbl Tile := allTiles.map fun t => (t, f t)
def withTiles (s : State) (f : Nat → Tile) : State := { s with tiles := allT f }
def tempT : Tbl Sensor := allTiles.map fun t => (t, { reading := 300 })
def withTemp (s : State) : State := { s with heat.sensors := tempT }
def stopT : Tile := { core := { castStop := true } }
def capT : Tile := { core := { captured := some (0, []) } }
def heldT (t : Nat) : Tile := { core := { ni := { hold := 8 } }, chisel := { state := if t = 3 then 6 else 0 } }

/-! ### What these states hold -/

theorem tile_withTiles (s : State) (f : Nat → Tile) {t : Nat} (ht : t ∈ allTiles) : (withTiles s f).tile t = f t := by
  simp only [State.tile, withTiles, allT]
  rw [tget_map _ f allTiles ht]
theorem sensor_withTemp (s : State) {t : Nat} (ht : t ∈ allTiles) : (withTemp s).sensor t = { reading := 300 } := by
  simp only [State.sensor, withTemp, tempT]
  rw [tget_map _ (fun _ => ({ reading := 300 } : Sensor)) allTiles ht]
theorem tile_inC_ne (s : State) {u v : Nat} (c : Core) (h : v ≠ u) : (inC s u c).tile v = s.tile v := by
  unfold State.tile inC inT
  exact tget_tset_ne {} {} s.tiles { core := c } h
theorem not_ne_self (w : Word) : ~~~w ≠ w := by
  intro h
  have := congrArg (·.getLsbD 0) h
  simp at this
theorem injected_none (s : State) (h : bit (s.reg Reg.sealInject) 63 = false) (u k : Nat) : s.injected u k = none := by
  simp [State.injected, h]
theorem drains_ok (p : PassSt) (h : p.special = true) : ((p.drainAll [] none none).all fun x => x.ok) = true := by
  simp [PassSt.drainAll, PassSt.drain, h, roundFail, flipsAt]
  intro x _
  rw [List.find?_eq_none.2 (by simp)]
theorem rowResidueFrom_zero (l : List Int) (h : ∀ v ∈ l, v = 0) (n : Nat) : rowResidueFrom n l = 0 := by
  induction l generalizing n with
  | nil => rfl
  | cons v vs ih =>
    rw [rowResidueFrom, h v (by simp), ih (fun w hw => h w (by simp [hw]))]
    simp [residue]
theorem drains_zero (p : PassSt) (ha : ∀ i, p.acc.getD i 0 = 0) (hp : ∀ i, p.pred.getD i 0 = 0) :
    ((p.drainAll [] none none).all fun x => x.ok) = true := by
  have act : ∀ k, rowResidue ((List.range 64).map fun n => p.accAt { acc := [], ra := [], rb := [] } (k + n)) = 0 := by
    intro k
    refine rowResidueFrom_zero _ (fun v hv => ?_) 0
    obtain ⟨n, -, rfl⟩ := List.mem_map.1 hv
    simp only [PassSt.accAt, ha, deltaAt]
    rfl
  simp only [PassSt.drainAll, List.all_map, List.all_eq_true, Function.comp]
  intro b _
  simp only [PassSt.drain, hp, List.getD_nil, ite_self, act, verdictFail, roundFail, flipsAt]
  simp [List.find?_eq_none.2, List.map_const']
theorem accs_zero : passAcc pz = List.replicate 4096 0 := by
  simp only [passAcc, pz, overSteps, loadAcc, Option.getD_some, List.getD_nil, List.map_const', List.length_range]
theorem loads_zero : ∀ i, (passAcc pz).getD i 0 = 0 := by
  intro i
  rw [accs_zero, List.getD_eq_getElem?_getD, List.getElem?_replicate]
  split <;> rfl
theorem loads_pred : ∀ i, (passPred pz).getD i 0 = 0 := by
  have hz : ∀ m, rowResidue (rowSlice m (loadAcc pz)) = 0 := by
    intro m
    refine rowResidueFrom_zero _ (fun v hv => ?_) 0
    have hm := List.mem_of_mem_drop (List.mem_of_mem_take hv)
    obtain ⟨n, -, rfl⟩ := List.mem_map.1 hm
    simp [pz]
  intro i
  have : passPred pz = List.replicate 64 0 := by
    simp only [passPred, hz, List.map_const', List.length_range]
    rfl
  rw [this, List.getD_eq_getElem?_getD, List.getElem?_replicate]
  split <;> rfl
theorem rerun_ok (n : Nat) (c : Word) : (((passOf n pz [] c).drainAll [] none none).all fun x => x.ok) = true :=
  drains_zero _ (fun i => by simpa only [passOf, latched, List.foldl_nil] using loads_zero i)
    (fun i => by simpa only [passOf, latched, List.foldl_nil] using loads_pred i)
theorem tile_inT (s : State) (u : Nat) (t : Tile) : (inT s u t).tile u = t := by
  unfold State.tile inT
  exact tget_tset_self {} s.tiles u t
theorem pair_values : (pairS.tile 4).chisel.values 1 = segValues (pairS.tile 3).chisel.node.seed { seg := 1 } := by
  rw [show (pairS.tile 3).chisel.node.seed = 0 by decide +kernel, pairS, tile_inT]
  simp [ChiselTile.values, tget]
theorem mem_all {l : Nat} (h : l < numLogical) : l ∈ allLogical := List.mem_range.2 h
theorem drainReply_id (s : State) (h : ∀ u ∈ allTiles, (s.tile u).core.drains = []) : allTiles.foldl State.drainReply s = s := by
  suffices ∀ l : List Nat, (∀ u ∈ l, (s.tile u).core.drains = []) → l.foldl State.drainReply s = s from this _ h
  intro l hl
  induction l with
  | nil => rfl
  | cons u us ih =>
    have hu : s.drainReply u = s := by simp [State.drainReply, hl u (by simp)]
    rw [List.foldl_cons, hu]
    exact ih fun v hv => hl v (by simp [hv])
theorem drained_heldT : allTiles.foldl State.drainReply (withTiles (ch3 (slt 0 3 4) { state := 6 }) heldT) =
    withTiles (ch3 (slt 0 3 4) { state := 6 }) heldT :=
  drainReply_id _ fun u hu => by rw [tile_withTiles _ _ hu]; rfl
theorem drained_rd : allTiles.foldl State.drainReply rd = rd := drainReply_id _ fun _ _ => rfl

/-! ### Well-formedness: one ill-formed term for each check -/

theorem test_wf_tile : (Instr.chiselDue 1152).wf = false ∧ (Instr.chiselDue 1151).wf = true := by decide
theorem test_wf_node : (Instr.nodeFreeze { nd 0 with node := 1152 }).wf = false ∧ (Instr.nodeFreeze (nd 0)).wf = true := by decide
theorem test_wf_layer : (Instr.refreshDue 0 12 0).wf = false ∧ (Instr.refreshDue 0 11 15).wf = true := by decide
theorem test_wf_bank : (Instr.refreshDue 0 11 16).wf = false := by decide
theorem test_wf_slot : (Instr.maqDeadline 32).wf = false ∧ (Instr.maqDeadline 31).wf = true ∧ (Instr.maqCompare 0 1152).wf = false := by decide
theorem test_wf_cycle : (Instr.castQuiesce 8192).wf = false ∧ (Instr.castQuiesce 8191).wf = true := by decide
theorem test_wf_access_size : (Instr.rcRead hk 1 0x148 2).wf = false ∧ (Instr.rcRead hk 1 0x148 8).wf = true := by decide
theorem test_wf_access_align : (Instr.registerWrite hk 1 0x14C 8 0).wf = false ∧ (Instr.registerWrite hk 1 0x14C 4 0).wf = true := by decide
theorem test_wf_page : (Instr.pageLock hk 0x1000).wf = false ∧ (Instr.pageLock hk 0xFFF).wf = true := by decide
theorem test_wf_order_slot : (Instr.fence { hr with slot := 56 } 0).wf = false ∧ (Instr.fence mr 0).wf = true ∧
    (Instr.fence { mr with slot := 55 } 0).wf = false := by decide
theorem test_wf_window_slot : (Instr.orderWindowWrite hk 64 8 1).wf = false ∧ (Instr.orderWindowWrite hk 63 8 1).wf = true := by decide
theorem test_wf_sensor : (Instr.sensorSample 4608 none).wf = false ∧ (Instr.sensorSample 4607 none).wf = true := by decide
theorem test_wf_link : (Instr.linkDown 48).wf = false ∧ (Instr.linkRetrain [{ link := 48, laneOk := 0, peer := none }]).wf = false ∧
    (Instr.linkDown 47).wf = true := by decide
theorem test_wf_domain : (Instr.gap 26 0).wf = false ∧ (Instr.domainStopDetect 0 0).wf = false ∧ (Instr.gap 25 0).wf = true := by decide
theorem test_wf_route : (Instr.routePrimaryBack 64).wf = false ∧ (Instr.routePrimaryBack 63).wf = true := by decide
theorem test_wf_packet : (Instr.sentinelForward 0 []).wf = false ∧
    (Instr.packetArrive { net := .order, at_ := 1152, flits := [0] }).wf = false := by decide
theorem test_wf_block : (Instr.patrolVisit 0 7 1820 .clean).wf = false ∧ (Instr.patrolVisit 0 7 1819 .clean).wf = true ∧
    (Instr.patrolVisit 0 8 1365 .clean).wf = false ∧ (Instr.sealVerifyRead 3 { rr with addr := .sram 3 768 }).wf = false := by decide
theorem test_wf_descriptor : (Instr.mrWrite hk 7 0 0).wf = false ∧ (Instr.mrWrite hk 8 8 0).wf = false ∧ (Instr.mrWrite hk 8 7 0).wf = true := by decide
theorem test_wf_weights : (Instr.wsetRetire hk 8 0).wf = false ∧ (Instr.wsetHashDone 7 1 [(1152, 0)]).wf = false := by decide
theorem test_wf_record : (Instr.recordRead hk 512 8).wf = false ∧ (Instr.recordRead hk 504 8).wf = true := by decide
theorem test_wf_region : (Instr.voltageDroop 16).wf = false ∧ (Instr.voltageDroop 15).wf = true := by decide
theorem test_wf_logical : (Instr.promoteDone 1024).wf = false ∧ (Instr.promoteDone 1023).wf = true := by decide
theorem test_wf_segment : (Instr.segmentResult 3 { seg := 16 }).wf = false := by decide
theorem test_wf_digest_slot : (Instr.digestSettling 16).wf = false ∧ (Instr.digestSettling 15).wf = true := by decide
theorem test_wf_vector : (Instr.msixEntryUnmask 10).wf = false ∧ (Instr.msixEntryUnmask 9).wf = true := by decide
theorem test_wf_command_end : (Instr.commandEnd 3 { ce .done with sems := [(32, 0)] }).wf = false ∧
    (Instr.commandEnd 3 { ce .done with gens := [(64, none)] }).wf = false ∧
    (Instr.commandEnd 3 { ce .done with waits := [{ logical := 1024, sem := 0, cycles := 0 }] }).wf = false ∧
    (Instr.commandEnd 3 (ce .done)).wf = true := by decide

/-! ### Numbers of the spec -/

/-- Table 1.1: logical tile 517 stands at 581 in region 8, and promoted to the spare row at 837 in the same region. -/
theorem test_table_1_1 : mapDefault 517 = 581 ∧ regionOf 581 = 8 ∧ regionOf 837 = 8 ∧ regionOfLogical 517 = 8 ∧
    State.reset.logical 581 = some 517 ∧ State.reset.logical 837 = none := by decide +kernel
/-- Table 3.6: the path of node 581 to its hub port. -/
theorem test_table_3_6 : routeWord 581 839 = (2, 0x310000) := by decide

/-- Chapter 15: tile page 581 reads PAGE_ID 0x4245_0645. -/
theorem test_page_id : pageIdWord 0x645 = 0x42450645 := by decide
/-- Table 4.7: the stored residue of a block of 4,096 elements 8.0 in FP8 E4M3. -/
theorem test_table_4_7_stored : blockResidue 6 (List.replicate 4096 0x50) = 276824576 := by decide +kernel
/-- Table 4.7: images of 1.0, 0.25 and the smallest subnormal, and the rounding of 8.0625. -/
theorem test_table_4_7_images : entryValue 6 0x38 = 512 ∧ entryValue 6 0x28 = 128 ∧ entryValue 6 0x01 = 1 ∧
    roundTo 6 2113536 (-18) = 0x50 := by decide +kernel
/-- Worked example of chapter 15: two order words and three status entries. -/
theorem test_order_words : ordWord opMAQ_RATE 0x3C 0x80000000000A = 0x063C80000000000A ∧ ordWord opCAST 0x3D 0 = 0x073D000000000000 ∧
    entryWord .ok 5 0x1F40 0 = 0x00851F4000000000 ∧ entryWord .accepted 6 0x1F40 0xA15 = 0x01061F4000000A15 ∧
    entryWord .ok 6 0x384A 0xA15 = 0x0086384A00000A15 := by decide
/-- The same example: intake takes slots 5 and 6, and NEXT becomes 7. Two entries each stay reserved, as R463 has it
(log entry 42: the example itself reserves one for MAQ_RATE). -/
theorem test_intake_example :
    let s : State := { rd with ord.hostNext := 5, ord.window := [(5, 0x063C80000000000A), (6, 0x073D000000000000)] }
    let t := s.intake
    t.ord.hostNext = 7 ∧ t.ord.window = [] ∧ t.ringFree .hostk = 60 ∧ t.ord.orders.length = 2 := by decide +kernel
/-- CRC-32C and CRC-64 of the usual check string, nine ASCII digits. -/
theorem test_crc : crc32c [0x31, 0x32, 0x33, 0x34, 0x35, 0x36, 0x37, 0x38, 0x39] = 0xE3069283 ∧
    crc64 [0x31, 0x32, 0x33, 0x34, 0x35, 0x36, 0x37, 0x38, 0x39] = 0x995DC9BBDF1939FA := by decide +kernel
/-- A command in the queue is the next step's, and the rest of the queue stays. -/
theorem test_step_front : ∃ t, step { rd with pending := [.timeMaster, .traceDrain] } = .next t ∧ t.pending = [.traceDrain] :=
  ⟨_, rfl, rfl⟩
/-- No row of the table has bits. -/
theorem test_no_words : decodeTableWord 32 5 = none ∧ State.withFetchWord rd 32 5 = rd := ⟨rfl, rfl⟩


/-! ### Every hypothesis can be met -/

theorem witness_WindowDenied :
    (∃ (m : Requester) (page : Nat) (off : Nat) (size : Nat) (v : Word) (s : State), s.life.powered = true ∧ s.life.frozen = false ∧ accessOk page off size = true ∧ s.mayWrite m page off = false) ∧
    (∃ (m : Requester) (page : Nat) (off : Nat) (s : State), s.life.powered = true ∧ s.life.frozen = false ∧ accessOk page off 4 = true ∧ s.permits m page off false = false) ∧
    (∃ (m : Requester) (page : Nat) (off : Nat) (size : Nat) (s : State), s.life.powered = true ∧ s.life.frozen = false ∧ accessOk page off size = true ∧ isRc page (off - off % 8) = true ∧ s.permits m page off false = false) :=
  ⟨⟨tq, 1, 0x110, 8, 5, rd, by decide +kernel⟩,
    ⟨tq, 1, 0x110, rd, by decide +kernel⟩,
    ⟨tq, 1, 0x148, 8, rd, by decide +kernel⟩⟩
theorem witness_PageLockSets :
    (∃ (m : Requester) (page : Nat) (s : State), pageExists page = true ∧ s.mayUse m page 40) ∧
    (∃ (m : Requester) (page : Nat) (off : Nat) (size : Nat) (v : Word) (r : RegRow) (s : State), s.life.powered = true ∧ s.locked page ∧ findRow page (off - off % 8) = some r ∧ r.acc = Acc.lk ∧ accessOk page off size = true ∧ s.mayWrite m page off = true) :=
  ⟨⟨mg, 3, rd, by decide +kernel⟩,
    ⟨mg, 3, 0x108, 8, 0x12, (findRow 3 0x108).get (by decide), rd.setReg 0x3028 1, by decide +kernel⟩⟩
theorem witness_PendClearsWrittenOnes :
    ∃ (m : Requester) (page : Nat) (v : Word) (s : State), pageExists page = true ∧ s.life.powered = true ∧ s.mayWrite m page 24 = true :=
  ⟨mg, 3, 5, { rd with ev.pend := [(3, 7)] }, by decide +kernel⟩
theorem witness_RegisterWriteStores :
    ∃ (m : Requester) (page : Nat) (off : Nat) (size : Nat) (v : Word) (r : RegRow) (s : State), (∀ (s' : State) (old new : Word), s'.fieldRule page (off - off % 8) old new = some new) ∧ s.mayUse m page off ∧ accessOk page off size = true ∧ findRow page (off - off % 8) = some r ∧ (r.acc = Acc.rw ∨ r.acc = Acc.lk ∧ ¬s.locked page) ∧ onlyWriter m (page * 4096 + (off - off % 8)) = true ∧ writeIgnored page off = false ∧ off - off % 8 ≠ 40 ∧ page * 4096 + (off - off % 8) ≠ Reg.dumpDumpCtl ∧ ownField page (off - off % 8) = false ∧ 16 ≤ off :=
  ⟨mg, 0x70, 0x010, 8, 1, (findRow 0x70 0x010).get (by decide +kernel), rd, (fun _ _ _ => rfl), by decide +kernel⟩
theorem witness_OrderWindowAccepts :
    (∃ (m : Requester) (slot : Nat) (v : Word) (s : State), slot < 64 ∧ s.mayUse m 2 (512 + 8 * slot) ∧ ownSlot m slot = true ∧ s.window slot = 0 ∧ v ≠ 0) ∧
    (∃ (m : Requester) (slot : Nat) (v : Word) (s : State), slot < 64 ∧ s.mayUse m 2 (512 + 8 * slot) ∧ ownSlot m slot = true ∧ s.window slot = 0 ∧ v ≠ 0) :=
  ⟨⟨hk, 0, 1, rd, by decide +kernel⟩,
    ⟨mg, 63, 1, rd, by decide +kernel⟩⟩
theorem witness_OrderWindowMisuse :
    (∃ (m : Requester) (slot : Nat) (size : Nat) (v : Word) (s : State) (reason : Nat), slot < 64 ∧ (size = 4 ∨ size = 8) ∧ s.mayUse m 2 (512 + 8 * slot) ∧ (size = 4 ∧ reason = 1 ∨ size = 8 ∧ ownSlot m slot = false ∧ reason = 2 ∨ size = 8 ∧ ownSlot m slot = true ∧ s.window slot ≠ 0 ∧ reason = 3 ∨ size = 8 ∧ ownSlot m slot = true ∧ s.window slot = 0 ∧ v = 0 ∧ reason = 4)) ∧
    (∃ (m : Requester) (slot : Nat) (size : Nat) (v : Word) (s : State) (reason : Nat), slot < 64 ∧ (size = 4 ∨ size = 8) ∧ s.mayUse m 2 (512 + 8 * slot) ∧ (size = 4 ∧ reason = 1 ∨ size = 8 ∧ ownSlot m slot = false ∧ reason = 2 ∨ size = 8 ∧ ownSlot m slot = true ∧ s.window slot ≠ 0 ∧ reason = 3 ∨ size = 8 ∧ ownSlot m slot = true ∧ s.window slot = 0 ∧ v = 0 ∧ reason = 4)) ∧
    (∃ (m : Requester) (slot : Nat) (size : Nat) (v : Word) (s : State) (reason : Nat), slot < 64 ∧ (size = 4 ∨ size = 8) ∧ s.mayUse m 2 (512 + 8 * slot) ∧ (size = 4 ∧ reason = 1 ∨ size = 8 ∧ ownSlot m slot = false ∧ reason = 2 ∨ size = 8 ∧ ownSlot m slot = true ∧ s.window slot ≠ 0 ∧ reason = 3 ∨ size = 8 ∧ ownSlot m slot = true ∧ s.window slot = 0 ∧ v = 0 ∧ reason = 4)) ∧
    (∃ (m : Requester) (slot : Nat) (size : Nat) (v : Word) (s : State) (reason : Nat), slot < 64 ∧ (size = 4 ∨ size = 8) ∧ s.mayUse m 2 (512 + 8 * slot) ∧ (size = 4 ∧ reason = 1 ∨ size = 8 ∧ ownSlot m slot = false ∧ reason = 2 ∨ size = 8 ∧ ownSlot m slot = true ∧ s.window slot ≠ 0 ∧ reason = 3 ∨ size = 8 ∧ ownSlot m slot = true ∧ s.window slot = 0 ∧ v = 0 ∧ reason = 4)) :=
  ⟨⟨hk, 0, 4, 1, rd, 1, by decide +kernel⟩,
    ⟨hk, 63, 8, 1, rd, 2, by decide +kernel⟩,
    ⟨hk, 0, 8, 1, { rd with ord.window := [(0, 1)] }, 3, by decide +kernel⟩,
    ⟨hk, 0, 8, 0, rd, 4, by decide +kernel⟩⟩
theorem witness_RingPointers :
    (∃ (m : Requester) (v : Word) (s : State), s.mayUse m 2 280 ∧ m.cls = MasterClass.hostk) ∧
    (∃ (m : Requester) (v : Word) (s : State), s.mayUse m 2 296 ∧ m.cls = MasterClass.mgmt) ∧
    (∃ (m : Requester) (v : Word) (s : State), s.mayUse m 3 288) ∧
    (∃ (m : Requester) (v : Word) (s : State), s.mayUse m 16 296) ∧
    (∃ (m : Requester) (v : Word) (s : State), s.mayUse m 17 296) ∧
    (∃ (m : Requester) (v : Word) (s : State), s.mayUse m 3 256 ∧ bit v 0 = true ∧ s.evtHostOk = false) ∧
    (∃ (m : Requester) (v : Word) (s : State), s.mayUse m 3 256 ∧ bit v 0 = true ∧ s.evtHostOk = true) ∧
    (∃ (m : Requester) (v : Word) (s : State), s.mayUse m 3 256 ∧ bit v 0 = false) :=
  ⟨⟨hk, 0, rd, by decide +kernel⟩,
    ⟨mg, 0, rd, by decide +kernel⟩,
    ⟨hk, 0, rd, by decide +kernel⟩,
    ⟨hk, 0, rd, by decide +kernel⟩,
    ⟨hk, 0, rd, by decide +kernel⟩,
    ⟨hk, 1, rd, by decide +kernel⟩,
    ⟨hk, 1, (rd.setReg Reg.evtHostSize 4096), by decide +kernel⟩,
    ⟨hk, 0, rd, by decide +kernel⟩⟩
theorem witness_WindowReads :
    (∃ (m : Requester) (page : Nat) (off : Nat) (s : State), s.maySee m page off ∧ accessOk page off 8 = true ∧ isRc page off = true ∧ page ≠ 14) ∧
    (∃ (m : Requester) (page : Nat) (off : Nat) (s : State), s.maySee m page off ∧ accessOk page off 8 = true ∧ 16 ≤ off ∧ (findRow page off).isSome = true ∧ isRc page off = false) ∧
    (∃ (m : Requester) (page : Nat) (off : Nat) (h : BitVec 32) (s : State), s.maySee m page (off + 4) ∧ accessOk page off 8 = true ∧ (findRow page off).isSome = true ∧ s.latch m (page * 4096 + off) = some h) ∧
    (∃ (m : Requester) (page : Nat) (off : Nat) (s : State), s.maySee m page (off + 4) ∧ accessOk page off 8 = true ∧ (findRow page off).isSome = true ∧ s.latch m (page * 4096 + off) = none) ∧
    (∃ (m : Requester) (s : State), s.maySee m 14 3584 ∧ (s.dslot (s.selSlot m)).state = 5) ∧
    (∃ (m : Requester) (off : Nat) (s : State), s.maySee m 14 (3584 + off) ∧ off < 512 ∧ off % 8 = 0 ∧ 0 < off) :=
  ⟨⟨hk, 1, 0x148, rd, by decide +kernel⟩,
    ⟨hk, 1, 0x110, rd, by decide +kernel⟩,
    ⟨hk, 1, 0x110, 9, rd.setLatch hk 0x1110 (some 9), by decide +kernel⟩,
    ⟨hk, 1, 0x110, rd, by decide +kernel⟩,
    ⟨hk, { rd with digest.slots := [(0, { state := 5 })] }, by decide +kernel⟩,
    ⟨hk, 8, rd, by decide +kernel⟩⟩
theorem witness_WriteOnlyRequests :
    (∃ (m : Requester) (v : Word) (s : State), s.mayUse m 5 352 ∧ fld v 10 0 < numTiles ∧ 1 ≤ fld v 21 19 ∧ fld v 21 19 ≤ 4) ∧
    (∃ (m : Requester) (v : Word) (s : State), s.mayUse m 5 352 ∧ fld v 10 0 < numTiles) ∧
    (∃ (m : Requester) (v : Word) (s : State), s.mayUse m 15 256 ∧ bit v 0 = true ∧ s.digest.licPending = false ∧ s.digest.licTick = false) ∧
    (∃ (m : Requester) (v : Word) (s : State), s.life.powered = true ∧ s.mayWrite m 18 264 = true ∧ s.dbg.readBusy = false) ∧
    (∃ (m : Requester) (v : Word) (s : State), s.mayUse m 19 296) ∧
    (∃ (m : Requester) (v : Word) (s : State), s.mayUse m 19 264 ∧ bit v 0 = true ∧ s.life.stage = 1 ∧ m.cls ≠ MasterClass.mgmt) ∧
    (∃ (m : Requester) (v : Word) (s : State), s.life.powered = true ∧ s.mayWrite m 22 256 = true ∧ s.life.frozen = true ∧ s.dbg.dumpState ≠ 1 ∧ fld (s.reg Reg.dumpDumpBase) 11 0 = 0) ∧
    (∃ (m : Requester) (v : Word) (s : State), s.mayUse m 21 288 ∧ bit v 63 = false) ∧
    (∃ (b : BitVec 26) (s : State), s.life.powered = true ∧ s.tapOn = true) ∧
    (∃ (s : State), s.life.powered = true ∧ s.tapOn = true ∧ s.dbg.tapAddr.getLsbD 25 = false) ∧
    (∃ (v : Word) (s : State), s.life.powered = true ∧ s.tapOn = true ∧ s.dbg.tapAddr.getLsbD 25 = true) ∧
    (∃ (m : Requester) (v : Word) (s : State), s.life.powered = true ∧ s.mayWrite m 18 264 = true ∧ s.dbg.readBusy = true) ∧
    (∃ (m : Requester) (v : Word) (s : State), s.mayUse m 19 264 ∧ bit v 0 = true ∧ s.life.stage = 1 ∧ m.cls = MasterClass.mgmt) ∧
    (∃ (m : Requester) (v : Word) (s : State), s.mayUse m 19 264 ∧ bit v 0 = true ∧ s.life.stage ≠ 1) :=
  ⟨⟨mg, 0x80003, rd, by decide +kernel⟩,
    ⟨mg, 3, rd, by decide +kernel⟩,
    ⟨sc, 1, rd, by decide +kernel⟩,
    ⟨mg, 3, rd, by decide +kernel⟩,
    ⟨mg, 0, rd, by decide +kernel⟩,
    ⟨hk, 1, st 1, by decide +kernel⟩,
    ⟨mg, 0, frz rd, by decide +kernel⟩,
    ⟨sc, 0, rd, by decide +kernel⟩,
    ⟨5, rd.setReg Reg.debugDbgCtl 1, by decide +kernel⟩,
    ⟨rd.setReg Reg.debugDbgCtl 1, by decide +kernel⟩,
    ⟨7, { rd.setReg Reg.debugDbgCtl 1 with dbg.tapAddr := 0x2003108 }, by decide +kernel⟩,
    ⟨mg, 3, { rd with dbg.readBusy := true }, by decide +kernel⟩,
    ⟨mg, 1, st 1, by decide +kernel⟩,
    ⟨mg, 1, rd, by decide +kernel⟩⟩
theorem witness_GuardedTables :
    (∃ (m : Requester) (l : Nat) (k : Nat) (v : Word) (s : State), l < numLayers ∧ k < 8 ∧ s.mayUse m (112 + l) (512 + 8 * k)) ∧
    (∃ (m : Requester) (w : Nat) (v : Word) (s : State), w < 8 ∧ s.mayUse m 14 (768 + 16 * w)) ∧
    (∃ (m : Requester) (w : Nat) (v : Word) (s : State), w < 8 ∧ s.mayUse m 14 (768 + 16 * w)) ∧
    (∃ (m : Requester) (k : Nat) (ok : Bool) (r : RegRow) (v : Word) (s : State), s.mayUse m 12 (k % 4096) ∧ ¬s.locked 12 ∧ findRow 12 (k % 4096) = some r ∧ (k = Reg.thermLimits ∧ ok = (inRange (masked r.mask (s.reg k) v) 63 48 32 64 && inRange (masked r.mask (s.reg k) v) 47 32 16 32 && decide (fld (masked r.mask (s.reg k) v) 47 32 < fld (masked r.mask (s.reg k) v) 63 48) && inRange (masked r.mask (s.reg k) v) 23 16 2 10 && inRange (masked r.mask (s.reg k) v) 15 8 60 95 && inRange (masked r.mask (s.reg k) v) 7 0 60 105) ∨ k = Reg.thermThermCtl ∧ ok = (inRange (masked r.mask (s.reg k) v) 47 40 16 250 && inRange (masked r.mask (s.reg k) v) 39 32 4 48 && inRange (masked r.mask (s.reg k) v) 20 16 2 16 && inRange (masked r.mask (s.reg k) v) 12 8 2 16 && inRange (masked r.mask (s.reg k) v) 4 0 2 16 && decide (fld (masked r.mask (s.reg k) v) 12 8 < fld (masked r.mask (s.reg k) v) 20 16) && decide (fld (masked r.mask (s.reg k) v) 4 0 < fld (masked r.mask (s.reg k) v) 12 8)) ∨ k = Reg.thermMouldWin ∧ ok = inRange (masked r.mask (s.reg k) v) 7 0 60 95)) :=
  ⟨⟨mg, 0, 0, 0x8000000000000000, rd, by decide +kernel⟩,
    ⟨sc, 0, 0x8000000000000000, rd, by decide +kernel⟩,
    ⟨sc, 0, 0, rd, by decide +kernel⟩,
    ⟨hk, Reg.thermLimits, true, (findRow 12 (Reg.thermLimits % 4096)).getD ⟨"", 0, 0, 0, .ro, 0, 0⟩, rd.reg Reg.thermLimits, rd, by decide +kernel⟩⟩
theorem witness_EveryStepCompletes :
    ∃ (s : State), s.pending = [] :=
  ⟨rd, by decide +kernel⟩
theorem witness_BeatTickStartsABeat :
    ∃ (energy : List (Nat × Nat)) (s : State), s.life.powered = true :=
  ⟨[], rd, by decide +kernel⟩
theorem witness_PhasesRunInOrder :
    (∃ (s : State), s.mayPhase 1 63 = true) ∧
    (∃ (s : State), s.mayPhase 2 255 = true) ∧
    (∃ (s : State) (late : List Nat), s.mayPhase 3 4095 = true) ∧
    (∃ (s : State), s.mayPhase 4 5119 = true) ∧
    (∃ (s : State), s.mayPhase 5 5631 = true) ∧
    (∃ (s : State), s.mayPhase 6 5632 = true) ∧
    (∃ (s : State), s.mayPhase 7 7935 = true) ∧
    (∃ (s : State), s.mayPhase 8 8191 = true) ∧
    (∃ (s : State), s.mayPhase 1 63 = false) ∧
    (∃ (s : State), s.mayPhase 2 255 = false) ∧
    (∃ (s : State) (late : List Nat), s.mayPhase 3 4095 = false) ∧
    (∃ (s : State), s.mayPhase 4 5119 = false) ∧
    (∃ (s : State), s.mayPhase 5 5631 = false) ∧
    (∃ (s : State), s.mayPhase 6 5632 = false) ∧
    (∃ (s : State), s.mayPhase 7 7935 = false) ∧
    (∃ (s : State), s.mayPhase 8 8191 = false) :=
  ⟨⟨rd, by decide +kernel⟩,
    ⟨rd, by decide +kernel⟩,
    ⟨rd, [], by decide +kernel⟩,
    ⟨rd, by decide +kernel⟩,
    ⟨rd, by decide +kernel⟩,
    ⟨rd, by decide +kernel⟩,
    ⟨rd, by decide +kernel⟩,
    ⟨rd, by decide +kernel⟩,
    ⟨{ rd with time.phase := 8 }, by decide +kernel⟩,
    ⟨{ rd with time.phase := 8 }, by decide +kernel⟩,
    ⟨{ rd with time.phase := 8 }, [], by decide +kernel⟩,
    ⟨{ rd with time.phase := 8 }, by decide +kernel⟩,
    ⟨{ rd with time.phase := 8 }, by decide +kernel⟩,
    ⟨{ rd with time.phase := 8 }, by decide +kernel⟩,
    ⟨{ rd with time.phase := 8 }, by decide +kernel⟩,
    ⟨{ rd with time.phase := 8 }, by decide +kernel⟩⟩
theorem witness_IntakeAndDispatch :
    (∃ (s : State), s.live = true ∧ s.mayPhase 2 255 = true) ∧
    (∃ (s : State), s.live = true ∧ s.mayPhase 7 7935 = true ∧ s.life.shutdownEvent = none ∧ (List.map (fun o => o.id) s.ord.orders).Nodup) ∧
    (∃ (s : State), s.life.frozen = true ∧ s.mayPhase 7 7935 = true) ∧
    (∃ (s : State), s.life.frozen = true ∧ s.mayPhase 2 255 = true) ∧
    (∃ (s : State), s.live = true ∧ s.mayPhase 2 255 = true ∧ s.ord.orders = [] ∧ s.ord.hostWr = BitVec.setWidth 32 (s.reg Reg.orderHostRd) ∧ s.ord.mgmtWr = BitVec.setWidth 32 (s.reg Reg.orderMgmtRd) ∧ (List.filter (fun k => s.window k != 0 && !s.ord.waiting.contains k) (List.range 64)).length ≤ 30) :=
  ⟨⟨{ rd with ord.window := [(0, 0x0C00000000000000)], ord.waiting := [0] }, by decide +kernel⟩,
    ⟨rd, by decide +kernel⟩,
    ⟨frz rd, by decide +kernel⟩,
    ⟨frz rd, by decide +kernel⟩,
    ⟨{ rd with ord.window := [(0, 0x0C00000000000000)] }, by decide +kernel⟩⟩
theorem witness_LineageRecordCloses :
    ∃ (s : State) (u : Nat), s.live = true ∧ s.mayPhase 1 63 = true ∧ s.contain.linOn = true ∧ u < numTiles ∧ (∀ e ∈ (s.tile u).core.linRecs, e.1 < s.beat - 1) :=
  ⟨{ rd with time.time := 8192 * 3, contain.linOn := true }, 5, by decide +kernel⟩
theorem witness_SummariesCountOnce :
    (∃ (s : State) (u : Nat) (x : Summary) (late : List Nat), s.ready = true ∧ s.mayPhase 3 4095 = true ∧ u < numTiles ∧ (s.tile u).core.sums = [x] ∧ x.beat + 1 = s.beat ∧ u ∉ late ∧ x.st.taken = false ∧ (x.st.acked = true ∨ s.onItsWay u 1 = true)) ∧
    (∃ (s : State) (u : Nat) (x : Summary) (late : List Nat), (∀ (v : Nat), v ≠ u → (s.tile v).core.sums = []) ∧ s.ready = true ∧ s.mayPhase 3 4095 = true ∧ u < numTiles ∧ (s.tile u).core.sums = [x] ∧ x.beat + 1 = s.beat ∧ u ∈ late) ∧
    (∃ (s : State) (u : Nat) (x : Summary), (∀ (v : Nat), v ≠ u → (s.tile v).core.sums = []) ∧ s.ready = true ∧ s.mayPhase 3 4095 = true ∧ u < numTiles ∧ (s.tile u).core.sums = [x] ∧ x.st.acked = false ∧ x.st.lost = true) ∧
    (∃ (s : State) (u : Nat) (x : Summary), s.ready = true ∧ s.mayPhase 3 4095 = true ∧ (s.tile u).core.sums = [x] ∧ x.beat + 1 < s.beat ∧ x.st.taken = false ∧ (x.st.acked = true ∨ s.onItsWay u 1 = true)) :=
  ⟨⟨inC { rd with time.time := 8192 * 3 } 5 { sums := [{ beat := 2, sealFault := 2, st.acked := true }] }, 5, { beat := 2, sealFault := 2, st.acked := true }, [], by decide +kernel⟩,
    ⟨inC { rd with time.time := 8192 * 3 } 5 { sums := [{ beat := 2, sealFault := 2 }] }, 5, { beat := 2, sealFault := 2 }, [5], (fun v h => by rw [tile_inC_ne _ _ h]; rfl), by decide +kernel⟩,
    ⟨inC { rd with time.time := 8192 * 3 } 5 { sums := [{ beat := 2, sealFault := 2, st.lost := true }] }, 5, { beat := 2, sealFault := 2, st.lost := true }, (fun v h => by rw [tile_inC_ne _ _ h]; rfl), by decide +kernel⟩,
    ⟨inC { rd with time.time := 8192 * 3 } 5 { sums := [{ beat := 1, sealFault := 2, st.acked := true }] }, 5, { beat := 1, sealFault := 2, st.acked := true }, by decide +kernel⟩⟩
theorem witness_SynchronizationCommands :
    (∃ (cyc : Nat) (s : State), s.life.powered = true ∧ s.cyc ≤ cyc ∧ cyc < beatCycles) ∧
    (∃ (s : State), s.life.powered = true ∧ s.time.ppsLost = false ∧ 250000 ≤ s.time.ppsBeats) ∧
    (∃ (advs : List ElectAdv) (s : State), s.life.powered = true ∧ 4 ≤ s.life.stage ∧ (∀ n < numLinks, s.trained n = false)) ∧
    (∃ (advs : List ElectAdv) (s : State), s.life.powered = true ∧ 4 ≤ s.life.stage ∧ (∃ n < numLinks, s.trained n = true) ∧ (∀ a ∈ s.electAdvs advs, a.master = none ∨ a.master = some Config.chipId) ∧ fld (s.reg Reg.beatSyncCtl) 1 0 ≠ 2) ∧
    (∃ (s : State), s.life.powered = true ∧ 4 ≤ s.life.stage ∧ s.time.state = 2 ∧ s.time.missed < 3) ∧
    (∃ (x : TimexIn) (s : State), s.life.powered = true ∧ 4 ≤ s.life.stage ∧ s.time.state = 2) ∧
    (∃ (master : Word) (s : State), s.life.powered = true ∧ s.life.stage = 4 ∧ s.time.state = 2 ∧ s.time.adopted = false ∧ BitVec.toNat master % beatCycles = 0) ∧
    (∃ (s : State), s.life.powered = true ∧ s.time.state = 3 ∧ s.time.masterLost = true) ∧
    (∃ (d : Nat) (lastEdge : Word) (s : State), s.life.powered = true ∧ 1 ≤ d ∧ d ≤ 25 ∧ s.time.stopped.getLsbD d = false ∧ BitVec.toNat lastEdge + 64 ≤ BitVec.toNat s.time.time) ∧
    (∃ (d : Nat) (cyc : Nat) (s : State), (∀ (u : Nat), (s.tile u).core.resumeDue = false) ∧ s.life.powered = true ∧ 17 ≤ d ∧ d ≤ 25 ∧ s.time.stopped.getLsbD d = true ∧ s.time.ordered.getLsbD d = false ∧ s.cyc = cyc ∧ s.castPhase ≠ 3 ∧ s.stack.stopWaits = []) :=
  ⟨⟨100, rd, by decide +kernel⟩,
    ⟨{ rd with time.ppsBeats := 250000 }, by decide +kernel⟩,
    ⟨[], { rd with links := [(0, { state := 1 })] }, by decide +kernel⟩,
    ⟨[{ link := 0, master := none, hops := 0, forced := false }], { rd with links := [(0, { state := 3 })] }, by decide +kernel⟩,
    ⟨{ rd with time.state := 2 }, by decide +kernel⟩,
    ⟨{ sent := 0, upRecv := 5, upSent := 6, received := 11, offsetPs := 3, depth := 1, upMet := true }, { rd with time.state := 2 }, by decide +kernel⟩,
    ⟨0x4000, { st 4 with time.state := 2 }, by decide +kernel⟩,
    ⟨{ rd with time.state := 3, time.masterLost := true }, by decide +kernel⟩,
    ⟨1, 0, { rd with time.time := 70 }, by decide +kernel⟩,
    ⟨17, 0, { rd with time.stopped := 0x20000 }, (fun _ => rfl), by decide +kernel⟩⟩
theorem witness_PostingWritesTheRing :
    (∃ (s : State), s.live = true ∧ s.mayPhase 8 8191 = true ∧ s.ord.orders = [] ∧ s.ev.lostNow = 0 ∧ s.closedRecords = [] ∧ s.life.shutdownEvent = none ∧ s.life.freezePending = false ∧ s.contain.ready = [] ∧ s.ev.held + s.ev.queue.length + s.ev.flight.length ≤ 7680 ∧ bit (s.reg Reg.evtEvtCtl) 0 = false ∧ (∀ e ∈ s.ev.flight, ∃ x, tget none s.ev.stream e.1 = some x ∧ x.lost = false ∧ x.xid = tget 0 s.ev.xids e.1 ∧ s.lastXid (StreamId.report e.1 2) ≠ some x.xid)) ∧
    (∃ (s : State), s.live = true ∧ s.mayPhase 8 8191 = true ∧ s.ord.orders = [] ∧ s.ev.lostNow = 0 ∧ s.closedRecords = [] ∧ s.life.shutdownEvent = none ∧ s.life.freezePending = false ∧ s.contain.ready = [] ∧ s.ev.held + s.ev.queue.length + s.ev.flight.length ≤ 7680 ∧ bit (s.reg Reg.evtEvtCtl) 0 = false) :=
  ⟨⟨{ rd with ev.flight := [(3, mkRec 3 0x21 3 0 .note 0)], ev.stream := [(3, some { xid := 0 })] }, by decide +kernel⟩,
    ⟨{ rd with ev.queue := [mkRec 0 0x71 0x7FF 0 .note 0] }, by decide +kernel⟩⟩
theorem witness_HostCopyAndMessages :
    (∃ (s : State), s.life.powered = true ∧ bit (s.reg Reg.evtEvtCtl) 0 = false) ∧
    (∃ (s : State) (r : EvRec) (seq : BitVec 28), s.life.powered = true ∧ bit (s.reg Reg.evtEvtCtl) 0 = true ∧ 1 ≤ s.ev.held ∧ s.ev.held ≤ 8192 ∧ s.ev.hostWr.toNat - BitVec.toNat (s.reg Reg.evtHostRd) < BitVec.toNat (s.reg Reg.evtHostSize) ∧ s.ev.hostWr.toNat + s.ev.held < 2 ^ 32 ∧ BitVec.toNat (s.reg Reg.evtHostRd) ≤ s.ev.hostWr.toNat ∧ (∀ i < min s.ev.held (BitVec.toNat (s.reg Reg.evtHostSize) - (s.ev.hostWr.toNat - BitVec.toNat (s.reg Reg.evtHostRd))), tget none s.ev.store ((s.oldestHeld + i) % 8192) ≠ none) ∧ tget none s.ev.store (s.oldestHeld % 8192) = some (r, seq)) ∧
    (∃ (v : Nat) (s : State), s.life.powered = true ∧ v < 10) :=
  ⟨⟨rd, by decide +kernel⟩,
    ⟨{ rd.setReg Reg.evtEvtCtl 1 |>.setReg Reg.evtHostSize 4096 with ev.held := 1, ev.lastSeq := 0, ev.store := [(0, some (mkRec 0 0x71 0x7FF 0 .note 0, 0))] }, mkRec 0 0x71 0x7FF 0 .note 0, 0, by decide +kernel⟩,
    ⟨0, rd, by decide +kernel⟩⟩
theorem witness_ResetState :
    ∃ (r : Nat) (c : Nat), r < 32 ∧ c < 32 :=
  ⟨31, 31, by decide +kernel⟩
theorem witness_WholeChipReset :
    (∃ (i : S0In) (s : State), s.life.powered = true) ∧
    (∃ (i : S0In) (s : State), s.life.powered = false) ∧
    (∃ (s : State), s.life.powered = true) :=
  ⟨⟨{ powerGood := 0, pfid := 3, silent := [] }, rd, by decide +kernel⟩,
    ⟨{ powerGood := 0, pfid := 3, silent := [4] }, { rd with life.powered := false }, by decide +kernel⟩,
    ⟨rd, by decide +kernel⟩⟩
theorem witness_StagesFollowOneAnother :
    (∃ (i : S1In) (s : State), s.inStage 1 = true ∧ s.life.fwReady = true ∧ i.fuseOk = true) ∧
    (∃ (i : S1In) (s : State), s.inStage 1 = true ∧ s.life.fwReady = true ∧ i.fuseOk = false) ∧
    (∃ (i : S2In) (s : State), s.inStage 2 = true ∧ i.trained = BitVec.allOnes 12) ∧
    (∃ (i : S2In) (s : State), s.inStage 2 = true ∧ i.trained ≠ BitVec.allOnes 12) ∧
    (∃ (s : State), s.inStage 3 = true) ∧
    (∃ (ls : List LinkTrain) (s : State), s.inStage 4 = true) ∧
    (∃ (i1 : S1In) (i2 : S2In) (ls : List LinkTrain) (s : State), s.inStage 0 = true ∧ 250 ≤ s.life.stageBeats ∧ powerOk s.life.powerGood = true) ∧
    (∃ (i1 : S1In) (i2 : S2In) (ls : List LinkTrain) (s : State), s.inStage 0 = true ∧ 250 ≤ s.life.stageBeats ∧ powerOk s.life.powerGood = false) ∧
    (∃ (i1 : S1In) (i2 : S2In) (ls : List LinkTrain) (s : State), s.live = true ∧ s.life.worst ≠ 2 ∧ s.life.stage = 1 ∧ 62500 ≤ s.life.stageBeats ∧ i1.fuseOk = true) ∧
    (∃ (i1 : S1In) (i2 : S2In) (ls : List LinkTrain) (s : State), s.live = true ∧ s.life.worst ≠ 2 ∧ s.life.stage = 2 ∧ 150000 ≤ s.life.stageBeats) ∧
    (∃ (i1 : S1In) (i2 : S2In) (ls : List LinkTrain) (s : State), s.live = true ∧ s.life.worst ≠ 2 ∧ s.life.stage = 3 ∧ 250 ≤ s.life.stageBeats) ∧
    (∃ (i1 : S1In) (i2 : S2In) (ls : List LinkTrain) (s : State), s.live = true ∧ s.life.worst ≠ 2 ∧ s.life.stage = 4 ∧ 87000 ≤ s.life.stageBeats) :=
  ⟨⟨{ fuseOk := true, store := .ok, recordOk := true, lbas := 100, seed := 5, xseed := 6 }, { st 1 with life.fwReady := true }, by decide +kernel⟩,
    ⟨{ fuseOk := false, store := .ok, recordOk := true, lbas := 100, seed := 5, xseed := 6 }, { st 1 with life.fwReady := true }, by decide +kernel⟩,
    ⟨{ trained := BitVec.allOnes 12 }, st 2, by decide +kernel⟩,
    ⟨{ trained := 5 }, st 2, by decide +kernel⟩,
    ⟨st 3, by decide +kernel⟩,
    ⟨[{ link := 0, laneOk := 0xFF, peer := some 3 }], st 4, by decide +kernel⟩,
    ⟨{ fuseOk := true, store := .ok, recordOk := true, lbas := 100, seed := 5, xseed := 6 }, { trained := 5 }, [], { st 0 with life.stageBeats := 250, life.powerGood := 0x3FFFFFE }, by decide +kernel⟩,
    ⟨{ fuseOk := true, store := .ok, recordOk := true, lbas := 100, seed := 5, xseed := 6 }, { trained := 5 }, [], { st 0 with life.stageBeats := 250 }, by decide +kernel⟩,
    ⟨{ fuseOk := true, store := .ok, recordOk := true, lbas := 100, seed := 5, xseed := 6 }, { trained := 5 }, [], { st 1 with life.stageBeats := 62500 }, by decide +kernel⟩,
    ⟨{ fuseOk := true, store := .ok, recordOk := true, lbas := 100, seed := 5, xseed := 6 }, { trained := 5 }, [], { st 2 with life.stageBeats := 150000 }, by decide +kernel⟩,
    ⟨{ fuseOk := true, store := .ok, recordOk := true, lbas := 100, seed := 5, xseed := 6 }, { trained := 5 }, [], { st 3 with life.stageBeats := 250 }, by decide +kernel⟩,
    ⟨{ fuseOk := true, store := .ok, recordOk := true, lbas := 100, seed := 5, xseed := 6 }, { trained := 5 }, [], { st 4 with life.stageBeats := 87000 }, by decide +kernel⟩⟩
theorem witness_LinksAndRepose :
    (∃ (n : Nat) (s : State), s.live = true ∧ 4 ≤ s.life.stage ∧ s.trained n = true) ∧
    (∃ (ls : List LinkTrain) (s : State), s.live = true ∧ s.life.stage = 4 ∧ s.life.retrain = none) ∧
    (∃ (s : State), s.reposeReady = true ∧ s.ready = true ∧ s.life.repose = 1 ∧ s.life.reposeOrder = none) ∧
    (∃ (s : State), s.ready = true ∧ s.life.repose = 3 ∧ s.life.reposeOrder = none ∧ s.arm.parked = []) ∧
    (∃ (s : State), s.ready = true ∧ s.life.repose = 1 ∧ s.life.reposeOrder = none ∧ s.cast.run = none ∧ s.life.reposeStart + fld (s.inForce Reg.powerReposeCtl) 15 0 ≤ s.beat) :=
  ⟨⟨0, { rd with links := [(0, { state := 3 })] }, by decide +kernel⟩,
    ⟨[{ link := 0, laneOk := 0xFF, peer := some 3 }], st 4, by decide +kernel⟩,
    ⟨withTiles { rd with life.repose := 1 } fun _ => stopT, (by simp only [State.reposeReady, List.all_eq_true]; intro t ht; rw [State.pauseReady, tile_withTiles _ _ ht]; rfl), by decide +kernel⟩,
    ⟨{ rd with life.repose := 3 }, by decide +kernel⟩,
    ⟨{ rd with life.repose := 1, time.time := 8192 * 70000 }, by decide +kernel⟩⟩
theorem witness_NodeMapOperations :
    (∃ (n : NodeOp) (s : State), s.nodeReady 1 n ∧ (fenceReq n.operand).ok = true ∧ (fenceReq n.operand).rect = none ∧ (fenceReq n.operand).fence = true ∧ (fenceReq n.operand).phys = n.node ∧ (s.tile n.node).core.niPend = [] ∧ (s.tile n.node).core.router = false) ∧
    (∃ (n : NodeOp) (s : State), s.nodeReady 2 n ∧ (fenceReq n.operand).ok = true ∧ (fenceReq n.operand).rect = none ∧ (fenceReq n.operand).fence = true ∧ (fenceReq n.operand).phys = n.node ∧ (fenceReq n.operand).kind ≠ 5 ∧ (s.tile n.node).core.niPend = [] ∧ (s.tile n.node).core.router = true) ∧
    (∃ (n : NodeOp) (s : State), s.nodeReady 22 n ∧ (numTiles ≤ ofld n.operand 85 75 ∨ regionOf (ofld n.operand 85 75) ≠ regionOfLogical (ofld n.operand 95 86))) ∧
    (∃ (n : NodeOp) (s : State), s.nodeReady 22 n ∧ ofld n.operand 85 75 < numTiles ∧ regionOf (ofld n.operand 85 75) = regionOfLogical (ofld n.operand 95 86)) ∧
    (∃ (n : NodeOp) (data : List Flit) (m : NiMap) (s : State), s.nodeReady 48 n ∧ loadSection (s.tile n.node).core.loadBuf n.operand data = some m ∧ ofld n.operand 72 72 = 0) ∧
    (∃ (u : Nat) (op : BitVec 8) (o : BitVec 96) (rest : List (BitVec 8 × BitVec 96)) (s : State), s.life.powered = true ∧ u < numTiles ∧ s.regionStopped (regionOf u) = false ∧ (s.tile u).core.niPend = (op, o) :: rest ∧ op.toNat ≠ opMAP_LOAD ∧ (s.tile u).core.stalled = [] ∧ s.stack.holdWaits = []) :=
  ⟨⟨nd fnc, rd, by decide +kernel⟩,
    ⟨nd fnc, inC rd 3 { router := true, ni := { fence := oneNode 3 } }, by decide +kernel⟩,
    ⟨nd (o96 [(86, 10, 3), (75, 11, 1152), (58, 16, 8)]), rd, by decide +kernel⟩,
    ⟨nd (o96 [(86, 10, 3), (75, 11, 36), (58, 16, 8)]), rd, by decide +kernel⟩,
    ⟨nd 0, [0], (loadSection {} 0 [0]).get (by decide), rd, by decide +kernel⟩,
    ⟨3, 1, fnc, [], inC rd 3 { niPend := [(1, fnc)] }, by decide +kernel⟩⟩
theorem witness_NodeStopsAndResumes :
    (∃ (n : NodeOp) (s : State), s.nodeReady 3 n) ∧
    (∃ (n : NodeOp) (s : State), s.nodeReady 4 n ∧ (s.castPhase = 2 ∧ s.servesMaq n.node = false ∨ s.life.repose = 1)) ∧
    (∃ (n : NodeOp) (l : Nat) (r : CastRun) (s : State), s.nodeReady 4 n ∧ s.cast.run = some r ∧ s.logical n.node = some l ∧ r.phase = 3 ∧ (r.ready.any fun e => e.1 == l) = true ∧ r.copied.contains l = false ∧ s.copyLate l = false ∧ s.stackStopped n.node = false) ∧
    (∃ (n : NodeOp) (s : State), s.nodeReady 5 n ∧ (s.tile n.node).core.castStop = true ∧ s.cast.run = none ∧ s.regionStopped (regionOf n.node) = false ∧ s.stackStopped n.node = false ∧ List.filter (fun a => a.tile == n.node) s.stack.heldWrites = []) ∧
    (∃ (n : NodeOp) (s : State), s.nodeReady 5 n ∧ (s.tile n.node).core.castStop = true ∧ (s.regionStopped (regionOf n.node) = true ∨ s.stackStopped n.node = true)) :=
  ⟨⟨nd 0, rd, by decide +kernel⟩,
    ⟨nd 0, inCast (crun 2), by decide +kernel⟩,
    ⟨nd (o96 [(94, 2, 1)]), 3, { crun 3 with ready := [(3, 0)] }, inCast { crun 3 with ready := [(3, 0)] }, by decide +kernel⟩,
    ⟨nd 0, inC rd 3 { castStop := true }, by decide +kernel⟩,
    ⟨nd 0, { inC rd 3 { castStop := true } with time.stopped := 0x3FFFFFF }, by decide +kernel⟩⟩
theorem witness_NodeTestOperations :
    (∃ (n : NodeOp) (s : State), s.nodeReady 16 (withFunc n 2 0) ∧ (fun f => chiselStartOk (withFunc n 2 f).operand = true) 0 ∧ (s.tile n.node).chisel.node.arm = 0) ∧
    (∃ (n : NodeOp) (s : State), s.nodeReady 16 (withFunc n 2 0) ∧ (fun f => chiselStartOk (withFunc n 2 f).operand = true) 0 ∧ (s.tile n.node).chisel.node.arm = 0) ∧
    (∃ (n : NodeOp) (s : State), s.nodeReady 16 (withFunc n 2 0) ∧ (fun f => chiselStartOk (withFunc n 2 f).operand = true) 0 ∧ (s.tile n.node).chisel.node.arm ≠ 0) ∧
    (∃ (n : NodeOp) (s : State), s.nodeReady 16 (withFunc n 2 0) ∧ ¬(fun f => chiselStartOk (withFunc n 2 f).operand = true) 0) ∧
    (∃ (n : NodeOp) (s : State), s.nodeReady 16 (withFunc n 2 1) ∧ (fun f => chiselStartOk (withFunc n 2 f).operand = true) 1 ∧ (s.tile n.node).chisel.node.arm = 0) ∧
    (∃ (n : NodeOp) (s : State), s.nodeReady 16 (withFunc n 2 1) ∧ (fun f => chiselStartOk (withFunc n 2 f).operand = true) 1 ∧ (s.tile n.node).chisel.node.arm ≠ 0) ∧
    (∃ (n : NodeOp) (s : State), s.nodeReady 16 (withFunc n 2 1) ∧ ¬(fun f => chiselStartOk (withFunc n 2 f).operand = true) 1) ∧
    (∃ (n : NodeOp) (s : State), s.nodeReady 16 (withFunc n 2 2) ∧ (fun f => chiselStartOk (withFunc n 2 f).operand = true) 2 ∧ (s.tile n.node).chisel.node.arm = 0) ∧
    (∃ (n : NodeOp) (s : State), s.nodeReady 16 (withFunc n 2 2) ∧ (fun f => chiselStartOk (withFunc n 2 f).operand = true) 2 ∧ (s.tile n.node).chisel.node.arm ≠ 0) ∧
    (∃ (n : NodeOp) (s : State), s.nodeReady 16 (withFunc n 2 2) ∧ ¬(fun f => chiselStartOk (withFunc n 2 f).operand = true) 2) ∧
    (∃ (n : NodeOp) (s : State), s.nodeReady 16 (withFunc n 2 3) ∧ chiselStartOk (withFunc n 2 3).operand = true) ∧
    (∃ (n : NodeOp) (s : State), s.nodeReady 17 (withFunc n 2 1) ∧ chiselAbortOk (withFunc n 2 1).operand = true) ∧
    (∃ (n : NodeOp) (s : State), s.nodeReady 17 (withFunc n 2 2) ∧ chiselAbortOk (withFunc n 2 2).operand = true) ∧
    (∃ (n : NodeOp) (s : State), s.nodeReady 17 (withFunc n 2 0) ∧ chiselAbortOk (withFunc n 2 0).operand = true) ∧
    (∃ (n : NodeOp) (s : State), s.nodeReady 49 n ∧ (s.tile n.node).chisel.carried = true) :=
  ⟨⟨nd 0, rd, by decide +kernel⟩,
    ⟨nd 0, inT rd 3 { chisel := { state := 4 } }, by decide +kernel⟩,
    ⟨nd 0, inT rd 3 { chisel := { node.arm := 1 } }, by decide +kernel⟩,
    ⟨nd (o96 [(62, 1, 1)]), rd, by decide +kernel⟩,
    ⟨nd 0, rd, by decide +kernel⟩,
    ⟨nd 0, inT rd 3 { chisel := { node.arm := 1 } }, by decide +kernel⟩,
    ⟨nd (o96 [(62, 1, 1)]), rd, by decide +kernel⟩,
    ⟨nd (o96 [(78, 11, 0x7FF), (48, 14, 2)]), rd, by decide +kernel⟩,
    ⟨nd (o96 [(78, 11, 0x7FF), (48, 14, 2)]), inT rd 3 { chisel := { node.arm := 1 } }, by decide +kernel⟩,
    ⟨nd 0, rd, by decide +kernel⟩,
    ⟨nd (o96 [(48, 14, 2)]), inT rd 3 { chisel := { node.arm := 1 } }, by decide +kernel⟩,
    ⟨nd 0, inT rd 3 { chisel := { node.arm := 1 } }, by decide +kernel⟩,
    ⟨nd 0, inT rd 3 { chisel := { node.arm := 1 } }, by decide +kernel⟩,
    ⟨nd 0, inT rd 3 { chisel := { node.arm := 1 } }, by decide +kernel⟩,
    ⟨nd 0, inT rd 3 { chisel := { node.arm := 1, carried := true } }, by decide +kernel⟩⟩
theorem witness_NodeTestOperations_2 :
    (∃ (n : NodeOp) (s : State), s.nodeReady 49 n ∧ (s.tile n.node).chisel.carried = false) ∧
    (∃ (u : Nat) (s : State), s.ready = true ∧ s.inRepose = false ∧ u < numTiles ∧ (s.tile u).chisel.state = 0 ∧ s.chiselDueAt u ≤ s.beat) ∧
    (∃ (u : Nat) (s : State), s.ready = true ∧ s.inRepose = false ∧ u < numTiles ∧ (s.tile u).chisel.state = 1 ∧ (s.tile u).chisel.forced = false ∧ s.carries u = true ∧ s.deferLimit + (s.tile u).chisel.ext ≤ (s.tile u).chisel.deferred) ∧
    (∃ (u : Nat) (s : State), s.ready = true ∧ s.inRepose = false ∧ u < numTiles ∧ (s.tile u).chisel.state = 2 ∧ (s.tile u).core.idleBoundary = true ∧ (s.tile u).chisel.node.arm ≠ 0 ∧ (s.tile u).core.xfers = [] ∧ (s.tile u).core.stalled = [] ∧ s.stackWaiting u = false ∧ s.nbAtWork u = false) ∧
    (∃ (u : Nat) (s : State), s.ready = true ∧ s.inRepose = false ∧ u < numTiles ∧ (s.tile u).chisel.state = 2 ∧ s.slotOf u ≠ none ∧ (s.tile u).chisel.armBeat + s.armWait ≤ s.beat ∧ (s.tile u).chisel.pend = false) ∧
    (∃ (u : Nat) (s : State) (k : Nat) (x : Slot), s.ready = true ∧ s.inRepose = false ∧ u < numTiles ∧ s.slotOf u = some (k, x) ∧ x.role = 2 ∧ (s.tile u).chisel.state = 4 ∧ s.startOk u = true ∧ s.logical u = none) ∧
    (∃ (u : Nat) (s : State), s.ready = true ∧ s.inRepose = false ∧ u < numTiles ∧ (s.tile u).chisel.state = 1 ∧ (s.tile u).chisel.forced = true ∧ (s.tile u).chisel.startedSlotWait = false ∧ s.mayArm u = true ∧ (s.tile u).chisel.forcedBeat + s.forceWait ≤ s.beat) ∧
    (∃ (u : Nat) (s : State) (l : Nat), s.holdDrained l = true ∧ (∀ v < numTiles, (s.tile v).core.drains = []) ∧ s.ready = true ∧ u < numTiles ∧ s.logical u = some l ∧ s.slotOf u ≠ none ∧ (s.tile u).chisel.state = 6) ∧
    (∃ (u : Nat) (s : State) (r : SegResult), s.ready = true ∧ u < numTiles ∧ s.slotOf u ≠ none ∧ (s.tile u).chisel.state = 7 ∧ (s.tile u).chisel.seg = r.seg ∧ r.seg < 14 ∧ (members (s.tile u).chisel.node.segs).head? = some r.seg) ∧
    (∃ (u : Nat) (s : State) (k : Nat) (x : Slot) (g : Nat), s.ready = true ∧ u < numTiles ∧ s.slotOf u = some (k, x) ∧ x.role = 0 ∧ (s.tile u).chisel.state = 8 ∧ g < 8 ∧ (s.tile u).chisel.undec = mask16 [g] ∧ (s.tile u).chisel.witnessOf g = none ∧ tget 0 (s.tile u).chisel.undecBeat g + s.witnessWait ≤ s.beat) ∧
    (∃ (u : Nat) (s : State), s.ready = true ∧ u < numTiles ∧ (s.tile u).chisel.state = 7 ∧ (s.tile u).chisel.node.segs = 0 ∧ (s.tile u).chisel.list &&& ~~~(s.tile u).chisel.got = 0) ∧
    (∃ (u : Nat) (s : State), s.ready = true ∧ u < numTiles ∧ s.slotOf u ≠ none ∧ s.sessionOver u = true ∧ (s.tile u).chisel.state = 8) ∧
    (∃ (u : Nat) (s : State) (stuck : Option Nat), s.ready = true ∧ u < numTiles ∧ (s.tile u).chisel.state = 9 ∧ (s.tile u).chisel.node.finish ≠ 0 ∧ (s.tile u).chisel.reinit = none) :=
  ⟨⟨nd 0, inT rd 3 { chisel := { node.arm := 1 } }, by decide +kernel⟩,
    ⟨0, { rd with time.time := 8192 * 1000000 }, by decide +kernel⟩,
    ⟨3, inT { rd with force := [(Reg.chiselChiselTimes, 0)] } 3 { chisel := { state := 1 } }, by decide +kernel⟩,
    ⟨3, inT rd 3 { chisel := { state := 2, node.arm := 1 } }, by decide +kernel⟩,
    ⟨3, { ch3 (slt 2 3 4) { state := 2 } with time.time := 8192 * 70000 }, by decide +kernel⟩,
    ⟨259, { inT (hotAt 259) 259 { chisel := { state := 4 } } with chisel.slots := [(0, some (slt 2 259 4))] }, 0, slt 2 259 4, by decide +kernel⟩,
    ⟨3, { inT rd 3 { chisel := { state := 1, forced := true } } with time.time := 8192 * 70000 }, by decide +kernel⟩,
    ⟨3, withTiles (ch3 (slt 0 3 4) { state := 6 }) heldT, 3, (by simp only [State.holdDrained, List.all_eq_true]; intro t ht; rw [tile_withTiles _ _ ht]; simp [heldT, NiMap.held]), (fun v hv => by rw [tile_withTiles _ _ (List.mem_range.2 hv)]; rfl), by decide +kernel⟩,
    ⟨3, ch3 (slt 0 3 4) { state := 7, seg := 8, node.segs := 0x100 }, { seg := 8 }, by decide +kernel⟩,
    ⟨3, { ch3 (slt 0 3 4) { state := 8, undec := 2 } with time.time := 8192 * 70000 }, 0, slt 0 3 4, 1, by decide +kernel⟩,
    ⟨3, ch3 (slt 0 3 4) { state := 7, list := 3, got := 3 }, by decide +kernel⟩,
    ⟨3, { ch3 (slt 0 3 4) { state := 8 } with time.time := 8192 * 70000 }, by decide +kernel⟩,
    ⟨259, inT rd 259 { chisel := { state := 9, node.finish := 1 } }, none, by decide +kernel⟩⟩
theorem witness_NodeMaquetteOperations :
    (∃ (n : NodeOp) (s : State), s.nodeReady 18 (withFunc n 4 0) ∧ maqSetOk 0 (withFunc n 4 0).operand = true ∧ genNewer (s.tile n.node).core.nodeGen.toNat n.mapgen.toNat = false) ∧
    (∃ (n : NodeOp) (s : State), s.nodeReady 18 (withFunc n 4 1) ∧ maqSetOk 1 (withFunc n 4 1).operand = true) ∧
    (∃ (n : NodeOp) (s : State), s.nodeReady 18 (withFunc n 4 2) ∧ maqSetOk 2 (withFunc n 4 2).operand = true ∧ s.armOk n.node = true ∧ genNewer (s.tile n.node).core.nodeGen.toNat n.mapgen.toNat = false) ∧
    (∃ (n : NodeOp) (s : State), s.nodeReady 18 (withFunc n 4 3) ∧ maqSetOk 3 (withFunc n 4 3).operand = true ∧ s.armOk n.node = true) ∧
    (∃ (n : NodeOp) (s : State), s.nodeReady 18 (withFunc n 4 4) ∧ maqSetOk 4 (withFunc n 4 4).operand = true ∧ s.armOk n.node = true) ∧
    (∃ (n : NodeOp) (s : State), s.nodeReady 18 (withFunc n 4 3) ∧ maqSetOk 3 (withFunc n 4 3).operand = true ∧ (s.tile n.node).core.router = true) ∧
    (∃ (n : NodeOp) (s : State), s.nodeReady 18 (withFunc n 4 5) ∧ maqSetOk 5 (withFunc n 4 5).operand = true ∧ (s.tile n.node).maq.slot = ofld n.operand 91 87) ∧
    (∃ (n : NodeOp) (s : State), s.nodeReady 18 (withFunc n 4 6) ∧ maqSetOk 6 (withFunc n 4 6).operand = true) ∧
    (∃ (n : NodeOp) (s : State) (f : Nat) (c : Instr), s.nodeReady 18 (withFunc n 4 f) ∧ maqSetOk f (withFunc n 4 f).operand = false ∧ (c, f) ∈ [(.maqSetPairAdd n, 0), (.maqSetPairDel n, 1), (.maqSetArmSource n, 2), (.maqSetArmHost n, 3), (.maqSetArmReferee n, 4), (.maqSetEnd n, 5), (.maqSetSetRate n, 6)]) ∧
    (∃ (u : Nat) (h : Nat) (s : State), s.ready = true ∧ s.inRepose = false ∧ s.dispatching = true ∧ bit (s.inForce Reg.maqMaqCtl) 0 = true ∧ s.dueTiles = [u] ∧ s.sourceOk u = true ∧ s.maqActive < fld (s.inForce Reg.maqMaqCtl) 62 56 ∧ (∃ k < 32, s.session k = none) ∧ nearestByRegion u s.freeHosts = some h) ∧
    (∃ (k : Nat) (x : Session) (s : State), s.ready = true ∧ s.session k = some x ∧ x.phase = 0 ∧ s.armOver x = true) ∧
    (∃ (k : Nat) (x : Session) (s : State), s.ready = true ∧ s.session k = some x ∧ x.phase = 1 ∧ s.maqLate x = true) ∧
    (∃ (k : Nat) (x : Session) (s : State), s.ready = true ∧ s.session k = some x ∧ x.phase = 1 ∧ (s.tile x.host).core.halted = true) ∧
    (∃ (k : Nat) (x : Session) (s : State), s.ready = true ∧ s.session k = some x ∧ x.phase = 3 ∧ x.referee = none ∧ s.dispatching = true ∧ s.fenced x.host = true) ∧
    (∃ (k : Nat) (x : Session) (s : State) (q : Nat), s.ready = true ∧ s.session k = some x ∧ x.phase = 3 ∧ x.referee = some q ∧ s.fenced x.host = true) ∧
    (∃ (k : Nat) (x : Session) (s : State) (u : Nat) (y : Xfer), s.ready = true ∧ s.session k = some x ∧ s.tiles = [(u, s.tile u)] ∧ (s.tile u).core.xfers = [y] ∧ y.hosts = [x.host]) :=
  ⟨⟨nd 0, rd, by decide +kernel⟩,
    ⟨nd 0, rd, by decide +kernel⟩,
    ⟨nd 0, rd, by decide +kernel⟩,
    ⟨nd 0, rd, by decide +kernel⟩,
    ⟨nd 0, rd, by decide +kernel⟩,
    ⟨nd 0, inC rd 3 { router := true }, by decide +kernel⟩,
    ⟨nd (o96 [(87, 5, 2)]), inT rd 3 { maq := { slot := 2, role := 3 } }, by decide +kernel⟩,
    ⟨nd 0, rd, by decide +kernel⟩,
    ⟨nd (o96 [(76, 11, 1152)]), rd, 0, .maqSetPairAdd (nd (o96 [(76, 11, 1152)])), by decide +kernel⟩,
    ⟨3, 259, { rd with time.phase := 7, force := [(Reg.maqMaqCtl, setFld (rd.inForce Reg.maqMaqCtl) 0 0 1)], tiles := [(3, { maq := { due := some 0 } }), (259, { maq := { eligible := true } })] }, by decide +kernel⟩,
    ⟨0, { ss with armBeat := some 0 }, { mq { ss with armBeat := some 0 } with time.time := 8192 * 300 }, by decide +kernel⟩,
    ⟨0, { ss with phase := 1, endBeat := some 0 }, { mq { ss with phase := 1, endBeat := some 0 } with time.time := 8192 * 300 }, by decide +kernel⟩,
    ⟨0, { ss with phase := 1 }, inC (mq { ss with phase := 1 }) 300 { halted := true }, by decide +kernel⟩,
    ⟨0, { ss with phase := 3 }, { mq { ss with phase := 3 } with map.hub.fence := oneNode 300, time.phase := 7 }, by decide +kernel⟩,
    ⟨0, { ss with phase := 3, referee := some 301 }, { mq { ss with phase := 3, referee := some 301 } with map.hub.fence := oneNode 300 }, 301, by decide +kernel⟩,
    ⟨0, ss, inC (mq ss) 3 { xfers := [{ xf with hosts := [300] }] }, 3, { xf with hosts := [300] }, by decide +kernel⟩⟩
theorem witness_NodeDebugOperations :
    (∃ (n : NodeOp) (s : State), s.nodeReady 19 (withFunc n 2 0) ∧ (s.tile n.node).core.router = false ∧ ofld n.operand 90 89 ≤ 1) ∧
    (∃ (n : NodeOp) (s : State), s.nodeReady 19 (withFunc n 2 0) ∧ (s.tile n.node).core.router = true ∧ s.watchArmed (ofld n.operand 93 91) = false ∧ ofld n.operand 90 89 ≤ 1) ∧
    (∃ (n : NodeOp) (s : State), s.nodeReady 19 (withFunc n 2 0) ∧ 1 < ofld n.operand 90 89) ∧
    (∃ (n : NodeOp) (s : State), s.nodeReady 19 (withFunc n 2 1)) ∧
    (∃ (n : NodeOp) (s : State), s.nodeReady 20 n ∧ (s.tile n.node).core.router = false ∧ (s.tile n.node).core.halted = false ∧ (s.tile n.node).core.stepping = false ∧ ofld n.operand 95 88 = 0 ∧ (s.tile n.node).core.cur = none) ∧
    (∃ (n : NodeOp) (s : State), s.nodeReady 20 n ∧ (s.tile n.node).core.router = false ∧ (s.tile n.node).core.halted = false ∧ (s.tile n.node).core.stepping = false ∧ 0 < ofld n.operand 95 88) ∧
    (∃ (n : NodeOp) (s : State), s.nodeReady 21 n ∧ (s.tile n.node).core.router = false ∧ (s.tile n.node).core.cur = none) ∧
    (∃ (n : NodeOp) (s : State), s.nodeReady 32 n) ∧
    (∃ (n : NodeOp) (s : State), s.nodeReady 33 n ∧ ofld n.operand 95 91 < 13) ∧
    (∃ (n : NodeOp) (s : State), s.nodeReady 33 n ∧ 13 ≤ ofld n.operand 95 91) ∧
    (∃ (n : NodeOp) (s : State), s.nodeReady 35 n) ∧
    (∃ (n : NodeOp) (s : State), s.nodeReady 34 (withFunc n 2 0)) ∧
    (∃ (n : NodeOp) (s : State), s.nodeReady 34 (withFunc n 2 1)) :=
  ⟨⟨nd 0, rd, by decide +kernel⟩,
    ⟨nd 0, inC rd 3 { router := true }, by decide +kernel⟩,
    ⟨nd (o96 [(89, 2, 2)]), rd, by decide +kernel⟩,
    ⟨nd 0, rd, by decide +kernel⟩,
    ⟨nd 0, rd, by decide +kernel⟩,
    ⟨nd (o96 [(88, 8, 3)]), rd, by decide +kernel⟩,
    ⟨nd 0, inC rd 3 { stepping := true }, by decide +kernel⟩,
    ⟨nd 0, rd, by decide +kernel⟩,
    ⟨nd 0, rd, by decide +kernel⟩,
    ⟨nd (o96 [(91, 5, 13)]), rd, by decide +kernel⟩,
    ⟨nd 0, rd, by decide +kernel⟩,
    ⟨nd 0, rd, by decide +kernel⟩,
    ⟨nd 0, inC rd 3 { standing := true }, by decide +kernel⟩⟩
theorem witness_AcknowledgementsAndResends :
    (∃ (k : StreamId) (s : State), s.life.powered = true ∧ s.inInbox k = true) ∧
    (∃ (node : Nat) (vc : Nat) (o : Outgoing) (s : State), s.life.powered = true ∧ node < numTiles ∧ s.arm.sent = [o] ∧ o.vc = vc ∧ o.left.getLsbD node = true) ∧
    (∃ (node : Nat) (vc : Nat) (o : Outgoing) (x : BitVec 16) (s : State), s.life.powered = true ∧ s.arm.sent = [o] ∧ s.arm.queue = [] ∧ x ≠ o.xid) ∧
    (∃ (node : Nat) (vc : Nat) (o : Outgoing) (s : State), s.life.powered = true ∧ node < numTiles ∧ s.arm.sent = [o] ∧ s.arm.queue = [] ∧ o.vc = vc ∧ o.left = oneNode node ∧ o.op = 3) ∧
    (∃ (chip : BitVec 13) (net : Bool) (x : BitVec 16) (s : State), s.life.powered = true ∧ List.find? (fun w => decide (w.1 = StreamId.sentinel chip net)) s.arm.peerWait = none ∧ s.cast.mirrorOut = []) ∧
    (∃ (node : Nat) (vc : Nat) (o : Outgoing) (s : State), s.life.powered = true ∧ node < numTiles ∧ s.arm.sent = [o] ∧ o.vc = vc ∧ o.left.getLsbD node = true ∧ o.gone.getLsbD node = false ∧ s.timerExpired o node = true ∧ tget 0 o.resends node < s.resendLimit) ∧
    (∃ (node : Nat) (vc : Nat) (o : Outgoing) (s : State), s.life.powered = true ∧ node < numTiles ∧ s.arm.sent = [o] ∧ o.vc = vc ∧ o.left.getLsbD node = true ∧ o.gone.getLsbD node = false ∧ s.timerExpired o node = true ∧ s.resendLimit ≤ tget 0 o.resends node) ∧
    (∃ (node : Nat) (vc : Nat) (id : Nat) (o : Outgoing) (s : State), s.life.powered = true ∧ node < numTiles ∧ s.arm.sent = [o] ∧ s.arm.queue = [] ∧ o.vc = vc ∧ o.left = oneNode node ∧ o.order = some id ∧ s.order id ≠ none ∧ (o.op = 23 ∨ o.op = 18 ∧ ofld o.operand 95 92 = 6)) :=
  ⟨⟨.order 3 1, { rd with arm.inbox := [(.order 3 1, 5)], arm.lastXid := [(.order 3 1, 5)] }, by decide +kernel⟩,
    ⟨3, 1, og, { rd with arm.sent := [og] }, by decide +kernel⟩,
    ⟨3, 1, og, 6, { rd with arm.sent := [og] }, by decide +kernel⟩,
    ⟨3, 1, og, { rd with arm.sent := [og] }, by decide +kernel⟩,
    ⟨7, true, 5, { rd with arm.peers := [{ stream := .sentinel 7 true, xid := 5, resends := 0, held := false, start := 0 }] }, by decide +kernel⟩,
    ⟨3, 1, og, { rd with arm.sent := [og], time.time := 0x100000000 }, by decide +kernel⟩,
    ⟨3, 1, { og with resends := [(3, rd.resendLimit)] }, { rd with arm.sent := [{ og with resends := [(3, rd.resendLimit)] }], time.time := 0x100000000 }, by decide +kernel⟩,
    ⟨3, 1, 0, { og with op := 0x17, order := some 0 }, { rd with arm.sent := [{ og with op := 0x17, order := some 0 }], ord.orders := [{ id := 0, ref := hr, word := 0, reserved := 2, detail := 0, beat := 0 }] }, by decide +kernel⟩⟩
theorem witness_PacketsArrive :
    (∃ (p : ArmPacket) (s : State), s.life.powered = true ∧ p.net = ArmNet.order ∧ p.at_ < numTiles ∧ packetArrives p = true ∧ ((throughHops p.hops p.flits).2.1 = true ∨ crcPasses (throughHops p.hops p.flits).2.2 = false)) ∧
    (∃ (p : ArmPacket) (u : Nat) (h : ArmHead) (s : State), s.life.powered = true ∧ (p.net = ArmNet.order ∨ p.net = ArmNet.report) ∧ h = armHead ((throughHops p.hops p.flits).2.2.headD 0) ∧ packetLostAt p = some u ∧ u < numTiles) ∧
    (∃ (p : ArmPacket) (s : State), s.life.powered = true ∧ (p.net = ArmNet.order ∨ p.net = ArmNet.report) ∧ packetLostAt p = none ∧ packetArrives p = false) ∧
    (∃ (p : ArmPacket) (h : ArmHead) (s : State), s.life.powered = true ∧ p.net = ArmNet.order ∧ p.at_ < numTiles ∧ packetArrives p = true ∧ h = armHead ((throughHops p.hops p.flits).2.2.headD 0) ∧ (throughHops p.hops p.flits).2.1 = false ∧ crcPasses (throughHops p.hops p.flits).2.2 = true ∧ kindOk p.net h.kind (throughHops p.hops p.flits).2.2.length = true ∧ h.len = (throughHops p.hops p.flits).2.2.length ∧ h.kind ≠ 8 ∧ h.kind ≠ 9 ∧ s.lastXid (StreamId.order p.at_ h.vc) = some h.xid) ∧
    (∃ (link : Nat) (n : Nat) (route : Nat) (cls : Nat) (h : Flit) (body : List Flit) (s : State), s.life.powered = true ∧ s.trained link = true ∧ kindOk (if (flitFld h 120 120 == 1) = true then ArmNet.sentReport else ArmNet.sentOrder) (flitFld h 127 124) (body.length + 1) = true ∧ flitFld h 123 121 = body.length ∧ flitFld h 127 124 ≠ 3 ∧ flitFld h 127 124 ≠ 4 ∧ s.chipNum ≠ some (BitVec.ofNat 13 (flitFld h 105 93)) ∧ s.nextHop link h = some (n, route, cls) ∧ n ≠ link ∧ s.trained n = true) ∧
    (∃ (link : Nat) (n : Nat) (route : Nat) (cls : Nat) (h : Flit) (body : List Flit) (s : State), s.life.powered = true ∧ s.trained link = true ∧ kindOk (if (flitFld h 120 120 == 1) = true then ArmNet.sentReport else ArmNet.sentOrder) (flitFld h 127 124) (body.length + 1) = true ∧ flitFld h 123 121 = body.length ∧ flitFld h 127 124 ≠ 3 ∧ flitFld h 127 124 ≠ 4 ∧ s.chipNum ≠ some (BitVec.ofNat 13 (flitFld h 105 93)) ∧ s.nextHop link h = some (n, route, cls) ∧ s.trained n = false) ∧
    (∃ (k : Nat) (s : State), s.life.powered = true ∧ k < 64 ∧ bit (s.route0 k) 63 = true ∧ s.onAlt k = true ∧ s.arm.primLost.getLsbD k = true ∧ s.trained (routeLink (s.route0 k)) = true ∧ s.peerBusy (BitVec.ofNat 13 (fld (s.route0 k) 60 48)) = false) :=
  ⟨⟨{ net := .order, at_ := 3, flits := [toN 3 [(120, 3, 1)], 0], hops := [(1, 1), (1, 3)] }, rd, by decide +kernel⟩,
    ⟨{ net := .report, at_ := 0x4C0, flits := pkt (fl [(124, 4, 10), (120, 3, 2), (107, 11, 3), (96, 11, 0x4C0), (78, 2, 1), (32, 46, 1)]) [0, 0] }, 3, armHead ((pkt (fl [(124, 4, 10), (120, 3, 2), (107, 11, 3), (96, 11, 0x4C0), (78, 2, 1), (32, 46, 1)]) [0, 0]).headD 0), rd, by decide +kernel⟩,
    ⟨{ net := .order, at_ := 4, flits := pkt (toN 3 [(120, 3, 1)]) [0] }, rd, by decide +kernel⟩,
    ⟨{ net := .order, at_ := 3, flits := pkt (toN 3 [(120, 3, 1), (118, 2, 1), (80, 16, 5)]) [0] }, armHead ((pkt (toN 3 [(120, 3, 1), (118, 2, 1), (80, 16, 5)]) [0]).headD 0), { rd with arm.lastXid := [(.order 3 1, 5)] }, by decide +kernel⟩,
    ⟨0, 1, 0, 0, fl [(121, 3, 1), (93, 13, 9), (33, 44, 1)], [0], { rd.setReg Reg.armSlinkCfg 0x8001 |>.setReg (Reg.armSlinkCfg + 8) 0x8001 with links := [(0, { state := 3 }), (1, { state := 3 })] }, by decide +kernel⟩,
    ⟨0, 1, 0, 0, fl [(121, 3, 1), (93, 13, 9), (33, 44, 1)], [0], { rd.setReg Reg.armSlinkCfg 0x8001 |>.setReg (Reg.armSlinkCfg + 8) 0x8001 with links := [(0, { state := 3 })] }, by decide +kernel⟩,
    ⟨0, { rd with arm.onAlt := 1, arm.primLost := 1, links := [(0, { state := 3 })], force := [(Reg.armSrouteW0, 0x8001000000000000)] }, by decide +kernel⟩⟩
theorem witness_OrdersRefusedInOrder :
    (∃ (r : OrderRef) (o : BitVec 48) (c : Instr) (w : Word) (s : State), (c, w) ∈ [(.fence r o, ordWord opFENCE r.tag o), (.unfence r o, ordWord opUNFENCE r.tag o), (.promote r o, ordWord opPROMOTE r.tag o), (.chiselNow r o, ordWord opCHISEL_NOW r.tag o), (.chiselDefer r o, ordWord opCHISEL_DEFER r.tag o), (.maqRate r o, ordWord opMAQ_RATE r.tag o), (.cast r o, ordWord opCAST r.tag o), (.restore r o, ordWord opRESTORE r.tag o), (.watchDisarm r o, ordWord opWATCH r.tag (withField o 44 43 2)), (.stepTile r o, ordWord opSTEP r.tag o), (.run r o, ordWord opRUN r.tag o), (.freeze r o, ordWord opFREEZE r.tag o), (.digestOpen r o, ordWord opDIGEST_OPEN r.tag o), (.digestClose r o, ordWord opDIGEST_CLOSE r.tag o), (.reposeEnter r o, ordWord opREPOSE r.tag (withField o 47 47 0)), (.reposeWake r o, ordWord opREPOSE r.tag (withField o 47 47 1)), (.fuseCommit r o, ordWord opFUSE_COMMIT r.tag o), (.partnerUnbind r o, ordWord opPARTNER_BIND r.tag (withField o 47 47 0)), (.releasePartition r o, ordWord opRELEASE_PARTITION r.tag o)] ∧ s.live = true ∧ s.life.shutdownEvent = none ∧ OrderRef.own r = true ∧ s.mayTake r.master w false = true ∧ (∀ x ∈ s.ord.orders, x.id ≠ s.ord.nextId) ∧ s.badOperand w = true) ∧
    (∃ (r : OrderRef) (o : BitVec 48) (c : Instr) (w : Word) (s : State), (c, w) ∈ [(.fence r o, ordWord opFENCE r.tag o), (.unfence r o, ordWord opUNFENCE r.tag o), (.promote r o, ordWord opPROMOTE r.tag o), (.chiselNow r o, ordWord opCHISEL_NOW r.tag o), (.chiselDefer r o, ordWord opCHISEL_DEFER r.tag o), (.maqRate r o, ordWord opMAQ_RATE r.tag o), (.cast r o, ordWord opCAST r.tag o), (.restore r o, ordWord opRESTORE r.tag o), (.watchDisarm r o, ordWord opWATCH r.tag (withField o 44 43 2)), (.stepTile r o, ordWord opSTEP r.tag o), (.run r o, ordWord opRUN r.tag o), (.freeze r o, ordWord opFREEZE r.tag o), (.digestOpen r o, ordWord opDIGEST_OPEN r.tag o), (.digestClose r o, ordWord opDIGEST_CLOSE r.tag o), (.reposeEnter r o, ordWord opREPOSE r.tag (withField o 47 47 0)), (.reposeWake r o, ordWord opREPOSE r.tag (withField o 47 47 1)), (.fuseCommit r o, ordWord opFUSE_COMMIT r.tag o), (.partnerUnbind r o, ordWord opPARTNER_BIND r.tag (withField o 47 47 0)), (.releasePartition r o, ordWord opRELEASE_PARTITION r.tag o)] ∧ s.live = true ∧ s.life.shutdownEvent = none ∧ OrderRef.own r = true ∧ s.mayTake r.master w false = true ∧ (∀ x ∈ s.ord.orders, x.id ≠ s.ord.nextId) ∧ s.badOperand w = false ∧ (s.life.freezePending = true ∨ s.legal w = false ∨ s.ownIllegal w = true)) ∧
    (∃ (r : OrderRef) (o : BitVec 48) (c : Instr) (w : Word) (s : State), (c, w) ∈ [(.fence r o, ordWord opFENCE r.tag o), (.unfence r o, ordWord opUNFENCE r.tag o), (.promote r o, ordWord opPROMOTE r.tag o), (.chiselNow r o, ordWord opCHISEL_NOW r.tag o), (.chiselDefer r o, ordWord opCHISEL_DEFER r.tag o), (.maqRate r o, ordWord opMAQ_RATE r.tag o), (.cast r o, ordWord opCAST r.tag o), (.restore r o, ordWord opRESTORE r.tag o), (.watchDisarm r o, ordWord opWATCH r.tag (withField o 44 43 2)), (.stepTile r o, ordWord opSTEP r.tag o), (.run r o, ordWord opRUN r.tag o), (.freeze r o, ordWord opFREEZE r.tag o), (.digestOpen r o, ordWord opDIGEST_OPEN r.tag o), (.digestClose r o, ordWord opDIGEST_CLOSE r.tag o), (.reposeEnter r o, ordWord opREPOSE r.tag (withField o 47 47 0)), (.reposeWake r o, ordWord opREPOSE r.tag (withField o 47 47 1)), (.fuseCommit r o, ordWord opFUSE_COMMIT r.tag o), (.partnerUnbind r o, ordWord opPARTNER_BIND r.tag (withField o 47 47 0)), (.releasePartition r o, ordWord opRELEASE_PARTITION r.tag o)] ∧ s.live = true ∧ s.life.shutdownEvent = none ∧ OrderRef.own r = true ∧ s.mayTake r.master w false = true ∧ (∀ x ∈ s.ord.orders, x.id ≠ s.ord.nextId) ∧ s.badOperand w = false ∧ s.life.freezePending = false ∧ s.legal w = true ∧ s.ownIllegal w = false ∧ s.unlicensed w = true) ∧
    (∃ (r : OrderRef) (o : BitVec 48) (c : Instr) (w : Word) (s : State), (c, w) ∈ [(.fence r o, ordWord opFENCE r.tag o), (.unfence r o, ordWord opUNFENCE r.tag o), (.promote r o, ordWord opPROMOTE r.tag o), (.chiselNow r o, ordWord opCHISEL_NOW r.tag o), (.chiselDefer r o, ordWord opCHISEL_DEFER r.tag o), (.maqRate r o, ordWord opMAQ_RATE r.tag o), (.cast r o, ordWord opCAST r.tag o), (.restore r o, ordWord opRESTORE r.tag o), (.watchDisarm r o, ordWord opWATCH r.tag (withField o 44 43 2)), (.stepTile r o, ordWord opSTEP r.tag o), (.run r o, ordWord opRUN r.tag o), (.freeze r o, ordWord opFREEZE r.tag o), (.digestOpen r o, ordWord opDIGEST_OPEN r.tag o), (.digestClose r o, ordWord opDIGEST_CLOSE r.tag o), (.reposeEnter r o, ordWord opREPOSE r.tag (withField o 47 47 0)), (.reposeWake r o, ordWord opREPOSE r.tag (withField o 47 47 1)), (.fuseCommit r o, ordWord opFUSE_COMMIT r.tag o), (.partnerUnbind r o, ordWord opPARTNER_BIND r.tag (withField o 47 47 0)), (.releasePartition r o, ordWord opRELEASE_PARTITION r.tag o)] ∧ s.live = true ∧ s.life.shutdownEvent = none ∧ OrderRef.own r = true ∧ s.mayTake r.master w false = true ∧ (∀ x ∈ s.ord.orders, x.id ≠ s.ord.nextId) ∧ s.badOperand w = false ∧ s.life.freezePending = false ∧ s.legal w = true ∧ s.ownIllegal w = false ∧ s.unlicensed w = false ∧ (ordOpcode w = opCAST ∨ ordOpcode w = opRESTORE) ∧ s.cast.storeOk = false) ∧
    (∃ (r : OrderRef) (o : BitVec 48) (s : State), s.live = true ∧ s.life.shutdownEvent = none ∧ OrderRef.own r = true ∧ s.mayTake r.master (ordWord opMAQ_RATE r.tag o) false = true ∧ (∀ x ∈ s.ord.orders, x.id ≠ s.ord.nextId) ∧ s.inRepose = true ∧ s.feature 2 = false ∧ o = BitVec.ofNat 48 (2 <<< 46 ||| 6)) ∧
    (∃ (r : OrderRef) (o : BitVec 48) (s : State), s.live = true ∧ s.life.shutdownEvent = none ∧ OrderRef.own r = true ∧ s.mayTake r.master (ordWord opMAQ_RATE r.tag o) false = true ∧ (∀ x ∈ s.ord.orders, x.id ≠ s.ord.nextId) ∧ s.inRepose = true ∧ s.feature 2 = false ∧ o = BitVec.ofNat 48 (3 <<< 46 ||| 6)) :=
  ⟨⟨hr, 1 <<< 47, .fence hr (1 <<< 47), ordWord opFENCE 7 (1 <<< 47), rd, by decide +kernel⟩,
    ⟨hr, 3, .fence hr 3, ordWord opFENCE 7 3, { rd with map.hub.fence := oneNode 3 }, by decide +kernel⟩,
    ⟨hr, 0x800000000006, .maqRate hr 0x800000000006, ordWord opMAQ_RATE 7 0x800000000006, rd, by decide +kernel⟩,
    ⟨hr, 1, .restore hr 1, ordWord opRESTORE 7 1, rd, by decide +kernel⟩,
    ⟨hr, BitVec.ofNat 48 (2 <<< 46 ||| 6), { rd with life.repose := 2 }, by decide +kernel⟩,
    ⟨hr, BitVec.ofNat 48 (3 <<< 46 ||| 6), { rd with life.repose := 2 }, by decide +kernel⟩⟩
theorem witness_OrderLegality :
    (∃ (op : Nat) (cols : List Bool) (w : Word) (s : State), (op, cols) ∈ [(1, [false, true, true, true, false, false]), (2, [false, true, true, true, false, false]), (3, [false, true, true, true, false, false]), (4, [false, true, true, true, false, false]), (5, [false, true, true, true, true, false]), (6, [false, true, true, true, true, false]), (7, [false, true, false, false, false, false]), (8, [false, true, false, false, false, false]), (9, [false, true, true, true, false, false]), (10, [false, true, true, true, false, false]), (11, [false, true, true, true, false, false]), (12, [true, true, true, true, true, true]), (13, [false, true, true, true, false, false]), (14, [false, true, true, true, false, false]), (15, [false, true, false, false, false, false]), (16, [false, true, true, true, true, false]), (17, [false, true, false, false, false, false]), (18, [false, true, false, true, false, false])] ∧ ordOpcode w = op ∧ (op = 15 → bit w 47 = false) ∧ s.life.stage ≠ 5) ∧
    (∃ (op : Nat) (cols : List Bool) (w : Word) (s : State), (op, cols) ∈ [(1, [false, true, true, true, false, false]), (2, [false, true, true, true, false, false]), (3, [false, true, true, true, false, false]), (4, [false, true, true, true, false, false]), (5, [false, true, true, true, true, false]), (6, [false, true, true, true, true, false]), (7, [false, true, false, false, false, false]), (8, [false, true, false, false, false, false]), (9, [false, true, true, true, false, false]), (10, [false, true, true, true, false, false]), (11, [false, true, true, true, false, false]), (12, [true, true, true, true, true, true]), (13, [false, true, true, true, false, false]), (14, [false, true, true, true, false, false]), (15, [false, true, false, false, false, false]), (16, [false, true, true, true, true, false]), (17, [false, true, false, false, false, false]), (18, [false, true, false, true, false, false])] ∧ ordOpcode w = op ∧ (op = 15 → bit w 47 = false) ∧ s.life.stage = 5 ∧ s.inRepose = false ∧ s.castPhase = 0) ∧
    (∃ (op : Nat) (cols : List Bool) (w : Word) (s : State), (op, cols) ∈ [(1, [false, true, true, true, false, false]), (2, [false, true, true, true, false, false]), (3, [false, true, true, true, false, false]), (4, [false, true, true, true, false, false]), (5, [false, true, true, true, true, false]), (6, [false, true, true, true, true, false]), (7, [false, true, false, false, false, false]), (8, [false, true, false, false, false, false]), (9, [false, true, true, true, false, false]), (10, [false, true, true, true, false, false]), (11, [false, true, true, true, false, false]), (12, [true, true, true, true, true, true]), (13, [false, true, true, true, false, false]), (14, [false, true, true, true, false, false]), (15, [false, true, false, false, false, false]), (16, [false, true, true, true, true, false]), (17, [false, true, false, false, false, false]), (18, [false, true, false, true, false, false])] ∧ ordOpcode w = op ∧ (op = 15 → bit w 47 = false) ∧ s.life.stage = 5 ∧ s.inRepose = false ∧ 1 ≤ s.castPhase ∧ s.castPhase ≤ 3) ∧
    (∃ (op : Nat) (cols : List Bool) (w : Word) (s : State), (op, cols) ∈ [(1, [false, true, true, true, false, false]), (2, [false, true, true, true, false, false]), (3, [false, true, true, true, false, false]), (4, [false, true, true, true, false, false]), (5, [false, true, true, true, true, false]), (6, [false, true, true, true, true, false]), (7, [false, true, false, false, false, false]), (8, [false, true, false, false, false, false]), (9, [false, true, true, true, false, false]), (10, [false, true, true, true, false, false]), (11, [false, true, true, true, false, false]), (12, [true, true, true, true, true, true]), (13, [false, true, true, true, false, false]), (14, [false, true, true, true, false, false]), (15, [false, true, false, false, false, false]), (16, [false, true, true, true, true, false]), (17, [false, true, false, false, false, false]), (18, [false, true, false, true, false, false])] ∧ ordOpcode w = op ∧ (op = 15 → bit w 47 = false) ∧ s.life.stage = 5 ∧ s.inRepose = false ∧ s.castPhase = 4) ∧
    (∃ (op : Nat) (cols : List Bool) (w : Word) (s : State), (op, cols) ∈ [(1, [false, true, true, true, false, false]), (2, [false, true, true, true, false, false]), (3, [false, true, true, true, false, false]), (4, [false, true, true, true, false, false]), (5, [false, true, true, true, true, false]), (6, [false, true, true, true, true, false]), (7, [false, true, false, false, false, false]), (8, [false, true, false, false, false, false]), (9, [false, true, true, true, false, false]), (10, [false, true, true, true, false, false]), (11, [false, true, true, true, false, false]), (12, [true, true, true, true, true, true]), (13, [false, true, true, true, false, false]), (14, [false, true, true, true, false, false]), (15, [false, true, false, false, false, false]), (16, [false, true, true, true, true, false]), (17, [false, true, false, false, false, false]), (18, [false, true, false, true, false, false])] ∧ ordOpcode w = op ∧ (op = 15 → bit w 47 = false) ∧ s.life.stage = 5 ∧ s.inRepose = false ∧ s.castPhase = 5) ∧
    (∃ (op : Nat) (cols : List Bool) (w : Word) (s : State), (op, cols) ∈ [(1, [false, true, true, true, false, false]), (2, [false, true, true, true, false, false]), (3, [false, true, true, true, false, false]), (4, [false, true, true, true, false, false]), (5, [false, true, true, true, true, false]), (6, [false, true, true, true, true, false]), (7, [false, true, false, false, false, false]), (8, [false, true, false, false, false, false]), (9, [false, true, true, true, false, false]), (10, [false, true, true, true, false, false]), (11, [false, true, true, true, false, false]), (12, [true, true, true, true, true, true]), (13, [false, true, true, true, false, false]), (14, [false, true, true, true, false, false]), (15, [false, true, false, false, false, false]), (16, [false, true, true, true, true, false]), (17, [false, true, false, false, false, false]), (18, [false, true, false, true, false, false])] ∧ ordOpcode w = op ∧ (op = 15 → bit w 47 = false) ∧ s.life.stage = 5 ∧ s.inRepose = true) ∧
    (∃ (w : Word) (s : State), ordOpcode w = 15 ∧ bit w 47 = true) :=
  ⟨⟨1, [false, true, true, true, false, false], ordWord 1 0 0, st 4, by decide +kernel⟩,
    ⟨1, [false, true, true, true, false, false], ordWord 1 0 0, rd, by decide +kernel⟩,
    ⟨1, [false, true, true, true, false, false], ordWord 1 0 0, inCast (crun 2), by decide +kernel⟩,
    ⟨1, [false, true, true, true, false, false], ordWord 1 0 0, inCast (crun 4), by decide +kernel⟩,
    ⟨1, [false, true, true, true, false, false], ordWord 1 0 0, inCast (crun 5), by decide +kernel⟩,
    ⟨1, [false, true, true, true, false, false], ordWord 1 0 0, { rd with life.repose := 2 }, by decide +kernel⟩,
    ⟨ordWord 15 0 0x800000000000, { rd with life.repose := 2 }, by decide +kernel⟩⟩
theorem witness_FenceOrders :
    (∃ (r : OrderRef) (o : BitVec 48) (s : State), s.ordered r (ordWord opFENCE r.tag o) ∧ fld (ordWord opFENCE r.tag o) 47 46 = 0) ∧
    (∃ (r : OrderRef) (o : BitVec 48) (s : State), s.ordered r (ordWord opFENCE r.tag o) ∧ fld (ordWord opFENCE r.tag o) 47 46 = 1 ∧ (s.tile (fld (ordWord opFENCE r.tag o) 10 0)).core.atBoundary = false) ∧
    (∃ (r : OrderRef) (o : BitVec 48) (s : State), s.ordered r (ordWord opUNFENCE r.tag o) ∧ (s.castPhase = 0 ∨ 4 ≤ s.castPhase) ∧ (s.tile (fld (ordWord opUNFENCE r.tag o) 10 0)).pat.kind ≠ 5) ∧
    (∃ (r : OrderRef) (o : BitVec 48) (s : State), s.ordered r (ordWord opUNFENCE r.tag o) ∧ 1 ≤ s.castPhase ∧ s.castPhase ≤ 3) ∧
    (∃ (r : OrderRef) (o : BitVec 48) (s : State), s.ordered r (ordWord opPROMOTE r.tag o) ∧ promoteTarget (ordWord opPROMOTE r.tag o) = none ∧ s.chooseTarget (s.phys (fld (ordWord opPROMOTE r.tag o) 9 0)) = none) ∧
    (∃ (r : OrderRef) (o : BitVec 48) (s : State), s.ordered r (ordWord opPROMOTE r.tag o) ∧ (promoteTarget (ordWord opPROMOTE r.tag o) ≠ none ∨ s.chooseTarget (s.phys (fld (ordWord opPROMOTE r.tag o) 9 0)) ≠ none) ∧ s.logical (s.phys (fld (ordWord opPROMOTE r.tag o) 9 0)) = some (fld (ordWord opPROMOTE r.tag o) 9 0)) ∧
    (∃ (r : OrderRef) (o : BitVec 48) (s : State), s.ordered r (ordWord opRELEASE_PARTITION r.tag o)) ∧
    (∃ (x : Release) (s : State), s.ready = true ∧ List.find? (fun y => y.step == 1) s.map.releases = some x ∧ s.castPhase ≠ 3 ∧ s.releaseSending x.area = false ∧ (∀ l ∈ x.area.tiles, (s.tile (s.phys l)).chisel.inSession = false ∧ s.mouldBusy (s.phys l) = false)) :=
  ⟨⟨hr, 3, rd, by decide +kernel⟩,
    ⟨hr, 0x400000000003, inC rd 3 { cur := some cmd }, by decide +kernel⟩,
    ⟨hr, 3, { rd with map.hub.fence := oneNode 3 }, by decide +kernel⟩,
    ⟨hr, 3, { inCast (crun 1) with map.hub.fence := oneNode 3 }, by decide +kernel⟩,
    ⟨hr, 3, { rd with map.hub.fence := BitVec.allOnes 1152 }, by decide +kernel⟩,
    ⟨hr, 0x810300000003, rd, by decide +kernel⟩,
    ⟨hr, 0, rd, by decide +kernel⟩,
    ⟨{ rect := (0, 0, 0, 0), order := none, since := 0, step := 1, fenced := [] }, { rd with map.releases := [{ rect := (0, 0, 0, 0), order := none, since := 0, step := 1, fenced := [] }] }, by decide +kernel⟩⟩
theorem witness_TestAndRateOrders :
    (∃ (r : OrderRef) (o : BitVec 48) (s : State), s.ordered r (ordWord opCHISEL_NOW r.tag o)) ∧
    (∃ (r : OrderRef) (o : BitVec 48) (s : State), s.ordered r (ordWord opCHISEL_DEFER r.tag o)) ∧
    (∃ (r : OrderRef) (o : BitVec 48) (s : State), s.ordered r (ordWord opMAQ_RATE r.tag o)) :=
  ⟨⟨hr, 3, rd, by decide +kernel⟩,
    ⟨hr, 0x600000064, rd, by decide +kernel⟩,
    ⟨hr, 0x800000000008, rd, by decide +kernel⟩⟩
theorem witness_CastAndDigestOrders :
    (∃ (r : OrderRef) (o : BitVec 48) (s : State), s.ordered r (ordWord opCAST r.tag o)) ∧
    (∃ (r : OrderRef) (o : BitVec 48) (s : State), s.ordered r (ordWord opRESTORE r.tag o)) ∧
    (∃ (r : OrderRef) (o : BitVec 48) (s : State), (∀ e ∈ s.rectTiles (rectOf (s.inForce (Reg.digestSlotCfg + 8 * fld (ordWord opDIGEST_OPEN r.tag o) 47 44)) 0), ∀ (i : BitVec 16 × BitVec 16 × BitVec 24), (s.tile e.2).core.last = some i → ({ first := BitVec.ofNat 24 (fld (ordWord opDIGEST_OPEN r.tag o) 23 0) } : DigSlot).inRange i.2.2 = false) ∧ s.ordered r (ordWord opDIGEST_OPEN r.tag o)) ∧
    (∃ (r : OrderRef) (o : BitVec 48) (s : State), (∃ e ∈ s.rectTiles (rectOf (s.inForce (Reg.digestSlotCfg + 8 * fld (ordWord opDIGEST_OPEN r.tag o) 47 44)) 0), ∃ i, (s.tile e.2).core.last = some i ∧ ({ first := BitVec.ofNat 24 (fld (ordWord opDIGEST_OPEN r.tag o) 23 0) } : DigSlot).inRange i.2.2 = true) ∧ s.ordered r (ordWord opDIGEST_OPEN r.tag o)) ∧
    (∃ (r : OrderRef) (o : BitVec 48) (s : State), s.ordered r (ordWord opDIGEST_CLOSE r.tag o)) :=
  ⟨⟨hr, 0, castable, by decide +kernel⟩,
    ⟨hr, 1, { rd with cast.storeOk := true }, by decide +kernel⟩,
    ⟨hr, 5, { rd.setReg Reg.digestSlotCfg 0xF000000000000000 with force := [(Reg.digestSlotCfg, 0xF000000000000000)] }, (fun _ _ _ h => nomatch h), by decide +kernel⟩,
    ⟨hr, 5, inC { rd.setReg Reg.digestSlotCfg 0xF000000000000000 with force := [(Reg.digestSlotCfg, 0xF000000000000000)] } 0 { last := some (1, 2, 6) }, (⟨(0, 0), by decide +kernel, (1, 2, 6), by decide +kernel⟩), by decide +kernel⟩,
    ⟨hr, 9, { rd with digest.slots := [(0, { state := 1, first := 5 })] }, by decide +kernel⟩⟩
theorem witness_DebugOrders :
    (∃ (r : OrderRef) (o : BitVec 48) (s : State), s.ordered r (ordWord opWATCH r.tag (if (fld (BitVec.setWidth 64 o) 44 43 == 2) = true then withField o 44 43 0 else o))) ∧
    (∃ (r : OrderRef) (o : BitVec 48) (s : State), s.ordered r (ordWord opWATCH r.tag (withField o 44 43 2))) ∧
    (∃ (r : OrderRef) (o : BitVec 48) (s : State), s.ordered r (ordWord opSTEP r.tag o)) ∧
    (∃ (r : OrderRef) (o : BitVec 48) (s : State), s.ordered r (ordWord opRUN r.tag o)) ∧
    (∃ (r : OrderRef) (o : BitVec 48) (s : State), s.ordered r (ordWord opRUN r.tag o)) ∧
    (∃ (r : OrderRef) (o : BitVec 48) (s : State), s.ordered r (ordWord opRUN r.tag o)) ∧
    (∃ (r : OrderRef) (o : BitVec 48) (s : State), s.ordered r (ordWord opFREEZE r.tag o)) :=
  ⟨⟨hr, 0x600010002, rd, by decide +kernel⟩,
    ⟨hr, 0, { rd with dbg.watch := [(0, (0x4000000000000000, [], none))] }, by decide +kernel⟩,
    ⟨hr, 3, rd, by decide +kernel⟩,
    ⟨hr, 0x800000000000, rd, by decide +kernel⟩,
    ⟨hr, 0x800000000000, inC rd 3 { stepping := true }, by decide +kernel⟩,
    ⟨hr, 3, inC rd 3 { stepping := true }, by decide +kernel⟩,
    ⟨hr, 9, rd, by decide +kernel⟩⟩
theorem witness_PowerFuseAndPartnerOrders :
    (∃ (r : OrderRef) (o : BitVec 48) (s : State), s.ordered r (ordWord opREPOSE r.tag (withField o 47 47 0))) ∧
    (∃ (r : OrderRef) (o : BitVec 48) (s : State), s.ordered r (ordWord opREPOSE r.tag (withField o 47 47 1))) ∧
    (∃ (r : OrderRef) (o : BitVec 48) (s : State), s.ordered r (ordWord opFUSE_COMMIT r.tag o) ∧ s.fuseFree < s.softEntries.length) ∧
    (∃ (r : OrderRef) (o : BitVec 48) (s : State), s.ordered r (ordWord opFUSE_COMMIT r.tag o) ∧ s.softEntries.length ≤ s.fuseFree ∧ s.fuseWindow = false) ∧
    (∃ (r : OrderRef) (o : BitVec 48) (s : State), s.fuseWindow = true ∧ s.ordered r (ordWord opFUSE_COMMIT r.tag o) ∧ s.softEntries.length ≤ s.fuseFree ∧ s.softEntries ≠ []) ∧
    (∃ (r : OrderRef) (o : BitVec 48) (s : State), s.fuseWindow = true ∧ s.ordered r (ordWord opFUSE_COMMIT r.tag o) ∧ s.softEntries = []) ∧
    (∃ (m : Requester) (v : Word) (id : Nat) (j : Nat) (n : Nat) (s : State), s.mayUse m 21 288 ∧ bit v 63 = true ∧ s.map.commit = some (id, j, n) ∧ s.map.progReq = true ∧ fld v 7 0 = 0) ∧
    (∃ (m : Requester) (v : Word) (id : Nat) (j : Nat) (n : Nat) (s : State), s.mayUse m 21 288 ∧ bit v 63 = true ∧ s.map.commit = some (id, j, n) ∧ s.map.progReq = true ∧ fld v 7 0 ≠ 0) ∧
    (∃ (r : OrderRef) (o : BitVec 48) (ans : Option PartnerAnswer) (s : State) (st : Status), s.ordered r (ordWord opPARTNER_BIND r.tag (withField o 47 47 1)) ∧ (∀ x ∈ s.ord.orders, x.ref ≠ r) ∧ ((ans = none ∨ ¬(s.routeFor (BitVec.setWidth 13 o) ≠ none ∧ BitVec.setWidth 13 o ∉ s.arm.unreachable)) ∧ st = Status.peerUnreachable ∨ ∃ a, ans = some a ∧ (s.routeFor (BitVec.setWidth 13 o) ≠ none ∧ BitVec.setWidth 13 o ∉ s.arm.unreachable) ∧ (a.busy = true ∧ st = Status.partnerBusy ∨ a.busy = false ∧ a.area = false ∧ st = Status.noStore ∨ a.busy = false ∧ a.area = true ∧ s.feedState a.pfid = 2 ∧ o.getLsbD 46 = false ∧ st = Status.sameFeed))) ∧
    (∃ (r : OrderRef) (o : BitVec 48) (ans : Option PartnerAnswer) (s : State) (st : Status), s.ordered r (ordWord opPARTNER_BIND r.tag (withField o 47 47 1)) ∧ (∀ x ∈ s.ord.orders, x.ref ≠ r) ∧ ((ans = none ∨ ¬(s.routeFor (BitVec.setWidth 13 o) ≠ none ∧ BitVec.setWidth 13 o ∉ s.arm.unreachable)) ∧ st = Status.peerUnreachable ∨ ∃ a, ans = some a ∧ (s.routeFor (BitVec.setWidth 13 o) ≠ none ∧ BitVec.setWidth 13 o ∉ s.arm.unreachable) ∧ (a.busy = true ∧ st = Status.partnerBusy ∨ a.busy = false ∧ a.area = false ∧ st = Status.noStore ∨ a.busy = false ∧ a.area = true ∧ s.feedState a.pfid = 2 ∧ o.getLsbD 46 = false ∧ st = Status.sameFeed))) ∧
    (∃ (r : OrderRef) (o : BitVec 48) (ans : Option PartnerAnswer) (s : State) (st : Status), s.ordered r (ordWord opPARTNER_BIND r.tag (withField o 47 47 1)) ∧ (∀ x ∈ s.ord.orders, x.ref ≠ r) ∧ ((ans = none ∨ ¬(s.routeFor (BitVec.setWidth 13 o) ≠ none ∧ BitVec.setWidth 13 o ∉ s.arm.unreachable)) ∧ st = Status.peerUnreachable ∨ ∃ a, ans = some a ∧ (s.routeFor (BitVec.setWidth 13 o) ≠ none ∧ BitVec.setWidth 13 o ∉ s.arm.unreachable) ∧ (a.busy = true ∧ st = Status.partnerBusy ∨ a.busy = false ∧ a.area = false ∧ st = Status.noStore ∨ a.busy = false ∧ a.area = true ∧ s.feedState a.pfid = 2 ∧ o.getLsbD 46 = false ∧ st = Status.sameFeed))) ∧
    (∃ (r : OrderRef) (o : BitVec 48) (ans : Option PartnerAnswer) (s : State) (st : Status), s.ordered r (ordWord opPARTNER_BIND r.tag (withField o 47 47 1)) ∧ (∀ x ∈ s.ord.orders, x.ref ≠ r) ∧ ((ans = none ∨ ¬(s.routeFor (BitVec.setWidth 13 o) ≠ none ∧ BitVec.setWidth 13 o ∉ s.arm.unreachable)) ∧ st = Status.peerUnreachable ∨ ∃ a, ans = some a ∧ (s.routeFor (BitVec.setWidth 13 o) ≠ none ∧ BitVec.setWidth 13 o ∉ s.arm.unreachable) ∧ (a.busy = true ∧ st = Status.partnerBusy ∨ a.busy = false ∧ a.area = false ∧ st = Status.noStore ∨ a.busy = false ∧ a.area = true ∧ s.feedState a.pfid = 2 ∧ o.getLsbD 46 = false ∧ st = Status.sameFeed))) ∧
    (∃ (r : OrderRef) (o : BitVec 48) (ans : Option PartnerAnswer) (s : State) (a : PartnerAnswer), s.ordered r (ordWord opPARTNER_BIND r.tag (withField o 47 47 1)) ∧ (∀ x ∈ s.ord.orders, x.ref ≠ r) ∧ ans = some a ∧ s.routeFor (BitVec.setWidth 13 o) ≠ none ∧ BitVec.setWidth 13 o ∉ s.arm.unreachable ∧ a.busy = false ∧ a.area = true ∧ (s.feedState a.pfid = 1 ∨ o.getLsbD 46 = true)) ∧
    (∃ (r : OrderRef) (o : BitVec 48) (ans : Option PartnerAnswer) (s : State) (a : PartnerAnswer), s.ordered r (ordWord opPARTNER_BIND r.tag (withField o 47 47 1)) ∧ (∀ x ∈ s.ord.orders, x.ref ≠ r) ∧ ans = some a ∧ s.routeFor (BitVec.setWidth 13 o) ≠ none ∧ BitVec.setWidth 13 o ∉ s.arm.unreachable ∧ a.busy = false ∧ a.area = true ∧ (s.feedState a.pfid = 1 ∨ o.getLsbD 46 = true)) ∧
    (∃ (r : OrderRef) (o : BitVec 48) (s : State), s.ordered r (ordWord opPARTNER_BIND r.tag (withField o 47 47 0))) :=
  ⟨⟨hr, 0, rd, by decide +kernel⟩,
    ⟨hr, 0, { rd with life.repose := 2 }, by decide +kernel⟩,
    ⟨hr, 0, { rd with nv.halfSlots := 256, map.table := [0], life.mgmtOk := true }, by decide +kernel⟩,
    ⟨hr, 0, { rd with map.table := [0], life.mgmtOk := true }, by decide +kernel⟩,
    ⟨hr, 0, withTemp { rd with life.mgmtOk := true, map.table := [0] }, (by simp only [State.fuseWindow, State.deciding, List.all_eq_true]; intro t ht; rw [sensor_withTemp _ ht]; rfl), by decide +kernel⟩,
    ⟨hr, 0, withTemp { rd with life.mgmtOk := true }, (by simp only [State.fuseWindow, State.deciding, List.all_eq_true]; intro t ht; rw [sensor_withTemp _ ht]; rfl), by decide +kernel⟩,
    ⟨sc, 0x8000000000000000, 0, 0, 0, { rd with map.commit := some (0, 0, 0), map.progReq := true }, by decide +kernel⟩,
    ⟨sc, 0x8000000000000001, 0, 0, 0, { rd with map.commit := some (0, 0, 0), map.progReq := true }, by decide +kernel⟩,
    ⟨hr, 1, none, { rd with life.features := 8 }, .peerUnreachable, by decide +kernel⟩,
    ⟨hr, 1, some { pasx with busy := true }, { rd with life.features := 8, force := [(Reg.armSrouteW0, 0x8001000000000000)] }, .partnerBusy, by decide +kernel⟩,
    ⟨hr, 1, some { pasx with area := false }, { rd with life.features := 8, force := [(Reg.armSrouteW0, 0x8001000000000000)] }, .noStore, by decide +kernel⟩,
    ⟨hr, 1, some pasx, { rd with life.features := 8, force := [(Reg.armSrouteW0, 0x8001000000000000)], nv.pfid := 2 }, .sameFeed, by decide +kernel⟩,
    ⟨hr, 1, some pasx, { rd with life.features := 8, force := [(Reg.armSrouteW0, 0x8001000000000000)], nv.pfid := 1 }, pasx, by decide +kernel⟩,
    ⟨hr, 0x400000000001, some pasx, { rd with life.features := 8, force := [(Reg.armSrouteW0, 0x8001000000000000)] }, pasx, by decide +kernel⟩,
    ⟨hr, 0, { rd with cast.partner := 2, cast.partnerChip := 5 }, by decide +kernel⟩⟩
theorem witness_CommandsBeginAndEnd :
    (∃ (u : Nat) (c : Cmd) (cyc : Nat) (s : State), s.mayBegin u = true ∧ (c.canonical = false ∨ s.feature 0 = true)) ∧
    (∃ (u : Nat) (c : Cmd) (cyc : Nat) (s : State), s.mayBegin u = true ∧ c.canonical = true ∧ s.feature 0 = false) ∧
    (∃ (u : Nat) (c : Cmd) (e : CmdEnd) (s : State), s.mayEnd u e = true ∧ (s.tile u).core.cur = some c ∧ e.how = EndKind.halted) ∧
    (∃ (u : Nat) (c : Cmd) (e : CmdEnd) (s : State), s.mayEnd u e = true ∧ (s.tile u).core.cur = some c ∧ e.how = EndKind.done ∧ s.servesMaq u = false ∧ (s.tile u).core.resetAt = none) ∧
    (∃ (u : Nat) (c : Cmd) (cyc : Nat) (s : State), s.mayBegin u = false ∧ s.mayHost u c = true) ∧
    (∃ (u : Nat) (c : Cmd) (e : CmdEnd) (x : Session) (s : State), s.mayEnd u e = true ∧ (s.tile u).core.cur = some c ∧ e.how = EndKind.done ∧ (s.tile u).maq.role = 3 ∧ s.session (s.tile u).maq.slot = some x) :=
  ⟨⟨3, cmd, 100, rd, by decide +kernel⟩,
    ⟨3, { cmd with canonical := true }, 100, rd, by decide +kernel⟩,
    ⟨3, cmd, ce .halted, run3, by decide +kernel⟩,
    ⟨3, cmd, ce .done, run3, by decide +kernel⟩,
    ⟨260, cmd, 100, { inT rd 260 { maq := { role := 3, descr := some cmd } } with maq.sessions := [(0, some ss)] }, by decide +kernel⟩,
    ⟨260, cmd, ce .done, ss, { inT rd 260 { maq := { role := 3, descr := some cmd, begun := true }, core.cur := some cmd } with maq.sessions := [(0, some ss)] }, by decide +kernel⟩⟩
theorem witness_PassesAndVerdicts :
    (∃ (u : Nat) (p : PassDesc) (entry : List EntryFault) (s : State), (∀ (k : Nat), s.injected u k = none) ∧ s.live = true ∧ s.mayRun u = true ∧ (s.tile u).core.pass = none ∧ p.acts.length ≤ 65536 ∧ p.weights.length = p.acts.length ∧ refuseReason p ≠ 0) ∧
    (∃ (u : Nat) (p : PassDesc) (entry : List EntryFault) (s : State), (∀ (k : Nat), s.injected u k = none) ∧ s.live = true ∧ s.mayRun u = true ∧ (s.tile u).core.pass = none ∧ p.acts.length ≤ 65536 ∧ p.weights.length = p.acts.length ∧ refuseReason p = 0 ∧ firstEntry p entry none = none ∧ firstSpecial (latched p entry) = none) ∧
    (∃ (u : Nat) (p : PassDesc) (entry : List EntryFault) (s : State), (∀ (k : Nat), s.injected u k = none) ∧ s.live = true ∧ s.mayRun u = true ∧ (s.tile u).core.pass = none ∧ p.acts.length ≤ 65536 ∧ p.weights.length = p.acts.length ∧ refuseReason p = 0 ∧ firstEntry p entry none = none ∧ firstSpecial (latched p entry) ≠ none ∧ abandonsSpecial p (s.inForce Reg.sealSealCtl) = true) ∧
    (∃ (u : Nat) (p : PassDesc) (entry : List EntryFault) (s : State), (∀ (k : Nat), s.injected u k = none) ∧ s.live = true ∧ s.mayRun u = true ∧ (s.tile u).core.pass = none ∧ p.acts.length ≤ 65536 ∧ p.weights.length = p.acts.length ∧ refuseReason p = 0 ∧ firstEntry p entry none = none ∧ firstSpecial (latched p entry) ≠ none ∧ abandonsSpecial p (s.inForce Reg.sealSealCtl) = false) ∧
    (∃ (u : Nat) (p : PassDesc) (entry : List EntryFault) (s : State) (f : Fail), (∀ (k : Nat), s.injected u k = none) ∧ s.live = true ∧ s.mayRun u = true ∧ (s.tile u).core.pass = none ∧ p.acts.length ≤ 65536 ∧ p.weights.length = p.acts.length ∧ refuseReason p = 0 ∧ firstEntry p entry none = some f ∧ bit (s.inForce Reg.sealSealCtl) 1 = true ∧ (s.tile u).core.atWork = true) ∧
    (∃ (u : Nat) (p : PassDesc) (entry : List EntryFault) (s : State), (∀ (k : Nat), s.injected u k = none) ∧ s.live = true ∧ s.mayRun u = true ∧ (s.tile u).core.pass = none ∧ p.acts.length ≤ 65536 ∧ p.weights.length = p.acts.length ∧ refuseReason p = 0 ∧ firstEntry p entry none ≠ none ∧ bit (s.inForce Reg.sealSealCtl) 1 = false) ∧
    (∃ (u : Nat) (p : PassSt) (f : DrainFaults) (s : State), (∀ (k : Nat), s.injected u k = none) ∧ s.mayDrain u f = true ∧ f.sum = none ∧ (s.tile u).core.pass = some p ∧ p.entry = false ∧ p.next < passBlocks p.desc ∧ (s.tile u).core.staging.length < stagingBlocks) ∧
    (∃ (u : Nat) (p : PassSt) (reads : List (Finding × Finding)) (entry : List EntryFault) (fs : List DrainFaults) (s : State), s.live = true ∧ s.mayRun u = true ∧ (s.tile u).core.pass = some p ∧ p.fails ≠ [] ∧ (p.entry = true ∨ p.next = passBlocks p.desc) ∧ (s.tile u).core.rerunFits p = true ∧ (∀ q ∈ p.desc.reads, s.unitGate u q.addr false = Gate.serve) ∧ (s.rereadAll u p.desc.reads reads).2 = false) ∧
    (∃ (u : Nat) (p : PassSt) (reads : List (Finding × Finding)) (entry : List EntryFault) (fs : List DrainFaults) (s : State), (∀ (k : Nat), (s.rereadAll u p.desc.reads reads).1.injected u k = none) ∧ s.live = true ∧ s.mayRun u = true ∧ (s.tile u).core.pass = some p ∧ p.fails ≠ [] ∧ (p.entry = true ∨ p.next = passBlocks p.desc) ∧ (s.tile u).core.rerunFits p = true ∧ (∀ q ∈ p.desc.reads, s.unitGate u q.addr false = Gate.serve) ∧ (s.rereadAll u p.desc.reads reads).2 = true ∧ firstEntry p.desc entry none ≠ none) ∧
    (∃ (u : Nat) (p : PassSt) (reads : List (Finding × Finding)) (entry : List EntryFault) (fs : List DrainFaults) (s : State), (∀ (k : Nat), (s.rereadAll u p.desc.reads reads).1.injected u k = none) ∧ (((passOf p.id p.desc entry p.ctl).drainAll fs none none).all fun x => x.ok) = true ∧ s.live = true ∧ s.mayRun u = true ∧ (s.tile u).core.pass = some p ∧ p.fails ≠ [] ∧ (p.entry = true ∨ p.next = passBlocks p.desc) ∧ (s.tile u).core.rerunFits p = true ∧ (∀ q ∈ p.desc.reads, s.unitGate u q.addr false = Gate.serve) ∧ (s.rereadAll u p.desc.reads reads).2 = true ∧ firstEntry p.desc entry none = none ∧ firstSpecial (latched p.desc entry) = none) ∧
    (∃ (u : Nat) (p : PassSt) (reads : List (Finding × Finding)) (entry : List EntryFault) (fs : List DrainFaults) (s : State), (∀ (k : Nat), (s.rereadAll u p.desc.reads reads).1.injected u k = none) ∧ s.live = true ∧ s.mayRun u = true ∧ (s.tile u).core.pass = some p ∧ p.fails ≠ [] ∧ (p.entry = true ∨ p.next = passBlocks p.desc) ∧ (s.tile u).core.rerunFits p = true ∧ (∀ q ∈ p.desc.reads, s.unitGate u q.addr false = Gate.serve) ∧ (s.rereadAll u p.desc.reads reads).2 = true ∧ firstEntry p.desc entry none = none ∧ firstSpecial (latched p.desc entry) = none ∧ (((passOf p.id p.desc entry p.ctl).drainAll fs none none).all fun x => x.ok) = false) ∧
    (∃ (u : Nat) (x : Xfer) (h : Held) (rest : List Held) (b : BlockMove) (bs : List BlockMove) (s : State), s.live = true ∧ u < numTiles ∧ (s.tile u).core.staging = h :: rest ∧ x.blocks = b :: bs ∧ h.passed = false) ∧
    (∃ (u : Nat) (x : Xfer) (h : Held) (rest : List Held) (b : BlockMove) (bs : List BlockMove) (s : State), s.live = true ∧ u < numTiles ∧ (s.tile u).core.staging = h :: rest ∧ x.blocks = b :: bs ∧ h.passed = true ∧ (s.tile u).core.halted = false ∧ (s.tile u).core.interrupted = false ∧ (s.tile u).core.frozen = false ∧ (s.tile u).core.ni.fenced u = false ∧ (s.tile u).maq.role ≠ 3 ∧ (s.tile u).maq.role ≠ 4 ∧ s.regionStopped (regionOf u) = false) :=
  ⟨⟨3, { pd with aFmt := 0 }, [], run3, (fun _ => injected_none _ (by decide +kernel) _ _), by decide +kernel⟩,
    ⟨3, pd, [], run3, (fun _ => injected_none _ (by decide +kernel) _ _), by decide +kernel⟩,
    ⟨3, { pn with canon := some [] }, [], run3, (fun _ => injected_none _ (by decide +kernel) _ _), by decide +kernel⟩,
    ⟨3, pn, [], run3, (fun _ => injected_none _ (by decide +kernel) _ _), by decide +kernel⟩,
    ⟨3, pd, [ef], { run3 with force := [(Reg.sealSealCtl, 3)] }, (firstEntry pd [ef] none).get (by decide +kernel), (fun _ => injected_none _ (by decide +kernel) _ _), by decide +kernel⟩,
    ⟨3, pd, [ef], { run3 with force := [(Reg.sealSealCtl, 1)] }, (fun _ => injected_none _ (by decide +kernel) _ _), by decide +kernel⟩,
    ⟨3, ps0, nf, run3' { pass := some (ps0) }, (fun _ => injected_none _ (by decide +kernel) _ _), by decide +kernel⟩,
    ⟨3, { ps0 with desc := { pd with reads := [rr] }, fails := [fx], next := 1 }, [], [], [], run3' { pass := some { ps0 with desc := { pd with reads := [rr] }, fails := [fx], next := 1 } }, by decide +kernel⟩,
    ⟨3, { ps0 with fails := [fx], next := 1 }, [], [ef], [], run3' { pass := some { ps0 with fails := [fx], next := 1 } }, (fun _ => injected_none _ (by decide +kernel) _ _), by decide +kernel⟩,
    ⟨3, { ps0 with desc := pz, fails := [fx], next := 1 }, [], [], [], run3' { pass := some { ps0 with desc := pz, fails := [fx], next := 1 } }, (fun _ => injected_none _ (by decide +kernel) _ _), (rerun_ok _ _), by decide +kernel⟩,
    ⟨3, { ps0 with fails := [fx], next := 1 }, [], [], [{ nf with acc := [(0, 1)] }], run3' { pass := some { ps0 with fails := [fx], next := 1 } }, (fun _ => injected_none _ (by decide +kernel) _ _), by decide +kernel⟩,
    ⟨3, xf, hd false, [], bm, [], run3' { staging := [hd false] }, by decide +kernel⟩,
    ⟨3, xf, hd true, [], bm, [], run3' { staging := [hd true] }, by decide +kernel⟩⟩
theorem witness_VerifiedReads :
    (∃ (u : Nat) (r : ReadReq) (s : State), s.live = true ∧ s.mayRun u = true ∧ (s.tile u).core.expect = none ∧ blockExists r.addr = true ∧ r.reseal.getD 0 < sramBlocks ∧ r.ecc = EccFinding.clean ∧ s.injected u 3 = none ∧ s.unitGate u r.addr false = Gate.serve ∧ (s.tile u).core.resetAt = none ∧ s.resealSource u r = false ∧ s.checkRead u r none = Check.pass) ∧
    (∃ (u : Nat) (r : ReadReq) (s : State) (x : Nat), s.live = true ∧ s.mayRun u = true ∧ (s.tile u).core.expect = none ∧ blockExists r.addr = true ∧ r.reseal.getD 0 < sramBlocks ∧ r.ecc = EccFinding.clean ∧ s.injected u 3 = none ∧ s.unitGate u r.addr false = Gate.serve ∧ (s.tile u).core.resetAt = none ∧ s.resealSource u r = false ∧ s.checkRead u r none = Check.mismatch x ∧ s.retryEn = true) ∧
    (∃ (u : Nat) (r : ReadReq) (s : State) (x : Nat), s.live = true ∧ s.mayRun u = true ∧ (s.tile u).core.expect = none ∧ blockExists r.addr = true ∧ r.reseal.getD 0 < sramBlocks ∧ r.ecc = EccFinding.clean ∧ s.injected u 3 = none ∧ s.unitGate u r.addr false = Gate.serve ∧ (s.tile u).core.resetAt = none ∧ s.resealSource u r = false ∧ s.checkRead u r none = Check.mismatch x ∧ s.retryEn = false) ∧
    (∃ (u : Nat) (r : ReadReq) (s : State) (c : Check) (code : BitVec 16), (∃ n, (c, code) ∈ [(Check.invalid n, 53), (Check.stale, 54)]) ∧ s.live = true ∧ s.mayRun u = true ∧ (s.tile u).core.expect = none ∧ blockExists r.addr = true ∧ r.reseal.getD 0 < sramBlocks ∧ r.ecc = EccFinding.clean ∧ s.injected u 3 = none ∧ s.unitGate u r.addr false = Gate.serve ∧ (s.tile u).core.resetAt = none ∧ s.resealSource u r = false ∧ s.checkRead u r none = c) ∧
    (∃ (u : Nat) (r : ReadReq) (s : State) (c : Check) (code : BitVec 16), (∃ n, (c, code) ∈ [(Check.invalid n, 53), (Check.stale, 54)]) ∧ s.live = true ∧ s.mayRun u = true ∧ (s.tile u).core.expect = none ∧ blockExists r.addr = true ∧ r.reseal.getD 0 < sramBlocks ∧ r.ecc = EccFinding.clean ∧ s.injected u 3 = none ∧ s.unitGate u r.addr false = Gate.serve ∧ (s.tile u).core.resetAt = none ∧ s.resealSource u r = false ∧ s.checkRead u r none = c) ∧
    (∃ (u : Nat) (r : ReadReq) (s : State), s.live = true ∧ s.mayRun u = true ∧ (s.tile u).core.expect = none ∧ blockExists r.addr = true ∧ r.reseal.getD 0 < sramBlocks ∧ r.ecc = EccFinding.clean ∧ s.injected u 3 = none ∧ s.unitGate u r.addr false = Gate.serve ∧ (s.tile u).core.resetAt = none ∧ s.resealSource u r = true ∧ (s.readBytes u r.addr).length = blockBytes) ∧
    (∃ (u : Nat) (r : ReadReq) (e : ReadReq) (s : State), s.live = true ∧ s.mayRun u = true ∧ (s.tile u).core.expect = some e ∧ e.addr = r.addr ∧ r.ecc = EccFinding.clean ∧ s.unitGate u r.addr false = Gate.serve ∧ s.checkRead u (readAs e { flips := r.flips, ecc := r.ecc }) (s.tile u).core.retryInj = Check.pass) ∧
    (∃ (u : Nat) (r : ReadReq) (e : ReadReq) (s : State), s.live = true ∧ s.mayRun u = true ∧ (s.tile u).core.expect = some e ∧ e.addr = r.addr ∧ r.ecc = EccFinding.clean ∧ s.unitGate u r.addr false = Gate.serve ∧ s.checkRead u (readAs e { flips := r.flips, ecc := r.ecc }) (s.tile u).core.retryInj ≠ Check.pass) ∧
    (∃ (u : Nat) (p : PartialWrite) (s : State), (s.checkRead u p.read none = Check.pass ∨ (fun c => s.retryEn = true ∧ (∃ x, s.checkRead u p.read none = Check.mismatch x) ∧ s.checkRead u (readAs p.read p.again) none = c) Check.pass) ∧ s.live = true ∧ s.mayRun u = true ∧ (s.tile u).core.expect = none ∧ blockExists p.read.addr = true ∧ s.unitGate u p.read.addr true = Gate.serve ∧ p.read.ecc = EccFinding.clean ∧ s.injected u 3 = none) ∧
    (∃ (u : Nat) (p : PartialWrite) (s : State), (s.checkRead u p.read none = Check.stale ∨ (∃ n, s.checkRead u p.read none = Check.invalid n) ∨ (s.retryEn = false ∧ ∃ x, s.checkRead u p.read none = Check.mismatch x) ∨ ∃ c, c ≠ Check.pass ∧ (fun c => s.retryEn = true ∧ (∃ x, s.checkRead u p.read none = Check.mismatch x) ∧ s.checkRead u (readAs p.read p.again) none = c) c) ∧ s.live = true ∧ s.mayRun u = true ∧ (s.tile u).core.expect = none ∧ blockExists p.read.addr = true ∧ s.unitGate u p.read.addr true = Gate.serve ∧ p.read.ecc = EccFinding.clean ∧ s.injected u 3 = none) ∧
    (∃ (u : Nat) (v : Nat) (l : Nat) (b : Nat) (p : PartialWrite) (s : State), s.live = true ∧ s.mayRun u = true ∧ (s.tile u).core.expect = none ∧ p.read.addr = BlockAddr.slice v l b ∧ blockExists p.read.addr = true ∧ s.stagedAt u p.read.addr = none ∧ s.reaches (unitAcc u v l b true) ∧ s.stackStopped v = false ∧ s.stackPermits (unitAcc u v l b true) = false) ∧
    (∃ (u : Nat) (v : Nat) (l : Nat) (b : Nat) (p : PartialWrite) (s : State), s.live = true ∧ s.mayRun u = true ∧ (s.tile u).core.expect = none ∧ p.read.addr = BlockAddr.slice v l b ∧ blockExists p.read.addr = true ∧ s.stagedAt u p.read.addr = none ∧ s.reaches (unitAcc u v l b true) ∧ s.stackStopped v = false ∧ s.stackPermits (unitAcc u v l b true) = true ∧ runtimeEnd l ≤ b) :=
  ⟨⟨3, rr, sealed run3 w0, by decide +kernel⟩,
    ⟨3, rf, sealed run3 w0, 1, by decide +kernel⟩,
    ⟨3, rf, { sealed run3 w0 with force := [(Reg.sealSealCtl, 2)] }, 1, by decide +kernel⟩,
    ⟨3, rr, run3, .invalid 1, 53, (⟨1, by decide⟩), by decide +kernel⟩,
    ⟨3, { rr with genCheck := true, gen := 5 }, sealed run3 w0, .stale, 54, (⟨1, by decide⟩), by decide +kernel⟩,
    ⟨3, { rr with reseal := some 1 }, sealed run3 0x400000000, by decide +kernel⟩,
    ⟨3, rr, rr, sealed (run3' { expect := some rr }) w0, by decide +kernel⟩,
    ⟨3, rf, rr, sealed (run3' { expect := some rr }) w0, by decide +kernel⟩,
    ⟨3, pw, sealed run3 w0, (.inl (by decide +kernel)), by decide +kernel⟩,
    ⟨3, pw, run3, (.inr (.inl ⟨1, by decide +kernel⟩)), by decide +kernel⟩,
    ⟨3, 3, 2, 5, { pw with read := { rr with addr := .slice 3 2 5 } }, run3.setReg (layerReg 2 (0x180 + 8 * MasterClass.tile.index)) 0, by decide +kernel⟩,
    ⟨3, 3, 2, 1756, { pw with read := { rr with addr := .slice 3 2 1756 } }, run3, by decide +kernel⟩⟩
theorem witness_Transfers :
    (∃ (u : Nat) (x : Xfer) (s : State), s.live = true ∧ s.mayRun u = true ∧ (∀ l ∈ x.dests, l < numLogical) ∧ s.servesMaq u = false ∧ (s.tile u).core.staging.length < stagingBlocks ∧ (∀ b ∈ x.blocks, s.sendsBlock b = true) ∧ (s.tile u).core.stallsWhole = false ∧ (∀ b ∈ x.blocks, s.unitGate u b.src false = Gate.serve) ∧ (∃ l ∈ x.dests, (s.tile u).core.ni.held l = true)) ∧
    (∃ (u : Nat) (x : Xfer) (s : State), s.live = true ∧ s.mayRun u = true ∧ (∀ l ∈ x.dests, l < numLogical) ∧ s.servesMaq u = false ∧ (s.tile u).core.staging.length < stagingBlocks ∧ (∀ b ∈ x.blocks, s.sendsBlock b = true) ∧ (s.tile u).core.stallsWhole = false ∧ (∀ b ∈ x.blocks, s.unitGate u b.src false = Gate.serve) ∧ (∀ l ∈ x.dests, (s.tile u).core.ni.held l = false) ∧ List.filter (fun l => !(s.tile u).core.ni.fenced ((s.tile u).core.ni.phys l)) x.dests = [] ∧ x.toHost = false ∧ x.toChip = none) ∧
    (∃ (u : Nat) (x : Xfer) (s : State), s.live = true ∧ s.mayRun u = true ∧ (∀ l ∈ x.dests, l < numLogical) ∧ s.servesMaq u = false ∧ (s.tile u).core.staging.length < stagingBlocks ∧ (∀ b ∈ x.blocks, s.sendsBlock b = true) ∧ (s.tile u).core.stallsWhole = false ∧ (∀ b ∈ x.blocks, s.unitGate u b.src false = Gate.serve) ∧ (∀ l ∈ x.dests, (s.tile u).core.ni.held l = false) ∧ (List.filter (fun l => !(s.tile u).core.ni.fenced ((s.tile u).core.ni.phys l)) x.dests ≠ [] ∨ x.toHost = true ∨ x.toChip ≠ none)) ∧
    (∃ (u : Nat) (x : XferIn) (s : State), s.live = true ∧ u < numTiles ∧ s.regionStopped (regionOf u) = false ∧ x.fromLink = none ∧ x.fromHost = none ∧ x.exempt = false ∧ ((s.tile u).core.router = true ∨ (s.tile u).core.ni.fenced x.src = true)) ∧
    (∃ (u : Nat) (i : Nat) (x : XferIn) (b : BlockMove) (s : State), x.x.blocks = [b] ∧ s.live = true ∧ u < numTiles ∧ s.regionStopped (regionOf u) = false ∧ x.fromLink = none ∧ x.fromHost = none ∧ x.exempt = false ∧ (s.tile u).core.router = false ∧ (s.tile u).core.ni.fenced x.src = false ∧ (s.tile u).maq.role = 0 ∧ b.dst = BlockAddr.sram u i ∧ i < sramBlocks ∧ b.bytes.length = blockBytes ∧ b.coll = none ∧ s.injected u 3 = none ∧ checkMoved b (b.bytes, b.sealw) EccFinding.clean none = Check.pass) ∧
    (∃ (u : Nat) (i : Nat) (x : XferIn) (b : BlockMove) (g : BitVec 8) (s : State), x.x.blocks = [b] ∧ s.live = true ∧ u < numTiles ∧ s.regionStopped (regionOf u) = false ∧ x.fromLink = none ∧ x.fromHost = some g ∧ (s.tile u).core.router = false ∧ (s.tile u).maq.role = 0 ∧ b.dst = BlockAddr.sram u i ∧ i < sramBlocks ∧ b.bytes.length = blockBytes) ∧
    (∃ (u : Nat) (id : Nat) (l : Nat) (gen : BitVec 16) (x : Xfer) (s : State), s.live = true ∧ u < numTiles ∧ (s.tile u).core.drains = [] ∧ (s.tile u).core.ackIsDue id l gen = true ∧ x ∈ (s.tile u).core.xfers ∧ x.id = id ∧ l ∈ x.dests ∧ (∀ y ∈ (s.tile u).core.xfers, y.id = id → y = x) ∧ genNewer gen.toNat (s.tile u).core.ni.gen.toNat = true) ∧
    (∃ (u : Nat) (id : Nat) (l : Nat) (gen : BitVec 16) (x : Xfer) (s : State), s.live = true ∧ u < numTiles ∧ (s.tile u).core.drains = [] ∧ (s.tile u).core.ackIsDue id l gen = true ∧ x ∈ (s.tile u).core.xfers ∧ x.id = id ∧ l ∈ x.dests ∧ (∀ y ∈ (s.tile u).core.xfers, y.id = id → y = x) ∧ genNewer gen.toNat (s.tile u).core.ni.gen.toNat = false ∧ (s.tile u).core.ni.held l = true) ∧
    (∃ (u : Nat) (id : Nat) (l : Nat) (gen : BitVec 16) (x : Xfer) (s : State), s.live = true ∧ u < numTiles ∧ (s.tile u).core.drains = [] ∧ (s.tile u).core.ackIsDue id l gen = true ∧ x ∈ (s.tile u).core.xfers ∧ x.id = id ∧ l ∈ x.dests ∧ (∀ y ∈ (s.tile u).core.xfers, y.id = id → y = x) ∧ genNewer gen.toNat (s.tile u).core.ni.gen.toNat = false ∧ (s.tile u).core.ni.held l = false) ∧
    (∃ (u : Nat) (x : Xfer) (s : State), s.live = true ∧ x ∈ (s.tile u).core.xfers ∧ (∀ y ∈ (s.tile u).core.xfers, y.id = x.id → y = x) ∧ (s.tile u).core.drains = []) :=
  ⟨⟨3, { xf with blocks := [bz] }, sealed (run3' { ni := { hold := 32 } }) w0, by decide +kernel⟩,
    ⟨3, { xf with dests := [], blocks := [bz] }, sealed run3 w0, by decide +kernel⟩,
    ⟨3, { xf with blocks := [bz] }, sealed run3 w0, by decide +kernel⟩,
    ⟨5, xi, inC rd 5 { router := true }, by decide +kernel⟩,
    ⟨5, 0, { xi with x := { xf with blocks := [bz] } }, bz, rd, rfl, by decide +kernel⟩,
    ⟨5, 0, { xi with x := { xf with blocks := [bz] }, fromHost := some 0 }, bz, 0, rd, rfl, by decide +kernel⟩,
    ⟨3, 1, 5, 1, xf, run3' { xfers := [xf], acksDue := [(1, 5, 1)] }, by decide +kernel⟩,
    ⟨3, 1, 5, 0, xf, run3' { xfers := [xf], acksDue := [(1, 5, 0)], ni := { hold := 32 } }, by decide +kernel⟩,
    ⟨3, 1, 5, 0, xf, run3' { xfers := [xf], acksDue := [(1, 5, 0)] }, by decide +kernel⟩,
    ⟨3, xf, run3' { xfers := [xf] }, by decide +kernel⟩⟩
theorem witness_BlockPackingRoundTrip :
    ∃ (f : Nat) (es : List Nat), f ≤ 10 ∧ es.length = fmtElems f ∧ (∀ e ∈ es, e < 2 ^ fmtBits f) :=
  ⟨10, List.replicate 256 (2 ^ 128 - 1), by decide +kernel⟩
theorem witness_PassVerdictsAreSound :
    (∃ (id : Nat) (p : PassDesc) (ctl : Word) (b : Nat), firstSpecial p = none ∧ (∀ ws ∈ p.weights, ∀ r ∈ ws, r.length ≤ 64) ∧ b < passBlocks p) ∧
    (∃ (id : Nat) (p : PassDesc) (ctl : Word) (b : Nat) (i : Nat) (d : Int), firstSpecial p = none ∧ (∀ ws ∈ p.weights, ∀ r ∈ ws, r.length ≤ 64) ∧ b < passBlocks p ∧ b * passRows p * 64 ≤ i ∧ i < (b + 1) * passRows p * 64 ∧ d % ↑sealPrime ≠ 0) :=
  ⟨⟨0, pd, 3, 0, by decide +kernel⟩,
    ⟨0, pd, 3, 0, 4095, 1, by decide +kernel⟩⟩
theorem witness_ResiduesOfBlocks :
    ∃ (f : Nat) (es : List Nat) (new : List (Nat × Nat)), (∀ e ∈ new, e.1 < es.length) :=
  ⟨3, [1, 2], [(1, 5)], by decide +kernel⟩
theorem witness_MaquetteSessions :
    (∃ (u : Nat) (h : Nat) (k : Nat) (rest : List Nat) (s : State), s.ready = true ∧ s.inRepose = false ∧ s.dispatching = true ∧ bit (s.inForce Reg.maqMaqCtl) 0 = true ∧ s.dueTiles = u :: rest ∧ s.sourceOk u = true ∧ s.maqActive < fld (s.inForce Reg.maqMaqCtl) 62 56 ∧ List.find? (fun k => (s.session k).isNone) (List.range 32) = some k ∧ nearestByRegion u s.freeHosts = some h) ∧
    (∃ (k : Nat) (a : Nat) (x : Session) (s : State), s.ready = true ∧ s.session k = some x ∧ x.phase = 0 ∧ x.armBeat = some a ∧ a + fld (s.inForce Reg.maqMaqCtl) 47 40 < s.beat) ∧
    (∃ (k : Nat) (e : Nat) (x : Session) (s : State), s.ready = true ∧ s.session k = some x ∧ x.phase = 1 ∧ x.endBeat = some e ∧ e + fld (s.inForce Reg.maqMaqCtl) 55 48 < s.beat) ∧
    (∃ (k : Nat) (x : Session) (r : MaqRecord) (h : MaqRecord) (s : State), s.ready = true ∧ s.session k = some x ∧ x.phase = 1 ∧ s.operandMissing x = false ∧ x.src = some r ∧ x.hostRec = some h ∧ (s.tile x.host).core.halted = false ∧ s.maqLate x = false) ∧
    (∃ (k : Nat) (x : Session) (s : State), s.ready = true ∧ s.session k = some x ∧ x.phase = 1 ∧ ((s.tile x.host).core.halted = true ∨ s.operandMissing x = true)) ∧
    (∃ (k : Nat) (x : Session) (r : MaqRecord) (h : MaqRecord) (s : State), s.ready = true ∧ s.session k = some x ∧ x.phase = 1 ∧ s.operandMissing x = false ∧ x.src = some r ∧ x.hostRec = some h ∧ (s.tile x.host).core.halted = false ∧ s.maqLate x = true) ∧
    (∃ (k : Nat) (u : Nat) (x : Session) (pre : List Xfer) (post : List Xfer) (y : Xfer) (s : State), s.ready = true ∧ s.session k = some x ∧ List.find? (fun e => e.2.core.xfers.any fun y => y.hosts.contains x.host) s.tiles = some (u, s.tile u) ∧ (s.tile u).core.xfers = pre ++ y :: post ∧ (∀ z ∈ pre, x.host ∉ z.hosts) ∧ x.host ∈ y.hosts) ∧
    (∃ (k : Nat) (s : State), s.ready = true ∧ (∀ (x : Session), s.session k = some x → ∀ e ∈ s.tiles, ∀ y ∈ e.2.core.xfers, x.host ∉ y.hosts)) ∧
    (∃ (k : Nat) (r : Nat) (x : Session) (s : State), s.ready = true ∧ s.dispatching = true ∧ s.session k = some x ∧ x.phase = 3 ∧ x.referee = none ∧ s.fenced x.host = false ∧ s.beat ≤ x.disBeat + fld (s.inForce Reg.maqMaqCtl) 39 36 ∧ nearestByRegion x.source (List.filter (fun t => t != x.host && t != x.source) s.freeHosts) = some r) ∧
    (∃ (k : Nat) (x : Session) (s : State), s.ready = true ∧ s.dispatching = true ∧ s.session k = some x ∧ x.phase = 3 ∧ x.referee = none ∧ (s.fenced x.host = true ∨ x.disBeat + fld (s.inForce Reg.maqMaqCtl) 39 36 < s.beat)) ∧
    (∃ (k : Nat) (q : Nat) (x : Session) (a : MaqRecord) (b : MaqRecord) (r : MaqRecord) (s : State), s.ready = true ∧ s.session k = some x ∧ x.phase = 3 ∧ x.referee = some q ∧ x.refRec = some r ∧ (s.tile q).core.halted = false ∧ x.src = some a ∧ x.hostRec = some b ∧ x.source ≠ x.host ∧ s.fenced x.host = false ∧ s.beat ≤ x.refBeat + fld (s.inForce Reg.maqMaqCtl) 55 48) :=
  ⟨⟨3, 259, 0, [], { rd with time.phase := 7, force := [(Reg.maqMaqCtl, setFld (rd.inForce Reg.maqMaqCtl) 0 0 1)], tiles := [(3, { maq := { due := some 0 } }), (259, { maq := { eligible := true } })] }, by decide +kernel⟩,
    ⟨0, 0, { ss with armBeat := some 0 }, { mq { ss with armBeat := some 0 } with time.time := 8192 * 300 }, by decide +kernel⟩,
    ⟨0, 0, { ss with phase := 1, endBeat := some 0 }, { mq { ss with phase := 1, endBeat := some 0 } with time.time := 8192 * 300 }, by decide +kernel⟩,
    ⟨0, { ss with phase := 1, src := some mrec, hostRec := some mrec }, mrec, mrec, mq { ss with phase := 1, src := some mrec, hostRec := some mrec }, by decide +kernel⟩,
    ⟨0, { ss with phase := 1, gap := true }, mq { ss with phase := 1, gap := true }, by decide +kernel⟩,
    ⟨0, { ss with phase := 1, src := some mrec, hostRec := some mrec, endBeat := some 0 }, mrec, mrec, { mq { ss with phase := 1, src := some mrec, hostRec := some mrec, endBeat := some 0 } with time.time := 8192 * 300 }, by decide +kernel⟩,
    ⟨0, 3, ss, [], [], { xf with hosts := [300] }, inC (mq ss) 3 { xfers := [{ xf with hosts := [300] }] }, by decide +kernel⟩,
    ⟨0, mq ss, by decide +kernel⟩,
    ⟨0, 259, { ss with phase := 3 }, { mq { ss with phase := 3 } with time.phase := 7, tiles := [(259, { maq := { eligible := true } })] }, by decide +kernel⟩,
    ⟨0, { ss with phase := 3 }, { mq { ss with phase := 3 } with time.phase := 7, map.hub.fence := oneNode 300 }, by decide +kernel⟩,
    ⟨0, 301, { ss with phase := 3, referee := some 301, refRec := some mrec, src := some mrec, hostRec := some { mrec with seals := [2] } }, mrec, { mrec with seals := [2] }, mrec, mq { ss with phase := 3, referee := some 301, refRec := some mrec, src := some mrec, hostRec := some { mrec with seals := [2] } }, by decide +kernel⟩⟩
theorem witness_TaintComputations :
    (∃ (d : Detection) (rest : List Detection) (s : State), s.ready = true ∧ s.afterPatina = true ∧ s.contain.running = none ∧ s.contain.queue = d :: rest) ∧
    (∃ (s : State), s.ready = true ∧ s.afterPatina = true ∧ (s.contain.running ≠ none ∨ s.contain.queue = [])) ∧
    (∃ (s : State), s.afterPatina = false) ∧
    (∃ (d : Detection) (s : State), s.allCaptured = true ∧ s.ready = true ∧ s.contain.running = some d ∧ d.tile < numTiles) ∧
    (∃ (s : State), s.ready = true ∧ s.allCaptured = false) ∧
    (∃ (r : Report) (rest : List Report) (s : State), s.ready = true ∧ s.time.phase = 7 ∧ s.contain.waiting = false ∧ s.contain.ready = r :: rest) ∧
    (∃ (s : State), s.ready = true ∧ s.time.phase = 7 ∧ s.contain.waiting = true) ∧
    (∃ (s : State), s.time.phase ≠ 7) ∧
    (∃ (m : Requester) (v : Word) (s : State) (r : Report), s.mayUse m 6 320 ∧ s.contain.report = some r ∧ fld v 15 0 = r.id.toNat) ∧
    (∃ (m : Requester) (v : Word) (s : State) (r : Report), s.mayUse m 6 320 ∧ s.contain.report = some r ∧ fld v 15 0 ≠ r.id.toNat) ∧
    (∃ (m : Requester) (v : Word) (s : State), s.mayUse m 6 320 ∧ s.contain.report = none) :=
  ⟨⟨det0, [], { rd with contain.queue := [det0], time.phase := 4 }, by decide +kernel⟩,
    ⟨{ rd with contain.queue := [], time.phase := 4 }, by decide +kernel⟩,
    ⟨rd, by decide +kernel⟩,
    ⟨det0, withTiles { rd with contain.running := some det0 } fun _ => capT, (by simp only [State.allCaptured, List.all_eq_true]; intro t ht; rw [tile_withTiles _ _ ht]; rfl), by decide +kernel⟩,
    ⟨rd, by decide +kernel⟩,
    ⟨rep0, [], { rd with contain.ready := [rep0], time.phase := 7 }, by decide +kernel⟩,
    ⟨{ rd with contain.waiting := true, time.phase := 7 }, by decide +kernel⟩,
    ⟨rd, by decide +kernel⟩,
    ⟨mg, 1, { rd with contain.report := some rep0, contain.waiting := true }, rep0, by decide +kernel⟩,
    ⟨mg, 2, { rd with contain.report := some rep0 }, rep0, by decide +kernel⟩,
    ⟨mg, 2, rd, by decide +kernel⟩⟩
theorem witness_ChiselSchedule :
    (∃ (u : Nat) (s : State), s.ready = true ∧ s.inRepose = false ∧ u < numTiles ∧ (s.tile u).chisel.state = 0 ∧ s.chiselDueAt u ≤ s.beat) ∧
    (∃ (u : Nat) (s : State), s.ready = true ∧ s.inRepose = false ∧ u < numTiles ∧ ((s.tile u).chisel.state ≠ 0 ∨ s.beat < s.chiselDueAt u)) ∧
    (∃ (u : Nat) (s : State), s.ready = true ∧ s.inRepose = false ∧ u < numTiles ∧ (s.tile u).chisel.state = 1 ∧ (s.tile u).chisel.forced = false ∧ s.logical u ≠ none ∧ s.fenced u = false ∧ s.deferLimit + (s.tile u).chisel.ext ≤ (s.tile u).chisel.deferred) ∧
    (∃ (u : Nat) (s : State), s.ready = true ∧ u < numTiles ∧ (s.tile u).chisel.node.arm ≠ 0 ∧ (s.tile u).core.xfers = [] ∧ (s.tile u).core.stalled = [] ∧ s.stackWaiting u = false ∧ s.nbAtWork u = false ∧ ((s.tile u).chisel.state = 2 ∧ (s.tile u).core.idleBoundary = true ∨ (s.tile u).chisel.state = 3 ∧ (s.tile u).core.atBoundary = true ∧ (s.tile u).core.halted = false)) ∧
    (∃ (u : Nat) (s : State), s.ready = true ∧ u < numTiles ∧ (s.tile u).chisel.node.arm ≠ 0 ∧ (s.tile u).core.xfers = [] ∧ (s.tile u).core.stalled = [] ∧ s.stackWaiting u = false ∧ s.nbAtWork u = false ∧ ((s.tile u).chisel.state = 2 ∧ (s.tile u).core.idleBoundary = true ∨ (s.tile u).chisel.state = 3 ∧ (s.tile u).core.atBoundary = true ∧ (s.tile u).core.halted = false)) ∧
    (∃ (u : Nat) (k : Nat) (x : Slot) (s : State), s.ready = true ∧ u < numTiles ∧ (s.tile u).chisel.state = 2 ∧ s.slotOf u = some (k, x) ∧ x.role = 2 ∧ (s.tile u).chisel.armBeat + s.armWait ≤ s.beat ∧ x.other ≠ u ∧ (s.tile u).chisel.pend = false) ∧
    (∃ (u : Nat) (k : Nat) (x : Slot) (s : State), s.ready = true ∧ s.inRepose = false ∧ u < numTiles ∧ s.slotOf u = some (k, x) ∧ x.role = 2 ∧ (s.tile u).chisel.state = 4 ∧ s.startOk u = true ∧ s.logical u = none) ∧
    (∃ (u : Nat) (l : Nat) (k : Nat) (x : Slot) (s : State), s.ready = true ∧ s.inRepose = false ∧ u < numTiles ∧ s.slotOf u = some (k, x) ∧ x.role = 2 ∧ (s.tile u).chisel.state = 4 ∧ s.startOk u = true ∧ s.logical u = some l ∧ l < numLogical ∧ s.fenced u = false) ∧
    (∃ (u : Nat) (s : State), s.ready = true ∧ s.inRepose = false ∧ u < numTiles ∧ (s.tile u).chisel.state = 1 ∧ (s.tile u).chisel.forced = true ∧ (s.tile u).chisel.startedSlotWait = false ∧ s.mayArm u = true ∧ (s.tile u).chisel.forcedBeat + s.forceWait ≤ s.beat) ∧
    (∃ (u : Nat) (s : State) (l : Nat) (k : Nat) (x : Slot), (List.foldl State.drainReply s allTiles).logical u = some l ∧ ((List.foldl State.drainReply s allTiles).tile u).chisel.state = 6 ∧ (List.foldl State.drainReply s allTiles).slotOf u = some (k, x) ∧ (List.foldl State.drainReply s allTiles).holdDrained l = true ∧ s.ready = true ∧ u < numTiles) ∧
    (∃ (u : Nat) (s : State), (∀ (l : Nat), (List.foldl State.drainReply s allTiles).logical u = some l → (List.foldl State.drainReply s allTiles).holdDrained l = false) ∧ s.ready = true ∧ u < numTiles) :=
  ⟨⟨0, { rd with time.time := 8192 * 1000000 }, by decide +kernel⟩,
    ⟨0, rd, by decide +kernel⟩,
    ⟨3, inT { rd with force := [(Reg.chiselChiselTimes, 0)] } 3 { chisel := { state := 1 } }, by decide +kernel⟩,
    ⟨3, inT rd 3 { chisel := { state := 2, node.arm := 1 } }, by decide +kernel⟩,
    ⟨3, inT rd 3 { chisel := { state := 3, node.arm := 2 } }, by decide +kernel⟩,
    ⟨3, 0, slt 2 3 4, { ch3 (slt 2 3 4) { state := 2 } with time.time := 8192 * 70000 }, by decide +kernel⟩,
    ⟨259, 0, slt 2 259 4, { inT (hotAt 259) 259 { chisel := { state := 4 } } with chisel.slots := [(0, some (slt 2 259 4))] }, by decide +kernel⟩,
    ⟨3, 3, 0, slt 2 3 4, { inT (hotAt 3) 3 { chisel := { state := 4 } } with chisel.slots := [(0, some (slt 2 3 4))] }, by decide +kernel⟩,
    ⟨3, { inT rd 3 { chisel := { state := 1, forced := true } } with time.time := 8192 * 70000 }, by decide +kernel⟩,
    ⟨3, withTiles (ch3 (slt 0 3 4) { state := 6 }) heldT, 3, 0, slt 0 3 4, (by rw [drained_heldT]; decide +kernel), (by rw [drained_heldT]; decide +kernel), (by rw [drained_heldT]; decide +kernel), (by rw [drained_heldT]; simp only [State.holdDrained, List.all_eq_true]; intro t ht; rw [tile_withTiles _ _ ht]; simp [heldT, NiMap.held]), by decide +kernel⟩,
    ⟨259, rd, (fun l h => by rw [drained_rd] at h; cases (show rd.logical 259 = none from by decide +kernel).symm.trans h), by decide +kernel⟩⟩
theorem witness_ChiselResults :
    (∃ (u : Nat) (k : Nat) (x : Slot) (r : SegResult) (s : State), s.ready = true ∧ u < numTiles ∧ s.slotOf u = some (k, x) ∧ x.role ≠ 2 ∧ (s.tile u).chisel.state = 7 ∧ (s.tile u).chisel.seg = r.seg ∧ (s.tile u).chisel.voidNow = false ∧ 8 ≤ r.seg ∧ r.seg < 12 ∧ r.seg ≠ 10 ∧ (members (s.tile u).chisel.node.segs).head? = some r.seg) ∧
    (∃ (u : Nat) (k : Nat) (x : Slot) (r : SegResult) (s : State), s.ready = true ∧ u < numTiles ∧ s.slotOf u = some (k, x) ∧ x.role ≠ 2 ∧ (s.tile u).chisel.state = 7 ∧ (s.tile u).chisel.seg = 12 ∧ (s.tile u).chisel.voidNow = false ∧ r.seg = 12 ∧ (members (s.tile u).chisel.node.segs).head? = some 12) ∧
    (∃ (u : Nat) (k : Nat) (x : Slot) (r : SegResult) (s : State), (s.tile x.other).chisel.values r.seg ≠ [] ∧ (s.tile x.other).chisel.values r.seg = segValues (s.tile u).chisel.node.seed r ∧ s.ready = true ∧ u < numTiles ∧ s.slotOf u = some (k, x) ∧ x.role ≠ 2 ∧ x.other ≠ u ∧ (s.tile u).chisel.state = 7 ∧ (s.tile u).chisel.seg = r.seg ∧ (s.tile u).chisel.voidNow = false ∧ r.seg < 8 ∧ r.seg ≠ 2 ∧ (members (s.tile u).chisel.node.segs).head? = some r.seg ∧ ((s.tile x.other).chisel.state = 7 ∨ (s.tile x.other).chisel.state = 8)) ∧
    (∃ (u : Nat) (k : Nat) (x : Slot) (r : SegResult) (s : State), (s.tile x.other).chisel.values r.seg ≠ segValues (s.tile u).chisel.node.seed r ∧ s.ready = true ∧ u < numTiles ∧ s.slotOf u = some (k, x) ∧ x.role ≠ 2 ∧ x.other ≠ u ∧ (s.tile u).chisel.state = 7 ∧ (s.tile u).chisel.seg = r.seg ∧ (s.tile u).chisel.voidNow = false ∧ r.seg < 8 ∧ r.seg ≠ 2 ∧ (members (s.tile u).chisel.node.segs).head? = some r.seg ∧ ((s.tile x.other).chisel.state = 7 ∨ (s.tile x.other).chisel.state = 8) ∧ (s.tile x.other).chisel.values r.seg ≠ []) ∧
    (∃ (u : Nat) (k : Nat) (x : Slot) (r : SegResult) (s : State), s.ready = true ∧ u < numTiles ∧ s.slotOf u = some (k, x) ∧ x.role ≠ 2 ∧ (s.tile u).chisel.state = 7 ∧ (s.tile u).chisel.seg = r.seg ∧ (s.tile u).chisel.voidNow = true ∧ r.seg < 14 ∧ (members (s.tile u).chisel.node.segs).head? = some r.seg) ∧
    (∃ (u : Nat) (s : State), s.ready = true ∧ u < numTiles ∧ (s.tile u).chisel.state = 7 ∧ (s.tile u).chisel.node.segs = 0 ∧ (s.tile u).chisel.list &&& ~~~(s.tile u).chisel.got = 0) ∧
    (∃ (u : Nat) (k : Nat) (x : Slot) (s : State), s.ready = true ∧ u < numTiles ∧ s.slotOf u = some (k, x) ∧ s.sessionOver u = true ∧ (s.tile u).chisel.state = 7) ∧
    (∃ (u : Nat) (k : Nat) (x : Slot) (s : State), s.ready = true ∧ u < numTiles ∧ s.slotOf u = some (k, x) ∧ s.sessionOver u = true ∧ (s.tile u).chisel.state = 8) ∧
    (∃ (u : Nat) (k : Nat) (g : Nat) (x : Slot) (s : State), (∀ (i : Nat), (s.tile u).chisel.skips g i = false ∧ (s.tile x.other).chisel.skips g i = false) ∧ s.ready = true ∧ u < numTiles ∧ s.slotOf u = some (k, x) ∧ x.role = 0 ∧ x.other ≠ u ∧ (s.tile u).chisel.undec = mask16 [g] ∧ g < 8 ∧ (s.tile u).chisel.witnessOf g = none ∧ (s.tile u).chisel.state = 8 ∧ tget 0 (s.tile u).chisel.undecBeat g + s.witnessWait ≤ s.beat ∧ disputed (s.tile u).chisel (s.tile x.other).chisel g ≠ [] ∧ (∀ i ∈ disputed (s.tile u).chisel (s.tile x.other).chisel g, i < ((s.tile u).chisel.values g).length)) ∧
    (∃ (u : Nat) (stuck : Option Nat) (s : State), s.ready = true ∧ u < numTiles ∧ (s.tile u).chisel.state = 9 ∧ (s.tile u).chisel.node.finish ≠ 0 ∧ (s.tile u).chisel.reinit = none ∧ s.logical u = none ∧ (∀ l < numLogical, s.map.hub.phys l < numTiles ∧ regionOf (s.map.hub.phys l) = regionOfLogical l)) ∧
    (∃ (u : Nat) (k : Nat) (x : Slot) (s : State), s.ready = true ∧ u < numTiles ∧ s.slotOf u = some (k, x) ∧ x.role ≠ 2 ∧ (s.tile u).chisel.state = 9 ∧ (s.tile u).chisel.reinit = some none ∧ s.castPhase ≠ 5 ∧ (s.tile u).chisel.abort = 0 ∧ (s.tile u).chisel.failed = 0 ∧ (s.tile u).chisel.undone = 0 ∧ (s.tile u).chisel.list &&& ~~~(s.tile u).chisel.passed = 0 ∧ (s.tile u).chisel.badRows = 0 ∧ (s.tile u).chisel.badMain = false ∧ (s.tile u).chisel.node.retire = false ∧ (s.tile u).chisel.pend = false ∧ (s.tile u).chisel.fencedIn = false ∧ s.logical u = none ∧ (s.tile u).chisel.orders = [] ∧ (s.tile u).core.resetAt = none) ∧
    (∃ (u : Nat) (s : State), s.castPhase ≠ 3 ∧ s.slotTiles = [u]) :=
  ⟨⟨3, 0, slt 0 3 4, { seg := 8 }, ch3 (slt 0 3 4) { state := 7, seg := 8, node.segs := 0x100 }, by decide +kernel⟩,
    ⟨3, 0, slt 0 3 4, { seg := 12 }, ch3 (slt 0 3 4) { state := 7, seg := 12, node.segs := 0x1000 }, by decide +kernel⟩,
    ⟨3, 0, slt 0 3 4, { seg := 1 }, pairS, (fun h => absurd (congrArg List.length h) (by decide +kernel)), pair_values, by decide +kernel⟩,
    ⟨3, 0, slt 0 3 4, { seg := 1 }, inT (ch3 (slt 0 3 4) { state := 7, seg := 1, node.segs := 2 }) 4 { chisel := { state := 7, results := [(1, [6, 6])] } }, (fun h => absurd (congrArg List.length h) (by decide +kernel)), by decide +kernel⟩,
    ⟨3, 0, slt 0 3 4, { seg := 13 }, ch3 (slt 0 3 4) { state := 7, seg := 13, voidNow := true, node.segs := 0x2000 }, by decide +kernel⟩,
    ⟨3, ch3 (slt 0 3 4) { state := 7, list := 3, got := 3 }, by decide +kernel⟩,
    ⟨3, 0, slt 0 3 4, { ch3 (slt 0 3 4) { state := 7 } with time.time := 8192 * 70000 }, by decide +kernel⟩,
    ⟨3, 0, slt 0 3 4, { ch3 (slt 0 3 4) { state := 8 } with time.time := 8192 * 70000 }, by decide +kernel⟩,
    ⟨3, 0, 1, slt 0 3 4, { inT (ch3 (slt 0 3 4) { state := 8, undec := 2, results := [(1, [5])] }) 4 { chisel := { results := [(1, [6])] } } with time.time := 8192 * 70000 }, (fun _ => ⟨rfl, rfl⟩), by decide +kernel⟩,
    ⟨259, none, inT rd 259 { chisel := { state := 9, node.finish := 1 } }, by decide +kernel⟩,
    ⟨259, 0, slt 0 259 4, { inT rd 259 { chisel := { state := 9, reinit := some none } } with chisel.slots := [(0, some (slt 0 259 4))] }, by decide +kernel⟩,
    ⟨3, { rd with chisel.slots := [(0, some (slt 0 3 4))] }, by decide +kernel⟩⟩
theorem witness_Promotions :
    (∃ (l : Nat) (u : Nat) (p : Promotion) (s : State), s.ready = true ∧ s.time.phase = 7 ∧ s.promotion l = some p ∧ p.target = some u ∧ p.step = 1 ∧ p.ready = false ∧ s.beat ≤ p.since + 5 ∧ (s.tile p.from_).core.router = true ∧ s.pauseBlocks p = false ∧ (s.tile p.from_).chisel.inSession = false ∧ s.inSlot u = false ∧ u < numTiles ∧ s.logical u = none ∧ s.fenced u = false ∧ (s.tile u).pat.level = 0 ∧ (s.tile u).chisel.lastFailed = false ∧ (∀ q ∈ s.map.promotions, q.logical ≠ l → q.target ≠ some u)) ∧
    (∃ (l : Nat) (u : Nat) (uncorr : Nat) (p : Promotion) (s : State), s.ready = true ∧ s.time.phase = 7 ∧ s.promotion l = some p ∧ p.target = some u ∧ p.step = 3 ∧ s.pauseBlocks p = false ∧ s.fenced u = false ∧ (s.tile u).pat.level = 0 ∧ p.from_ ≠ u) ∧
    (∃ (l : Nat) (u : Nat) (p : Promotion) (s : State), s.ready = true ∧ s.time.phase = 7 ∧ s.promotion l = some p ∧ p.target = some u ∧ p.step = 4 ∧ s.pauseBlocks p = false ∧ s.cast.run = none ∧ s.fenced u = false ∧ (s.tile u).pat.level = 0 ∧ p.from_ ≠ u ∧ u < numTiles) ∧
    (∃ (l : Nat) (u : Nat) (p : Promotion) (s : State), s.ready = true ∧ s.promotion l = some p ∧ p.target = some u ∧ p.step = 5 ∧ s.committing l = false ∧ s.map.table.length < repairSlots) ∧
    (∃ (l : Nat) (p : Promotion) (s : State), s.ready = true ∧ s.time.phase = 4 ∧ s.promotion l = some p ∧ p.step = 0 ∧ s.chooseTarget p.from_ ≠ none ∧ l < numLogical) ∧
    (∃ (s : State), s.live = true ∧ s.map.savePending = true) :=
  ⟨⟨3, 259, pr 1 (some 259), { inC (inP (pr 1 (some 259))) 3 { router := true } with time.phase := 7 }, by decide +kernel⟩,
    ⟨3, 259, 0, pr 3 (some 259), { inP (pr 3 (some 259)) with time.phase := 7 }, by decide +kernel⟩,
    ⟨3, 259, pr 4 (some 259), { inP (pr 4 (some 259)) with time.phase := 7 }, by decide +kernel⟩,
    ⟨3, 259, pr 5 (some 259), inP (pr 5 (some 259)), by decide +kernel⟩,
    ⟨3, pr 0 none, { inP (pr 0 none) with time.phase := 4 }, by decide +kernel⟩,
    ⟨{ rd with map.savePending := true }, by decide +kernel⟩⟩
theorem witness_StackAccesses :
    (∃ (a : StackAcc) (s : State), s.stackOn a.tile = true ∧ a.tile < numTiles ∧ a.layer < numLayers ∧ a.block < runtimeEnd a.layer ∧ s.reaches a ∧ (s.inRepose && isHost a.req) = false ∧ s.stackPermits a = true ∧ s.bankRun (bankKey a.tile a.layer (bankOf a.block)) = none ∧ a.kind = AccessKind.read ∧ s.readsRaw a.tile a.layer a.block = false ∧ s.eccAt a.tile a.layer a.block a.ecc = EccFinding.clean) ∧
    (∃ (a : StackAcc) (s : State) (n : Nat), s.stackOn a.tile = true ∧ a.tile < numTiles ∧ a.layer < numLayers ∧ a.block < runtimeEnd a.layer ∧ s.reaches a ∧ (s.inRepose && isHost a.req) = false ∧ s.stackPermits a = true ∧ s.bankRun (bankKey a.tile a.layer (bankOf a.block)) = none ∧ a.kind = AccessKind.read ∧ s.readsRaw a.tile a.layer a.block = false ∧ s.eccAt a.tile a.layer a.block a.ecc = EccFinding.corrected n) ∧
    (∃ (a : StackAcc) (s : State) (cw : Nat), s.stackOn a.tile = true ∧ a.tile < numTiles ∧ a.layer < numLayers ∧ a.block < runtimeEnd a.layer ∧ s.reaches a ∧ (s.inRepose && isHost a.req) = false ∧ s.stackPermits a = true ∧ s.bankRun (bankKey a.tile a.layer (bankOf a.block)) = none ∧ a.kind = AccessKind.read ∧ s.readsRaw a.tile a.layer a.block = false ∧ s.eccAt a.tile a.layer a.block a.ecc = EccFinding.uncorrectable cw) ∧
    (∃ (a : StackAcc) (s : State), s.stackOn a.tile = true ∧ a.tile < numTiles ∧ a.layer < numLayers ∧ a.block < runtimeEnd a.layer ∧ s.reaches a ∧ (s.inRepose && isHost a.req) = false ∧ s.stackPermits a = true ∧ s.bankRun (bankKey a.tile a.layer (bankOf a.block)) = none ∧ a.kind = AccessKind.read ∧ s.readsRaw a.tile a.layer a.block = true) ∧
    (∃ (a : StackAcc) (bs : List Byte) (w : WriteSeal) (s : State), a.kind = AccessKind.write bs w ∧ s.stackOn a.tile = true ∧ a.tile < numTiles ∧ a.layer < numLayers ∧ a.block < runtimeEnd a.layer ∧ s.reaches a ∧ accVerified a = true ∧ (s.inRepose && isHost a.req) = false ∧ s.stackPermits a = true ∧ s.bankRun (bankKey a.tile a.layer (bankOf a.block)) = none ∧ bs.length = blockBytes ∧ (s.castPhase ≠ 3 ∨ (s.tile a.tile).core.castStop = false ∨ a.external = false)) ∧
    (∃ (a : StackAcc) (s : State), s.stackOn a.tile = true ∧ a.tile < numTiles ∧ a.layer < numLayers ∧ a.block < layerBlocks a.layer ∧ accVerified a = true ∧ s.reachable a = true ∧ ownAccess a = false ∧ (s.tile a.tile).core.router = true) ∧
    (∃ (a : StackAcc) (s : State), s.stackOn a.tile = true ∧ a.tile < numTiles ∧ a.layer < numLayers ∧ a.block < layerBlocks a.layer ∧ accVerified a = true ∧ s.reachable a = true ∧ (ownAccess a = true ∨ (s.tile a.tile).core.router = false) ∧ s.sliceHeld a = true) ∧
    (∃ (a : StackAcc) (s : State), s.stackOn a.tile = true ∧ a.tile < numTiles ∧ a.layer < numLayers ∧ a.block < layerBlocks a.layer ∧ accVerified a = true ∧ s.reachable a = true ∧ s.reaches a ∧ (s.inRepose && isHost a.req) = true) ∧
    (∃ (a : StackAcc) (s : State), s.stackOn a.tile = true ∧ a.tile < numTiles ∧ a.layer < numLayers ∧ a.block < layerBlocks a.layer ∧ accVerified a = true ∧ s.reachable a = true ∧ s.reaches a ∧ (s.inRepose && isHost a.req) = false ∧ s.stackPermits a = false) ∧
    (∃ (a : StackAcc) (s : State), s.stackOn a.tile = true ∧ a.tile < numTiles ∧ a.layer < numLayers ∧ a.block < layerBlocks a.layer ∧ accVerified a = true ∧ s.reachable a = true ∧ s.reaches a ∧ (s.inRepose && isHost a.req) = false ∧ s.stackPermits a = true ∧ runtimeEnd a.layer ≤ a.block) ∧
    (∃ (a : StackAcc) (s : State), s.stackOn a.tile = true ∧ a.tile < numTiles ∧ a.layer < numLayers ∧ a.block < layerBlocks a.layer ∧ accVerified a = true ∧ s.reachable a = true ∧ s.reaches a ∧ (s.inRepose && isHost a.req) = false ∧ s.stackPermits a = true ∧ a.block < runtimeEnd a.layer ∧ s.castPhase = 3 ∧ (s.tile a.tile).core.castStop = true ∧ a.external = true ∧ accWrites a = true) ∧
    (∃ (a : StackAcc) (s : State), s.stackOn a.tile = true ∧ a.tile < numTiles ∧ a.layer < numLayers ∧ a.block < layerBlocks a.layer ∧ accVerified a = true ∧ s.reachable a = true ∧ s.reaches a ∧ (s.inRepose && isHost a.req) = false ∧ s.stackPermits a = true ∧ a.block < runtimeEnd a.layer ∧ s.castPhase ≠ 3 ∧ s.bankRun (bankKey a.tile a.layer (bankOf a.block)) ≠ none) ∧
    (∃ (a : StackAcc) (s : State), s.stackLive = true ∧ s.stackStopped a.tile = true ∧ a.tile < numTiles ∧ a.layer < numLayers ∧ a.block < layerBlocks a.layer ∧ accVerified a = true ∧ s.reaches a) :=
  ⟨⟨sa, rd, by decide +kernel⟩,
    ⟨{ sa with ecc := .corrected 2 }, rd, 2, by decide +kernel⟩,
    ⟨{ sa with ecc := .uncorrectable 2 }, rd, 2, by decide +kernel⟩,
    ⟨{ sa with layer := 8 }, cpt, by decide +kernel⟩,
    ⟨{ sa with kind := .write (List.replicate 4096 1) (.stored 1 7) }, List.replicate 4096 1, .stored 1 7, rd, rfl, by decide +kernel⟩,
    ⟨sa, inC rd 3 { router := true }, by decide +kernel⟩,
    ⟨sa, { rd with map.hub.hold := 8 }, by decide +kernel⟩,
    ⟨{ sa with block := 1819 }, { rd with life.repose := 2 }, by decide +kernel⟩,
    ⟨{ sa with req := sc }, rd, by decide +kernel⟩,
    ⟨{ sa with block := 1756 }, rd, by decide +kernel⟩,
    ⟨{ sa with kind := .write (List.replicate 4096 1) (.stored 1 7) }, { inC (inCast (crun 3)) 3 { castStop := true } with status := 3 }, by decide +kernel⟩,
    ⟨sa, inBank rd 2 5, by decide +kernel⟩,
    ⟨sa, { rd with time.stopped := 0x3FFFFFF }, by decide +kernel⟩⟩
theorem witness_NearBankAndScrub :
    (∃ (u : Nat) (st : Nat) (why : Nat) (b : Nat) (n : NearBank) (s : State), s.stackOn u = true ∧ n.layer < numLayers ∧ s.mayRun u = true ∧ (∀ x ∈ nbBlocks n, x < layerBlocks n.layer) ∧ s.nbRefusal u n = some (st, why, b) ∧ (s.tile u).core.cur.isSome = true ∧ (s.tile u).core.halted = false) ∧
    (∃ (u : Nat) (n : NearBank) (s : State), s.stackOn u = true ∧ n.layer < numLayers ∧ s.mayRun u = true ∧ (∀ x ∈ nbBlocks n, x < layerBlocks n.layer) ∧ s.nbRefusal u n = none ∧ s.bankRun (bankKey u n.layer (bankOf n.dst)) = none ∧ s.bankWaits (bankKey u n.layer (bankOf n.dst)) = [] ∧ s.postponed (bankKey u n.layer (bankOf n.dst)) < s.refreshAllowance u n.layer) ∧
    (∃ (u : Nat) (n : NearBank) (s : State), s.stackOn u = true ∧ n.layer < numLayers ∧ s.mayRun u = true ∧ (∀ x ∈ nbBlocks n, x < layerBlocks n.layer) ∧ s.nbRefusal u n = none ∧ (s.bankRun (bankKey u n.layer (bankOf n.dst)) ≠ none ∨ s.bankWaits (bankKey u n.layer (bankOf n.dst)) ≠ [] ∨ s.refreshAllowance u n.layer ≤ s.postponed (bankKey u n.layer (bankOf n.dst)))) ∧
    (∃ (u : Nat) (l : Nat) (bank : Nat) (cycles : Nat) (r : NbRun) (s : State), s.stackOn u = true ∧ s.bankRun (bankKey u l bank) = some r ∧ cycles ≤ 896 ∧ s.bankWaits (bankKey u l bank) = [] ∧ s.nbDue r cycles = true) ∧
    (∃ (u : Nat) (l : Nat) (bank : Nat) (r : NbRun) (s : State), s.stackOn u = true ∧ s.bankRun (bankKey u l bank) = some r ∧ s.bankWaits (bankKey u l bank) = [] ∧ s.nbDue r 960 = true ∧ (s.tile u).core.cur.isSome = true ∧ bit (s.inForce Reg.traceTraceCtl) 1 = false) ∧
    (∃ (u : Nat) (l : Nat) (bank : Nat) (s : State), s.stackOn u = true ∧ (s.bankRun (bankKey u l bank) ≠ none ∨ s.scanning u = true)) ∧
    (∃ (u : Nat) (l : Nat) (bank : Nat) (s : State), s.stackOn u = true ∧ s.bankRun (bankKey u l bank) = none ∧ s.scanning u = false) ∧
    (∃ (u : Nat) (l : Nat) (b : Nat) (c : Convert) (s : State), s.stackOn u = true ∧ u < numTiles ∧ s.inRepose = false ∧ tget none s.stack.convert l = some c ∧ s.nextConvert u l = some b ∧ s.bankRun (bankKey u l (bankOf b)) = none) ∧
    (∃ (u : Nat) (l : Nat) (b : Nat) (c : Convert) (s : State), s.stackOn u = true ∧ u < numTiles ∧ s.inRepose = false ∧ tget none s.stack.convert l = some c ∧ s.nextConvert u l = some b ∧ s.bankRun (bankKey u l (bankOf b)) ≠ none) ∧
    (∃ (u : Nat) (l : Nat) (b : Nat) (s : State), s.stackOn u = true ∧ s.inRepose = false ∧ u < numTiles ∧ l < numLayers ∧ b < layerBlocks l ∧ bit (s.reg (layerReg l 272)) 32 = true ∧ s.patrolDue u l b = true ∧ tget none s.stack.bad (stackBlock u l b) = none ∧ tget 0 s.stack.patrol l + 1 ≠ numTiles * layerBlocks l) ∧
    (∃ (u : Nat) (l : Nat) (b : Nat) (s : State), s.stackOn u = true ∧ s.inRepose = false ∧ u < numTiles ∧ l < numLayers ∧ b < layerBlocks l ∧ bit (s.reg (layerReg l 272)) 32 = true ∧ s.patrolDue u l b = true ∧ tget none s.stack.bad (stackBlock u l b) = none ∧ tget 0 s.stack.patrol l + 1 = numTiles * layerBlocks l) ∧
    (∃ (u : Nat) (l : Nat) (b : Nat) (s : State) (cw : Nat), s.stackOn u = true ∧ s.inRepose = false ∧ u < numTiles ∧ l < numLayers ∧ b < layerBlocks l ∧ bit (s.reg (layerReg l 272)) 32 = true ∧ s.patrolDue u l b = true ∧ s.readsRaw u l b = false) :=
  ⟨⟨3, 3, 1, 0, nbc, run3, by decide +kernel⟩,
    ⟨3, nbc, cpt, by decide +kernel⟩,
    ⟨3, nbc, inBank cpt 8 0, by decide +kernel⟩,
    ⟨3, 8, 0, 896, { tile := 3, cmd := nbc, start := rd.time.time }, inBank rd 8 0, by decide +kernel⟩,
    ⟨3, 8, 0, { tile := 3, cmd := nbc, start := run3.time.time }, inBank run3 8 0, by decide +kernel⟩,
    ⟨3, 8, 0, inBank rd 8 0, by decide +kernel⟩,
    ⟨3, 8, 0, rd, by decide +kernel⟩,
    ⟨3, 8, (cvt.nextConvert 3 8).getD 0, cvtR, cvt, by decide +kernel⟩,
    ⟨3, 8, (cvt.nextConvert 3 8).getD 0, cvtR, inBank cvt 8 ((cvt.nextConvert 3 8).getD 0 % 16), by decide +kernel⟩,
    ⟨3, 2, 5, rd.setReg (layerReg 2 272) 0x100000000, by decide +kernel⟩,
    ⟨3, 2, 5, { rd.setReg (layerReg 2 272) 0x100000000 with stack.patrol := [(2, 1152 * 1820 - 1)] }, by decide +kernel⟩,
    ⟨3, 2, 5, rd.setReg (layerReg 2 272) 0x100000000, 2, by decide +kernel⟩⟩
theorem witness_ThermalSamplesAndDecisions :
    (∃ (n : Nat) (v : BitVec 16) (s : State), s.life.powered = true ∧ s.time.phase < 5 ∧ s.sampleDue n = true ∧ s.sensorReads n = true ∧ (s.sensor n).bad = false ∧ readingOk v = true ∧ ((s.sensor n).reading = 32768 ∨ near 128 (s.sensor n).reading v = true ∨ ∃ d, (s.sensor n).doubt = some d ∧ near 16 d v = true)) ∧
    (∃ (n : Nat) (v : BitVec 16) (s : State), s.life.powered = true ∧ s.time.phase < 5 ∧ s.sampleDue n = true ∧ s.sensorReads n = true ∧ (s.sensor n).bad = false ∧ readingOk v = true ∧ (s.sensor n).reading ≠ 32768 ∧ near 128 (s.sensor n).reading v = false ∧ (s.sensor n).doubt = none) ∧
    (∃ (n : Nat) (v : BitVec 16) (s : State) (d : BitVec 16), s.life.powered = true ∧ s.time.phase < 5 ∧ s.sampleDue n = true ∧ s.sensorReads n = true ∧ (s.sensor n).bad = false ∧ readingOk v = true ∧ (s.sensor n).reading ≠ 32768 ∧ near 128 (s.sensor n).reading v = false ∧ (s.sensor n).doubt = some d ∧ near 16 d v = false) ∧
    (∃ (n : Nat) (v : BitVec 16) (s : State), s.life.powered = true ∧ s.time.phase < 5 ∧ s.sampleDue n = true ∧ s.sensorReads n = true ∧ (s.sensor n).bad = false ∧ readingOk v = false) ∧
    (∃ (n : Nat) (v : BitVec 16) (s : State), s.life.powered = true ∧ s.time.phase < 5 ∧ s.sampleDue n = true ∧ s.sensorReads n = true ∧ (s.sensor n).bad = false ∧ (s.sensor n).missed = 0) ∧
    (∃ (n : Nat) (v : BitVec 16) (s : State), s.life.powered = true ∧ s.time.phase < 5 ∧ s.sampleDue n = true ∧ s.sensorReads n = true ∧ (s.sensor n).bad = false ∧ 1 ≤ (s.sensor n).missed) ∧
    (∃ (n : Nat) (v : BitVec 16) (s : State) (w : BitVec 16) (b : Nat), s.life.powered = true ∧ s.time.phase < 5 ∧ s.sampleDue n = true ∧ s.sensorReads n = true ∧ (s.sensor n).bad = true ∧ readingOk v = true ∧ (s.sensor n).recover = 11 ∧ (s.sensor n).recLast = some w ∧ near 128 w v = true ∧ (s.sensor n).sampled = some b ∧ b + 1 = s.life.allBeats) ∧
    (∃ (n : Nat) (r : Option (BitVec 16)) (s : State), s.sensorReads n = false) ∧
    (∃ (n : Nat) (r : Option (BitVec 16)) (s : State), (5 ≤ s.time.phase ∨ s.sampleDue n = false)) ∧
    (∃ (s : State), s.mayPhase 5 5631 = true) :=
  ⟨⟨0, 300, rd, by decide +kernel⟩,
    ⟨0, 800, sn { reading := 300 }, by decide +kernel⟩,
    ⟨0, 800, sn { reading := 300, doubt := some 600 }, 600, by decide +kernel⟩,
    ⟨0, 3000, sn { reading := 300 }, by decide +kernel⟩,
    ⟨0, 0, sn { reading := 300 }, by decide +kernel⟩,
    ⟨0, 0, sn { reading := 300, missed := 1 }, by decide +kernel⟩,
    ⟨0, 300, { sn { bad := true, recover := 11, recLast := some 300, sampled := some 0 } with time.time := 8192, life.allBeats := 1 }, 300, 0, by decide +kernel⟩,
    ⟨1152, (some 300), { rd with time.stopped := 0x200000 }, by decide +kernel⟩,
    ⟨1, none, rd, by decide +kernel⟩,
    ⟨rd, by decide +kernel⟩⟩
theorem witness_PatinaAndVoltage :
    (∃ (u : Nat) (s : State), s.ready = true ∧ s.mayPhase 4 5119 = true ∧ u < numTiles) ∧
    (∃ (s : State), s.up = true ∧ s.mayPhase 6 5632 = true ∧ s.dbg.nextSample = some s.beat) ∧
    (∃ (s : State), s.up = true ∧ s.mayPhase 6 5632 = true ∧ s.dbg.nextSample ≠ some s.beat) ∧
    (∃ (g : Nat) (s : State), s.live = true ∧ g < numRegions) ∧
    (∃ (g : Nat) (mv : BitVec 16) (s : State), s.life.powered = true ∧ g < numRegions ∧ s.powerRegsOn = true) :=
  ⟨⟨0, rd, by decide +kernel⟩,
    ⟨{ rd with dbg.nextSample := some 0 }, by decide +kernel⟩,
    ⟨rd, by decide +kernel⟩,
    ⟨0, rd, by decide +kernel⟩,
    ⟨15, 700, rd, by decide +kernel⟩⟩
theorem witness_CastsFromWindowToDurable :
    (∃ (r : CastRun) (s : State), s.ready = true ∧ s.time.phase = 7 ∧ s.cast.run = some r ∧ r.phase = 1 ∧ s.mouldWindow = true) ∧
    (∃ (r : CastRun) (s : State), s.ready = true ∧ s.time.phase = 7 ∧ s.cast.run = some r ∧ r.phase = 1 ∧ s.mouldWindow = false ∧ r.deferSince = none) ∧
    (∃ (r : CastRun) (s : State), s.ready = true ∧ s.time.phase = 7 ∧ s.cast.run = some r ∧ r.phase = 1 ∧ s.mouldWindow = false ∧ r.deferSince ≠ none) ∧
    (∃ (r : CastRun) (s : State) (b : Nat) (id : Nat), s.ready = true ∧ s.time.phase = 7 ∧ s.cast.run = some r ∧ r.phase = 1 ∧ r.deferSince = some b ∧ r.order = some id ∧ s.order id ≠ none ∧ b + s.windowWait ≤ s.beat ∧ s.mouldWindow = false) ∧
    (∃ (r : CastRun) (s : State) (b : Nat), s.ready = true ∧ s.time.phase = 7 ∧ s.cast.run = some r ∧ r.phase = 1 ∧ r.deferSince = some b ∧ (s.beat < b + s.windowWait ∨ s.mouldWindow = true)) ∧
    (∃ (r : CastRun) (cyc : Nat) (s : State), (∀ l < numLogical, s.pauseReady (s.phys l) = true) ∧ s.ready = true ∧ s.cast.run = some r ∧ r.phase = 2 ∧ s.cyc ≤ cyc ∧ cyc < beatCycles) ∧
    (∃ (r : CastRun) (cyc : Nat) (s : State) (l : Nat), s.ready = true ∧ s.cast.run = some r ∧ r.phase = 2 ∧ l < numLogical ∧ s.pauseReady (s.phys l) = false) ∧
    (∃ (r : CastRun) (cyc : Nat) (s : State), s.cast.run = some r ∧ (∀ l < numLogical, r.copied.contains l = true ∨ s.copyLate l = true) ∧ s.ready = true ∧ r.phase = 3 ∧ r.resuming = false) ∧
    (∃ (r : CastRun) (cyc : Nat) (s : State) (l : Nat), s.ready = true ∧ s.cast.run = some r ∧ r.phase = 3 ∧ r.resuming = false ∧ l < numLogical ∧ r.copied.contains l = false ∧ s.copyLate l = false) ∧
    (∃ (u : Nat) (m : Mould) (r : CastRun) (s : State), s.ready = true ∧ s.cast.run = some r ∧ r.phase = 4 ∧ List.find? (fun e => e.1 == u && !e.2.drained) r.moulds = some (u, m) ∧ (r.mirror = false ∨ ∀ x ∈ s.cast.mirrorOut, x.tile ≠ u) ∧ r.size ≤ s.logFree ∧ r.final = true) ∧
    (∃ (u : Nat) (m : Mould) (r : CastRun) (s : State), s.ready = true ∧ s.cast.run = some r ∧ r.phase = 4 ∧ List.find? (fun e => e.1 == u && !e.2.drained) r.moulds = some (u, m) ∧ r.mirror = true ∧ (∃ x ∈ s.cast.mirrorOut, x.tile = u)) ∧
    (∃ (u : Nat) (m : Mould) (r : CastRun) (s : State) (id : Nat), s.ready = true ∧ s.cast.run = some r ∧ r.phase = 4 ∧ List.find? (fun e => e.1 == u && !e.2.drained) r.moulds = some (u, m) ∧ (r.mirror = false ∨ ∀ x ∈ s.cast.mirrorOut, x.tile ≠ u) ∧ s.logFree < r.size ∧ r.order = some id ∧ s.order id ≠ none) ∧
    (∃ (r : CastRun) (id : Nat) (s : State), s.ready = true ∧ s.cast.run = some r ∧ r.order = some id ∧ s.order id ≠ none ∧ r.drained = true ∧ r.final = true ∧ (r.mirror = false ∨ ∀ x ∈ s.cast.mirrorOut, x.tile = mirrorReadBack)) ∧
    (∃ (r : CastRun) (id : Nat) (s : State), s.ready = true ∧ s.cast.run = some r ∧ r.order = some id ∧ s.order id ≠ none ∧ (r.drained = false ∨ r.final = false)) ∧
    (∃ (r : CastRun) (id : Nat) (s : State), s.ready = true ∧ s.cast.run = some r ∧ r.order = some id ∧ s.order id ≠ none ∧ r.mirror = true ∧ (∃ x ∈ s.cast.mirrorOut, x.tile ≠ mirrorReadBack)) ∧
    (∃ (r : CastRun) (id : Nat) (s : State), s.ready = true ∧ s.cast.run = some r ∧ r.order = some id ∧ s.order id ≠ none ∧ r.phase = 4) ∧
    (∃ (r : CastRun) (id : Nat) (s : State), s.ready = true ∧ s.cast.run = some r ∧ r.order = some id ∧ s.order id ≠ none ∧ r.phase ≠ 4) ∧
    (∃ (r : CastRun) (why : MirrorReason) (s : State), s.ready = true ∧ s.cast.run = some r ∧ r.phase = 4 ∧ r.mirror = true) ∧
    (∃ (r : CastRun) (why : MirrorReason) (s : State), s.ready = true ∧ s.cast.run = some r ∧ (r.phase ≠ 4 ∨ r.mirror = false)) ∧
    (∃ (chip : BitVec 13) (xid : BitVec 16) (bs : List (List Byte)) (flushed : Bool) (s : State), s.ready = true ∧ s.cast.storeOk = true ∧ s.inRepose = false ∧ (s.cast.mirrorIn = none ∨ s.cast.mirrorIn = some chip) ∧ segLbas s.nv.mirror + bs.length ≤ s.mirrorLbas - 2) ∧
    (∃ (chip : BitVec 13) (xid : BitVec 16) (bs : List (List Byte)) (flushed : Bool) (s : State), s.ready = true ∧ (s.cast.storeOk = false ∨ s.inRepose = true)) :=
  ⟨⟨crun 1, { hotM with cast.run := some (crun 1), time.phase := 7 }, by decide +kernel⟩,
    ⟨crun 1, { inCast (crun 1) with time.phase := 7 }, by decide +kernel⟩,
    ⟨{ crun 1 with deferSince := some 0 }, { inCast { crun 1 with deferSince := some 0 } with time.phase := 7 }, by decide +kernel⟩,
    ⟨rO { crun 1 with deferSince := some 0 }, { cO { crun 1 with deferSince := some 0 } with time.time := 8192 * 70000, time.phase := 7 }, 0, 0, by decide +kernel⟩,
    ⟨{ crun 1 with deferSince := some 0 }, { inCast { crun 1 with deferSince := some 0 } with time.phase := 7 }, 0, by decide +kernel⟩,
    ⟨crun 2, 100, withTiles (inCast (crun 2)) fun _ => stopT, (fun l hl => by rw [State.pauseReady, tile_withTiles _ _ ((by decide +kernel : ∀ l < numLogical, (withTiles (inCast (crun 2)) fun _ => stopT).phys l < numTiles) l hl |> List.mem_range.2)]; rfl), by decide +kernel⟩,
    ⟨crun 2, 100, inCast (crun 2), 5, by decide +kernel⟩,
    ⟨{ crun 3 with copied := allLogical }, 100, inCast { crun 3 with copied := allLogical }, rfl, (fun _ hl => .inl (by simp only [List.contains_iff_mem]; exact mem_all hl)), by decide +kernel⟩,
    ⟨crun 3, 100, inCast (crun 3), 5, by decide +kernel⟩,
    ⟨3, mould0, { crun 4 with moulds := [(3, mould0)], final := true }, { inCast { crun 4 with moulds := [(3, mould0)], final := true } with cast.logSize := 10000 }, by decide +kernel⟩,
    ⟨3, mould0, { crun 4 with moulds := [(3, mould0)], mirror := true }, { inCast { crun 4 with moulds := [(3, mould0)], mirror := true } with cast.mirrorOut := [{ chip := 5, tile := 3, bytes := [1] }] }, by decide +kernel⟩,
    ⟨3, mould0, rO { crun 4 with moulds := [(3, mould0)], final := true }, cO { crun 4 with moulds := [(3, mould0)], final := true }, 0, by decide +kernel⟩,
    ⟨rO { crun 4 with final := true }, 0, cO { crun 4 with final := true }, by decide +kernel⟩,
    ⟨rO (crun 4), 0, cO (crun 4), by decide +kernel⟩,
    ⟨rO { crun 4 with mirror := true }, 0, { cO { crun 4 with mirror := true } with cast.mirrorOut := [{ chip := 5, tile := 3, bytes := [1] }] }, by decide +kernel⟩,
    ⟨rO (crun 4), 0, cO (crun 4), by decide +kernel⟩,
    ⟨rO (crun 1), 0, cO (crun 1), by decide +kernel⟩,
    ⟨{ crun 4 with mirror := true }, .unreachable, inCast { crun 4 with mirror := true }, by decide +kernel⟩,
    ⟨crun 4, .unreachable, inCast (crun 4), by decide +kernel⟩,
    ⟨5, 1, [[1]], true, { rd with cast.storeOk := true, nv.lbas := 100 }, by decide +kernel⟩,
    ⟨5, 1, [[1]], true, rd, by decide +kernel⟩⟩
theorem witness_Restores :
    (∃ (r : CastRun) (id : Nat) (w : RestoreWalk) (s : State), s.ready = true ∧ s.cast.run = some r ∧ r.phase = 5 ∧ r.walked = false ∧ r.peer = false ∧ r.order = some id ∧ s.order id ≠ none ∧ w.crcOk = false) ∧
    (∃ (r : CastRun) (id : Nat) (w : RestoreWalk) (s : State) (chain : List CastRec) (c : CastRec), chainTo s.nv.casts r.number = some chain ∧ chain.getLast? = some c ∧ (∃ x ∈ chain, x.key ≠ s.detKey) ∧ s.ready = true ∧ s.cast.run = some r ∧ r.phase = 5 ∧ r.walked = false ∧ r.peer = false ∧ r.order = some id ∧ s.order id ≠ none ∧ w.crcOk = true ∧ r.foreign = true) ∧
    (∃ (r : CastRun) (id : Nat) (w : RestoreWalk) (s : State) (chain : List CastRec) (c : CastRec), chainTo s.nv.casts r.number = some chain ∧ chain.getLast? = some c ∧ (∀ x ∈ chain, x.key = s.detKey) ∧ s.ready = true ∧ s.cast.run = some r ∧ r.phase = 5 ∧ r.walked = false ∧ r.peer = false ∧ r.order = some id ∧ s.order id ≠ none ∧ w.crcOk = true ∧ r.foreign = true ∧ genMismatch c ≠ none) ∧
    (∃ (r : CastRun) (id : Nat) (w : RestoreWalk) (s : State) (chain : List CastRec) (c : CastRec), chainTo s.nv.casts r.number = some chain ∧ chain.getLast? = some c ∧ (∀ x ∈ chain, x.key = s.detKey) ∧ s.ready = true ∧ s.cast.run = some r ∧ r.phase = 5 ∧ r.walked = false ∧ r.peer = false ∧ r.order = some id ∧ s.order id ≠ none ∧ w.crcOk = true ∧ r.foreign = true ∧ genMismatch c = none) ∧
    (∃ (r : CastRun) (l : Nat) (s : State), s.ready = true ∧ l < numLogical ∧ s.cast.run = some r ∧ r.phase = 5 ∧ r.walked = true ∧ r.written.contains l = false ∧ s.restoreReady = true ∧ s.restoreFails r l (s.phys l) = none ∧ List.find? (fun e => e.1 == l) r.waits = none) ∧
    (∃ (r : CastRun) (l : Nat) (s : State), s.ready = true ∧ l < numLogical ∧ s.cast.run = some r ∧ r.phase = 5 ∧ r.walked = true ∧ r.written.contains l = false ∧ s.restoreReady = true ∧ s.restoreFails r l (s.phys l) ≠ none ∧ List.find? (fun e => e.1 == l) r.waits = none) ∧
    (∃ (r : CastRun) (id : Nat) (s : State), s.cast.run = some r ∧ (∀ l < numLogical, r.written.contains l = true) ∧ s.ready = true ∧ r.phase = 5 ∧ r.order = some id ∧ s.order id ≠ none ∧ s.map.promotions = [] ∧ r.walked = true) ∧
    (∃ (r : CastRun) (id : Nat) (s : State) (l : Nat), s.ready = true ∧ s.cast.run = some r ∧ r.phase = 5 ∧ r.order = some id ∧ s.order id ≠ none ∧ s.map.promotions = [] ∧ l < numLogical ∧ r.written.contains l = false) ∧
    (∃ (r : CastRun) (id : Nat) (s : State), s.ready = true ∧ s.cast.run = some r ∧ r.phase = 5 ∧ r.order = some id ∧ s.order id ≠ none ∧ s.map.promotions = [] ∧ (∀ e ∈ r.waits, s.restoreFails r e.1 (s.phys e.1) = none ∨ s.beat < e.2 + s.windowWait)) ∧
    (∃ (r : CastRun) (id : Nat) (s : State) (e : Nat × Nat), s.ready = true ∧ s.cast.run = some r ∧ r.phase = 5 ∧ r.order = some id ∧ s.order id ≠ none ∧ s.map.promotions = [] ∧ e ∈ r.waits ∧ e.2 + s.windowWait ≤ s.beat ∧ s.restoreFails r e.1 (s.phys e.1) ≠ none) :=
  ⟨⟨rO (crun 5), 0, { wk with crcOk := false }, cO (crun 5), by decide +kernel⟩,
    ⟨rO { crun 5 with foreign := true }, 0, wk, { cO { crun 5 with foreign := true } with nv.casts := [{ cr0 with key := ~~~rd.detKey }] }, [{ cr0 with key := ~~~rd.detKey }], { cr0 with key := ~~~rd.detKey }, rfl, rfl, (⟨_, List.mem_singleton_self _, not_ne_self rd.detKey⟩), by decide +kernel⟩,
    ⟨rO { crun 5 with foreign := true }, 0, wk, { cO { crun 5 with foreign := true } with nv.casts := [{ cr0 with key := rd.detKey, moulds := [{ mould0.rec_ with gens := [(0, 0x80000000000000000000000100000000)] }] }] }, [{ cr0 with key := rd.detKey, moulds := [{ mould0.rec_ with gens := [(0, 0x80000000000000000000000100000000)] }] }], { cr0 with key := rd.detKey, moulds := [{ mould0.rec_ with gens := [(0, 0x80000000000000000000000100000000)] }] }, rfl, rfl, (fun x hx => by rw [List.mem_singleton.1 hx]; rfl), by decide +kernel⟩,
    ⟨rO { crun 5 with foreign := true }, 0, wk, { cO { crun 5 with foreign := true } with nv.casts := [{ cr0 with key := rd.detKey }] }, [{ cr0 with key := rd.detKey }], { cr0 with key := rd.detKey }, rfl, rfl, (fun x hx => by rw [List.mem_singleton.1 hx]; rfl), by decide +kernel⟩,
    ⟨{ crun 5 with walked := true }, 3, inCast { crun 5 with walked := true }, by decide +kernel⟩,
    ⟨{ crun 5 with walked := true, chain := [{ cr0 with moulds := [{ mould0.rec_ with blocks := [(1, 0, [], 0)] }] }] }, 3, inCast { crun 5 with walked := true, chain := [{ cr0 with moulds := [{ mould0.rec_ with blocks := [(1, 0, [], 0)] }] }] }, by decide +kernel⟩,
    ⟨rO { crun 5 with walked := true, written := allLogical }, 0, cO { crun 5 with walked := true, written := allLogical }, rfl, (fun _ hl => by simp only [rO, List.contains_iff_mem]; exact mem_all hl), by decide +kernel⟩,
    ⟨rO { crun 5 with walked := true }, 0, cO { crun 5 with walked := true }, 5, by decide +kernel⟩,
    ⟨rO { crun 5 with walked := true, waits := [(3, 0)] }, 0, { cO { crun 5 with walked := true, waits := [(3, 0)] } with time.time := 8192 * 70000 }, by decide +kernel⟩,
    ⟨rO { crun 5 with walked := true, waits := [(3, 0)], chain := [{ cr0 with moulds := [{ mould0.rec_ with blocks := [(1, 0, [], 0)] }] }] }, 0, { cO { crun 5 with walked := true, waits := [(3, 0)], chain := [{ cr0 with moulds := [{ mould0.rec_ with blocks := [(1, 0, [], 0)] }] }] } with time.time := 8192 * 70000 }, (3, 0), by decide +kernel⟩⟩
theorem witness_DigestsWeightsAndLicences :
    (∃ (k : Nat) (s : State), s.ready = true ∧ k < 16 ∧ (s.dslot k).state = 2 ∧ s.digestSettled k = true) ∧
    (∃ (k : Nat) (s : State), s.ready = true ∧ k < 16 ∧ (s.dslot k).state = 2 ∧ s.digestSettled k = false) ∧
    (∃ (k : Nat) (s : State), s.ready = true ∧ k < 16 ∧ (s.dslot k).state = 3 ∧ (s.dslot k).since + fld (s.inForce Reg.digestDigestCtl) 7 0 ≤ s.beat) ∧
    (∃ (k : Nat) (s : State), s.ready = true ∧ k < 16 ∧ (s.dslot k).state = 3 ∧ s.beat < (s.dslot k).since + fld (s.inForce Reg.digestDigestCtl) 7 0) ∧
    (∃ (k : Nat) (id : Nat) (a : BitVec 384) (b : BitVec 384) (s : State), s.ready = true ∧ k < 16 ∧ (s.dslot k).state = 4 ∧ (s.dslot k).order = some id ∧ s.order id ≠ none) ∧
    (∃ (k : Nat) (id : Nat) (a : BitVec 384) (b : BitVec 384) (s : State), s.ready = true ∧ k < 16 ∧ (s.dslot k).state = 4 ∧ (s.dslot k).order = some id ∧ s.order id ≠ none ∧ (s.dslot k).since + 12500 ≤ s.beat) ∧
    (∃ (k : Nat) (id : Nat) (a : BitVec 384) (b : BitVec 384) (s : State), s.ready = true ∧ k < 16 ∧ (s.dslot k).state = 4 ∧ (s.dslot k).order = some id ∧ s.order id ≠ none ∧ s.beat < (s.dslot k).since + 12500) ∧
    (∃ (w : Nat) (fmt : BitVec 4) (ue : List (Nat × Nat)) (s : State), s.live = true ∧ w < 8 ∧ (s.wset w).state = 1 ∧ s.wsetFault w fmt.toNat ue = none) ∧
    (∃ (w : Nat) (fmt : BitVec 4) (ue : List (Nat × Nat)) (s : State) (u : Nat) (why : Nat), s.live = true ∧ w < 8 ∧ (s.wset w).state = 1 ∧ s.wsetFault w fmt.toNat ue = some (u, why)) ∧
    (∃ (sigOk : Option Bool) (s : State), s.live = true ∧ s.digest.licPending = true ∧ (sigOk = none → s.digest.licBeat + 125 ≤ s.beat)) :=
  ⟨⟨0, { rd with digest.slots := [(0, { state := 2, last := some 5 })] }, by decide +kernel⟩,
    ⟨0, { run3 with digest.slots := [(0, { state := 2, last := some 5, cfg := 0xC03 })] }, by decide +kernel⟩,
    ⟨0, { rd with digest.slots := [(0, { state := 3 })], time.time := 8192 * 300 }, by decide +kernel⟩,
    ⟨0, { rd with digest.slots := [(0, { state := 3 })] }, by decide +kernel⟩,
    ⟨0, 0, 1, 2, wOrd { rd with digest.slots := [(0, { state := 4, order := some 0 })] }, by decide +kernel⟩,
    ⟨0, 0, 1, 2, { wOrd { rd with digest.slots := [(0, { state := 4, order := some 0 })] } with time.time := 8192 * 12500 }, by decide +kernel⟩,
    ⟨0, 0, 1, 2, wOrd { rd with digest.slots := [(0, { state := 4, order := some 0 })] }, by decide +kernel⟩,
    ⟨0, 1, [], { rd with digest.sets := [(0, { state := 1 })], stack.seals := [(stackBlock 0 0 0, 0x180000000)] }, by decide +kernel⟩,
    ⟨0, 1, [], { rd with digest.sets := [(0, { state := 1 })] }, 0, 1, by decide +kernel⟩,
    ⟨some true, { rd with digest.licPending := true }, by decide +kernel⟩⟩
theorem witness_SamplesTraceDumpsAndPalalmux :
    (∃ (late : List Nat) (s : State), s.up = true ∧ s.dbg.sampled = true ∧ (late = [] ∨ s.sampleNext.beat < s.beat ∧ s.time.phase = 8)) ∧
    (∃ (s : State), s.live = true ∧ (bit (s.inForce Reg.traceTraceCtl) 0 = false ∨ bit (s.inForce Reg.traceTraceCtl) 1 = true)) ∧
    (∃ (s : State), s.live = true ∧ bit (s.inForce Reg.traceTraceCtl) 0 = true ∧ bit (s.inForce Reg.traceTraceCtl) 1 = false ∧ (∀ u < numTiles, ∀ r ∈ (s.tile u).core.traceQ, r.length = 32) ∧ s.dbg.trBuf.length + (List.map (fun u => 32 * (s.tile u).core.traceQ.length) allTiles).sum < 65536) ∧
    (∃ (s : State), s.life.powered = true ∧ s.life.frozen = true ∧ s.dbg.dumpState = 1 ∧ s.dumpHeaderFits = true ∧ s.dumpCut = none) ∧
    (∃ (s : State), s.life.powered = true ∧ s.life.frozen = true ∧ s.dbg.dumpState = 1 ∧ s.dumpHeaderFits = false) ∧
    (∃ (s : State), s.life.powered = true ∧ s.life.frozen = true ∧ s.dbg.dumpState = 1) ∧
    (∃ (e : DumpEnd) (s : State), (s.life.frozen = false ∨ s.dbg.dumpState ≠ 1)) ∧
    (∃ (kind : BitVec 8) (s : State), s.live = true ∧ 2 ≤ s.life.stage ∧ (∃ r ∈ s.life.mgmtReqs, r.kind = kind.toNat ∧ 12500 ≤ r.waited ∧ r.lost = false)) ∧
    (∃ (s : State), s.live = true) :=
  ⟨⟨[], { rd with dbg.sampled := true }, by decide +kernel⟩,
    ⟨rd, by decide +kernel⟩,
    ⟨inC { rd with force := [(Reg.traceTraceCtl, 1)] } 3 { traceQ := [List.replicate 32 0] }, by decide +kernel⟩,
    ⟨(frz rd).setReg Reg.dumpDumpSize 0xFFFFFFFF000 |> fun s => { s with dbg.dumpState := 1 }, by decide +kernel⟩,
    ⟨{ frz rd with dbg.dumpState := 1 }, by decide +kernel⟩,
    ⟨{ frz rd with dbg.dumpState := 1 }, by decide +kernel⟩,
    ⟨.done, rd, by decide +kernel⟩,
    ⟨2, { rd with life.mgmtReqs := [{ kind := 2, waited := 12500 }] }, by decide +kernel⟩,
    ⟨rd, by decide +kernel⟩⟩
theorem witness_MemoriesStayCanonical :
    (∃ (c : Instr) (s : State), s.MemWf) ∧
    (∃ (s : State), s.MemWf) :=
  ⟨⟨.traceDrain, rd, by decide +kernel⟩,
    ⟨rd, by decide +kernel⟩⟩
theorem witness_LocksStayUntilReset :
    (∃ (c : Instr) (s : State), (∀ (i : S0In), c ≠ .plinthPowerGood i) ∧ (∀ (i : S0In), c ≠ .wholeChipReset i) ∧ c ≠ .powerRemoved) ∧
    (∃ (s : State), s.pending = []) ∧
    (∃ (m : Requester) (p : Nat) (size : Nat) (s : State), pageExists p = true ∧ s.mayUse m p 40 ∧ (size = 4 ∨ size = 8)) :=
  ⟨⟨.traceDrain, rd.setReg 0x3028 1, ((by intro _ h; cases h)), ((by intro _ h; cases h)), by decide +kernel⟩,
    ⟨rd.setReg 0x3028 1, by decide +kernel⟩,
    ⟨mg, 3, 8, rd, by decide +kernel⟩⟩

end Sys2Proof.Tests
end

section
/-! SUPPORT. The PAGE_LOCK bits, the freeze, the bring-up stage and the lines CHM_FATAL_N and THERM_TRIP_N, which
almost every operation of the model leaves as they are: one lemma per operation, in the order of the model. -/

namespace Sys2Proof.Machine

/-! ### The locks of a state -/

/-- The PAGE_LOCK bits of a table of registers, by page. -/
def pageLocks (regs : Tbl Word) (p : Nat) : Bool :=
  pageExists p && (tget (regReset (p * 0x1000 + 0x028)) regs (p * 0x1000 + 0x028)).getLsbD 0

/-- `t` has the PAGE_LOCK bits, the freeze, the bring-up stage and the two lines of `s`. Every operation below but the
few that set one of them leaves these as they are; `simp` uses the five equations one by one. -/
@[simp] abbrev SameLocks (s t : State) : Prop :=
  pageLocks t.regs = pageLocks s.regs ∧ t.life.frozen = s.life.frozen ∧ t.life.stage = s.life.stage ∧
  t.fatalN = s.fatalN ∧ t.tripN = s.tripN

theorem SameLocks.trans {a b c : State} (h : SameLocks a b) (h' : SameLocks b c) : SameLocks a c := by
  simp_all

/-! ### Choices and folds -/

@[simp] theorem State.regs_ite (c : Prop) [Decidable c] (a b : State) :
    (if c then a else b).regs = if c then a.regs else b.regs := apply_ite ..

@[simp] theorem State.life_ite (c : Prop) [Decidable c] (a b : State) :
    (if c then a else b).life = if c then a.life else b.life := apply_ite ..

@[simp] theorem State.fatalN_ite (c : Prop) [Decidable c] (a b : State) :
    (if c then a else b).fatalN = if c then a.fatalN else b.fatalN := apply_ite State.fatalN ..

@[simp] theorem State.tripN_ite (c : Prop) [Decidable c] (a b : State) :
    (if c then a else b).tripN = if c then a.tripN else b.tripN := apply_ite State.tripN ..

@[simp] theorem pageLocks_ite (c : Prop) [Decidable c] (a b : Tbl Word) :
    pageLocks (if c then a else b) = if c then pageLocks a else pageLocks b := apply_ite ..

@[simp] theorem Life.frozen_ite (c : Prop) [Decidable c] (a b : Life) :
    (if c then a else b).frozen = if c then a.frozen else b.frozen := apply_ite ..

@[simp] theorem Life.stage_ite (c : Prop) [Decidable c] (a b : Life) :
    (if c then a else b).stage = if c then a.stage else b.stage := apply_ite ..

@[simp] theorem foldl_sameLocks {α : Type} (f : State → α → State) (l : List α) (s : State)
    (h : ∀ s x, SameLocks s (f s x)) : SameLocks s (l.foldl f s) := by
  induction l generalizing s with
  | nil => simp
  | cons a l ih => exact (h s a).trans (ih (f s a))

@[simp] theorem foldl_fst_sameLocks {α β : Type} (f : State × β → α → State × β) (l : List α) (a : State × β)
    (h : ∀ a x, SameLocks a.1 (f a x).1) : SameLocks a.1 (l.foldl f a).1 := by
  induction l generalizing a with
  | nil => simp
  | cons x l ih => exact (h a x).trans (ih (f a x))

theorem foldl_then_sameLocks {α : Type} {f : State → α → State} {l : List α} {s : State} (g : State → State)
    (hf : ∀ s x, SameLocks s (f s x)) (hg : ∀ t, SameLocks t (g t)) : SameLocks s (g (l.foldl f s)) :=
  (foldl_sameLocks f l s hf).trans (hg _)

/-- The list of the 1,152 tiles under a name of its own: rewriting with it keeps the list from being evaluated. -/
theorem exists_eq_allTiles : ∃ l, allTiles = l := ⟨_, rfl⟩

/-! ### Registers by layer and region -/

@[simp] theorem layerReg_mod (l off : Nat) : layerReg l off % 0x1000 = off % 0x1000 := by
  simp [layerReg]

@[simp] theorem regionReg_mod (l off : Nat) : regionReg l off % 0x1000 = off % 0x1000 := by
  simp [regionReg]

/-! ### Machine.Ops -/

@[simp] theorem State.setReg_sameLocks (s : State) (k : Nat) (v : Word) (h : k % 0x1000 ≠ 0x028) :
    SameLocks s (s.setReg k v) := by
  refine ⟨?_, rfl, rfl, rfl, rfl⟩
  funext p
  have hp : p * 0x1000 + 0x028 ≠ k := by omega
  simp [pageLocks, State.setReg, tget_tset_ne _ _ _ v hp]

@[simp] theorem State.bump_sameLocks (s : State) (k n : Nat) (h : k % 0x1000 ≠ 0x028) : SameLocks s (s.bump k n) := by
  simp [State.bump, h]

@[simp] theorem State.ackDrain_sameLocks (s : State) (n : Nat) : SameLocks s (s.ackDrain n) := by
  simp [State.ackDrain]

@[simp] theorem State.slew_sameLocks (s : State) (n : Nat) : SameLocks s (s.slew n) := by simp [State.slew]

@[simp] theorem State.toCycle_sameLocks (s : State) (c : Nat) : SameLocks s (s.toCycle c) := by simp [State.toCycle]

@[simp] theorem State.draw_sameLocks (s : State) : SameLocks s s.draw.2 := by simp [State.draw]

@[simp] theorem State.localStamp_sameLocks (s : State) (d : Nat) : SameLocks s (s.localStamp d).2 := by
  unfold State.localStamp
  dsimp only
  (repeat' split) <;> simp

@[simp] theorem State.summaryNext_sameLocks (s : State) (t : Nat) : SameLocks s (s.summaryNext t) := by
  unfold State.summaryNext
  dsimp only
  (repeat' split) <;> simp

@[simp] theorem State.replyNext_sameLocks (s : State) (t : Nat) : SameLocks s (s.replyNext t) := by
  unfold State.replyNext
  split <;> simp

@[simp] theorem State.replyPacket_sameLocks (s : State) (t : Nat) (body : List Flit) :
    SameLocks s (s.replyPacket t body) := by simp [State.replyPacket]

@[simp] theorem State.sendReply_sameLocks (s : State) (t : Nat) (ps : List (List Flit)) :
    SameLocks s (s.sendReply t ps) := by simp [State.sendReply]

@[simp] theorem State.reply_sameLocks (s : State) (t rstatus : Nat) : SameLocks s (s.reply t rstatus) := by
  simp [State.reply]

@[simp] theorem State.replyRejected_sameLocks (s : State) (t : Nat) : SameLocks s (s.replyRejected t) := by
  simp [State.replyRejected]

@[simp] theorem State.setStream_sameLocks (s : State) (t vc : Nat) (st : StreamSt) :
    SameLocks s (s.setStream t vc st) := by
  unfold State.setStream
  split <;> simp

@[simp] theorem State.raiseHub_sameLocks (s : State) (code : Nat) (sev : Severity) (detail : Word) :
    SameLocks s (s.raiseHub code sev detail) := by simp [State.raiseHub]

@[simp] theorem State.hang_sameLocks (s : State) (ring : Nat) (time : Word) (k : HangKind) (cseq data : Nat) :
    SameLocks s (s.hang ring time k cseq data) := by simp [State.hang]

@[simp] theorem State.hangFree_sameLocks (s : State) (ring : Nat) (time : Word) (k : HangKind) (cseq cause : Nat) :
    SameLocks s (s.hangFree ring time k cseq cause) := by simp [State.hangFree]

@[simp] theorem State.hangLocal_sameLocks (s : State) (t unit : Nat) (k : HangKind) (cseq cause : Nat) :
    SameLocks s (s.hangLocal t unit k cseq cause) := by simp [State.hangLocal]

@[simp] theorem State.unitRing_sameLocks (s : State) (t unit : Nat) (k : HangKind) (cause : Nat) :
    SameLocks s (s.unitRing t unit k cause) := by simp [State.unitRing]

@[simp] theorem State.layerRing_sameLocks (s : State) (l : Nat) (k : HangKind) : SameLocks s (s.layerRing l k) := by
  simp [State.layerRing]

@[simp] theorem State.eventNext_sameLocks (s : State) (t : Nat) : SameLocks s (s.eventNext t) := by
  unfold State.eventNext
  split <;> simp

@[simp] theorem State.raiseNode_sameLocks (s : State) (t : Nat) (r : EvRec) : SameLocks s (s.raiseNode t r) := by
  simp [State.raiseNode, Reg.armEventsDropped]

@[simp] theorem State.raiseTile_sameLocks (s : State) (t unit code : Nat) (sev : Severity)
    (c : Option (BitVec 16 × BitVec 16 × BitVec 24)) (detail : Word) :
    SameLocks s (s.raiseTile t unit code sev c detail) := by simp [State.raiseTile]

@[simp] theorem State.raiseTileNode_sameLocks (s : State) (t code : Nat) (sev : Severity)
    (c : Option (BitVec 16 × BitVec 16 × BitVec 24)) (detail : Word) :
    SameLocks s (s.raiseTileNode t code sev c detail) := by simp [State.raiseTileNode]

@[simp] theorem State.raiseLink_sameLocks (s : State) (n code : Nat) (sev : Severity) (detail : Word) :
    SameLocks s (s.raiseLink n code sev detail) := by simp [State.raiseLink]

@[simp] theorem State.raiseLayer_sameLocks (s : State) (l unit code : Nat) (sev : Severity) (detail : Word) :
    SameLocks s (s.raiseLayer l unit code sev detail) := by simp [State.raiseLayer]

@[simp] theorem State.recordFrom_sameLocks (s : State) (src code : Nat) (sev : Severity) (detail : Word) :
    SameLocks s (s.recordFrom src code sev detail).2 := by
  unfold State.recordFrom
  split <;> simp

@[simp] theorem State.raiseFrom_sameLocks (s : State) (src code : Nat) (sev : Severity) (detail : Word) :
    SameLocks s (s.raiseFrom src code sev detail) := by simp [State.raiseFrom]

@[simp] theorem State.count_sameLocks (s : State) (t i n : Nat) : SameLocks s (s.count t i n) := by simp [State.count]

@[simp] theorem State.mgmtAsk_sameLocks (s : State) (k : Nat) : SameLocks s (s.mgmtAsk k) := by simp [State.mgmtAsk]

@[simp] theorem State.mgmtDone_sameLocks (s : State) (k : Nat) : SameLocks s (s.mgmtDone k) := by
  simp [State.mgmtDone]

@[simp] theorem State.mgmtTick_sameLocks (s : State) : SameLocks s s.mgmtTick := by simp [State.mgmtTick]

@[simp] theorem State.orderDetail_sameLocks (s : State) (id : Nat) (d : BitVec 32) :
    SameLocks s (s.orderDetail id d) := by simp [State.orderDetail]

@[simp] theorem State.finish_sameLocks (s : State) (id : Nat) (st : Status) : SameLocks s (s.finish id st) := by
  unfold State.finish
  split <;> simp [Reg.orderIllegal]

@[simp] theorem State.finishOpt_sameLocks (s : State) (id : Option Nat) (st : Status) :
    SameLocks s (s.finishOpt id st) := by
  unfold State.finishOpt
  split <;> simp

@[simp] theorem State.inject_sameLocks (s : State) : SameLocks s s.inject := by simp [State.inject]

@[simp] theorem State.hubPacket_sameLocks (s : State) (q : SendReq) (dests : BitVec 1152) :
    SameLocks s (s.hubPacket q dests) := by simp [State.hubPacket]

@[simp] theorem State.hubSend_sameLocks (s : State) (q : SendReq) : SameLocks s (s.hubSend q) := by
  unfold State.hubSend
  split <;> simp

/-! ### Machine.Access -/

@[simp] theorem State.deny_sameLocks (s : State) (m : Requester) (write mem : Bool) (page off : Nat) :
    SameLocks s (s.deny m write mem page off) := by simp [State.deny, Reg.accessDenied]

/-! ### Machine.Streams -/

@[simp] theorem State.countLink_sameLocks (s : State) (n : Nat) (f : Link → Link) :
    SameLocks s (s.countLink n f) := by simp [State.countLink]

@[simp] theorem State.sentRx_sameLocks (s : State) (n flits : Nat) : SameLocks s (s.sentRx n flits) := by
  simp [State.sentRx]

@[simp] theorem State.sentTx_sameLocks (s : State) (n flits : Nat) : SameLocks s (s.sentTx n flits) := by
  simp [State.sentTx]

@[simp] theorem State.putLink_sameLocks (s : State) (n : Nat) (fs : List Flit) : SameLocks s (s.putLink n fs) := by
  simp [State.putLink]

@[simp] theorem State.peerPut_sameLocks (s : State) (chip : BitVec 13) (kind : Nat) (net : Bool) (xid : BitVec 16)
    (body : List Flit) :
    SameLocks s (s.peerPut chip kind net xid body) := by
  unfold State.peerPut
  split <;> simp

@[simp] theorem State.setLastXid_sameLocks (s : State) (k : StreamId) (x : BitVec 16) :
    SameLocks s (s.setLastXid k x) := by simp [State.setLastXid]

@[simp] theorem State.queueAck_sameLocks (s : State) (port : Nat) (k : StreamId) (x : BitVec 16) (held : Bool)
    (src dst : Nat) (route : BitVec 48) :
    SameLocks s (s.queueAck port k x held src dst route) := by simp [State.queueAck]

@[simp] theorem State.sendAck_sameLocks (s : State) (k : StreamId) (x : BitVec 16) (held : Bool) :
    SameLocks s (s.sendAck k x held) := by
  unfold State.sendAck
  split <;> simp

@[simp] theorem State.streamDone_sameLocks (s : State) (t vc : Nat) : SameLocks s (s.streamDone t vc) := by
  unfold State.streamDone
  split <;> simp

@[simp] theorem State.exchanged_sameLocks (s : State) (t vc : Nat) : SameLocks s (s.exchanged t vc) := by
  simp [State.exchanged]

@[simp] theorem State.packetGone_sameLocks (s : State) (t vc : Nat) (xid : BitVec 16) :
    SameLocks s (s.packetGone t vc xid) := by
  unfold State.packetGone
  split <;> simp

/-! ### Machine.Digest -/

@[simp] theorem State.digestFail_sameLocks (s : State) (k reason tile : Nat) :
    SameLocks s (s.digestFail k reason tile) := by simp [State.digestFail, Reg.digestRecordsFailed]

@[simp] theorem State.digestFailAll_sameLocks (s : State) (p : Nat → DigSlot → Bool) (reason tile : Nat) :
    SameLocks s (s.digestFailAll p reason tile) := by simp [State.digestFailAll]

@[simp] theorem State.digestKeyChange_sameLocks (s : State) : SameLocks s s.digestKeyChange := by
  simp [State.digestKeyChange]

@[simp] theorem State.digestRestore_sameLocks (s : State) : SameLocks s s.digestRestore := by
  simp [State.digestRestore]

@[simp] theorem State.digestRepose_sameLocks (s : State) : SameLocks s s.digestRepose := by simp [State.digestRepose]

@[simp] theorem State.digestRelease_sameLocks (s : State) (r : Rect) : SameLocks s (s.digestRelease r) := by
  simp [State.digestRelease]

@[simp] theorem State.digestTaint_sameLocks (s : State) (tainted : Nat → Bool) :
    SameLocks s (s.digestTaint tainted) := by
  unfold State.digestTaint
  refine foldl_sameLocks _ _ _ fun s k => ?_
  dsimp only
  split <;> simp

@[simp] theorem State.digestPosture_sameLocks (s : State) : SameLocks s s.digestPosture := by
  simp [State.digestPosture, Reg.chiselChiselCtl, Reg.containContainCtl, Reg.maqMaqCtl, Reg.patinaPatinaCtl]

@[simp] theorem State.digestOpenDo_sameLocks (s : State) (k : Nat) (first : BitVec 24) :
    SameLocks s (s.digestOpenDo k first) := by
  unfold State.digestOpenDo
  dsimp only
  (repeat' split) <;> simp

@[simp] theorem State.nodeDigest_sameLocks (s : State) (t k : Nat) : SameLocks s (s.nodeDigest t k) := by
  simp [State.nodeDigest]

@[simp] theorem State.digestCloseDo_sameLocks (s : State) (k : Nat) (last : BitVec 24) (order : Nat) :
    SameLocks s (s.digestCloseDo k last order) := by simp [State.digestCloseDo]

@[simp] theorem State.digestSettle_sameLocks (s : State) (k : Nat) : SameLocks s (s.digestSettle k) := by
  simp [State.digestSettle]

@[simp] theorem State.digestSign_sameLocks (s : State) (k : Nat) : SameLocks s (s.digestSign k) := by
  simp [State.digestSign]

@[simp] theorem State.digestReady_sameLocks (s : State) (k : Nat) (r q : BitVec 384) :
    SameLocks s (s.digestReady k r q) := by simp [State.digestReady, Reg.digestRecordsSigned]

@[simp] theorem State.raiseWset_sameLocks (s : State) (w state reason tile : Nat) :
    SameLocks s (s.raiseWset w state reason tile) := by simp [State.raiseWset]

@[simp] theorem State.wsetTo_sameLocks (s : State) (w state reason tile : Nat) :
    SameLocks s (s.wsetTo w state reason tile) := by simp [State.wsetTo]

@[simp] theorem State.wsetLost_sameLocks (s : State) (w : Nat) : SameLocks s (s.wsetLost w) := by
  simp [State.wsetLost]

@[simp] theorem State.wsetTick_sameLocks (s : State) : SameLocks s s.wsetTick := by
  refine foldl_then_sameLocks (fun s => { s with digest.setNext := [] }) (fun s w => ?_) (by simp)
  dsimp only
  (repeat' split) <;> simp

@[simp] theorem State.selTick_sameLocks (s : State) : SameLocks s s.selTick := by simp [State.selTick]

@[simp] theorem State.wsetRelease_sameLocks (s : State) (r : Rect) : SameLocks s (s.wsetRelease r) := by
  unfold State.wsetRelease
  refine foldl_sameLocks _ _ _ fun s w => ?_
  have hw : (Reg.digestWsetW0 + 16 * w) % 0x1000 ≠ 0x028 := by unfold Reg.digestWsetW0; omega
  dsimp only
  split <;> simp [hw]

@[simp] theorem State.licInstall_sameLocks (s : State) (v : Word) : SameLocks s (s.licInstall v) := by
  simp [State.licInstall]

@[simp] theorem State.licTick_sameLocks (s : State) : SameLocks s s.licTick := by simp [State.licTick]

@[simp] theorem State.licVerdict_sameLocks (s : State) (sigOk : Option Bool) : SameLocks s (s.licVerdict sigOk) := by
  simp [State.licVerdict]

/-! ### Machine.Mem -/

@[simp] theorem State.stackWrite_sameLocks (s : State) (t l b off : Nat) (bs : List Byte) :
    SameLocks s (s.stackWrite t l b off bs) := by simp [State.stackWrite]

@[simp] theorem State.setStackSeal_sameLocks (s : State) (t l b : Nat) (w : Word) :
    SameLocks s (s.setStackSeal t l b w) := by simp [State.setStackSeal]

@[simp] theorem State.sramWrite_sameLocks (s : State) (t i : Nat) (bs : List Byte) :
    SameLocks s (s.sramWrite t i bs) := by simp [State.sramWrite]

@[simp] theorem State.setSramSeal_sameLocks (s : State) (t i : Nat) (w : Word) :
    SameLocks s (s.setSramSeal t i w) := by simp [State.setSramSeal]

@[simp] theorem State.putBlock_sameLocks (s : State) (a : BlockAddr) (bs : List Byte) (w : Word) :
    SameLocks s (s.putBlock a bs w) := by
  unfold State.putBlock
  split <;> simp

@[simp] theorem State.portBytes_sameLocks (s : State) (x0 : BlockAddr) : SameLocks s (s.portBytes x0) := by
  unfold State.portBytes
  split <;> simp

@[simp] theorem State.portBlock_sameLocks (s : State) (a : BlockAddr) (bs : List Byte) (w : Word) :
    SameLocks s (s.portBlock a bs w) := by simp [State.portBlock]

@[simp] theorem State.clearSram_sameLocks (s : State) (t : Nat) : SameLocks s (s.clearSram t) := by
  simp [State.clearSram]

@[simp] theorem State.saveImage_sameLocks (s : State) (t : Nat) : SameLocks s (s.saveImage t) := by
  simp [State.saveImage]

@[simp] theorem State.restoreImage_sameLocks (s : State) (t : Nat) : SameLocks s (s.restoreImage t) := by
  simp [State.restoreImage]

@[simp] theorem State.emptySeals_sameLocks (s : State) (t : Nat) : SameLocks s (s.emptySeals t) := by
  simp [State.emptySeals]

@[simp] theorem State.marchSram_sameLocks (s : State) (t : Nat) : SameLocks s (s.marchSram t) := by
  simp [State.marchSram]

@[simp] theorem State.marchSlice_sameLocks (s : State) (t : Nat) : SameLocks s (s.marchSlice t) := by
  simp [State.marchSlice]

@[simp] theorem State.issueRefresh_sameLocks (s : State) (t : Nat) : SameLocks s (s.issueRefresh t) := by
  simp [State.issueRefresh]

@[simp] theorem State.clearBlocks_sameLocks (s : State) (t l first last : Nat) :
    SameLocks s (s.clearBlocks t l first last) := by simp [State.clearBlocks]

@[simp] theorem State.markBad_sameLocks (s : State) (t : Nat) : SameLocks s (s.markBad t) := by
  unfold State.markBad
  dsimp only
  (repeat' split) <;> simp

/-! ### Machine.Debug -/

@[simp] theorem State.ringWrite_sameLocks (s : State) (t : Nat) (r : BlkRange) (per i : Nat) (bs : List Byte) :
    SameLocks s (s.ringWrite t r per i bs) := by simp [State.ringWrite]

@[simp] theorem State.traceDropped_sameLocks (s : State) (t : Nat) : SameLocks s (s.traceDropped t) := by
  simp [State.traceDropped, Reg.traceDropped]

@[simp] theorem State.tracePut_sameLocks (s : State) (t : Nat) (bs : List Byte) : SameLocks s (s.tracePut t bs) := by
  simp [State.tracePut, Reg.traceRecords, Reg.traceStackRange, Reg.traceTraceCtl]

@[simp] theorem State.traceEmit_sameLocks (s : State) (t kind : Nat) (i : BitVec 16 × BitVec 16 × BitVec 24)
    (detail : Word) :
    SameLocks s (s.traceEmit t kind i detail) := by
  unfold State.traceEmit
  split <;> simp [Reg.traceTraceCtl]

@[simp] theorem State.traceCollect_sameLocks (s : State) : SameLocks s s.traceCollect := by
  simp [State.traceCollect, Reg.traceRecords]

@[simp] theorem State.traceUnits_sameLocks (s : State) (n : Nat) : SameLocks s (s.traceUnits n) := by
  induction n generalizing s with
  | zero => simp [State.traceUnits]
  | succ n ih => simp [State.traceUnits, ih]

@[simp] theorem State.traceThresh_sameLocks (s : State) : SameLocks s s.traceThresh := by
  simp [State.traceThresh, Reg.traceHostRd, Reg.traceThresh]

@[simp] theorem State.traceDropTick_sameLocks (s : State) : SameLocks s s.traceDropTick := by
  simp [State.traceDropTick]

@[simp] theorem State.countFall_sameLocks (s : State) (rd : Word) : SameLocks s (s.countFall rd) := by
  simp [State.countFall, Reg.countThresh]

@[simp] theorem State.traceFall_sameLocks (s : State) (rd : Word) : SameLocks s (s.traceFall rd) := by
  simp [State.traceFall, Reg.traceThresh]

@[simp] theorem State.traceDrain_sameLocks (s : State) : SameLocks s s.traceDrain := by
  simp [State.traceDrain, Reg.traceTraceCtl]

@[simp] theorem State.captureTile_sameLocks (s : State) (t : Nat) : SameLocks s (s.captureTile t) := by
  unfold State.captureTile
  dsimp only
  (repeat' split) <;> simp

@[simp] theorem State.captureReply_sameLocks (s : State) (t : Nat) : SameLocks s (s.captureReply t) := by
  simp [State.captureReply]

@[simp] theorem State.sampleAll_sameLocks (s : State) : SameLocks s s.sampleAll := by
  unfold State.sampleAll
  obtain ⟨l, hl⟩ := exists_eq_allTiles
  rw [hl]
  simp

@[simp] theorem State.counterReply_sameLocks (s : State) (old : Bool) (t : Nat) :
    SameLocks s (s.counterReply old t) := by simp [State.counterReply]

@[simp] theorem State.sampleStack_sameLocks (s : State) (x : Sample) : SameLocks s (s.sampleStack x) := by
  simp [State.sampleStack, Reg.countCountCtl, Reg.countStackRange]

@[simp] theorem State.countThresh_sameLocks (s : State) : SameLocks s s.countThresh := by
  simp [State.countThresh, Reg.countHostRd, Reg.countThresh]

@[simp] theorem State.sampleHost_sameLocks (s : State) (x : Sample) (late : List Nat) :
    SameLocks s (s.sampleHost x late) := by
  simp [State.sampleHost, Reg.countCountCtl, Reg.countHostBase, Reg.countHostRd, Reg.countHostSets,
    Reg.countSetsDropped]

@[simp] theorem State.sampleBuild_sameLocks (s : State) (late : List Nat) : SameLocks s (s.sampleBuild late) := by
  simp [State.sampleBuild, Reg.countRecordsLate]

@[simp] theorem State.stepDone_sameLocks (s : State) (t : Nat) : SameLocks s (s.stepDone t) := by
  simp [State.stepDone]

@[simp] theorem State.setWatch_sameLocks (s : State) (k : Nat) (v : Word × List Byte × Option Nat) :
    SameLocks s (s.setWatch k v) := by simp [State.setWatch]

@[simp] theorem State.watchCancel_sameLocks (s : State) (k : Nat) : SameLocks s (s.watchCancel k) := by
  simp [State.watchCancel]

@[simp] theorem State.watchCancelAll_sameLocks (s : State) (p : Nat → Bool) : SameLocks s (s.watchCancelAll p) := by
  simp [State.watchCancelAll]

@[simp] theorem State.readAnswer_sameLocks (s : State) (bs : List Byte) (entries : Nat) :
    SameLocks s (s.readAnswer bs entries) := by simp [State.readAnswer]

@[simp] theorem State.readRequest_sameLocks (s : State) (v : Word) : SameLocks s (s.readRequest v) := by
  simp [State.readRequest]

@[simp] theorem State.readDispatch_sameLocks (s : State) : SameLocks s s.readDispatch := by simp [State.readDispatch]

@[simp] theorem State.nodeHangRead_sameLocks (s : State) (t unit : Nat) : SameLocks s (s.nodeHangRead t unit) := by
  simp [State.nodeHangRead]

@[simp] theorem State.nodeStateRead_sameLocks (s : State) (t : Nat) : SameLocks s (s.nodeStateRead t) := by
  simp [State.nodeStateRead]

/-! ### Machine.Mirror -/

@[simp] theorem State.mirrorGap_sameLocks (s : State) (k : Nat) : SameLocks s (s.mirrorGap k) := by
  unfold State.mirrorGap
  split <;> simp

@[simp] theorem State.operandTaken_sameLocks (s : State) (k : Nat) (a : BlockAddr) (w : Word) :
    SameLocks s (s.operandTaken k a w) := by
  unfold State.operandTaken
  split <;> simp

@[simp] theorem State.mirror_sameLocks (s : State) (t : Nat) (c : Cmd) (src dst : BlockAddr) (bs : List Byte)
    (w : Word) :
    SameLocks s (s.mirror t c src dst bs w) := by simp [State.mirror]

@[simp] theorem State.mirrorRead_sameLocks (s : State) (t : Nat) (r : ReadReq) : SameLocks s (s.mirrorRead t r) := by
  unfold State.mirrorRead
  (repeat' split) <;> simp

@[simp] theorem State.noteSubscribed_sameLocks (s : State) (t : Nat) (x : Xfer) (b : BlockMove) :
    SameLocks s (s.noteSubscribed t x b) := by simp [State.noteSubscribed]

@[simp] theorem State.mirrorTaken_sameLocks (s : State) (t : Nat) (x : XferIn) (b : BlockMove) :
    SameLocks s (s.mirrorTaken t x b) := by
  unfold State.mirrorTaken
  dsimp only
  (repeat' split) <;> simp

@[simp] theorem State.mirrorLeaves_sameLocks (s : State) (src : Nat) (b : BlockMove) :
    SameLocks s (s.mirrorLeaves src b) := by simp [State.mirrorLeaves]

@[simp] theorem State.stage_sameLocks (s : State) (t : Nat) (x : Xfer) (b : BlockMove) (bs : List Byte) (w : Word) :
    SameLocks s (s.stage t x b bs w) := by simp [State.stage]

@[simp] theorem State.takeDescr_sameLocks (s : State) (t : Nat) (c : Cmd) : SameLocks s (s.takeDescr t c) := by
  simp [State.takeDescr]

@[simp] theorem State.copyDrop_sameLocks (s : State) (k : Nat) : SameLocks s (s.copyDrop k) := by
  unfold State.copyDrop
  (repeat' split) <;> simp

@[simp] theorem State.maqDiscard_sameLocks (s : State) (t : Nat) : SameLocks s (s.maqDiscard t) := by
  simp [State.maqDiscard]

/-! ### Machine.Lineage -/

@[simp] theorem State.lineage_sameLocks (s : State) (t : Nat) (f : LinOpen → LinOpen) :
    SameLocks s (s.lineage t f) := by simp [State.lineage]

@[simp] theorem State.lineageCommand_sameLocks (s : State) (t : Nat) : SameLocks s (s.lineageCommand t) := by
  unfold State.lineageCommand
  split <;> simp

@[simp] theorem State.lineageSend_sameLocks (s : State) (t : Nat) (x : Xfer) : SameLocks s (s.lineageSend t x) := by
  simp [State.lineageSend]

@[simp] theorem State.lineageServe_sameLocks (s : State) (t : Nat) (reader : Option Nat) (host : Bool)
    (chip : Option (BitVec 13)) :
    SameLocks s (s.lineageServe t reader host chip) := by simp [State.lineageServe]

@[simp] theorem State.lineageTick_sameLocks (s : State) : SameLocks s s.lineageTick := by
  simp [State.lineageTick, Reg.containContainCtl]

@[simp] theorem State.lineageReply_sameLocks (s : State) (t : Nat) (q : Option (BitVec 16 × Nat × Nat)) (b : Nat) :
    SameLocks s (s.lineageReply t q b) := by
  unfold State.lineageReply
  split <;> simp

@[simp] theorem State.lineagePage_sameLocks (s : State) (t b : Nat) (wrote : Bool) (l : LinOpen) :
    SameLocks s (s.lineagePage t b wrote l) := by simp [State.lineagePage]

@[simp] theorem State.lineageClose_sameLocks (s : State) : SameLocks s s.lineageClose := by
  unfold State.lineageClose
  obtain ⟨l, hl⟩ := exists_eq_allTiles
  rw [hl]
  simp

/-! ### Machine.Seal -/

@[simp] theorem State.consume_sameLocks (s : State) (used : Bool) : SameLocks s (s.consume used) := by
  simp [State.consume, Reg.sealInject]

theorem sealCounter_ne_lock {code k : Nat} (h : sealCounter code = some k) : k % 0x1000 ≠ 0x028 := by
  unfold sealCounter at h
  split at h <;> cases h <;> decide

@[simp] theorem State.sealEvent_sameLocks (s : State) (t unit code : Nat) (sev : Severity) (detail : Word)
    (inj : Bool) :
    SameLocks s (s.sealEvent t unit code sev detail inj) := by
  unfold State.sealEvent
  cases hc : sealCounter code with
  | none => simp
  | some k => simp [sealCounter_ne_lock hc]

@[simp] theorem State.traceEnd_sameLocks (s : State) (t how : Nat) : SameLocks s (s.traceEnd t how) := by
  unfold State.traceEnd
  split <;> simp

@[simp] theorem State.raiseFails_sameLocks (s : State) (t : Nat) (fs : List Fail) (recovered : Bool) :
    SameLocks s (s.raiseFails t fs recovered) := by simp [State.raiseFails, Reg.sealVerdictRecovered]

@[simp] theorem State.passIn_sameLocks (s : State) (t : Nat) (x : PassSt) : SameLocks s (s.passIn t x) := by
  simp [State.passIn]

@[simp] theorem State.passDone_sameLocks (s : State) (t : Nat) : SameLocks s (s.passDone t) := by
  simp [State.passDone]

@[simp] theorem State.dropPass_sameLocks (s : State) (t : Nat) : SameLocks s (s.dropPass t) := by
  unfold State.dropPass
  split <;> simp

@[simp] theorem State.stopPass_sameLocks (s : State) (t : Nat) : SameLocks s (s.stopPass t) := by
  simp [State.stopPass]

@[simp] theorem State.halt_sameLocks (s : State) (t : Nat) (isSeal : Bool) : SameLocks s (s.halt t isSeal) := by
  simp [State.halt]

@[simp] theorem State.askerRing_sameLocks (s : State) (q : StackReq) (k : HangKind) (cause : Nat) :
    SameLocks s (s.askerRing q k cause) := by simp [State.askerRing]

@[simp] theorem State.turnAway_sameLocks (s : State) (g : Gate) (q : StackReq) : SameLocks s (s.turnAway g q) := by
  unfold State.turnAway
  cases g <;> simp [Reg.mapAbsorbed, Reg.powerReposeUr, Reg.castHostWritesHeld]

@[simp] theorem State.atBlock_sameLocks (s : State) (t : Nat) (addr : BlockAddr) (write : Bool) (job : StackJob)
    (go : State → State) (hgo : ∀ s, SameLocks s (go s)) :
    SameLocks s (s.atBlock t addr write job go) := by
  unfold State.atBlock
  (repeat' split) <;> simp [hgo]

@[simp] theorem State.eccCorr_sameLocks (s : State) (t n : Nat) : SameLocks s (s.eccCorr t n) := by
  simp [State.eccCorr]

@[simp] theorem State.eccUncorr_sameLocks (s : State) (t : Nat) : SameLocks s (s.eccUncorr t) := by
  simp [State.eccUncorr]

@[simp] theorem State.sliceCorrected_sameLocks (s : State) (t l n : Nat) : SameLocks s (s.sliceCorrected t l n) := by
  simp [State.sliceCorrected]

@[simp] theorem State.sliceUncorr_sameLocks (s : State) (t l b codeword : Nat) (patrol : Bool)
    (c : Option (BitVec 16 × BitVec 16 × BitVec 24)) :
    SameLocks s (s.sliceUncorr t l b codeword patrol c) := by simp [State.sliceUncorr]

@[simp] theorem State.sramEcc_sameLocks (s : State) (t : Nat) (x0 : EccFinding) : SameLocks s (s.sramEcc t x0) := by
  unfold State.sramEcc
  split <;> simp

@[simp] theorem State.sliceEcc_sameLocks (s : State) (t l b : Nat) (e : EccFinding)
    (ids : Option (BitVec 16 × BitVec 16 × BitVec 24)) :
    SameLocks s (s.sliceEcc t l b e ids) := by
  unfold State.sliceEcc
  dsimp only
  split <;> simp

@[simp] theorem State.blockRead_sameLocks (s : State) (t : Nat) (a : BlockAddr) (e : EccFinding) :
    SameLocks s (s.blockRead t a e) := by
  unfold State.blockRead
  (repeat' split) <;> simp

@[simp] theorem State.accept_sameLocks (s : State) (t : Nat) : SameLocks s (s.accept t) := by simp [State.accept]

@[simp] theorem State.refuseInvalid_sameLocks (s : State) (t unit reason : Nat) (w : Word) :
    SameLocks s (s.refuseInvalid t unit reason w) := by simp [State.refuseInvalid]

@[simp] theorem State.refuseStale_sameLocks (s : State) (t unit gen : Nat) (w : Word) :
    SameLocks s (s.refuseStale t unit gen w) := by simp [State.refuseStale]

@[simp] theorem State.readFail_sameLocks (s : State) (t unit : Nat) (w : Word) (x : Nat) (inj : Bool) :
    SameLocks s (s.readFail t unit w x inj) := by simp [State.readFail]

@[simp] theorem State.readRetry_sameLocks (s : State) (t unit : Nat) (w : Word) (x : Nat) (inj : Bool) :
    SameLocks s (s.readRetry t unit w x inj) := by simp [State.readRetry]

@[simp] theorem State.resealBlock_sameLocks (s : State) (t : Nat) (r : ReadReq) :
    SameLocks s (s.resealBlock t r) := by simp [State.resealBlock]

@[simp] theorem State.refuseRead_sameLocks (s : State) (t : Nat) (r : ReadReq) (c : Check) (inj : Bool) :
    SameLocks s (s.refuseRead t r c inj) := by
  unfold State.refuseRead
  (repeat' split) <;> simp

@[simp] theorem State.firstRead_sameLocks (s : State) (t : Nat) (r : ReadReq) : SameLocks s (s.firstRead t r) := by
  unfold State.firstRead
  dsimp only
  (repeat' split) <;> simp

@[simp] theorem State.verifyRead_sameLocks (s : State) (t : Nat) (r : ReadReq) : SameLocks s (s.verifyRead t r) := by
  simp [State.verifyRead]

@[simp] theorem State.readAgain_sameLocks (s : State) (t : Nat) (r : ReadReq) (first : Nat) (inj : Option Nat) :
    SameLocks s (s.readAgain t r first inj).1 := by
  unfold State.readAgain
  dsimp only
  (repeat' split) <;> simp

@[simp] theorem State.nextRead_sameLocks (s : State) (t : Nat) (r : ReadReq) : SameLocks s (s.nextRead t r) := by
  unfold State.nextRead
  dsimp only
  (repeat' split) <;> simp

@[simp] theorem State.secondRead_sameLocks (s : State) (t : Nat) (r : ReadReq) : SameLocks s (s.secondRead t r) := by
  simp [State.secondRead]

@[simp] theorem State.readVerified_sameLocks (s : State) (t : Nat) (r : ReadReq) (again : Finding) :
    SameLocks s (s.readVerified t r again).1 := by
  unfold State.readVerified
  dsimp only
  (repeat' split) <;> simp

@[simp] theorem State.writeBlock_sameLocks (s : State) (t : Nat) (a : BlockAddr) (bs : List Byte) (w : Word) :
    SameLocks s (s.writeBlock t a bs w) := by
  unfold State.writeBlock
  split <;> simp

@[simp] theorem State.writeElems_sameLocks (s : State) (t : Nat) (p : PartialWrite) :
    SameLocks s (s.writeElems t p) := by simp [State.writeElems]

@[simp] theorem State.changeBlock_sameLocks (s : State) (t : Nat) (p : PartialWrite) :
    SameLocks s (s.changeBlock t p) := by simp [State.changeBlock]

@[simp] theorem State.partialWrite_sameLocks (s : State) (t : Nat) (p : PartialWrite) :
    SameLocks s (s.partialWrite t p) := by simp [State.partialWrite]

/-! ### Machine.Post -/

@[simp] theorem State.writeRecord_sameLocks (s : State) (r : EvRec) : SameLocks s (s.writeRecord r) := by
  simp [State.writeRecord, Reg.evtLost, Reg.evtLostSerious]

@[simp] theorem State.clearLost_sameLocks (s : State) : SameLocks s s.clearLost := by simp [State.clearLost]

@[simp] theorem State.hostCopy_sameLocks (s : State) (n : Nat) : SameLocks s (s.hostCopy n) := by
  induction n generalizing s with
  | zero => simp [State.hostCopy]
  | succ n ih =>
    unfold State.hostCopy
    dsimp only
    (repeat' split) <;> simp [ih]

@[simp] theorem State.hostCopyAll_sameLocks (s : State) : SameLocks s s.hostCopyAll := by simp [State.hostCopyAll]

@[simp] theorem State.sendVector_sameLocks (s : State) (v : Nat) : SameLocks s (s.sendVector v) := by
  simp [State.sendVector]

@[simp] theorem State.sendVectors_sameLocks (s : State) (vs : List Nat) : SameLocks s (s.sendVectors vs) := by
  simp [State.sendVectors]

@[simp] theorem State.unmask_sameLocks (s : State) (v : Nat) : SameLocks s (s.unmask v) := by simp [State.unmask]

@[simp] theorem State.closeCounts_sameLocks (s : State) : SameLocks s s.closeCounts := by simp [State.closeCounts]

@[simp] theorem State.postEntry_sameLocks (s : State) (o : OrderRec) (st : Status) :
    SameLocks s (s.postEntry o st) := by
  unfold State.postEntry
  split <;> simp

@[simp] theorem State.postOrder_sameLocks (s : State) (o : OrderRec) : SameLocks s (s.postOrder o).1 := by
  unfold State.postOrder
  (repeat' split) <;> simp

@[simp] theorem State.postOrders_sameLocks (s : State) : SameLocks s s.postOrders.1 := by simp [State.postOrders]

@[simp] theorem State.writeRecords_sameLocks (s : State) (rs : List EvRec) : SameLocks s (s.writeRecords rs).1 := by
  simp [State.writeRecords]

@[simp] theorem State.freezeEnd_sameLocks (s : State) (t : Nat) : SameLocks s (s.freezeEnd t) := by
  unfold State.freezeEnd
  split <;> simp

@[simp] theorem State.eventsIn_sameLocks (s : State) : SameLocks s s.eventsIn := by simp [State.eventsIn]

/-! ### Machine.Arm -/

@[simp] theorem State.raiseEndpoint_sameLocks (s : State) (at_ code : Nat) (sev : Severity) (detail : Word) :
    SameLocks s (s.raiseEndpoint at_ code sev detail) := by simp [State.raiseEndpoint]

@[simp] theorem State.crcDiscard_sameLocks (s : State) (at_ src : Nat) (xid : BitVec 16) :
    SameLocks s (s.crcDiscard at_ src xid) := by simp [State.crcDiscard, Reg.armCrcDiscards]

@[simp] theorem State.routeDiscard_sameLocks (s : State) (at_ link kind src : Nat) :
    SameLocks s (s.routeDiscard at_ link kind src) := by simp [State.routeDiscard]

@[simp] theorem State.armLate_sameLocks (s : State) (delay op vc net dst : Nat) :
    SameLocks s (s.armLate delay op vc net dst) := by simp [State.armLate]

@[simp] theorem State.leaveInbox_sameLocks (s : State) (k : StreamId) : SameLocks s (s.leaveInbox k) := by
  unfold State.leaveInbox
  split <;> simp

@[simp] theorem State.mapSent_sameLocks (s : State) (f : Outgoing → Outgoing) : SameLocks s (s.mapSent f) := by
  simp [State.mapSent]

@[simp] theorem State.takeAck_sameLocks (s : State) (node vc : Nat) (xid : BitVec 16) :
    SameLocks s (s.takeAck node vc xid).1 := by
  unfold State.takeAck
  dsimp only
  (repeat' split) <;> simp

@[simp] theorem State.acceptCopy_sameLocks (s : State) (node vc : Nat) (op : Nat) (xid : BitVec 16) :
    SameLocks s (s.acceptCopy node vc op xid) := by
  unfold State.acceptCopy
  dsimp only
  (repeat' split) <;> simp

@[simp] theorem State.takeAckHeld_sameLocks (s : State) (node vc : Nat) (xid : BitVec 16) :
    SameLocks s (s.takeAckHeld node vc xid) := by simp [State.takeAckHeld]

@[simp] theorem State.unreachNode_sameLocks (s : State) (node : Nat) : SameLocks s (s.unreachNode node) := by
  simp [State.unreachNode]

@[simp] theorem State.resendNode_sameLocks (s : State) (node vc : Nat) : SameLocks s (s.resendNode node vc) := by
  unfold State.resendNode
  split <;> simp [Reg.armResends]

@[simp] theorem State.streamAck_sameLocks (s : State) (t vc : Nat) (xid : BitVec 16) (held : Bool) :
    SameLocks s (s.streamAck t vc xid held) := by
  unfold State.streamAck
  split <;> simp

@[simp] theorem State.resendStream_sameLocks (s : State) (t vc : Nat) : SameLocks s (s.resendStream t vc) := by
  unfold State.resendStream
  split <;> simp [Reg.armResends]

@[simp] theorem State.raiseAlt_sameLocks (s : State) (k : Nat) (alt : Bool) : SameLocks s (s.raiseAlt k alt) := by
  simp [State.raiseAlt]

@[simp] theorem State.mirrorClear_sameLocks (s : State) : SameLocks s s.mirrorClear := by simp [State.mirrorClear]

@[simp] theorem State.raiseMirror_sameLocks (s : State) (state reason : Nat) (chip : BitVec 13) :
    SameLocks s (s.raiseMirror state reason chip) := by simp [State.raiseMirror]

@[simp] theorem State.mirrorDrop_sameLocks (s : State) (why : MirrorReason) : SameLocks s (s.mirrorDrop why) := by
  unfold State.mirrorDrop
  split <;> simp

@[simp] theorem State.unreachPeer_sameLocks (s : State) (chip : BitVec 13) : SameLocks s (s.unreachPeer chip) := by
  simp [State.unreachPeer]

@[simp] theorem State.routeFail_sameLocks (s : State) (k : Nat) : SameLocks s (s.routeFail k) := by
  simp [State.routeFail]

@[simp] theorem State.routesLose_sameLocks (s : State) (n : Nat) : SameLocks s (s.routesLose n) := by
  simp [State.routesLose]

@[simp] theorem State.routesTick_sameLocks (s old : State) : SameLocks s (s.routesTick old) := by
  simp [State.routesTick]

@[simp] theorem State.routeBack_sameLocks (s : State) (k : Nat) : SameLocks s (s.routeBack k) := by
  simp [State.routeBack]

@[simp] theorem State.peerInject_sameLocks (s : State) (chip : BitVec 13) (net : Bool) (kind : Nat)
    (body : List Flit) :
    SameLocks s (s.peerInject chip net kind body) := by simp [State.peerInject]

@[simp] theorem State.peerSend_sameLocks (s : State) (chip : BitVec 13) (net : Bool) (kind : Nat) (body : List Flit) :
    SameLocks s (s.peerSend chip net kind body) := by simp [State.peerSend]

@[simp] theorem State.mirrorPump_sameLocks (s : State) : SameLocks s s.mirrorPump := by
  unfold State.mirrorPump
  split <;> simp

@[simp] theorem State.mirrorQueue_sameLocks (s : State) (chip : BitVec 13) (tile : Nat) (blocks : List (List Byte)) :
    SameLocks s (s.mirrorQueue chip tile blocks) := by simp [State.mirrorQueue]

@[simp] theorem State.mirrorStep_sameLocks (s : State) : SameLocks s s.mirrorStep := by
  unfold State.mirrorStep
  split <;> simp [Reg.castMirrorBytes]

@[simp] theorem State.peerAck_sameLocks (s : State) (chip : BitVec 13) (net : Bool) (xid : BitVec 16) :
    SameLocks s (s.peerAck chip net xid) := by
  unfold State.peerAck
  dsimp only
  (repeat' split) <;> simp

@[simp] theorem State.resendPeer_sameLocks (s : State) (k : StreamId) : SameLocks s (s.resendPeer k) := by
  unfold State.resendPeer
  dsimp only
  (repeat' split) <;> simp [Reg.armResends]

@[simp] theorem State.forwardOn_sameLocks (s : State) (n : Nat) (out : List Flit) :
    SameLocks s (s.forwardOn n out) := by simp [State.forwardOn]

@[simp] theorem State.sentinelArrive_sameLocks (s : State) (link : Nat) (flits : List Flit) :
    SameLocks s (s.sentinelArrive link flits).1 := by
  unfold State.sentinelArrive
  dsimp only
  (repeat' split) <;> simp

/-! ### Machine.Collect -/

@[simp] theorem State.dropWaiting_sameLocks (s : State) (t channel out : Nat) :
    SameLocks s (s.dropWaiting t channel out) := by simp [State.dropWaiting]

@[simp] theorem State.reduce_sameLocks (s : State) (t channel out : Nat) : SameLocks s (s.reduce t channel out) := by
  unfold State.reduce
  split <;> simp

@[simp] theorem State.collect_sameLocks (s : State) (t : Nat) (b : BlockMove) : SameLocks s (s.collect t b) := by
  unfold State.collect
  split <;> simp

/-! ### Machine.Pass -/

@[simp] theorem State.sramCopy_sameLocks (s : State) (t : Nat) (outIndex : Nat) (h : Held) :
    SameLocks s (s.sramCopy t outIndex h) := by simp [State.sramCopy]

@[simp] theorem State.countPass_sameLocks (s : State) (t : Nat) (p : PassSt) : SameLocks s (s.countPass t p) := by
  simp [State.countPass]

@[simp] theorem State.passFailed_sameLocks (s : State) (t : Nat) (fs : List Fail) :
    SameLocks s (s.passFailed t fs) := by simp [State.passFailed]

@[simp] theorem State.passEnds_sameLocks (s : State) (t : Nat) (p : PassSt) : SameLocks s (s.passEnds t p) := by
  simp [State.passEnds]

@[simp] theorem State.specialHalt_sameLocks (s : State) (t : Nat) (p : PassDesc) (k : Nat) :
    SameLocks s (s.specialHalt t p k) := by simp [State.specialHalt]

@[simp] theorem State.specialInfo_sameLocks (s : State) (t : Nat) (p : PassDesc) (k : Nat) :
    SameLocks s (s.specialInfo t p k) := by simp [State.specialInfo]

@[simp] theorem State.passEnter_sameLocks (s : State) (t : Nat) (p : PassDesc) (entry : List EntryFault)
    (x : PassSt) :
    SameLocks s (s.passEnter t p entry x) := by
  unfold State.passEnter
  split <;> simp

@[simp] theorem State.passStart_sameLocks (s : State) (t : Nat) (p : PassDesc) (entry : List EntryFault) :
    SameLocks s (s.passStart t p entry) := by
  unfold State.passStart
  dsimp only
  (repeat' split) <;> simp [Reg.sealSealCtl, Reg.sealSpecialPasses]

@[simp] theorem State.stagingPut_sameLocks (s : State) (t : Nat) (h : Held) : SameLocks s (s.stagingPut t h) := by
  simp [State.stagingPut]

@[simp] theorem State.drainNext_sameLocks (s : State) (t : Nat) (f : DrainFaults) :
    SameLocks s (s.drainNext t f) := by
  unfold State.drainNext
  split <;> simp

@[simp] theorem State.rereadAll_sameLocks (s : State) (t : Nat) (rs : List ReadReq) (fs : List (Finding × Finding)) :
    SameLocks s (s.rereadAll t rs fs).1 := by
  induction rs generalizing s fs with
  | nil => simp [State.rereadAll]
  | cons r rs ih =>
    unfold State.rereadAll
    dsimp only
    split <;> simp [ih]

@[simp] theorem State.rerunDrains_sameLocks (s : State) (t : Nat) (p x : PassSt) (fs : List DrainFaults) :
    SameLocks s (s.rerunDrains t p x fs) := by simp [State.rerunDrains]

@[simp] theorem State.rerunRun_sameLocks (s : State) (t : Nat) (p : PassSt) (entry : List EntryFault)
    (fs : List DrainFaults) :
    SameLocks s (s.rerunRun t p entry fs) := by
  unfold State.rerunRun
  split <;> simp [Reg.sealSpecialPasses]

@[simp] theorem State.rereadOperands_sameLocks (s : State) (t : Nat) (rs : List ReadReq)
    (reads : List (Finding × Finding)) :
    SameLocks s (s.rereadOperands t rs reads).1 := by
  unfold State.rereadOperands
  split <;> simp

@[simp] theorem State.passRerun_sameLocks (s : State) (t : Nat) (reads : List (Finding × Finding))
    (entry : List EntryFault) (fs : List DrainFaults) :
    SameLocks s (s.passRerun t reads entry fs) := by
  unfold State.passRerun
  split <;> simp

@[simp] theorem State.canonSum_sameLocks (s : State) (t : Nat) (c : CanonSum) (f : DrainFaults) :
    SameLocks s (s.canonSum t c f) := by simp [State.canonSum]

@[simp] theorem State.blockVerdict_sameLocks (s : State) (t : Nat) (f : DrainFaults) :
    SameLocks s (s.blockVerdict t f) := by
  unfold State.blockVerdict
  (repeat' split) <;> simp

/-! ### Machine.Fabric -/

@[simp] theorem State.niRing_sameLocks (s : State) (t : Nat) (k : HangKind) (cause : Nat) :
    SameLocks s (s.niRing t k cause) := by simp [State.niRing]

@[simp] theorem State.xferRing_sameLocks (s : State) (t : Nat) (host : Bool) (k : HangKind) :
    SameLocks s (s.xferRing t host k) := by simp [State.xferRing]

@[simp] theorem State.toHostMem_sameLocks (s : State) (x : Xfer) : SameLocks s (s.toHostMem x) := by
  simp [State.toHostMem]

@[simp] theorem State.formHeader_sameLocks (s : State) (t : Nat) (x : Xfer) (named : List Nat) :
    SameLocks s (s.formHeader t x named) := by simp [State.formHeader]

@[simp] theorem State.resolve_sameLocks (s : State) (t : Nat) (x : Xfer) : SameLocks s (s.resolve t x) := by
  simp [State.resolve]

@[simp] theorem State.placeBlock_sameLocks (s : State) (t : Nat) (dst : BlockAddr) (bs : List Byte) (w : Word) :
    SameLocks s (s.placeBlock t dst bs w) := by
  unfold State.placeBlock
  split <;> simp

@[simp] theorem State.refuseMoved_sameLocks (s : State) (t : Nat) (b : BlockMove) (w : Word) (c : Check)
    (inj : Option Nat) :
    SameLocks s (s.refuseMoved t b w c inj) := by
  unfold State.refuseMoved
  split <;> simp

@[simp] theorem State.storeBlock_sameLocks (s : State) (t : Nat) (b : BlockMove) (gen : BitVec 8) :
    SameLocks s (s.storeBlock t b gen) := by simp [State.storeBlock]

@[simp] theorem State.ackFenced_sameLocks (s : State) (x : XferIn) (gen : BitVec 16) :
    SameLocks s (s.ackFenced x gen) := by simp [State.ackFenced]

@[simp] theorem State.placeMoved_sameLocks (s : State) (t : Nat) (x : XferIn) (b : BlockMove) (p : List Byte × Word) :
    SameLocks s (s.placeMoved t x b p) := by simp [State.placeMoved]

@[simp] theorem State.secondSending_sameLocks (s : State) (t : Nat) (x : XferIn) (b : BlockMove) (first : Nat)
    (inj : Option Nat) :
    SameLocks s (s.secondSending t x b first inj) := by
  unfold State.secondSending
  dsimp only
  (repeat' split) <;> simp

@[simp] theorem State.askSending_sameLocks (s : State) (t : Nat) (x : XferIn) (b : BlockMove) (first : Nat)
    (inj : Option Nat) :
    SameLocks s (s.askSending t x b first inj) := by
  unfold State.askSending
  (repeat' split) <;> simp

@[simp] theorem State.receiveBlock_sameLocks (s : State) (t : Nat) (x : XferIn) (b : BlockMove) :
    SameLocks s (s.receiveBlock t x b) := by
  unfold State.receiveBlock
  dsimp only
  (repeat' split) <;> simp

@[simp] theorem State.takeBlock_sameLocks (s : State) (t : Nat) (x : XferIn) (b : BlockMove) :
    SameLocks s (s.takeBlock t x b) := by
  unfold State.takeBlock
  split <;> simp

@[simp] theorem State.receive_sameLocks (s : State) (t : Nat) (x : XferIn) : SameLocks s (s.receive t x) := by
  unfold State.receive
  split <;> simp [Reg.mapAbsorbed, Reg.maqMirrorBytes]

@[simp] theorem State.fencedAck_sameLocks (s : State) (t id l : Nat) (gen : BitVec 16) :
    SameLocks s (s.fencedAck t id l gen) := by
  unfold State.fencedAck
  dsimp only
  (repeat' split) <;> simp

@[simp] theorem State.resolveAgain_sameLocks (s : State) (t : Nat) : SameLocks s (s.resolveAgain t) := by
  simp [State.resolveAgain, Reg.mapResolvedAgain]

@[simp] theorem State.xferDone_sameLocks (s : State) (t id : Nat) : SameLocks s (s.xferDone t id) := by
  simp [State.xferDone]

@[simp] theorem State.blockRelease_sameLocks (s : State) (t : Nat) (x : Xfer) : SameLocks s (s.blockRelease t x) := by
  unfold State.blockRelease
  dsimp only
  (repeat' split) <;> simp

@[simp] theorem State.sendAll_sameLocks (s : State) (t : Nat) (x : Xfer) (go : State → Nat → Xfer → State)
    (hgo : ∀ s t x, SameLocks s (go s t x)) :
    SameLocks s (s.sendAll t x go) := by
  unfold State.sendAll
  split
  · simp
  · exact hgo s t x

@[simp] theorem State.sendLineage_sameLocks (s : State) (t : Nat) (b : BlockMove) :
    SameLocks s (s.sendLineage t b) := by
  unfold State.sendLineage
  split <;> simp

@[simp] theorem State.sendNow_sameLocks (s : State) (t : Nat) (x : Xfer) : SameLocks s (s.sendNow t x) := by
  simp [State.sendNow]

/-! ### Machine.NodeMap -/

@[simp] theorem State.rejected_sameLocks (s : State) (t op : Nat) : SameLocks s (s.rejected t op) := by
  simp [State.rejected]

@[simp] theorem State.fenceStop_sameLocks (s : State) (t how : Nat) : SameLocks s (s.fenceStop t how) := by
  simp [State.fenceStop]

@[simp] theorem State.fenceLift_sameLocks (s : State) (t : Nat) : SameLocks s (s.fenceLift t) := by
  simp [State.fenceLift]

@[simp] theorem State.routerSet_sameLocks (s : State) (t : Nat) (closed : Bool) (how : Nat) :
    SameLocks s (s.routerSet t closed how) := by simp [State.routerSet]

@[simp] theorem State.toNi_sameLocks (s : State) (t op : Nat) (o : BitVec 96) (gen : BitVec 16) :
    SameLocks s (s.toNi t op o gen) := by simp [State.toNi]

@[simp] theorem State.drainReply_sameLocks (s : State) (t : Nat) : SameLocks s (s.drainReply t) := by
  simp [State.drainReply]

@[simp] theorem State.nodeFence_sameLocks (s : State) (t op : Nat) (o : BitVec 96) :
    SameLocks s (s.nodeFence t op o) := by simp [State.nodeFence]

@[simp] theorem State.nodeCommit_sameLocks (s : State) (t : Nat) (o : BitVec 96) :
    SameLocks s (s.nodeCommit t o) := by simp [State.nodeCommit]

@[simp] theorem State.nodeLoad_sameLocks (s : State) (t : Nat) (o : BitVec 96) (data : List Flit) :
    SameLocks s (s.nodeLoad t o data) := by
  unfold State.nodeLoad
  split <;> simp

@[simp] theorem State.niMapApply_sameLocks (s : State) (t : Nat) : SameLocks s (s.niMapApply t) := by
  simp [State.niMapApply]

@[simp] theorem State.niApplyAll_sameLocks (s : State) (t : Nat) : SameLocks s (s.niApplyAll t) := by
  simp [State.niApplyAll]

@[simp] theorem State.mapReload_sameLocks (s : State) (t : Nat) : SameLocks s (s.mapReload t) := by
  simp [State.mapReload]

@[simp] theorem State.mapMark_sameLocks (s : State) (t kind : Nat) : SameLocks s (s.mapMark t kind) := by
  simp [State.mapMark]

@[simp] theorem State.dropPending_sameLocks (s : State) (t : Nat) : SameLocks s (s.dropPending t) := by
  simp [State.dropPending]

@[simp] theorem State.fenceSend_sameLocks (s : State) (q : FenceReq) (set : Bool) (order : Option Nat) :
    SameLocks s (s.fenceSend q set order) := by simp [State.fenceSend, Reg.mapFences]

@[simp] theorem State.commitSend_sameLocks (s : State) (l t : Nat) (clearHold : Bool) :
    SameLocks s (s.commitSend l t clearHold) := by simp [State.commitSend]

@[simp] theorem State.fenceDone_sameLocks (s : State) (o : Outgoing) : SameLocks s (s.fenceDone o) := by
  simp [State.fenceDone]

@[simp] theorem State.unfenceDone_sameLocks (s : State) (o : Outgoing) (clear : Bool) :
    SameLocks s (s.unfenceDone o clear) := by simp [State.unfenceDone]

/-! ### Machine.Contain -/

@[simp] theorem State.raiseDetection_sameLocks (s : State) (d : Detection) (code : Nat) (detail : Word) :
    SameLocks s (s.raiseDetection d code detail) := by simp [State.raiseDetection]

@[simp] theorem State.detect_sameLocks (s : State) (d : Detection) : SameLocks s (s.detect d) := by
  unfold State.detect
  dsimp only
  (repeat' split) <;> simp [Reg.containDetections, Reg.containOverflows]

@[simp] theorem State.taintStart_sameLocks (s : State) : SameLocks s s.taintStart := by
  unfold State.taintStart
  split <;> simp

@[simp] theorem State.nodeQuery_sameLocks (s : State) (t : Nat) (o : BitVec 96) : SameLocks s (s.nodeQuery t o) := by
  simp [State.nodeQuery]

@[simp] theorem State.taintClose_sameLocks (s : State) : SameLocks s s.taintClose := by
  unfold State.taintClose
  split <;> simp

@[simp] theorem State.taintPublish_sameLocks (s : State) : SameLocks s s.taintPublish := by
  unfold State.taintPublish
  split <;> simp [Reg.containExceeded]

@[simp] theorem State.reportAck_sameLocks (s : State) (v : Word) : SameLocks s (s.reportAck v) := by
  unfold State.reportAck
  split <;> simp

/-! ### Machine.Maq -/

@[simp] theorem State.hostUpdate_sameLocks (s : State) : SameLocks s s.hostUpdate := by
  unfold State.hostUpdate
  obtain ⟨l, hl⟩ := exists_eq_allTiles
  rw [hl]
  simp

@[simp] theorem State.maqTally_sameLocks (s : State) (t lo : Nat) : SameLocks s (s.maqTally t lo) := by
  simp [State.maqTally]

@[simp] theorem State.newDue_sameLocks (s : State) (t : Nat) : SameLocks s (s.newDue t) := by
  simp [State.newDue, Reg.maqMissed]

@[simp] theorem State.maqCount_sameLocks (s : State) (t : Nat) : SameLocks s (s.maqCount t) := by
  simp [State.maqCount, Reg.maqSeed]

@[simp] theorem State.maqSend_sameLocks (s : State) (func slot host logical src exp : Nat) (dests : BitVec 1152)
    (order : Option Nat) :
    SameLocks s (s.maqSend func slot host logical src exp dests order) := by simp [State.maqSend]

@[simp] theorem State.maqEnd_sameLocks (s : State) (k : Nat) (o : MaqOut) : SameLocks s (s.maqEnd k o) := by
  unfold State.maqEnd
  (repeat' split) <;> simp [Reg.maqAbandoned, Reg.maqAgreed, Reg.maqMissed]

@[simp] theorem State.maqSample_sameLocks (s : State) (t : Nat) (c : Cmd) : SameLocks s (s.maqSample t c) := by
  unfold State.maqSample
  dsimp only
  (repeat' split) <;> simp [Reg.maqSampled]

@[simp] theorem State.maqBegin_sameLocks (s : State) (t : Nat) (c : Cmd) : SameLocks s (s.maqBegin t c) := by
  simp [State.maqBegin]

@[simp] theorem State.eachSession_sameLocks (s : State) (f : State → Nat → Session → State)
    (hf : ∀ s k x, SameLocks s (f s k x)) :
    SameLocks s (s.eachSession f) := by
  unfold State.eachSession
  refine foldl_sameLocks _ _ _ fun s k => ?_
  split
  · exact hf s k _
  · simp

@[simp] theorem State.maqAssign_sameLocks (s : State) (t : Nat) : SameLocks s (s.maqAssign t) := by
  unfold State.maqAssign
  (repeat' split) <;> simp

@[simp] theorem State.maqAssignAll_sameLocks (s : State) : SameLocks s s.maqAssignAll := by
  simp [State.maqAssignAll, Reg.maqMaqCtl]

@[simp] theorem State.armFailed_sameLocks (s : State) (k reason : Nat) : SameLocks s (s.armFailed k reason) := by
  unfold State.armFailed
  split <;> simp

@[simp] theorem State.maqReissue_sameLocks (s : State) (t k func : Nat) : SameLocks s (s.maqReissue t k func) := by
  unfold State.maqReissue
  split <;> simp

@[simp] theorem State.refereeArm_sameLocks (s : State) (t k : Nat) (src : Nat) :
    SameLocks s (s.refereeArm t k src) := by
  unfold State.refereeArm
  split <;> simp [Reg.maqMirrorBytes]

@[simp] theorem State.nodeMaq_sameLocks (s : State) (t func : Nat) (mapgen : BitVec 16) (o : BitVec 96) :
    SameLocks s (s.nodeMaq t func mapgen o) := by
  unfold State.nodeMaq
  split <;> simp

@[simp] theorem State.maqReport_sameLocks (s : State) (k : Nat) (x : Session) (out reason : Nat) :
    SameLocks s (s.maqReport k x out reason) := by simp [State.maqReport]

@[simp] theorem State.maqCompare_sameLocks (s : State) (k : Nat) : SameLocks s (s.maqCompare k) := by
  unfold State.maqCompare
  (repeat' split) <;> simp

@[simp] theorem State.maqOutcome_sameLocks (s : State) (t : Nat) (sm : Summary) :
    SameLocks s (s.maqOutcome t sm) := by
  unfold State.maqOutcome
  (repeat' split) <;> simp [Reg.maqDisagreed]

@[simp] theorem State.maqDeadline_sameLocks (s : State) (k : Nat) : SameLocks s (s.maqDeadline k) := by
  unfold State.maqDeadline
  split <;> simp

@[simp] theorem State.maqArmTimeout_sameLocks (s : State) (k : Nat) : SameLocks s (s.maqArmTimeout k) := by
  unfold State.maqArmTimeout
  split <;> simp

@[simp] theorem State.maqCharge_sameLocks (s : State) (t unit b0 : Nat) (cmd : Option Cmd) :
    SameLocks s (s.maqCharge t unit b0 cmd) := by simp [State.maqCharge]

@[simp] theorem State.maqArbitrate_sameLocks (s : State) (k : Nat) (ref : Option MaqRecord) :
    SameLocks s (s.maqArbitrate k ref) := by
  unfold State.maqArbitrate
  split <;> simp [Reg.maqUnresolved]

@[simp] theorem State.maqClose_sameLocks (s : State) : SameLocks s s.maqClose := by
  unfold State.maqClose
  dsimp only
  refine .trans (b := s.eachSession _) (s.eachSession_sameLocks _ fun s k x => ?_)
    (State.eachSession_sameLocks _ _ fun s k x => ?_)
  · (repeat' split) <;> simp
  · cases x.referee <;> split <;> simp

@[simp] theorem State.maqReferee_sameLocks (s : State) (k : Nat) : SameLocks s (s.maqReferee k) := by
  unfold State.maqReferee
  (repeat' split) <;> simp [Reg.maqMaqCtl]

@[simp] theorem State.maqArbitration_sameLocks (s : State) (k : Nat) : SameLocks s (s.maqArbitration k) := by
  unfold State.maqArbitration
  (repeat' split) <;> simp [Reg.maqMaqCtl]

@[simp] theorem State.maqFenced_sameLocks (s : State) (t : Nat) : SameLocks s (s.maqFenced t) := by
  simp [State.maqFenced]

@[simp] theorem State.maqPromoted_sameLocks (s : State) (t : Nat) : SameLocks s (s.maqPromoted t) := by
  simp [State.maqPromoted]

@[simp] theorem State.maqEndAll_sameLocks (s : State) (reason : Nat) : SameLocks s (s.maqEndAll reason) := by
  simp [State.maqEndAll]

@[simp] theorem State.maqSourceHalt_sameLocks (s : State) (t : Nat) : SameLocks s (s.maqSourceHalt t) := by
  simp [State.maqSourceHalt]

@[simp] theorem State.maqReleased_sameLocks (s : State) (t : Nat) : SameLocks s (s.maqReleased t) := by
  simp [State.maqReleased]

@[simp] theorem State.maqAcked_sameLocks (s : State) (o : BitVec 96) : SameLocks s (s.maqAcked o) := by
  unfold State.maqAcked
  dsimp only
  (repeat' split) <;> simp

@[simp] theorem State.maqSourceEnd_sameLocks (s : State) (t : Nat) (c : Cmd) (outs : List OutBlock) :
    SameLocks s (s.maqSourceEnd t c outs) := by
  unfold State.maqSourceEnd
  dsimp only
  (repeat' split) <;> simp

@[simp] theorem State.hostBegin_sameLocks (s : State) (t : Nat) (c : Cmd) : SameLocks s (s.hostBegin t c) := by
  unfold State.hostBegin
  dsimp only
  (repeat' split) <;> simp [Reg.maqRefereeRuns]

@[simp] theorem State.hostEnd_sameLocks (s : State) (t : Nat) (outs : List OutBlock) :
    SameLocks s (s.hostEnd t outs) := by
  unfold State.hostEnd
  dsimp only
  (repeat' split) <;> simp

/-! ### Machine.Nvme -/

@[simp] theorem State.nvmeCmd_sameLocks (s : State) (c : NvmeCmd) : SameLocks s (s.nvmeCmd c) := by
  simp [State.nvmeCmd]

@[simp] theorem State.nvmeRun_sameLocks (s : State) (cs : List NvmeCmd) : SameLocks s (s.nvmeRun cs) := by
  simp [State.nvmeRun]

@[simp] theorem State.nvmeStart_sameLocks (s : State) : SameLocks s s.nvmeStart := by simp [State.nvmeStart]

@[simp] theorem State.drainRun_sameLocks (s : State) (cs : List NvmeCmd) : SameLocks s (s.drainRun cs) := by
  simp [State.drainRun, Reg.castBytesDrained]

@[simp] theorem State.superWrite_sameLocks (s : State) (c : SuperCopy) : SameLocks s (s.superWrite c).1 := by
  simp [State.superWrite]

/-! ### Machine.Time -/

@[simp] theorem State.ppsEdge_sameLocks (s : State) : SameLocks s s.ppsEdge := by simp [State.ppsEdge]

@[simp] theorem State.ppsLose_sameLocks (s : State) : SameLocks s s.ppsLose := by simp [State.ppsLose]

@[simp] theorem State.electSet_sameLocks (s : State) (st uplink depth : Nat) (m : Word) :
    SameLocks s (s.electSet st uplink depth m) := by simp [State.electSet]

@[simp] theorem State.raiseSkew_sameLocks (s : State) : SameLocks s s.raiseSkew := by simp [State.raiseSkew]

@[simp] theorem State.electTo_sameLocks (s : State) (st uplink depth : Nat) (m : Word) :
    SameLocks s (s.electTo st uplink depth m) := by simp [State.electTo]

@[simp] theorem State.timeSplit_sameLocks (s : State) (m : Option Word) : SameLocks s (s.timeSplit m) := by
  unfold State.timeSplit
  split <;> simp

@[simp] theorem State.elect_sameLocks (s : State) (advs : List ElectAdv) : SameLocks s (s.elect advs) := by
  unfold State.elect
  dsimp only
  (repeat' split) <;> simp [Reg.beatSyncCtl]

@[simp] theorem State.judgeSkew_sameLocks (s : State) (upMet : Bool) : SameLocks s (s.judgeSkew upMet) := by
  simp [State.judgeSkew]

@[simp] theorem State.timex_sameLocks (s : State) (x : Option TimexIn) : SameLocks s (s.timex x) := by
  unfold State.timex
  (repeat' split) <;> simp [Reg.armSentLost]

@[simp] theorem State.onePacket_sameLocks (s : State) (n kind : Nat) (net : Bool) (body : Flit) :
    SameLocks s (s.onePacket n kind net body) := by simp [State.onePacket]

@[simp] theorem State.electSend_sameLocks (s : State) : SameLocks s s.electSend := by simp [State.electSend]

@[simp] theorem State.takeAdv_sameLocks (s : State) (a : ElectAdv) : SameLocks s (s.takeAdv a) := by
  simp [State.takeAdv]

@[simp] theorem State.timexReply_sameLocks (s : State) (link : Nat) : SameLocks s (s.timexReply link) := by
  simp [State.timexReply]

@[simp] theorem State.timeMaster_sameLocks (s : State) : SameLocks s s.timeMaster := by simp [State.timeMaster]

@[simp] theorem State.domainStop_sameLocks (s : State) (d : Nat) (lastEdge : Word) :
    SameLocks s (s.domainStop d lastEdge) := by simp [State.domainStop]

@[simp] theorem State.domainGap_sameLocks (s : State) (d : Nat) : SameLocks s (s.domainGap d) := by
  simp [State.domainGap]

@[simp] theorem State.stopRegion_sameLocks (s : State) (g : Nat) : SameLocks s (s.stopRegion g) := by
  simp [State.stopRegion]

@[simp] theorem State.countCycle_sameLocks (s : State) : SameLocks s s.countCycle := by simp [State.countCycle]

@[simp] theorem State.plinthCycle_sameLocks (s : State) : SameLocks s s.plinthCycle := by simp [State.plinthCycle]

/-! ### Machine.Therm -/

@[simp] theorem State.raiseTherm_sameLocks (s : State) (sensor code : Nat) (sev : Severity) (detail : Word) :
    SameLocks s (s.raiseTherm sensor code sev detail) := by simp [State.raiseTherm]

@[simp] theorem State.bumpTherm_sameLocks (s : State) (k : Nat) (h : k % 0x1000 ≠ 0x028) :
    SameLocks s (s.bumpTherm k) := by simp [State.bumpTherm, h]

@[simp] theorem State.sensorBad_sameLocks (s : State) (n reason : Nat) (v : BitVec 16) :
    SameLocks s (s.sensorBad n reason v) := by simp [State.sensorBad, Reg.thermSensorFaults]

@[simp] theorem State.sensorRecover_sameLocks (s : State) (n : Nat) (r : Option (BitVec 16)) (before : Bool) :
    SameLocks s (s.sensorRecover n r before) := by
  unfold State.sensorRecover
  split <;> simp

@[simp] theorem State.sensorTake_sameLocks (s : State) (n : Nat) (r : Option (BitVec 16)) :
    SameLocks s (s.sensorTake n r) := by
  unfold State.sensorTake
  dsimp only
  (repeat' split) <;> simp

@[simp] theorem State.sensorSample_sameLocks (s : State) (n : Nat) (r : Option (BitVec 16)) :
    SameLocks s (s.sensorSample n r) := by simp [State.sensorSample]

@[simp] theorem State.thermWarn_sameLocks (s : State) : SameLocks s s.thermWarn := by
  unfold State.thermWarn
  refine foldl_sameLocks _ _ _ fun s g => ?_
  dsimp only
  split <;> simp [Reg.thermWarns]

@[simp] theorem State.thermReadings_sameLocks (s : State) : SameLocks s s.thermReadings := by
  simp [State.thermReadings]

@[simp] theorem State.stepEvent_sameLocks (s : State) (g old new : Nat) (c : StepCause) :
    SameLocks s (s.stepEvent g old new c) := by simp [State.stepEvent, Reg.thermStepChanges]

@[simp] theorem State.regionStep_sameLocks (s : State) (g : Nat) : SameLocks s (s.regionStep g) := by
  simp [State.regionStep, Reg.thermThermCtl]

@[simp] theorem State.regionBand_sameLocks (s : State) (g l : Nat) : SameLocks s (s.regionBand g l) := by
  simp [State.regionBand, Reg.thermBandChanges, Reg.thermThermCtl]

@[simp] theorem State.refreshBoundary_sameLocks (s : State) (g l : Nat) : SameLocks s (s.refreshBoundary g l) := by
  simp [State.refreshBoundary]

@[simp] theorem State.shutdownDecide_sameLocks (s : State) : SameLocks s s.shutdownDecide := by
  unfold State.shutdownDecide
  (repeat' split) <;> simp

@[simp] theorem State.thermDecide_sameLocks (s : State) : SameLocks s s.thermDecide := by simp [State.thermDecide]

@[simp] theorem State.raiseWindow_sameLocks (s : State) (op layer : Nat) (ended : Bool) (h : Option (Nat × Int))
    (beats : Nat) :
    SameLocks s (s.raiseWindow op layer ended h beats) := by simp [State.raiseWindow, Reg.thermWindowDefers]

/-! ### Machine.Repair -/

@[simp] theorem State.repairSave_sameLocks (s : State) (reason t : Nat) : SameLocks s (s.repairSave reason t) := by
  simp [State.repairSave]

@[simp] theorem State.recordChanged_sameLocks (s : State) (t : Nat) : SameLocks s (s.recordChanged t) := by
  simp [State.recordChanged]

@[simp] theorem State.addRepair_sameLocks (s : State) (w : Word) : SameLocks s (s.addRepair w) := by
  simp [State.addRepair]

@[simp] theorem State.recordWrite_sameLocks (s : State) (ok : Bool) : SameLocks s (s.recordWrite ok) := by
  simp [State.recordWrite]

@[simp] theorem State.clearFenceOld_sameLocks (s : State) (t : Nat) : SameLocks s (s.clearFenceOld t) := by
  simp [State.clearFenceOld]

@[simp] theorem State.applyRow_sameLocks (s : State) (w : Word) : SameLocks s (s.applyRow w) := by
  simp [State.applyRow]

@[simp] theorem State.fuseCheck_sameLocks (s : State) : SameLocks s s.fuseCheck.2 := by simp [State.fuseCheck]

@[simp] theorem State.commitEnd_sameLocks (s : State) (state : Nat) (st : Status) :
    SameLocks s (s.commitEnd state st) := by
  unfold State.commitEnd
  split <;> simp

@[simp] theorem State.commitNext_sameLocks (s : State) (id i n : Nat) : SameLocks s (s.commitNext id i n) := by
  unfold State.commitNext
  split <;> simp

@[simp] theorem State.commitStart_sameLocks (s : State) (id : Nat) : SameLocks s (s.commitStart id) := by
  simp [State.commitStart]

@[simp] theorem State.progResult_sameLocks (s : State) (v : Word) : SameLocks s (s.progResult v) := by
  unfold State.progResult
  split <;> simp

@[simp] theorem State.commitTick_sameLocks (s : State) : SameLocks s s.commitTick := by simp [State.commitTick]

/-! ### Machine.Chisel -/

@[simp] theorem State.chiselDue_sameLocks (s : State) (t : Nat) : SameLocks s (s.chiselDue t) := by
  simp [State.chiselDue]

@[simp] theorem State.chiselCall_sameLocks (s : State) (t cause : Nat) (units : BitVec 16) :
    SameLocks s (s.chiselCall t cause units) := by
  unfold State.chiselCall
  dsimp only
  (repeat' split) <;> simp

@[simp] theorem State.chiselSuspect_sameLocks (s : State) (t : Nat) : SameLocks s (s.chiselSuspect t) := by
  simp [State.chiselSuspect]

@[simp] theorem State.chiselPend_sameLocks (s : State) (t : Nat) : SameLocks s (s.chiselPend t) := by
  simp [State.chiselPend]

@[simp] theorem State.chiselForce_sameLocks (s : State) (t : Nat) : SameLocks s (s.chiselForce t) := by
  simp [State.chiselForce]

@[simp] theorem State.scanEnds_sameLocks (s : State) : SameLocks s s.scanEnds := by
  unfold State.scanEnds
  refine foldl_sameLocks _ _ _ fun s e => ?_
  split <;> simp

@[simp] theorem State.deferTick_sameLocks (s : State) : SameLocks s s.deferTick := by simp [State.deferTick]

@[simp] theorem State.voidTile_sameLocks (s : State) (t : Nat) : SameLocks s (s.voidTile t) := by
  simp [State.voidTile, Reg.chiselVoided]

@[simp] theorem State.voidRegion_sameLocks (s : State) (g : Nat) : SameLocks s (s.voidRegion g) := by
  simp [State.voidRegion]

@[simp] theorem State.windowLeft_sameLocks (s old : State) (g : Nat) : SameLocks s (s.windowLeft old g) := by
  simp [State.windowLeft]

@[simp] theorem State.windowsLeft_sameLocks (s old : State) : SameLocks s (s.windowsLeft old) := by
  simp [State.windowsLeft]

@[simp] theorem State.chiselTick_sameLocks (s old : State) : SameLocks s (s.chiselTick old) := by
  simp [State.chiselTick]

@[simp] theorem State.chiselSend_sameLocks (s : State) (op t : Nat) (o : BitVec 96) :
    SameLocks s (s.chiselSend op t o) := by simp [State.chiselSend]

@[simp] theorem State.armTile_sameLocks (s : State) (t k role other : Nat) (units segs : BitVec 16)
    (session : BitVec 32) :
    SameLocks s (s.armTile t k role other units segs session) := by simp [State.armTile]

@[simp] theorem State.armPair_sameLocks (s : State) (t : Nat) : SameLocks s (s.armPair t) := by
  unfold State.armPair
  dsimp only
  (repeat' split) <;> simp

@[simp] theorem State.armWitnessFor_sameLocks (s : State) (t g : Nat) : SameLocks s (s.armWitnessFor t g) := by
  unfold State.armWitnessFor
  (repeat' split) <;> simp

@[simp] theorem State.armWitness_sameLocks (s : State) (t : Nat) : SameLocks s (s.armWitness t) := by
  simp [State.armWitness]

@[simp] theorem State.chiselArmAll_sameLocks (s : State) : SameLocks s s.chiselArmAll := by simp [State.chiselArmAll]

@[simp] theorem State.dropSlot_sameLocks (s : State) (t : Nat) : SameLocks s (s.dropSlot t) := by
  unfold State.dropSlot
  split <;> simp

@[simp] theorem State.liftHold_sameLocks (s : State) (t : Nat) : SameLocks s (s.liftHold t) := by
  unfold State.liftHold
  split <;> simp

@[simp] theorem State.disarmOne_sameLocks (s : State) (t : Nat) : SameLocks s (s.disarmOne t) := by
  unfold State.disarmOne
  split <;> simp

@[simp] theorem State.disarm_sameLocks (s : State) (t : Nat) : SameLocks s (s.disarm t) := by
  unfold State.disarm
  dsimp only
  (repeat' split) <;> simp

@[simp] theorem State.chiselArmWait_sameLocks (s : State) (t : Nat) : SameLocks s (s.chiselArmWait t) := by
  simp [State.chiselArmWait]

@[simp] theorem State.chiselSay_sameLocks (s : State) (t rkind seg : Nat) (vals : List Word) :
    SameLocks s (s.chiselSay t rkind seg vals) := by simp [State.chiselSay]

@[simp] theorem State.chiselReady_sameLocks (s : State) (t : Nat) : SameLocks s (s.chiselReady t) := by
  simp [State.chiselReady]

@[simp] theorem State.seedSend_sameLocks (s : State) (t : Nat) : SameLocks s (s.seedSend t) := by
  unfold State.seedSend
  (repeat' split) <;> simp [Reg.chiselForcedStarts, Reg.chiselSessions, Reg.chiselWitnessRuns]

@[simp] theorem State.beginTile_sameLocks (s : State) (t : Nat) : SameLocks s (s.beginTile t) := by
  unfold State.beginTile
  split <;> simp

@[simp] theorem State.chiselStart_sameLocks (s : State) (t : Nat) : SameLocks s (s.chiselStart t) := by
  unfold State.chiselStart
  split <;> simp

@[simp] theorem State.raiseStarved_sameLocks (s : State) (t cause : Nat) : SameLocks s (s.raiseStarved t cause) := by
  simp [State.raiseStarved, Reg.chiselStarved]

@[simp] theorem State.starveRestart_sameLocks (s : State) (t : Nat) : SameLocks s (s.starveRestart t) := by
  simp [State.starveRestart]

@[simp] theorem State.chiselStarve_sameLocks (s : State) (t : Nat) : SameLocks s (s.chiselStarve t) := by
  simp [State.chiselStarve]

@[simp] theorem State.testHoldDrained_sameLocks (s : State) (t : Nat) : SameLocks s (s.testHoldDrained t) := by
  -- the definition with the list of tiles under a name, so that its fold is never evaluated
  obtain ⟨f, hf⟩ : ∃ f, f = State.testHoldDrained := ⟨_, rfl⟩
  obtain ⟨l, hl⟩ := exists_eq_allTiles
  rw [← hf]
  delta State.testHoldDrained at hf
  rw [hl] at hf
  subst hf
  dsimp only
  split <;> simp

@[simp] theorem State.voidSlices_sameLocks (s : State) : SameLocks s s.voidSlices := by simp [State.voidSlices]

@[simp] theorem State.segDecide_sameLocks (s : State) (t g : Nat) (v : SegVerdict) (bad : List Nat) :
    SameLocks s (s.segDecide t g v bad) := by simp [State.segDecide]

@[simp] theorem State.marchLeft_sameLocks (s : State) (t g : Nat) : SameLocks s (s.marchLeft t g) := by
  simp [State.marchLeft]

@[simp] theorem State.judgeStruct_sameLocks (s : State) (t g : Nat) (vs : List Word) :
    SameLocks s (s.judgeStruct t g vs) := by simp [State.judgeStruct]

@[simp] theorem State.dispute_sameLocks (s : State) (t g : Nat) : SameLocks s (s.dispute t g) := by
  simp [State.dispute]

@[simp] theorem State.judgeCross_sameLocks (s : State) (t p g : Nat) : SameLocks s (s.judgeCross t p g) := by
  simp [State.judgeCross]

@[simp] theorem State.witnessDecide_sameLocks (s : State) (t p g : Nat) (w : Option (List Word)) :
    SameLocks s (s.witnessDecide t p g w) := by simp [State.witnessDecide]

@[simp] theorem State.segStart_sameLocks (s : State) (t : Nat) (segs : BitVec 16) :
    SameLocks s (s.segStart t segs) := by simp [State.segStart]

@[simp] theorem State.takeResult_sameLocks (s : State) (t g : Nat) (vs : List Word) :
    SameLocks s (s.takeResult t g vs) := by
  unfold State.takeResult
  dsimp only
  (repeat' split) <;> simp

@[simp] theorem State.segmentResult_sameLocks (s : State) (t : Nat) (r : SegResult) :
    SameLocks s (s.segmentResult t r) := by simp [State.segmentResult]

@[simp] theorem State.witnessLate_sameLocks (s : State) (t p g : Nat) : SameLocks s (s.witnessLate t p g) := by
  unfold State.witnessLate
  dsimp only
  (repeat' split) <;> simp

@[simp] theorem State.witnessExpiry_sameLocks (s : State) (t : Nat) : SameLocks s (s.witnessExpiry t) := by
  unfold State.witnessExpiry
  split <;> simp

@[simp] theorem State.chiselListDone_sameLocks (s : State) (t : Nat) : SameLocks s (s.chiselListDone t) := by
  simp [State.chiselListDone]

@[simp] theorem State.chiselFinish_sameLocks (s : State) (t func reason : Nat) :
    SameLocks s (s.chiselFinish t func reason) := by
  unfold State.chiselFinish
  split <;> simp

@[simp] theorem State.chiselHolding_sameLocks (s : State) (t : Nat) : SameLocks s (s.chiselHolding t) := by
  unfold State.chiselHolding
  split <;> simp

@[simp] theorem State.chiselHoldAll_sameLocks (s : State) : SameLocks s s.chiselHoldAll := by
  simp [State.chiselHoldAll]

@[simp] theorem State.sessionExpiry_sameLocks (s : State) (t : Nat) : SameLocks s (s.sessionExpiry t) := by
  unfold State.sessionExpiry
  split <;> simp

@[simp] theorem State.chiselReport_sameLocks (s : State) (t partner : Nat) :
    SameLocks s (s.chiselReport t partner) := by
  unfold State.chiselReport
  dsimp only
  (repeat' split) <;> simp [Reg.chiselAborted, Reg.chiselFailed, Reg.chiselIncomplete, Reg.chiselPassed]

@[simp] theorem State.chiselCredit_sameLocks (s : State) (t : Nat) : SameLocks s (s.chiselCredit t) := by
  simp [State.chiselCredit]

@[simp] theorem State.chiselTaint_sameLocks (s : State) (t : Nat) (units : List Nat) :
    SameLocks s (s.chiselTaint t units) := by simp [State.chiselTaint, Reg.sealSealCtl]

@[simp] theorem State.chiselRepair_sameLocks (s : State) (t : Nat) (rep : Repair) (seg : Nat) :
    SameLocks s (s.chiselRepair t rep seg) := by
  unfold State.chiselRepair
  split <;> simp [Reg.chiselRowRepairs]

@[simp] theorem State.chiselRestore_sameLocks (s : State) (t : Nat) : SameLocks s (s.chiselRestore t) := by
  simp [State.chiselRestore]

@[simp] theorem State.chiselRelease_sameLocks (s : State) (t : Nat) : SameLocks s (s.chiselRelease t) := by
  simp [State.chiselRelease]

@[simp] theorem State.chiselOver_sameLocks (s : State) (t : Nat) : SameLocks s (s.chiselOver t) := by
  simp [State.chiselOver]

@[simp] theorem State.chiselEnd_sameLocks (s : State) (t : Nat) : SameLocks s (s.chiselEnd t) := by
  unfold State.chiselEnd
  dsimp only
  (repeat' split) <;> simp

@[simp] theorem State.chiselAbortAll_sameLocks (s : State) (reason : Nat) :
    SameLocks s (s.chiselAbortAll reason) := by
  unfold State.chiselAbortAll
  refine foldl_sameLocks _ _ _ fun s t => ?_
  dsimp only
  split <;> simp

@[simp] theorem State.chiselShutdown_sameLocks (s : State) : SameLocks s s.chiselShutdown := by
  unfold State.chiselShutdown
  refine foldl_sameLocks _ _ _ fun s t => ?_
  dsimp only
  split <;> simp

@[simp] theorem State.chiselFenced_sameLocks (s : State) (t : Nat) : SameLocks s (s.chiselFenced t) := by
  simp [State.chiselFenced]

@[simp] theorem State.chiselNowDo_sameLocks (s : State) (t : Nat) (units : BitVec 16) (order : Nat) :
    SameLocks s (s.chiselNowDo t units order) := by simp [State.chiselNowDo]

@[simp] theorem State.deferTile_sameLocks (s : State) (t beats : Nat) : SameLocks s (s.deferTile t beats) := by
  simp [State.deferTile, Reg.chiselDeferMax]

/-! ### Machine.Mould -/

@[simp] theorem State.mouldWrite_sameLocks (s : State) (t : Nat) (m : CastMould) :
    SameLocks s (s.mouldWrite t m) := by simp [State.mouldWrite]

@[simp] theorem State.mouldCopy_sameLocks (s : State) (t l : Nat) : SameLocks s (s.mouldCopy t l) := by
  unfold State.mouldCopy
  split <;> simp

@[simp] theorem State.mirrorMould_sameLocks (s : State) (t : Nat) : SameLocks s (s.mirrorMould t) := by
  unfold State.mirrorMould
  split <;> simp

@[simp] theorem State.castLate_sameLocks (s : State) (t l : Nat) : SameLocks s (s.castLate t l) := by
  unfold State.castLate
  split <;> simp

/-! ### Machine.Patina -/

@[simp] theorem State.raiseLevel_sameLocks (s : State) (t old new cause score : Nat) :
    SameLocks s (s.raiseLevel t old new cause score) := by simp [State.raiseLevel]

@[simp] theorem State.levelChange_sameLocks (s : State) (t old new cause score : Nat) :
    SameLocks s (s.levelChange t old new cause score) := by
  simp [State.levelChange, Reg.patinaPatinaCtl, Reg.patinaQuarantines, Reg.patinaSuspectCrossings,
    Reg.patinaWatchCrossings]

@[simp] theorem State.patinaTile_sameLocks (s : State) (t : Nat) : SameLocks s (s.patinaTile t) := by
  simp [State.patinaTile, Reg.patinaHot, Reg.patinaPatinaCtl, Reg.patinaThresh, Reg.patinaWeightA, Reg.patinaWeightB]

@[simp] theorem State.patinaUpdate_sameLocks (s : State) : SameLocks s s.patinaUpdate := by simp [State.patinaUpdate]

@[simp] theorem State.holdBoundary_sameLocks (s : State) (t : Nat) : SameLocks s (s.holdBoundary t) := by
  simp [State.holdBoundary]

@[simp] theorem State.fenceHooks_sameLocks (s : State) (t : Nat) : SameLocks s (s.fenceHooks t) := by
  simp [State.fenceHooks]

@[simp] theorem State.fenceTile_sameLocks (s : State) (t kind : Nat) (fence hold : Bool) (order : Option Nat) :
    SameLocks s (s.fenceTile t kind fence hold order) := by simp [State.fenceTile]

@[simp] theorem State.promoteFail_sameLocks (s : State) (reason t l : Nat) :
    SameLocks s (s.promoteFail reason t l) := by simp [State.promoteFail]

@[simp] theorem State.modPromotion_sameLocks (s : State) (l : Nat) (f : Promotion → Promotion) :
    SameLocks s (s.modPromotion l f) := by simp [State.modPromotion]

@[simp] theorem State.promoteFence_sameLocks (s : State) (t kind : Nat) (target order : Option Nat) (saved : Bool) :
    SameLocks s (s.promoteFence t kind target order saved) := by
  unfold State.promoteFence
  split <;> simp

@[simp] theorem State.quarantine_sameLocks (s : State) (t : Nat) : SameLocks s (s.quarantine t) := by
  simp [State.quarantine]

@[simp] theorem State.patinaAction_sameLocks (s : State) (a : Nat × Nat × Nat) : SameLocks s (s.patinaAction a) := by
  simp [State.patinaAction]

@[simp] theorem State.boundaryFences_sameLocks (s : State) : SameLocks s s.boundaryFences := by
  simp [State.boundaryFences]

@[simp] theorem State.targetLost_sameLocks (s : State) (p : Promotion) : SameLocks s (s.targetLost p) := by
  simp [State.targetLost]

@[simp] theorem State.migrateStart_sameLocks (s : State) (p : Promotion) : SameLocks s (s.migrateStart p) := by
  unfold State.migrateStart
  dsimp only
  (repeat' split) <;> simp

@[simp] theorem State.targetsCheck_sameLocks (s : State) : SameLocks s s.targetsCheck := by simp [State.targetsCheck]

@[simp] theorem State.patinaDispatch_sameLocks (s : State) : SameLocks s s.patinaDispatch := by
  simp [State.patinaDispatch]

@[simp] theorem State.promotionSaved_sameLocks (s : State) (l : Nat) (timedOut : Bool) :
    SameLocks s (s.promotionSaved l timedOut) := by
  unfold State.promotionSaved
  split <;> simp

@[simp] theorem State.migrate_sameLocks (s : State) (p u : Nat) : SameLocks s (s.migrate p u) := by
  simp [State.migrate]

@[simp] theorem State.promotionMigrated_sameLocks (s : State) (l uncorr : Nat) :
    SameLocks s (s.promotionMigrated l uncorr) := by
  unfold State.promotionMigrated
  (repeat' split) <;> simp

@[simp] theorem State.promotionRestored_sameLocks (s : State) (l : Nat) : SameLocks s (s.promotionRestored l) := by
  unfold State.promotionRestored
  (repeat' split) <;> simp

@[simp] theorem State.promoteDone_sameLocks (s : State) (l : Nat) : SameLocks s (s.promoteDone l) := by
  unfold State.promoteDone
  (repeat' split) <;> simp [Reg.mapPromotions]

@[simp] theorem State.promotionResume_sameLocks (s : State) (l : Nat) : SameLocks s (s.promotionResume l) := by
  unfold State.promotionResume
  split <;> simp

@[simp] theorem State.fenceDo_sameLocks (s : State) (t mode id : Nat) : SameLocks s (s.fenceDo t mode id) := by
  simp [State.fenceDo]

@[simp] theorem State.clearPatina_sameLocks (s : State) (t : Nat) : SameLocks s (s.clearPatina t) := by
  simp [State.clearPatina]

@[simp] theorem State.unfenceDo_sameLocks (s : State) (t : Nat) (clear : Bool) (id : Nat) :
    SameLocks s (s.unfenceDo t clear id) := by simp [State.unfenceDo]

@[simp] theorem State.promoteDo_sameLocks (s : State) (l : Nat) (target : Option Nat) (id : Nat) :
    SameLocks s (s.promoteDo l target id) := by
  unfold State.promoteDo
  split <;> simp

@[simp] theorem State.releaseStart_sameLocks (s : State) (r : Rect) (id : Nat) :
    SameLocks s (s.releaseStart r id) := by simp [State.releaseStart]

@[simp] theorem State.scrubTile_sameLocks (s : State) (t : Nat) : SameLocks s (s.scrubTile t) := by
  simp [State.scrubTile]

@[simp] theorem State.releaseScrubbed_sameLocks (s : State) : SameLocks s s.releaseScrubbed := by
  unfold State.releaseScrubbed
  split <;> simp

@[simp] theorem State.releaseDone_sameLocks (s : State) (a : Rect) : SameLocks s (s.releaseDone a) := by
  unfold State.releaseDone
  split <;> simp

/-! ### Machine.Stack -/

@[simp] theorem State.serve_sameLocks (s : State) (a : StackAcc) : SameLocks s (s.serve a) := by
  unfold State.serve
  split <;> simp

@[simp] theorem State.stackAccess_sameLocks (s : State) (a : StackAcc) : SameLocks s (s.stackAccess a) := by
  unfold State.stackAccess
  split <;> simp

@[simp] theorem State.sendAfter_sameLocks (s : State) (t : Nat) (x : Xfer) : SameLocks s (s.sendAfter t x) := by
  simp [State.sendAfter]

@[simp] theorem State.runJob_sameLocks (s : State) (q : StackReq) : SameLocks s (s.runJob q) := by
  unfold State.runJob
  split <;> simp

@[simp] theorem State.askAgain_sameLocks (s : State) (q : StackReq) : SameLocks s (s.askAgain q) := by
  unfold State.askAgain
  split <;> simp

@[simp] theorem State.serveHolds_sameLocks (s : State) : SameLocks s s.serveHolds := by simp [State.serveHolds]

@[simp] theorem State.serveStops_sameLocks (s : State) : SameLocks s s.serveStops := by simp [State.serveStops]

@[simp] theorem State.serveHeld_sameLocks (s : State) (t : Nat) : SameLocks s (s.serveHeld t) := by
  simp [State.serveHeld]

@[simp] theorem State.serveWaits_sameLocks (s : State) (k l : Nat) : SameLocks s (s.serveWaits k l) := by
  simp [State.serveWaits]

@[simp] theorem State.nearbankCommand_sameLocks (s : State) (t : Nat) (n : NearBank) :
    SameLocks s (s.nearbankCommand t n) := by
  unfold State.nearbankCommand
  dsimp only
  (repeat' split) <;> simp

@[simp] theorem State.nbEnd_sameLocks (s : State) (k : Nat) (r : NbRun) (bytes : List Byte) :
    SameLocks s (s.nbEnd k r bytes) := by simp [State.nbEnd]

@[simp] theorem State.nbTime_sameLocks (s : State) (r : NbRun) (cycles : Nat) : SameLocks s (s.nbTime r cycles) := by
  simp [State.nbTime]

@[simp] theorem State.nearbankComplete_sameLocks (s : State) (t l bank cycles : Nat) :
    SameLocks s (s.nearbankComplete t l bank cycles) := by
  unfold State.nearbankComplete
  dsimp only
  (repeat' split) <;> simp

@[simp] theorem State.drawBytes_sameLocks (s : State) (n : Nat) : SameLocks s (s.drawBytes n).2 := by
  simp [State.drawBytes]

@[simp] theorem State.nbHung_sameLocks (s : State) (t l bank : Nat) : SameLocks s (s.nbHung t l bank) := by
  unfold State.nbHung
  dsimp only
  (repeat' split) <;> simp

@[simp] theorem State.refreshDue_sameLocks (s : State) (t l bank : Nat) : SameLocks s (s.refreshDue t l bank) := by
  simp [State.refreshDue]

@[simp] theorem State.nbFinishAll_sameLocks (s : State) : SameLocks s s.nbFinishAll := by
  unfold State.nbFinishAll
  refine foldl_sameLocks _ _ _ fun s e => ?_
  split <;> simp

@[simp] theorem State.mrTick_sameLocks (s : State) : SameLocks s s.mrTick := by
  unfold State.mrTick
  refine foldl_sameLocks _ _ _ fun s l => ?_
  dsimp only
  split <;> simp

@[simp] theorem State.convertEnd_sameLocks (s : State) (l : Nat) (c : Convert) : SameLocks s (s.convertEnd l c) := by
  simp [State.convertEnd]

@[simp] theorem State.reencodeStep_sameLocks (s : State) (t l : Nat) : SameLocks s (s.reencodeStep t l) := by
  unfold State.reencodeStep
  split <;> simp

@[simp] theorem State.patrolFind_sameLocks (s : State) (t l b : Nat) (e : EccFinding) :
    SameLocks s (s.patrolFind t l b e) := by
  unfold State.patrolFind
  split <;> simp

@[simp] theorem State.patrolBegin_sameLocks (s : State) (l : Nat) : SameLocks s (s.patrolBegin l) := by
  simp [State.patrolBegin]

@[simp] theorem State.patrolVisit_sameLocks (s : State) (t l b : Nat) (e : EccFinding) :
    SameLocks s (s.patrolVisit t l b e) := by simp [State.patrolVisit]

@[simp] theorem State.wsetHash_sameLocks (s : State) (w fmt : Nat) (ue : List (Nat × Nat)) :
    SameLocks s (s.wsetHash w fmt ue) := by
  unfold State.wsetHash
  dsimp only
  (repeat' split) <;> simp

/-! ### Machine.Cast -/

@[simp] theorem State.modRun_sameLocks (s : State) (f : CastRun → CastRun) : SameLocks s (s.modRun f) := by
  simp [State.modRun]

@[simp] theorem State.restoreWindow_sameLocks (s : State) (l y : Nat) (ended : Bool) (beats : Nat) :
    SameLocks s (s.restoreWindow l y ended beats) := by simp [State.restoreWindow]

@[simp] theorem State.resumeSend_sameLocks (s : State) : SameLocks s s.resumeSend := by simp [State.resumeSend]

@[simp] theorem State.pauseSend_sameLocks (s : State) (func : Nat) : SameLocks s (s.pauseSend func) := by
  simp [State.pauseSend]

@[simp] theorem State.deferEnd_sameLocks (s : State) : SameLocks s s.deferEnd := by
  unfold State.deferEnd
  (repeat' split) <;> simp

@[simp] theorem State.redirty_sameLocks (s : State) (r : CastRun) : SameLocks s (s.redirty r) := by
  simp [State.redirty]

@[simp] theorem State.castFail_sameLocks (s : State) (reason : Nat) (st : Status) :
    SameLocks s (s.castFail reason st) := by
  unfold State.castFail
  dsimp only
  (repeat' split) <;> simp [Reg.castCastFails]

@[simp] theorem State.castWindow_sameLocks (s : State) : SameLocks s s.castWindow := by
  unfold State.castWindow
  (repeat' split) <;> simp

@[simp] theorem State.castQuiesce_sameLocks (s : State) (cyc : Nat) : SameLocks s (s.castQuiesce cyc) := by
  unfold State.castQuiesce
  split <;> simp

@[simp] theorem State.gatherExpiry_sameLocks (s : State) : SameLocks s s.gatherExpiry := by
  unfold State.gatherExpiry
  split <;> simp

@[simp] theorem State.pauseCopy_sameLocks (s : State) (t : Nat) : SameLocks s (s.pauseCopy t) := by
  unfold State.pauseCopy
  split <;> simp

@[simp] theorem State.gapCopies_sameLocks (s : State) (d : Nat) : SameLocks s (s.gapCopies d) := by
  simp [State.gapCopies]

@[simp] theorem State.castCopied_sameLocks (s : State) (cyc : Nat) : SameLocks s (s.castCopied cyc) := by
  unfold State.castCopied
  split <;> simp

@[simp] theorem State.drainStart_sameLocks (s : State) : SameLocks s s.drainStart := by
  unfold State.drainStart
  split
  · simp
  · rename_i r _
    dsimp only
    generalize hu : (if s.logFree < r.size then s else _) = u
    have h : SameLocks s u := by subst hu; split <;> simp
    split
    · refine .trans ?_ (foldl_sameLocks _ _ _ fun s e => by simp)
      split <;> simp [h, -List.foldl_reverse]
    · simp [h]

@[simp] theorem State.promotionsGo_sameLocks (s : State) : SameLocks s s.promotionsGo := by simp [State.promotionsGo]

@[simp] theorem State.pauseOver_sameLocks (s : State) : SameLocks s s.pauseOver := by
  unfold State.pauseOver
  split <;> simp [Reg.castPauseMax, Reg.castPauses]

@[simp] theorem State.restartStream_sameLocks (s : State) (t : Nat) : SameLocks s (s.restartStream t) := by
  simp [State.restartStream]

@[simp] theorem State.nodeResume_sameLocks (s : State) (t : Nat) : SameLocks s (s.nodeResume t) := by
  simp [State.nodeResume]

@[simp] theorem State.resumeLate_sameLocks (s : State) : SameLocks s s.resumeLate := by simp [State.resumeLate]

@[simp] theorem State.castNext_sameLocks (s : State) : SameLocks s s.castNext := by
  unfold State.castNext
  split <;> simp

@[simp] theorem State.mouldDrained_sameLocks (s : State) (t : Nat) : SameLocks s (s.mouldDrained t) := by
  unfold State.mouldDrained
  (repeat' split) <;> simp

@[simp] theorem State.castDurable_sameLocks (s : State) : SameLocks s s.castDurable := by
  unfold State.castDurable
  split <;> simp [Reg.castCasts]

@[simp] theorem State.castStoreError_sameLocks (s : State) : SameLocks s s.castStoreError := by
  simp [State.castStoreError]

@[simp] theorem State.castStart_sameLocks (s : State) (operand : BitVec 48) (id : Nat) :
    SameLocks s (s.castStart operand id) := by simp [State.castStart]

@[simp] theorem State.restoreStart_sameLocks (s : State) (operand : BitVec 48) (id : Nat) :
    SameLocks s (s.restoreStart operand id) := by simp [State.restoreStart]

@[simp] theorem State.bindStart_sameLocks (s : State) (operand : BitVec 48) (answer : Option PartnerAnswer)
    (id : Nat) :
    SameLocks s (s.bindStart operand answer id) := by
  unfold State.bindStart
  split <;> simp

@[simp] theorem State.unbindStart_sameLocks (s : State) (id : Nat) : SameLocks s (s.unbindStart id) := by
  simp [State.unbindStart]

@[simp] theorem State.mirrorSuper_sameLocks (s : State) (h : List Byte) : SameLocks s (s.mirrorSuper h) := by
  simp [State.mirrorSuper]

@[simp] theorem State.mirrorReceive_sameLocks (s : State) (chip : BitVec 13) (xid : BitVec 16)
    (blocks : List (List Byte)) (flushed : Bool) :
    SameLocks s (s.mirrorReceive chip xid blocks flushed) := by simp [State.mirrorReceive]

@[simp] theorem State.restoreFail_sameLocks (s : State) (reason tile low : Nat) (part : Bool) (st : Status) :
    SameLocks s (s.restoreFail reason tile low part st) := by
  unfold State.restoreFail
  split <;> simp

@[simp] theorem State.restoreStop_sameLocks (s : State) (chain : List CastRec) (n : BitVec 32) (id : Option Nat) :
    SameLocks s (s.restoreStop chain n id) := by
  unfold State.restoreStop
  split <;> simp

@[simp] theorem State.restoreValidated_sameLocks (s : State) (w : RestoreWalk) :
    SameLocks s (s.restoreValidated w) := by
  unfold State.restoreValidated
  dsimp only
  (repeat' split) <;> simp

@[simp] theorem State.restoreWrite_sameLocks (s : State) (r : CastRun) (l : Nat) :
    SameLocks s (s.restoreWrite r l) := by
  unfold State.restoreWrite
  dsimp only
  (repeat' split) <;> simp

@[simp] theorem State.restoreTile_sameLocks (s : State) (l : Nat) : SameLocks s (s.restoreTile l) := by
  unfold State.restoreTile
  dsimp only
  (repeat' split) <;> simp

@[simp] theorem State.restoreUnhold_sameLocks (s : State) : SameLocks s s.restoreUnhold := by
  simp [State.restoreUnhold]

@[simp] theorem State.restoreDone_sameLocks (s : State) : SameLocks s s.restoreDone := by
  unfold State.restoreDone
  split <;> simp

@[simp] theorem State.windowTimeout_sameLocks (s : State) : SameLocks s s.windowTimeout := by
  unfold State.windowTimeout
  (repeat' split) <;> simp

@[simp] theorem State.castLateAt_sameLocks (s : State) (t : Nat) : SameLocks s (s.castLateAt t) := by
  unfold State.castLateAt
  split <;> simp

@[simp] theorem State.reinitDone_sameLocks (s : State) (t : Nat) (stuck : Option Nat) :
    SameLocks s (s.reinitDone t stuck) := by simp [State.reinitDone]

@[simp] theorem State.chiselEndAll_sameLocks (s : State) : SameLocks s s.chiselEndAll := by simp [State.chiselEndAll]

/-! ### Machine.Work -/

@[simp] theorem State.watchEnd_sameLocks (s : State) (t : Nat) (c : Cmd) (outs : List OutBlock) :
    SameLocks s (s.watchEnd t c outs) := by simp [State.watchEnd]

@[simp] theorem State.settleReset_sameLocks (s : State) (t : Nat) : SameLocks s (s.settleReset t) := by
  unfold State.settleReset
  split <;> simp

@[simp] theorem State.resetTime_sameLocks (s : State) : SameLocks s s.resetTime.2 := by simp [State.resetTime]

@[simp] theorem State.firstCycle_sameLocks (s : State) (t : Nat) (c : Cmd) : SameLocks s (s.firstCycle t c) := by
  simp [State.firstCycle]

@[simp] theorem State.startCommand_sameLocks (s : State) (t : Nat) (c : Cmd) :
    SameLocks s (s.startCommand t c).1 := by
  unfold State.startCommand
  dsimp only
  (repeat' split) <;> simp

@[simp] theorem State.commandBegin_sameLocks (s : State) (t : Nat) (c : Cmd) (cyc : Nat) :
    SameLocks s (s.commandBegin t c cyc) := by simp [State.commandBegin]

@[simp] theorem State.restartCommand_sameLocks (s : State) (t : Nat) : SameLocks s (s.restartCommand t) := by
  unfold State.restartCommand
  split <;> simp

@[simp] theorem State.countCommand_sameLocks (s : State) (t : Nat) (e : CmdEnd) :
    SameLocks s (s.countCommand t e) := by simp [State.countCommand]

@[simp] theorem State.syncRecords_sameLocks (s : State) (t : Nat) (c : Cmd) (ws : List SemWait) :
    SameLocks s (s.syncRecords t c ws) := by simp [State.syncRecords, Reg.traceTraceCtl]

@[simp] theorem State.sealOutputs_sameLocks (s : State) (t : Nat) (outs : List OutBlock) :
    SameLocks s (s.sealOutputs t outs).1 := by
  unfold State.sealOutputs
  refine foldl_fst_sameLocks _ _ _ fun a o => ?_
  dsimp only
  (repeat' split) <;> simp

@[simp] theorem State.feedDigests_sameLocks (s : State) (t : Nat) (c : Cmd) (e : CmdEnd) :
    SameLocks s (s.feedDigests t c e) := by
  unfold State.feedDigests
  split <;> simp

@[simp] theorem State.commandDone_sameLocks (s : State) (t : Nat) (c : Cmd) (e : CmdEnd) :
    SameLocks s (s.commandDone t c e) := by simp [State.commandDone]

@[simp] theorem State.hostDone_sameLocks (s : State) (t : Nat) (e : CmdEnd) : SameLocks s (s.hostDone t e) := by
  simp [State.hostDone]

@[simp] theorem State.commandEnd_sameLocks (s : State) (t : Nat) (e : CmdEnd) : SameLocks s (s.commandEnd t e) := by
  unfold State.commandEnd
  (repeat' split) <;> simp

/-! ### Machine.NodeOps -/

@[simp] theorem State.stateEntry_sameLocks (s : State) (t : Nat) : SameLocks s (s.stateEntry t) := by
  simp [State.stateEntry]

@[simp] theorem State.nodeFreeze_sameLocks (s : State) (t : Nat) : SameLocks s (s.nodeFreeze t) := by
  simp [State.nodeFreeze]

@[simp] theorem State.nodePause_sameLocks (s : State) (t : Nat) : SameLocks s (s.nodePause t) := by
  simp [State.nodePause]

@[simp] theorem State.nodeChiselArm_sameLocks (s : State) (t : Nat) (o : BitVec 96) :
    SameLocks s (s.nodeChiselArm t o) := by simp [State.nodeChiselArm]

@[simp] theorem State.nodeChiselContinue_sameLocks (s : State) (t : Nat) (o : BitVec 96) :
    SameLocks s (s.nodeChiselContinue t o) := by simp [State.nodeChiselContinue]

@[simp] theorem State.nodeChiselStart_sameLocks (s : State) (t : Nat) (o : BitVec 96) :
    SameLocks s (s.nodeChiselStart t o) := by simp [State.nodeChiselStart]

@[simp] theorem State.nodeDisarm_sameLocks (s : State) (t : Nat) : SameLocks s (s.nodeDisarm t) := by
  simp [State.nodeDisarm]

@[simp] theorem State.nodeReinit_sameLocks (s : State) (t : Nat) (o : BitVec 96) :
    SameLocks s (s.nodeReinit t o) := by
  unfold State.nodeReinit
  split <;> simp

@[simp] theorem State.nodeChiselAbort_sameLocks (s : State) (t : Nat) (o : BitVec 96) :
    SameLocks s (s.nodeChiselAbort t o) := by simp [State.nodeChiselAbort]

@[simp] theorem State.nodeSeedLoad_sameLocks (s : State) (t : Nat) (o : BitVec 96) :
    SameLocks s (s.nodeSeedLoad t o) := by simp [State.nodeSeedLoad]

@[simp] theorem State.nodeMaqSet_sameLocks (s : State) (t func : Nat) (mapgen : BitVec 16) (o : BitVec 96) :
    SameLocks s (s.nodeMaqSet t func mapgen o) := by simp [State.nodeMaqSet]

@[simp] theorem State.nodeWatch_sameLocks (s : State) (t func : Nat) (o : BitVec 96) :
    SameLocks s (s.nodeWatch t func o) := by
  unfold State.nodeWatch
  split <;> simp

@[simp] theorem State.fencedOrder_sameLocks (s : State) (op t : Nat) : SameLocks s (s.fencedOrder op t) := by
  unfold State.fencedOrder
  split <;> simp

@[simp] theorem State.nodeStep_sameLocks (s : State) (t : Nat) (o : BitVec 96) : SameLocks s (s.nodeStep t o) := by
  simp [State.nodeStep]

@[simp] theorem State.nodeRun_sameLocks (s : State) (t : Nat) : SameLocks s (s.nodeRun t) := by simp [State.nodeRun]

@[simp] theorem State.nodeCounterRead_sameLocks (s : State) (t func : Nat) :
    SameLocks s (s.nodeCounterRead t func) := by simp [State.nodeCounterRead]

@[simp] theorem State.nodeDo_sameLocks (s : State) (t op : Nat) (mapgen : BitVec 16) (o : BitVec 96)
    (data : List Flit) :
    SameLocks s (s.nodeDo t op mapgen o data) := by
  unfold State.nodeDo
  split <;> simp

@[simp] theorem State.freeInboxes_sameLocks (s : State) (t : Nat) : SameLocks s (s.freeInboxes t) := by
  simp [State.freeInboxes]

@[simp] theorem State.unpark_sameLocks (s : State) (t : Nat) : SameLocks s (s.unpark t) := by simp [State.unpark]

@[simp] theorem State.nodeRing_sameLocks (s : State) (t : Nat) (k : HangKind) (cause : Nat) :
    SameLocks s (s.nodeRing t k cause) := by simp [State.nodeRing]

@[simp] theorem State.nodeEdge_sameLocks (s : State) (t : Nat) : SameLocks s (s.nodeEdge t) := by
  simp [State.nodeEdge]

@[simp] theorem State.nodeTake_sameLocks (s : State) (op : Nat) (n : NodeOp) (data : List Flit) :
    SameLocks s (s.nodeTake op n data) := by simp [State.nodeTake]

@[simp] theorem State.ackDone_sameLocks (s : State) (o : Outgoing) : SameLocks s (s.ackDone o) := by
  unfold State.ackDone
  dsimp only
  (repeat' split) <;> simp

@[simp] theorem State.ackTake_sameLocks (s : State) (k : StreamId) (xid : BitVec 16) :
    SameLocks s (s.ackTake k xid) := by
  unfold State.ackTake
  split
  · rename_i node vc
    have h := s.takeAck_sameLocks node vc xid
    split <;> simp_all
  · simp
  · simp

@[simp] theorem State.ackHeldTake_sameLocks (s : State) (k : StreamId) (xid : BitVec 16) :
    SameLocks s (s.ackHeldTake k xid) := by
  unfold State.ackHeldTake
  split <;> simp

@[simp] theorem State.takeEvent_sameLocks (s : State) (r : EvRec) : SameLocks s (s.takeEvent r) := by
  simp [State.takeEvent]

@[simp] theorem State.lateReply_sameLocks (s : State) (t : Nat) : SameLocks s (s.lateReply t) := by
  simp [State.lateReply]

@[simp] theorem State.takeReply_sameLocks (s : State) (t : Nat) (body : List Flit) :
    SameLocks s (s.takeReply t body) := by simp [State.takeReply]

@[simp] theorem State.takeSummaryPacket_sameLocks (s : State) (t : Nat) (body : List Flit) :
    SameLocks s (s.takeSummaryPacket t body) := by simp [State.takeSummaryPacket]

@[simp] theorem State.consumePacket_sameLocks (s : State) (p : ArmPacket) (h : ArmHead) (k : StreamId) :
    SameLocks s (s.consume_ p h k) := by
  unfold State.consume_
  (repeat' split) <;> simp

@[simp] theorem State.packetOnDie_sameLocks (s : State) (p : ArmPacket) (broken : Bool) :
    SameLocks s (s.packetOnDie p broken) := by
  unfold State.packetOnDie
  dsimp only
  (repeat' split) <;> simp

@[simp] theorem State.takeHubMsg_sameLocks (s : State) (chip : BitVec 13) (kind len : Nat) :
    SameLocks s (s.takeHubMsg chip kind len) := by simp [State.takeHubMsg]

@[simp] theorem State.packetPeer_sameLocks (s : State) (link : Nat) (flits : List Flit) :
    SameLocks s (s.packetPeer link flits) := by simp [State.packetPeer]

@[simp] theorem State.sentinelTake_sameLocks (s : State) (link : Nat) (flits : List Flit) :
    SameLocks s (s.sentinelTake link flits) := by
  have h := s.sentinelArrive_sameLocks link flits
  unfold State.sentinelTake
  split <;> simp_all

@[simp] theorem State.packetArrive_sameLocks (s : State) (p : ArmPacket) : SameLocks s (s.packetArrive p) := by
  unfold State.packetArrive
  dsimp only
  (repeat' split) <;> simp [Reg.armHopCorrected]

@[simp] theorem State.nodeAccept_sameLocks (s : State) (op : Nat) (n : NodeOp) (data : List Flit) :
    SameLocks s (s.nodeAccept op n data) := by
  unfold State.nodeAccept
  dsimp only
  (repeat' split) <;> simp

/-! ### Machine.Bringup -/

@[simp] theorem State.giveUp_sameLocks (s : State) (silent : List Nat) : SameLocks s (s.giveUp silent) := by
  simp [State.giveUp]

@[simp] theorem State.applyRepair_sameLocks (s : State) (w : Word) : SameLocks s (s.applyRepair w) := by
  unfold State.applyRepair
  split <;> simp

@[simp] theorem State.superblock_sameLocks (s : State) (i : S1In) (usable : Bool) :
    SameLocks s (s.superblock i usable) := by simp [State.superblock, Reg.castCastCtl]

@[simp] theorem State.hottestDram_sameLocks (s : State) : SameLocks s s.hottestDram.2 := by
  unfold State.hottestDram
  dsimp only
  (repeat' split) <;> simp

@[simp] theorem State.raiseLinkDown_sameLocks (s : State) (n : Nat) : SameLocks s (s.raiseLinkDown n) := by
  simp [State.raiseLinkDown]

@[simp] theorem State.linkChanged_sameLocks (s : State) (n : Nat) : SameLocks s (s.linkChanged n) := by
  simp [State.linkChanged]

@[simp] theorem State.trainLink_sameLocks (s : State) (x : LinkTrain) (retry : Bool) :
    SameLocks s (s.trainLink x retry) := by simp [State.trainLink]

@[simp] theorem State.linkRetrain_sameLocks (s : State) (ls : List LinkTrain) : SameLocks s (s.linkRetrain ls) := by
  simp [State.linkRetrain, Reg.bringupLinkRetrain]

@[simp] theorem State.linkDown_sameLocks (s : State) (n : Nat) : SameLocks s (s.linkDown n) := by
  simp [State.linkDown]

@[simp] theorem State.readyStart_sameLocks (s : State) : SameLocks s s.readyStart := by
  simp [State.readyStart, Reg.bringupReport, Reg.countCountCtl]

@[simp] theorem State.routesCheck_sameLocks (s : State) : SameLocks s s.routesCheck := by simp [State.routesCheck]

@[simp] theorem State.reposeStart_sameLocks (s : State) (id : Nat) : SameLocks s (s.reposeStart id) := by
  simp [State.reposeStart]

@[simp] theorem State.reposeGathered_sameLocks (s : State) : SameLocks s s.reposeGathered := by
  simp [State.reposeGathered, Reg.powerReposeCount]

@[simp] theorem State.reposeExpiry_sameLocks (s : State) : SameLocks s s.reposeExpiry := by
  simp [State.reposeExpiry, Reg.powerReposeCtl]

@[simp] theorem State.wakeStart_sameLocks (s : State) (id : Nat) : SameLocks s (s.wakeStart id) := by
  simp [State.wakeStart]

@[simp] theorem State.wakeTile_sameLocks (s : State) (t : Nat) : SameLocks s (s.wakeTile t) := by
  simp [State.wakeTile]

@[simp] theorem State.wakeDone_sameLocks (s : State) (cyc : Nat) : SameLocks s (s.wakeDone cyc) := by
  simp [State.wakeDone]

/-! ### Machine.Orders -/

@[simp] theorem State.maqRateDo_sameLocks (s : State) (w : Word) (id : Nat) : SameLocks s (s.maqRateDo w id) := by
  simp [State.maqRateDo]

@[simp] theorem State.watchArmDo_sameLocks (s : State) (w : Word) (id : Nat) : SameLocks s (s.watchArmDo w id) := by
  simp [State.watchArmDo]

@[simp] theorem State.watchDisarmDo_sameLocks (s : State) (w : Word) (id : Nat) :
    SameLocks s (s.watchDisarmDo w id) := by simp [State.watchDisarmDo]

@[simp] theorem State.stepDo_sameLocks (s : State) (w : Word) (id : Nat) : SameLocks s (s.stepDo w id) := by
  simp [State.stepDo]

@[simp] theorem State.runDo_sameLocks (s : State) (w : Word) (id : Nat) : SameLocks s (s.runDo w id) := by
  simp [State.runDo]

@[simp] theorem State.freezeDo_sameLocks (s : State) (w : Word) (id : Nat) : SameLocks s (s.freezeDo w id) := by
  simp [State.freezeDo]

@[simp] theorem State.bindDo_sameLocks (s : State) (w : Word) (id : Nat) (ans : Option (Option PartnerAnswer)) :
    SameLocks s (s.bindDo w id ans) := by
  unfold State.bindDo
  split <;> simp

@[simp] theorem State.digestOpenSend_sameLocks (s : State) (k : Nat) (first : BitVec 24) (id : Nat) :
    SameLocks s (s.digestOpenSend k first id) := by simp [State.digestOpenSend, Reg.digestSlotCfg]

@[simp] theorem State.orderDo_sameLocks (s : State) (o : OrderRec) (ans : Option (Option PartnerAnswer)) :
    SameLocks s (s.orderDo o ans) := by
  unfold State.orderDo
  dsimp only
  (repeat' split) <;> simp

@[simp] theorem State.orderTurn_sameLocks (s : State) (id : Nat) (ans : Option (Option PartnerAnswer)) :
    SameLocks s (s.orderTurn id ans) := by
  unfold State.orderTurn
  dsimp only
  (repeat' split) <;> simp

@[simp] theorem State.takeOrder_sameLocks (s : State) (r : OrderRef) (w : Word) : SameLocks s (s.takeOrder r w) := by
  simp [State.takeOrder, Reg.orderTaken]

@[simp] theorem State.setNext_sameLocks (s : State) (m : OrderMaster) (slot : Nat) :
    SameLocks s (s.setNext m slot) := by
  unfold State.setNext
  split <;> simp

@[simp] theorem intakeSlot_sameLocks (m : OrderMaster) (a : Intake) (k : Nat) :
    SameLocks a.1 (intakeSlot m a k).1 := by
  unfold intakeSlot
  dsimp only
  (repeat' split) <;> simp

@[simp] theorem State.intake_sameLocks (s : State) : SameLocks s s.intake := by
  simp [State.intake, Reg.orderLeftWaiting]

@[simp] theorem State.waitingOrders_sameLocks (s : State) : SameLocks s s.waitingOrders := by
  simp [State.waitingOrders]

@[simp] theorem State.scheduled_sameLocks (s : State) : SameLocks s s.scheduled := by simp [State.scheduled]

@[simp] theorem State.dispatchAll_sameLocks (s : State) : SameLocks s s.dispatchAll := by simp [State.dispatchAll]

/-! ### Machine.Beat -/

@[simp] theorem State.passTo_sameLocks (s : State) (now : Nat) : SameLocks s (s.passTo now) := by simp [State.passTo]

@[simp] theorem State.forceTick_sameLocks (s : State) : SameLocks s s.forceTick := by simp [State.forceTick]

@[simp] theorem State.sampleTick_sameLocks (s : State) : SameLocks s s.sampleTick := by
  simp [State.sampleTick, Reg.countCountCtl]

@[simp] theorem State.regionEnergy_sameLocks (s : State) (g e : Nat) : SameLocks s (s.regionEnergy g e) := by
  simp [State.regionEnergy]

@[simp] theorem State.countThrottle_sameLocks (s : State) (g n : Nat) : SameLocks s (s.countThrottle g n) := by
  simp [State.countThrottle]

@[simp] theorem State.throttleRest_sameLocks (s : State) : SameLocks s s.throttleRest := by simp [State.throttleRest]

@[simp] theorem State.nodesTick_sameLocks (s : State) (b : Nat) : SameLocks s (s.nodesTick b) := by
  simp [State.nodesTick]

@[simp] theorem State.keyTick_sameLocks (s : State) (old : Word) : SameLocks s (s.keyTick old) := by
  simp [State.keyTick]

@[simp] theorem State.atPhase_sameLocks (s : State) (rank c : Nat) : SameLocks s (s.atPhase rank c) := by
  simp [State.atPhase]

@[simp] theorem State.lineagePhase_sameLocks (s : State) : SameLocks s s.lineagePhase := by
  -- the definition with the list of tiles under a name, so that its fold is never evaluated
  obtain ⟨f, hf⟩ : ∃ f, f = State.lineagePhase := ⟨_, rfl⟩
  obtain ⟨l, hl⟩ := exists_eq_allTiles
  rw [← hf]
  delta State.lineagePhase at hf
  rw [hl] at hf
  subst hf
  refine .trans (b := if s.life.frozen then s else s.lineageClose) (by simp) (foldl_sameLocks _ _ _ fun s t => ?_)
  split <;> simp

@[simp] theorem State.summaryIn_sameLocks (s : State) (t : Nat) (x : Summary) : SameLocks s (s.summaryIn t x) := by
  simp [State.summaryIn]

@[simp] theorem State.takeSummary_sameLocks (s : State) (t : Nat) (x : Summary) :
    SameLocks s (s.takeSummary t x) := by simp [State.takeSummary]

@[simp] theorem State.lateSummary_sameLocks (s : State) (t : Nat) : SameLocks s (s.lateSummary t) := by
  unfold State.lateSummary
  split <;> simp [Reg.beatLateReports]

@[simp] theorem State.aggregate_sameLocks (s : State) (late : List Nat) : SameLocks s (s.aggregate late) := by
  refine foldl_then_sameLocks (fun s =>
    let s := if s.arm.flagged == 0 then s
      else s.raiseHub 0x0023 .note (pack [(32, 32, s.arm.flagged), (0, 32, s.arm.dropped)])
    let s := if s.time.lateNow == 0 then s
      else s.raiseHub 0x0017 .note (pack [(32, 32, s.time.lateNow), (0, 32, s.time.lateOldest)])
    { s with arm.flagged := 0, arm.dropped := 0, time.lateNow := 0, time.lateOldest := 0 })
    (fun s t => ?_) (by simp)
  (repeat' split) <;> simp

@[simp] theorem State.peakTemps_sameLocks (s : State) : SameLocks s s.peakTemps := by
  unfold State.peakTemps
  split
  · simp
  · refine foldl_sameLocks _ _ _ fun s e => ?_
    split <;> simp

@[simp] theorem State.countThrottleChange_sameLocks (s : State) (g old new : Nat) :
    SameLocks s (s.countThrottleChange g old new) := by simp [State.countThrottleChange]

@[simp] theorem State.thermalPhase_sameLocks (s : State) : SameLocks s s.thermalPhase := by simp [State.thermalPhase]

@[simp] theorem State.samplePhase_sameLocks (s : State) : SameLocks s s.samplePhase := by
  unfold State.samplePhase
  obtain ⟨t, ht⟩ : ∃ t, s.sampleAll = t := ⟨_, rfl⟩
  have h : SameLocks s t := ht ▸ s.sampleAll_sameLocks
  rw [ht]
  split
  · simpa using h
  · simp

@[simp] theorem State.gap_sameLocks (s : State) (d cyc : Nat) : SameLocks s (s.gap d cyc) := by simp [State.gap]

@[simp] theorem State.droop_sameLocks (s : State) (g : Nat) : SameLocks s (s.droop g) := by simp [State.droop]

@[simp] theorem State.voltage_sameLocks (s : State) (g : Nat) (mv : BitVec 16) : SameLocks s (s.voltage g mv) := by
  unfold State.voltage
  dsimp only
  (repeat' split) <;> simp

@[simp] theorem State.mgmtAnswer_sameLocks (s : State) : SameLocks s s.mgmtAnswer := by simp [State.mgmtAnswer]

@[simp] theorem State.mgmtBack_sameLocks (s : State) : SameLocks s s.mgmtBack := by simp [State.mgmtBack]

@[simp] theorem State.mgmtLost_sameLocks (s : State) (kind : BitVec 8) : SameLocks s (s.mgmtLost kind) := by
  simp [State.mgmtLost]

/-! ### Machine.RegRead -/

@[simp] theorem State.rcClear_sameLocks (s : State) (page off : Nat) (h : (page * 0x1000 + off) % 0x1000 ≠ 0x028) :
    SameLocks s (s.rcClear page off) := by
  unfold State.rcClear
  split
  · simp
  · exact s.setReg_sameLocks _ _ h

@[simp] theorem State.countRecordRead_sameLocks (s : State) (m : Requester) (page off size : Nat) :
    SameLocks s (s.countRecordRead m page off size) := by simp [State.countRecordRead]

@[simp] theorem State.setLatch_sameLocks (s : State) (m : Requester) (k : Nat) (v : Option (BitVec 32)) :
    SameLocks s (s.setLatch m k v) := by simp [State.setLatch]

/-! ### Machine.RegWrite -/

@[simp] theorem State.windowMisuse_sameLocks (s : State) (m : Requester) (slot reason : Nat) :
    SameLocks s (s.windowMisuse m slot reason) := by simp [State.windowMisuse, Reg.orderIgnoredWrites]

@[simp] theorem State.windowWrite_sameLocks (s : State) (m : Requester) (slot size : Nat) (v : Word) :
    SameLocks s (s.windowWrite m slot size v) := by simp [State.windowWrite]

@[simp] theorem State.resetRefused_sameLocks (s : State) (v : Word) : SameLocks s (s.resetRefused v) := by
  simp [State.resetRefused, Reg.bringupResetsRefused]

@[simp] theorem State.dumpCtl_sameLocks (s : State) (m : Requester) (v : Word) : SameLocks s (s.dumpCtl m v) := by
  simp [State.dumpCtl, Reg.dumpDumpBase, Reg.dumpDumpCtl]

@[simp] theorem State.fwReady_sameLocks (s : State) (m : Requester) (v : Word) : SameLocks s (s.fwReady m v) := by
  simp [State.fwReady]

@[simp] theorem State.writeOnly_sameLocks (s : State) (m : Requester) (k : Nat) (v : Word) :
    SameLocks s (s.writeOnly m k v) := by
  simp [State.writeOnly, Reg.bringupFwReady, Reg.bringupResetReq, Reg.containReportAck, Reg.debugReadReq,
    Reg.fuseProgResult, Reg.licenceLicCtl]

@[simp] theorem State.afterStore_sameLocks (s : State) (k : Nat) (old v : Word) :
    SameLocks s (s.afterStore k old v) := by
  simp [State.afterStore, Reg.countHostRd, Reg.digestWsetW0, Reg.evtEvtCtl, Reg.traceHostRd]

@[simp] theorem State.storeReg_sameLocks (s : State) (page off : Nat) (old new : Word)
    (h : (page * 0x1000 + off) % 0x1000 ≠ 0x028) :
    SameLocks s (s.storeReg page off old new) := by
  unfold State.storeReg
  split
  · rename_i w _
    have hset := s.setReg_sameLocks _ w h
    simp_all
  · simp

/-! ### Machine.Dump -/

@[simp] theorem State.dumpWrite_sameLocks (s : State) (state : Nat) : SameLocks s (s.dumpWrite state) := by
  simp [State.dumpWrite, Reg.dumpDumpBase]

@[simp] theorem State.dumpEnd_sameLocks (s : State) (x0 : DumpEnd) : SameLocks s (s.dumpEnd x0) := by
  unfold State.dumpEnd
  (repeat' split) <;> simp

/-! ### Reads of the window -/

/-- PAGE_LOCK of every page is the same row of the header (Table 15.1). -/
theorem findRow_pageLock {page : Nat} (h : pageExists page = true) :
    findRow page 0x028 = some ⟨"PAGE_LOCK", 0x28, 8, 1, .rw, 0, 0x1⟩ := by
  simp only [findRow, h]
  rfl

/-- An RC register within a page is no PAGE_LOCK. -/
theorem rc_ne_pageLock {page off : Nat} (hoff : off < 0x1000) (h : isRc page off = true) :
    (page * 0x1000 + off) % 0x1000 ≠ 0x028 := by
  intro hk
  obtain rfl : off = 0x028 := by omega
  cases hp : pageExists page
  · simp [isRc, findRow, hp] at h
  · simp [isRc, findRow_pageLock hp] at h

theorem State.halfRead_sameLocks (s : State) (m : Requester) (page off : Nat) (h : off < 0x1000) :
    SameLocks s (s.halfRead m page off) := by
  unfold State.halfRead
  dsimp only
  split
  · split
    · rename_i hrc
      refine .trans ?_ (State.rcClear_sameLocks _ page off (rc_ne_pageLock h hrc))
      split <;> simp
    · split <;> simp
  · split <;> simp

theorem State.wholeRead_sameLocks (s : State) (m : Requester) (page off : Nat) (h : off < 0x1000) :
    SameLocks s (s.wholeRead m page off) := by
  unfold State.wholeRead
  dsimp only
  split
  · rename_i hrc
    exact .trans (by simp) (State.rcClear_sameLocks _ page off (rc_ne_pageLock h hrc))
  · simp

@[simp] theorem State.readAccess_sameLocks (s : State) (m : Requester) (page off size : Nat) :
    SameLocks s (s.readAccess m page off size) := by
  unfold State.readAccess
  split
  · simp
  · rename_i ha
    have hoff : off < 0x1000 := by simp [accessOk] at ha; omega
    have hw := s.wholeRead_sameLocks m page off hoff
    have hh := s.halfRead_sameLocks m page off hoff
    (repeat' split) <;> simp_all

@[simp] theorem State.tapCapture_sameLocks (s : State) : SameLocks s s.tapCapture := by
  simp [State.tapCapture]


end Sys2Proof.Machine
end

section
/-! SUPPORT. The operations that may set a lock, freeze the chip or pull a line low: they never take one back. -/

namespace Sys2Proof.Machine

/-! ### What may change -/

/-- From `s` to `t` no PAGE_LOCK is cleared, no freeze is lifted and neither line rises. -/
def KeepsLocks (s t : State) : Prop :=
  (∀ p, pageExists p = true → s.locked p → t.locked p) ∧ (s.life.frozen = true → t.life.frozen = true) ∧
  (s.fatalN = false → t.fatalN = false) ∧ (s.tripN = false → t.tripN = false)

theorem SameLocks.keeps {s t : State} (h : SameLocks s t) : KeepsLocks s t := by
  obtain ⟨hregs, hfrozen, -, hfatal, htrip⟩ := h
  refine ⟨fun p hp hl => ?_, by simp [hfrozen], by simp [hfatal], by simp [htrip]⟩
  have := congrFun hregs p
  simp only [pageLocks, hp, Bool.true_and] at this
  exact this.trans hl

theorem KeepsLocks.rfl {s : State} : KeepsLocks s s := ⟨fun _ _ => id, id, id, id⟩

theorem KeepsLocks.trans {a b c : State} (h : KeepsLocks a b) (h' : KeepsLocks b c) : KeepsLocks a c := by
  obtain ⟨hlock, hfrozen, hfatal, htrip⟩ := h
  obtain ⟨hlock', hfrozen', hfatal', htrip'⟩ := h'
  exact ⟨fun p hp hl => hlock' p hp (hlock p hp hl), hfrozen' ∘ hfrozen, hfatal' ∘ hfatal, htrip' ∘ htrip⟩


/-! ### Bring-up -/

theorem reportReg_ne_pageLock {stage : Nat} (h : stage ≤ 5) : (Reg.bringupReport + 8 * stage) % 0x1000 ≠ 0x028 := by
  unfold Reg.bringupReport; omega

theorem State.bringupFail_sameLocks (s : State) (reason fields : Nat) (h : s.life.stage ≤ 5) :
    SameLocks s (s.bringupFail reason fields) := by
  simp [State.bringupFail, reportReg_ne_pageLock h]

theorem State.stageEnd_keepsLocks (s : State) (result fields : Nat) (h : s.life.stage ≤ 5) :
    KeepsLocks s (s.stageEnd result fields) :=
  (s.setReg_sameLocks _ (s.reportWord result fields) (reportReg_ne_pageLock h)).keeps.trans
    ⟨fun _ _ => id, id, id, id⟩

/-- A stage ends after work that has changed no lock. -/
theorem SameLocks.stageEnd {s t : State} (h : SameLocks s t) (hs : s.life.stage ≤ 5) (result fields : Nat) :
    KeepsLocks s (t.stageEnd result fields) :=
  h.keeps.trans (t.stageEnd_keepsLocks result fields (by rw [h.2.2.1]; exact hs))

theorem State.s0End_keepsLocks (s : State) (h : s.life.stage ≤ 5) : KeepsLocks s s.s0End := by
  unfold State.s0End
  split
  · exact (s.bringupFail_sameLocks _ _ h).keeps
  · exact (s.giveUp_sameLocks _).stageEnd h _ _

theorem State.s0Tick_keepsLocks (s : State) : KeepsLocks s s.s0Tick := by
  unfold State.s0Tick
  split
  · rename_i hc
    refine s.s0End_keepsLocks ?_
    simp [State.inStage] at hc
    omega
  · exact .rfl

theorem State.s1End_keepsLocks (s : State) (i : S1In) (late : Bool) (h : s.life.stage ≤ 5) :
    KeepsLocks s (s.s1End i late) := by
  unfold State.s1End
  split
  · exact (s.bringupFail_sameLocks _ _ h).keeps
  · extract_lets s1 cs usable s2 soft table map cast s3 s4 s5 s6 s7 s8 life s9
    have h1 : SameLocks s s1 := by unfold s1; split <;> simp
    have h2 : SameLocks s1 s2 := by unfold s2; split <;> simp
    have h4 : SameLocks s2 s4 := by unfold s4; split <;> simp [s3]
    have h7 : SameLocks s4 s7 := by simp [s7, s6, s5, Reg.maqSeed, Reg.chiselXseed]
    have h9 : SameLocks s7 s9 := by simp [s9, life, s8]
    exact (h1.trans (h2.trans (h4.trans (h7.trans h9)))).stageEnd h _ _

theorem State.s2End_keepsLocks (s : State) (i : S2In) (h : s.life.stage ≤ 5) : KeepsLocks s (s.s2End i) := by
  have hd := s.hottestDram_sameLocks
  unfold State.s2End
  dsimp only
  split
  · exact hd.keeps.trans (State.bringupFail_sameLocks _ _ _ (by rw [hd.2.2.1]; exact h)).keeps
  · exact SameLocks.stageEnd (by simp) h _ _

theorem State.s3End_keepsLocks (s : State) (h : s.life.stage ≤ 5) : KeepsLocks s s.s3End := by
  unfold State.s3End
  obtain ⟨l, hl⟩ := exists_eq_allTiles
  rw [hl]
  dsimp only
  exact KeepsLocks.trans (SameLocks.stageEnd (by simp) h _ _) ⟨fun _ _ => id, id, id, id⟩

theorem State.s4End_keepsLocks (s : State) (ls : List LinkTrain) (h : s.life.stage ≤ 5) :
    KeepsLocks s (s.s4End ls) := by
  unfold State.s4End
  refine KeepsLocks.trans (SameLocks.stageEnd ?_ h _ _) (State.readyStart_sameLocks _).keeps
  dsimp only
  split <;> simp

theorem State.stageLimit_keepsLocks (s : State) (i1 : S1In) (i2 : S2In) (ls : List LinkTrain) (h : s.life.stage ≤ 5) :
    KeepsLocks s (s.stageLimit i1 i2 ls) := by
  unfold State.stageLimit
  split
  · exact s.s0End_keepsLocks h
  · exact s.s1End_keepsLocks _ _ h
  · exact s.s2End_keepsLocks _ h
  · exact s.s3End_keepsLocks h
  · exact s.s4End_keepsLocks _ h

/-! ### The beat tick -/

theorem State.hubTick_keepsLocks (s : State) : KeepsLocks s s.hubTick := by
  unfold State.hubTick
  exact KeepsLocks.trans (SameLocks.keeps (by simp)) (State.s0Tick_keepsLocks _)

theorem State.tickAfter_keepsLocks (s : State) (b : Nat) : KeepsLocks s (s.tickAfter b) := by
  unfold State.tickAfter
  dsimp only
  split
  · exact SameLocks.keeps (by simp)
  · exact KeepsLocks.trans (SameLocks.keeps (by simp)) (State.hubTick_keepsLocks _)

theorem State.beatTick_keepsLocks (s : State) (energy : List (Nat × Nat)) : KeepsLocks s (s.beatTick energy) := by
  unfold State.beatTick
  refine KeepsLocks.trans (SameLocks.keeps ?_) (State.tickAfter_keepsLocks _ _)
  split <;> simp

theorem State.timeAdopt_keepsLocks (s : State) (master : Word) : KeepsLocks s (s.timeAdopt master) := by
  unfold State.timeAdopt
  have htick : KeepsLocks s _ :=
    State.tickAfter_keepsLocks { s with time.time := master, time.slewPend := 0, time.stamps := [] } s.beat
  exact htick.trans (SameLocks.keeps (by simp))

/-! ### The posting -/

theorem State.freezeNow_keepsLocks (s : State) : KeepsLocks s s.freezeNow := by
  unfold State.freezeNow
  extract_lets s1 s2
  have h1 : SameLocks s s1 := by unfold s1; simp
  have h2 : SameLocks s1 s2 := by unfold s2; simp
  clear_value s1 s2
  exact (h1.trans h2).keeps.trans ⟨fun _ _ => id, fun _ => rfl, fun _ => rfl, id⟩

theorem State.shutdownPost_keepsLocks (s : State) : KeepsLocks s s.shutdownPost := by
  unfold State.shutdownPost
  split
  · exact ⟨fun _ _ => id, id, id, fun _ => rfl⟩
  · exact .rfl

theorem State.posting_keepsLocks (s : State) : KeepsLocks s s.posting := by
  unfold State.posting
  dsimp only
  split
  · exact KeepsLocks.trans (SameLocks.keeps (by simp)) (State.shutdownPost_keepsLocks _)
  · have hs : ∀ rs vs (t : State), SameLocks s t →
        KeepsLocks s ((t.writeRecords rs).1.hostCopyAll.sendVectors vs).shutdownPost := fun rs vs t ht =>
      KeepsLocks.trans (SameLocks.keeps (by simp [ht])) (State.shutdownPost_keepsLocks _)
    split
    · exact (hs _ _ _ (by simp)).trans (State.freezeNow_keepsLocks _)
    · exact hs _ _ _ (by simp)

/-! ### Writes of the window -/

theorem State.setPageLock_keepsLocks (s : State) (k : Nat) : KeepsLocks s (s.setReg k 1) := by
  refine ⟨fun p _ hl => ?_, id, id, id⟩
  rw [State.locked, State.reg_setReg]
  split
  · rfl
  · exact hl

/-- A permitted write clears no PAGE_LOCK: the only register whose store reaches one is PAGE_LOCK itself, which is
stored as 1 (R18). -/
theorem State.regWrite_keepsLocks (s : State) (m : Requester) (page off size : Nat) (v : Word) (r : RegRow)
    (h : off < 0x1000) : KeepsLocks s (s.regWrite m page off size v r) := by
  unfold State.regWrite
  dsimp only
  split
  · exact .rfl
  · exact .rfl
  · exact SameLocks.keeps (by simp)
  · exact (s.writeOnly_sameLocks _ _ _).keeps
  · (repeat' split)
    · exact .rfl
    · exact (s.windowWrite_sameLocks _ _ _ _).keeps
    · exact s.setPageLock_keepsLocks _
    · exact .rfl
    · exact (s.dumpCtl_sameLocks _ _).keeps
    · exact SameLocks.keeps (by simp)
    · rename_i hk _ _
      refine (s.storeReg_sameLocks page _ _ _ ?_).keeps
      simp only [beq_iff_eq] at hk
      omega

theorem State.writeAccess_keepsLocks (s : State) (m : Requester) (page off size : Nat) (v : Word) :
    KeepsLocks s (s.writeAccess m page off size v) := by
  unfold State.writeAccess
  split
  · exact .rfl
  · rename_i ha
    have hoff : off < 0x1000 := by simp [accessOk] at ha; omega
    split
    · exact (s.deny_sameLocks _ _ _ _ _).keeps
    · split
      · exact .rfl
      · split
        · exact .rfl
        · split
          · exact .rfl
          · split
            · split
              · exact .rfl
              · exact s.regWrite_keepsLocks _ _ _ _ _ _ hoff
            · exact .rfl

theorem State.tapUpdate_keepsLocks (s : State) (v : Word) : KeepsLocks s (s.tapUpdate v) :=
  (s.writeAccess_keepsLocks tapMaster s.tapPage s.tapOff s.tapSize v).trans ⟨fun _ _ => id, id, id, id⟩


end Sys2Proof.Machine
end

section
/-! O60. The locks stay until the EX4 is reset as a whole (R18). -/

namespace Sys2Proof.Machine

/-! ### Every command -/

/-- The outcome is a next state that has kept the locks of `s`. -/
def OutcomeKeepsLocks (s : State) (o : Host.Outcome State Fault Refusal) : Prop := ∃ t, o = .next t ∧ KeepsLocks s t

theorem doWhen_keepsLocks {c : Bool} {f : State → State} {s : State} (h : c = true → KeepsLocks s (f s)) :
    OutcomeKeepsLocks s (doWhen c f s) := by
  cases c
  · exact ⟨s, doWhen_false rfl, .rfl⟩
  · exact ⟨f s, doWhen_true rfl, h rfl⟩

theorem doWhen_sameLocks {c : Bool} {f : State → State} {s : State} (h : SameLocks s (f s)) :
    OutcomeKeepsLocks s (doWhen c f s) :=
  doWhen_keepsLocks fun _ => h.keeps

theorem writeRow_keepsLocks (m : Requester) (page off size : Nat) (v : Word) (s : State) :
    OutcomeKeepsLocks s (writeRow m page off size v s) :=
  doWhen_keepsLocks fun _ => s.writeAccess_keepsLocks m page off size v

theorem nodeRow_keepsLocks (op : Nat) (n : NodeOp) (data : List Flit) (s : State) :
    OutcomeKeepsLocks s (nodeRow op n data s) :=
  doWhen_sameLocks (s.nodeAccept_sameLocks op n data)

theorem orderRow_keepsLocks (r : OrderRef) (w : Word) (ans : Option (Option PartnerAnswer)) (s : State) :
    OutcomeKeepsLocks s (orderRow r w ans s) :=
  doWhen_sameLocks (by simp)

theorem execPartnerBind_keepsLocks (r : OrderRef) (operand : BitVec 48) (answer : Option PartnerAnswer) (s : State) :
    OutcomeKeepsLocks s (execPartnerBind r operand answer s) := by
  unfold execPartnerBind
  dsimp only
  split
  · exact doWhen_sameLocks (s.bindDo_sameLocks _ _ _)
  · exact orderRow_keepsLocks _ _ _ s

theorem execLineageClosing_keepsLocks (s : State) : OutcomeKeepsLocks s (execLineageClosing s) :=
  doWhen_keepsLocks fun _ => (SameLocks.trans (s.atPhase_sameLocks 1 0) (State.lineagePhase_sameLocks _)).keeps

theorem execTestHoldDrained_keepsLocks (t : Nat) (s : State) : OutcomeKeepsLocks s (execTestHoldDrained t s) :=
  doWhen_keepsLocks fun _ => (s.testHoldDrained_sameLocks t).keeps

theorem execStatusPosting_keepsLocks (s : State) : OutcomeKeepsLocks s (execStatusPosting s) := by
  refine doWhen_keepsLocks fun _ => ?_
  refine KeepsLocks.trans (SameLocks.keeps ?_) (State.posting_keepsLocks _)
  split <;> simp

theorem State.stage_le_of_inStage {s : State} {n : Nat} (h : s.inStage n = true) (hn : n ≤ 5) : s.life.stage ≤ 5 := by
  simp only [State.inStage, Bool.and_eq_true, beq_iff_eq] at h
  obtain ⟨⟨-, hstage⟩, -⟩ := h
  omega

theorem execStageS1_keepsLocks (i : S1In) (s : State) : OutcomeKeepsLocks s (execStageS1 i s) := by
  refine doWhen_keepsLocks fun h => s.s1End_keepsLocks i false ?_
  exact State.stage_le_of_inStage (Bool.and_elim_left h) (by decide)

theorem execStageS2_keepsLocks (i : S2In) (s : State) : OutcomeKeepsLocks s (execStageS2 i s) := by
  refine doWhen_keepsLocks fun h => s.s2End_keepsLocks i ?_
  exact State.stage_le_of_inStage h (by decide)

theorem execStageS3_keepsLocks (s : State) : OutcomeKeepsLocks s (execStageS3 s) := by
  refine doWhen_keepsLocks fun h => s.s3End_keepsLocks ?_
  exact State.stage_le_of_inStage h (by decide)

theorem execStageS4_keepsLocks (ls : List LinkTrain) (s : State) : OutcomeKeepsLocks s (execStageS4 ls s) := by
  refine doWhen_keepsLocks fun h => s.s4End_keepsLocks ls ?_
  exact State.stage_le_of_inStage h (by decide)

theorem execStageLimit_keepsLocks (i1 : S1In) (i2 : S2In) (ls : List LinkTrain) (s : State) :
    OutcomeKeepsLocks s (execStageLimit i1 i2 ls s) := by
  refine doWhen_keepsLocks fun h => s.stageLimit_keepsLocks i1 i2 ls ?_
  simp only [Bool.and_eq_true, decide_eq_true_eq] at h
  omega

theorem execBeatTick_keepsLocks (energy : List (Nat × Nat)) (s : State) :
    OutcomeKeepsLocks s (execBeatTick energy s) :=
  doWhen_keepsLocks fun _ => s.beatTick_keepsLocks energy

theorem execTimeAdopt_keepsLocks (master : Word) (s : State) : OutcomeKeepsLocks s (execTimeAdopt master s) :=
  doWhen_keepsLocks fun _ => s.timeAdopt_keepsLocks master

theorem execTapChmDataUpdate_keepsLocks (v : Word) (s : State) : OutcomeKeepsLocks s (execTapChmDataUpdate v s) :=
  doWhen_keepsLocks fun _ => s.tapUpdate_keepsLocks v

theorem exec_keepsLocks (c : Instr) (s : State) (hpower : ∀ i, c ≠ .plinthPowerGood i)
    (hreset : ∀ i, c ≠ .wholeChipReset i) (hremoved : c ≠ .powerRemoved) : OutcomeKeepsLocks s (exec c s) := by
  cases c with
  | plinthPowerGood arg => exact absurd rfl (hpower arg)
  | wholeChipReset arg => exact absurd rfl (hreset arg)
  | stageS1 arg => exact execStageS1_keepsLocks arg s
  | stageS2 arg => exact execStageS2_keepsLocks arg s
  | stageS3 => exact execStageS3_keepsLocks s
  | stageS4 links => exact execStageS4_keepsLocks links s
  | stageLimit i1 i2 links => exact execStageLimit_keepsLocks i1 i2 links s
  | fwReady m v => exact writeRow_keepsLocks _ _ _ _ _ s
  | beatTick energy => exact execBeatTick_keepsLocks energy s
  | lineageClosing => exact execLineageClosing_keepsLocks s
  | orderIntake => unfold exec execOrderIntake; exact doWhen_sameLocks (by split <;> simp)
  | verdictAggregation late => unfold exec execVerdictAggregation; exact doWhen_sameLocks (by split <;> simp)
  | lateSummary t => unfold exec execLateSummary; exact doWhen_sameLocks (by simp)
  | patinaUpdate => unfold exec execPatinaUpdate; exact doWhen_sameLocks (by split <;> simp)
  | thermalDecisions => unfold exec execThermalDecisions; exact doWhen_sameLocks (by simp)
  | sensorSample n reading => unfold exec execSensorSample; exact doWhen_sameLocks (by simp)
  | counterSampling => unfold exec execCounterSampling; exact doWhen_sameLocks (by split <;> simp)
  | dispatch => unfold exec execDispatch; exact doWhen_sameLocks (by simp)
  | statusPosting => exact execStatusPosting_keepsLocks s
  | eventHostCopy => unfold exec execEventHostCopy; exact doWhen_sameLocks (by simp)
  | syncPpsEdge cyc => unfold exec execSyncPpsEdge; exact doWhen_sameLocks (by simp)
  | ppsLost => unfold exec execPpsLost; exact doWhen_sameLocks (by simp)
  | elect advs => unfold exec execElect; exact doWhen_sameLocks (by simp)
  | timex x => unfold exec execTimex; exact doWhen_sameLocks (by simp)
  | timeAdopt master => exact execTimeAdopt_keepsLocks master s
  | timeMaster => unfold exec execTimeMaster; exact doWhen_sameLocks (by simp)
  | domainStopDetect d lastEdge => unfold exec execDomainStopDetect; exact doWhen_sameLocks (by simp)
  | gap d cyc => unfold exec execGap; exact doWhen_sameLocks (by simp)
  | packetArrive p => unfold exec execPacketArrive; exact doWhen_sameLocks (by simp)
  | ackHeldTimer sid => unfold exec execAckHeldTimer; exact doWhen_sameLocks (by simp)
  | ack sid xid => unfold exec execAck; exact doWhen_sameLocks (by simp)
  | ackHeld sid xid => unfold exec execAckHeld; exact doWhen_sameLocks (by simp)
  | resendTimeout sid => unfold exec execResendTimeout; exact doWhen_sameLocks (by cases sid <;> simp)
  | sentinelForward link flits => unfold exec execSentinelForward; exact doWhen_sameLocks (by simp)
  | routePrimaryBack k => unfold exec execRoutePrimaryBack; exact doWhen_sameLocks (by simp)
  | fenceApply o | unfenceApply o | mapCommit o | mapLoad o data => exact nodeRow_keepsLocks _ _ _ s
  | niMapApply t => unfold exec execNiMapApply; exact doWhen_sameLocks (by simp)
  | nodeFreeze o | pauseStop o | pauseCopy o | resume o | chiselStartArmIdle o | chiselStartArmForced o
  | chiselStartArmWitness o | chiselStartContinue o | chiselAbortDisarm o | chiselAbortFinish o
  | chiselAbortAbort o | seedLoad o | maqSetPairAdd o | maqSetPairDel o | maqSetArmSource o | maqSetArmHost o
  | maqSetArmReferee o | maqSetEnd o | maqSetSetRate o | watchSetArm o | watchSetDisarm o | nodeStep o | nodeRun o
  | lineageQuery o | hangRead o | counterReadStanding o | counterReadStop o | stateRead o =>
    exact nodeRow_keepsLocks _ _ _ s
  | fence r operand | unfence r operand | promote r operand | chiselNow r operand | chiselDefer r operand
  | maqRate r operand | cast r operand | restore r operand | watchArm r operand | watchDisarm r operand
  | stepTile r operand | run r operand | freeze r operand | digestOpen r operand | digestClose r operand
  | reposeEnter r operand | reposeWake r operand | fuseCommit r operand => exact orderRow_keepsLocks _ _ _ s
  | partnerBind r operand answer => exact execPartnerBind_keepsLocks r operand answer s
  | partnerUnbind r operand | releasePartition r operand => exact orderRow_keepsLocks _ _ _ s
  | releaseScrubDone => unfold exec execReleaseScrubDone; exact doWhen_sameLocks (by simp)
  | orderWindowWrite m slot size v =>
    unfold exec execOrderWindowWrite
    exact doWhen_keepsLocks fun _ => s.writeAccess_keepsLocks _ _ _ _ _
  | orderRdWrite m mgmtRing v | evtHostRdWrite m v | evtHostEnable m v | countHostRdWrite m v
  | traceHostRdWrite m v => exact writeRow_keepsLocks _ _ _ _ _ s
  | rcRead m page off size => unfold exec execRcRead; exact doWhen_sameLocks (by simp)
  | halfReadLatch m page off => unfold exec execHalfReadLatch; exact doWhen_sameLocks (by simp)
  | w1cWrite m page v | pageLock m page | registerWrite m page off size v => exact writeRow_keepsLocks _ _ _ _ _ s
  | injectArm m v => unfold exec execInjectArm; exact doWhen_keepsLocks fun _ => s.writeAccess_keepsLocks _ _ _ _ _
  | injectDisarm m v | reportAck m v | hangReadReq m v | stateReadReq m v | dumpGo m v =>
    exact writeRow_keepsLocks _ _ _ _ _ s
  | dumpDone e => unfold exec execDumpDone; exact doWhen_sameLocks (by simp)
  | licenceInstall m v => exact writeRow_keepsLocks _ _ _ _ _ s
  | licenceVerdict sigOk => unfold exec execLicenceVerdict; exact doWhen_sameLocks (by simp)
  | resetReq m v => exact writeRow_keepsLocks _ _ _ _ _ s
  | mrWrite m layer k v =>
    unfold exec execMrWrite
    exact doWhen_keepsLocks fun _ => s.writeAccess_keepsLocks _ _ _ _ _
  | reencodeStep t layer => unfold exec execReencodeStep; exact doWhen_sameLocks (by simp)
  | wsetWriteValid m w v =>
    unfold exec execWsetWriteValid
    exact doWhen_keepsLocks fun _ => s.writeAccess_keepsLocks _ _ _ _ _
  | wsetRetire m w v =>
    unfold exec execWsetRetire
    exact doWhen_keepsLocks fun _ => s.writeAccess_keepsLocks _ _ _ _ _
  | wsetHashDone w fmt ue => unfold exec execWsetHashDone; exact doWhen_sameLocks (by simp)
  | recordRead m off size => unfold exec execRecordRead; exact doWhen_sameLocks (by simp)
  | fuseProgResult m v => exact writeRow_keepsLocks _ _ _ _ _ s
  | tapChmAddr bits => unfold exec execTapChmAddr; exact doWhen_sameLocks (by simp)
  | tapChmDataCapture => unfold exec execTapChmDataCapture; exact doWhen_sameLocks (by simp)
  | tapChmDataUpdate v => exact execTapChmDataUpdate_keepsLocks v s
  | mgmtTimeout kind => unfold exec execMgmtTimeout; exact doWhen_sameLocks (by simp)
  | mgmtBack => unfold exec execMgmtBack; exact doWhen_sameLocks (by simp)
  | voltageDroop region => unfold exec execVoltageDroop; exact doWhen_sameLocks (by simp)
  | linkDown link => unfold exec execLinkDown; exact doWhen_sameLocks (by simp)
  | linkRetrain links => unfold exec execLinkRetrain; exact doWhen_sameLocks (by simp)
  | commandBegin t c cyc => unfold exec execCommandBegin; exact doWhen_sameLocks (by split <;> simp)
  | commandEnd t e => unfold exec execCommandEnd; exact doWhen_sameLocks (by simp)
  | passStart t p entry => unfold exec execPassStart; exact doWhen_sameLocks (by simp)
  | blockVerdict t f => unfold exec execBlockVerdict; exact doWhen_sameLocks (by simp)
  | passRerun t x fs => unfold exec execPassRerun; exact doWhen_sameLocks (by simp)
  | blockRelease t x => unfold exec execBlockRelease; exact doWhen_sameLocks (by simp)
  | sealVerifyRead t r => unfold exec execSealVerifyRead; exact doWhen_sameLocks (by simp)
  | sealSecondRead t r => unfold exec execSealSecondRead; exact doWhen_sameLocks (by simp)
  | partialBlockWrite t w => unfold exec execPartialBlockWrite; exact doWhen_sameLocks (by simp)
  | transferSend t x =>
    unfold exec execTransferSend
    exact doWhen_sameLocks (s.sendAll_sameLocks t x _ State.sendNow_sameLocks)
  | transferReceive t x => unfold exec execTransferReceive; exact doWhen_sameLocks (by simp)
  | fencedAck t id logical gen => unfold exec execFencedAck; exact doWhen_sameLocks (by simp)
  | subscribedCopyDrop k => unfold exec execSubscribedCopyDrop; exact doWhen_sameLocks (by simp)
  | maqHostAssign => unfold exec execMaqHostAssign; exact doWhen_sameLocks (by simp)
  | maqArmTimeout k => unfold exec execMaqArmTimeout; exact doWhen_sameLocks (by simp)
  | maqCompare k host => unfold exec execMaqCompare; exact doWhen_sameLocks (by simp)
  | maqDeadline k => unfold exec execMaqDeadline; exact doWhen_sameLocks (by simp)
  | maqRefereeAssign k => unfold exec execMaqRefereeAssign; exact doWhen_sameLocks (by simp)
  | maqArbitration k referee => unfold exec execMaqArbitration; exact doWhen_sameLocks (by simp)
  | taintComputation => unfold exec execTaintComputation; exact doWhen_sameLocks (by simp)
  | taintClosure => unfold exec execTaintClosure; exact doWhen_sameLocks (by simp)
  | taint => unfold exec execTaint; exact doWhen_sameLocks (by simp)
  | chiselDue t => unfold exec execChiselDue; exact doWhen_sameLocks (by simp)
  | chiselForced t => unfold exec execChiselForced; exact doWhen_sameLocks (by simp)
  | chiselReady t => unfold exec execChiselReady; exact doWhen_sameLocks (by simp)
  | chiselArmWait t => unfold exec execChiselArmWait; exact doWhen_sameLocks (by simp)
  | chiselStartSignal t => unfold exec execChiselStartSignal; exact doWhen_sameLocks (by simp)
  | chiselStarved t => unfold exec execChiselStarved; exact doWhen_sameLocks (by simp)
  | testHoldDrained t => exact execTestHoldDrained_keepsLocks t s
  | segmentResult t r => unfold exec execSegmentResult; exact doWhen_sameLocks (by simp)
  | witnessWaitExpiry t => unfold exec execWitnessWaitExpiry; exact doWhen_sameLocks (by simp)
  | chiselListDone t => unfold exec execChiselListDone; exact doWhen_sameLocks (by simp)
  | sessionMaxExpiry t => unfold exec execSessionMaxExpiry; exact doWhen_sameLocks (by simp)
  | reinitDone t stuck => unfold exec execReinitDone; exact doWhen_sameLocks (by simp)
  | promotionSaveDone logical timedOut => unfold exec execPromotionSaveDone; exact doWhen_sameLocks (by simp)
  | promotionMigrationDone logical uncorr => unfold exec execPromotionMigrationDone; exact doWhen_sameLocks (by simp)
  | promotionRestoreDone logical => unfold exec execPromotionRestoreDone; exact doWhen_sameLocks (by simp)
  | promoteDone logical => unfold exec execPromoteDone; exact doWhen_sameLocks (by simp)
  | promotionResume logical => unfold exec execPromotionResume; exact doWhen_sameLocks (by simp)
  | repairRecordWrite ok => unfold exec execRepairRecordWrite; exact doWhen_sameLocks (by simp)
  | stackAccess a => unfold exec execStackAccess; exact doWhen_sameLocks (by simp)
  | nearbankCommand t n => unfold exec execNearbankCommand; exact doWhen_sameLocks (by simp)
  | nearbankComplete t layer bank cycles => unfold exec execNearbankComplete; exact doWhen_sameLocks (by simp)
  | nbHung t layer bank => unfold exec execNbHung; exact doWhen_sameLocks (by simp)
  | refreshDue t layer bank => unfold exec execRefreshDue; exact doWhen_sameLocks (by simp)
  | patrolVisit t layer block found => unfold exec execPatrolVisit; exact doWhen_sameLocks (by simp)
  | castWindowCheck => unfold exec execCastWindowCheck; exact doWhen_sameLocks (by simp)
  | castWindowTimeout => unfold exec execCastWindowTimeout; exact doWhen_sameLocks (by simp)
  | castQuiesce cyc => unfold exec execCastQuiesce; exact doWhen_sameLocks (by simp)
  | gatherTimeout => unfold exec execGatherTimeout; exact doWhen_sameLocks (by simp)
  | castCopyDone cyc => unfold exec execCastCopyDone; exact doWhen_sameLocks (by simp)
  | mouldDrained t => unfold exec execMouldDrained; exact doWhen_sameLocks (by simp)
  | castDurable => unfold exec execCastDurable; exact doWhen_sameLocks (by simp)
  | castStoreError => unfold exec execCastStoreError; exact doWhen_sameLocks (by simp)
  | mirrorState why => unfold exec execMirrorState; exact doWhen_sameLocks (by simp)
  | mirrorSegmentReceive chip xid blocks flushed =>
    unfold exec execMirrorSegmentReceive
    exact doWhen_sameLocks (by simp)
  | restoreValidated w => unfold exec execRestoreValidated; exact doWhen_sameLocks (by simp)
  | restoreTileWrite logical => unfold exec execRestoreTileWrite; exact doWhen_sameLocks (by simp)
  | restoreDone => unfold exec execRestoreDone; exact doWhen_sameLocks (by simp)
  | digestSettling k => unfold exec execDigestSettling; exact doWhen_sameLocks (by simp)
  | digestSettleExpiry k => unfold exec execDigestSettleExpiry; exact doWhen_sameLocks (by simp)
  | digestReady k sigR sigS => unfold exec execDigestReady; exact doWhen_sameLocks (by simp)
  | signTimeout k => unfold exec execSignTimeout; exact doWhen_sameLocks (by simp)
  | sampleSetBuild late => unfold exec execSampleSetBuild; exact doWhen_sameLocks (by simp)
  | traceDrain => unfold exec execTraceDrain; exact doWhen_sameLocks (by simp)
  | reposeGatherDone => unfold exec execReposeGatherDone; exact doWhen_sameLocks (by simp)
  | wakeDone cyc => unfold exec execWakeDone; exact doWhen_sameLocks (by simp)
  | regionVoltageSample region mv => unfold exec execRegionVoltageSample; exact doWhen_sameLocks (by simp)
  | transferCompletion t id => unfold exec execTransferCompletion; exact doWhen_sameLocks (by simp)
  | powerRemoved => exact absurd rfl hremoved
  | msixEntryUnmask v => unfold exec execMsixEntryUnmask; exact doWhen_sameLocks (by simp)

/-- The step that idles only counts one cycle on. -/
theorem step_keepsLocks_of_idle (s : State) (h : s.pending = []) : OutcomeKeepsLocks s (step s) := by
  refine ⟨s.plinthCycle, ?_, s.plinthCycle_sameLocks.keeps⟩
  simp [step, h]

/-! ### A write of 0 to PAGE_LOCK -/

theorem entryAt_pageLock (p : Nat) : entryAt p 0x028 = none := by simp [entryAt]

theorem onlyWriter_pageLock (m : Requester) (p : Nat) : onlyWriter m (p * 0x1000 + 0x028) = true := by
  have hrd : p * 0x1000 + 0x028 ≠ Reg.orderHostRd := by unfold Reg.orderHostRd; omega
  have hmrd : p * 0x1000 + 0x028 ≠ Reg.orderMgmtRd := by unfold Reg.orderMgmtRd; omega
  have hseed : p * 0x1000 + 0x028 ≠ Reg.maqSeed := by unfold Reg.maqSeed; omega
  have hxseed : p * 0x1000 + 0x028 ≠ Reg.chiselXseed := by unfold Reg.chiselXseed; omega
  simp [onlyWriter, hrd, hmrd, hseed, hxseed]

theorem masked_zero_bit (old : Word) (size : Nat) (hsize : size = 4 ∨ size = 8) :
    bit (masked 0x1 old (mergeHalf old 0x028 size 0)) 0 = false := by
  rcases hsize with rfl | rfl <;> simp [bit, masked, mergeHalf, setFld, fld]

/-- A write of 0 leaves PAGE_LOCK's one defined bit 0, and so stores nothing (R18). -/
theorem State.writeAccess_pageLock_zero (s : State) (m : Requester) (p size : Nat) (hp : pageExists p = true)
    (h : s.mayUse m p 0x028) (hsize : size = 4 ∨ size = 8) : s.writeAccess m p 0x028 size 0 = s := by
  obtain ⟨-, hlive, hwrite⟩ := h
  have hacc : accessOk p 0x028 size = true := by rcases hsize with rfl | rfl <;> simp [accessOk, hp]
  have hbit := by simpa using masked_zero_bit (s.reg (p * 0x1000 + 0x028)) size hsize
  rw [s.writeAccess_row m p 0x028 size 0 _ hacc hwrite (by simp [writeIgnored, entryAt_pageLock]) hlive
    (onlyWriter_pageLock m p) (findRow_pageLock hp) (by decide)]
  simp [State.regWrite, hbit]

theorem exec_registerWrite {s : State} (m : Requester) (page off size : Nat) (v : Word) (h : s.life.powered = true) :
    exec (.registerWrite m page off size v) s = .next (s.writeAccess m page off size v) :=
  doWhen_true (f := fun s => s.writeAccess m page off size v) h

theorem exec_pageLock_zero (m : Requester) (p size : Nat) (s : State) (hp : pageExists p = true)
    (h : s.mayUse m p 0x028) (hsize : size = 4 ∨ size = 8) : exec (.registerWrite m p 0x028 size 0) s = .next s := by
  rw [exec_registerWrite m p 0x028 size 0 h.1, s.writeAccess_pageLock_zero m p size hp h hsize]

/-- Settles O60: every command but the three that begin with fresh registers keeps the locks, the freeze and the two
lines, and a write of 0 to PAGE_LOCK stores nothing. -/
theorem locksStayUntilReset : Obligations.LocksStayUntilReset := by
  unfold Obligations.LocksStayUntilReset
  exact ⟨exec_keepsLocks, step_keepsLocks_of_idle, fun m p size s => exec_pageLock_zero m p size s⟩

end Sys2Proof.Machine
end

section
/-! O4. REGISTER_WRITE of an ordinary register (R20, Table 0.4, R445). -/

namespace Sys2Proof.Machine

/-! ### Bits of fields -/

theorem testBit_fld (w : Word) (hi lo j : Nat) :
    (fld w hi lo).testBit j = (decide (j < hi + 1 - lo) && w.getLsbD (lo + j)) := by
  simp [fld, Nat.testBit_mod_two_pow, Nat.testBit_shiftRight, BitVec.getLsbD]

/-- A replaced field holds the low bits of the value; the other bits stay. -/
theorem getLsbD_setFld (w : Word) (hi lo v : Nat) {i : Nat} (hi64 : i < 64) :
    (setFld w hi lo v).getLsbD i =
      if lo ≤ i ∧ i - lo < hi + 1 - lo then v.testBit (i - lo) else w.getLsbD i := by
  by_cases hlo : lo ≤ i <;> by_cases hhi : i - lo < hi + 1 - lo <;>
    simp [setFld, BitVec.getLsbD_ofNat, Nat.testBit_mod_two_pow, Nat.testBit_two_pow_sub_one, hi64, hlo, hhi,
      -BitVec.getLsbD_eq_getElem]

theorem getLsbD_masked (mask old new : Word) {i : Nat} (hi : i < 64) :
    (masked mask old new).getLsbD i = if mask.getLsbD i then new.getLsbD i else old.getLsbD i := by
  rw [masked, BitVec.getLsbD_or, BitVec.getLsbD_and, BitVec.getLsbD_and, BitVec.getLsbD_not]
  cases mask.getLsbD i <;> simp [hi]

/-- A write of 8 bytes gives every bit, one of 4 bytes the bits of the half it names (R445). -/
theorem getLsbD_mergeHalf (old v : Word) {off size i : Nat} (hsize : size = 4 ∨ size = 8) (hal : off % size = 0)
    (hi : i < 64) :
    (mergeHalf old off size v).getLsbD i =
      if size == 8 || decide (i / 32 * 4 = off % 8) then v.getLsbD (if size == 8 then i else i % 32)
      else old.getLsbD i := by
  rcases hsize with rfl | rfl
  · have hhalf : off % 8 = 0 ∨ off % 8 = 4 := by omega
    by_cases hlow : i < 32
    · have hq : i / 32 = 0 := by omega
      have hr : i % 32 = i := by omega
      have hup : ¬ 32 ≤ i := by omega
      rcases hhalf with h | h <;>
        simp [mergeHalf, getLsbD_setFld, testBit_fld, h, hi, hq, hr, hlow, hup, -BitVec.getLsbD_eq_getElem]
    · have hq : i / 32 = 1 := by omega
      have hr : i % 32 = i - 32 := by omega
      have hup : 32 ≤ i := by omega
      have hwidth : i - 32 < 32 := by omega
      rcases hhalf with h | h <;>
        simp [mergeHalf, getLsbD_setFld, testBit_fld, h, hi, hq, hr, hlow, hup, hwidth, -BitVec.getLsbD_eq_getElem]
  · simp [mergeHalf]

/-! ### Registers that do not accept every value -/

/-- EVT_CTL takes no HOST_EN while HOST_SIZE is no size of a ring (R457). -/
theorem State.globalRule_evtEvtCtl (s : State) (old new : Word) :
    s.globalRule Reg.evtEvtCtl old new = acceptIf (!bit new 0 || s.evtHostOk) new := rfl

theorem State.globalRule_countHostRd (s : State) (old new : Word) :
    s.globalRule Reg.countHostRd old new = acceptIf (decide (new.toNat ≤ s.dbg.hostWr.toNat)) new := rfl

theorem State.globalRule_traceHostRd (s : State) (old new : Word) :
    s.globalRule Reg.traceHostRd old new = acceptIf (decide (new.toNat ≤ s.dbg.trWr.toNat)) new := rfl

theorem State.globalRule_wset (s : State) {w : Nat} (hw : w < 8) (old new : Word) :
    s.globalRule (Reg.digestWsetW0 + 16 * w) old new =
      acceptIf (if bit new 63 then s.wsetOk w new else !s.wsetNamed w) new := by
  interval_cases w <;> rfl

/-- The rule of the register accepts every value in every state. -/
def AnyValue (k : Nat) : Prop := ∀ (s : State) (old new : Word), s.globalRule k old new = some new

theorem not_anyValue_evtEvtCtl : ¬ AnyValue Reg.evtEvtCtl := fun h => by
  have hno : State.evtHostOk {} = false := by decide
  have hrule := h {} 0 1
  rw [State.globalRule_evtEvtCtl, hno] at hrule
  exact absurd hrule (by decide)

theorem not_anyValue_countHostRd : ¬ AnyValue Reg.countHostRd := fun h => by
  have := h { dbg.hostWr := 0 } 0 1
  simp [State.globalRule_countHostRd, acceptIf] at this

theorem not_anyValue_traceHostRd : ¬ AnyValue Reg.traceHostRd := fun h => by
  have := h { dbg.trWr := 0 } 0 1
  simp [State.globalRule_traceHostRd, acceptIf] at this

theorem not_anyValue_wset {w : Nat} (hw : w < 8) : ¬ AnyValue (Reg.digestWsetW0 + 16 * w) := fun h => by
  have := h {} 0 0x8000000000000800
  simp [State.globalRule_wset _ hw, acceptIf, bit, State.wsetOk, wsetRange, fld] at this

/-- A register whose rule accepts every value sets nothing going when it is written. -/
theorem State.afterStore_of_anyValue (s : State) {k : Nat} (old v : Word) (h : AnyValue k) :
    s.afterStore k old v = s := by
  have hevt : k ≠ Reg.evtEvtCtl := by rintro rfl; exact not_anyValue_evtEvtCtl h
  have hcount : k ≠ Reg.countHostRd := by rintro rfl; exact not_anyValue_countHostRd h
  have htrace : k ≠ Reg.traceHostRd := by rintro rfl; exact not_anyValue_traceHostRd h
  have hwset : ¬ (Reg.digestWsetW0 ≤ k ∧ k < Reg.digestWsetW0 + 16 * 8 ∧ (k - Reg.digestWsetW0) % 16 = 0) := by
    rintro ⟨hfirst, hlast, hword⟩
    have hk : k = Reg.digestWsetW0 + 16 * ((k - Reg.digestWsetW0) / 16) := by omega
    exact not_anyValue_wset (w := (k - Reg.digestWsetW0) / 16) (by omega) (hk ▸ h)
  simp [State.afterStore, hevt, hcount, htrace, hwset, and_assoc]

theorem pageKind_of_lt {page : Nat} (h : page < 0x020) : pageKind page = 0 := by simp [pageKind, h]

/-- The registers that set something going when they are written lie in global pages. -/
theorem State.afterStore_of_kind_ne (s : State) {page off : Nat} (old v : Word) (hoff : off < 0x1000)
    (h : pageKind page ≠ 0) : s.afterStore (page * 0x1000 + off) old v = s := by
  have hpage : 0x020 ≤ page := by
    by_contra hlt
    exact h (pageKind_of_lt (by omega))
  have hevt : page * 0x1000 + off ≠ Reg.evtEvtCtl := by unfold Reg.evtEvtCtl; omega
  have hcount : page * 0x1000 + off ≠ Reg.countHostRd := by unfold Reg.countHostRd; omega
  have htrace : page * 0x1000 + off ≠ Reg.traceHostRd := by unfold Reg.traceHostRd; omega
  have hwset : ¬ page * 0x1000 + off < Reg.digestWsetW0 + 16 * 8 := by unfold Reg.digestWsetW0; omega
  simp [State.afterStore, hevt, hcount, htrace, hwset]

/-- A register whose field rule accepts every value stores what is written and sets nothing going. -/
theorem State.storeReg_of_anyValue (s : State) {page off : Nat} (old new : Word) (hoff : off < 0x1000)
    (h : ∀ (s' : State) (old new : Word), s'.fieldRule page off old new = some new) :
    s.storeReg page off old new = s.setReg (page * 0x1000 + off) new := by
  have hafter (t : State) : t.afterStore (page * 0x1000 + off) old new = t := by
    by_cases hkind : pageKind page = 0
    · exact t.afterStore_of_anyValue old new fun s' old' new' => by simpa [State.fieldRule, hkind] using h s' old' new'
    · exact t.afterStore_of_kind_ne old new hoff hkind
  simp [State.storeReg, h, hafter]

/-! ### The write -/

/-- The value that a write of an ordinary register stores: the defined bits as written, the others as they were. -/
def storedWord (mask old : Word) (off size : Nat) (v : Word) : Word := masked mask old (mergeHalf old off size v)

theorem getLsbD_storedWord (mask old v : Word) {off size i : Nat} (hsize : size = 4 ∨ size = 8)
    (hal : off % size = 0) (hi : i < 64) :
    (storedWord mask old off size v).getLsbD i =
      if mask.getLsbD i && (size == 8 || decide (i / 32 * 4 = off % 8))
      then v.getLsbD (if size == 8 then i else i % 32) else old.getLsbD i := by
  rw [storedWord, getLsbD_masked _ _ _ hi, getLsbD_mergeHalf old v hsize hal hi]
  cases mask.getLsbD i <;> simp

/-- A permitted write to an RW register, or to an LK register of an unlocked page, that is none of the registers with
an action of their own stores by the field rule (R17, R18). -/
theorem State.regWrite_store (s : State) (m : Requester) (page off size : Nat) (v : Word) (r : RegRow)
    (hacc : r.acc = .rw ∨ r.acc = .lk ∧ ¬ s.locked page) (hlock : off - off % 8 ≠ 0x028)
    (hdump : page * 0x1000 + (off - off % 8) ≠ Reg.dumpDumpCtl) (hown : ownField page (off - off % 8) = false) :
    s.regWrite m page off size v r =
      s.storeReg page (off - off % 8) (s.reg (page * 0x1000 + (off - off % 8)))
        (storedWord r.mask (s.reg (page * 0x1000 + (off - off % 8))) off size v) := by
  simp only [ownField, Bool.or_eq_false_iff] at hown
  obtain ⟨hwindow, hselect⟩ := hown
  rcases hacc with hrw | ⟨hlk, hopen⟩
  · simp [State.regWrite, hrw, hwindow, hselect, hlock, hdump, storedWord]
  · have hbit : bit (s.reg (page * 0x1000 + 0x028)) 0 = false := by simpa [State.locked, bit] using hopen
    simp [State.regWrite, hlk, hbit, hwindow, hselect, hlock, hdump, storedWord]

/-- Settles O4: the write passes every judgement, the register's rule stores the value as masked, and nothing follows
the storing, since each register that sets something going refuses some value. -/
theorem registerWriteStores : Obligations.RegisterWriteStores := by
  unfold Obligations.RegisterWriteStores
  intro m page off size v r s huse hacc hrow hcode hany honly hignored hlock hdump hown h10 k
  obtain ⟨hpower, hlive, hmay⟩ := huse
  obtain ⟨⟨⟨hsize, hal⟩, hoff⟩, -⟩ : (((size = 4 ∨ size = 8) ∧ off % size = 0) ∧ off < 0x1000) ∧ pageExists page := by
    simpa [accessOk] using hacc
  refine ⟨s.setReg k (storedWord r.mask (s.reg k) off size v), ?_, OnlyChanges.setReg _ _ _, OnlyRegs.setReg _ _ _,
    fun i hi => ?_⟩
  · rw [exec_registerWrite m page off size v hpower,
      s.writeAccess_row m page off size v r hacc hmay hignored hlive honly hrow h10,
      s.regWrite_store m page off size v r hcode hlock hdump hown,
      s.storeReg_of_anyValue _ _ (by omega) hany]
  · rw [State.reg_setReg_self]
    exact getLsbD_storedWord r.mask (s.reg k) v hsize hal hi

end Sys2Proof.Machine
end

section
/-! SUPPORT. The waiting commands, the plinth time, the phase of the beat and the orders, which almost every operation of
the model leaves as they are: one lemma per operation, in the order of the model. -/

namespace Sys2Proof.Machine

/-! ### The clock and the orders of a state -/

/-- What each order is and whether it has had its turn, in the sequence of the orders. -/
def orderTurns (os : List OrderRec) : List (Nat × Word × OrderRef × Bool) :=
  os.map fun o => (o.id, o.word, o.ref, o.turn)

/-- `t` has the waiting commands, the plinth time and the phase of the beat of `s`. -/
@[simp] abbrev SameClock (s t : State) : Prop :=
  t.pending = s.pending ∧ t.time.time = s.time.time ∧ t.time.phase = s.time.phase

/-- `t` has also the orders of `s`, in the same sequence and with the same turns taken. Every operation below but the
few that let time pass, take an order, give it its turn or post it is such; `simp` uses the four equations one by
one. -/
@[simp] abbrev SameRun (s t : State) : Prop :=
  SameClock s t ∧ orderTurns t.ord.orders = orderTurns s.ord.orders

theorem SameClock.trans {a b c : State} (h : SameClock a b) (h' : SameClock b c) : SameClock a c := by
  simp_all

theorem SameRun.trans {a b c : State} (h : SameRun a b) (h' : SameRun b c) : SameRun a c := by
  simp_all

/-! ### Choices and folds -/

@[simp] theorem State.pending_ite (c : Prop) [Decidable c] (a b : State) :
    (if c then a else b).pending = if c then a.pending else b.pending := apply_ite ..

@[simp] theorem State.time_ite (c : Prop) [Decidable c] (a b : State) :
    (if c then a else b).time = if c then a.time else b.time := apply_ite ..

@[simp] theorem State.ord_ite (c : Prop) [Decidable c] (a b : State) :
    (if c then a else b).ord = if c then a.ord else b.ord := apply_ite ..

@[simp] theorem TimeSt.time_ite (c : Prop) [Decidable c] (a b : TimeSt) :
    (if c then a else b).time = if c then a.time else b.time := apply_ite ..

@[simp] theorem TimeSt.phase_ite (c : Prop) [Decidable c] (a b : TimeSt) :
    (if c then a else b).phase = if c then a.phase else b.phase := apply_ite ..

@[simp] theorem OrdSt.orders_ite (c : Prop) [Decidable c] (a b : OrdSt) :
    (if c then a else b).orders = if c then a.orders else b.orders := apply_ite ..

@[simp] theorem orderTurns_ite (c : Prop) [Decidable c] (a b : List OrderRec) :
    orderTurns (if c then a else b) = if c then orderTurns a else orderTurns b := apply_ite ..

@[simp] theorem foldl_sameRun {α : Type} (f : State → α → State) (l : List α) (s : State)
    (h : ∀ s x, SameRun s (f s x)) : SameRun s (l.foldl f s) := by
  induction l generalizing s with
  | nil => simp
  | cons a l ih => exact (h s a).trans (ih (f s a))

@[simp] theorem foldl_fst_sameRun {α β : Type} (f : State × β → α → State × β) (l : List α) (a : State × β)
    (h : ∀ a x, SameRun a.1 (f a x).1) : SameRun a.1 (l.foldl f a).1 := by
  induction l generalizing a with
  | nil => simp
  | cons x l ih => exact (h a x).trans (ih (f a x))

theorem foldl_then_sameRun {α : Type} {f : State → α → State} {l : List α} {s : State} (g : State → State)
    (hf : ∀ s x, SameRun s (f s x)) (hg : ∀ t, SameRun t (g t)) : SameRun s (g (l.foldl f s)) :=
  (foldl_sameRun f l s hf).trans (hg _)

theorem foldl_sameClock {α : Type} (f : State → α → State) (l : List α) (s : State)
    (h : ∀ s x, SameClock s (f s x)) : SameClock s (l.foldl f s) := by
  induction l generalizing s with
  | nil => simp
  | cons a l ih => exact (h s a).trans (ih (f s a))

theorem foldl_fst_sameClock {α β : Type} (f : State × β → α → State × β) (l : List α) (a : State × β)
    (h : ∀ a x, SameClock a.1 (f a x).1) : SameClock a.1 (l.foldl f a).1 := by
  induction l generalizing a with
  | nil => simp
  | cons x l ih => exact (h a x).trans (ih (f a x))

/-- A change of an order that leaves what it is and its turn. -/
@[simp] theorem State.modOrder_orderTurns (s : State) (id : Nat) (f : OrderRec → OrderRec)
    (h : ∀ o, (f o).id = o.id ∧ (f o).word = o.word ∧ (f o).ref = o.ref ∧ (f o).turn = o.turn) :
    orderTurns (s.modOrder id f).ord.orders = orderTurns s.ord.orders := by
  simp only [orderTurns, State.modOrder, List.map_map]
  refine List.map_congr_left fun o _ => ?_
  obtain ⟨hid, hword, href, hturn⟩ := h o
  by_cases hc : o.id = id <;> simp [hc, hid, hword, href, hturn]

/-! ### The locks of a state -/

/-! ### Choices and folds -/

/-! ### Registers by layer and region -/

/-! ### Machine.Ops -/

@[simp] theorem State.ackDrain_sameRun (s : State) (n : Nat) : SameRun s (s.ackDrain n) := by
  simp [State.ackDrain]

@[simp] theorem State.slew_sameRun (s : State) (n : Nat) : SameRun s (s.slew n) := by simp [State.slew]

@[simp] theorem State.toCycle_pending (s : State) (c : Nat) : (s.toCycle c).pending = s.pending := by
  simp [State.toCycle]

@[simp] theorem State.toCycle_phase (s : State) (c : Nat) : (s.toCycle c).time.phase = s.time.phase := by
  simp [State.toCycle]

@[simp] theorem State.toCycle_ord (s : State) (c : Nat) : (s.toCycle c).ord = s.ord :=
  OnlyChanges.toCycle s c .ord (by simp)

@[simp] theorem State.draw_sameRun (s : State) : SameRun s s.draw.2 := by simp [State.draw]

@[simp] theorem State.localStamp_sameRun (s : State) (d : Nat) : SameRun s (s.localStamp d).2 := by
  unfold State.localStamp
  dsimp only
  (repeat' split) <;> simp

@[simp] theorem State.summaryNext_sameRun (s : State) (t : Nat) : SameRun s (s.summaryNext t) := by
  unfold State.summaryNext
  dsimp only
  (repeat' split) <;> simp

@[simp] theorem State.replyNext_sameRun (s : State) (t : Nat) : SameRun s (s.replyNext t) := by
  unfold State.replyNext
  split <;> simp

@[simp] theorem State.replyPacket_sameRun (s : State) (t : Nat) (body : List Flit) :
    SameRun s (s.replyPacket t body) := by simp [State.replyPacket]

@[simp] theorem State.sendReply_sameRun (s : State) (t : Nat) (ps : List (List Flit)) :
    SameRun s (s.sendReply t ps) := by simp [State.sendReply]

@[simp] theorem State.reply_sameRun (s : State) (t rstatus : Nat) : SameRun s (s.reply t rstatus) := by
  simp [State.reply]

@[simp] theorem State.replyRejected_sameRun (s : State) (t : Nat) : SameRun s (s.replyRejected t) := by
  simp [State.replyRejected]

@[simp] theorem State.setStream_sameRun (s : State) (t vc : Nat) (st : StreamSt) :
    SameRun s (s.setStream t vc st) := by
  unfold State.setStream
  split <;> simp

@[simp] theorem State.raiseHub_sameRun (s : State) (code : Nat) (sev : Severity) (detail : Word) :
    SameRun s (s.raiseHub code sev detail) := by simp [State.raiseHub]

@[simp] theorem State.hang_sameRun (s : State) (ring : Nat) (time : Word) (k : HangKind) (cseq data : Nat) :
    SameRun s (s.hang ring time k cseq data) := by simp [State.hang]

@[simp] theorem State.hangFree_sameRun (s : State) (ring : Nat) (time : Word) (k : HangKind) (cseq cause : Nat) :
    SameRun s (s.hangFree ring time k cseq cause) := by simp [State.hangFree]

@[simp] theorem State.hangLocal_sameRun (s : State) (t unit : Nat) (k : HangKind) (cseq cause : Nat) :
    SameRun s (s.hangLocal t unit k cseq cause) := by simp [State.hangLocal]

@[simp] theorem State.unitRing_sameRun (s : State) (t unit : Nat) (k : HangKind) (cause : Nat) :
    SameRun s (s.unitRing t unit k cause) := by simp [State.unitRing]

@[simp] theorem State.layerRing_sameRun (s : State) (l : Nat) (k : HangKind) : SameRun s (s.layerRing l k) := by
  simp [State.layerRing]

@[simp] theorem State.eventNext_sameRun (s : State) (t : Nat) : SameRun s (s.eventNext t) := by
  unfold State.eventNext
  split <;> simp

@[simp] theorem State.raiseNode_sameRun (s : State) (t : Nat) (r : EvRec) : SameRun s (s.raiseNode t r) := by
  simp [State.raiseNode]

@[simp] theorem State.raiseTile_sameRun (s : State) (t unit code : Nat) (sev : Severity)
    (c : Option (BitVec 16 × BitVec 16 × BitVec 24)) (detail : Word) :
    SameRun s (s.raiseTile t unit code sev c detail) := by simp [State.raiseTile]

@[simp] theorem State.raiseTileNode_sameRun (s : State) (t code : Nat) (sev : Severity)
    (c : Option (BitVec 16 × BitVec 16 × BitVec 24)) (detail : Word) :
    SameRun s (s.raiseTileNode t code sev c detail) := by simp [State.raiseTileNode]

@[simp] theorem State.raiseLink_sameRun (s : State) (n code : Nat) (sev : Severity) (detail : Word) :
    SameRun s (s.raiseLink n code sev detail) := by simp [State.raiseLink]

@[simp] theorem State.raiseLayer_sameRun (s : State) (l unit code : Nat) (sev : Severity) (detail : Word) :
    SameRun s (s.raiseLayer l unit code sev detail) := by simp [State.raiseLayer]

@[simp] theorem State.recordFrom_sameRun (s : State) (src code : Nat) (sev : Severity) (detail : Word) :
    SameRun s (s.recordFrom src code sev detail).2 := by
  unfold State.recordFrom
  split <;> simp

@[simp] theorem State.raiseFrom_sameRun (s : State) (src code : Nat) (sev : Severity) (detail : Word) :
    SameRun s (s.raiseFrom src code sev detail) := by simp [State.raiseFrom]

@[simp] theorem State.count_sameRun (s : State) (t i n : Nat) : SameRun s (s.count t i n) := by simp [State.count]

@[simp] theorem State.mgmtAsk_sameRun (s : State) (k : Nat) : SameRun s (s.mgmtAsk k) := by simp [State.mgmtAsk]

@[simp] theorem State.mgmtDone_sameRun (s : State) (k : Nat) : SameRun s (s.mgmtDone k) := by
  simp [State.mgmtDone]

@[simp] theorem State.mgmtTick_sameRun (s : State) : SameRun s s.mgmtTick := by simp [State.mgmtTick]

@[simp] theorem State.orderDetail_sameRun (s : State) (id : Nat) (d : BitVec 32) :
    SameRun s (s.orderDetail id d) := by simp [State.orderDetail]

@[simp] theorem State.finish_sameRun (s : State) (id : Nat) (st : Status) : SameRun s (s.finish id st) := by
  unfold State.finish
  split <;> simp

@[simp] theorem State.finishOpt_sameRun (s : State) (id : Option Nat) (st : Status) :
    SameRun s (s.finishOpt id st) := by
  unfold State.finishOpt
  split <;> simp

@[simp] theorem State.inject_sameRun (s : State) : SameRun s s.inject := by simp [State.inject]

@[simp] theorem State.hubPacket_sameRun (s : State) (q : SendReq) (dests : BitVec 1152) :
    SameRun s (s.hubPacket q dests) := by simp [State.hubPacket]

@[simp] theorem State.hubSend_sameRun (s : State) (q : SendReq) : SameRun s (s.hubSend q) := by
  unfold State.hubSend
  split <;> simp

/-! ### Machine.Access -/

@[simp] theorem State.deny_sameRun (s : State) (m : Requester) (write mem : Bool) (page off : Nat) :
    SameRun s (s.deny m write mem page off) := by simp [State.deny]

/-! ### Machine.Streams -/

@[simp] theorem State.countLink_sameRun (s : State) (n : Nat) (f : Link → Link) :
    SameRun s (s.countLink n f) := by simp [State.countLink]

@[simp] theorem State.sentRx_sameRun (s : State) (n flits : Nat) : SameRun s (s.sentRx n flits) := by
  simp [State.sentRx]

@[simp] theorem State.sentTx_sameRun (s : State) (n flits : Nat) : SameRun s (s.sentTx n flits) := by
  simp [State.sentTx]

@[simp] theorem State.putLink_sameRun (s : State) (n : Nat) (fs : List Flit) : SameRun s (s.putLink n fs) := by
  simp [State.putLink]

@[simp] theorem State.peerPut_sameRun (s : State) (chip : BitVec 13) (kind : Nat) (net : Bool) (xid : BitVec 16)
    (body : List Flit) :
    SameRun s (s.peerPut chip kind net xid body) := by
  unfold State.peerPut
  split <;> simp

@[simp] theorem State.setLastXid_sameRun (s : State) (k : StreamId) (x : BitVec 16) :
    SameRun s (s.setLastXid k x) := by simp [State.setLastXid]

@[simp] theorem State.queueAck_sameRun (s : State) (port : Nat) (k : StreamId) (x : BitVec 16) (held : Bool)
    (src dst : Nat) (route : BitVec 48) :
    SameRun s (s.queueAck port k x held src dst route) := by simp [State.queueAck]

@[simp] theorem State.sendAck_sameRun (s : State) (k : StreamId) (x : BitVec 16) (held : Bool) :
    SameRun s (s.sendAck k x held) := by
  unfold State.sendAck
  split <;> simp

@[simp] theorem State.streamDone_sameRun (s : State) (t vc : Nat) : SameRun s (s.streamDone t vc) := by
  unfold State.streamDone
  split <;> simp

@[simp] theorem State.exchanged_sameRun (s : State) (t vc : Nat) : SameRun s (s.exchanged t vc) := by
  simp [State.exchanged]

@[simp] theorem State.packetGone_sameRun (s : State) (t vc : Nat) (xid : BitVec 16) :
    SameRun s (s.packetGone t vc xid) := by
  unfold State.packetGone
  split <;> simp

/-! ### Machine.Digest -/

@[simp] theorem State.digestFail_sameRun (s : State) (k reason tile : Nat) :
    SameRun s (s.digestFail k reason tile) := by simp [State.digestFail]

@[simp] theorem State.digestFailAll_sameRun (s : State) (p : Nat → DigSlot → Bool) (reason tile : Nat) :
    SameRun s (s.digestFailAll p reason tile) := by simp [State.digestFailAll]

@[simp] theorem State.digestKeyChange_sameRun (s : State) : SameRun s s.digestKeyChange := by
  simp [State.digestKeyChange]

@[simp] theorem State.digestRestore_sameRun (s : State) : SameRun s s.digestRestore := by
  simp [State.digestRestore]

@[simp] theorem State.digestRepose_sameRun (s : State) : SameRun s s.digestRepose := by simp [State.digestRepose]

@[simp] theorem State.digestRelease_sameRun (s : State) (r : Rect) : SameRun s (s.digestRelease r) := by
  simp [State.digestRelease]

@[simp] theorem State.digestTaint_sameRun (s : State) (tainted : Nat → Bool) :
    SameRun s (s.digestTaint tainted) := by
  unfold State.digestTaint
  refine foldl_sameRun _ _ _ fun s k => ?_
  dsimp only
  split <;> simp

@[simp] theorem State.digestPosture_sameRun (s : State) : SameRun s s.digestPosture := by
  simp [State.digestPosture]

@[simp] theorem State.digestOpenDo_sameRun (s : State) (k : Nat) (first : BitVec 24) :
    SameRun s (s.digestOpenDo k first) := by
  unfold State.digestOpenDo
  dsimp only
  (repeat' split) <;> simp

@[simp] theorem State.nodeDigest_sameRun (s : State) (t k : Nat) : SameRun s (s.nodeDigest t k) := by
  simp [State.nodeDigest]

@[simp] theorem State.digestCloseDo_sameRun (s : State) (k : Nat) (last : BitVec 24) (order : Nat) :
    SameRun s (s.digestCloseDo k last order) := by simp [State.digestCloseDo]

@[simp] theorem State.digestSettle_sameRun (s : State) (k : Nat) : SameRun s (s.digestSettle k) := by
  simp [State.digestSettle]

@[simp] theorem State.digestSign_sameRun (s : State) (k : Nat) : SameRun s (s.digestSign k) := by
  simp [State.digestSign]

@[simp] theorem State.digestReady_sameRun (s : State) (k : Nat) (r q : BitVec 384) :
    SameRun s (s.digestReady k r q) := by simp [State.digestReady]

@[simp] theorem State.raiseWset_sameRun (s : State) (w state reason tile : Nat) :
    SameRun s (s.raiseWset w state reason tile) := by simp [State.raiseWset]

@[simp] theorem State.wsetTo_sameRun (s : State) (w state reason tile : Nat) :
    SameRun s (s.wsetTo w state reason tile) := by simp [State.wsetTo]

@[simp] theorem State.wsetLost_sameRun (s : State) (w : Nat) : SameRun s (s.wsetLost w) := by
  simp [State.wsetLost]

@[simp] theorem State.wsetTick_sameRun (s : State) : SameRun s s.wsetTick := by
  refine foldl_then_sameRun (fun s => { s with digest.setNext := [] }) (fun s w => ?_) (by simp)
  dsimp only
  (repeat' split) <;> simp

@[simp] theorem State.selTick_sameRun (s : State) : SameRun s s.selTick := by simp [State.selTick]

@[simp] theorem State.wsetRelease_sameRun (s : State) (r : Rect) : SameRun s (s.wsetRelease r) := by
  unfold State.wsetRelease
  refine foldl_sameRun _ _ _ fun s w => ?_
  dsimp only
  split <;> simp

@[simp] theorem State.licInstall_sameRun (s : State) (v : Word) : SameRun s (s.licInstall v) := by
  simp [State.licInstall]

@[simp] theorem State.licTick_sameRun (s : State) : SameRun s s.licTick := by simp [State.licTick]

@[simp] theorem State.licVerdict_sameRun (s : State) (sigOk : Option Bool) : SameRun s (s.licVerdict sigOk) := by
  simp [State.licVerdict]

/-! ### Machine.Mem -/

@[simp] theorem State.stackWrite_sameRun (s : State) (t l b off : Nat) (bs : List Byte) :
    SameRun s (s.stackWrite t l b off bs) := by simp [State.stackWrite]

@[simp] theorem State.setStackSeal_sameRun (s : State) (t l b : Nat) (w : Word) :
    SameRun s (s.setStackSeal t l b w) := by simp [State.setStackSeal]

@[simp] theorem State.sramWrite_sameRun (s : State) (t i : Nat) (bs : List Byte) :
    SameRun s (s.sramWrite t i bs) := by simp [State.sramWrite]

@[simp] theorem State.setSramSeal_sameRun (s : State) (t i : Nat) (w : Word) :
    SameRun s (s.setSramSeal t i w) := by simp [State.setSramSeal]

@[simp] theorem State.putBlock_sameRun (s : State) (a : BlockAddr) (bs : List Byte) (w : Word) :
    SameRun s (s.putBlock a bs w) := by
  unfold State.putBlock
  split <;> simp

@[simp] theorem State.portBytes_sameRun (s : State) (x0 : BlockAddr) : SameRun s (s.portBytes x0) := by
  unfold State.portBytes
  split <;> simp

@[simp] theorem State.portBlock_sameRun (s : State) (a : BlockAddr) (bs : List Byte) (w : Word) :
    SameRun s (s.portBlock a bs w) := by simp [State.portBlock]

@[simp] theorem State.clearSram_sameRun (s : State) (t : Nat) : SameRun s (s.clearSram t) := by
  simp [State.clearSram]

@[simp] theorem State.saveImage_sameRun (s : State) (t : Nat) : SameRun s (s.saveImage t) := by
  simp [State.saveImage]

@[simp] theorem State.restoreImage_sameRun (s : State) (t : Nat) : SameRun s (s.restoreImage t) := by
  simp [State.restoreImage]

@[simp] theorem State.emptySeals_sameRun (s : State) (t : Nat) : SameRun s (s.emptySeals t) := by
  simp [State.emptySeals]

@[simp] theorem State.marchSram_sameRun (s : State) (t : Nat) : SameRun s (s.marchSram t) := by
  simp [State.marchSram]

@[simp] theorem State.marchSlice_sameRun (s : State) (t : Nat) : SameRun s (s.marchSlice t) := by
  simp [State.marchSlice]

@[simp] theorem State.issueRefresh_sameRun (s : State) (t : Nat) : SameRun s (s.issueRefresh t) := by
  simp [State.issueRefresh]

@[simp] theorem State.clearBlocks_sameRun (s : State) (t l first last : Nat) :
    SameRun s (s.clearBlocks t l first last) := by simp [State.clearBlocks]

@[simp] theorem State.markBad_sameRun (s : State) (t : Nat) : SameRun s (s.markBad t) := by
  unfold State.markBad
  dsimp only
  (repeat' split) <;> simp

/-! ### Machine.Debug -/

@[simp] theorem State.ringWrite_sameRun (s : State) (t : Nat) (r : BlkRange) (per i : Nat) (bs : List Byte) :
    SameRun s (s.ringWrite t r per i bs) := by simp [State.ringWrite]

@[simp] theorem State.traceDropped_sameRun (s : State) (t : Nat) : SameRun s (s.traceDropped t) := by
  simp [State.traceDropped]

@[simp] theorem State.tracePut_sameRun (s : State) (t : Nat) (bs : List Byte) : SameRun s (s.tracePut t bs) := by
  simp [State.tracePut]

@[simp] theorem State.traceEmit_sameRun (s : State) (t kind : Nat) (i : BitVec 16 × BitVec 16 × BitVec 24)
    (detail : Word) :
    SameRun s (s.traceEmit t kind i detail) := by
  unfold State.traceEmit
  split <;> simp

@[simp] theorem State.traceCollect_sameRun (s : State) : SameRun s s.traceCollect := by
  simp [State.traceCollect]

@[simp] theorem State.traceUnits_sameRun (s : State) (n : Nat) : SameRun s (s.traceUnits n) := by
  induction n generalizing s with
  | zero => simp [State.traceUnits]
  | succ n ih => simp [State.traceUnits, ih]

@[simp] theorem State.traceThresh_sameRun (s : State) : SameRun s s.traceThresh := by
  simp [State.traceThresh]

@[simp] theorem State.traceDropTick_sameRun (s : State) : SameRun s s.traceDropTick := by
  simp [State.traceDropTick]

@[simp] theorem State.countFall_sameRun (s : State) (rd : Word) : SameRun s (s.countFall rd) := by
  simp [State.countFall]

@[simp] theorem State.traceFall_sameRun (s : State) (rd : Word) : SameRun s (s.traceFall rd) := by
  simp [State.traceFall]

@[simp] theorem State.traceDrain_sameRun (s : State) : SameRun s s.traceDrain := by
  simp [State.traceDrain]

@[simp] theorem State.captureTile_sameRun (s : State) (t : Nat) : SameRun s (s.captureTile t) := by
  unfold State.captureTile
  dsimp only
  (repeat' split) <;> simp

@[simp] theorem State.captureReply_sameRun (s : State) (t : Nat) : SameRun s (s.captureReply t) := by
  simp [State.captureReply]

@[simp] theorem State.sampleAll_sameRun (s : State) : SameRun s s.sampleAll := by
  unfold State.sampleAll
  obtain ⟨l, hl⟩ := exists_eq_allTiles
  rw [hl]
  simp

@[simp] theorem State.counterReply_sameRun (s : State) (old : Bool) (t : Nat) :
    SameRun s (s.counterReply old t) := by simp [State.counterReply]

@[simp] theorem State.sampleStack_sameRun (s : State) (x : Sample) : SameRun s (s.sampleStack x) := by
  simp [State.sampleStack]

@[simp] theorem State.countThresh_sameRun (s : State) : SameRun s s.countThresh := by
  simp [State.countThresh]

@[simp] theorem State.sampleHost_sameRun (s : State) (x : Sample) (late : List Nat) :
    SameRun s (s.sampleHost x late) := by
  simp [State.sampleHost]

@[simp] theorem State.sampleBuild_sameRun (s : State) (late : List Nat) : SameRun s (s.sampleBuild late) := by
  simp [State.sampleBuild]

@[simp] theorem State.stepDone_sameRun (s : State) (t : Nat) : SameRun s (s.stepDone t) := by
  simp [State.stepDone]

@[simp] theorem State.setWatch_sameRun (s : State) (k : Nat) (v : Word × List Byte × Option Nat) :
    SameRun s (s.setWatch k v) := by simp [State.setWatch]

@[simp] theorem State.watchCancel_sameRun (s : State) (k : Nat) : SameRun s (s.watchCancel k) := by
  simp [State.watchCancel]

@[simp] theorem State.watchCancelAll_sameRun (s : State) (p : Nat → Bool) : SameRun s (s.watchCancelAll p) := by
  simp [State.watchCancelAll]

@[simp] theorem State.readAnswer_sameRun (s : State) (bs : List Byte) (entries : Nat) :
    SameRun s (s.readAnswer bs entries) := by simp [State.readAnswer]

@[simp] theorem State.readRequest_sameRun (s : State) (v : Word) : SameRun s (s.readRequest v) := by
  simp [State.readRequest]

@[simp] theorem State.readDispatch_sameRun (s : State) : SameRun s s.readDispatch := by simp [State.readDispatch]

@[simp] theorem State.nodeHangRead_sameRun (s : State) (t unit : Nat) : SameRun s (s.nodeHangRead t unit) := by
  simp [State.nodeHangRead]

@[simp] theorem State.nodeStateRead_sameRun (s : State) (t : Nat) : SameRun s (s.nodeStateRead t) := by
  simp [State.nodeStateRead]

/-! ### Machine.Mirror -/

@[simp] theorem State.mirrorGap_sameRun (s : State) (k : Nat) : SameRun s (s.mirrorGap k) := by
  unfold State.mirrorGap
  split <;> simp

@[simp] theorem State.operandTaken_sameRun (s : State) (k : Nat) (a : BlockAddr) (w : Word) :
    SameRun s (s.operandTaken k a w) := by
  unfold State.operandTaken
  split <;> simp

@[simp] theorem State.mirror_sameRun (s : State) (t : Nat) (c : Cmd) (src dst : BlockAddr) (bs : List Byte)
    (w : Word) :
    SameRun s (s.mirror t c src dst bs w) := by simp [State.mirror]

@[simp] theorem State.mirrorRead_sameRun (s : State) (t : Nat) (r : ReadReq) : SameRun s (s.mirrorRead t r) := by
  unfold State.mirrorRead
  (repeat' split) <;> simp

@[simp] theorem State.noteSubscribed_sameRun (s : State) (t : Nat) (x : Xfer) (b : BlockMove) :
    SameRun s (s.noteSubscribed t x b) := by simp [State.noteSubscribed]

@[simp] theorem State.mirrorTaken_sameRun (s : State) (t : Nat) (x : XferIn) (b : BlockMove) :
    SameRun s (s.mirrorTaken t x b) := by
  unfold State.mirrorTaken
  dsimp only
  (repeat' split) <;> simp

@[simp] theorem State.mirrorLeaves_sameRun (s : State) (src : Nat) (b : BlockMove) :
    SameRun s (s.mirrorLeaves src b) := by simp [State.mirrorLeaves]

@[simp] theorem State.stage_sameRun (s : State) (t : Nat) (x : Xfer) (b : BlockMove) (bs : List Byte) (w : Word) :
    SameRun s (s.stage t x b bs w) := by simp [State.stage]

@[simp] theorem State.takeDescr_sameRun (s : State) (t : Nat) (c : Cmd) : SameRun s (s.takeDescr t c) := by
  simp [State.takeDescr]

@[simp] theorem State.copyDrop_sameRun (s : State) (k : Nat) : SameRun s (s.copyDrop k) := by
  unfold State.copyDrop
  (repeat' split) <;> simp

@[simp] theorem State.maqDiscard_sameRun (s : State) (t : Nat) : SameRun s (s.maqDiscard t) := by
  simp [State.maqDiscard]

/-! ### Machine.Lineage -/

@[simp] theorem State.lineage_sameRun (s : State) (t : Nat) (f : LinOpen → LinOpen) :
    SameRun s (s.lineage t f) := by simp [State.lineage]

@[simp] theorem State.lineageCommand_sameRun (s : State) (t : Nat) : SameRun s (s.lineageCommand t) := by
  unfold State.lineageCommand
  split <;> simp

@[simp] theorem State.lineageSend_sameRun (s : State) (t : Nat) (x : Xfer) : SameRun s (s.lineageSend t x) := by
  simp [State.lineageSend]

@[simp] theorem State.lineageServe_sameRun (s : State) (t : Nat) (reader : Option Nat) (host : Bool)
    (chip : Option (BitVec 13)) :
    SameRun s (s.lineageServe t reader host chip) := by simp [State.lineageServe]

@[simp] theorem State.lineageTick_sameRun (s : State) : SameRun s s.lineageTick := by
  simp [State.lineageTick]

@[simp] theorem State.lineageReply_sameRun (s : State) (t : Nat) (q : Option (BitVec 16 × Nat × Nat)) (b : Nat) :
    SameRun s (s.lineageReply t q b) := by
  unfold State.lineageReply
  split <;> simp

@[simp] theorem State.lineagePage_sameRun (s : State) (t b : Nat) (wrote : Bool) (l : LinOpen) :
    SameRun s (s.lineagePage t b wrote l) := by simp [State.lineagePage]

@[simp] theorem State.lineageClose_sameRun (s : State) : SameRun s s.lineageClose := by
  unfold State.lineageClose
  obtain ⟨l, hl⟩ := exists_eq_allTiles
  rw [hl]
  simp

/-! ### Machine.Seal -/

@[simp] theorem State.consume_sameRun (s : State) (used : Bool) : SameRun s (s.consume used) := by
  simp [State.consume]

@[simp] theorem State.sealEvent_sameRun (s : State) (t unit code : Nat) (sev : Severity) (detail : Word)
    (inj : Bool) :
    SameRun s (s.sealEvent t unit code sev detail inj) := by
  unfold State.sealEvent
  dsimp only
  (repeat' split) <;> simp

@[simp] theorem State.traceEnd_sameRun (s : State) (t how : Nat) : SameRun s (s.traceEnd t how) := by
  unfold State.traceEnd
  split <;> simp

@[simp] theorem State.raiseFails_sameRun (s : State) (t : Nat) (fs : List Fail) (recovered : Bool) :
    SameRun s (s.raiseFails t fs recovered) := by simp [State.raiseFails]

@[simp] theorem State.passIn_sameRun (s : State) (t : Nat) (x : PassSt) : SameRun s (s.passIn t x) := by
  simp [State.passIn]

@[simp] theorem State.passDone_sameRun (s : State) (t : Nat) : SameRun s (s.passDone t) := by
  simp [State.passDone]

@[simp] theorem State.dropPass_sameRun (s : State) (t : Nat) : SameRun s (s.dropPass t) := by
  unfold State.dropPass
  split <;> simp

@[simp] theorem State.stopPass_sameRun (s : State) (t : Nat) : SameRun s (s.stopPass t) := by
  simp [State.stopPass]

@[simp] theorem State.halt_sameRun (s : State) (t : Nat) (isSeal : Bool) : SameRun s (s.halt t isSeal) := by
  simp [State.halt]

@[simp] theorem State.askerRing_sameRun (s : State) (q : StackReq) (k : HangKind) (cause : Nat) :
    SameRun s (s.askerRing q k cause) := by simp [State.askerRing]

@[simp] theorem State.turnAway_sameRun (s : State) (g : Gate) (q : StackReq) : SameRun s (s.turnAway g q) := by
  unfold State.turnAway
  cases g <;> simp

@[simp] theorem State.atBlock_sameRun (s : State) (t : Nat) (addr : BlockAddr) (write : Bool) (job : StackJob)
    (go : State → State) (hgo : ∀ s, SameRun s (go s)) :
    SameRun s (s.atBlock t addr write job go) := by
  unfold State.atBlock
  (repeat' split) <;> simp [hgo]

@[simp] theorem State.eccCorr_sameRun (s : State) (t n : Nat) : SameRun s (s.eccCorr t n) := by
  simp [State.eccCorr]

@[simp] theorem State.eccUncorr_sameRun (s : State) (t : Nat) : SameRun s (s.eccUncorr t) := by
  simp [State.eccUncorr]

@[simp] theorem State.sliceCorrected_sameRun (s : State) (t l n : Nat) : SameRun s (s.sliceCorrected t l n) := by
  simp [State.sliceCorrected]

@[simp] theorem State.sliceUncorr_sameRun (s : State) (t l b codeword : Nat) (patrol : Bool)
    (c : Option (BitVec 16 × BitVec 16 × BitVec 24)) :
    SameRun s (s.sliceUncorr t l b codeword patrol c) := by simp [State.sliceUncorr]

@[simp] theorem State.sramEcc_sameRun (s : State) (t : Nat) (x0 : EccFinding) : SameRun s (s.sramEcc t x0) := by
  unfold State.sramEcc
  split <;> simp

@[simp] theorem State.sliceEcc_sameRun (s : State) (t l b : Nat) (e : EccFinding)
    (ids : Option (BitVec 16 × BitVec 16 × BitVec 24)) :
    SameRun s (s.sliceEcc t l b e ids) := by
  unfold State.sliceEcc
  dsimp only
  split <;> simp

@[simp] theorem State.blockRead_sameRun (s : State) (t : Nat) (a : BlockAddr) (e : EccFinding) :
    SameRun s (s.blockRead t a e) := by
  unfold State.blockRead
  (repeat' split) <;> simp

@[simp] theorem State.accept_sameRun (s : State) (t : Nat) : SameRun s (s.accept t) := by simp [State.accept]

@[simp] theorem State.refuseInvalid_sameRun (s : State) (t unit reason : Nat) (w : Word) :
    SameRun s (s.refuseInvalid t unit reason w) := by simp [State.refuseInvalid]

@[simp] theorem State.refuseStale_sameRun (s : State) (t unit gen : Nat) (w : Word) :
    SameRun s (s.refuseStale t unit gen w) := by simp [State.refuseStale]

@[simp] theorem State.readFail_sameRun (s : State) (t unit : Nat) (w : Word) (x : Nat) (inj : Bool) :
    SameRun s (s.readFail t unit w x inj) := by simp [State.readFail]

@[simp] theorem State.readRetry_sameRun (s : State) (t unit : Nat) (w : Word) (x : Nat) (inj : Bool) :
    SameRun s (s.readRetry t unit w x inj) := by simp [State.readRetry]

@[simp] theorem State.resealBlock_sameRun (s : State) (t : Nat) (r : ReadReq) :
    SameRun s (s.resealBlock t r) := by simp [State.resealBlock]

@[simp] theorem State.refuseRead_sameRun (s : State) (t : Nat) (r : ReadReq) (c : Check) (inj : Bool) :
    SameRun s (s.refuseRead t r c inj) := by
  unfold State.refuseRead
  (repeat' split) <;> simp

@[simp] theorem State.firstRead_sameRun (s : State) (t : Nat) (r : ReadReq) : SameRun s (s.firstRead t r) := by
  unfold State.firstRead
  dsimp only
  (repeat' split) <;> simp

@[simp] theorem State.verifyRead_sameRun (s : State) (t : Nat) (r : ReadReq) : SameRun s (s.verifyRead t r) := by
  simp [State.verifyRead]

@[simp] theorem State.readAgain_sameRun (s : State) (t : Nat) (r : ReadReq) (first : Nat) (inj : Option Nat) :
    SameRun s (s.readAgain t r first inj).1 := by
  unfold State.readAgain
  dsimp only
  (repeat' split) <;> simp

@[simp] theorem State.nextRead_sameRun (s : State) (t : Nat) (r : ReadReq) : SameRun s (s.nextRead t r) := by
  unfold State.nextRead
  dsimp only
  (repeat' split) <;> simp

@[simp] theorem State.secondRead_sameRun (s : State) (t : Nat) (r : ReadReq) : SameRun s (s.secondRead t r) := by
  simp [State.secondRead]

@[simp] theorem State.readVerified_sameRun (s : State) (t : Nat) (r : ReadReq) (again : Finding) :
    SameRun s (s.readVerified t r again).1 := by
  unfold State.readVerified
  dsimp only
  (repeat' split) <;> simp

@[simp] theorem State.writeBlock_sameRun (s : State) (t : Nat) (a : BlockAddr) (bs : List Byte) (w : Word) :
    SameRun s (s.writeBlock t a bs w) := by
  unfold State.writeBlock
  split <;> simp

@[simp] theorem State.writeElems_sameRun (s : State) (t : Nat) (p : PartialWrite) :
    SameRun s (s.writeElems t p) := by simp [State.writeElems]

@[simp] theorem State.changeBlock_sameRun (s : State) (t : Nat) (p : PartialWrite) :
    SameRun s (s.changeBlock t p) := by simp [State.changeBlock]

@[simp] theorem State.partialWrite_sameRun (s : State) (t : Nat) (p : PartialWrite) :
    SameRun s (s.partialWrite t p) := by simp [State.partialWrite]

/-! ### Machine.Post -/

@[simp] theorem State.writeRecord_sameRun (s : State) (r : EvRec) : SameRun s (s.writeRecord r) := by
  simp [State.writeRecord]

@[simp] theorem State.clearLost_sameRun (s : State) : SameRun s s.clearLost := by simp [State.clearLost]

@[simp] theorem State.hostCopy_sameRun (s : State) (n : Nat) : SameRun s (s.hostCopy n) := by
  induction n generalizing s with
  | zero => simp [State.hostCopy]
  | succ n ih =>
    unfold State.hostCopy
    dsimp only
    (repeat' split) <;> simp [ih]

@[simp] theorem State.hostCopyAll_sameRun (s : State) : SameRun s s.hostCopyAll := by simp [State.hostCopyAll]

@[simp] theorem State.sendVector_sameRun (s : State) (v : Nat) : SameRun s (s.sendVector v) := by
  simp [State.sendVector]

@[simp] theorem State.sendVectors_sameRun (s : State) (vs : List Nat) : SameRun s (s.sendVectors vs) := by
  simp [State.sendVectors]

@[simp] theorem State.unmask_sameRun (s : State) (v : Nat) : SameRun s (s.unmask v) := by simp [State.unmask]

@[simp] theorem State.closeCounts_sameRun (s : State) : SameRun s s.closeCounts := by simp [State.closeCounts]

@[simp] theorem State.postEntry_sameRun (s : State) (o : OrderRec) (st : Status) :
    SameRun s (s.postEntry o st) := by
  unfold State.postEntry
  split <;> simp

@[simp] theorem State.postOrder_sameClock (s : State) (o : OrderRec) : SameClock s (s.postOrder o).1 := by
  unfold State.postOrder
  (repeat' split) <;> simp

@[simp] theorem State.postOrders_sameClock (s : State) : SameClock s s.postOrders.1 :=
  foldl_fst_sameClock _ _ (s, false) fun a o => by simp

@[simp] theorem State.writeRecords_sameRun (s : State) (rs : List EvRec) : SameRun s (s.writeRecords rs).1 := by
  simp [State.writeRecords]

@[simp] theorem State.freezeEnd_sameRun (s : State) (t : Nat) : SameRun s (s.freezeEnd t) := by
  unfold State.freezeEnd
  split <;> simp

@[simp] theorem State.eventsIn_sameRun (s : State) : SameRun s s.eventsIn := by simp [State.eventsIn]

/-! ### Machine.Arm -/

@[simp] theorem State.raiseEndpoint_sameRun (s : State) (at_ code : Nat) (sev : Severity) (detail : Word) :
    SameRun s (s.raiseEndpoint at_ code sev detail) := by simp [State.raiseEndpoint]

@[simp] theorem State.crcDiscard_sameRun (s : State) (at_ src : Nat) (xid : BitVec 16) :
    SameRun s (s.crcDiscard at_ src xid) := by simp [State.crcDiscard]

@[simp] theorem State.routeDiscard_sameRun (s : State) (at_ link kind src : Nat) :
    SameRun s (s.routeDiscard at_ link kind src) := by simp [State.routeDiscard]

@[simp] theorem State.armLate_sameRun (s : State) (delay op vc net dst : Nat) :
    SameRun s (s.armLate delay op vc net dst) := by simp [State.armLate]

@[simp] theorem State.leaveInbox_sameRun (s : State) (k : StreamId) : SameRun s (s.leaveInbox k) := by
  unfold State.leaveInbox
  split <;> simp

@[simp] theorem State.mapSent_sameRun (s : State) (f : Outgoing → Outgoing) : SameRun s (s.mapSent f) := by
  simp [State.mapSent]

@[simp] theorem State.takeAck_sameRun (s : State) (node vc : Nat) (xid : BitVec 16) :
    SameRun s (s.takeAck node vc xid).1 := by
  unfold State.takeAck
  dsimp only
  (repeat' split) <;> simp

@[simp] theorem State.acceptCopy_sameRun (s : State) (node vc : Nat) (op : Nat) (xid : BitVec 16) :
    SameRun s (s.acceptCopy node vc op xid) := by
  unfold State.acceptCopy
  dsimp only
  (repeat' split) <;> simp

@[simp] theorem State.takeAckHeld_sameRun (s : State) (node vc : Nat) (xid : BitVec 16) :
    SameRun s (s.takeAckHeld node vc xid) := by simp [State.takeAckHeld]

@[simp] theorem State.unreachNode_sameRun (s : State) (node : Nat) : SameRun s (s.unreachNode node) := by
  simp [State.unreachNode]

@[simp] theorem State.resendNode_sameRun (s : State) (node vc : Nat) : SameRun s (s.resendNode node vc) := by
  unfold State.resendNode
  split <;> simp

@[simp] theorem State.streamAck_sameRun (s : State) (t vc : Nat) (xid : BitVec 16) (held : Bool) :
    SameRun s (s.streamAck t vc xid held) := by
  unfold State.streamAck
  split <;> simp

@[simp] theorem State.resendStream_sameRun (s : State) (t vc : Nat) : SameRun s (s.resendStream t vc) := by
  unfold State.resendStream
  split <;> simp

@[simp] theorem State.raiseAlt_sameRun (s : State) (k : Nat) (alt : Bool) : SameRun s (s.raiseAlt k alt) := by
  simp [State.raiseAlt]

@[simp] theorem State.mirrorClear_sameRun (s : State) : SameRun s s.mirrorClear := by simp [State.mirrorClear]

@[simp] theorem State.raiseMirror_sameRun (s : State) (state reason : Nat) (chip : BitVec 13) :
    SameRun s (s.raiseMirror state reason chip) := by simp [State.raiseMirror]

@[simp] theorem State.mirrorDrop_sameRun (s : State) (why : MirrorReason) : SameRun s (s.mirrorDrop why) := by
  unfold State.mirrorDrop
  split <;> simp

@[simp] theorem State.unreachPeer_sameRun (s : State) (chip : BitVec 13) : SameRun s (s.unreachPeer chip) := by
  simp [State.unreachPeer]

@[simp] theorem State.routeFail_sameRun (s : State) (k : Nat) : SameRun s (s.routeFail k) := by
  simp [State.routeFail]

@[simp] theorem State.routesLose_sameRun (s : State) (n : Nat) : SameRun s (s.routesLose n) := by
  simp [State.routesLose]

@[simp] theorem State.routesTick_sameRun (s old : State) : SameRun s (s.routesTick old) := by
  simp [State.routesTick]

@[simp] theorem State.routeBack_sameRun (s : State) (k : Nat) : SameRun s (s.routeBack k) := by
  simp [State.routeBack]

@[simp] theorem State.peerInject_sameRun (s : State) (chip : BitVec 13) (net : Bool) (kind : Nat)
    (body : List Flit) :
    SameRun s (s.peerInject chip net kind body) := by simp [State.peerInject]

@[simp] theorem State.peerSend_sameRun (s : State) (chip : BitVec 13) (net : Bool) (kind : Nat) (body : List Flit) :
    SameRun s (s.peerSend chip net kind body) := by simp [State.peerSend]

@[simp] theorem State.mirrorPump_sameRun (s : State) : SameRun s s.mirrorPump := by
  unfold State.mirrorPump
  split <;> simp

@[simp] theorem State.mirrorQueue_sameRun (s : State) (chip : BitVec 13) (tile : Nat) (blocks : List (List Byte)) :
    SameRun s (s.mirrorQueue chip tile blocks) := by simp [State.mirrorQueue]

@[simp] theorem State.mirrorStep_sameRun (s : State) : SameRun s s.mirrorStep := by
  unfold State.mirrorStep
  split <;> simp

@[simp] theorem State.peerAck_sameRun (s : State) (chip : BitVec 13) (net : Bool) (xid : BitVec 16) :
    SameRun s (s.peerAck chip net xid) := by
  unfold State.peerAck
  dsimp only
  (repeat' split) <;> simp

@[simp] theorem State.resendPeer_sameRun (s : State) (k : StreamId) : SameRun s (s.resendPeer k) := by
  unfold State.resendPeer
  dsimp only
  (repeat' split) <;> simp

@[simp] theorem State.forwardOn_sameRun (s : State) (n : Nat) (out : List Flit) :
    SameRun s (s.forwardOn n out) := by simp [State.forwardOn]

@[simp] theorem State.sentinelArrive_sameRun (s : State) (link : Nat) (flits : List Flit) :
    SameRun s (s.sentinelArrive link flits).1 := by
  unfold State.sentinelArrive
  dsimp only
  (repeat' split) <;> simp

/-! ### Machine.Collect -/

@[simp] theorem State.dropWaiting_sameRun (s : State) (t channel out : Nat) :
    SameRun s (s.dropWaiting t channel out) := by simp [State.dropWaiting]

@[simp] theorem State.reduce_sameRun (s : State) (t channel out : Nat) : SameRun s (s.reduce t channel out) := by
  unfold State.reduce
  split <;> simp

@[simp] theorem State.collect_sameRun (s : State) (t : Nat) (b : BlockMove) : SameRun s (s.collect t b) := by
  unfold State.collect
  split <;> simp

/-! ### Machine.Pass -/

@[simp] theorem State.sramCopy_sameRun (s : State) (t : Nat) (outIndex : Nat) (h : Held) :
    SameRun s (s.sramCopy t outIndex h) := by simp [State.sramCopy]

@[simp] theorem State.countPass_sameRun (s : State) (t : Nat) (p : PassSt) : SameRun s (s.countPass t p) := by
  simp [State.countPass]

@[simp] theorem State.passFailed_sameRun (s : State) (t : Nat) (fs : List Fail) :
    SameRun s (s.passFailed t fs) := by simp [State.passFailed]

@[simp] theorem State.passEnds_sameRun (s : State) (t : Nat) (p : PassSt) : SameRun s (s.passEnds t p) := by
  simp [State.passEnds]

@[simp] theorem State.specialHalt_sameRun (s : State) (t : Nat) (p : PassDesc) (k : Nat) :
    SameRun s (s.specialHalt t p k) := by simp [State.specialHalt]

@[simp] theorem State.specialInfo_sameRun (s : State) (t : Nat) (p : PassDesc) (k : Nat) :
    SameRun s (s.specialInfo t p k) := by simp [State.specialInfo]

@[simp] theorem State.passEnter_sameRun (s : State) (t : Nat) (p : PassDesc) (entry : List EntryFault)
    (x : PassSt) :
    SameRun s (s.passEnter t p entry x) := by
  unfold State.passEnter
  split <;> simp

@[simp] theorem State.passStart_sameRun (s : State) (t : Nat) (p : PassDesc) (entry : List EntryFault) :
    SameRun s (s.passStart t p entry) := by
  unfold State.passStart
  dsimp only
  (repeat' split) <;> simp

@[simp] theorem State.stagingPut_sameRun (s : State) (t : Nat) (h : Held) : SameRun s (s.stagingPut t h) := by
  simp [State.stagingPut]

@[simp] theorem State.drainNext_sameRun (s : State) (t : Nat) (f : DrainFaults) :
    SameRun s (s.drainNext t f) := by
  unfold State.drainNext
  split <;> simp

@[simp] theorem State.rereadAll_sameRun (s : State) (t : Nat) (rs : List ReadReq) (fs : List (Finding × Finding)) :
    SameRun s (s.rereadAll t rs fs).1 := by
  induction rs generalizing s fs with
  | nil => simp [State.rereadAll]
  | cons r rs ih =>
    unfold State.rereadAll
    dsimp only
    split <;> simp [ih]

@[simp] theorem State.rerunDrains_sameRun (s : State) (t : Nat) (p x : PassSt) (fs : List DrainFaults) :
    SameRun s (s.rerunDrains t p x fs) := by simp [State.rerunDrains]

@[simp] theorem State.rerunRun_sameRun (s : State) (t : Nat) (p : PassSt) (entry : List EntryFault)
    (fs : List DrainFaults) :
    SameRun s (s.rerunRun t p entry fs) := by
  unfold State.rerunRun
  split <;> simp

@[simp] theorem State.rereadOperands_sameRun (s : State) (t : Nat) (rs : List ReadReq)
    (reads : List (Finding × Finding)) :
    SameRun s (s.rereadOperands t rs reads).1 := by
  unfold State.rereadOperands
  split <;> simp

@[simp] theorem State.passRerun_sameRun (s : State) (t : Nat) (reads : List (Finding × Finding))
    (entry : List EntryFault) (fs : List DrainFaults) :
    SameRun s (s.passRerun t reads entry fs) := by
  unfold State.passRerun
  split <;> simp

@[simp] theorem State.canonSum_sameRun (s : State) (t : Nat) (c : CanonSum) (f : DrainFaults) :
    SameRun s (s.canonSum t c f) := by simp [State.canonSum]

@[simp] theorem State.blockVerdict_sameRun (s : State) (t : Nat) (f : DrainFaults) :
    SameRun s (s.blockVerdict t f) := by
  unfold State.blockVerdict
  (repeat' split) <;> simp

/-! ### Machine.Fabric -/

@[simp] theorem State.niRing_sameRun (s : State) (t : Nat) (k : HangKind) (cause : Nat) :
    SameRun s (s.niRing t k cause) := by simp [State.niRing]

@[simp] theorem State.xferRing_sameRun (s : State) (t : Nat) (host : Bool) (k : HangKind) :
    SameRun s (s.xferRing t host k) := by simp [State.xferRing]

@[simp] theorem State.toHostMem_sameRun (s : State) (x : Xfer) : SameRun s (s.toHostMem x) := by
  simp [State.toHostMem]

@[simp] theorem State.formHeader_sameRun (s : State) (t : Nat) (x : Xfer) (named : List Nat) :
    SameRun s (s.formHeader t x named) := by simp [State.formHeader]

@[simp] theorem State.resolve_sameRun (s : State) (t : Nat) (x : Xfer) : SameRun s (s.resolve t x) := by
  simp [State.resolve]

@[simp] theorem State.placeBlock_sameRun (s : State) (t : Nat) (dst : BlockAddr) (bs : List Byte) (w : Word) :
    SameRun s (s.placeBlock t dst bs w) := by
  unfold State.placeBlock
  split <;> simp

@[simp] theorem State.refuseMoved_sameRun (s : State) (t : Nat) (b : BlockMove) (w : Word) (c : Check)
    (inj : Option Nat) :
    SameRun s (s.refuseMoved t b w c inj) := by
  unfold State.refuseMoved
  split <;> simp

@[simp] theorem State.storeBlock_sameRun (s : State) (t : Nat) (b : BlockMove) (gen : BitVec 8) :
    SameRun s (s.storeBlock t b gen) := by simp [State.storeBlock]

@[simp] theorem State.ackFenced_sameRun (s : State) (x : XferIn) (gen : BitVec 16) :
    SameRun s (s.ackFenced x gen) := by simp [State.ackFenced]

@[simp] theorem State.placeMoved_sameRun (s : State) (t : Nat) (x : XferIn) (b : BlockMove) (p : List Byte × Word) :
    SameRun s (s.placeMoved t x b p) := by simp [State.placeMoved]

@[simp] theorem State.secondSending_sameRun (s : State) (t : Nat) (x : XferIn) (b : BlockMove) (first : Nat)
    (inj : Option Nat) :
    SameRun s (s.secondSending t x b first inj) := by
  unfold State.secondSending
  dsimp only
  (repeat' split) <;> simp

@[simp] theorem State.askSending_sameRun (s : State) (t : Nat) (x : XferIn) (b : BlockMove) (first : Nat)
    (inj : Option Nat) :
    SameRun s (s.askSending t x b first inj) := by
  unfold State.askSending
  (repeat' split) <;> simp

@[simp] theorem State.receiveBlock_sameRun (s : State) (t : Nat) (x : XferIn) (b : BlockMove) :
    SameRun s (s.receiveBlock t x b) := by
  unfold State.receiveBlock
  dsimp only
  (repeat' split) <;> simp

@[simp] theorem State.takeBlock_sameRun (s : State) (t : Nat) (x : XferIn) (b : BlockMove) :
    SameRun s (s.takeBlock t x b) := by
  unfold State.takeBlock
  split <;> simp

@[simp] theorem State.receive_sameRun (s : State) (t : Nat) (x : XferIn) : SameRun s (s.receive t x) := by
  unfold State.receive
  split <;> simp

@[simp] theorem State.fencedAck_sameRun (s : State) (t id l : Nat) (gen : BitVec 16) :
    SameRun s (s.fencedAck t id l gen) := by
  unfold State.fencedAck
  dsimp only
  (repeat' split) <;> simp

@[simp] theorem State.resolveAgain_sameRun (s : State) (t : Nat) : SameRun s (s.resolveAgain t) := by
  simp [State.resolveAgain]

@[simp] theorem State.xferDone_sameRun (s : State) (t id : Nat) : SameRun s (s.xferDone t id) := by
  simp [State.xferDone]

@[simp] theorem State.blockRelease_sameRun (s : State) (t : Nat) (x : Xfer) : SameRun s (s.blockRelease t x) := by
  unfold State.blockRelease
  dsimp only
  (repeat' split) <;> simp

@[simp] theorem State.sendAll_sameRun (s : State) (t : Nat) (x : Xfer) (go : State → Nat → Xfer → State)
    (hgo : ∀ s t x, SameRun s (go s t x)) :
    SameRun s (s.sendAll t x go) := by
  unfold State.sendAll
  split
  · simp
  · exact hgo s t x

@[simp] theorem State.sendLineage_sameRun (s : State) (t : Nat) (b : BlockMove) :
    SameRun s (s.sendLineage t b) := by
  unfold State.sendLineage
  split <;> simp

@[simp] theorem State.sendNow_sameRun (s : State) (t : Nat) (x : Xfer) : SameRun s (s.sendNow t x) := by
  simp [State.sendNow]

/-! ### Machine.NodeMap -/

@[simp] theorem State.rejected_sameRun (s : State) (t op : Nat) : SameRun s (s.rejected t op) := by
  simp [State.rejected]

@[simp] theorem State.fenceStop_sameRun (s : State) (t how : Nat) : SameRun s (s.fenceStop t how) := by
  simp [State.fenceStop]

@[simp] theorem State.fenceLift_sameRun (s : State) (t : Nat) : SameRun s (s.fenceLift t) := by
  simp [State.fenceLift]

@[simp] theorem State.routerSet_sameRun (s : State) (t : Nat) (closed : Bool) (how : Nat) :
    SameRun s (s.routerSet t closed how) := by simp [State.routerSet]

@[simp] theorem State.toNi_sameRun (s : State) (t op : Nat) (o : BitVec 96) (gen : BitVec 16) :
    SameRun s (s.toNi t op o gen) := by simp [State.toNi]

@[simp] theorem State.drainReply_sameRun (s : State) (t : Nat) : SameRun s (s.drainReply t) := by
  simp [State.drainReply]

@[simp] theorem State.nodeFence_sameRun (s : State) (t op : Nat) (o : BitVec 96) :
    SameRun s (s.nodeFence t op o) := by simp [State.nodeFence]

@[simp] theorem State.nodeCommit_sameRun (s : State) (t : Nat) (o : BitVec 96) :
    SameRun s (s.nodeCommit t o) := by simp [State.nodeCommit]

@[simp] theorem State.nodeLoad_sameRun (s : State) (t : Nat) (o : BitVec 96) (data : List Flit) :
    SameRun s (s.nodeLoad t o data) := by
  unfold State.nodeLoad
  split <;> simp

@[simp] theorem State.niMapApply_sameRun (s : State) (t : Nat) : SameRun s (s.niMapApply t) := by
  simp [State.niMapApply]

@[simp] theorem State.niApplyAll_sameRun (s : State) (t : Nat) : SameRun s (s.niApplyAll t) := by
  simp [State.niApplyAll]

@[simp] theorem State.mapReload_sameRun (s : State) (t : Nat) : SameRun s (s.mapReload t) := by
  simp [State.mapReload]

@[simp] theorem State.mapMark_sameRun (s : State) (t kind : Nat) : SameRun s (s.mapMark t kind) := by
  simp [State.mapMark]

@[simp] theorem State.dropPending_sameRun (s : State) (t : Nat) : SameRun s (s.dropPending t) := by
  simp [State.dropPending]

@[simp] theorem State.fenceSend_sameRun (s : State) (q : FenceReq) (set : Bool) (order : Option Nat) :
    SameRun s (s.fenceSend q set order) := by simp [State.fenceSend]

@[simp] theorem State.commitSend_sameRun (s : State) (l t : Nat) (clearHold : Bool) :
    SameRun s (s.commitSend l t clearHold) := by simp [State.commitSend]

@[simp] theorem State.fenceDone_sameRun (s : State) (o : Outgoing) : SameRun s (s.fenceDone o) := by
  simp [State.fenceDone]

@[simp] theorem State.unfenceDone_sameRun (s : State) (o : Outgoing) (clear : Bool) :
    SameRun s (s.unfenceDone o clear) := by simp [State.unfenceDone]

/-! ### Machine.Contain -/

@[simp] theorem State.raiseDetection_sameRun (s : State) (d : Detection) (code : Nat) (detail : Word) :
    SameRun s (s.raiseDetection d code detail) := by simp [State.raiseDetection]

@[simp] theorem State.detect_sameRun (s : State) (d : Detection) : SameRun s (s.detect d) := by
  unfold State.detect
  dsimp only
  (repeat' split) <;> simp

@[simp] theorem State.taintStart_sameRun (s : State) : SameRun s s.taintStart := by
  unfold State.taintStart
  split <;> simp

@[simp] theorem State.nodeQuery_sameRun (s : State) (t : Nat) (o : BitVec 96) : SameRun s (s.nodeQuery t o) := by
  simp [State.nodeQuery]

@[simp] theorem State.taintClose_sameRun (s : State) : SameRun s s.taintClose := by
  unfold State.taintClose
  split <;> simp

@[simp] theorem State.taintPublish_sameRun (s : State) : SameRun s s.taintPublish := by
  unfold State.taintPublish
  split <;> simp

@[simp] theorem State.reportAck_sameRun (s : State) (v : Word) : SameRun s (s.reportAck v) := by
  unfold State.reportAck
  split <;> simp

/-! ### Machine.Maq -/

@[simp] theorem State.hostUpdate_sameRun (s : State) : SameRun s s.hostUpdate := by
  unfold State.hostUpdate
  obtain ⟨l, hl⟩ := exists_eq_allTiles
  rw [hl]
  simp

@[simp] theorem State.maqTally_sameRun (s : State) (t lo : Nat) : SameRun s (s.maqTally t lo) := by
  simp [State.maqTally]

@[simp] theorem State.newDue_sameRun (s : State) (t : Nat) : SameRun s (s.newDue t) := by
  simp [State.newDue]

@[simp] theorem State.maqCount_sameRun (s : State) (t : Nat) : SameRun s (s.maqCount t) := by
  simp [State.maqCount]

@[simp] theorem State.maqSend_sameRun (s : State) (func slot host logical src exp : Nat) (dests : BitVec 1152)
    (order : Option Nat) :
    SameRun s (s.maqSend func slot host logical src exp dests order) := by simp [State.maqSend]

@[simp] theorem State.maqEnd_sameRun (s : State) (k : Nat) (o : MaqOut) : SameRun s (s.maqEnd k o) := by
  unfold State.maqEnd
  (repeat' split) <;> simp

@[simp] theorem State.maqSample_sameRun (s : State) (t : Nat) (c : Cmd) : SameRun s (s.maqSample t c) := by
  unfold State.maqSample
  dsimp only
  (repeat' split) <;> simp

@[simp] theorem State.maqBegin_sameRun (s : State) (t : Nat) (c : Cmd) : SameRun s (s.maqBegin t c) := by
  simp [State.maqBegin]

@[simp] theorem State.eachSession_sameRun (s : State) (f : State → Nat → Session → State)
    (hf : ∀ s k x, SameRun s (f s k x)) :
    SameRun s (s.eachSession f) := by
  unfold State.eachSession
  refine foldl_sameRun _ _ _ fun s k => ?_
  split
  · exact hf s k _
  · simp

@[simp] theorem State.maqAssign_sameRun (s : State) (t : Nat) : SameRun s (s.maqAssign t) := by
  unfold State.maqAssign
  (repeat' split) <;> simp

@[simp] theorem State.maqAssignAll_sameRun (s : State) : SameRun s s.maqAssignAll := by
  simp [State.maqAssignAll]

@[simp] theorem State.armFailed_sameRun (s : State) (k reason : Nat) : SameRun s (s.armFailed k reason) := by
  unfold State.armFailed
  split <;> simp

@[simp] theorem State.maqReissue_sameRun (s : State) (t k func : Nat) : SameRun s (s.maqReissue t k func) := by
  unfold State.maqReissue
  split <;> simp

@[simp] theorem State.refereeArm_sameRun (s : State) (t k : Nat) (src : Nat) :
    SameRun s (s.refereeArm t k src) := by
  unfold State.refereeArm
  split <;> simp

@[simp] theorem State.nodeMaq_sameRun (s : State) (t func : Nat) (mapgen : BitVec 16) (o : BitVec 96) :
    SameRun s (s.nodeMaq t func mapgen o) := by
  unfold State.nodeMaq
  split <;> simp

@[simp] theorem State.maqReport_sameRun (s : State) (k : Nat) (x : Session) (out reason : Nat) :
    SameRun s (s.maqReport k x out reason) := by simp [State.maqReport]

@[simp] theorem State.maqCompare_sameRun (s : State) (k : Nat) : SameRun s (s.maqCompare k) := by
  unfold State.maqCompare
  (repeat' split) <;> simp

@[simp] theorem State.maqOutcome_sameRun (s : State) (t : Nat) (sm : Summary) :
    SameRun s (s.maqOutcome t sm) := by
  unfold State.maqOutcome
  (repeat' split) <;> simp

@[simp] theorem State.maqDeadline_sameRun (s : State) (k : Nat) : SameRun s (s.maqDeadline k) := by
  unfold State.maqDeadline
  split <;> simp

@[simp] theorem State.maqArmTimeout_sameRun (s : State) (k : Nat) : SameRun s (s.maqArmTimeout k) := by
  unfold State.maqArmTimeout
  split <;> simp

@[simp] theorem State.maqCharge_sameRun (s : State) (t unit b0 : Nat) (cmd : Option Cmd) :
    SameRun s (s.maqCharge t unit b0 cmd) := by simp [State.maqCharge]

@[simp] theorem State.maqArbitrate_sameRun (s : State) (k : Nat) (ref : Option MaqRecord) :
    SameRun s (s.maqArbitrate k ref) := by
  unfold State.maqArbitrate
  split <;> simp

@[simp] theorem State.maqClose_sameRun (s : State) : SameRun s s.maqClose := by
  unfold State.maqClose
  dsimp only
  refine .trans (b := s.eachSession _) (s.eachSession_sameRun _ fun s k x => ?_)
    (State.eachSession_sameRun _ _ fun s k x => ?_)
  · (repeat' split) <;> simp
  · cases x.referee <;> split <;> simp

@[simp] theorem State.maqReferee_sameRun (s : State) (k : Nat) : SameRun s (s.maqReferee k) := by
  unfold State.maqReferee
  (repeat' split) <;> simp

@[simp] theorem State.maqArbitration_sameRun (s : State) (k : Nat) : SameRun s (s.maqArbitration k) := by
  unfold State.maqArbitration
  (repeat' split) <;> simp

@[simp] theorem State.maqFenced_sameRun (s : State) (t : Nat) : SameRun s (s.maqFenced t) := by
  simp [State.maqFenced]

@[simp] theorem State.maqPromoted_sameRun (s : State) (t : Nat) : SameRun s (s.maqPromoted t) := by
  simp [State.maqPromoted]

@[simp] theorem State.maqEndAll_sameRun (s : State) (reason : Nat) : SameRun s (s.maqEndAll reason) := by
  simp [State.maqEndAll]

@[simp] theorem State.maqSourceHalt_sameRun (s : State) (t : Nat) : SameRun s (s.maqSourceHalt t) := by
  simp [State.maqSourceHalt]

@[simp] theorem State.maqReleased_sameRun (s : State) (t : Nat) : SameRun s (s.maqReleased t) := by
  simp [State.maqReleased]

@[simp] theorem State.maqAcked_sameRun (s : State) (o : BitVec 96) : SameRun s (s.maqAcked o) := by
  unfold State.maqAcked
  dsimp only
  (repeat' split) <;> simp

@[simp] theorem State.maqSourceEnd_sameRun (s : State) (t : Nat) (c : Cmd) (outs : List OutBlock) :
    SameRun s (s.maqSourceEnd t c outs) := by
  unfold State.maqSourceEnd
  dsimp only
  (repeat' split) <;> simp

@[simp] theorem State.hostBegin_sameRun (s : State) (t : Nat) (c : Cmd) : SameRun s (s.hostBegin t c) := by
  unfold State.hostBegin
  dsimp only
  (repeat' split) <;> simp

@[simp] theorem State.hostEnd_sameRun (s : State) (t : Nat) (outs : List OutBlock) :
    SameRun s (s.hostEnd t outs) := by
  unfold State.hostEnd
  dsimp only
  (repeat' split) <;> simp

/-! ### Machine.Nvme -/

@[simp] theorem State.nvmeCmd_sameRun (s : State) (c : NvmeCmd) : SameRun s (s.nvmeCmd c) := by
  simp [State.nvmeCmd]

@[simp] theorem State.nvmeRun_sameRun (s : State) (cs : List NvmeCmd) : SameRun s (s.nvmeRun cs) := by
  simp [State.nvmeRun]

@[simp] theorem State.nvmeStart_sameRun (s : State) : SameRun s s.nvmeStart := by simp [State.nvmeStart]

@[simp] theorem State.drainRun_sameRun (s : State) (cs : List NvmeCmd) : SameRun s (s.drainRun cs) := by
  simp [State.drainRun]

@[simp] theorem State.superWrite_sameRun (s : State) (c : SuperCopy) : SameRun s (s.superWrite c).1 := by
  simp [State.superWrite]

/-! ### Machine.Time -/

@[simp] theorem State.ppsEdge_sameRun (s : State) : SameRun s s.ppsEdge := by simp [State.ppsEdge]

@[simp] theorem State.ppsLose_sameRun (s : State) : SameRun s s.ppsLose := by simp [State.ppsLose]

@[simp] theorem State.electSet_sameRun (s : State) (st uplink depth : Nat) (m : Word) :
    SameRun s (s.electSet st uplink depth m) := by simp [State.electSet]

@[simp] theorem State.raiseSkew_sameRun (s : State) : SameRun s s.raiseSkew := by simp [State.raiseSkew]

@[simp] theorem State.electTo_sameRun (s : State) (st uplink depth : Nat) (m : Word) :
    SameRun s (s.electTo st uplink depth m) := by simp [State.electTo]

@[simp] theorem State.timeSplit_sameRun (s : State) (m : Option Word) : SameRun s (s.timeSplit m) := by
  unfold State.timeSplit
  split <;> simp

@[simp] theorem State.elect_sameRun (s : State) (advs : List ElectAdv) : SameRun s (s.elect advs) := by
  unfold State.elect
  dsimp only
  (repeat' split) <;> simp

@[simp] theorem State.judgeSkew_sameRun (s : State) (upMet : Bool) : SameRun s (s.judgeSkew upMet) := by
  simp [State.judgeSkew]

@[simp] theorem State.timex_sameRun (s : State) (x : Option TimexIn) : SameRun s (s.timex x) := by
  unfold State.timex
  (repeat' split) <;> simp

@[simp] theorem State.onePacket_sameRun (s : State) (n kind : Nat) (net : Bool) (body : Flit) :
    SameRun s (s.onePacket n kind net body) := by simp [State.onePacket]

@[simp] theorem State.electSend_sameRun (s : State) : SameRun s s.electSend := by simp [State.electSend]

@[simp] theorem State.takeAdv_sameRun (s : State) (a : ElectAdv) : SameRun s (s.takeAdv a) := by
  simp [State.takeAdv]

@[simp] theorem State.timexReply_sameRun (s : State) (link : Nat) : SameRun s (s.timexReply link) := by
  simp [State.timexReply]

@[simp] theorem State.timeMaster_sameRun (s : State) : SameRun s s.timeMaster := by simp [State.timeMaster]

@[simp] theorem State.domainStop_sameRun (s : State) (d : Nat) (lastEdge : Word) :
    SameRun s (s.domainStop d lastEdge) := by simp [State.domainStop]

@[simp] theorem State.domainGap_sameRun (s : State) (d : Nat) : SameRun s (s.domainGap d) := by
  simp [State.domainGap]

@[simp] theorem State.stopRegion_sameRun (s : State) (g : Nat) : SameRun s (s.stopRegion g) := by
  simp [State.stopRegion]

@[simp] theorem State.countCycle_pending (s : State) : s.countCycle.pending = s.pending := by simp [State.countCycle]

@[simp] theorem State.plinthCycle_pending (s : State) : s.plinthCycle.pending = s.pending := by simp [State.plinthCycle]

/-! ### Machine.Therm -/

@[simp] theorem State.raiseTherm_sameRun (s : State) (sensor code : Nat) (sev : Severity) (detail : Word) :
    SameRun s (s.raiseTherm sensor code sev detail) := by simp [State.raiseTherm]

@[simp] theorem State.bumpTherm_sameRun (s : State) (k : Nat)  :
    SameRun s (s.bumpTherm k) := by simp [State.bumpTherm]

@[simp] theorem State.sensorBad_sameRun (s : State) (n reason : Nat) (v : BitVec 16) :
    SameRun s (s.sensorBad n reason v) := by simp [State.sensorBad]

@[simp] theorem State.sensorRecover_sameRun (s : State) (n : Nat) (r : Option (BitVec 16)) (before : Bool) :
    SameRun s (s.sensorRecover n r before) := by
  unfold State.sensorRecover
  split <;> simp

@[simp] theorem State.sensorTake_sameRun (s : State) (n : Nat) (r : Option (BitVec 16)) :
    SameRun s (s.sensorTake n r) := by
  unfold State.sensorTake
  dsimp only
  (repeat' split) <;> simp

@[simp] theorem State.sensorSample_sameRun (s : State) (n : Nat) (r : Option (BitVec 16)) :
    SameRun s (s.sensorSample n r) := by simp [State.sensorSample]

@[simp] theorem State.thermWarn_sameRun (s : State) : SameRun s s.thermWarn := by
  unfold State.thermWarn
  refine foldl_sameRun _ _ _ fun s g => ?_
  dsimp only
  split <;> simp

@[simp] theorem State.thermReadings_sameRun (s : State) : SameRun s s.thermReadings := by
  simp [State.thermReadings]

@[simp] theorem State.stepEvent_sameRun (s : State) (g old new : Nat) (c : StepCause) :
    SameRun s (s.stepEvent g old new c) := by simp [State.stepEvent]

@[simp] theorem State.regionStep_sameRun (s : State) (g : Nat) : SameRun s (s.regionStep g) := by
  simp [State.regionStep]

@[simp] theorem State.regionBand_sameRun (s : State) (g l : Nat) : SameRun s (s.regionBand g l) := by
  simp [State.regionBand]

@[simp] theorem State.refreshBoundary_sameRun (s : State) (g l : Nat) : SameRun s (s.refreshBoundary g l) := by
  simp [State.refreshBoundary]

@[simp] theorem State.shutdownDecide_sameRun (s : State) : SameRun s s.shutdownDecide := by
  unfold State.shutdownDecide
  (repeat' split) <;> simp

@[simp] theorem State.thermDecide_sameRun (s : State) : SameRun s s.thermDecide := by simp [State.thermDecide]

@[simp] theorem State.raiseWindow_sameRun (s : State) (op layer : Nat) (ended : Bool) (h : Option (Nat × Int))
    (beats : Nat) :
    SameRun s (s.raiseWindow op layer ended h beats) := by simp [State.raiseWindow]

/-! ### Machine.Repair -/

@[simp] theorem State.repairSave_sameRun (s : State) (reason t : Nat) : SameRun s (s.repairSave reason t) := by
  simp [State.repairSave]

@[simp] theorem State.recordChanged_sameRun (s : State) (t : Nat) : SameRun s (s.recordChanged t) := by
  simp [State.recordChanged]

@[simp] theorem State.addRepair_sameRun (s : State) (w : Word) : SameRun s (s.addRepair w) := by
  simp [State.addRepair]

@[simp] theorem State.recordWrite_sameRun (s : State) (ok : Bool) : SameRun s (s.recordWrite ok) := by
  simp [State.recordWrite]

@[simp] theorem State.clearFenceOld_sameRun (s : State) (t : Nat) : SameRun s (s.clearFenceOld t) := by
  simp [State.clearFenceOld]

@[simp] theorem State.applyRow_sameRun (s : State) (w : Word) : SameRun s (s.applyRow w) := by
  simp [State.applyRow]

@[simp] theorem State.fuseCheck_sameRun (s : State) : SameRun s s.fuseCheck.2 := by simp [State.fuseCheck]

@[simp] theorem State.commitEnd_sameRun (s : State) (state : Nat) (st : Status) :
    SameRun s (s.commitEnd state st) := by
  unfold State.commitEnd
  split <;> simp

@[simp] theorem State.commitNext_sameRun (s : State) (id i n : Nat) : SameRun s (s.commitNext id i n) := by
  unfold State.commitNext
  split <;> simp

@[simp] theorem State.commitStart_sameRun (s : State) (id : Nat) : SameRun s (s.commitStart id) := by
  simp [State.commitStart]

@[simp] theorem State.progResult_sameRun (s : State) (v : Word) : SameRun s (s.progResult v) := by
  unfold State.progResult
  split <;> simp

@[simp] theorem State.commitTick_sameRun (s : State) : SameRun s s.commitTick := by simp [State.commitTick]

/-! ### Machine.Chisel -/

@[simp] theorem State.chiselDue_sameRun (s : State) (t : Nat) : SameRun s (s.chiselDue t) := by
  simp [State.chiselDue]

@[simp] theorem State.chiselCall_sameRun (s : State) (t cause : Nat) (units : BitVec 16) :
    SameRun s (s.chiselCall t cause units) := by
  unfold State.chiselCall
  dsimp only
  (repeat' split) <;> simp

@[simp] theorem State.chiselSuspect_sameRun (s : State) (t : Nat) : SameRun s (s.chiselSuspect t) := by
  simp [State.chiselSuspect]

@[simp] theorem State.chiselPend_sameRun (s : State) (t : Nat) : SameRun s (s.chiselPend t) := by
  simp [State.chiselPend]

@[simp] theorem State.chiselForce_sameRun (s : State) (t : Nat) : SameRun s (s.chiselForce t) := by
  simp [State.chiselForce]

@[simp] theorem State.scanEnds_sameRun (s : State) : SameRun s s.scanEnds := by
  unfold State.scanEnds
  refine foldl_sameRun _ _ _ fun s e => ?_
  split <;> simp

@[simp] theorem State.deferTick_sameRun (s : State) : SameRun s s.deferTick := by simp [State.deferTick]

@[simp] theorem State.voidTile_sameRun (s : State) (t : Nat) : SameRun s (s.voidTile t) := by
  simp [State.voidTile]

@[simp] theorem State.voidRegion_sameRun (s : State) (g : Nat) : SameRun s (s.voidRegion g) := by
  simp [State.voidRegion]

@[simp] theorem State.windowLeft_sameRun (s old : State) (g : Nat) : SameRun s (s.windowLeft old g) := by
  simp [State.windowLeft]

@[simp] theorem State.windowsLeft_sameRun (s old : State) : SameRun s (s.windowsLeft old) := by
  simp [State.windowsLeft]

@[simp] theorem State.chiselTick_sameRun (s old : State) : SameRun s (s.chiselTick old) := by
  simp [State.chiselTick]

@[simp] theorem State.chiselSend_sameRun (s : State) (op t : Nat) (o : BitVec 96) :
    SameRun s (s.chiselSend op t o) := by simp [State.chiselSend]

@[simp] theorem State.armTile_sameRun (s : State) (t k role other : Nat) (units segs : BitVec 16)
    (session : BitVec 32) :
    SameRun s (s.armTile t k role other units segs session) := by simp [State.armTile]

@[simp] theorem State.armPair_sameRun (s : State) (t : Nat) : SameRun s (s.armPair t) := by
  unfold State.armPair
  dsimp only
  (repeat' split) <;> simp

@[simp] theorem State.armWitnessFor_sameRun (s : State) (t g : Nat) : SameRun s (s.armWitnessFor t g) := by
  unfold State.armWitnessFor
  (repeat' split) <;> simp

@[simp] theorem State.armWitness_sameRun (s : State) (t : Nat) : SameRun s (s.armWitness t) := by
  simp [State.armWitness]

@[simp] theorem State.chiselArmAll_sameRun (s : State) : SameRun s s.chiselArmAll := by simp [State.chiselArmAll]

@[simp] theorem State.dropSlot_sameRun (s : State) (t : Nat) : SameRun s (s.dropSlot t) := by
  unfold State.dropSlot
  split <;> simp

@[simp] theorem State.liftHold_sameRun (s : State) (t : Nat) : SameRun s (s.liftHold t) := by
  unfold State.liftHold
  split <;> simp

@[simp] theorem State.disarmOne_sameRun (s : State) (t : Nat) : SameRun s (s.disarmOne t) := by
  unfold State.disarmOne
  split <;> simp

@[simp] theorem State.disarm_sameRun (s : State) (t : Nat) : SameRun s (s.disarm t) := by
  unfold State.disarm
  dsimp only
  (repeat' split) <;> simp

@[simp] theorem State.chiselArmWait_sameRun (s : State) (t : Nat) : SameRun s (s.chiselArmWait t) := by
  simp [State.chiselArmWait]

@[simp] theorem State.chiselSay_sameRun (s : State) (t rkind seg : Nat) (vals : List Word) :
    SameRun s (s.chiselSay t rkind seg vals) := by simp [State.chiselSay]

@[simp] theorem State.chiselReady_sameRun (s : State) (t : Nat) : SameRun s (s.chiselReady t) := by
  simp [State.chiselReady]

@[simp] theorem State.seedSend_sameRun (s : State) (t : Nat) : SameRun s (s.seedSend t) := by
  unfold State.seedSend
  (repeat' split) <;> simp

@[simp] theorem State.beginTile_sameRun (s : State) (t : Nat) : SameRun s (s.beginTile t) := by
  unfold State.beginTile
  split <;> simp

@[simp] theorem State.chiselStart_sameRun (s : State) (t : Nat) : SameRun s (s.chiselStart t) := by
  unfold State.chiselStart
  split <;> simp

@[simp] theorem State.raiseStarved_sameRun (s : State) (t cause : Nat) : SameRun s (s.raiseStarved t cause) := by
  simp [State.raiseStarved]

@[simp] theorem State.starveRestart_sameRun (s : State) (t : Nat) : SameRun s (s.starveRestart t) := by
  simp [State.starveRestart]

@[simp] theorem State.chiselStarve_sameRun (s : State) (t : Nat) : SameRun s (s.chiselStarve t) := by
  simp [State.chiselStarve]

@[simp] theorem State.testHoldDrained_sameRun (s : State) (t : Nat) : SameRun s (s.testHoldDrained t) := by
  -- the definition with the list of tiles under a name, so that its fold is never evaluated
  obtain ⟨f, hf⟩ : ∃ f, f = State.testHoldDrained := ⟨_, rfl⟩
  obtain ⟨l, hl⟩ := exists_eq_allTiles
  rw [← hf]
  delta State.testHoldDrained at hf
  rw [hl] at hf
  subst hf
  dsimp only
  split <;> simp

@[simp] theorem State.voidSlices_sameRun (s : State) : SameRun s s.voidSlices := by simp [State.voidSlices]

@[simp] theorem State.segDecide_sameRun (s : State) (t g : Nat) (v : SegVerdict) (bad : List Nat) :
    SameRun s (s.segDecide t g v bad) := by simp [State.segDecide]

@[simp] theorem State.marchLeft_sameRun (s : State) (t g : Nat) : SameRun s (s.marchLeft t g) := by
  simp [State.marchLeft]

@[simp] theorem State.judgeStruct_sameRun (s : State) (t g : Nat) (vs : List Word) :
    SameRun s (s.judgeStruct t g vs) := by simp [State.judgeStruct]

@[simp] theorem State.dispute_sameRun (s : State) (t g : Nat) : SameRun s (s.dispute t g) := by
  simp [State.dispute]

@[simp] theorem State.judgeCross_sameRun (s : State) (t p g : Nat) : SameRun s (s.judgeCross t p g) := by
  simp [State.judgeCross]

@[simp] theorem State.witnessDecide_sameRun (s : State) (t p g : Nat) (w : Option (List Word)) :
    SameRun s (s.witnessDecide t p g w) := by simp [State.witnessDecide]

@[simp] theorem State.segStart_sameRun (s : State) (t : Nat) (segs : BitVec 16) :
    SameRun s (s.segStart t segs) := by simp [State.segStart]

@[simp] theorem State.takeResult_sameRun (s : State) (t g : Nat) (vs : List Word) :
    SameRun s (s.takeResult t g vs) := by
  unfold State.takeResult
  dsimp only
  (repeat' split) <;> simp

@[simp] theorem State.segmentResult_sameRun (s : State) (t : Nat) (r : SegResult) :
    SameRun s (s.segmentResult t r) := by simp [State.segmentResult]

@[simp] theorem State.witnessLate_sameRun (s : State) (t p g : Nat) : SameRun s (s.witnessLate t p g) := by
  unfold State.witnessLate
  dsimp only
  (repeat' split) <;> simp

@[simp] theorem State.witnessExpiry_sameRun (s : State) (t : Nat) : SameRun s (s.witnessExpiry t) := by
  unfold State.witnessExpiry
  split <;> simp

@[simp] theorem State.chiselListDone_sameRun (s : State) (t : Nat) : SameRun s (s.chiselListDone t) := by
  simp [State.chiselListDone]

@[simp] theorem State.chiselFinish_sameRun (s : State) (t func reason : Nat) :
    SameRun s (s.chiselFinish t func reason) := by
  unfold State.chiselFinish
  split <;> simp

@[simp] theorem State.chiselHolding_sameRun (s : State) (t : Nat) : SameRun s (s.chiselHolding t) := by
  unfold State.chiselHolding
  split <;> simp

@[simp] theorem State.chiselHoldAll_sameRun (s : State) : SameRun s s.chiselHoldAll := by
  simp [State.chiselHoldAll]

@[simp] theorem State.sessionExpiry_sameRun (s : State) (t : Nat) : SameRun s (s.sessionExpiry t) := by
  unfold State.sessionExpiry
  split <;> simp

@[simp] theorem State.chiselReport_sameRun (s : State) (t partner : Nat) :
    SameRun s (s.chiselReport t partner) := by
  unfold State.chiselReport
  dsimp only
  (repeat' split) <;> simp

@[simp] theorem State.chiselCredit_sameRun (s : State) (t : Nat) : SameRun s (s.chiselCredit t) := by
  simp [State.chiselCredit]

@[simp] theorem State.chiselTaint_sameRun (s : State) (t : Nat) (units : List Nat) :
    SameRun s (s.chiselTaint t units) := by simp [State.chiselTaint]

@[simp] theorem State.chiselRepair_sameRun (s : State) (t : Nat) (rep : Repair) (seg : Nat) :
    SameRun s (s.chiselRepair t rep seg) := by
  unfold State.chiselRepair
  split <;> simp

@[simp] theorem State.chiselRestore_sameRun (s : State) (t : Nat) : SameRun s (s.chiselRestore t) := by
  simp [State.chiselRestore]

@[simp] theorem State.chiselRelease_sameRun (s : State) (t : Nat) : SameRun s (s.chiselRelease t) := by
  simp [State.chiselRelease]

@[simp] theorem State.chiselOver_sameRun (s : State) (t : Nat) : SameRun s (s.chiselOver t) := by
  simp [State.chiselOver]

@[simp] theorem State.chiselEnd_sameRun (s : State) (t : Nat) : SameRun s (s.chiselEnd t) := by
  unfold State.chiselEnd
  dsimp only
  (repeat' split) <;> simp

@[simp] theorem State.chiselAbortAll_sameRun (s : State) (reason : Nat) :
    SameRun s (s.chiselAbortAll reason) := by
  unfold State.chiselAbortAll
  refine foldl_sameRun _ _ _ fun s t => ?_
  dsimp only
  split <;> simp

@[simp] theorem State.chiselShutdown_sameRun (s : State) : SameRun s s.chiselShutdown := by
  unfold State.chiselShutdown
  refine foldl_sameRun _ _ _ fun s t => ?_
  dsimp only
  split <;> simp

@[simp] theorem State.chiselFenced_sameRun (s : State) (t : Nat) : SameRun s (s.chiselFenced t) := by
  simp [State.chiselFenced]

@[simp] theorem State.chiselNowDo_sameRun (s : State) (t : Nat) (units : BitVec 16) (order : Nat) :
    SameRun s (s.chiselNowDo t units order) := by simp [State.chiselNowDo]

@[simp] theorem State.deferTile_sameRun (s : State) (t beats : Nat) : SameRun s (s.deferTile t beats) := by
  simp [State.deferTile]

/-! ### Machine.Mould -/

@[simp] theorem State.mouldWrite_sameRun (s : State) (t : Nat) (m : CastMould) :
    SameRun s (s.mouldWrite t m) := by simp [State.mouldWrite]

@[simp] theorem State.mouldCopy_sameRun (s : State) (t l : Nat) : SameRun s (s.mouldCopy t l) := by
  unfold State.mouldCopy
  split <;> simp

@[simp] theorem State.mirrorMould_sameRun (s : State) (t : Nat) : SameRun s (s.mirrorMould t) := by
  unfold State.mirrorMould
  split <;> simp

@[simp] theorem State.castLate_sameRun (s : State) (t l : Nat) : SameRun s (s.castLate t l) := by
  unfold State.castLate
  split <;> simp

/-! ### Machine.Patina -/

@[simp] theorem State.raiseLevel_sameRun (s : State) (t old new cause score : Nat) :
    SameRun s (s.raiseLevel t old new cause score) := by simp [State.raiseLevel]

@[simp] theorem State.levelChange_sameRun (s : State) (t old new cause score : Nat) :
    SameRun s (s.levelChange t old new cause score) := by
  simp [State.levelChange]

@[simp] theorem State.patinaTile_sameRun (s : State) (t : Nat) : SameRun s (s.patinaTile t) := by
  simp [State.patinaTile]

@[simp] theorem State.patinaUpdate_sameRun (s : State) : SameRun s s.patinaUpdate := by simp [State.patinaUpdate]

@[simp] theorem State.holdBoundary_sameRun (s : State) (t : Nat) : SameRun s (s.holdBoundary t) := by
  simp [State.holdBoundary]

@[simp] theorem State.fenceHooks_sameRun (s : State) (t : Nat) : SameRun s (s.fenceHooks t) := by
  simp [State.fenceHooks]

@[simp] theorem State.fenceTile_sameRun (s : State) (t kind : Nat) (fence hold : Bool) (order : Option Nat) :
    SameRun s (s.fenceTile t kind fence hold order) := by simp [State.fenceTile]

@[simp] theorem State.promoteFail_sameRun (s : State) (reason t l : Nat) :
    SameRun s (s.promoteFail reason t l) := by simp [State.promoteFail]

@[simp] theorem State.modPromotion_sameRun (s : State) (l : Nat) (f : Promotion → Promotion) :
    SameRun s (s.modPromotion l f) := by simp [State.modPromotion]

@[simp] theorem State.promoteFence_sameRun (s : State) (t kind : Nat) (target order : Option Nat) (saved : Bool) :
    SameRun s (s.promoteFence t kind target order saved) := by
  unfold State.promoteFence
  split <;> simp

@[simp] theorem State.quarantine_sameRun (s : State) (t : Nat) : SameRun s (s.quarantine t) := by
  simp [State.quarantine]

@[simp] theorem State.patinaAction_sameRun (s : State) (a : Nat × Nat × Nat) : SameRun s (s.patinaAction a) := by
  simp [State.patinaAction]

@[simp] theorem State.boundaryFences_sameRun (s : State) : SameRun s s.boundaryFences := by
  simp [State.boundaryFences]

@[simp] theorem State.targetLost_sameRun (s : State) (p : Promotion) : SameRun s (s.targetLost p) := by
  simp [State.targetLost]

@[simp] theorem State.migrateStart_sameRun (s : State) (p : Promotion) : SameRun s (s.migrateStart p) := by
  unfold State.migrateStart
  dsimp only
  (repeat' split) <;> simp

@[simp] theorem State.targetsCheck_sameRun (s : State) : SameRun s s.targetsCheck := by simp [State.targetsCheck]

@[simp] theorem State.patinaDispatch_sameRun (s : State) : SameRun s s.patinaDispatch := by
  simp [State.patinaDispatch]

@[simp] theorem State.promotionSaved_sameRun (s : State) (l : Nat) (timedOut : Bool) :
    SameRun s (s.promotionSaved l timedOut) := by
  unfold State.promotionSaved
  split <;> simp

@[simp] theorem State.migrate_sameRun (s : State) (p u : Nat) : SameRun s (s.migrate p u) := by
  simp [State.migrate]

@[simp] theorem State.promotionMigrated_sameRun (s : State) (l uncorr : Nat) :
    SameRun s (s.promotionMigrated l uncorr) := by
  unfold State.promotionMigrated
  (repeat' split) <;> simp

@[simp] theorem State.promotionRestored_sameRun (s : State) (l : Nat) : SameRun s (s.promotionRestored l) := by
  unfold State.promotionRestored
  (repeat' split) <;> simp

@[simp] theorem State.promoteDone_sameRun (s : State) (l : Nat) : SameRun s (s.promoteDone l) := by
  unfold State.promoteDone
  (repeat' split) <;> simp

@[simp] theorem State.promotionResume_sameRun (s : State) (l : Nat) : SameRun s (s.promotionResume l) := by
  unfold State.promotionResume
  split <;> simp

@[simp] theorem State.fenceDo_sameRun (s : State) (t mode id : Nat) : SameRun s (s.fenceDo t mode id) := by
  simp [State.fenceDo]

@[simp] theorem State.clearPatina_sameRun (s : State) (t : Nat) : SameRun s (s.clearPatina t) := by
  simp [State.clearPatina]

@[simp] theorem State.unfenceDo_sameRun (s : State) (t : Nat) (clear : Bool) (id : Nat) :
    SameRun s (s.unfenceDo t clear id) := by simp [State.unfenceDo]

@[simp] theorem State.promoteDo_sameRun (s : State) (l : Nat) (target : Option Nat) (id : Nat) :
    SameRun s (s.promoteDo l target id) := by
  unfold State.promoteDo
  split <;> simp

@[simp] theorem State.releaseStart_sameRun (s : State) (r : Rect) (id : Nat) :
    SameRun s (s.releaseStart r id) := by simp [State.releaseStart]

@[simp] theorem State.scrubTile_sameRun (s : State) (t : Nat) : SameRun s (s.scrubTile t) := by
  simp [State.scrubTile]

@[simp] theorem State.releaseScrubbed_sameRun (s : State) : SameRun s s.releaseScrubbed := by
  unfold State.releaseScrubbed
  split <;> simp

@[simp] theorem State.releaseDone_sameRun (s : State) (a : Rect) : SameRun s (s.releaseDone a) := by
  unfold State.releaseDone
  split <;> simp

/-! ### Machine.Stack -/

@[simp] theorem State.serve_sameRun (s : State) (a : StackAcc) : SameRun s (s.serve a) := by
  unfold State.serve
  split <;> simp

@[simp] theorem State.stackAccess_sameRun (s : State) (a : StackAcc) : SameRun s (s.stackAccess a) := by
  unfold State.stackAccess
  split <;> simp

@[simp] theorem State.sendAfter_sameRun (s : State) (t : Nat) (x : Xfer) : SameRun s (s.sendAfter t x) := by
  simp [State.sendAfter]

@[simp] theorem State.runJob_sameRun (s : State) (q : StackReq) : SameRun s (s.runJob q) := by
  unfold State.runJob
  split <;> simp

@[simp] theorem State.askAgain_sameRun (s : State) (q : StackReq) : SameRun s (s.askAgain q) := by
  unfold State.askAgain
  split <;> simp

@[simp] theorem State.serveHolds_sameRun (s : State) : SameRun s s.serveHolds := by simp [State.serveHolds]

@[simp] theorem State.serveStops_sameRun (s : State) : SameRun s s.serveStops := by simp [State.serveStops]

@[simp] theorem State.serveHeld_sameRun (s : State) (t : Nat) : SameRun s (s.serveHeld t) := by
  simp [State.serveHeld]

@[simp] theorem State.serveWaits_sameRun (s : State) (k l : Nat) : SameRun s (s.serveWaits k l) := by
  simp [State.serveWaits]

@[simp] theorem State.nearbankCommand_sameRun (s : State) (t : Nat) (n : NearBank) :
    SameRun s (s.nearbankCommand t n) := by
  unfold State.nearbankCommand
  dsimp only
  (repeat' split) <;> simp

@[simp] theorem State.nbEnd_sameRun (s : State) (k : Nat) (r : NbRun) (bytes : List Byte) :
    SameRun s (s.nbEnd k r bytes) := by simp [State.nbEnd]

@[simp] theorem State.nbTime_pending (s : State) (r : NbRun) (cycles : Nat) :
    (s.nbTime r cycles).pending = s.pending := by
  simp [State.nbTime]

@[simp] theorem State.nearbankComplete_pending (s : State) (t l bank cycles : Nat) :
    (s.nearbankComplete t l bank cycles).pending = s.pending := by
  unfold State.nearbankComplete
  dsimp only
  (repeat' split) <;> simp

@[simp] theorem State.drawBytes_sameRun (s : State) (n : Nat) : SameRun s (s.drawBytes n).2 := by
  simp [State.drawBytes]

@[simp] theorem State.nbHung_pending (s : State) (t l bank : Nat) : (s.nbHung t l bank).pending = s.pending := by
  unfold State.nbHung
  dsimp only
  (repeat' split) <;> simp

@[simp] theorem State.refreshDue_sameRun (s : State) (t l bank : Nat) : SameRun s (s.refreshDue t l bank) := by
  simp [State.refreshDue]

@[simp] theorem State.nbFinishAll_sameRun (s : State) : SameRun s s.nbFinishAll := by
  unfold State.nbFinishAll
  refine foldl_sameRun _ _ _ fun s e => ?_
  split <;> simp

@[simp] theorem State.mrTick_sameRun (s : State) : SameRun s s.mrTick := by
  unfold State.mrTick
  refine foldl_sameRun _ _ _ fun s l => ?_
  dsimp only
  split <;> simp

@[simp] theorem State.convertEnd_sameRun (s : State) (l : Nat) (c : Convert) : SameRun s (s.convertEnd l c) := by
  simp [State.convertEnd]

@[simp] theorem State.reencodeStep_sameRun (s : State) (t l : Nat) : SameRun s (s.reencodeStep t l) := by
  unfold State.reencodeStep
  split <;> simp

@[simp] theorem State.patrolFind_sameRun (s : State) (t l b : Nat) (e : EccFinding) :
    SameRun s (s.patrolFind t l b e) := by
  unfold State.patrolFind
  split <;> simp

@[simp] theorem State.patrolBegin_sameRun (s : State) (l : Nat) : SameRun s (s.patrolBegin l) := by
  simp [State.patrolBegin]

@[simp] theorem State.patrolVisit_sameRun (s : State) (t l b : Nat) (e : EccFinding) :
    SameRun s (s.patrolVisit t l b e) := by simp [State.patrolVisit]

@[simp] theorem State.wsetHash_sameRun (s : State) (w fmt : Nat) (ue : List (Nat × Nat)) :
    SameRun s (s.wsetHash w fmt ue) := by
  unfold State.wsetHash
  dsimp only
  (repeat' split) <;> simp

/-! ### Machine.Cast -/

@[simp] theorem State.modRun_sameRun (s : State) (f : CastRun → CastRun) : SameRun s (s.modRun f) := by
  simp [State.modRun]

@[simp] theorem State.restoreWindow_sameRun (s : State) (l y : Nat) (ended : Bool) (beats : Nat) :
    SameRun s (s.restoreWindow l y ended beats) := by simp [State.restoreWindow]

@[simp] theorem State.resumeSend_sameRun (s : State) : SameRun s s.resumeSend := by simp [State.resumeSend]

@[simp] theorem State.pauseSend_sameRun (s : State) (func : Nat) : SameRun s (s.pauseSend func) := by
  simp [State.pauseSend]

@[simp] theorem State.deferEnd_sameRun (s : State) : SameRun s s.deferEnd := by
  unfold State.deferEnd
  (repeat' split) <;> simp

@[simp] theorem State.redirty_sameRun (s : State) (r : CastRun) : SameRun s (s.redirty r) := by
  simp [State.redirty]

@[simp] theorem State.castFail_sameRun (s : State) (reason : Nat) (st : Status) :
    SameRun s (s.castFail reason st) := by
  unfold State.castFail
  dsimp only
  (repeat' split) <;> simp

@[simp] theorem State.castWindow_sameRun (s : State) : SameRun s s.castWindow := by
  unfold State.castWindow
  (repeat' split) <;> simp

@[simp] theorem State.castQuiesce_pending (s : State) (cyc : Nat) : (s.castQuiesce cyc).pending = s.pending := by
  unfold State.castQuiesce
  split <;> simp

@[simp] theorem State.gatherExpiry_sameRun (s : State) : SameRun s s.gatherExpiry := by
  unfold State.gatherExpiry
  split <;> simp

@[simp] theorem State.pauseCopy_sameRun (s : State) (t : Nat) : SameRun s (s.pauseCopy t) := by
  unfold State.pauseCopy
  split <;> simp

@[simp] theorem State.gapCopies_sameRun (s : State) (d : Nat) : SameRun s (s.gapCopies d) := by
  simp [State.gapCopies]

@[simp] theorem State.castCopied_pending (s : State) (cyc : Nat) : (s.castCopied cyc).pending = s.pending := by
  unfold State.castCopied
  split <;> simp

@[simp] theorem State.drainStart_sameRun (s : State) : SameRun s s.drainStart := by
  unfold State.drainStart
  split
  · simp
  · rename_i r _
    dsimp only
    generalize hu : (if s.logFree < r.size then s else _) = u
    have h : SameRun s u := by subst hu; split <;> simp
    split
    · refine .trans ?_ (foldl_sameRun _ _ _ fun s e => by simp)
      split <;> simp [h, -List.foldl_reverse]
    · simp [h]

@[simp] theorem State.promotionsGo_sameRun (s : State) : SameRun s s.promotionsGo := by simp [State.promotionsGo]

@[simp] theorem State.pauseOver_sameRun (s : State) : SameRun s s.pauseOver := by
  unfold State.pauseOver
  split <;> simp

@[simp] theorem State.restartStream_sameRun (s : State) (t : Nat) : SameRun s (s.restartStream t) := by
  simp [State.restartStream]

@[simp] theorem State.nodeResume_sameRun (s : State) (t : Nat) : SameRun s (s.nodeResume t) := by
  simp [State.nodeResume]

@[simp] theorem State.resumeLate_sameRun (s : State) : SameRun s s.resumeLate := by simp [State.resumeLate]

@[simp] theorem State.castNext_sameRun (s : State) : SameRun s s.castNext := by
  unfold State.castNext
  split <;> simp

@[simp] theorem State.mouldDrained_sameRun (s : State) (t : Nat) : SameRun s (s.mouldDrained t) := by
  unfold State.mouldDrained
  (repeat' split) <;> simp

@[simp] theorem State.castDurable_sameRun (s : State) : SameRun s s.castDurable := by
  unfold State.castDurable
  split <;> simp

@[simp] theorem State.castStoreError_sameRun (s : State) : SameRun s s.castStoreError := by
  simp [State.castStoreError]

@[simp] theorem State.castStart_sameRun (s : State) (operand : BitVec 48) (id : Nat) :
    SameRun s (s.castStart operand id) := by simp [State.castStart]

@[simp] theorem State.restoreStart_sameRun (s : State) (operand : BitVec 48) (id : Nat) :
    SameRun s (s.restoreStart operand id) := by simp [State.restoreStart]

@[simp] theorem State.bindStart_sameRun (s : State) (operand : BitVec 48) (answer : Option PartnerAnswer)
    (id : Nat) :
    SameRun s (s.bindStart operand answer id) := by
  unfold State.bindStart
  split <;> simp

@[simp] theorem State.unbindStart_sameRun (s : State) (id : Nat) : SameRun s (s.unbindStart id) := by
  simp [State.unbindStart]

@[simp] theorem State.mirrorSuper_sameRun (s : State) (h : List Byte) : SameRun s (s.mirrorSuper h) := by
  simp [State.mirrorSuper]

@[simp] theorem State.mirrorReceive_sameRun (s : State) (chip : BitVec 13) (xid : BitVec 16)
    (blocks : List (List Byte)) (flushed : Bool) :
    SameRun s (s.mirrorReceive chip xid blocks flushed) := by simp [State.mirrorReceive]

@[simp] theorem State.restoreFail_sameRun (s : State) (reason tile low : Nat) (part : Bool) (st : Status) :
    SameRun s (s.restoreFail reason tile low part st) := by
  unfold State.restoreFail
  split <;> simp

@[simp] theorem State.restoreStop_sameRun (s : State) (chain : List CastRec) (n : BitVec 32) (id : Option Nat) :
    SameRun s (s.restoreStop chain n id) := by
  unfold State.restoreStop
  split <;> simp

@[simp] theorem State.restoreValidated_sameRun (s : State) (w : RestoreWalk) :
    SameRun s (s.restoreValidated w) := by
  unfold State.restoreValidated
  dsimp only
  (repeat' split) <;> simp

@[simp] theorem State.restoreWrite_sameRun (s : State) (r : CastRun) (l : Nat) :
    SameRun s (s.restoreWrite r l) := by
  unfold State.restoreWrite
  dsimp only
  (repeat' split) <;> simp

@[simp] theorem State.restoreTile_sameRun (s : State) (l : Nat) : SameRun s (s.restoreTile l) := by
  unfold State.restoreTile
  dsimp only
  (repeat' split) <;> simp

@[simp] theorem State.restoreUnhold_sameRun (s : State) : SameRun s s.restoreUnhold := by
  simp [State.restoreUnhold]

@[simp] theorem State.restoreDone_sameRun (s : State) : SameRun s s.restoreDone := by
  unfold State.restoreDone
  split <;> simp

@[simp] theorem State.windowTimeout_sameRun (s : State) : SameRun s s.windowTimeout := by
  unfold State.windowTimeout
  (repeat' split) <;> simp

@[simp] theorem State.castLateAt_sameRun (s : State) (t : Nat) : SameRun s (s.castLateAt t) := by
  unfold State.castLateAt
  split <;> simp

@[simp] theorem State.reinitDone_sameRun (s : State) (t : Nat) (stuck : Option Nat) :
    SameRun s (s.reinitDone t stuck) := by simp [State.reinitDone]

@[simp] theorem State.chiselEndAll_sameRun (s : State) : SameRun s s.chiselEndAll := by simp [State.chiselEndAll]

/-! ### Machine.Work -/

@[simp] theorem State.watchEnd_sameRun (s : State) (t : Nat) (c : Cmd) (outs : List OutBlock) :
    SameRun s (s.watchEnd t c outs) := by simp [State.watchEnd]

@[simp] theorem State.settleReset_sameRun (s : State) (t : Nat) : SameRun s (s.settleReset t) := by
  unfold State.settleReset
  split <;> simp

@[simp] theorem State.resetTime_sameRun (s : State) : SameRun s s.resetTime.2 := by simp [State.resetTime]

@[simp] theorem State.firstCycle_sameRun (s : State) (t : Nat) (c : Cmd) : SameRun s (s.firstCycle t c) := by
  simp [State.firstCycle]

@[simp] theorem State.startCommand_sameRun (s : State) (t : Nat) (c : Cmd) :
    SameRun s (s.startCommand t c).1 := by
  unfold State.startCommand
  dsimp only
  (repeat' split) <;> simp

@[simp] theorem State.commandBegin_pending (s : State) (t : Nat) (c : Cmd) (cyc : Nat) :
    (s.commandBegin t c cyc).pending = s.pending := by simp [State.commandBegin]

@[simp] theorem State.restartCommand_sameRun (s : State) (t : Nat) : SameRun s (s.restartCommand t) := by
  unfold State.restartCommand
  split <;> simp

@[simp] theorem State.countCommand_sameRun (s : State) (t : Nat) (e : CmdEnd) :
    SameRun s (s.countCommand t e) := by simp [State.countCommand]

@[simp] theorem State.syncRecords_sameRun (s : State) (t : Nat) (c : Cmd) (ws : List SemWait) :
    SameRun s (s.syncRecords t c ws) := by simp [State.syncRecords]

@[simp] theorem State.sealOutputs_sameRun (s : State) (t : Nat) (outs : List OutBlock) :
    SameRun s (s.sealOutputs t outs).1 := by
  unfold State.sealOutputs
  refine foldl_fst_sameRun _ _ _ fun a o => ?_
  dsimp only
  (repeat' split) <;> simp

@[simp] theorem State.feedDigests_sameRun (s : State) (t : Nat) (c : Cmd) (e : CmdEnd) :
    SameRun s (s.feedDigests t c e) := by
  unfold State.feedDigests
  split <;> simp

@[simp] theorem State.commandDone_sameRun (s : State) (t : Nat) (c : Cmd) (e : CmdEnd) :
    SameRun s (s.commandDone t c e) := by simp [State.commandDone]

@[simp] theorem State.hostDone_sameRun (s : State) (t : Nat) (e : CmdEnd) : SameRun s (s.hostDone t e) := by
  simp [State.hostDone]

@[simp] theorem State.commandEnd_pending (s : State) (t : Nat) (e : CmdEnd) :
    (s.commandEnd t e).pending = s.pending := by
  unfold State.commandEnd
  (repeat' split) <;> simp

/-! ### Machine.NodeOps -/

@[simp] theorem State.stateEntry_sameRun (s : State) (t : Nat) : SameRun s (s.stateEntry t) := by
  simp [State.stateEntry]

@[simp] theorem State.nodeFreeze_sameRun (s : State) (t : Nat) : SameRun s (s.nodeFreeze t) := by
  simp [State.nodeFreeze]

@[simp] theorem State.nodePause_sameRun (s : State) (t : Nat) : SameRun s (s.nodePause t) := by
  simp [State.nodePause]

@[simp] theorem State.nodeChiselArm_sameRun (s : State) (t : Nat) (o : BitVec 96) :
    SameRun s (s.nodeChiselArm t o) := by simp [State.nodeChiselArm]

@[simp] theorem State.nodeChiselContinue_sameRun (s : State) (t : Nat) (o : BitVec 96) :
    SameRun s (s.nodeChiselContinue t o) := by simp [State.nodeChiselContinue]

@[simp] theorem State.nodeChiselStart_sameRun (s : State) (t : Nat) (o : BitVec 96) :
    SameRun s (s.nodeChiselStart t o) := by simp [State.nodeChiselStart]

@[simp] theorem State.nodeDisarm_sameRun (s : State) (t : Nat) : SameRun s (s.nodeDisarm t) := by
  simp [State.nodeDisarm]

@[simp] theorem State.nodeReinit_sameRun (s : State) (t : Nat) (o : BitVec 96) :
    SameRun s (s.nodeReinit t o) := by
  unfold State.nodeReinit
  split <;> simp

@[simp] theorem State.nodeChiselAbort_sameRun (s : State) (t : Nat) (o : BitVec 96) :
    SameRun s (s.nodeChiselAbort t o) := by simp [State.nodeChiselAbort]

@[simp] theorem State.nodeSeedLoad_sameRun (s : State) (t : Nat) (o : BitVec 96) :
    SameRun s (s.nodeSeedLoad t o) := by simp [State.nodeSeedLoad]

@[simp] theorem State.nodeMaqSet_sameRun (s : State) (t func : Nat) (mapgen : BitVec 16) (o : BitVec 96) :
    SameRun s (s.nodeMaqSet t func mapgen o) := by simp [State.nodeMaqSet]

@[simp] theorem State.nodeWatch_sameRun (s : State) (t func : Nat) (o : BitVec 96) :
    SameRun s (s.nodeWatch t func o) := by
  unfold State.nodeWatch
  split <;> simp

@[simp] theorem State.fencedOrder_sameRun (s : State) (op t : Nat) : SameRun s (s.fencedOrder op t) := by
  unfold State.fencedOrder
  split <;> simp

@[simp] theorem State.nodeStep_sameRun (s : State) (t : Nat) (o : BitVec 96) : SameRun s (s.nodeStep t o) := by
  simp [State.nodeStep]

@[simp] theorem State.nodeRun_sameRun (s : State) (t : Nat) : SameRun s (s.nodeRun t) := by simp [State.nodeRun]

@[simp] theorem State.nodeCounterRead_sameRun (s : State) (t func : Nat) :
    SameRun s (s.nodeCounterRead t func) := by simp [State.nodeCounterRead]

@[simp] theorem State.nodeDo_sameRun (s : State) (t op : Nat) (mapgen : BitVec 16) (o : BitVec 96)
    (data : List Flit) :
    SameRun s (s.nodeDo t op mapgen o data) := by
  unfold State.nodeDo
  split <;> simp

@[simp] theorem State.freeInboxes_sameRun (s : State) (t : Nat) : SameRun s (s.freeInboxes t) := by
  simp [State.freeInboxes]

@[simp] theorem State.unpark_sameRun (s : State) (t : Nat) : SameRun s (s.unpark t) := by simp [State.unpark]

@[simp] theorem State.nodeRing_sameRun (s : State) (t : Nat) (k : HangKind) (cause : Nat) :
    SameRun s (s.nodeRing t k cause) := by simp [State.nodeRing]

@[simp] theorem State.nodeEdge_sameRun (s : State) (t : Nat) : SameRun s (s.nodeEdge t) := by
  simp [State.nodeEdge]

@[simp] theorem State.nodeTake_sameRun (s : State) (op : Nat) (n : NodeOp) (data : List Flit) :
    SameRun s (s.nodeTake op n data) := by simp [State.nodeTake]

@[simp] theorem State.ackDone_sameRun (s : State) (o : Outgoing) : SameRun s (s.ackDone o) := by
  unfold State.ackDone
  dsimp only
  (repeat' split) <;> simp

@[simp] theorem State.ackTake_sameRun (s : State) (k : StreamId) (xid : BitVec 16) :
    SameRun s (s.ackTake k xid) := by
  unfold State.ackTake
  split
  · rename_i node vc
    have h := s.takeAck_sameRun node vc xid
    split <;> simp_all
  · simp
  · simp

@[simp] theorem State.ackHeldTake_sameRun (s : State) (k : StreamId) (xid : BitVec 16) :
    SameRun s (s.ackHeldTake k xid) := by
  unfold State.ackHeldTake
  split <;> simp

@[simp] theorem State.takeEvent_sameRun (s : State) (r : EvRec) : SameRun s (s.takeEvent r) := by
  simp [State.takeEvent]

@[simp] theorem State.lateReply_sameRun (s : State) (t : Nat) : SameRun s (s.lateReply t) := by
  simp [State.lateReply]

@[simp] theorem State.takeReply_sameRun (s : State) (t : Nat) (body : List Flit) :
    SameRun s (s.takeReply t body) := by simp [State.takeReply]

@[simp] theorem State.takeSummaryPacket_sameRun (s : State) (t : Nat) (body : List Flit) :
    SameRun s (s.takeSummaryPacket t body) := by simp [State.takeSummaryPacket]

@[simp] theorem State.consumePacket_sameRun (s : State) (p : ArmPacket) (h : ArmHead) (k : StreamId) :
    SameRun s (s.consume_ p h k) := by
  unfold State.consume_
  (repeat' split) <;> simp

@[simp] theorem State.packetOnDie_sameRun (s : State) (p : ArmPacket) (broken : Bool) :
    SameRun s (s.packetOnDie p broken) := by
  unfold State.packetOnDie
  dsimp only
  (repeat' split) <;> simp

@[simp] theorem State.takeHubMsg_sameRun (s : State) (chip : BitVec 13) (kind len : Nat) :
    SameRun s (s.takeHubMsg chip kind len) := by simp [State.takeHubMsg]

@[simp] theorem State.packetPeer_sameRun (s : State) (link : Nat) (flits : List Flit) :
    SameRun s (s.packetPeer link flits) := by simp [State.packetPeer]

@[simp] theorem State.sentinelTake_sameRun (s : State) (link : Nat) (flits : List Flit) :
    SameRun s (s.sentinelTake link flits) := by
  have h := s.sentinelArrive_sameRun link flits
  unfold State.sentinelTake
  split <;> simp_all

@[simp] theorem State.packetArrive_sameRun (s : State) (p : ArmPacket) : SameRun s (s.packetArrive p) := by
  unfold State.packetArrive
  dsimp only
  (repeat' split) <;> simp

@[simp] theorem State.nodeAccept_sameRun (s : State) (op : Nat) (n : NodeOp) (data : List Flit) :
    SameRun s (s.nodeAccept op n data) := by
  unfold State.nodeAccept
  dsimp only
  (repeat' split) <;> simp

/-! ### Machine.Bringup -/

@[simp] theorem State.giveUp_sameRun (s : State) (silent : List Nat) : SameRun s (s.giveUp silent) := by
  simp [State.giveUp]

@[simp] theorem State.applyRepair_sameRun (s : State) (w : Word) : SameRun s (s.applyRepair w) := by
  unfold State.applyRepair
  split <;> simp

@[simp] theorem State.superblock_sameRun (s : State) (i : S1In) (usable : Bool) :
    SameRun s (s.superblock i usable) := by simp [State.superblock]

@[simp] theorem State.hottestDram_sameRun (s : State) : SameRun s s.hottestDram.2 := by
  unfold State.hottestDram
  dsimp only
  (repeat' split) <;> simp

@[simp] theorem State.raiseLinkDown_sameRun (s : State) (n : Nat) : SameRun s (s.raiseLinkDown n) := by
  simp [State.raiseLinkDown]

@[simp] theorem State.linkChanged_sameRun (s : State) (n : Nat) : SameRun s (s.linkChanged n) := by
  simp [State.linkChanged]

@[simp] theorem State.trainLink_sameRun (s : State) (x : LinkTrain) (retry : Bool) :
    SameRun s (s.trainLink x retry) := by simp [State.trainLink]

@[simp] theorem State.linkRetrain_sameRun (s : State) (ls : List LinkTrain) : SameRun s (s.linkRetrain ls) := by
  simp [State.linkRetrain]

@[simp] theorem State.linkDown_sameRun (s : State) (n : Nat) : SameRun s (s.linkDown n) := by
  simp [State.linkDown]

@[simp] theorem State.readyStart_sameRun (s : State) : SameRun s s.readyStart := by
  simp [State.readyStart]

@[simp] theorem State.routesCheck_sameRun (s : State) : SameRun s s.routesCheck := by simp [State.routesCheck]

@[simp] theorem State.reposeStart_sameRun (s : State) (id : Nat) : SameRun s (s.reposeStart id) := by
  simp [State.reposeStart]

@[simp] theorem State.reposeGathered_sameRun (s : State) : SameRun s s.reposeGathered := by
  simp [State.reposeGathered]

@[simp] theorem State.reposeExpiry_sameRun (s : State) : SameRun s s.reposeExpiry := by
  simp [State.reposeExpiry]

@[simp] theorem State.wakeStart_sameRun (s : State) (id : Nat) : SameRun s (s.wakeStart id) := by
  simp [State.wakeStart]

@[simp] theorem State.wakeTile_sameRun (s : State) (t : Nat) : SameRun s (s.wakeTile t) := by
  simp [State.wakeTile]

@[simp] theorem State.wakeDone_pending (s : State) (cyc : Nat) : (s.wakeDone cyc).pending = s.pending := by
  simp [State.wakeDone]

/-! ### Machine.Orders -/

@[simp] theorem State.maqRateDo_sameRun (s : State) (w : Word) (id : Nat) : SameRun s (s.maqRateDo w id) := by
  simp [State.maqRateDo]

@[simp] theorem State.watchArmDo_sameRun (s : State) (w : Word) (id : Nat) : SameRun s (s.watchArmDo w id) := by
  simp [State.watchArmDo]

@[simp] theorem State.watchDisarmDo_sameRun (s : State) (w : Word) (id : Nat) :
    SameRun s (s.watchDisarmDo w id) := by simp [State.watchDisarmDo]

@[simp] theorem State.stepDo_sameRun (s : State) (w : Word) (id : Nat) : SameRun s (s.stepDo w id) := by
  simp [State.stepDo]

@[simp] theorem State.runDo_sameRun (s : State) (w : Word) (id : Nat) : SameRun s (s.runDo w id) := by
  simp [State.runDo]

@[simp] theorem State.freezeDo_sameRun (s : State) (w : Word) (id : Nat) : SameRun s (s.freezeDo w id) := by
  simp [State.freezeDo]

@[simp] theorem State.bindDo_sameRun (s : State) (w : Word) (id : Nat) (ans : Option (Option PartnerAnswer)) :
    SameRun s (s.bindDo w id ans) := by
  unfold State.bindDo
  split <;> simp

@[simp] theorem State.digestOpenSend_sameRun (s : State) (k : Nat) (first : BitVec 24) (id : Nat) :
    SameRun s (s.digestOpenSend k first id) := by simp [State.digestOpenSend]

@[simp] theorem State.orderDo_sameRun (s : State) (o : OrderRec) (ans : Option (Option PartnerAnswer)) :
    SameRun s (s.orderDo o ans) := by
  unfold State.orderDo
  dsimp only
  (repeat' split) <;> simp

@[simp] theorem State.orderTurn_sameClock (s : State) (id : Nat) (ans : Option (Option PartnerAnswer)) :
    SameClock s (s.orderTurn id ans) := by
  unfold State.orderTurn
  dsimp only
  (repeat' split) <;> simp

@[simp] theorem State.takeOrder_sameClock (s : State) (r : OrderRef) (w : Word) : SameClock s (s.takeOrder r w) := by
  simp [State.takeOrder]

@[simp] theorem State.setNext_sameRun (s : State) (m : OrderMaster) (slot : Nat) : SameRun s (s.setNext m slot) := by
  unfold State.setNext
  split <;> simp

@[simp] theorem intakeSlot_sameClock (m : OrderMaster) (a : Intake) (k : Nat) :
    SameClock a.1 (intakeSlot m a k).1 := by
  unfold intakeSlot
  dsimp only
  (repeat' split) <;> simp

@[simp] theorem State.intake_sameClock (s : State) : SameClock s s.intake := by
  have h1 := foldl_fst_sameClock _ (s.slotOrder .mgmt) (s, 0, false) (intakeSlot_sameClock .mgmt)
  have h2 := fun a : Intake =>
    foldl_fst_sameClock _ (a.1.slotOrder .hostk) (a.1, a.2.1, false) (intakeSlot_sameClock .hostk)
  unfold State.intake
  dsimp only
  split
  · simp [h1, h2]
  · simp [h1, h2]

@[simp] theorem State.waitingOrders_sameRun (s : State) : SameRun s s.waitingOrders := by
  simp [State.waitingOrders]

@[simp] theorem State.scheduled_sameRun (s : State) : SameRun s s.scheduled := by simp [State.scheduled]

@[simp] theorem State.dispatchAll_sameClock (s : State) : SameClock s s.dispatchAll := by
  have h (l : List OrderRec) (t : State) :=
    foldl_sameClock (fun s o => s.orderTurn o.id none) l t fun s o => s.orderTurn_sameClock o.id none
  unfold State.dispatchAll
  dsimp only
  (repeat' split) <;> simp [h]

/-! ### Machine.Beat -/

@[simp] theorem State.passTo_pending (s : State) (now : Nat) : (s.passTo now).pending = s.pending := by
  simp [State.passTo]

@[simp] theorem State.forceTick_sameRun (s : State) : SameRun s s.forceTick := by simp [State.forceTick]

@[simp] theorem State.sampleTick_sameRun (s : State) : SameRun s s.sampleTick := by
  simp [State.sampleTick]

@[simp] theorem State.regionEnergy_sameRun (s : State) (g e : Nat) : SameRun s (s.regionEnergy g e) := by
  simp [State.regionEnergy]

@[simp] theorem State.countThrottle_sameRun (s : State) (g n : Nat) : SameRun s (s.countThrottle g n) := by
  simp [State.countThrottle]

@[simp] theorem State.throttleRest_sameRun (s : State) : SameRun s s.throttleRest := by simp [State.throttleRest]

@[simp] theorem State.nodesTick_sameRun (s : State) (b : Nat) : SameRun s (s.nodesTick b) := by
  simp [State.nodesTick]

@[simp] theorem State.keyTick_sameRun (s : State) (old : Word) : SameRun s (s.keyTick old) := by
  simp [State.keyTick]

@[simp] theorem State.atPhase_pending (s : State) (rank c : Nat) : (s.atPhase rank c).pending = s.pending := by
  simp [State.atPhase]

@[simp] theorem State.lineagePhase_sameRun (s : State) : SameRun s s.lineagePhase := by
  -- the definition with the list of tiles under a name, so that its fold is never evaluated
  obtain ⟨f, hf⟩ : ∃ f, f = State.lineagePhase := ⟨_, rfl⟩
  obtain ⟨l, hl⟩ := exists_eq_allTiles
  rw [← hf]
  delta State.lineagePhase at hf
  rw [hl] at hf
  subst hf
  refine .trans (b := if s.life.frozen then s else s.lineageClose) (by simp) (foldl_sameRun _ _ _ fun s t => ?_)
  split <;> simp

@[simp] theorem State.summaryIn_sameRun (s : State) (t : Nat) (x : Summary) : SameRun s (s.summaryIn t x) := by
  simp [State.summaryIn]

@[simp] theorem State.takeSummary_sameRun (s : State) (t : Nat) (x : Summary) :
    SameRun s (s.takeSummary t x) := by simp [State.takeSummary]

@[simp] theorem State.lateSummary_sameRun (s : State) (t : Nat) : SameRun s (s.lateSummary t) := by
  unfold State.lateSummary
  split <;> simp

@[simp] theorem State.aggregate_sameRun (s : State) (late : List Nat) : SameRun s (s.aggregate late) := by
  refine foldl_then_sameRun (fun s =>
    let s := if s.arm.flagged == 0 then s
      else s.raiseHub 0x0023 .note (pack [(32, 32, s.arm.flagged), (0, 32, s.arm.dropped)])
    let s := if s.time.lateNow == 0 then s
      else s.raiseHub 0x0017 .note (pack [(32, 32, s.time.lateNow), (0, 32, s.time.lateOldest)])
    { s with arm.flagged := 0, arm.dropped := 0, time.lateNow := 0, time.lateOldest := 0 })
    (fun s t => ?_) (by simp)
  (repeat' split) <;> simp

@[simp] theorem State.peakTemps_sameRun (s : State) : SameRun s s.peakTemps := by
  unfold State.peakTemps
  split
  · simp
  · refine foldl_sameRun _ _ _ fun s e => ?_
    split <;> simp

@[simp] theorem State.countThrottleChange_sameRun (s : State) (g old new : Nat) :
    SameRun s (s.countThrottleChange g old new) := by simp [State.countThrottleChange]

@[simp] theorem State.thermalPhase_sameRun (s : State) : SameRun s s.thermalPhase := by simp [State.thermalPhase]

@[simp] theorem State.samplePhase_sameRun (s : State) : SameRun s s.samplePhase := by
  unfold State.samplePhase
  obtain ⟨t, ht⟩ : ∃ t, s.sampleAll = t := ⟨_, rfl⟩
  have h : SameRun s t := ht ▸ s.sampleAll_sameRun
  rw [ht]
  split
  · simpa using h
  · simp

@[simp] theorem State.gap_pending (s : State) (d cyc : Nat) : (s.gap d cyc).pending = s.pending := by simp [State.gap]

@[simp] theorem State.droop_sameRun (s : State) (g : Nat) : SameRun s (s.droop g) := by simp [State.droop]

@[simp] theorem State.voltage_sameRun (s : State) (g : Nat) (mv : BitVec 16) : SameRun s (s.voltage g mv) := by
  unfold State.voltage
  dsimp only
  (repeat' split) <;> simp

@[simp] theorem State.mgmtAnswer_sameRun (s : State) : SameRun s s.mgmtAnswer := by simp [State.mgmtAnswer]

@[simp] theorem State.mgmtBack_sameRun (s : State) : SameRun s s.mgmtBack := by simp [State.mgmtBack]

@[simp] theorem State.mgmtLost_sameRun (s : State) (kind : BitVec 8) : SameRun s (s.mgmtLost kind) := by
  simp [State.mgmtLost]

/-! ### Machine.RegRead -/

@[simp] theorem State.rcClear_sameRun (s : State) (page off : Nat) : SameRun s (s.rcClear page off) := by
  simp [State.rcClear]

@[simp] theorem State.countRecordRead_sameRun (s : State) (m : Requester) (page off size : Nat) :
    SameRun s (s.countRecordRead m page off size) := by simp [State.countRecordRead]

@[simp] theorem State.setLatch_sameRun (s : State) (m : Requester) (k : Nat) (v : Option (BitVec 32)) :
    SameRun s (s.setLatch m k v) := by simp [State.setLatch]

/-! ### Machine.RegWrite -/

@[simp] theorem State.windowMisuse_sameRun (s : State) (m : Requester) (slot reason : Nat) :
    SameRun s (s.windowMisuse m slot reason) := by simp [State.windowMisuse]

@[simp] theorem State.windowWrite_sameRun (s : State) (m : Requester) (slot size : Nat) (v : Word) :
    SameRun s (s.windowWrite m slot size v) := by simp [State.windowWrite]

@[simp] theorem State.resetRefused_sameRun (s : State) (v : Word) : SameRun s (s.resetRefused v) := by
  simp [State.resetRefused]

@[simp] theorem State.dumpCtl_sameRun (s : State) (m : Requester) (v : Word) : SameRun s (s.dumpCtl m v) := by
  simp [State.dumpCtl]

@[simp] theorem State.fwReady_sameRun (s : State) (m : Requester) (v : Word) : SameRun s (s.fwReady m v) := by
  simp [State.fwReady]

@[simp] theorem State.writeOnly_sameRun (s : State) (m : Requester) (k : Nat) (v : Word) :
    SameRun s (s.writeOnly m k v) := by
  simp [State.writeOnly]

@[simp] theorem State.afterStore_sameRun (s : State) (k : Nat) (old v : Word) :
    SameRun s (s.afterStore k old v) := by
  simp [State.afterStore]

@[simp] theorem State.storeReg_sameRun (s : State) (page off : Nat) (old new : Word) :
    SameRun s (s.storeReg page off old new) := by
  unfold State.storeReg
  split <;> simp

@[simp] theorem State.regWrite_sameRun (s : State) (m : Requester) (page off size : Nat) (v : Word) (r : RegRow) :
    SameRun s (s.regWrite m page off size v r) := by
  unfold State.regWrite
  dsimp only
  (repeat' split) <;> simp

@[simp] theorem State.writeAccess_sameRun (s : State) (m : Requester) (page off size : Nat) (v : Word) :
    SameRun s (s.writeAccess m page off size v) := by
  unfold State.writeAccess
  (repeat' split) <;> simp

@[simp] theorem State.tapUpdate_sameRun (s : State) (v : Word) : SameRun s (s.tapUpdate v) := by simp [State.tapUpdate]

/-! ### Machine.Dump -/

@[simp] theorem State.dumpWrite_sameRun (s : State) (state : Nat) : SameRun s (s.dumpWrite state) := by
  simp [State.dumpWrite]

@[simp] theorem State.dumpEnd_sameRun (s : State) (x0 : DumpEnd) : SameRun s (s.dumpEnd x0) := by
  unfold State.dumpEnd
  (repeat' split) <;> simp

/-! ### Reads of the window -/

@[simp] theorem State.halfRead_sameRun (s : State) (m : Requester) (page off : Nat) :
    SameRun s (s.halfRead m page off) := by
  unfold State.halfRead
  dsimp only
  (repeat' split) <;> simp

@[simp] theorem State.wholeRead_sameRun (s : State) (m : Requester) (page off : Nat) :
    SameRun s (s.wholeRead m page off) := by
  simp [State.wholeRead]

@[simp] theorem State.readAccess_sameRun (s : State) (m : Requester) (page off size : Nat) :
    SameRun s (s.readAccess m page off size) := by
  simp [State.readAccess]

@[simp] theorem State.tapCapture_sameRun (s : State) : SameRun s s.tapCapture := by
  simp [State.tapCapture]

end Sys2Proof.Machine
end

section
/-! O12. Every command answers a next state and leaves the commands that wait; an idle step counts one plinth cycle. -/

namespace Sys2Proof.Machine

/-! ### Bring-up -/

@[simp] theorem State.freshPlinth_pending (s : State) (powered : Bool) :
    (s.freshPlinth powered).pending = s.pending := rfl

@[simp] theorem State.askNodes_sameRun (s : State) (silent : List Nat) : SameRun s (s.askNodes silent) := by
  unfold State.askNodes
  obtain ⟨l, hl⟩ := exists_eq_allTiles
  rw [hl]
  simp

@[simp] theorem State.s0Work_sameRun (s : State) (i : S0In) : SameRun s (s.s0Work i) := by
  unfold State.s0Work
  obtain ⟨l, hl⟩ := exists_eq_allTiles
  rw [hl]
  simp

@[simp] theorem State.bringupFail_sameRun (s : State) (reason fields : Nat) :
    SameRun s (s.bringupFail reason fields) := by
  simp [State.bringupFail]

@[simp] theorem State.stageEnd_sameRun (s : State) (result fields : Nat) : SameRun s (s.stageEnd result fields) := by
  simp [State.stageEnd]

@[simp] theorem State.s0End_sameRun (s : State) : SameRun s s.s0End := by simp [State.s0End]

@[simp] theorem State.s0Tick_sameRun (s : State) : SameRun s s.s0Tick := by simp [State.s0Tick]

@[simp] theorem State.s1End_sameRun (s : State) (i : S1In) (late : Bool) : SameRun s (s.s1End i late) := by
  unfold State.s1End
  split
  · simp
  · extract_lets s1 cs usable s2 soft table map cast s3 s4 s5 s6 s7 s8 life s9
    have h1 : SameRun s s1 := by unfold s1; split <;> simp
    have h2 : SameRun s1 s2 := by unfold s2; split <;> simp
    have h4 : SameRun s2 s4 := by unfold s4; split <;> simp [s3]
    have h9 : SameRun s4 s9 := by simp [s9, s8, s7, s6, s5]
    exact (h1.trans (h2.trans (h4.trans h9))).trans (s9.stageEnd_sameRun _ _)

@[simp] theorem State.s2End_sameRun (s : State) (i : S2In) : SameRun s (s.s2End i) := by
  unfold State.s2End
  dsimp only
  split <;> simp

@[simp] theorem State.s3End_sameRun (s : State) : SameRun s s.s3End := by
  unfold State.s3End
  obtain ⟨l, hl⟩ := exists_eq_allTiles
  rw [hl]
  simp

@[simp] theorem State.s4End_sameRun (s : State) (ls : List LinkTrain) : SameRun s (s.s4End ls) := by
  unfold State.s4End
  dsimp only
  split <;> simp

@[simp] theorem State.stageLimit_sameRun (s : State) (i1 : S1In) (i2 : S2In) (ls : List LinkTrain) :
    SameRun s (s.stageLimit i1 i2 ls) := by
  unfold State.stageLimit
  split <;> simp

/-! ### The posting -/

@[simp] theorem State.freezeNow_sameRun (s : State) : SameRun s s.freezeNow := by simp [State.freezeNow]

@[simp] theorem State.shutdownPost_sameRun (s : State) : SameRun s s.shutdownPost := by simp [State.shutdownPost]

@[simp] theorem State.posting_sameClock (s : State) : SameClock s s.posting := by
  unfold State.posting
  dsimp only
  (repeat' split) <;> simp

/-! ### The beat tick -/

@[simp] theorem State.hubTick_sameRun (s : State) : SameRun s s.hubTick := by simp [State.hubTick]

@[simp] theorem State.tickAfter_pending (s : State) (b : Nat) : (s.tickAfter b).pending = s.pending := by
  simp [State.tickAfter]

@[simp] theorem State.tickAfter_time (s : State) (b : Nat) : (s.tickAfter b).time.time = s.time.time := by
  simp [State.tickAfter]

@[simp] theorem State.tickAfter_phase (s : State) (b : Nat) : (s.tickAfter b).time.phase = 0 := by
  simp [State.tickAfter]

@[simp] theorem State.beatTick_pending (s : State) (energy : List (Nat × Nat)) :
    (s.beatTick energy).pending = s.pending := by
  simp [State.beatTick]

@[simp] theorem State.timeAdopt_pending (s : State) (master : Word) : (s.timeAdopt master).pending = s.pending := by
  simp [State.timeAdopt]

/-! ### Every command -/

/-- The same commands wait in `t` as in `s`. -/
def SameWaiting (s t : State) : Prop := t.pending = s.pending

/-- The command answers a next state with the same commands waiting. -/
def KeepsPending (s : State) (o : Host.Outcome State Fault Refusal) : Prop := ∃ t, o = .next t ∧ SameWaiting s t

theorem doWhen_sameWaiting {c : Bool} {f : State → State} {s : State} (h : SameWaiting s (f s)) :
    KeepsPending s (doWhen c f s) := by
  cases c
  · exact ⟨s, rfl, rfl⟩
  · exact ⟨f s, rfl, h⟩

theorem doWhen_keepsPending {c : Bool} {f : State → State} {s : State} (h : (f s).pending = s.pending) :
    KeepsPending s (doWhen c f s) := doWhen_sameWaiting h

theorem writeRow_keepsPending (m : Requester) (page off size : Nat) (v : Word) (s : State) :
    KeepsPending s (writeRow m page off size v s) := doWhen_keepsPending (by simp)

theorem nodeRow_keepsPending (op : Nat) (n : NodeOp) (data : List Flit) (s : State) :
    KeepsPending s (nodeRow op n data s) := doWhen_keepsPending (by simp)

theorem orderRow_keepsPending (r : OrderRef) (w : Word) (ans : Option (Option PartnerAnswer)) (s : State) :
    KeepsPending s (orderRow r w ans s) := doWhen_keepsPending (by simp)

theorem execPartnerBind_keepsPending (r : OrderRef) (operand : BitVec 48) (answer : Option PartnerAnswer) (s : State) :
    KeepsPending s (execPartnerBind r operand answer s) := by
  unfold execPartnerBind
  dsimp only
  split
  · exact doWhen_keepsPending (by simp)
  · exact orderRow_keepsPending _ _ _ s

theorem execTestHoldDrained_keepsPending (t : Nat) (s : State) : KeepsPending s (execTestHoldDrained t s) :=
  have h : SameWaiting s (s.testHoldDrained t) := (s.testHoldDrained_sameRun t).1.1
  doWhen_sameWaiting h

theorem execLineageClosing_keepsPending (s : State) : KeepsPending s (execLineageClosing s) :=
  have h : SameWaiting s (s.atPhase 1 0).lineagePhase := by
    rw [SameWaiting, (State.lineagePhase_sameRun _).1.1, State.atPhase_pending]
  doWhen_sameWaiting h

theorem exec_keepsPending (c : Instr) (s : State) : KeepsPending s (exec c s) := by
  cases c with
  | plinthPowerGood arg => unfold exec execPlinthPowerGood; exact doWhen_keepsPending (by simp)
  | wholeChipReset arg => unfold exec execWholeChipReset; exact doWhen_keepsPending (by simp)
  | stageS1 arg => unfold exec execStageS1; exact doWhen_keepsPending (by simp)
  | stageS2 arg => unfold exec execStageS2; exact doWhen_keepsPending (by simp)
  | stageS3 => unfold exec execStageS3; exact doWhen_keepsPending (by simp)
  | stageS4 links => unfold exec execStageS4; exact doWhen_keepsPending (by simp)
  | stageLimit i1 i2 links => unfold exec execStageLimit; exact doWhen_keepsPending (by simp)
  | fwReady m v => exact writeRow_keepsPending _ _ _ _ _ s
  | beatTick energy => unfold exec execBeatTick; exact doWhen_keepsPending (by simp)
  | lineageClosing => exact execLineageClosing_keepsPending s
  | orderIntake => unfold exec execOrderIntake; exact doWhen_keepsPending (by split <;> simp)
  | verdictAggregation late => unfold exec execVerdictAggregation; exact doWhen_keepsPending (by split <;> simp)
  | lateSummary t => unfold exec execLateSummary; exact doWhen_keepsPending (by simp)
  | patinaUpdate => unfold exec execPatinaUpdate; exact doWhen_keepsPending (by split <;> simp)
  | thermalDecisions => unfold exec execThermalDecisions; exact doWhen_keepsPending (by simp)
  | sensorSample n reading => unfold exec execSensorSample; exact doWhen_keepsPending (by simp)
  | counterSampling => unfold exec execCounterSampling; exact doWhen_keepsPending (by split <;> simp)
  | dispatch => unfold exec execDispatch; exact doWhen_keepsPending (by simp)
  | statusPosting => unfold exec execStatusPosting; exact doWhen_keepsPending (by simp)
  | eventHostCopy => unfold exec execEventHostCopy; exact doWhen_keepsPending (by simp)
  | syncPpsEdge cyc => unfold exec execSyncPpsEdge; exact doWhen_keepsPending (by simp)
  | ppsLost => unfold exec execPpsLost; exact doWhen_keepsPending (by simp)
  | elect advs => unfold exec execElect; exact doWhen_keepsPending (by simp)
  | timex x => unfold exec execTimex; exact doWhen_keepsPending (by simp)
  | timeAdopt master => unfold exec execTimeAdopt; exact doWhen_keepsPending (by simp)
  | timeMaster => unfold exec execTimeMaster; exact doWhen_keepsPending (by simp)
  | domainStopDetect d lastEdge => unfold exec execDomainStopDetect; exact doWhen_keepsPending (by simp)
  | gap d cyc => unfold exec execGap; exact doWhen_keepsPending (by simp)
  | packetArrive p => unfold exec execPacketArrive; exact doWhen_keepsPending (by simp)
  | ackHeldTimer sid => unfold exec execAckHeldTimer; exact doWhen_keepsPending (by simp)
  | ack sid xid => unfold exec execAck; exact doWhen_keepsPending (by simp)
  | ackHeld sid xid => unfold exec execAckHeld; exact doWhen_keepsPending (by simp)
  | resendTimeout sid => unfold exec execResendTimeout; exact doWhen_keepsPending (by cases sid <;> simp)
  | sentinelForward link flits => unfold exec execSentinelForward; exact doWhen_keepsPending (by simp)
  | routePrimaryBack k => unfold exec execRoutePrimaryBack; exact doWhen_keepsPending (by simp)
  | fenceApply o | unfenceApply o | mapCommit o | mapLoad o data => exact nodeRow_keepsPending _ _ _ s
  | niMapApply t => unfold exec execNiMapApply; exact doWhen_keepsPending (by simp)
  | nodeFreeze o | pauseStop o | pauseCopy o | resume o | chiselStartArmIdle o | chiselStartArmForced o
  | chiselStartArmWitness o | chiselStartContinue o | chiselAbortDisarm o | chiselAbortFinish o
  | chiselAbortAbort o | seedLoad o | maqSetPairAdd o | maqSetPairDel o | maqSetArmSource o | maqSetArmHost o
  | maqSetArmReferee o | maqSetEnd o | maqSetSetRate o | watchSetArm o | watchSetDisarm o | nodeStep o | nodeRun o
  | lineageQuery o | hangRead o | counterReadStanding o | counterReadStop o | stateRead o =>
    exact nodeRow_keepsPending _ _ _ s
  | fence r operand | unfence r operand | promote r operand | chiselNow r operand | chiselDefer r operand
  | maqRate r operand | cast r operand | restore r operand | watchArm r operand | watchDisarm r operand
  | stepTile r operand | run r operand | freeze r operand | digestOpen r operand | digestClose r operand
  | reposeEnter r operand | reposeWake r operand | fuseCommit r operand => exact orderRow_keepsPending _ _ _ s
  | partnerBind r operand answer => exact execPartnerBind_keepsPending r operand answer s
  | partnerUnbind r operand | releasePartition r operand => exact orderRow_keepsPending _ _ _ s
  | releaseScrubDone => unfold exec execReleaseScrubDone; exact doWhen_keepsPending (by simp)
  | orderWindowWrite m slot size v => unfold exec execOrderWindowWrite; exact doWhen_keepsPending (by simp)
  | orderRdWrite m mgmtRing v | evtHostRdWrite m v | evtHostEnable m v | countHostRdWrite m v
  | traceHostRdWrite m v => exact writeRow_keepsPending _ _ _ _ _ s
  | rcRead m page off size => unfold exec execRcRead; exact doWhen_keepsPending (by simp)
  | halfReadLatch m page off => unfold exec execHalfReadLatch; exact doWhen_keepsPending (by simp)
  | w1cWrite m page v | pageLock m page | registerWrite m page off size v => exact writeRow_keepsPending _ _ _ _ _ s
  | injectArm m v => unfold exec execInjectArm; exact doWhen_keepsPending (by simp)
  | injectDisarm m v | reportAck m v | hangReadReq m v | stateReadReq m v | dumpGo m v =>
    exact writeRow_keepsPending _ _ _ _ _ s
  | dumpDone e => unfold exec execDumpDone; exact doWhen_keepsPending (by simp)
  | licenceInstall m v => exact writeRow_keepsPending _ _ _ _ _ s
  | licenceVerdict sigOk => unfold exec execLicenceVerdict; exact doWhen_keepsPending (by simp)
  | resetReq m v => exact writeRow_keepsPending _ _ _ _ _ s
  | mrWrite m layer k v => unfold exec execMrWrite; exact doWhen_keepsPending (by simp)
  | reencodeStep t layer => unfold exec execReencodeStep; exact doWhen_keepsPending (by simp)
  | wsetWriteValid m w v => unfold exec execWsetWriteValid; exact doWhen_keepsPending (by simp)
  | wsetRetire m w v => unfold exec execWsetRetire; exact doWhen_keepsPending (by simp)
  | wsetHashDone w fmt ue => unfold exec execWsetHashDone; exact doWhen_keepsPending (by simp)
  | recordRead m off size => unfold exec execRecordRead; exact doWhen_keepsPending (by simp)
  | fuseProgResult m v => exact writeRow_keepsPending _ _ _ _ _ s
  | tapChmAddr bits => unfold exec execTapChmAddr; exact doWhen_keepsPending (by simp)
  | tapChmDataCapture => unfold exec execTapChmDataCapture; exact doWhen_keepsPending (by simp)
  | tapChmDataUpdate v => unfold exec execTapChmDataUpdate; exact doWhen_keepsPending (by simp)
  | mgmtTimeout kind => unfold exec execMgmtTimeout; exact doWhen_keepsPending (by simp)
  | mgmtBack => unfold exec execMgmtBack; exact doWhen_keepsPending (by simp)
  | voltageDroop region => unfold exec execVoltageDroop; exact doWhen_keepsPending (by simp)
  | linkDown link => unfold exec execLinkDown; exact doWhen_keepsPending (by simp)
  | linkRetrain links => unfold exec execLinkRetrain; exact doWhen_keepsPending (by simp)
  | commandBegin t c cyc => unfold exec execCommandBegin; exact doWhen_keepsPending (by split <;> simp)
  | commandEnd t e => unfold exec execCommandEnd; exact doWhen_keepsPending (by simp)
  | passStart t p entry => unfold exec execPassStart; exact doWhen_keepsPending (by simp)
  | blockVerdict t f => unfold exec execBlockVerdict; exact doWhen_keepsPending (by simp)
  | passRerun t x fs => unfold exec execPassRerun; exact doWhen_keepsPending (by simp)
  | blockRelease t x => unfold exec execBlockRelease; exact doWhen_keepsPending (by simp)
  | sealVerifyRead t r => unfold exec execSealVerifyRead; exact doWhen_keepsPending (by simp)
  | sealSecondRead t r => unfold exec execSealSecondRead; exact doWhen_keepsPending (by simp)
  | partialBlockWrite t w => unfold exec execPartialBlockWrite; exact doWhen_keepsPending (by simp)
  | transferSend t x =>
    unfold exec execTransferSend
    exact doWhen_keepsPending (s.sendAll_sameRun t x _ State.sendNow_sameRun).1.1
  | transferReceive t x => unfold exec execTransferReceive; exact doWhen_keepsPending (by simp)
  | fencedAck t id logical gen => unfold exec execFencedAck; exact doWhen_keepsPending (by simp)
  | subscribedCopyDrop k => unfold exec execSubscribedCopyDrop; exact doWhen_keepsPending (by simp)
  | maqHostAssign => unfold exec execMaqHostAssign; exact doWhen_keepsPending (by simp)
  | maqArmTimeout k => unfold exec execMaqArmTimeout; exact doWhen_keepsPending (by simp)
  | maqCompare k host => unfold exec execMaqCompare; exact doWhen_keepsPending (by simp)
  | maqDeadline k => unfold exec execMaqDeadline; exact doWhen_keepsPending (by simp)
  | maqRefereeAssign k => unfold exec execMaqRefereeAssign; exact doWhen_keepsPending (by simp)
  | maqArbitration k referee => unfold exec execMaqArbitration; exact doWhen_keepsPending (by simp)
  | taintComputation => unfold exec execTaintComputation; exact doWhen_keepsPending (by simp)
  | taintClosure => unfold exec execTaintClosure; exact doWhen_keepsPending (by simp)
  | taint => unfold exec execTaint; exact doWhen_keepsPending (by simp)
  | chiselDue t => unfold exec execChiselDue; exact doWhen_keepsPending (by simp)
  | chiselForced t => unfold exec execChiselForced; exact doWhen_keepsPending (by simp)
  | chiselReady t => unfold exec execChiselReady; exact doWhen_keepsPending (by simp)
  | chiselArmWait t => unfold exec execChiselArmWait; exact doWhen_keepsPending (by simp)
  | chiselStartSignal t => unfold exec execChiselStartSignal; exact doWhen_keepsPending (by simp)
  | chiselStarved t => unfold exec execChiselStarved; exact doWhen_keepsPending (by simp)
  | testHoldDrained t => exact execTestHoldDrained_keepsPending t s
  | segmentResult t r => unfold exec execSegmentResult; exact doWhen_keepsPending (by simp)
  | witnessWaitExpiry t => unfold exec execWitnessWaitExpiry; exact doWhen_keepsPending (by simp)
  | chiselListDone t => unfold exec execChiselListDone; exact doWhen_keepsPending (by simp)
  | sessionMaxExpiry t => unfold exec execSessionMaxExpiry; exact doWhen_keepsPending (by simp)
  | reinitDone t stuck => unfold exec execReinitDone; exact doWhen_keepsPending (by simp)
  | promotionSaveDone logical timedOut => unfold exec execPromotionSaveDone; exact doWhen_keepsPending (by simp)
  | promotionMigrationDone logical uncorr => unfold exec execPromotionMigrationDone; exact doWhen_keepsPending (by simp)
  | promotionRestoreDone logical => unfold exec execPromotionRestoreDone; exact doWhen_keepsPending (by simp)
  | promoteDone logical => unfold exec execPromoteDone; exact doWhen_keepsPending (by simp)
  | promotionResume logical => unfold exec execPromotionResume; exact doWhen_keepsPending (by simp)
  | repairRecordWrite ok => unfold exec execRepairRecordWrite; exact doWhen_keepsPending (by simp)
  | stackAccess a => unfold exec execStackAccess; exact doWhen_keepsPending (by simp)
  | nearbankCommand t n => unfold exec execNearbankCommand; exact doWhen_keepsPending (by simp)
  | nearbankComplete t layer bank cycles => unfold exec execNearbankComplete; exact doWhen_keepsPending (by simp)
  | nbHung t layer bank => unfold exec execNbHung; exact doWhen_keepsPending (by simp)
  | refreshDue t layer bank => unfold exec execRefreshDue; exact doWhen_keepsPending (by simp)
  | patrolVisit t layer block found => unfold exec execPatrolVisit; exact doWhen_keepsPending (by simp)
  | castWindowCheck => unfold exec execCastWindowCheck; exact doWhen_keepsPending (by simp)
  | castWindowTimeout => unfold exec execCastWindowTimeout; exact doWhen_keepsPending (by simp)
  | castQuiesce cyc => unfold exec execCastQuiesce; exact doWhen_keepsPending (by simp)
  | gatherTimeout => unfold exec execGatherTimeout; exact doWhen_keepsPending (by simp)
  | castCopyDone cyc => unfold exec execCastCopyDone; exact doWhen_keepsPending (by simp)
  | mouldDrained t => unfold exec execMouldDrained; exact doWhen_keepsPending (by simp)
  | castDurable => unfold exec execCastDurable; exact doWhen_keepsPending (by simp)
  | castStoreError => unfold exec execCastStoreError; exact doWhen_keepsPending (by simp)
  | mirrorState why => unfold exec execMirrorState; exact doWhen_keepsPending (by simp)
  | mirrorSegmentReceive chip xid blocks flushed =>
    unfold exec execMirrorSegmentReceive
    exact doWhen_keepsPending (by simp)
  | restoreValidated w => unfold exec execRestoreValidated; exact doWhen_keepsPending (by simp)
  | restoreTileWrite logical => unfold exec execRestoreTileWrite; exact doWhen_keepsPending (by simp)
  | restoreDone => unfold exec execRestoreDone; exact doWhen_keepsPending (by simp)
  | digestSettling k => unfold exec execDigestSettling; exact doWhen_keepsPending (by simp)
  | digestSettleExpiry k => unfold exec execDigestSettleExpiry; exact doWhen_keepsPending (by simp)
  | digestReady k sigR sigS => unfold exec execDigestReady; exact doWhen_keepsPending (by simp)
  | signTimeout k => unfold exec execSignTimeout; exact doWhen_keepsPending (by simp)
  | sampleSetBuild late => unfold exec execSampleSetBuild; exact doWhen_keepsPending (by simp)
  | traceDrain => unfold exec execTraceDrain; exact doWhen_keepsPending (by simp)
  | reposeGatherDone => unfold exec execReposeGatherDone; exact doWhen_keepsPending (by simp)
  | wakeDone cyc => unfold exec execWakeDone; exact doWhen_keepsPending (by simp)
  | regionVoltageSample region mv => unfold exec execRegionVoltageSample; exact doWhen_keepsPending (by simp)
  | transferCompletion t id => unfold exec execTransferCompletion; exact doWhen_keepsPending (by simp)
  | powerRemoved => unfold exec execPowerRemoved; exact doWhen_keepsPending (by simp)
  | msixEntryUnmask v => unfold exec execMsixEntryUnmask; exact doWhen_keepsPending (by simp)

/-! ### One plinth cycle -/

theorem OnlyChanges.countCycle (s : State) : OnlyChanges [.time] s s.countCycle := by
  unfold State.countCycle
  (repeat' split) <;> exact fun p hp => by cases p <;> first | rfl | simp at hp

theorem OnlyChanges.plinthCycle (s : State) : OnlyChanges [.time, .arm] s s.plinthCycle := by
  unfold State.plinthCycle
  split
  · exact (((OnlyChanges.ackDrain s 1).mono (by simp)).trans ((OnlyChanges.countCycle _).mono (by simp))).trans
      ((OnlyChanges.inject _).mono (by simp))
  · exact OnlyChanges.refl _ s

/-- The counter goes on by 0, 1 or 2, and passes no beat tick (R53). -/
theorem State.countCycle_time (s : State) : s.countCycle.beat = s.beat ∧
    (s.countCycle.time.time = s.time.time ∨ s.countCycle.time.time = s.time.time + 1 ∨
      s.countCycle.time.time = s.time.time + 2) := by
  have hlt := s.time.time.isLt
  have hone (h : s.cyc + 1 < beatCycles) : (s.time.time + 1).toNat / beatCycles = s.beat := by
    simp [State.cyc, State.beat, beatCycles] at h ⊢; omega
  have htwo (h : s.cyc + 2 < beatCycles) : (s.time.time + 2).toNat / beatCycles = s.beat := by
    simp [State.cyc, State.beat, beatCycles] at h ⊢; omega
  unfold State.countCycle
  split
  · rename_i hc
    simp only [Bool.and_eq_true, decide_eq_true_eq] at hc
    split
    · exact ⟨htwo hc.2, .inr (.inr rfl)⟩
    · exact ⟨rfl, .inl rfl⟩
  · split
    · rename_i hc
      exact ⟨hone hc, .inr (.inl rfl)⟩
    · exact ⟨rfl, .inl rfl⟩

theorem State.beat_of_time {s t : State} (h : t.time.time = s.time.time) : t.beat = s.beat := by
  simp [State.beat, h]

theorem State.cyc_of_time {s t : State} (h : t.time.time = s.time.time) : t.cyc = s.cyc := by
  simp [State.cyc, h]

theorem State.plinthCycle_time (s : State) : s.plinthCycle.beat = s.beat ∧
    (s.plinthCycle.time.time = s.time.time ∨ s.plinthCycle.time.time = s.time.time + 1 ∨
      s.plinthCycle.time.time = s.time.time + 2) := by
  unfold State.plinthCycle
  split
  · have hdrain : (s.ackDrain 1).time.time = s.time.time := by simp
    have hinject : (s.ackDrain 1).countCycle.inject.time.time = (s.ackDrain 1).countCycle.time.time := by simp
    obtain ⟨hbeat, htime⟩ := (s.ackDrain 1).countCycle_time
    rw [State.beat_of_time hinject, hinject, hbeat, State.beat_of_time hdrain, ← hdrain]
    exact ⟨rfl, htime⟩
  · exact ⟨rfl, .inl rfl⟩

/-- Settles O12: no operation of the model touches the queue, and an idle step only counts one plinth cycle. -/
theorem everyStepCompletes : Obligations.EveryStepCompletes := by
  unfold Obligations.EveryStepCompletes
  refine ⟨exec_keepsPending, fun s hidle => ?_⟩
  obtain ⟨hbeat, htime⟩ := s.plinthCycle_time
  exact ⟨s.plinthCycle, by simp [step, hidle], by simp [hidle], OnlyChanges.plinthCycle s,
    fun hoff => by simp [State.plinthCycle, hoff], hbeat, htime⟩

end Sys2Proof.Machine
end

section
/-! O14. The phases of a beat. -/

namespace Sys2Proof.Machine

/-! ### The phase that begins -/

@[simp] theorem State.atPhase_phase (s : State) (rank c : Nat) : (s.atPhase rank c).time.phase = rank := by
  simp [State.atPhase]

theorem beatCycles_mul_add_toNat {b c : Nat} (t : Word) (hb : b = t.toNat / beatCycles) (hc : c < beatCycles) :
    (word (b * beatCycles + c)).toNat = b * beatCycles + c := by
  have ht := t.isLt
  simp only [word, BitVec.toNat_ofNat]
  unfold beatCycles at *
  omega

/-- Cycles pass within the beat (R53). -/
theorem State.toCycle_beat (s : State) (c : Nat) : (s.toCycle c).beat = s.beat := by
  unfold State.toCycle
  split
  · rename_i h
    obtain ⟨-, hc⟩ : s.cyc < c ∧ c < beatCycles := by simpa using h
    have htime := beatCycles_mul_add_toNat s.time.time rfl hc
    simp only [State.beat] at htime ⊢
    rw [htime]
    unfold beatCycles at *
    omega
  · rfl

theorem State.toCycle_cyc (s : State) {c : Nat} (hc : c < beatCycles) : (s.toCycle c).cyc = max s.cyc c := by
  unfold State.toCycle
  by_cases hlt : s.cyc < c
  · have htime := beatCycles_mul_add_toNat s.time.time rfl hc
    simp only [hlt, hc, decide_true, Bool.and_true, if_true]
    simp only [State.cyc, State.beat] at htime hlt ⊢
    rw [htime]
    unfold beatCycles at *
    omega
  · simpa [hlt] using by omega

/-- The phase `rank` of the beat of `s` is done in `t`, at or after cycle `first`. -/
def PhaseRan (s : State) (rank first : Nat) (t : State) : Prop :=
  t.time.phase = rank ∧ t.beat = s.beat ∧ t.cyc = max s.cyc first

theorem State.atPhase_ran (s : State) (rank : Nat) {c : Nat} (hc : c < beatCycles) :
    PhaseRan s rank c (s.atPhase rank c) :=
  ⟨s.atPhase_phase rank c, State.toCycle_beat _ c, State.toCycle_cyc _ hc⟩

/-- What a phase does leaves its rank and its time. -/
theorem PhaseRan.of_sameClock {s t u : State} {rank first : Nat} (h : PhaseRan s rank first t) (h' : SameClock t u) :
    PhaseRan s rank first u := by
  obtain ⟨hphase, hbeat, hcyc⟩ := h
  obtain ⟨-, htime, hphase'⟩ := h'
  exact ⟨hphase'.trans hphase, (State.beat_of_time htime).trans hbeat, (State.cyc_of_time htime).trans hcyc⟩

/-- A command that runs a phase where it may, and its work with it. -/
theorem doWhen_phaseRan {b : Bool} {f : State → State} {s : State} {rank c : Nat} (hb : b = true) (hc : c < beatCycles)
    (hf : SameClock (s.atPhase rank c) (f s)) : ∃ t, doWhen b f s = .next t ∧ PhaseRan s rank c t :=
  ⟨f s, doWhen_true hb, (s.atPhase_ran rank hc).of_sameClock hf⟩

/-! ### What the command of a phase does -/

theorem exec_lineageClosing (s : State) :
    exec .lineageClosing s = doWhen (s.mayPhase 1 63) (fun s => (s.atPhase 1 0).lineagePhase) s := rfl

theorem exec_orderIntake (s : State) : exec .orderIntake s =
    doWhen (s.mayPhase 2 255) (fun s => if s.life.frozen then s.atPhase 2 0 else (s.atPhase 2 0).intake) s := rfl

theorem exec_verdictAggregation (late : List Nat) (s : State) : exec (.verdictAggregation late) s =
    doWhen (s.mayPhase 3 4095)
      (fun s => if s.ready then (s.atPhase 3 4095).aggregate late else s.atPhase 3 4095) s := rfl

theorem exec_patinaUpdate (s : State) : exec .patinaUpdate s =
    doWhen (s.mayPhase 4 5119)
      (fun s => if s.ready then (s.atPhase 4 4096).patinaUpdate else s.atPhase 4 4096) s := rfl

theorem exec_thermalDecisions (s : State) : exec .thermalDecisions s =
    doWhen (s.mayPhase 5 5631) (fun s => (s.atPhase 5 5120).thermalPhase) s := rfl

theorem exec_counterSampling (s : State) : exec .counterSampling s =
    doWhen (s.mayPhase 6 5632)
      (fun s => if s.up then (s.atPhase 6 5632).samplePhase else s.atPhase 6 5632) s := rfl

theorem exec_dispatch (s : State) : exec .dispatch s =
    doWhen (s.mayPhase 7 7935) (fun s => (s.atPhase 7 5632).dispatchAll) s := rfl

theorem exec_statusPosting (s : State) : exec .statusPosting s =
    doWhen (s.mayPhase 8 8191) (fun s =>
      (if (s.atPhase 8 7936).ready then (s.atPhase 8 7936).taintPublish else s.atPhase 8 7936).posting) s := rfl

/-! ### Each phase -/

theorem exec_lineageClosing_ran (s : State) (h : s.mayPhase 1 63 = true) :
    ∃ t, exec .lineageClosing s = .next t ∧ PhaseRan s 1 0 t := by
  have hran : PhaseRan s 1 0 (s.atPhase 1 0).lineagePhase :=
    (s.atPhase_ran 1 (by decide)).of_sameClock (State.lineagePhase_sameRun _).1
  rw [exec_lineageClosing]
  exact ⟨_, doWhen_true h, hran⟩

theorem exec_orderIntake_ran (s : State) (h : s.mayPhase 2 255 = true) :
    ∃ t, exec .orderIntake s = .next t ∧ PhaseRan s 2 0 t := by
  rw [exec_orderIntake]
  exact doWhen_phaseRan h (by decide) (by split <;> simp)

theorem exec_verdictAggregation_ran (s : State) (late : List Nat) (h : s.mayPhase 3 4095 = true) :
    ∃ t, exec (.verdictAggregation late) s = .next t ∧ PhaseRan s 3 4095 t := by
  rw [exec_verdictAggregation]
  exact doWhen_phaseRan h (by decide) (by split <;> simp)

theorem exec_patinaUpdate_ran (s : State) (h : s.mayPhase 4 5119 = true) :
    ∃ t, exec .patinaUpdate s = .next t ∧ PhaseRan s 4 4096 t := by
  rw [exec_patinaUpdate]
  exact doWhen_phaseRan h (by decide) (by split <;> simp)

theorem exec_thermalDecisions_ran (s : State) (h : s.mayPhase 5 5631 = true) :
    ∃ t, exec .thermalDecisions s = .next t ∧ PhaseRan s 5 5120 t := by
  rw [exec_thermalDecisions]
  exact doWhen_phaseRan h (by decide) (by simp)

theorem exec_counterSampling_ran (s : State) (h : s.mayPhase 6 5632 = true) :
    ∃ t, exec .counterSampling s = .next t ∧ PhaseRan s 6 5632 t := by
  rw [exec_counterSampling]
  exact doWhen_phaseRan h (by decide) (by split <;> simp)

theorem exec_dispatch_ran (s : State) (h : s.mayPhase 7 7935 = true) :
    ∃ t, exec .dispatch s = .next t ∧ PhaseRan s 7 5632 t := by
  rw [exec_dispatch]
  exact doWhen_phaseRan h (by decide) (by simp)

theorem exec_statusPosting_ran (s : State) (h : s.mayPhase 8 8191 = true) :
    ∃ t, exec .statusPosting s = .next t ∧ PhaseRan s 8 7936 t := by
  rw [exec_statusPosting]
  exact doWhen_phaseRan h (by decide) (by split <;> simp)

/-- Settles O14: what a phase does leaves its rank and its time, and a command whose phase may not run does nothing. -/
theorem phasesRunInOrder : Obligations.PhasesRunInOrder := by
  unfold Obligations.PhasesRunInOrder
  intro s ran
  exact ⟨exec_lineageClosing_ran s, exec_orderIntake_ran s, fun h late => exec_verdictAggregation_ran s late h,
    exec_patinaUpdate_ran s, exec_thermalDecisions_ran s, exec_counterSampling_ran s, exec_dispatch_ran s,
    exec_statusPosting_ran s,
    fun h => (exec_lineageClosing s).trans (doWhen_false h),
    fun h => (exec_orderIntake s).trans (doWhen_false h),
    fun h late => (exec_verdictAggregation late s).trans (doWhen_false h),
    fun h => (exec_patinaUpdate s).trans (doWhen_false h),
    fun h => (exec_thermalDecisions s).trans (doWhen_false h),
    fun h => (exec_counterSampling s).trans (doWhen_false h),
    fun h => (exec_dispatch s).trans (doWhen_false h),
    fun h => (exec_statusPosting s).trans (doWhen_false h)⟩

end Sys2Proof.Machine
end

section
/-! O13. The beat tick. -/

namespace Sys2Proof.Machine

/-! ### What leads up to the tick -/

theorem OnlyChanges.countThrottle (s : State) (g n : Nat) : OnlyChanges [.tiles] s (s.countThrottle g n) :=
  OnlyChanges.foldl _ (fun u t => OnlyChanges.count u t 12 n) _ s

theorem OnlyChanges.throttleRest (s : State) : OnlyChanges [.tiles] s s.throttleRest := by
  refine OnlyChanges.foldl _ (fun u g => ?_) _ s
  split
  · exact OnlyChanges.countThrottle u g _
  · exact OnlyChanges.refl _ u

theorem OnlyChanges.regionEnergy (s : State) (g e : Nat) :
    OnlyChanges [.heat, .tiles, .free] s (s.regionEnergy g e) := by
  refine ((OnlyChanges.modRegion s g _).mono (by simp)).trans (OnlyChanges.foldl _ (fun u t => ?_) _ _)
  exact ((OnlyChanges.draw u).mono (by simp)).trans ((OnlyChanges.count _ t _ _).mono (by simp))

theorem OnlyChanges.slew (s : State) (n : Nat) : OnlyChanges [.time] s (s.slew n) := fun p hp => by
  cases p <;> simp_all [Same, State.slew]

theorem OnlyChanges.passTo (s : State) (now : Nat) : OnlyChanges [.time, .arm] s (s.passTo now) := by
  have h (n : Nat) : OnlyChanges [.time, .arm] s ((s.ackDrain n).slew n) :=
    ((OnlyChanges.ackDrain s n).mono (by simp)).trans ((OnlyChanges.slew _ n).mono (by simp))
  refine (h (now - s.time.time.toNat)).trans fun p hp => ?_
  cases p <;> simp_all [Same, State.passTo]

theorem OnlyChanges.sentTx (s : State) (n flits : Nat) : OnlyChanges [.links] s (s.sentTx n flits) :=
  OnlyChanges.ite _ (OnlyChanges.modLink s n _) (OnlyChanges.refl _ s)

theorem OnlyChanges.putLink (s : State) (n : Nat) (fs : List Flit) : OnlyChanges [.arm, .links] s (s.putLink n fs) := by
  refine ((OnlyChanges.sentTx s n fs.length).mono (by simp)).trans fun p hp => ?_
  cases p <;> simp_all [Same, State.putLink]

theorem OnlyChanges.onePacket (s : State) (n kind : Nat) (net : Bool) (body : Flit) :
    OnlyChanges [.arm, .links] s (s.onePacket n kind net body) := OnlyChanges.putLink s n _

theorem OnlyChanges.electSend (s : State) : OnlyChanges [.arm, .links] s s.electSend := by
  unfold State.electSend
  split
  · exact OnlyChanges.refl _ s
  · have hfold (l : List Nat) (f : Flit) := OnlyChanges.foldl _ (fun u n => OnlyChanges.onePacket u n 4 false f) l s
    exact OnlyChanges.ite _ ((hfold _ _).trans (OnlyChanges.onePacket _ _ _ _ _)) (hfold _ _)

/-- The counts of a tick that also a frozen chip keeps. -/
def State.tickCounts (s : State) : State :=
  { s with
    time.phase := 0, time.ppsBeats := s.time.ppsBeats + 1, life.allBeats := s.life.allBeats + 1, arm.linkOut := [] }

/-- The part of a tick that goes on also on a frozen chip (Table 13.6). -/
def State.tickStart (s : State) : State := s.tickCounts.mgmtTick.electSend

theorem State.tickAfter_eq (s : State) (b : Nat) : s.tickAfter b =
    if s.tickStart.life.frozen then s.tickStart else (s.tickStart.nodesTick b).hubTick := rfl

theorem OnlyChanges.tickStart (s : State) : OnlyChanges [.time, .life, .arm, .links] s s.tickStart := by
  have h : OnlyChanges [.time, .life, .arm, .links] s s.tickCounts.mgmtTick := fun p hp => by
    cases p <;> simp_all [Same, State.tickCounts, State.mgmtTick]
  exact h.trans ((OnlyChanges.electSend _).mono (by simp))

theorem State.tickStart_frozen (s : State) : s.tickStart.life.frozen = s.life.frozen := by
  simp [State.tickStart, State.tickCounts]

theorem OnlyChanges.nodesTick (s : State) (b : Nat) : OnlyChanges [.tiles] s (s.nodesTick b) := by
  unfold State.nodesTick
  refine OnlyChanges.foldl _ (fun u t => ?_) _ s
  split
  · exact OnlyChanges.modCore u t _
  · exact OnlyChanges.refl _ u

/-! ### What the hub does at the tick -/

/-- From `s` to `t` the registers in force, the number of dropped trace records and the slew still to do are the same,
and no record that waits at the hub is lost. -/
def KeepsReports (s t : State) : Prop :=
  t.force = s.force ∧ t.dbg.trDropNow = s.dbg.trDropNow ∧ t.time.slewPend = s.time.slewPend ∧ s.ev.queue ⊆ t.ev.queue

theorem KeepsReports.refl (s : State) : KeepsReports s s := ⟨rfl, rfl, rfl, List.Subset.refl _⟩

theorem KeepsReports.trans {a b c : State} (h : KeepsReports a b) (h' : KeepsReports b c) : KeepsReports a c := by
  obtain ⟨hforce, hdrop, hslew, hqueue⟩ := h
  obtain ⟨hforce', hdrop', hslew', hqueue'⟩ := h'
  exact ⟨hforce'.trans hforce, hdrop'.trans hdrop, hslew'.trans hslew, List.Subset.trans hqueue hqueue'⟩

theorem KeepsReports.ite {s a b : State} (c : Prop) [Decidable c] (ha : KeepsReports s a) (hb : KeepsReports s b) :
    KeepsReports s (if c then a else b) := by
  split
  · exact ha
  · exact hb

theorem KeepsReports.foldl {α : Type} (f : State → α → State) (h : ∀ u x, KeepsReports u (f u x)) (l : List α)
    (s : State) : KeepsReports s (l.foldl f s) := by
  induction l generalizing s with
  | nil => exact .refl s
  | cons x l ih => exact (h s x).trans (ih _)

/-- A change of none of the four parts. -/
theorem KeepsReports.of_parts {s t : State} (hforce : t.force = s.force) (hdbg : t.dbg = s.dbg)
    (htime : t.time = s.time) (hev : t.ev = s.ev) : KeepsReports s t :=
  ⟨hforce, by rw [hdbg], by rw [htime], by rw [hev]; exact List.Subset.refl _⟩

theorem KeepsReports.of_onlyChanges {ps : List Part} {s t : State} (h : OnlyChanges ps s t) (hforce : .force ∉ ps)
    (hdbg : .dbg ∉ ps) (htime : .time ∉ ps) (hev : .ev ∉ ps) : KeepsReports s t :=
  .of_parts (h .force hforce) (h .dbg hdbg) (h .time htime) (h .ev hev)

theorem KeepsReports.raise (s : State) (r : EvRec) : KeepsReports s (s.raise r) :=
  ⟨rfl, rfl, rfl, List.subset_append_left _ _⟩

theorem KeepsReports.raiseHub (s : State) (code : Nat) (sev : Severity) (detail : Word) :
    KeepsReports s (s.raiseHub code sev detail) := .raise s _

theorem KeepsReports.finish (s : State) (id : Nat) (st : Status) : KeepsReports s (s.finish id st) := by
  have hmod (f : OrderRec → OrderRec) : KeepsReports s (s.modOrder id f) := .of_parts rfl rfl rfl rfl
  unfold State.finish
  split
  · exact .refl s
  · exact .ite _ ((hmod _).trans ((KeepsReports.raise _ _).trans (.of_parts rfl rfl rfl rfl))) (hmod _)

theorem KeepsReports.finishOpt (s : State) (id : Option Nat) (st : Status) : KeepsReports s (s.finishOpt id st) := by
  cases id with
  | none => exact .refl s
  | some i => exact .finish s i st

/-! ### Routes in force (R113, R119) -/

theorem KeepsReports.mirrorDrop (s : State) (why : MirrorReason) : KeepsReports s (s.mirrorDrop why) := by
  unfold State.mirrorDrop
  split
  · exact .refl s
  · rename_i r _
    refine .ite _ ?_ (.refl s)
    have hclear : KeepsReports s ({ s with cast.run := some { r with mirror := false } } : State).mirrorClear :=
      .of_parts rfl rfl rfl rfl
    exact (hclear.trans (.raiseHub _ _ _ _)).trans (.of_parts rfl rfl rfl rfl)

theorem KeepsReports.unreachPeer (s : State) (chip : BitVec 13) : KeepsReports s (s.unreachPeer chip) := by
  have hraise : KeepsReports s (if s.arm.unreachable.contains chip then s
      else s.raiseHub 0x0021 .fault (pack [(63, 1, 1), (0, 13, chip.toNat)])) := .ite _ (.refl s) (.raiseHub s _ _ _)
  have hdrop (u : State) : KeepsReports u (if u.cast.partnerChip == chip then u.mirrorDrop .unreachable else u) :=
    .ite _ (.mirrorDrop u _) (.refl u)
  exact (hraise.trans (hdrop _)).trans (.of_parts rfl rfl rfl rfl)

theorem KeepsReports.routeFail (s : State) (k : Nat) : KeepsReports s (s.routeFail k) := by
  unfold State.routeFail
  refine .ite _ (.refl s) (.ite _ (.unreachPeer s _) ?_)
  have halt (onAlt primLost : BitVec 64) : KeepsReports s (({ s with
      arm.onAlt := onAlt, arm.primLost := primLost } : State).raiseAlt k true) :=
    (KeepsReports.of_parts rfl rfl rfl rfl).trans (.raiseHub _ _ _ _)
  exact .ite _ (halt _ _) ((halt _ _).trans (.unreachPeer _ _))

theorem KeepsReports.routesTick (s old : State) : KeepsReports s (s.routesTick old) := by
  refine .foldl _ (fun u k => .ite _ (.refl u) ?_) _ s
  exact .ite _ ((KeepsReports.of_parts rfl rfl rfl rfl).trans (.routeFail _ k)) (.of_parts rfl rfl rfl rfl)

theorem State.hang_reports (s : State) (ring : Nat) (time : Word) (k : HangKind) (cseq data : Nat) :
    (s.hang ring time k cseq data).dbg.trDropNow = s.dbg.trDropNow ∧ (s.hang ring time k cseq data).time = s.time := by
  unfold State.hang
  split
  · exact ⟨rfl, rfl⟩
  · exact ⟨rfl, rfl⟩

theorem State.localStamp_slewPend (s : State) (d : Nat) : (s.localStamp d).2.time.slewPend = s.time.slewPend := by
  unfold State.localStamp
  dsimp only
  (repeat' split) <;> rfl

theorem KeepsReports.layerRing (s : State) (l : Nat) (k : HangKind) : KeepsReports s (s.layerRing l k) := by
  have h := OnlyChanges.layerRing s l k
  have hstamp : (s.localStamp layerDomain).2.dbg = s.dbg := OnlyChanges.localStamp s _ .dbg (by simp)
  have hslew := s.localStamp_slewPend layerDomain
  refine ⟨h .force (by simp), ?_, ?_, by rw [h .ev (by simp)]; exact List.Subset.refl _⟩
  · rw [State.layerRing, State.hangFree, (State.hang_reports ..).1, ← hstamp]
    rfl
  · rw [State.layerRing, State.hangFree, (State.hang_reports ..).2, ← hslew]
    rfl

theorem KeepsReports.mrTick (s : State) : KeepsReports s s.mrTick := by
  unfold State.mrTick
  refine .foldl _ (fun u l => ?_) _ s
  dsimp only
  split
  · exact (KeepsReports.of_parts rfl rfl rfl rfl).trans (.layerRing _ l _)
  · exact .refl u

theorem OnlyChanges.mrTick (s : State) : OnlyChanges [.stack, .dbg, .free, .time] s s.mrTick := by
  unfold State.mrTick
  refine OnlyChanges.foldl _ (fun u l => ?_) _ s
  dsimp only
  split
  · refine OnlyChanges.trans (fun p hp => ?_) ((OnlyChanges.layerRing _ l _).mono (by simp))
    cases p <;> simp_all [Same]
  · exact OnlyChanges.refl _ u

/-! ### Registers come into force (R55, R155) -/

/-- Writing entries of other keys one after another leaves what a key reads as. -/
theorem tget_foldl_tset {α : Type} [DecidableEq α] (d : α) (dflt : Nat → α) {k : Nat} (l m : Tbl α)
    (h : ∀ e ∈ l, e.1 ≠ k) : tget d (l.foldl (fun m e => tset (dflt e.1) m e.1 e.2) m) k = tget d m k := by
  induction l generalizing m with
  | nil => rfl
  | cons e l ih =>
    rw [List.foldl_cons, ih _ fun x hx => h x (by simp [hx]), tget_tset_ne _ _ _ _ (Ne.symm (h e (by simp)))]

theorem routeIn_outside (w : List Nat) {k : Nat} (hk : k < Reg.armSrouteW0 ∨ Reg.armSrouteW0 + 1024 ≤ k) :
    routeIn w k = false := by
  have h : ¬ (Reg.armSrouteW0 ≤ k ∧ k < Reg.armSrouteW0 + 1024) := by omega
  simp only [routeIn, Bool.and_eq_false_iff, decide_eq_false_iff_not]
  tauto

/-- The registers in force after a tick: those of the routes that wait as they were, all others as last written. -/
def State.forceNew (s : State) : Tbl Word :=
  let u := s.mrTick
  (u.force.filter fun e => routeIn u.routesWait e.1).foldl (fun m e => tset (regReset e.1) m e.1 e.2)
    (u.regs.filter fun e => !routeIn u.routesWait e.1)

/-- The state with the registers of `m` in force. -/
def State.withForce (s : State) (m : Tbl Word) : State := { s with force := m }

theorem State.withForce_force (s : State) (m : Tbl Word) : (s.withForce m).force = m := rfl

theorem State.withForce_dbg (s : State) (m : Tbl Word) : (s.withForce m).dbg = s.dbg := rfl

theorem State.withForce_time (s : State) (m : Tbl Word) : (s.withForce m).time = s.time := rfl

theorem State.withForce_ev (s : State) (m : Tbl Word) : (s.withForce m).ev = s.ev := rfl

theorem State.forceTick_eq (s : State) : s.forceTick = (s.mrTick.withForce s.forceNew).routesTick s := rfl

theorem State.tget_forceNew (s : State) {k : Nat} (hk : k < Reg.armSrouteW0 ∨ Reg.armSrouteW0 + 1024 ≤ k) :
    tget (regReset k) s.forceNew k = s.reg k := by
  have hkeep : ∀ e ∈ s.mrTick.force.filter fun e => routeIn s.mrTick.routesWait e.1, e.1 ≠ k := by
    rintro e he rfl
    simp [routeIn_outside _ hk] at he
  unfold State.forceNew
  dsimp only
  rw [tget_foldl_tset _ _ _ _ hkeep, tget_filter _ _ fun k => !routeIn s.mrTick.routesWait k, routeIn_outside _ hk,
    OnlyChanges.mrTick s .regs (by simp)]
  rfl

/-- Outside the route table every register is in force as last written. -/
theorem State.forceTick_inForce (s : State) {k : Nat} (hk : k < Reg.armSrouteW0 ∨ Reg.armSrouteW0 + 1024 ≤ k) :
    s.forceTick.inForce k = s.reg k := by
  obtain ⟨hforce, -, -⟩ := KeepsReports.routesTick (s.mrTick.withForce s.forceNew) s
  rw [State.inForce, s.forceTick_eq, hforce, State.withForce_force, s.tget_forceNew hk]

theorem State.forceTick_reports (s : State) : s.forceTick.dbg.trDropNow = s.dbg.trDropNow ∧
    s.forceTick.time.slewPend = s.time.slewPend ∧ s.ev.queue ⊆ s.forceTick.ev.queue := by
  obtain ⟨-, hdrop, hslew, hqueue⟩ := KeepsReports.mrTick s
  obtain ⟨-, hdrop', hslew', hqueue'⟩ := KeepsReports.routesTick (s.mrTick.withForce s.forceNew) s
  rw [State.withForce_dbg] at hdrop'
  rw [State.withForce_time] at hslew'
  rw [State.withForce_ev] at hqueue'
  rw [s.forceTick_eq, hdrop', hdrop, hslew', hslew]
  exact ⟨rfl, rfl, List.Subset.trans hqueue hqueue'⟩

/-! ### The rest of the tick -/

theorem KeepsReports.modDslot (s : State) (k : Nat) (f : DigSlot → DigSlot) : KeepsReports s (s.modDslot k f) :=
  .of_parts rfl rfl rfl rfl

theorem KeepsReports.modWset (s : State) (w : Nat) (f : WSet → WSet) : KeepsReports s (s.modWset w f) :=
  .of_parts rfl rfl rfl rfl

theorem KeepsReports.bump (s : State) (k n : Nat) : KeepsReports s (s.bump k n) := .of_parts rfl rfl rfl rfl

theorem KeepsReports.digestFail (s : State) (k reason tile : Nat) : KeepsReports s (s.digestFail k reason tile) :=
  (((KeepsReports.raiseHub s _ _ _).trans (.bump _ _ _)).trans (.finishOpt _ _ _)).trans (.modDslot _ _ _)

theorem KeepsReports.digestFailAll (s : State) (p : Nat → DigSlot → Bool) (reason tile : Nat) :
    KeepsReports s (s.digestFailAll p reason tile) :=
  .foldl _ (fun u k => .ite _ (.digestFail u k _ _) (.refl u)) _ s

theorem KeepsReports.keyTick (s : State) (old : Word) : KeepsReports s (s.keyTick old) :=
  .ite _ (.refl s) (.digestFailAll s _ _ _)

theorem KeepsReports.digestPosture (s : State) : KeepsReports s s.digestPosture :=
  .foldl _ (fun u k => .ite _ (.modDslot u k _) (.refl u)) _ s

theorem KeepsReports.wsetTo (s : State) (w state reason tile : Nat) :
    KeepsReports s (s.wsetTo w state reason tile) := (KeepsReports.raiseHub s _ _ _).trans (.modWset _ _ _)

theorem KeepsReports.setNextGone (s : State) : KeepsReports s { s with digest.setNext := [] } :=
  .of_parts rfl rfl rfl rfl

theorem KeepsReports.wsetTick (s : State) : KeepsReports s s.wsetTick := by
  unfold State.wsetTick
  refine KeepsReports.trans (.foldl _ (fun u w => ?_) _ s) (.setNextGone _)
  split
  · exact .refl u
  · have hlost (f : WSet → WSet) : KeepsReports u ((u.wsetLost w).modWset w f) :=
      (KeepsReports.digestFailAll u _ _ _).trans (.modWset _ w f)
    exact (hlost _).trans (.ite _ (.wsetTo _ _ _ _ _) (.ite _ (.wsetTo _ _ _ _ _) (.refl _)))

theorem KeepsReports.selTick (s : State) : KeepsReports s s.selTick := .of_parts rfl rfl rfl rfl

theorem KeepsReports.licTick (s : State) : KeepsReports s s.licTick := by
  unfold State.licTick
  exact .ite _ (.of_parts rfl rfl rfl rfl) (.of_parts rfl rfl rfl rfl)

theorem KeepsReports.sampleTick (s : State) : KeepsReports s s.sampleTick := by
  have hsample (b : Option Nat) : KeepsReports s { s with dbg.nextSample := b } :=
    ⟨rfl, rfl, rfl, List.Subset.refl _⟩
  exact .ite _ (hsample _) (.ite _ (hsample _) (hsample _))

theorem KeepsReports.voidTile (s : State) (t : Nat) : KeepsReports s (s.voidTile t) :=
  .ite _ (.of_parts rfl rfl rfl rfl) (.refl s)

theorem KeepsReports.windowsLeft (s old : State) : KeepsReports s (s.windowsLeft old) :=
  .foldl _ (fun u _ => .ite _ (.foldl _ .voidTile _ u) (.refl u)) _ s

theorem KeepsReports.scanEnds (s : State) : KeepsReports s s.scanEnds := by
  refine .foldl _ (fun u e => ?_) _ s
  split
  · exact .ite _ (.of_parts rfl rfl rfl rfl) (.refl u)
  · exact .refl u

theorem KeepsReports.deferTick (s : State) : KeepsReports s s.deferTick := by
  unfold State.deferTick
  generalize allTiles = tiles
  refine .ite _ (.refl s) (.foldl _ (fun u t => .ite _ ?_ (.refl u)) _ s)
  exact .of_parts (t := u.modChisel t _) rfl rfl rfl rfl

theorem KeepsReports.chiselTick (s old : State) : KeepsReports s (s.chiselTick old) :=
  ((KeepsReports.windowsLeft s old).trans (.scanEnds _)).trans (.deferTick _)

theorem KeepsReports.recordChanged (s : State) (t : Nat) : KeepsReports s (s.recordChanged t) :=
  .ite _ (.of_parts rfl rfl rfl rfl) ((KeepsReports.of_parts rfl rfl rfl rfl).trans (.raise _ _))

theorem KeepsReports.commitEnd (s : State) (state : Nat) (st : Status) : KeepsReports s (s.commitEnd state st) := by
  unfold State.commitEnd
  split
  · exact .refl s
  · refine KeepsReports.trans (KeepsReports.trans ?_ (.of_parts rfl rfl rfl rfl)) (.finish _ _ _)
    exact .ite _ (.of_parts rfl rfl rfl rfl) ((KeepsReports.of_parts rfl rfl rfl rfl).trans (.recordChanged _ _))

theorem KeepsReports.commitTick (s : State) : KeepsReports s s.commitTick := by
  have hcheck : KeepsReports s s.fuseCheck.2 := .of_parts rfl rfl rfl rfl
  exact .ite _ (.ite _ hcheck (hcheck.trans (.commitEnd _ _ _))) (.refl s)

theorem OnlyChanges.lineageTick (s : State) : OnlyChanges [.tiles, .contain] s s.lineageTick := by
  have hnow (u : State) (on : Bool) : OnlyChanges [.contain] u { u with contain.linNow := on } := fun p hp => by
    cases p <;> simp_all [Same]
  unfold State.lineageTick
  refine OnlyChanges.trans (OnlyChanges.foldl _ (fun u e => ?_) _ s) ((hnow _ _).mono (by simp))
  split
  · exact (OnlyChanges.modCore u _ _).mono (by simp)
  · exact OnlyChanges.refl _ u

theorem OnlyChanges.raiseHub (s : State) (code : Nat) (sev : Severity) (detail : Word) :
    OnlyChanges [.ev] s (s.raiseHub code sev detail) := OnlyChanges.raise s _

theorem OnlyChanges.mgmtAsk (s : State) (k : Nat) : OnlyChanges [.life] s (s.mgmtAsk k) := fun p hp => by
  cases p <;> simp_all [Same, State.mgmtAsk]

theorem OnlyChanges.mapSent (s : State) (f : Outgoing → Outgoing) : OnlyChanges [.arm] s (s.mapSent f) := fun p hp => by
  cases p <;> simp_all [Same, State.mapSent]

theorem OnlyChanges.unreachNode (s : State) (node : Nat) : OnlyChanges [.arm, .ev] s (s.unreachNode node) := by
  have hlost (u : State) : OnlyChanges [.arm, .ev] u { u with arm.ondieOk := false } := fun p hp => by
    cases p <;> simp_all [Same]
  exact ((OnlyChanges.raiseHub s 0x0021 .fatal (word node)).mono (by simp)).trans (hlost _)

theorem OnlyChanges.giveUp (s : State) (silent : List Nat) : OnlyChanges [.arm, .ev] s (s.giveUp silent) := by
  refine OnlyChanges.foldl _ (fun u t => ?_) _ s
  split
  · exact OnlyChanges.refl _ u
  · exact ((OnlyChanges.mapSent u _).mono (by simp)).trans (OnlyChanges.unreachNode _ t)

theorem OnlyChanges.bringupFail (s : State) (reason fields : Nat) :
    OnlyChanges [.regs, .ev, .life] s (s.bringupFail reason fields) := by
  have hworst (u : State) : OnlyChanges [.life] u { u with life.worst := 2 } := fun p hp => by
    cases p <;> simp_all [Same]
  have hreport (v : Word) (c : Nat) (sev : Severity) (d : Word) :
      OnlyChanges [.regs, .ev, .life] s ((s.setReg (Reg.bringupReport + 8 * s.life.stage) v).raiseHub c sev d) :=
    ((OnlyChanges.setReg s _ v).mono (by simp)).trans ((OnlyChanges.raiseHub _ c sev d).mono (by simp))
  exact (hreport _ _ _ _).trans (((hworst _).trans (OnlyChanges.mgmtAsk _ 3)).mono (by simp))

theorem OnlyChanges.stageEnd (s : State) (result fields : Nat) :
    OnlyChanges [.regs, .life] s (s.stageEnd result fields) := by
  have hnext (u : State) (n w : Nat) (d : Bool) : OnlyChanges [.life] u { u with
      life.stage := n, life.stageBeats := 0, life.worst := w, life.degraded := d } := fun p hp => by
    cases p <;> simp_all [Same]
  exact ((OnlyChanges.setReg s _ _).mono (by simp)).trans
    (((hnext _ _ _ _).trans (OnlyChanges.mgmtAsk _ 3)).mono (by simp))

theorem OnlyChanges.s0Tick (s : State) : OnlyChanges [.regs, .ev, .arm, .life] s s.s0Tick := by
  refine OnlyChanges.ite _ (OnlyChanges.ite _ ?_ ?_) (OnlyChanges.refl _ s)
  · exact (OnlyChanges.bringupFail s _ _).mono (by simp)
  · exact ((OnlyChanges.giveUp s _).mono (by simp)).trans ((OnlyChanges.stageEnd _ _ _).mono (by simp))

theorem KeepsReports.s0Tick (s : State) : KeepsReports s s.s0Tick := by
  have hfail (u : State) (r f : Nat) : KeepsReports u (u.bringupFail r f) :=
    (KeepsReports.of_parts (t := u.setReg _ _) rfl rfl rfl rfl).trans
      ((KeepsReports.raiseHub _ _ _ _).trans (.of_parts rfl rfl rfl rfl))
  have hgive (l : List Nat) : KeepsReports s (s.giveUp l) := by
    refine .foldl _ (fun u t => .ite _ (.refl u) ?_) _ s
    exact (KeepsReports.of_parts (t := u.mapSent _) rfl rfl rfl rfl).trans
      ((KeepsReports.raiseHub _ _ _ _).trans (.of_parts rfl rfl rfl rfl))
  exact .ite _ (.ite _ (hfail s _ _) ((hgive _).trans (.of_parts rfl rfl rfl rfl))) (.refl s)

/-! ### The tick as a whole -/

/-- What the hub does at the tick once the registers are in force, up to the decision of a proposed map. -/
def State.hubRest (s old : State) (key : Word) : State :=
  (s.keyTick key).digestPosture.wsetTick.selTick.licTick.sampleTick.chiselTick old |>.commitTick

/-- The order window is released for the intake, and the last counts of the tick are kept. -/
def State.hubClose (s : State) : State :=
  { s with
    ord.waiting := []
    contain.disabled := if bit (s.inForce Reg.containContainCtl) 0 then s.contain.disabled
                        else (s.beat :: s.contain.disabled).take 130
    life.stageBeats := s.life.stageBeats + 1 }

theorem State.hubTick_eq (s : State) : s.hubTick =
    (s.closeCounts.traceDropTick.forceTick.hubRest s s.detKey).hubClose.lineageTick.s0Tick := rfl

theorem KeepsReports.hubRest (s old : State) (key : Word) : KeepsReports s (s.hubRest old key) :=
  (((((((KeepsReports.keyTick s key).trans (.digestPosture _)).trans (.wsetTick _)).trans (.selTick _)).trans
    (.licTick _)).trans (.sampleTick _)).trans (.chiselTick _ old)).trans (.commitTick _)

theorem State.hubClose_waiting (s : State) : s.hubClose.ord.waiting = [] := rfl

theorem KeepsReports.hubClose (s : State) : KeepsReports s s.hubClose := .of_parts rfl rfl rfl rfl

theorem State.hubTick_waiting (s : State) : s.hubTick.ord.waiting = [] := by
  rw [State.hubTick_eq, OnlyChanges.s0Tick _ .ord (by simp), OnlyChanges.lineageTick _ .ord (by simp),
    State.hubClose_waiting]

theorem KeepsReports.forceTick_hubTick (s : State) :
    KeepsReports s.closeCounts.traceDropTick.forceTick s.hubTick := by
  rw [State.hubTick_eq]
  have hlin (u : State) : KeepsReports u u.lineageTick :=
    .of_onlyChanges (OnlyChanges.lineageTick u) (by simp) (by simp) (by simp) (by simp)
  exact (((KeepsReports.hubRest _ _ _).trans (.hubClose _)).trans (hlin _)).trans (.s0Tick _)

theorem OnlyChanges.closeCounts (s : State) : OnlyChanges [.ev] s s.closeCounts := fun p hp => by
  cases p <;> simp_all [Same, State.closeCounts]

/-- The report of the trace records dropped in the beat that ends (R405). -/
def State.traceDrop (s : State) : EvRec :=
  mkRec s.time.time 0x00C4 srcPlinth 0 .note (pack [(32, 32, s.dbg.trDropNow), (0, 11, s.dbg.trDropTile)])

theorem OnlyChanges.traceDropTick (s : State) : OnlyChanges [.ev, .dbg] s s.traceDropTick := by
  unfold State.traceDropTick
  split
  · exact OnlyChanges.refl _ s
  · intro p hp
    cases p <;> simp_all [Same, State.raiseHub, State.raise]

theorem State.traceDropTick_trDropNow (s : State) : s.traceDropTick.dbg.trDropNow = 0 := by
  unfold State.traceDropTick
  split
  · simp_all
  · rfl

theorem State.traceDropTick_mem (s : State) (h : s.dbg.trDropNow ≠ 0) : s.traceDrop ∈ s.traceDropTick.ev.queue := by
  simp [State.traceDropTick, h, State.raiseHub, State.raise, State.traceDrop]

theorem State.hubTick_inForce (s : State) {k : Nat} (hk : k < Reg.armSrouteW0 ∨ Reg.armSrouteW0 + 1024 ≤ k) :
    s.hubTick.inForce k = s.reg k := by
  obtain ⟨hforce, -, -⟩ := KeepsReports.forceTick_hubTick s
  have h := State.forceTick_inForce s.closeCounts.traceDropTick hk
  rw [State.reg, OnlyChanges.traceDropTick _ .regs (by simp), OnlyChanges.closeCounts _ .regs (by simp)] at h
  rw [State.inForce, hforce]
  exact h

theorem State.hubTick_trDropNow (s : State) : s.hubTick.dbg.trDropNow = 0 := by
  obtain ⟨-, hdrop, -⟩ := KeepsReports.forceTick_hubTick s
  rw [hdrop, (State.forceTick_reports _).1, State.traceDropTick_trDropNow]

theorem State.hubTick_traceDrop (s : State) (h : s.dbg.trDropNow ≠ 0) : s.traceDrop ∈ s.hubTick.ev.queue := by
  obtain ⟨-, -, -, hqueue⟩ := KeepsReports.forceTick_hubTick s
  have hmem : s.traceDrop ∈ s.closeCounts.traceDropTick.ev.queue := s.closeCounts.traceDropTick_mem h
  obtain ⟨-, -, hforced⟩ := State.forceTick_reports s.closeCounts.traceDropTick
  exact hqueue (hforced hmem)

/-- What a tick reads of the beat that ends: the registers as last written, and the trace records dropped in it. -/
def TickReads (s t : State) : Prop := t.regs = s.regs ∧ t.dbg = s.dbg ∧ t.life.frozen = s.life.frozen

theorem TickReads.of_onlyChanges {ps : List Part} {s t : State} (h : OnlyChanges ps s t) (hregs : .regs ∉ ps)
    (hdbg : .dbg ∉ ps) (hlife : .life ∉ ps) : TickReads s t :=
  ⟨h .regs hregs, h .dbg hdbg, by rw [h .life hlife]⟩

theorem TickReads.trans {a b c : State} (h : TickReads a b) (h' : TickReads b c) : TickReads a c := by
  obtain ⟨hregs, hdbg, hfrozen⟩ := h
  obtain ⟨hregs', hdbg', hfrozen'⟩ := h'
  exact ⟨hregs'.trans hregs, hdbg'.trans hdbg, hfrozen'.trans hfrozen⟩

theorem State.tickAfter_of_frozen (s : State) (b : Nat) (h : s.life.frozen = true) : s.tickAfter b = s.tickStart := by
  rw [State.tickAfter_eq, s.tickStart_frozen, h, if_pos rfl]

theorem State.tickAfter_of_live (s : State) (b : Nat) (h : s.life.frozen = false) :
    s.tickAfter b = (s.tickStart.nodesTick b).hubTick := by
  rw [State.tickAfter_eq, s.tickStart_frozen, h]
  rfl

theorem TickReads.nodesTick (s : State) (b : Nat) : TickReads s (s.tickStart.nodesTick b) := by
  have hstart : TickReads s s.tickStart :=
    ⟨OnlyChanges.tickStart s .regs (by simp), OnlyChanges.tickStart s .dbg (by simp), s.tickStart_frozen⟩
  exact hstart.trans (.of_onlyChanges (OnlyChanges.nodesTick _ b) (by simp) (by simp) (by simp))

theorem State.tickAfter_waiting (s : State) (b : Nat) (h : s.life.frozen = false) :
    (s.tickAfter b).ord.waiting = [] := by
  rw [s.tickAfter_of_live b h, State.hubTick_waiting]

theorem State.tickAfter_inForce (s : State) (b : Nat) (h : s.life.frozen = false) {k : Nat}
    (hk : k < Reg.armSrouteW0 ∨ Reg.armSrouteW0 + 1024 ≤ k) : (s.tickAfter b).inForce k = s.reg k := by
  obtain ⟨hregs, -, -⟩ := TickReads.nodesTick s b
  rw [s.tickAfter_of_live b h, State.hubTick_inForce _ hk, State.reg, hregs, State.reg]

theorem State.tickAfter_trDropNow (s : State) (b : Nat) (h : s.life.frozen = false) :
    (s.tickAfter b).dbg.trDropNow = 0 := by
  rw [s.tickAfter_of_live b h, State.hubTick_trDropNow]

/-- Dropped trace records are reported with the time at which the new beat starts. -/
theorem State.tickAfter_traceDrop (s : State) (b : Nat) (h : s.life.frozen = false) (hdrop : s.dbg.trDropNow ≠ 0) :
    s.traceDrop ∈ (s.tickAfter b).ev.queue := by
  obtain ⟨-, hdbg, -⟩ := TickReads.nodesTick s b
  have htime : (s.tickStart.nodesTick b).time.time = s.time.time := by
    obtain ⟨-, htick, -⟩ := (s.tickStart.nodesTick b).hubTick_sameRun.1
    rw [← htick, ← s.tickAfter_of_live b h, State.tickAfter_time]
  have hmem := State.hubTick_traceDrop (s.tickStart.nodesTick b) (by rwa [hdbg])
  rw [State.traceDrop, hdbg, htime] at hmem
  rw [s.tickAfter_of_live b h]
  exact hmem

/-- The state as the beat that ends leaves it, before the tick: on a live chip its last throttled cycles and the
energy of its regions are counted. -/
def State.lastCounts (s : State) (energy : List (Nat × Nat)) : State :=
  if s.life.frozen then s
  else energy.foldl (fun s e => if e.1 < numRegions && s.powerRegsOn then s.regionEnergy e.1 e.2 else s) s.throttleRest

theorem State.beatTick_eq (s : State) (energy : List (Nat × Nat)) : s.beatTick energy =
    ((s.lastCounts energy).passTo (((s.lastCounts energy).beat + 1) * beatCycles)).tickAfter
      (s.lastCounts energy).beat := rfl

theorem State.lastCounts_of_frozen (s : State) (energy : List (Nat × Nat)) (h : s.life.frozen = true) :
    s.lastCounts energy = s := by rw [State.lastCounts, if_pos h]

theorem OnlyChanges.lastCounts (s : State) (energy : List (Nat × Nat)) :
    OnlyChanges [.heat, .tiles, .free] s (s.lastCounts energy) := by
  refine OnlyChanges.ite _ (OnlyChanges.refl _ s) (OnlyChanges.trans ((OnlyChanges.throttleRest s).mono (by simp)) ?_)
  refine OnlyChanges.foldl _ (fun u e => ?_) energy _
  split
  · exact OnlyChanges.regionEnergy u _ _
  · exact OnlyChanges.refl _ u

/-- The state just before the tick: the last counts are kept and plinth time stands at the new beat. -/
def State.beatOver (s : State) (energy : List (Nat × Nat)) : State :=
  (s.lastCounts energy).passTo ((s.beat + 1) * beatCycles)

theorem State.beatOver_time (s : State) (energy : List (Nat × Nat)) :
    (s.beatOver energy).time.time = word ((s.beat + 1) * beatCycles) := rfl

theorem TickReads.beatOver (s : State) (energy : List (Nat × Nat)) : TickReads s (s.beatOver energy) :=
  (TickReads.of_onlyChanges (OnlyChanges.lastCounts s energy) (by simp) (by simp) (by simp)).trans
    (.of_onlyChanges (OnlyChanges.passTo _ _) (by simp) (by simp) (by simp))

theorem State.beatTick_tickAfter (s : State) (energy : List (Nat × Nat)) :
    s.beatTick energy = (s.beatOver energy).tickAfter s.beat := by
  have hbeat : (s.lastCounts energy).beat = s.beat := by
    rw [State.beat, OnlyChanges.lastCounts s energy .time (by simp), State.beat]
  rw [s.beatTick_eq, hbeat]
  rfl

theorem OnlyChanges.beatTick_of_frozen (s : State) (energy : List (Nat × Nat)) (h : s.life.frozen = true) :
    OnlyChanges [.time, .life, .arm, .links] s (s.beatTick energy) := by
  obtain ⟨-, -, hfrozen⟩ := TickReads.beatOver s energy
  rw [s.beatTick_tickAfter, State.tickAfter_of_frozen _ _ (hfrozen.trans h), State.beatOver,
    s.lastCounts_of_frozen energy h]
  exact ((OnlyChanges.passTo s _).mono (by simp)).trans (OnlyChanges.tickStart _)

theorem exec_beatTick (s : State) (energy : List (Nat × Nat)) :
    exec (.beatTick energy) s = doWhen s.life.powered (fun s => s.beatTick energy) s := rfl

/-- Settles O13: the tick passes plinth time to the new beat and brings the registers into force; what the hub does
afterwards keeps them and the reports that wait. -/
theorem beatTickStartsABeat : Obligations.BeatTickStartsABeat := by
  intro energy s hpow
  obtain ⟨hregs, hdbg, hfrozen⟩ := TickReads.beatOver s energy
  refine ⟨s.beatTick energy, by rw [exec_beatTick, doWhen_true hpow], ?_, ?_, fun hf => ?_,
    OnlyChanges.beatTick_of_frozen s energy, fun hf hdrop => ?_⟩
  all_goals rw [s.beatTick_tickAfter]
  · rw [State.tickAfter_time, State.beatOver_time]
  · exact State.tickAfter_phase _ _
  · refine ⟨State.tickAfter_waiting _ _ (hfrozen.trans hf), fun k hk => ?_⟩
    rw [State.tickAfter_inForce _ _ (hfrozen.trans hf) hk, State.reg, hregs, State.reg]
  · refine ⟨State.tickAfter_trDropNow _ _ (hfrozen.trans hf), ?_⟩
    have hmem := State.tickAfter_traceDrop (s.beatOver energy) s.beat (hfrozen.trans hf) (by rwa [hdbg])
    rw [State.traceDrop, hdbg] at hmem
    rwa [State.tickAfter_time]

end Sys2Proof.Machine
end

section
/-! O15. The intake and the dispatch of orders. -/

namespace Sys2Proof.Machine

theorem OnlyChanges.atPhase (s : State) (rank c : Nat) : OnlyChanges [.time, .arm] s (s.atPhase rank c) := by
  have hrank : OnlyChanges [.time] s { s with time.phase := rank } := fun p hp => by cases p <;> simp_all [Same]
  exact (hrank.mono (by simp)).trans (OnlyChanges.toCycle _ c)

/-! ### Intake looks at one slot (R65, R462, R463) -/

/-- The order taken from a slot. -/
def State.slotRec (s : State) (m : OrderMaster) (k : Nat) : OrderRec :=
  { id := s.ord.nextId, ref := { master := m, slot := k, tag := BitVec.ofNat 8 (ordTag (s.window k)) }
    word := s.window k, reserved := entriesFor (s.window k), detail := detailOf (s.window k), beat := s.beat }

/-- The state when the order of a slot was taken: the slot is empty, and NEXT stands behind it. -/
def State.slotTaken (s : State) (m : OrderMaster) (k : Nat) : State :=
  let t := s.takeOrder { master := m, slot := k, tag := BitVec.ofNat 8 (ordTag (s.window k)) } (s.window k)
  ({ t with ord.window := tset 0 t.ord.window k 0 } : State).setNext m k

theorem State.slotTaken_orders (s : State) (m : OrderMaster) (k : Nat) :
    (s.slotTaken m k).ord.orders = s.ord.orders ++ [s.slotRec m k] := by cases m <;> rfl

theorem State.slotTaken_waiting (s : State) (m : OrderMaster) (k : Nat) :
    (s.slotTaken m k).ord.waiting = s.ord.waiting := by cases m <;> rfl

theorem State.slotTaken_hostWr (s : State) (m : OrderMaster) (k : Nat) :
    (s.slotTaken m k).ord.hostWr = s.ord.hostWr := by cases m <;> rfl

theorem State.slotTaken_mgmtWr (s : State) (m : OrderMaster) (k : Nat) :
    (s.slotTaken m k).ord.mgmtWr = s.ord.mgmtWr := by cases m <;> rfl

theorem State.slotTaken_reg (s : State) (m : OrderMaster) (k : Nat) {j : Nat} (hj : j ≠ Reg.orderTaken) :
    (s.slotTaken m k).reg j = s.reg j := by
  have hregs : (s.slotTaken m k).regs = (s.bump Reg.orderTaken).regs := by cases m <;> rfl
  rw [State.reg, hregs]
  exact State.reg_bump_ne s 1 hj

theorem State.slotTaken_window (s : State) (m : OrderMaster) (k j : Nat) :
    (s.slotTaken m k).window j = if j = k then 0 else s.window j := by
  cases m <;> exact tget_tset 0 s.ord.window k j 0

/-- The slot holds an order written before the tick. -/
def State.offered (s : State) (k : Nat) : Prop := s.window k ≠ 0 ∧ k ∉ s.ord.waiting

theorem intakeSlot_skip (m : OrderMaster) (a : Intake) (k : Nat) (h : ¬ (a.1.offered k ∧ a.2.1 < 32)) :
    intakeSlot m a k = a := by
  unfold intakeSlot
  rw [if_pos]
  simp only [Bool.or_eq_true, beq_iff_eq, List.contains_eq_mem, decide_eq_true_eq]
  unfold State.offered at h
  by_contra hc
  exact h ⟨⟨fun h0 => hc (.inl (.inl h0)), fun hw => hc (.inl (.inr hw))⟩, by omega⟩

theorem intakeSlot_offered (m : OrderMaster) (a : Intake) (k : Nat) (h : a.1.offered k) (h32 : a.2.1 < 32) :
    intakeSlot m a k = if a.1.mayTake m (a.1.window k) a.2.2 then (a.1.slotTaken m k, a.2.1 + 1, a.2.2)
      else (a.1, a.2.1, true) := by
  obtain ⟨hword, hwait⟩ := h
  unfold intakeSlot
  rw [if_neg (by simpa [hwait, h32] using hword)]
  rfl

/-! ### What intake has done so far -/

/-- Intake started at `s` and stands at `a` with the orders `new` taken. -/
structure Intaken (s : State) (a : Intake) (new : List OrderRec) : Prop where
  orders : a.1.ord.orders = s.ord.orders ++ new
  count : a.2.1 = new.length
  atMost : new.length ≤ 32
  waiting : a.1.ord.waiting = s.ord.waiting
  window : ∀ k, a.1.window k = s.window k ∨ a.1.window k = 0 ∧ k ∈ new.map (·.ref.slot)
  fresh : ∀ o ∈ new, OrderRef.own o.ref = true ∧ o.word = s.window o.ref.slot ∧ s.offered o.ref.slot ∧
    a.1.window o.ref.slot = 0 ∧ o.done = none ∧ o.turn = false
  once : (new.map (·.ref.slot)).Nodup
  reserved : ∀ o ∈ new, o.reserved ≤ 2

theorem Intaken.start (s : State) : Intaken s (s, 0, false) [] where
  orders := by simp
  count := rfl
  atMost := by simp
  waiting := rfl
  window _ := .inl rfl
  fresh := by simp
  once := by simp
  reserved := by simp

/-- Whether intake stopped for the master plays no part. -/
theorem Intaken.stop {s : State} {a : Intake} {new : List OrderRec} (h : Intaken s a new) (b : Bool) :
    Intaken s (a.1, a.2.1, b) new := ⟨h.orders, h.count, h.atMost, h.waiting, h.window, h.fresh, h.once, h.reserved⟩

theorem entriesFor_le (w : Word) : entriesFor w ≤ 2 := by
  unfold entriesFor
  dsimp only
  (repeat' split) <;> omega

theorem Intaken.take {s : State} {a : Intake} {new : List OrderRec} (h : Intaken s a new) {m : OrderMaster} {k : Nat}
    (hown : ∀ tag, OrderRef.own { master := m, slot := k, tag } = true) (hoff : a.1.offered k) (h32 : a.2.1 < 32) :
    Intaken s (a.1.slotTaken m k, a.2.1 + 1, a.2.2) (new ++ [a.1.slotRec m k]) := by
  obtain ⟨hword, hwait⟩ := hoff
  have hnew : k ∉ new.map (·.ref.slot) := fun hk => by
    obtain ⟨o, ho, rfl⟩ := List.mem_map.1 hk
    exact hword (h.fresh o ho).2.2.2.1
  have hsame : a.1.window k = s.window k := (h.window k).resolve_right fun hk => hnew hk.2
  have hcount := h.count
  refine ⟨?_, ?_, ?_, ?_, fun j => ?_, fun o ho => ?_, ?_, fun o ho => ?_⟩
  · rw [State.slotTaken_orders, h.orders, List.append_assoc]
  · simp [h.count]
  · simp only [List.length_append, List.length_singleton]
    omega
  · rw [State.slotTaken_waiting, h.waiting]
  · rw [State.slotTaken_window, List.map_append, List.mem_append]
    split
    · rename_i hj
      exact .inr ⟨rfl, .inr (by simp [hj, State.slotRec])⟩
    · exact (h.window j).imp_right fun ⟨h0, hj⟩ => ⟨h0, .inl hj⟩
  · dsimp only
    rw [State.slotTaken_window]
    rcases List.mem_append.1 ho with ho | ho
    · obtain ⟨hown', hw, hoff', h0, hdone, hturn⟩ := h.fresh o ho
      exact ⟨hown', hw, hoff', by split <;> simp [h0], hdone, hturn⟩
    · obtain rfl := List.mem_singleton.1 ho
      exact ⟨hown _, hsame, ⟨hsame ▸ hword, h.waiting ▸ hwait⟩, if_pos rfl, rfl, rfl⟩
  · rw [List.map_append, List.nodup_append]
    refine ⟨h.once, List.nodup_singleton _, ?_⟩
    rintro j hj _ hk rfl
    obtain rfl := List.mem_singleton.1 hk
    exact hnew hj
  · rcases List.mem_append.1 ho with ho | ho
    · exact h.reserved o ho
    · obtain rfl := List.mem_singleton.1 ho
      exact entriesFor_le _

theorem Intaken.slot {s : State} {a : Intake} {new : List OrderRec} (h : Intaken s a new) {m : OrderMaster} {k : Nat}
    (hown : ∀ tag, OrderRef.own { master := m, slot := k, tag } = true) : ∃ new, Intaken s (intakeSlot m a k) new := by
  by_cases hoff : a.1.offered k ∧ a.2.1 < 32
  · rw [intakeSlot_offered m a k hoff.1 hoff.2]
    split
    · exact ⟨_, h.take hown hoff.1 hoff.2⟩
    · exact ⟨_, h.stop true⟩
  · exact ⟨new, by rwa [intakeSlot_skip m a k hoff]⟩

theorem Intaken.slots {s : State} {a : Intake} {new : List OrderRec} (h : Intaken s a new) {m : OrderMaster}
    (l : List Nat) (hown : ∀ k ∈ l, ∀ tag, OrderRef.own { master := m, slot := k, tag } = true) :
    ∃ new, Intaken s (l.foldl (intakeSlot m) a) new := by
  induction l generalizing a new with
  | nil => exact ⟨new, h⟩
  | cons k l ih =>
    obtain ⟨new', h'⟩ := h.slot (hown k (by simp))
    exact ih h' fun j hj => hown j (by simp [hj])

/-- The slots of a master are its own (R461). -/
theorem State.slotOrder_own (s : State) (m : OrderMaster) : ∀ k ∈ s.slotOrder m, ∀ tag,
    OrderRef.own { master := m, slot := k, tag } = true := by
  intro k hk tag
  cases m with
  | mgmt =>
    obtain ⟨i, -, rfl⟩ := List.mem_map.1 hk
    simp only [OrderRef.own, Bool.and_eq_true, decide_eq_true_eq]
    omega
  | hostk =>
    obtain ⟨i, -, rfl⟩ := List.mem_map.1 hk
    simp only [OrderRef.own, decide_eq_true_eq]
    omega

/-- Where intake stands after the slots of MGMT. -/
def State.intakeMgmt (s : State) : Intake := (s.slotOrder .mgmt).foldl (intakeSlot .mgmt) (s, 0, false)

/-- Where it stands after those of HOSTK. -/
def State.intakeHost (s : State) : Intake :=
  (s.intakeMgmt.1.slotOrder .hostk).foldl (intakeSlot .hostk) (s.intakeMgmt.1, s.intakeMgmt.2.1, false)

theorem State.intake_ord (s : State) : s.intake.ord = s.intakeHost.1.ord := by
  unfold State.intake State.intakeHost State.intakeMgmt
  dsimp only
  generalize List.foldl (intakeSlot .hostk) _ _ = b
  split <;> rfl

theorem State.intakeHost_intaken (s : State) : ∃ new, Intaken s s.intakeHost new := by
  obtain ⟨new, h⟩ : ∃ new, Intaken s s.intakeMgmt new := (Intaken.start s).slots _ (s.slotOrder_own .mgmt)
  have hhost := (h.stop false).slots _ (s.intakeMgmt.1.slotOrder_own .hostk)
  rwa [← State.intakeHost] at hhost

/-! ### With few orders every one is taken -/

/-- Both status rings are read out. -/
def State.ringsRead (s : State) : Prop :=
  s.ord.hostWr = (s.reg Reg.orderHostRd).setWidth 32 ∧ s.ord.mgmtWr = (s.reg Reg.orderMgmtRd).setWidth 32

theorem State.slotTaken_ringsRead {s : State} (h : s.ringsRead) (m : OrderMaster) (k : Nat) :
    (s.slotTaken m k).ringsRead := by
  obtain ⟨hhost, hmgmt⟩ := h
  refine ⟨?_, ?_⟩
  · rw [State.slotTaken_hostWr, State.slotTaken_reg _ _ _ (by decide), hhost]
  · rw [State.slotTaken_mgmtWr, State.slotTaken_reg _ _ _ (by decide), hmgmt]

theorem State.ringFree_of_ringsRead {s : State} (h : s.ringsRead) (m : OrderMaster) :
    s.ringFree m = 64 - ((s.ord.orders.filter fun o => o.ref.master = m).map (·.reserved)).sum := by
  obtain ⟨hhost, hmgmt⟩ := h
  cases m <;> simp [State.ringFree, unread, hhost, hmgmt]

/-- Fewer than 30 orders leave room for one more (R463). -/
theorem Intaken.mayTake {s : State} {a : Intake} {new : List OrderRec} (h : Intaken s a new)
    (hempty : s.ord.orders = []) (hread : a.1.ringsRead) (hlen : new.length ≤ 29) (m : OrderMaster)
    (w : Word) : a.1.mayTake m w false = true := by
  have hheld : ((a.1.ord.orders.filter fun o => o.ref.master = m).map (·.reserved)).sum ≤ 58 := by
    rw [h.orders, hempty, List.nil_append]
    calc ((new.filter fun o => o.ref.master = m).map (·.reserved)).sum
        ≤ ((new.filter fun o => o.ref.master = m).map (·.reserved)).length • 2 :=
          List.sum_le_card_nsmul _ _ fun n hn => by
            obtain ⟨o, ho, rfl⟩ := List.mem_map.1 hn
            exact h.reserved o (List.mem_filter.1 ho).1
      _ ≤ 58 := by
          have := List.length_filter_le (fun o : OrderRec => o.ref.master = m) new
          simp only [List.length_map, smul_eq_mul]
          omega
  have hentries := entriesFor_le w
  simp only [State.mayTake, State.ringFree_of_ringsRead hread, Bool.or_eq_true, Bool.and_eq_true, decide_eq_true_eq]
  exact .inl ⟨rfl, by omega⟩

/-- The slots that hold an order written before the tick. -/
def State.offers (s : State) : List Nat := (List.range 64).filter fun k => s.window k != 0 && !s.ord.waiting.contains k

theorem State.mem_offers {s : State} {k : Nat} : k ∈ s.offers ↔ k < 64 ∧ s.offered k := by
  simp [State.offers, State.offered]

theorem own_slot_lt {r : OrderRef} (h : OrderRef.own r = true) : r.slot < 64 := by
  unfold OrderRef.own at h
  split at h <;> simp at h <;> omega

/-- A slot that is still to come stands for one order fewer taken than were offered. -/
theorem Intaken.length_lt {s : State} {a : Intake} {new : List OrderRec} (h : Intaken s a new) {k : Nat}
    (hk : k ∈ s.offers) (hnew : k ∉ new.map (·.ref.slot)) : new.length < s.offers.length := by
  have hsub : k :: new.map (·.ref.slot) ⊆ s.offers := by
    rintro j (_ | ⟨_, hj⟩)
    · exact hk
    · obtain ⟨o, ho, rfl⟩ := List.mem_map.1 hj
      obtain ⟨hown, -, hoff, -⟩ := h.fresh o ho
      exact State.mem_offers.2 ⟨own_slot_lt hown, hoff⟩
  simpa using (List.Nodup.subperm (List.nodup_cons.2 ⟨hnew, h.once⟩) hsub).length_le

/-- Intake started at `s`, stands at `a` and has stopped for no master. -/
def Taking (s : State) (a : Intake) : Prop := (∃ new, Intaken s a new) ∧ a.1.ringsRead ∧ a.2.2 = false

theorem Taking.slot {s : State} {a : Intake} (h : Taking s a) (hempty : s.ord.orders = []) (h30 : s.offers.length ≤ 30)
    {m : OrderMaster} {k : Nat} (hown : ∀ tag, OrderRef.own { master := m, slot := k, tag } = true) :
    Taking s (intakeSlot m a k) ∧ (s.offered k → (intakeSlot m a k).1.window k = 0) := by
  obtain ⟨⟨new, hin⟩, hread, hstop⟩ := h
  by_cases hoff : a.1.offered k
  · obtain ⟨hword, hwait⟩ := hoff
    have hsame : a.1.window k = s.window k ∧ k ∉ new.map (·.ref.slot) := by
      refine ⟨(hin.window k).resolve_right fun hk => hword hk.1, fun hk => ?_⟩
      obtain ⟨o, ho, rfl⟩ := List.mem_map.1 hk
      exact hword (hin.fresh o ho).2.2.2.1
    have hmem : k ∈ s.offers :=
      State.mem_offers.2 ⟨own_slot_lt (hown 0), hsame.1 ▸ hword, hin.waiting ▸ hwait⟩
    have hlen := hin.length_lt hmem hsame.2
    have hcount := hin.count
    have htake : intakeSlot m a k = (a.1.slotTaken m k, a.2.1 + 1, a.2.2) := by
      rw [intakeSlot_offered m a k ⟨hword, hwait⟩ (by omega), hstop,
        hin.mayTake hempty hread (by omega), if_pos rfl]
    rw [htake]
    refine ⟨⟨⟨_, hin.take hown ⟨hword, hwait⟩ (by omega)⟩, State.slotTaken_ringsRead hread m k, hstop⟩, fun _ => ?_⟩
    rw [State.slotTaken_window, if_pos rfl]
  · rw [intakeSlot_skip m a k fun hc => hoff hc.1]
    refine ⟨⟨⟨new, hin⟩, hread, hstop⟩, fun hs => ?_⟩
    by_contra hword
    exact hoff ⟨hword, hin.waiting ▸ hs.2⟩

theorem intakeSlot_zero (m : OrderMaster) (a : Intake) (k : Nat) {j : Nat} (h : a.1.window j = 0) :
    (intakeSlot m a k).1.window j = 0 := by
  by_cases hoff : a.1.offered k ∧ a.2.1 < 32
  · rw [intakeSlot_offered m a k hoff.1 hoff.2]
    split
    · dsimp only
      rw [State.slotTaken_window]
      split
      · rfl
      · exact h
    · exact h
  · rwa [intakeSlot_skip m a k hoff]

theorem intakeSlots_zero (m : OrderMaster) (l : List Nat) (a : Intake) {j : Nat} (h : a.1.window j = 0) :
    (l.foldl (intakeSlot m) a).1.window j = 0 := by
  induction l generalizing a with
  | nil => exact h
  | cons k l ih => exact ih _ (intakeSlot_zero m a k h)

theorem Taking.slots {s : State} {a : Intake} (h : Taking s a) (hempty : s.ord.orders = []) (h30 : s.offers.length ≤ 30)
    {m : OrderMaster} (l : List Nat) (hown : ∀ k ∈ l, ∀ tag, OrderRef.own { master := m, slot := k, tag } = true) :
    Taking s (l.foldl (intakeSlot m) a) ∧ ∀ k ∈ l, s.offered k → (l.foldl (intakeSlot m) a).1.window k = 0 := by
  induction l generalizing a with
  | nil => exact ⟨h, by simp⟩
  | cons k l ih =>
    obtain ⟨hk, hzero⟩ := h.slot hempty h30 (hown k (by simp))
    obtain ⟨hl, hzeros⟩ := ih hk fun j hj => hown j (by simp [hj])
    refine ⟨hl, fun j hj hoff => ?_⟩
    rcases List.mem_cons.1 hj with rfl | hj
    · exact intakeSlots_zero m l _ (hzero hoff)
    · exact hzeros j hj hoff

/-- The turn of a master's slots comes round to every one of them (R462). -/
theorem exists_add_mod (n : Nat) (a : Nat) {k : Nat} (hk : k < n) : ∃ i < n, (a + i) % n = k := by
  refine ⟨(k + n - a % n) % n, Nat.mod_lt _ (by omega), ?_⟩
  have ha := Nat.mod_lt a (show 0 < n by omega)
  have hdiv := Nat.div_add_mod a n
  calc (a + (k + n - a % n) % n) % n = (a + (k + n - a % n)) % n := Nat.add_mod_mod ..
    _ = (k + n * (a / n) + n) % n := by congr 1; omega
    _ = k := by rw [Nat.add_mod_right, Nat.add_mul_mod_self_left, Nat.mod_eq_of_lt hk]

theorem State.mem_slotOrder_mgmt (s : State) {k : Nat} (h : 56 ≤ k) (h' : k < 64) : k ∈ s.slotOrder .mgmt := by
  obtain ⟨i, hi, hik⟩ := exists_add_mod 8 (s.ord.mgmtNext - 56) (k := k - 56) (by omega)
  exact List.mem_map.2 ⟨i, List.mem_range.2 hi, by omega⟩

theorem State.mem_slotOrder_hostk (s : State) {k : Nat} (h : k < 56) : k ∈ s.slotOrder .hostk := by
  obtain ⟨i, hi, hik⟩ := exists_add_mod 56 s.ord.hostNext h
  exact List.mem_map.2 ⟨i, List.mem_range.2 hi, hik⟩

theorem Taking.restart {s : State} {a : Intake} (h : Taking s a) : Taking s (a.1, a.2.1, false) := by
  obtain ⟨⟨new, hin⟩, hread, -⟩ := h
  exact ⟨⟨new, hin.stop false⟩, hread, rfl⟩

theorem State.intakeMgmt_all {s : State} (hempty : s.ord.orders = []) (hread : s.ringsRead)
    (h30 : s.offers.length ≤ 30) :
    Taking s s.intakeMgmt ∧ ∀ k ∈ s.slotOrder .mgmt, s.offered k → s.intakeMgmt.1.window k = 0 := by
  have hstart : Taking s (s, 0, false) := ⟨⟨_, Intaken.start s⟩, hread, rfl⟩
  rw [State.intakeMgmt]
  exact hstart.slots hempty h30 _ (s.slotOrder_own .mgmt)

theorem State.intakeHost_all {s : State} (hempty : s.ord.orders = []) (hread : s.ringsRead) (h30 : s.offers.length ≤ 30)
    {k : Nat} (hk : k < 64) (hoff : s.offered k) : s.intakeHost.1.window k = 0 := by
  obtain ⟨htaking, hmgmt⟩ := State.intakeMgmt_all hempty hread h30
  rw [State.intakeHost]
  generalize s.intakeMgmt = a at htaking hmgmt
  by_cases h56 : k < 56
  · obtain ⟨-, hhost⟩ := htaking.restart.slots hempty h30 _ (a.1.slotOrder_own .hostk)
    exact hhost k (State.mem_slotOrder_hostk _ h56) hoff
  · exact intakeSlots_zero .hostk _ (a.1, a.2.1, false) (hmgmt k (s.mem_slotOrder_mgmt (by omega) hk) hoff)

/-! ### Every order has its turn (R66) -/

/-- An order of the list of turns has had its turn when its number is one of `ids`. -/
def giveTurns (ids : List Nat) (x : Nat × Word × OrderRef × Bool) : Nat × Word × OrderRef × Bool :=
  if x.1 ∈ ids then (x.1, x.2.1, x.2.2.1, true) else x

/-- The numbers of the orders differ. -/
def State.distinctOrders (s : State) : Prop := ((orderTurns s.ord.orders).map (·.1)).Nodup

theorem State.distinctOrders_of_sameRun {s t : State} (h : SameRun s t) (hs : s.distinctOrders) : t.distinctOrders := by
  rw [State.distinctOrders, h.2]
  exact hs

theorem giveTurns_fst (ids : List Nat) (x : Nat × Word × OrderRef × Bool) : (giveTurns ids x).1 = x.1 := by
  unfold giveTurns
  split <;> rfl

theorem giveTurns_nil : giveTurns [] = id := funext fun _ => if_neg List.not_mem_nil

theorem giveTurns_cons (i : Nat) (ids : List Nat) (x : Nat × Word × OrderRef × Bool) :
    giveTurns ids (giveTurns [i] x) = giveTurns (i :: ids) x := by
  by_cases hi : x.1 = i
  · simp [giveTurns, hi]
  · simp [giveTurns, hi]

theorem State.modOrder_turn (s : State) (id : Nat) :
    orderTurns (s.modOrder id fun o => { o with turn := true }).ord.orders =
      (orderTurns s.ord.orders).map (giveTurns [id]) := by
  simp only [orderTurns, State.modOrder, List.map_map]
  refine List.map_congr_left fun o _ => ?_
  by_cases h : o.id = id <;> simp [giveTurns, h]

theorem State.orderTurn_orderTurns {s : State} (hs : s.distinctOrders) (id : Nat)
    (ans : Option (Option PartnerAnswer)) :
    orderTurns (s.orderTurn id ans).ord.orders = (orderTurns s.ord.orders).map (giveTurns [id]) := by
  have hnone (h : ∀ o ∈ s.ord.orders, o.id = id → o.turn = true) :
      orderTurns s.ord.orders = (orderTurns s.ord.orders).map (giveTurns [id]) := by
    simp only [orderTurns, List.map_map]
    refine List.map_congr_left fun o ho => ?_
    by_cases hid : o.id = id
    · simp [giveTurns, hid, h o ho hid]
    · simp [giveTurns, hid]
  unfold State.orderTurn
  split
  · rename_i hfind
    refine hnone fun o ho hid => absurd hid ?_
    simpa using List.find?_eq_none.1 hfind o ho
  · rename_i o hfind
    have hmem := List.mem_of_find?_eq_some hfind
    have hid : o.id = id := by simpa using List.find?_some hfind
    split
    · rename_i hturn
      refine hnone fun o' ho' hid' => ?_
      have hinj : (s.ord.orders.map (·.id)).Nodup := by
        simpa [State.distinctOrders, orderTurns, Function.comp_def] using hs
      rw [List.inj_on_of_nodup_map hinj ho' hmem (hid'.trans hid.symm)]
      exact hturn
    · rw [← State.modOrder_turn]
      dsimp only
      split
      · exact (State.finish_sameRun _ _ _).2
      · exact (State.orderDo_sameRun _ _ _).2

theorem State.orderTurns_foldl {s : State} (hs : s.distinctOrders) (l : List OrderRec) :
    orderTurns (l.foldl (fun s o => s.orderTurn o.id none) s).ord.orders =
      (orderTurns s.ord.orders).map (giveTurns (l.map (·.id))) := by
  induction l generalizing s with
  | nil => simp [giveTurns_nil]
  | cons o l ih =>
    have hturn := State.orderTurn_orderTurns hs o.id none
    have hnext : (s.orderTurn o.id none).distinctOrders := by
      rw [State.distinctOrders, hturn, List.map_map]
      simpa [Function.comp_def, giveTurns_fst, State.distinctOrders] using hs
    rw [List.foldl_cons, ih hnext, hturn, List.map_map, List.map_cons]
    exact List.map_congr_left fun x _ => giveTurns_cons ..

/-- What a live chip has done in a dispatch phase before the orders have their turns. -/
def State.beforeOrders (s : State) : State := if s.scheduled.ready then s.scheduled.taintStart else s.scheduled

theorem State.dispatchAll_of_live (s : State) (hf : s.life.frozen = false) (hshut : s.life.shutdownEvent = none) :
    s.dispatchAll = (s.beforeOrders.ord.orders.foldl (fun s o => s.orderTurn o.id none)
      s.beforeOrders.waitingOrders).readDispatch := by
  unfold State.dispatchAll
  rw [hf, hshut, if_neg Bool.false_ne_true, if_neg (by simp)]
  rfl

theorem State.beforeOrders_sameRun (s : State) : SameRun s s.beforeOrders := by
  unfold State.beforeOrders
  split <;> simp

theorem State.dispatchAll_orderTurns (s : State) (hf : s.life.frozen = false) (hshut : s.life.shutdownEvent = none)
    (hs : s.distinctOrders) : orderTurns s.dispatchAll.ord.orders =
      (orderTurns s.ord.orders).map (giveTurns (s.ord.orders.map (·.id))) := by
  have hids : s.beforeOrders.ord.orders.map (·.id) = s.ord.orders.map (·.id) := by
    have h := congrArg (List.map (·.1)) s.beforeOrders_sameRun.2
    simpa [orderTurns, Function.comp_def] using h
  have hwait : SameRun s s.beforeOrders.waitingOrders := s.beforeOrders_sameRun.trans (State.waitingOrders_sameRun _)
  rw [s.dispatchAll_of_live hf hshut, (State.readDispatch_sameRun _).2,
    State.orderTurns_foldl (State.distinctOrders_of_sameRun hwait hs), hids, hwait.2]

/-! ### A frozen chip (Table 13.6) -/

theorem OnlyChanges.readDispatch (s : State) : OnlyChanges [.arm, .dbg] s s.readDispatch := by
  have hanswer (bs : List Byte) (n : Nat) : OnlyChanges [.arm, .dbg] s (s.readAnswer bs n) := fun p hp => by
    cases p <;> simp_all [Same, State.readAnswer]
  have hsend (q : SendReq) : OnlyChanges [.arm, .dbg] s (s.hubSend q) := (OnlyChanges.hubSend s q).mono (by simp)
  unfold State.readDispatch
  dsimp only
  (repeat' split)
  exacts [OnlyChanges.refl _ s, OnlyChanges.refl _ s, hsend _, hsend _, hanswer _ _, hanswer _ _, hanswer _ _]

theorem exec_dispatch_of_frozen (s : State) (hf : s.life.frozen = true) (hmay : s.mayPhase 7 7935 = true) :
    ∃ t, exec .dispatch s = .next t ∧ OnlyChanges [.time, .arm, .dbg] s t := by
  refine ⟨(s.atPhase 7 5632).readDispatch, ?_, ?_⟩
  · have hf' : (s.atPhase 7 5632).life.frozen = true := by rw [OnlyChanges.atPhase s 7 5632 .life (by simp), hf]
    rw [exec_dispatch, doWhen_true hmay, State.dispatchAll, if_pos hf']
  · exact ((OnlyChanges.atPhase s _ _).mono (by simp)).trans ((OnlyChanges.readDispatch _).mono (by simp))

theorem exec_orderIntake_of_frozen (s : State) (hf : s.life.frozen = true) (hmay : s.mayPhase 2 255 = true) :
    exec .orderIntake s = .next (s.atPhase 2 0) := by
  rw [exec_orderIntake, doWhen_true hmay, if_pos hf]

/-! ### Live chips -/

theorem State.frozen_of_live {s : State} (h : s.live = true) : s.life.frozen = false := by
  simp only [State.live, Bool.and_eq_true, Bool.not_eq_true'] at h
  exact h.2

theorem exec_orderIntake_of_live (s : State) (hlive : s.live = true) (hmay : s.mayPhase 2 255 = true) :
    exec .orderIntake s = .next (s.atPhase 2 0).intake := by
  rw [exec_orderIntake, doWhen_true hmay, State.frozen_of_live hlive, if_neg Bool.false_ne_true]

theorem State.atPhase_ord (s : State) (rank c : Nat) : (s.atPhase rank c).ord = s.ord :=
  OnlyChanges.atPhase s rank c .ord (by simp)

theorem State.atPhase_window (s : State) (rank c k : Nat) : (s.atPhase rank c).window k = s.window k := by
  rw [State.window, State.atPhase_ord, State.window]

theorem State.atPhase_offered (s : State) (rank c k : Nat) : (s.atPhase rank c).offered k ↔ s.offered k := by
  rw [State.offered, State.atPhase_window, State.atPhase_ord, State.offered]

/-- What an intake of a live chip leaves, in terms of the state before its phase. -/
theorem exec_orderIntake_intaken (s : State) (hlive : s.live = true) (hmay : s.mayPhase 2 255 = true) :
    ∃ t new, exec .orderIntake s = .next t ∧ t.ord = (s.atPhase 2 0).intakeHost.1.ord ∧
      Intaken s (s.atPhase 2 0).intakeHost new := by
  obtain ⟨new, h⟩ := (s.atPhase 2 0).intakeHost_intaken
  refine ⟨_, new, exec_orderIntake_of_live s hlive hmay, State.intake_ord _, ?_⟩
  generalize (s.atPhase 2 0).intakeHost = a at h
  have hord := s.atPhase_ord 2 0
  refine ⟨hord ▸ h.orders, h.count, h.atMost, hord ▸ h.waiting, fun k => ?_, fun o ho => ?_, h.once, h.reserved⟩
  · simpa only [State.atPhase_window] using h.window k
  · simpa only [State.atPhase_window, State.atPhase_offered] using h.fresh o ho

theorem exec_dispatch_turns (s : State) (hlive : s.live = true) (hmay : s.mayPhase 7 7935 = true)
    (hshut : s.life.shutdownEvent = none) (hs : s.distinctOrders) :
    ∃ t, exec .dispatch s = .next t ∧ orderTurns t.ord.orders =
      (orderTurns s.ord.orders).map (giveTurns (s.ord.orders.map (·.id))) := by
  have hord := s.atPhase_ord 7 5632
  have hlife : (s.atPhase 7 5632).life = s.life := OnlyChanges.atPhase s 7 5632 .life (by simp)
  have h := (s.atPhase 7 5632).dispatchAll_orderTurns (by rw [hlife, State.frozen_of_live hlive]) (by rw [hlife, hshut])
    (by rw [State.distinctOrders, hord]; exact hs)
  rw [hord] at h
  exact ⟨_, by rw [exec_dispatch, doWhen_true hmay], h⟩

/-- Settles O15: intake keeps the record of what it took slot by slot, and each turn of the dispatch marks its order,
which nothing else of the phase does. -/
theorem intakeAndDispatch : Obligations.IntakeAndDispatch := by
  refine ⟨fun s hlive hmay => ?_, fun s hlive hmay hshut hnodup => ?_, fun s hf hmay => ?_, fun s hf hmay => ?_,
    fun s hlive hmay hempty hhost hmgmt h30 => ?_⟩
  · obtain ⟨t, new, hexec, hord, hin⟩ := exec_orderIntake_intaken s hlive hmay
    have hwindow (k : Nat) : t.window k = (s.atPhase 2 0).intakeHost.1.window k := by
      rw [State.window, hord, State.window]
    refine ⟨t, new, hexec, by rw [hord, hin.orders], hin.atMost, fun o ho => ?_, fun k hk => ?_⟩
    · obtain ⟨hown, hword, ⟨hne, hwait⟩, hzero, hdone, hturn⟩ := hin.fresh o ho
      exact ⟨hown, hword, hword ▸ hne, hwait, (hwindow _).trans hzero, hdone, hturn⟩
    · rw [hwindow]
      refine (hin.window k).resolve_right fun ⟨_, hnew⟩ => ?_
      obtain ⟨o, ho, rfl⟩ := List.mem_map.1 hnew
      exact (hin.fresh o ho).2.2.1.2 hk
  · have hs : s.distinctOrders := by simpa [State.distinctOrders, orderTurns, Function.comp_def] using hnodup
    obtain ⟨t, hexec, hturns⟩ := exec_dispatch_turns s hlive hmay hshut hs
    refine ⟨t, hexec, ?_, fun o ho => ?_⟩
    · have h := congrArg (List.map fun x => (x.1, x.2.1, x.2.2.1)) hturns
      simpa [orderTurns, Function.comp_def, giveTurns, apply_ite] using h
    · have hmem : (o.id, o.word, o.ref, o.turn) ∈ orderTurns t.ord.orders := List.mem_map.2 ⟨o, ho, rfl⟩
      rw [hturns] at hmem
      obtain ⟨x, hx, hox⟩ := List.mem_map.1 hmem
      obtain ⟨o', ho', rfl⟩ := List.mem_map.1 hx
      rw [giveTurns, if_pos (List.mem_map.2 ⟨o', ho', rfl⟩)] at hox
      simp_all
  · obtain ⟨t, hexec, h⟩ := exec_dispatch_of_frozen s hf hmay
    exact ⟨t, hexec, h .ord (by simp), h .map (by simp), h .stack (by simp)⟩
  · have h := OnlyChanges.atPhase s 2 0
    exact ⟨_, exec_orderIntake_of_frozen s hf hmay, h .ord (by simp), h .map (by simp), h .stack (by simp)⟩
  · obtain ⟨t, new, hexec, hord, hin⟩ := exec_orderIntake_intaken s hlive hmay
    refine ⟨t, hexec, fun k hk hwait hword => ?_⟩
    have hregs : (s.atPhase 2 0).regs = s.regs := OnlyChanges.atPhase s 2 0 .regs (by simp)
    have hread : (s.atPhase 2 0).ringsRead := by
      rw [State.ringsRead, State.reg, State.reg, hregs, s.atPhase_ord]
      exact ⟨hhost, hmgmt⟩
    have hoffers : (s.atPhase 2 0).offers.length ≤ 30 := by
      simpa only [State.offers, State.atPhase_window, State.atPhase_ord] using h30
    have hzero := State.intakeHost_all (by rw [s.atPhase_ord, hempty]) hread hoffers hk
      ((s.atPhase_offered 2 0 k).2 ⟨hword, hwait⟩)
    refine ⟨by rw [State.window, hord]; exact hzero, ?_⟩
    have hnew : k ∈ new.map (·.ref.slot) := by
      rcases hin.window k with hsame | ⟨-, hnew⟩
      · exact absurd (hsame.symm.trans hzero) hword
      · exact hnew
    obtain ⟨o, ho, rfl⟩ := List.mem_map.1 hnew
    refine ⟨o, ?_, rfl, (hin.fresh o ho).2.1⟩
    rw [hord, hin.orders]
    exact List.mem_append_right _ ho

end Sys2Proof.Machine
end

section
/-! O17. The summaries of the nodes. -/

namespace Sys2Proof.Machine

/-! ### What the end of a sampling session leaves as it is -/

/-- From `s` to `t` the time, the armature, LATE_REPORTS and every tile's core and patina inputs are the same. -/
def SameInputs (s t : State) : Prop :=
  t.time = s.time ∧ t.arm = s.arm ∧ t.reg Reg.beatLateReports = s.reg Reg.beatLateReports ∧
    ∀ v, (t.tile v).core = (s.tile v).core ∧ (t.tile v).pat = (s.tile v).pat

theorem SameInputs.refl (s : State) : SameInputs s s := ⟨rfl, rfl, rfl, fun _ => ⟨rfl, rfl⟩⟩

theorem SameInputs.trans {a b c : State} (h : SameInputs a b) (h' : SameInputs b c) : SameInputs a c := by
  obtain ⟨htime, harm, hreg, htile⟩ := h
  obtain ⟨htime', harm', hreg', htile'⟩ := h'
  exact ⟨htime'.trans htime, harm'.trans harm, hreg'.trans hreg,
    fun v => ⟨(htile' v).1.trans (htile v).1, (htile' v).2.trans (htile v).2⟩⟩

theorem SameInputs.foldl {α : Type} (f : State → α → State) (h : ∀ u x, SameInputs u (f u x)) (l : List α)
    (s : State) : SameInputs s (l.foldl f s) := by
  induction l generalizing s with
  | nil => exact .refl s
  | cons x l ih => exact (h s x).trans (ih _)

theorem SameInputs.modMaq (s : State) (t : Nat) (f : MaqTile → MaqTile) : SameInputs s (s.modMaq t f) := by
  refine ⟨rfl, rfl, rfl, fun v => ?_⟩
  by_cases hv : v = t
  · subst hv
    simp
  · simp [State.tile_modMaq_ne s f hv]

theorem SameInputs.bump (s : State) {k : Nat} (n : Nat) (hk : Reg.beatLateReports ≠ k) : SameInputs s (s.bump k n) :=
  ⟨rfl, rfl, State.reg_bump_ne s n hk, fun _ => ⟨rfl, rfl⟩⟩

theorem SameInputs.setSession (s : State) (k : Nat) (x : Option Session) : SameInputs s (s.setSession k x) :=
  ⟨rfl, rfl, rfl, fun _ => ⟨rfl, rfl⟩⟩

theorem SameInputs.raise (s : State) (r : EvRec) : SameInputs s (s.raise r) := ⟨rfl, rfl, rfl, fun _ => ⟨rfl, rfl⟩⟩

theorem SameInputs.maqEnd (s : State) (k : Nat) (o : MaqOut) : SameInputs s (s.maqEnd k o) := by
  have hcount (u : State) (k t lo : Nat) (hk : Reg.beatLateReports ≠ k) : SameInputs u ((u.bump k).maqTally t lo) :=
    (SameInputs.bump u 1 hk).trans (.modMaq _ t _)
  unfold State.maqEnd
  split
  · exact .refl s
  · split
    · exact .refl s
    · have hsession := SameInputs.setSession s k
      dsimp only
      split
      · exact (hsession _).trans (hcount _ _ _ _ (by decide))
      · exact (hsession _).trans (hcount _ _ _ _ (by decide))
      · exact hsession _
      · exact ((hsession _).trans (hcount _ _ _ _ (by decide))).trans (.raise _ _)

theorem SameInputs.maqOutcome (s : State) (t : Nat) (x : Summary) : SameInputs s (s.maqOutcome t x) := by
  unfold State.maqOutcome
  split
  · exact .refl s
  · split
    · exact .refl s
    · split
      · exact .maqEnd s _ _
      · exact (SameInputs.bump s 1 (by decide)).trans (.setSession _ _ _)
      · exact .maqEnd s _ _
      · exact .refl s

theorem SameInputs.maqSourceHalt (s : State) (t : Nat) : SameInputs s (s.maqSourceHalt t) := by
  refine .foldl _ (fun u k => ?_) _ s
  split
  · dsimp only
    split
    · exact .maqEnd u _ _
    · exact .refl u
  · exact .refl u

/-! ### One summary is taken (R69, R105, R250) -/

/-- The patina inputs with a summary's counts. -/
def PatTile.addSummary (p : PatTile) (x : Summary) : PatTile :=
  { p with sums := { p.sums with
      eccCorr := p.sums.eccCorr + x.eccCorr, eccUncorr := p.sums.eccUncorr + x.eccUncorr
      sealFault := p.sums.sealFault + x.sealFault, droop := p.sums.droop + x.droop } }

theorem PatTile.sums_of_addSummary {p q : PatTile} {x : Summary} (h : q = p.addSummary x) :
    q.sums.eccCorr = p.sums.eccCorr + x.eccCorr ∧ q.sums.eccUncorr = p.sums.eccUncorr + x.eccUncorr ∧
      q.sums.sealFault = p.sums.sealFault + x.sealFault ∧ q.sums.droop = p.sums.droop + x.droop := by
  subst h
  exact ⟨rfl, rfl, rfl, rfl⟩

/-- What the summary says about throttling is counted. -/
def State.countFlags (s : State) (t : Nat) (x : Summary) : State :=
  { s with
    arm.throttled := if x.throttle then t :: s.arm.throttled.filter (· != t) else s.arm.throttled.filter (· != t)
    arm.flagged := s.arm.flagged + b2n x.throttle, arm.dropped := s.arm.dropped + x.evdrop }

/-- The hub has the summary and has added its counts. -/
def State.summaryAdded (s : State) (t : Nat) (x : Summary) : State :=
  ((s.summaryIn t x).modPat t fun p => p.addSummary x).countFlags t x

theorem State.takeSummary_sameInputs (s : State) (t : Nat) (x : Summary) :
    SameInputs (s.summaryAdded t x) (s.takeSummary t x) := by
  have hmaq := SameInputs.maqOutcome (s.summaryAdded t x) t x
  have hhalt : SameInputs (s.summaryAdded t x) (if x.halted then ((s.summaryAdded t x).maqOutcome t x).maqSourceHalt t
      else (s.summaryAdded t x).maqOutcome t x) := by
    split
    · exact hmaq.trans (.maqSourceHalt _ t)
    · exact hmaq
  have htake : s.takeSummary t x = if x.due then (if x.halted then ((s.summaryAdded t x).maqOutcome t x).maqSourceHalt t
      else (s.summaryAdded t x).maqOutcome t x).modMaq t fun m => { m with due := some x.beat }
    else if x.halted then ((s.summaryAdded t x).maqOutcome t x).maqSourceHalt t
      else (s.summaryAdded t x).maqOutcome t x := rfl
  rw [htake]
  split
  · exact hhalt.trans (.modMaq _ t _)
  · exact hhalt

/-! ### What the taking of one node's summary leaves of another's -/

/-- From `s` to `t` the summaries of tile `v`, its patina inputs, the XID last taken of their stream and the time are
the same. -/
def KeepsSummary (v : Nat) (s t : State) : Prop :=
  t.time = s.time ∧ (t.tile v).core.sums = (s.tile v).core.sums ∧ (t.tile v).pat = (s.tile v).pat ∧
    t.lastXid (.report v 1) = s.lastXid (.report v 1)

theorem KeepsSummary.refl (v : Nat) (s : State) : KeepsSummary v s s := ⟨rfl, rfl, rfl, rfl⟩

theorem KeepsSummary.trans {v : Nat} {a b c : State} (h : KeepsSummary v a b) (h' : KeepsSummary v b c) :
    KeepsSummary v a c := by
  obtain ⟨htime, hsums, hpat, hxid⟩ := h
  obtain ⟨htime', hsums', hpat', hxid'⟩ := h'
  exact ⟨htime'.trans htime, hsums'.trans hsums, hpat'.trans hpat, hxid'.trans hxid⟩

theorem KeepsSummary.of_sameInputs {s t : State} (h : SameInputs s t) (v : Nat) : KeepsSummary v s t := by
  obtain ⟨htime, harm, -, htile⟩ := h
  exact ⟨htime, by rw [(htile v).1], (htile v).2, by rw [State.lastXid, harm, State.lastXid]⟩

/-- A change to another tile. -/
theorem KeepsSummary.modTile (s : State) {t v : Nat} (f : Tile → Tile) (hv : v ≠ t) :
    KeepsSummary v s (s.modTile t f) := by
  have htile := State.tile_modTile_ne s f hv
  exact ⟨rfl, by rw [htile], by rw [htile], rfl⟩

theorem State.lastXid_setLastXid_ne (s : State) {k k' : StreamId} (x : BitVec 16) (h : k' ≠ k) :
    (s.setLastXid k x).lastXid k' = s.lastXid k' := by
  have hfind : (fun e : StreamId × BitVec 16 => decide (decide (e.1 ≠ k) = true ∧ decide (e.1 = k') = true)) =
      fun e => decide (e.1 = k') := by
    funext e
    by_cases he : e.1 = k'
    · simp [he, h]
    · simp [he]
  simp only [State.lastXid, State.setLastXid, List.find?_cons, List.find?_filter, hfind, decide_eq_false h.symm]

theorem KeepsSummary.summaryNext (s : State) {t v : Nat} (hv : v ≠ t) : KeepsSummary v s (s.summaryNext t) := by
  have hcore : KeepsSummary v s (s.modCore t fun c => c.summaryNext s.time.time) := .modTile s _ hv
  unfold State.summaryNext
  dsimp only
  split
  · exact hcore.trans ⟨rfl, rfl, rfl, rfl⟩
  · exact hcore

/-- The hub notes the XID of the packet that came from node `t` on its summary stream. -/
def State.xidNoted (s : State) (t : Nat) : State :=
  let x := ((s.streamOf t 1).map (·.xid)).getD 0
  { s.setLastXid (.report t 1) x with arm.lastAck := some (.report t 1, x, false) }

theorem State.exchanged_eq (s : State) (t : Nat) : s.exchanged t 1 =
    ((s.xidNoted t).modCore t fun c => { c with sums := ackSummary c.sums }).summaryNext t := rfl

/-- The node's list of summaries as the hub's taking of one of them leaves it, before the packet's exchange. -/
def takenSums (x : Summary) (xs : List Summary) : List Summary :=
  if x.st.acked then xs.erase x else xs.map fun y => if y = x then { y with st.taken := true } else y

def State.summaryMarked (s : State) (t : Nat) (x : Summary) : State :=
  s.modCore t fun c => { c with sums := takenSums x c.sums }

theorem State.summaryIn_eq (s : State) (t : Nat) (x : Summary) : s.summaryIn t x =
    if !x.st.acked && (s.summaryMarked t x).onItsWay t 1 then (s.summaryMarked t x).exchanged t 1
    else s.summaryMarked t x := rfl

theorem KeepsSummary.exchanged (s : State) {t v : Nat} (hv : v ≠ t) : KeepsSummary v s (s.exchanged t 1) := by
  have hxid : KeepsSummary v s (s.xidNoted t) := ⟨rfl, rfl, rfl, s.lastXid_setLastXid_ne _ (by simp [hv])⟩
  rw [s.exchanged_eq]
  exact (hxid.trans (.modTile _ _ hv)).trans (.summaryNext _ hv)

theorem KeepsSummary.summaryIn (s : State) {t v : Nat} (x : Summary) (hv : v ≠ t) :
    KeepsSummary v s (s.summaryIn t x) := by
  have hmark : KeepsSummary v s (s.summaryMarked t x) := .modTile s _ hv
  rw [s.summaryIn_eq]
  split
  · exact hmark.trans (.exchanged _ hv)
  · exact hmark

theorem KeepsSummary.takeSummary (s : State) {t v : Nat} (x : Summary) (hv : v ≠ t) :
    KeepsSummary v s (s.takeSummary t x) := by
  have hpat (u : State) : KeepsSummary v u ((u.modPat t fun p => p.addSummary x).countFlags t x) :=
    (KeepsSummary.modTile u _ hv).trans ⟨rfl, rfl, rfl, rfl⟩
  exact ((KeepsSummary.summaryIn s x hv).trans (hpat _)).trans (.of_sameInputs (s.takeSummary_sameInputs t x) v)

/-! ### The summary of the node itself -/

/-- The node's one summary is there for the hub to take: it was not taken before, and its acknowledgement is in or its
packet comes. -/
def State.summaryDue (s : State) (u : Nat) (x : Summary) : Prop :=
  (s.tile u).core.sums = [x] ∧ x.st.taken = false ∧ (x.st.acked = true ∨ s.onItsWay u 1 = true)

theorem State.summaryHere_of_due {s : State} {u : Nat} {x : Summary} (h : s.summaryDue u x) :
    s.summaryHere u x = true := by
  obtain ⟨hsums, htaken, hcome⟩ := h
  cases hacked : x.st.acked
  case true => simp [State.summaryHere, htaken, hacked]
  case false =>
    simp [State.onItsWay, State.streamOf, Core.outSummary, hsums, hacked] at hcome
    simp [State.summaryHere, htaken, Core.outSummary, hsums, hacked, hcome.1]

/-- From `s` to `t` the time and the patina inputs of tile `u` are the same. -/
def SamePat (u : Nat) (s t : State) : Prop := t.time = s.time ∧ (t.tile u).pat = (s.tile u).pat

theorem SamePat.trans {u : Nat} {a b c : State} (h : SamePat u a b) (h' : SamePat u b c) : SamePat u a c :=
  ⟨h'.1.trans h.1, h'.2.trans h.2⟩

theorem SamePat.modCore (s : State) (u : Nat) (f : Core → Core) : SamePat u s (s.modCore u f) := ⟨rfl, by simp⟩

theorem State.summaryNext_of_empty {s : State} {u : Nat} (h : (s.tile u).core.sums = []) :
    ((s.summaryNext u).tile u).core.sums = [] ∧ SamePat u s (s.summaryNext u) := by
  have hcore : (s.tile u).core.summaryNext s.time.time = (s.tile u).core := by
    simp [Core.summaryNext, Core.outSummary, h]
  have hnext : s.summaryNext u = s.modCore u fun c => c.summaryNext s.time.time := by
    simp [State.summaryNext, Core.outSummary, hcore, h]
  rw [hnext]
  exact ⟨by simp [hcore, h], .modCore s u _⟩

/-- The exchange of a summary that was taken ends it. -/
theorem State.exchanged_of_taken {s : State} {u : Nat} {y : Summary} (hsums : (s.tile u).core.sums = [y])
    (hacked : y.st.acked = false) (htaken : y.st.taken = true) :
    ((s.exchanged u 1).tile u).core.sums = [] ∧ SamePat u s (s.exchanged u 1) := by
  have htile : (s.xidNoted u).tile u = s.tile u := rfl
  have hnoted : SamePat u s (s.xidNoted u) := ⟨rfl, rfl⟩
  obtain ⟨hempty, hpat⟩ := State.summaryNext_of_empty (u := u)
    (s := (s.xidNoted u).modCore u fun c => { c with sums := ackSummary c.sums })
    (by simp [htile, hsums, ackSummary, hacked, htaken])
  rw [s.exchanged_eq]
  exact ⟨hempty, (hnoted.trans (.modCore _ u _)).trans hpat⟩

theorem State.summaryIn_of_due {s : State} {u : Nat} {x : Summary} (h : s.summaryDue u x) :
    ((s.summaryIn u x).tile u).core.sums = [] ∧ SamePat u s (s.summaryIn u x) := by
  obtain ⟨hsums, -, hcome⟩ := h
  have hmark : SamePat u s (s.summaryMarked u x) := .modCore s u _
  have hmarked : ((s.summaryMarked u x).tile u).core.sums = takenSums x [x] := by
    simp [State.summaryMarked, hsums]
  rw [s.summaryIn_eq]
  cases hacked : x.st.acked
  case true =>
    rw [takenSums, hacked, if_pos rfl] at hmarked
    exact ⟨hmarked.trans (by simp), hmark⟩
  case false =>
    have hway : (s.summaryMarked u x).onItsWay u 1 = true := by
      have hxid : (s.summaryMarked u x).lastXid (.report u 1) = s.lastXid (.report u 1) := rfl
      have hcome' : s.onItsWay u 1 = true := hcome.resolve_left (by simp [hacked])
      simp [State.onItsWay, State.streamOf, Core.outSummary, hsums, hacked] at hcome'
      simpa [State.onItsWay, State.streamOf, Core.outSummary, hmarked, takenSums, hacked, hxid] using hcome'
    rw [takenSums, hacked, if_neg Bool.false_ne_true, List.map_singleton, if_pos rfl] at hmarked
    obtain ⟨hempty, hpat⟩ := State.exchanged_of_taken hmarked hacked rfl
    rw [hway, if_pos (by decide)]
    exact ⟨hempty, hmark.trans hpat⟩

theorem State.takeSummary_of_due {s : State} {u : Nat} {x : Summary} (h : s.summaryDue u x) :
    ((s.takeSummary u x).tile u).core.sums = [] ∧
      ((s.takeSummary u x).tile u).pat = (s.tile u).pat.addSummary x ∧ (s.takeSummary u x).time = s.time := by
  obtain ⟨hempty, htime, hpat⟩ := State.summaryIn_of_due h
  have hadd : ((s.summaryAdded u x).tile u).core.sums = [] ∧
      ((s.summaryAdded u x).tile u).pat = (s.tile u).pat.addSummary x ∧ (s.summaryAdded u x).time = s.time := by
    have htile : (s.summaryAdded u x).tile u = ((s.summaryIn u x).modPat u fun p => p.addSummary x).tile u := rfl
    rw [htile, State.tile_modPat_self]
    exact ⟨hempty, by rw [hpat], htime⟩
  obtain ⟨htime', -, -, htile'⟩ := s.takeSummary_sameInputs u x
  rw [(htile' u).1, (htile' u).2, htime']
  exact hadd

/-! ### The aggregation (R69, R106) -/

/-- The aggregation looks at one node. -/
def State.aggregateOne (late : List Nat) (s : State) (t : Nat) : State :=
  match (s.tile t).core.sums.find? fun x => x.beat + 1 == s.beat && s.summaryHere t x with
  | some x => if late.contains t then s else s.takeSummary t x
  | none => s

/-- The aggregation closes: it logs the beat's throttled and late summaries. -/
def State.aggregateClose (s : State) : State :=
  let s := if s.arm.flagged == 0 then s
    else s.raiseHub 0x0023 .note (pack [(32, 32, s.arm.flagged), (0, 32, s.arm.dropped)])
  let s := if s.time.lateNow == 0 then s
    else s.raiseHub 0x0017 .note (pack [(32, 32, s.time.lateNow), (0, 32, s.time.lateOldest)])
  { s with arm.flagged := 0, arm.dropped := 0, time.lateNow := 0, time.lateOldest := 0 }

theorem State.aggregate_eq (s : State) (late : List Nat) :
    s.aggregate late = (allTiles.foldl (State.aggregateOne late) s).aggregateClose := by
  obtain ⟨l, hl⟩ := exists_eq_allTiles
  rw [State.aggregate, hl]
  rfl

theorem State.aggregateOne_of_mem {late : List Nat} (s : State) {t : Nat} (h : t ∈ late) :
    s.aggregateOne late t = s := by
  unfold State.aggregateOne
  split
  · rw [if_pos (by simpa using h)]
  · rfl

theorem State.aggregateOne_of_none (late : List Nat) (s : State) {t : Nat}
    (h : ∀ x ∈ (s.tile t).core.sums, s.summaryHere t x = false) : s.aggregateOne late t = s := by
  have hnone : ((s.tile t).core.sums.find? fun x => x.beat + 1 == s.beat && s.summaryHere t x) = none :=
    List.find?_eq_none.2 fun x hx => by simp [h x hx]
  unfold State.aggregateOne
  rw [hnone]

theorem State.aggregateOne_of_empty (late : List Nat) {s : State} {t : Nat} (h : (s.tile t).core.sums = []) :
    s.aggregateOne late t = s := s.aggregateOne_of_none late (by simp [h])

theorem State.aggregateOne_of_due {late : List Nat} {s : State} {t : Nat} {x : Summary} (h : s.summaryDue t x)
    (hbeat : x.beat + 1 = s.beat) (hlate : t ∉ late) : s.aggregateOne late t = s.takeSummary t x := by
  have hfind : ((s.tile t).core.sums.find? fun x => x.beat + 1 == s.beat && s.summaryHere t x) = some x := by
    rw [h.1, List.find?_cons_of_pos (by simp [hbeat, State.summaryHere_of_due h])]
  unfold State.aggregateOne
  rw [hfind]
  exact if_neg (by simpa using hlate)

theorem KeepsSummary.aggregateOne (late : List Nat) (s : State) {t v : Nat} (hv : v ≠ t) :
    KeepsSummary v s (s.aggregateOne late t) := by
  unfold State.aggregateOne
  split
  · split
    · exact .refl v s
    · exact .takeSummary s _ hv
  · exact .refl v s

theorem KeepsSummary.summaryDue {u : Nat} {s t : State} (h : KeepsSummary u s t) {x : Summary} (hx : s.summaryDue u x) :
    t.summaryDue u x := by
  obtain ⟨-, hsums, -, hxid⟩ := h
  obtain ⟨hone, htaken, hcome⟩ := hx
  refine ⟨hsums.trans hone, htaken, hcome.imp_right fun hway => ?_⟩
  simpa only [State.onItsWay, State.streamOf, Core.outSummary, hsums, hxid] using hway

/-- The aggregation leaves a node alone that has no summary. -/
theorem State.aggregateAll_of_empty (late : List Nat) (l : List Nat) {s : State} {u : Nat}
    (h : (s.tile u).core.sums = []) : KeepsSummary u s (l.foldl (State.aggregateOne late) s) := by
  induction l generalizing s with
  | nil => exact .refl u s
  | cons t l ih =>
    have hstep : KeepsSummary u s (s.aggregateOne late t) := by
      by_cases ht : u = t
      · rw [State.aggregateOne_of_empty late (ht ▸ h)]
        exact .refl u s
      · exact .aggregateOne late s ht
    exact hstep.trans (ih (hstep.2.1.trans h))

/-- The aggregation takes a node's summary when it comes to the node, whatever it does before and after. -/
theorem State.aggregateAll_of_due {late : List Nat} {u : Nat} {x : Summary} (hlate : u ∉ late) {l : List Nat}
    (hu : u ∈ l) {s : State} (h : s.summaryDue u x) (hbeat : x.beat + 1 = s.beat) :
    ((l.foldl (State.aggregateOne late) s).tile u).core.sums = [] ∧
      ((l.foldl (State.aggregateOne late) s).tile u).pat = (s.tile u).pat.addSummary x ∧
      (l.foldl (State.aggregateOne late) s).time = s.time := by
  induction l generalizing s with
  | nil => simp at hu
  | cons t l ih =>
    rw [List.foldl_cons]
    by_cases ht : u = t
    · subst ht
      obtain ⟨hempty, hpat, htime⟩ := State.takeSummary_of_due h
      rw [State.aggregateOne_of_due h hbeat hlate]
      obtain ⟨htime', hsums', hpat', -⟩ := State.aggregateAll_of_empty late l hempty
      exact ⟨hsums'.trans hempty, hpat'.trans hpat, htime'.trans htime⟩
    · have hstep := KeepsSummary.aggregateOne late s ht
      have hdue := hstep.summaryDue h
      obtain ⟨htime, -, hpat, -⟩ := hstep
      obtain ⟨hsums', hpat', htime'⟩ := ih (by simpa [ht] using hu) hdue (by rw [State.beat, htime]; exact hbeat)
      exact ⟨hsums', by rw [hpat', hpat], htime'.trans htime⟩

theorem State.aggregateAll_of_idle {late : List Nat} {s : State} (l : List Nat) (h : ∀ t, s.aggregateOne late t = s) :
    l.foldl (State.aggregateOne late) s = s := List.foldl_fixed' h l

/-! ### The aggregation closes -/

theorem State.aggregateClose_tiles (s : State) : s.aggregateClose.tiles = s.tiles := by
  unfold State.aggregateClose
  dsimp only
  (repeat' split) <;> rfl

theorem State.aggregateClose_tile (s : State) (u : Nat) : s.aggregateClose.tile u = s.tile u :=
  State.tile_of_tiles s.aggregateClose_tiles u

theorem State.aggregateClose_time (s : State) :
    s.aggregateClose.time = { s.time with lateNow := 0, lateOldest := 0 } := by
  unfold State.aggregateClose
  dsimp only
  (repeat' split) <;> rfl

theorem State.aggregateClose_flagged (s : State) : s.aggregateClose.arm.flagged = 0 := rfl

theorem State.aggregateClose_late (s : State) (h : s.time.lateNow ≠ 0) :
    mkRec s.time.time 0x0017 srcPlinth 0 .note (pack [(32, 32, s.time.lateNow), (0, 32, s.time.lateOldest)]) ∈
      s.aggregateClose.ev.queue := by
  unfold State.aggregateClose
  dsimp only
  split <;> simp [State.raiseHub, State.raise, h]

/-! ### The commands -/

theorem mem_allTiles {u : Nat} (h : u < numTiles) : u ∈ allTiles := List.mem_range.2 h

theorem exec_verdictAggregation_of_ready {s : State} (hready : s.ready = true) (hmay : s.mayPhase 3 4095 = true)
    (late : List Nat) : exec (.verdictAggregation late) s =
      .next (allTiles.foldl (State.aggregateOne late) (s.atPhase 3 4095)).aggregateClose := by
  rw [exec_verdictAggregation, doWhen_true hmay, if_pos hready, State.aggregate_eq]

theorem State.atPhase_tile (s : State) (rank c u : Nat) : (s.atPhase rank c).tile u = s.tile u :=
  State.tile_of_tiles (OnlyChanges.atPhase s rank c .tiles (by simp)) u

/-- Passing to a later cycle of the beat changes of the time's own state only the time and the slew. -/
theorem State.toCycle_timeSt (s : State) (c : Nat) : ∃ now last pend, (s.toCycle c).time =
    { s.time with time := now, lastSlew := last, slewPend := pend } := by
  have h : (s.ackDrain (c - s.cyc)).time = s.time := OnlyChanges.ackDrain s _ .time (by simp)
  unfold State.toCycle
  split
  · dsimp only [State.slew]
    rw [h]
    exact ⟨_, _, _, rfl⟩
  · exact ⟨_, _, _, rfl⟩

/-- What the commands at the start of a phase leave for the phase itself to read. -/
theorem State.atPhase_reads (s : State) (rank c : Nat) :
    (s.atPhase rank c).time.lateNow = s.time.lateNow ∧ (s.atPhase rank c).time.lateOldest = s.time.lateOldest ∧
      ∀ k, (s.atPhase rank c).lastXid k = s.lastXid k := by
  obtain ⟨now, last, pend, h⟩ := ({ s with time.phase := rank } : State).toCycle_timeSt c
  have hxid (u : State) (n : Nat) : (u.ackDrain n).arm.lastXid = u.arm.lastXid := by
    unfold State.ackDrain
    split <;> rfl
  refine ⟨by rw [State.atPhase, h], by rw [State.atPhase, h], fun k => ?_⟩
  unfold State.atPhase State.toCycle
  split
  · dsimp only [State.lastXid, State.slew]
    rw [hxid]
  · rfl

theorem State.summaryDue_atPhase (s : State) {u : Nat} {x : Summary} (h : s.summaryDue u x) (rank c : Nat) :
    (s.atPhase rank c).summaryDue u x := by
  obtain ⟨-, -, hxid⟩ := s.atPhase_reads rank c
  simpa only [State.summaryDue, State.onItsWay, State.streamOf, State.atPhase_tile, hxid] using h

/-- A summary that is due has been taken when the aggregation closes. -/
theorem exec_verdictAggregation_of_due {s : State} (hready : s.ready = true) (hmay : s.mayPhase 3 4095 = true) {u : Nat}
    (hu : u < numTiles) {x : Summary} (hdue : s.summaryDue u x) (hbeat : x.beat + 1 = s.beat) {late : List Nat}
    (hlate : u ∉ late) : ∃ a : State, exec (.verdictAggregation late) s = .next a.aggregateClose ∧
      (a.tile u).core.sums = [] ∧ (a.tile u).pat = (s.tile u).pat.addSummary x ∧ a.time = (s.atPhase 3 4095).time := by
  obtain ⟨-, hb, -⟩ := s.atPhase_ran 3 (c := 4095) (by decide)
  have h := State.aggregateAll_of_due hlate (mem_allTiles hu) (s.summaryDue_atPhase hdue 3 4095) (by rw [hb, hbeat])
  rw [State.atPhase_tile] at h
  exact ⟨_, exec_verdictAggregation_of_ready hready hmay late, h⟩

/-- With nothing to take the aggregation only closes. -/
theorem exec_verdictAggregation_of_idle {s : State} (hready : s.ready = true) (hmay : s.mayPhase 3 4095 = true)
    {late : List Nat} (h : ∀ t, (s.atPhase 3 4095).aggregateOne late t = s.atPhase 3 4095) :
    ∃ t, exec (.verdictAggregation late) s = .next t ∧ t.time.phase = 3 ∧ t.time.lateNow = 0 ∧ t.arm.flagged = 0 ∧
      ∀ v, t.tile v = s.tile v := by
  rw [exec_verdictAggregation_of_ready hready hmay, State.aggregateAll_of_idle _ h]
  refine ⟨_, rfl, ?_, ?_, State.aggregateClose_flagged _, fun v => ?_⟩
  · rw [State.aggregateClose_time]
    exact s.atPhase_phase 3 4095
  · rw [State.aggregateClose_time]
  · rw [State.aggregateClose_tile, State.atPhase_tile]

/-! ### A summary of an older beat (R69) -/

theorem State.summaryNext_regs (s : State) (t : Nat) : (s.summaryNext t).regs = s.regs := by
  unfold State.summaryNext
  dsimp only
  split <;> rfl

theorem State.xidNoted_regs (s : State) (t : Nat) : (s.xidNoted t).regs = s.regs := rfl

theorem State.exchanged_regs (s : State) (t : Nat) : (s.exchanged t 1).regs = s.regs := by
  rw [State.exchanged_eq, State.summaryNext_regs, OnlyChanges.modCore _ _ _ .regs (by simp), State.xidNoted_regs]

theorem State.summaryMarked_regs (s : State) (t : Nat) (x : Summary) : (s.summaryMarked t x).regs = s.regs :=
  OnlyChanges.modCore s t _ .regs (by simp)

theorem State.summaryIn_regs (s : State) (t : Nat) (x : Summary) : (s.summaryIn t x).regs = s.regs := by
  rw [s.summaryIn_eq]
  split
  · rw [State.exchanged_regs, State.summaryMarked_regs]
  · rw [State.summaryMarked_regs]

theorem State.takeSummary_lateReports (s : State) (t : Nat) (x : Summary) :
    (s.takeSummary t x).reg Reg.beatLateReports = s.reg Reg.beatLateReports := by
  obtain ⟨-, -, hreg, -⟩ := s.takeSummary_sameInputs t x
  have hregs : (s.summaryAdded t x).regs = (s.summaryIn t x).regs := rfl
  rw [hreg, State.reg, hregs, State.summaryIn_regs, State.reg]

/-- What LATE_SUMMARY counts beside the summary's own counts. -/
def State.lateCounted (s : State) (x : Summary) : State :=
  { s.bump Reg.beatLateReports with
    time.lateNow := s.time.lateNow + 1
    time.lateOldest := if s.time.lateNow == 0 then x.beat else min s.time.lateOldest x.beat }

theorem State.lateSummary_of_due {s : State} {u : Nat} {x : Summary} (h : s.summaryDue u x)
    (hbeat : x.beat + 1 < s.beat) : s.lateSummary u = (s.takeSummary u x).lateCounted x := by
  have hfind : ((s.tile u).core.sums.find? fun x => x.beat + 1 < s.beat && s.summaryHere u x) = some x := by
    rw [h.1, List.find?_cons_of_pos (by simp [hbeat, State.summaryHere_of_due h])]
  rw [State.lateSummary, hfind]
  rfl

theorem State.lateCounted_tile (s : State) (x : Summary) (u : Nat) : (s.lateCounted x).tile u = s.tile u := rfl

theorem State.lateCounted_reg (s : State) (x : Summary) :
    (s.lateCounted x).reg Reg.beatLateReports = (s.bump Reg.beatLateReports).reg Reg.beatLateReports := rfl

theorem State.lateCounted_time (s : State) (x : Summary) : (s.lateCounted x).time.lateNow = s.time.lateNow + 1 ∧
    (s.lateCounted x).time.lateOldest = if s.time.lateNow = 0 then x.beat else min s.time.lateOldest x.beat := by
  simp [State.lateCounted]

theorem exec_lateSummary (s : State) (u : Nat) :
    exec (.lateSummary u) s = doWhen (s.ready && s.mayPhase 3 4095) (fun s => s.lateSummary u) s := rfl

/-- Settles O17: the summary of a node is taken when its turn comes, the turns of the others do not touch it, and a
summary that is late or was discarded is passed over. -/
theorem summariesCountOnce : Obligations.SummariesCountOnce := by
  refine ⟨fun s u x late hready hmay hu hsums hbeat hlate htaken hcome => ?_,
    fun s u x late hready hmay _ hothers hsums hbeat hlate => ?_,
    fun s u x hready hmay _ hothers hsums hacked hlost => ?_,
    fun s u x hready hmay hsums hbeat htaken hcome => ?_⟩
  · obtain ⟨t, hexec, hempty, hpat, htime⟩ :=
      exec_verdictAggregation_of_due hready hmay hu ⟨hsums, htaken, hcome⟩ hbeat hlate
    obtain ⟨hnow, hold, -⟩ := s.atPhase_reads 3 4095
    obtain ⟨hcorr, huncorr, hseal, hdroop⟩ :=
      PatTile.sums_of_addSummary ((congrArg Tile.pat (t.aggregateClose_tile u)).trans hpat)
    refine ⟨_, hexec, ?_, ?_, t.aggregateClose_flagged, ?_, hcorr, huncorr, hseal, hdroop, fun hne => ?_⟩
    · rw [State.aggregateClose_time, htime]
      exact s.atPhase_phase 3 4095
    · rw [State.aggregateClose_time]
    · rw [State.aggregateClose_tile, hempty]
    · have h := t.aggregateClose_late (by rw [htime, hnow]; exact hne)
      rw [State.aggregateClose_time]
      rwa [htime, hnow, hold, ← htime] at h
  · obtain ⟨t, hexec, hphase, hnow, hflag, htile⟩ :=
      exec_verdictAggregation_of_idle hready hmay (late := late) fun v => by
        by_cases hv : v = u
        · exact State.aggregateOne_of_mem _ (hv ▸ hlate)
        · exact State.aggregateOne_of_empty late (by rw [State.atPhase_tile, hothers v hv])
    exact ⟨t, hexec, hphase, hnow, hflag, by rw [htile, hsums], by rw [htile]⟩
  · obtain ⟨t, hexec, -, -, -, htile⟩ := exec_verdictAggregation_of_idle hready hmay (late := []) fun v => by
      by_cases hv : v = u
      · refine State.aggregateOne_of_none [] _ fun y hy => ?_
        rw [hv, State.atPhase_tile, hsums, List.mem_singleton] at hy
        simp [State.summaryHere, hy, hacked, hlost]
      · exact State.aggregateOne_of_empty [] (by rw [State.atPhase_tile, hothers v hv])
    exact ⟨t, hexec, by rw [htile, hsums], by rw [htile]⟩
  · have hdue : s.summaryDue u x := ⟨hsums, htaken, hcome⟩
    obtain ⟨hempty, hpat, htime⟩ := State.takeSummary_of_due hdue
    obtain ⟨hnow, hold⟩ := (s.takeSummary u x).lateCounted_time x
    obtain ⟨hcorr, huncorr, hseal, hdroop⟩ :=
      PatTile.sums_of_addSummary ((congrArg Tile.pat ((s.takeSummary u x).lateCounted_tile x u)).trans hpat)
    refine ⟨_, by rw [exec_lateSummary, doWhen_true (by simp [hready, hmay]), State.lateSummary_of_due hdue hbeat],
      ?_, ?_, ?_, hcorr, huncorr, hseal, hdroop, ?_⟩
    · rw [State.lateCounted_tile, hempty]
    · rw [hnow, htime]
    · rw [hold, htime]
    · rw [State.lateCounted_reg, State.reg_bump_self _ _ _ (regMask_lt _), State.takeSummary_lateReports]

end Sys2Proof.Machine
end

section
/-! O18. The synchronization of plinth time and the watch over the clock domains. -/

namespace Sys2Proof.Machine

/-! ### A change of the time's own state only -/

theorem OnlyChanges.setTime (s : State) (x : TimeSt) : OnlyChanges [.time] s { s with time := x } := fun p hp => by
  cases p <;> simp_all [Same]

theorem OnlyChanges.raiseSkew (s : State) : OnlyChanges [.ev] s s.raiseSkew := OnlyChanges.raiseHub s _ _ _

/-! ### SYNC_PPS (R62, R63) -/

/-- At or before cycle `c` of a beat, passing to it brings plinth time there. -/
theorem State.toCycle_time_of_le (s : State) {c : Nat} (hc : s.cyc ≤ c) (hlt : c < beatCycles) :
    (s.toCycle c).time.time = word (s.beat * beatCycles + c) := by
  unfold State.toCycle
  split
  · rfl
  · rename_i hnot
    have hcyc : s.cyc = c := by simp [hlt] at hnot; omega
    have htime : s.beat * beatCycles + s.cyc = s.time.time.toNat := by
      rw [State.beat, State.cyc, Nat.mul_comm]
      exact Nat.div_add_mod _ _
    rw [← hcyc, htime, word, BitVec.ofNat_toNat, BitVec.setWidth_eq]

/-- An edge of SYNC_PPS changes the time's own state, and may log the lock. -/
theorem State.ppsEdge_eq (s : State) : ∃ (x : TimeSt) (locks : Bool) (detail : Word),
    s.ppsEdge = (if locks then ({ s with time := x } : State).raiseHub 0x0016 .info detail else { s with time := x }) ∧
      x.ppsStamp = s.time.time ∧ x.ppsLost = false ∧ x.ppsBeats = 0 ∧ (s.time.ppsSeen = true →
        x.ppsErr = BitVec.ofInt 32 ((s.time.time - s.time.ppsStamp).toInt - 1024000000)) :=
  ⟨_, _, _, rfl, rfl, rfl, rfl, fun h => if_pos h⟩

theorem State.ppsEdge_time (s : State) : s.ppsEdge.time.ppsStamp = s.time.time ∧ s.ppsEdge.time.ppsLost = false ∧
    s.ppsEdge.time.ppsBeats = 0 ∧ (s.time.ppsSeen = true →
      s.ppsEdge.time.ppsErr = BitVec.ofInt 32 ((s.time.time - s.time.ppsStamp).toInt - 1024000000)) := by
  obtain ⟨x, locks, detail, h, hx⟩ := s.ppsEdge_eq
  have htime : s.ppsEdge.time = x := by
    rw [h]
    split <;> rfl
  rw [htime]
  exact hx

theorem OnlyChanges.ppsEdge (s : State) : OnlyChanges [.time, .ev] s s.ppsEdge := by
  obtain ⟨x, locks, detail, h, -⟩ := s.ppsEdge_eq
  have htime : OnlyChanges [.time, .ev] s { s with time := x } := (OnlyChanges.setTime s x).mono (by simp)
  rw [h]
  split
  · exact htime.trans ((OnlyChanges.raiseHub _ _ _ _).mono (by simp))
  · exact htime

theorem exec_syncPpsEdge (s : State) (cyc : Nat) :
    exec (.syncPpsEdge cyc) s = doWhen s.life.powered (fun s => (s.toCycle cyc).ppsEdge) s := rfl

theorem exec_syncPpsEdge_of_powered (s : State) {cyc : Nat} (hpow : s.life.powered = true) (hc : s.cyc ≤ cyc)
    (hlt : cyc < beatCycles) :
    ∃ t, exec (.syncPpsEdge cyc) s = .next t ∧ t.time.ppsStamp = word (s.beat * beatCycles + cyc) ∧
      t.time.ppsLost = false ∧ t.time.ppsBeats = 0 ∧ OnlyChanges [.time, .ev, .arm] s t ∧ (s.time.ppsSeen = true →
        t.time.ppsErr = BitVec.ofInt 32 ((word (s.beat * beatCycles + cyc) - s.time.ppsStamp).toInt - 1024000000)) := by
  obtain ⟨hstamp, hlost, hbeats, herr⟩ := (s.toCycle cyc).ppsEdge_time
  obtain ⟨now, last, pend, htime⟩ := s.toCycle_timeSt cyc
  have hnow := s.toCycle_time_of_le hc hlt
  refine ⟨_, by rw [exec_syncPpsEdge, doWhen_true hpow], hstamp.trans hnow, hlost, hbeats, ?_, fun hseen => ?_⟩
  · exact ((OnlyChanges.toCycle s cyc).mono (by simp)).trans ((OnlyChanges.ppsEdge _).mono (by simp))
  · rw [herr (by rw [htime]; exact hseen), hnow, htime]

theorem exec_ppsLost (s : State) : exec .ppsLost s = doWhen s.life.powered State.ppsLose s := rfl

theorem exec_ppsLost_of_late (s : State) (hpow : s.life.powered = true) (hlost : s.time.ppsLost = false)
    (hbeats : 250000 ≤ s.time.ppsBeats) :
    ∃ t, exec .ppsLost s = .next t ∧ t.time.ppsLost = true ∧ t.time.ppsGood = 0 ∧ OnlyChanges [.time, .ev] s t ∧
      (s.isMaster = true → t.time.ppsLock = false ∧
        t.ev.queue = s.ev.queue ++ [mkRec s.time.time 0x0015 srcPlinth 0 .note s.time.ppsStamp]) ∧
      (s.isMaster = false → t.time.ppsLock = s.time.ppsLock ∧ t.ev = s.ev) := by
  have htime (x : TimeSt) : OnlyChanges [.time, .ev] s { s with time := x } := (OnlyChanges.setTime s x).mono (by simp)
  refine ⟨_, by rw [exec_ppsLost, doWhen_true hpow], ?_⟩
  unfold State.ppsLose
  rw [if_neg (by simp [hlost, hbeats])]
  cases hmaster : s.isMaster
  case true =>
    refine ⟨rfl, rfl, ?_, fun _ => ⟨Bool.and_false _, rfl⟩, by simp⟩
    exact (htime _).trans ((OnlyChanges.raiseHub _ _ _ _).mono (by simp))
  case false => exact ⟨rfl, rfl, htime _, by simp, fun _ => ⟨Bool.and_true _, rfl⟩⟩

/-! ### Election (R57) -/

/-- What an election starts from: the advertisements are used up and SYNC_CTL comes into force. -/
def State.electStart (s : State) (advs : List ElectAdv) : State :=
  { s with time.ctlInForce := s.reg Reg.beatSyncCtl, time.advs := [], time.masterForced := false
           time.masterLost := s.masterGone (s.electAdvs advs) }

/-- The advertisements that count: those of another master, on trained links. -/
def State.countedAdvs (s : State) (advs : List ElectAdv) : List ElectAdv :=
  (s.electAdvs advs).filter fun a => s.trained a.link && a.master != some Config.chipId

/-- A chip that is its own master after the election. -/
theorem State.electOwn (s : State) {st : Nat} (hst : st = 3 ∨ st = 4) :
    OnlyChanges [.time] s ((s.electTo st 0x3F 0 Config.chipId).timeSplit none) ∧
      ((s.electTo st 0x3F 0 Config.chipId).timeSplit none).time.state = st ∧
      ((s.electTo st 0x3F 0 Config.chipId).timeSplit none).time.masterId = Config.chipId ∧
      ((s.electTo st 0x3F 0 Config.chipId).timeSplit none).time.uplink = 0x3F ∧
      ((s.electTo st 0x3F 0 Config.chipId).timeSplit none).time.depth = 0 ∧
      ((s.electTo st 0x3F 0 Config.chipId).timeSplit none).time.skewMet = true := by
  have hskew : (s.electSet st 0x3F 0 Config.chipId).time.skewMet = true := by
    rcases hst with rfl | rfl <;> simp [State.electSet]
  have helect : s.electTo st 0x3F 0 Config.chipId = s.electSet st 0x3F 0 Config.chipId := by
    simp [State.electTo, hskew]
  rw [helect]
  exact ⟨(OnlyChanges.setTime s _).trans (OnlyChanges.setTime _ _), rfl, rfl, rfl, rfl, hskew⟩

theorem State.elect_of_alone {s : State} (h : ∀ n, n < numLinks → s.trained n = false) (advs : List ElectAdv) :
    s.elect advs = ((s.electStart advs).electTo 4 0x3F 0 Config.chipId).timeSplit none := by
  have hnone : ((List.range numLinks).any (s.electStart advs).trained) = false := by
    rw [List.any_eq_false]
    intro n hn
    have htrained : (s.electStart advs).trained n = s.trained n := rfl
    rw [htrained, h n (List.mem_range.1 hn)]
    exact Bool.false_ne_true
  unfold State.electStart at hnone
  unfold State.elect
  dsimp only
  rw [hnone]
  rfl

/-- Advertisements without a master leave the chip's own claim the best. -/
theorem bestClaim_of_none (own : Option Claim) {advs : List ElectAdv} (h : ∀ a ∈ advs, a.master = none) :
    bestClaim own advs = own := by
  unfold bestClaim
  induction advs with
  | nil => rfl
  | cons a advs ih =>
    rw [List.foldl_cons, h a (by simp)]
    exact ih fun b hb => h b (by simp [hb])

theorem State.ownClaim_eq {s : State} (h : fld s.time.ctlInForce 1 0 ≠ 2) :
    ∃ forced, s.ownClaim = some (Config.chipId, forced) := by
  unfold State.ownClaim
  split
  · exact ⟨_, rfl⟩
  · rename_i hrole
    exact absurd hrole h
  · exact ⟨_, rfl⟩

theorem State.elect_of_best {s : State} {advs : List ElectAdv} (htrained : ∃ n, n < numLinks ∧ s.trained n = true)
    (hadvs : ∀ a ∈ s.electAdvs advs, a.master = none ∨ a.master = some Config.chipId)
    (hrole : fld (s.reg Reg.beatSyncCtl) 1 0 ≠ 2) :
    s.elect advs = ((s.electStart advs).electTo 3 0x3F 0 Config.chipId).timeSplit none := by
  have hany : ((List.range numLinks).any (s.electStart advs).trained) = true := by
    obtain ⟨n, hn, ht⟩ := htrained
    exact List.any_eq_true.2 ⟨n, List.mem_range.2 hn, ht⟩
  have hclaim : ∃ forced,
      bestClaim (s.electStart advs).ownClaim (s.countedAdvs advs) = some (Config.chipId, forced) := by
    rw [bestClaim_of_none]
    · exact State.ownClaim_eq hrole
    · intro a ha
      obtain ⟨hmem, hcount⟩ := List.mem_filter.1 ha
      refine (hadvs a hmem).resolve_right fun hown => ?_
      simp [hown] at hcount
  obtain ⟨forced, hbest⟩ := hclaim
  have helect : s.elect advs = if !(List.range numLinks).any (s.electStart advs).trained then
      ((s.electStart advs).electTo 4 0x3F 0 Config.chipId).timeSplit none
    else match bestClaim (s.electStart advs).ownClaim (s.countedAdvs advs) with
      | none => ((s.electStart advs).electTo 0 0x3F 0 Config.chipId).timeSplit none
      | some (m, forced) =>
        if m == Config.chipId then ((s.electStart advs).electTo 3 0x3F 0 Config.chipId).timeSplit none
        else
          match bestUplink m (s.countedAdvs advs) with
          | none => ((s.electStart advs).electTo 0 0x3F 0 Config.chipId).timeSplit none
          | some a =>
            ({ s.electStart advs with time.masterForced := forced, time.masterLost := false }.electTo 2 a.link
                (a.hops + 1) m).timeSplit
              (if forced && fld (s.electStart advs).time.ctlInForce 1 0 == 1 then some m else none) := rfl
  rw [helect, hany, hbest]
  simp

theorem exec_elect (s : State) (advs : List ElectAdv) :
    exec (.elect advs) s = doWhen (s.life.powered && 4 ≤ s.life.stage) (fun s => s.elect advs) s := rfl

/-! ### The exchange with the upstream chip (R58, R59, R114) -/

theorem State.judgeSkew_time (s : State) (upMet : Bool) :
    ∃ met, (s.judgeSkew upMet).time = { s.time with skewMet := met } := by
  unfold State.judgeSkew
  dsimp only
  split
  · exact ⟨_, rfl⟩
  · exact ⟨_, rfl⟩

theorem OnlyChanges.judgeSkew (s : State) (upMet : Bool) : OnlyChanges [.time, .ev] s (s.judgeSkew upMet) := by
  have htime (x : TimeSt) : OnlyChanges [.time, .ev] s { s with time := x } := (OnlyChanges.setTime s x).mono (by simp)
  unfold State.judgeSkew
  dsimp only
  split
  · exact (htime _).trans ((OnlyChanges.raiseSkew _).mono (by simp))
  · exact htime _

theorem exec_timex (s : State) (x : Option TimexIn) :
    exec (.timex x) s = doWhen (s.life.powered && 4 ≤ s.life.stage) (fun s => s.timex x) s := rfl

/-- What a lost exchange counts. -/
def State.exchangeMissed (s : State) : State := { s.bump Reg.armSentLost with time.missed := s.time.missed + 1 }

theorem OnlyChanges.exchangeMissed (s : State) : OnlyChanges [.time, .regs] s s.exchangeMissed :=
  ((OnlyChanges.bump s _ 1).mono (by simp)).trans ((OnlyChanges.setTime _ _).mono (by simp))

theorem OnlyRegs.exchangeMissed (s : State) : OnlyRegs [Reg.armSentLost] s s.exchangeMissed :=
  (OnlyRegs.bump s Reg.armSentLost 1).trans (.of_regs rfl)

theorem State.timex_of_lost {s : State} (hstate : s.time.state = 2) (hmissed : s.time.missed < 3) :
    s.timex none = s.exchangeMissed := by
  have hn : ¬ 4 ≤ (s.bump Reg.armSentLost).time.missed + 1 := show ¬ 4 ≤ s.time.missed + 1 by omega
  unfold State.timex
  rw [if_neg (by simp [hstate])]
  dsimp only
  rw [if_neg hn, if_neg hn]
  rfl

/-- What an exchange brings before SKEW_MET is judged. -/
def State.exchangeShown (s : State) (x : TimexIn) : State :=
  { s with
    time.offset := BitVec.ofInt 32 (timexOffset x), time.slewPend := timexCounts x, time.missed := 0
    time.depth := x.depth + 1
    time.good := if decide ((timexUnits x).natAbs ≤ 31250) then min (s.time.good + 1) 16 else 0 }

theorem State.timex_of_done {s : State} (hstate : s.time.state = 2) (x : TimexIn) :
    s.timex (some x) = (s.exchangeShown x).judgeSkew x.upMet := by
  unfold State.timex
  rw [if_neg (by simp [hstate])]
  rfl

/-! ### Adoption and the loss of the master (R60, R61) -/

/-- The tick leaves the slew still to do as it is. -/
theorem State.tickAfter_slewPend (s : State) (b : Nat) : (s.tickAfter b).time.slewPend = s.time.slewPend := by
  have hstart : s.tickStart.time.slewPend = s.time.slewPend := by
    have htime : s.tickStart.time = s.tickCounts.mgmtTick.time := OnlyChanges.electSend _ .time (by simp)
    rw [htime]
    rfl
  rw [State.tickAfter_eq]
  split
  · exact hstart
  · obtain ⟨-, -, hhub, -⟩ := KeepsReports.forceTick_hubTick (s.tickStart.nodesTick b)
    obtain ⟨-, hforce, -⟩ := State.forceTick_reports (s.tickStart.nodesTick b).closeCounts.traceDropTick
    rw [hhub, hforce, OnlyChanges.traceDropTick _ .time (by simp), OnlyChanges.closeCounts _ .time (by simp),
      OnlyChanges.nodesTick _ _ .time (by simp), hstart]

/-- The state as the master's time is loaded, before its tick. -/
def State.masterLoaded (s : State) (master : Word) : State :=
  { s with time.time := master, time.slewPend := 0, time.stamps := [] }

/-- The adoption is shown and logged. -/
def State.adoptShown (s : State) (step : Word) : State :=
  { s with time.adopted := true, time.adoptStep := step }.raiseHub 0x0011 .info step

theorem State.timeAdopt_eq (s : State) (master : Word) :
    s.timeAdopt master = ((s.masterLoaded master).tickAfter s.beat).adoptShown (master - s.time.time) := rfl

theorem State.adoptShown_time (s : State) (step : Word) :
    (s.adoptShown step).time = { s.time with adopted := true, adoptStep := step } := rfl

theorem State.adoptShown_mem (s : State) (step : Word) :
    mkRec s.time.time 0x0011 srcPlinth 0 .info step ∈ (s.adoptShown step).ev.queue := by
  simp [State.adoptShown, State.raiseHub, State.raise]

theorem exec_timeAdopt (s : State) (master : Word) : exec (.timeAdopt master) s =
    doWhen (s.life.powered && s.life.stage == 4 && s.time.state == 2 && !s.time.adopted &&
        master.toNat % beatCycles == 0)
      (fun s => s.timeAdopt master) s := rfl

theorem exec_timeAdopt_of_follower (s : State) {master : Word} (hpow : s.life.powered = true)
    (hstage : s.life.stage = 4) (hstate : s.time.state = 2) (hadopt : s.time.adopted = false)
    (htick : master.toNat % beatCycles = 0) :
    ∃ t, exec (.timeAdopt master) s = .next t ∧ t.time.time = master ∧ t.time.adopted = true ∧
      t.time.adoptStep = master - s.time.time ∧ t.time.slewPend = 0 ∧
      mkRec master 0x0011 srcPlinth 0 .info (master - s.time.time) ∈ t.ev.queue := by
  have htime : ((s.masterLoaded master).tickAfter s.beat).time.time = master := State.tickAfter_time _ _
  have hmem := ((s.masterLoaded master).tickAfter s.beat).adoptShown_mem (master - s.time.time)
  rw [htime] at hmem
  refine ⟨_, by rw [exec_timeAdopt, doWhen_true (by simp [hpow, hstage, hstate, hadopt, htick]), s.timeAdopt_eq],
    ?_, ?_, ?_, ?_, hmem⟩
  · rw [State.adoptShown_time, htime]
  · rw [State.adoptShown_time]
  · rw [State.adoptShown_time]
  · rw [State.adoptShown_time, State.tickAfter_slewPend]
    rfl

theorem exec_timeMaster (s : State) : exec .timeMaster s = doWhen s.life.powered State.timeMaster s := rfl

/-! ### The watch over the clock domains (R73) -/

/-- The bits of the word that `setBit` sets or clears. -/
theorem getLsbD_ofNat_two_pow (n i j : Nat) :
    (BitVec.ofNat n (2 ^ i)).getLsbD j = (decide (j < n) && decide (i = j)) := by
  rw [BitVec.getLsbD_ofNat, Nat.testBit_two_pow]

theorem getLsbD_setBit_of_ne {n : Nat} (v : BitVec n) {i j : Nat} (b : Bool) (h : j ≠ i) :
    (setBit v i b).getLsbD j = v.getLsbD j := by
  have hbit : (BitVec.ofNat n (2 ^ i)).getLsbD j = false := by
    rw [getLsbD_ofNat_two_pow, decide_eq_false (Ne.symm h), Bool.and_false]
  unfold setBit
  split
  · rw [BitVec.getLsbD_or, hbit, Bool.or_false]
  · rw [BitVec.getLsbD_and, BitVec.getLsbD_not, hbit, Bool.not_false, Bool.and_true]
    by_cases hj : j < n
    · rw [decide_eq_true hj, Bool.and_true]
    · rw [BitVec.getLsbD_of_ge v j (by omega), Bool.false_and]

theorem getLsbD_setBit_self {n : Nat} (v : BitVec n) {i : Nat} (b : Bool) (h : i < n) :
    (setBit v i b).getLsbD i = b := by
  have hbit : (BitVec.ofNat n (2 ^ i)).getLsbD i = true := by
    rw [getLsbD_ofNat_two_pow, decide_eq_true h, decide_eq_true rfl, Bool.and_true]
  cases b with
  | true => rw [setBit, if_pos rfl, BitVec.getLsbD_or, hbit, Bool.or_true]
  | false =>
    rw [setBit, if_neg Bool.false_ne_true, BitVec.getLsbD_and, BitVec.getLsbD_not, hbit, Bool.not_true, Bool.and_false,
      Bool.and_false]

theorem exec_domainStopDetect (s : State) (d : Nat) (lastEdge : Word) :
    exec (.domainStopDetect d lastEdge) s = doWhen s.life.powered (fun s => s.domainStop d lastEdge) s := rfl

theorem exec_gap (s : State) (d cyc : Nat) : exec (.gap d cyc) s = doWhen (s.mayGap d) (fun s => s.gap d cyc) s := rfl

theorem OnlyChanges.domainGap (s : State) (d : Nat) : OnlyChanges [.time, .ev] s (s.domainGap d) :=
  ((OnlyChanges.raise s (s.gapRecord d)).mono (by simp)).trans ((OnlyChanges.setTime _ _).mono (by simp))

/-- With no pause under way the edge of a domain starts no copy. -/
theorem State.gapCopies_of_noPause {s : State} (h : s.castPhase ≠ 3) (d : Nat) : s.gapCopies d = s :=
  if_neg (by simp [h])

theorem State.serveStops_of_empty {s : State} (h : s.stack.stopWaits = []) : s.serveStops = s := if_pos (by simp [h])

theorem State.resumeLate_of_none {s : State} (h : ∀ u, (s.tile u).core.resumeDue = false) : s.resumeLate = s := by
  have hnone : (allTiles.filter fun t =>
      (s.tile t).core.resumeDue && !s.regionStopped (regionOf t) && !s.stackStopped t) = [] :=
    List.filter_eq_nil_iff.2 fun t _ => by simp [h t]
  rw [State.resumeLate, hnone]
  rfl

/-- The first edge of a domain of the hub's side that nothing waited for. -/
theorem State.gap_of_idle {s : State} {d : Nat} (hd : 17 ≤ d) (hcast : s.castPhase ≠ 3)
    (hstops : s.stack.stopWaits = []) (hresume : ∀ u, (s.tile u).core.resumeDue = false) :
    s.gap d s.cyc = s.domainGap d := by
  have h := OnlyChanges.domainGap s d
  have hcycle : s.toCycle s.cyc = s := if_neg (by simp)
  have hcopies : (s.domainGap d).gapCopies d = s.domainGap d := by
    refine State.gapCopies_of_noPause ?_ d
    rwa [State.castPhase, h .cast (by simp)]
  have hserve : (s.domainGap d).serveStops = s.domainGap d :=
    State.serveStops_of_empty (by rw [h .stack (by simp), hstops])
  have hlate : (s.domainGap d).resumeLate = s.domainGap d :=
    State.resumeLate_of_none fun u => by rw [State.tile_of_tiles (h .tiles (by simp)), hresume u]
  unfold State.gap
  rw [hcycle, if_neg (by simp; omega), hcopies, hserve, hlate]

/-- Settles O18, command by command: each is one change of the time's own state, with at most one event; adoption also
runs the tick, which keeps the time it finds. -/
theorem synchronizationCommands : Obligations.SynchronizationCommands := by
  refine ⟨fun cyc s hpow hc hlt => exec_syncPpsEdge_of_powered s hpow hc hlt,
    fun s hpow hlost hbeats => exec_ppsLost_of_late s hpow hlost hbeats,
    fun advs s hpow hstage halone => ?_, fun advs s hpow hstage htrained hadvs hrole => ?_,
    fun s hpow hstage hstate hmissed => ?_, fun x s hpow hstage hstate => ?_,
    fun master s hpow hstage hstate hadopt htick => exec_timeAdopt_of_follower s hpow hstage hstate hadopt htick,
    fun s hpow hstate hlost => ?_, fun d lastEdge s hpow hd hd' hrun hedge => ?_,
    fun d cyc s hpow hd hd' hstop hord hcyc hcast hstops hresume => ?_⟩
  · obtain ⟨honly, hst, hm, hup, hdepth, hskew⟩ := (s.electStart advs).electOwn (.inr rfl)
    refine ⟨_, by rw [exec_elect, doWhen_true (by simp [hpow, hstage]), State.elect_of_alone halone], hst, hm, hup,
      hdepth, hskew, ?_⟩
    exact (OnlyChanges.setTime s _).trans honly
  · obtain ⟨honly, hst, hm, -, -, -⟩ := (s.electStart advs).electOwn (.inl rfl)
    refine ⟨_, by rw [exec_elect, doWhen_true (by simp [hpow, hstage]), State.elect_of_best htrained hadvs hrole],
      hst, hm, ?_⟩
    exact (OnlyChanges.setTime s _).trans honly
  · refine ⟨s.exchangeMissed,
      by rw [exec_timex, doWhen_true (by simp [hpow, hstage]), State.timex_of_lost hstate hmissed], rfl, rfl,
      OnlyRegs.exchangeMissed s, OnlyChanges.exchangeMissed s⟩
  · obtain ⟨met, htime⟩ := (s.exchangeShown x).judgeSkew_time x.upMet
    refine ⟨_, by rw [exec_timex, doWhen_true (by simp [hpow, hstage]), State.timex_of_done hstate],
      congrArg TimeSt.offset htime, congrArg TimeSt.missed htime, congrArg TimeSt.depth htime,
      congrArg TimeSt.slewPend htime, ?_⟩
    exact ((OnlyChanges.setTime s _).mono (by simp)).trans (OnlyChanges.judgeSkew _ _)
  · rw [exec_timeMaster, doWhen_true hpow, State.timeMaster, if_pos (by simp [hstate, hlost])]
    rfl
  · have hstops : s.domainStop d lastEdge = { s with
        time.stopped := setBit s.time.stopped d true, time.lastEdge := tset 0 s.time.lastEdge d lastEdge } :=
      if_pos (by simp only [hd, hd', hrun, hedge, decide_true, Bool.not_false, Bool.and_self])
    refine ⟨_, by rw [exec_domainStopDetect, doWhen_true hpow, hstops], ?_, ?_, OnlyChanges.setTime s _, fun e he => ?_⟩
    · exact getLsbD_setBit_self _ true (by omega)
    · exact tget_tset_self _ _ _ _
    · exact getLsbD_setBit_of_ne _ true he
  · subst hcyc
    have hmay : s.mayGap d = true := by
      simp only [State.mayGap, hpow, hstop, hord, show 1 ≤ d by omega, hd', decide_true, Bool.not_false, Bool.and_self]
    refine ⟨_, by rw [exec_gap, doWhen_true hmay, State.gap_of_idle hd hcast hstops hresume], ?_,
      OnlyChanges.domainGap s d, ?_⟩
    · exact getLsbD_setBit_self _ false (by omega)
    · have hrec : s.gapRecord d = mkRec s.time.time 0x0010 srcPlinth 0 .note
          (pack [(56, 8, d), (0, 56, (tget 0 s.time.lastEdge d).toNat)]) := by simp [State.gapRecord, hord]
      rw [← hrec]
      rfl

end Sys2Proof.Machine
end

section
/-! O30. Acknowledgements, and the re-sends of the hub. -/

namespace Sys2Proof.Machine

/-! ### The commands -/

theorem exec_ackHeldTimer (k : StreamId) (s : State) : exec (.ackHeldTimer k) s =
    doWhen (s.life.powered && s.inInbox k) (fun s => s.sendAck k ((s.lastXid k).getD 0) true) s := rfl

theorem exec_ack (k : StreamId) (x : BitVec 16) (s : State) :
    exec (.ack k x) s = doWhen s.life.powered (fun s => s.ackTake k x) s := rfl

theorem exec_ackHeld (k : StreamId) (x : BitVec 16) (s : State) :
    exec (.ackHeld k x) s = doWhen s.life.powered (fun s => s.ackHeldTake k x) s := rfl

theorem exec_resendTimeout_order (node vc : Nat) (s : State) :
    exec (.resendTimeout (.order node vc)) s = doWhen s.life.powered (fun s => s.resendNode node vc) s := rfl

/-! ### Changes of the armature's and the orders' own state only -/

theorem OnlyChanges.setArm (s : State) (x : ArmSt) : OnlyChanges [.arm] s { s with arm := x } := fun p hp => by
  cases p <;> simp_all [Same]

theorem State.order_modOrder_self (s : State) (id : Nat) {f : OrderRec → OrderRec} (hf : ∀ o, (f o).id = o.id) :
    (s.modOrder id f).order id = (s.order id).map f := by
  have hid (o : OrderRec) : (if o.id == id then f o else o).id = o.id := by split <;> simp [hf]
  unfold State.modOrder State.order
  rw [List.find?_map]
  simp only [Function.comp_def, hid]
  cases hfind : s.ord.orders.find? fun o => o.id == id with
  | none => rfl
  | some o => rw [Option.map_some, Option.map_some, if_pos (List.find?_some hfind)]

/-- The order with its final status, as `finish` leaves it. -/
def OrderRec.finished (o : OrderRec) (st : Status) : OrderRec :=
  { o with done := some st, detail := if st = .badOperand then 0 else o.detail }

theorem State.finish_of_order {s : State} {id : Nat} (h : s.order id ≠ none) {st : Status} (hst : st ≠ .stateIllegal) :
    s.finish id st = s.modOrder id (·.finished st) := by
  obtain ⟨o, ho⟩ := Option.ne_none_iff_exists'.1 h
  simp only [State.finish, ho, if_neg hst]
  rfl

theorem State.doneAs_modOrder_finished {s : State} {id : Nat} (h : s.order id ≠ none) (st : Status) :
    (s.modOrder id (·.finished st)).doneAs id st := by
  obtain ⟨o, ho⟩ := Option.ne_none_iff_exists'.1 h
  exact ⟨o.finished st, by rw [State.order_modOrder_self s id (f := (·.finished st)) fun _ => rfl, ho]; rfl, rfl⟩

/-! ### The hub's one outstanding packet -/

theorem State.outstanding_of_one {s : State} {o : Outgoing} (hsent : s.arm.sent = [o]) {node vc : Nat} (hvc : o.vc = vc)
    (hleft : o.left.getLsbD node = true) : s.outstanding node vc = some o := by
  simp [State.outstanding, hsent, hvc, hleft]

/-- The hub's outstanding packets are these. -/
def State.withSent (s : State) (ps : List Outgoing) : State := { s with arm.sent := ps }

theorem OnlyChanges.withSent (s : State) (ps : List Outgoing) : OnlyChanges [.arm] s (s.withSent ps) :=
  OnlyChanges.setArm s _

theorem State.mapSent_of_one {s : State} {o : Outgoing} (hsent : s.arm.sent = [o]) (f : Outgoing → Outgoing) :
    s.mapSent f = s.withSent [f o] := by
  simp [State.mapSent, State.withSent, hsent]

theorem State.inject_of_empty {s : State} (hqueue : s.arm.queue = []) : s.inject = s := by
  simp [State.inject, hqueue]

/-! ### ACK_HELD (R101) -/

/-- The packet once a node has answered ACK_HELD at time `now`. -/
def Outgoing.heldAt (o : Outgoing) (node : Nat) (now : Word) : Outgoing :=
  { o with
    held := setBit o.held node true, resends := terase o.resends node, timers := tset none o.timers node (some now) }

theorem State.takeAckHeld_of_one {s : State} {o : Outgoing} (hsent : s.arm.sent = [o]) {node vc : Nat} (hvc : o.vc = vc)
    (hleft : o.left.getLsbD node = true) :
    s.takeAckHeld node vc o.xid = s.withSent [o.heldAt node s.time.time] := by
  unfold State.takeAckHeld
  rw [State.mapSent_of_one hsent, if_pos (by simp [hvc, hleft])]
  rfl

theorem Outgoing.timer_heldAt (o : Outgoing) (node : Nat) (now : Word) : (o.heldAt node now).timer node = now := by
  simp [Outgoing.timer, Outgoing.heldAt]

/-! ### ACK of a node (R98, R101) -/

theorem State.takeAck_of_other {s : State} {o : Outgoing} (hsent : s.arm.sent = [o]) (node vc : Nat) {x : BitVec 16}
    (hx : x ≠ o.xid) : s.takeAck node vc x = (s, none) := by
  unfold State.takeAck
  split
  · rename_i p hp
    have hpo : p = o := by simpa [hsent] using List.mem_of_find?_eq_some hp
    simp [hpo, Ne.symm hx]
  · rfl

theorem getLsbD_oneNode_self {node : Nat} (h : node < numTiles) : (oneNode node).getLsbD node = true := by
  rw [oneNode, getLsbD_ofNat_two_pow, decide_eq_true h, decide_eq_true rfl, Bool.and_true]

theorem setBit_oneNode (node : Nat) : setBit (oneNode node) node false = 0 := by
  simp [setBit, oneNode]

/-- The packet once a node has acknowledged it. -/
def Outgoing.acked (o : Outgoing) (node : Nat) : Outgoing :=
  { o with left := setBit o.left node false, held := setBit o.held node false }

theorem State.takeAck_of_last {s : State} {o : Outgoing} (hsent : s.arm.sent = [o]) {node vc : Nat}
    (hnode : node < numTiles) (hvc : o.vc = vc) (hleft : o.left = oneNode node) :
    s.takeAck node vc o.xid = (s.withSent [], some (o.acked node)) := by
  have hbit : o.left.getLsbD node = true := by rw [hleft, getLsbD_oneNode_self hnode]
  have hzero : setBit o.left node false = 0 := by rw [hleft, setBit_oneNode]
  unfold State.takeAck
  rw [State.outstanding_of_one hsent hvc hbit]
  simp [hsent, hvc, hbit, hzero, Outgoing.acked, State.withSent]

/-- What waits for a FREEZE is nothing: it has no completion of its own. -/
theorem State.ackDone_of_freeze (s : State) {o : Outgoing} (hop : o.op = 0x03) : s.ackDone o = s := by
  simp [State.ackDone, hop, isMapChange]

/-- The last packet of a MAQ_RATE or a DIGEST_OPEN completes its order OK (R191, R202, R379). -/
theorem State.ackDone_of_rate_or_open {s : State} {o : Outgoing} (hsent : s.arm.sent = []) (hqueue : s.arm.queue = [])
    (hop : o.op = 0x17 ∨ (o.op = 0x12 ∧ ofld o.operand 95 92 = 6)) : s.ackDone o = s.finishOpt o.order .ok := by
  have hlast : s.lastOfOrder o.order = true := by simp [State.lastOfOrder, hsent, hqueue]
  obtain hop | ⟨hop, hfunc⟩ := hop
  · simp [State.ackDone, hop, isMapChange, hlast]
  · simp [State.ackDone, hop, isMapChange, hfunc, hlast]

theorem State.ackTake_of_other {s : State} {o : Outgoing} (hsent : s.arm.sent = [o]) (hqueue : s.arm.queue = [])
    (node vc : Nat) {x : BitVec 16} (hx : x ≠ o.xid) : s.ackTake (.order node vc) x = s := by
  simp only [State.ackTake, State.takeAck_of_other hsent node vc hx, State.inject_of_empty hqueue]

theorem State.ackTake_of_last {s : State} {o : Outgoing} (hsent : s.arm.sent = [o]) {node vc : Nat}
    (hnode : node < numTiles) (hvc : o.vc = vc) (hleft : o.left = oneNode node) :
    s.ackTake (.order node vc) o.xid = ((s.withSent []).ackDone (o.acked node)).inject := by
  simp only [State.ackTake, State.takeAck_of_last hsent hnode hvc hleft]

/-! ### ACK of a peer hub (R98, R113) -/

theorem State.mirrorPump_of_empty {s : State} (h : s.cast.mirrorOut = []) : s.mirrorPump = s := by
  simp [State.mirrorPump, h]

theorem State.mirrorStep_of_empty {s : State} (h : s.cast.mirrorOut = []) : s.mirrorStep = s := by
  simp [State.mirrorStep, h]

/-- With nothing that waits for the stream and no mirror data, the packet ends and nothing follows it. -/
theorem State.peerAck_of_idle {s : State} {chip : BitVec 13} {net : Bool}
    (hwait : (s.arm.peerWait.find? fun w => w.1 = .sentinel chip net) = none) (hmirror : s.cast.mirrorOut = [])
    (x : BitVec 16) : s.peerAck chip net x = { s with
      arm.peers := s.arm.peers.filter fun (p : PeerOut) => !(p.stream = .sentinel chip net && p.xid == x) } := by
  unfold State.peerAck
  simp only [State.mirrorStep_of_empty hmirror, ite_self, hwait]
  rw [State.mirrorPump_of_empty (by exact hmirror), ite_self]

/-! ### Re-sends (R101, R102) -/

theorem mem_nodesOf {v : BitVec 1152} {t : Nat} : t ∈ nodesOf v ↔ t < numTiles ∧ v.getLsbD t = true := by
  simp [nodesOf, allTiles]

theorem nodesOf_nodup (v : BitVec 1152) : (nodesOf v).Nodup := List.nodup_range.filter _

theorem State.resendTo_nodup (s : State) (o : Outgoing) (node : Nat) : (s.resendTo o node).Nodup := by
  unfold State.resendTo
  split
  · exact List.nodup_singleton node
  · exact (nodesOf_nodup o.left).filter _

theorem State.mem_resendTo {s : State} {o : Outgoing} {node : Nat} (hnode : node < numTiles)
    (hleft : o.left.getLsbD node = true) (hexpired : s.timerExpired o node = true)
    (hlimit : tget 0 o.resends node < s.resendLimit) : node ∈ s.resendTo o node := by
  unfold State.resendTo
  split
  · exact List.mem_singleton_self node
  · exact List.mem_filter.2 ⟨mem_nodesOf.2 ⟨hnode, hleft⟩, by simp [hexpired, hlimit]⟩

/-- The packet re-sent to each node of a list. -/
def Outgoing.againTo (o : Outgoing) (now : Word) (ts : List Nat) : Outgoing := ts.foldl (fun p t => p.again now t) o

/-- A re-send keeps the packet's XID, and whether it counts as late. -/
theorem Outgoing.againTo_xid_late (now : Word) (ts : List Nat) :
    ∀ o : Outgoing, (o.againTo now ts).xid = o.xid ∧ (o.againTo now ts).late = o.late := by
  induction ts with
  | nil => exact fun o => ⟨rfl, rfl⟩
  | cons t ts ih => exact fun o => ih (o.again now t)

theorem Outgoing.again_of_ne (o : Outgoing) (now : Word) {t v : Nat} (h : v ≠ t) :
    tget 0 (o.again now t).resends v = tget 0 o.resends v ∧ (o.again now t).timer v = o.timer v := by
  simp [Outgoing.again, Outgoing.timer, tget_tset_ne _ _ _ _ h]

theorem Outgoing.again_self (o : Outgoing) (now : Word) (t : Nat) :
    tget 0 (o.again now t).resends t = tget 0 o.resends t + 1 ∧ (o.again now t).timer t = now := by
  simp [Outgoing.again, Outgoing.timer]

theorem Outgoing.againTo_of_notMem (now : Word) {ts : List Nat} {v : Nat} (h : v ∉ ts) (o : Outgoing) :
    tget 0 (o.againTo now ts).resends v = tget 0 o.resends v ∧ (o.againTo now ts).timer v = o.timer v := by
  induction ts generalizing o with
  | nil => exact ⟨rfl, rfl⟩
  | cons t ts ih =>
    obtain ⟨hvt, hvts⟩ := List.ne_and_not_mem_of_not_mem_cons h
    obtain ⟨hresends, htimer⟩ := o.again_of_ne now hvt
    obtain ⟨hresends', htimer'⟩ := ih hvts (o.again now t)
    exact ⟨hresends'.trans hresends, htimer'.trans htimer⟩

/-- A node that is reached once is counted once, and its timer starts again. -/
theorem Outgoing.againTo_of_mem (now : Word) {ts : List Nat} (hnodup : ts.Nodup) {v : Nat} (h : v ∈ ts) (o : Outgoing) :
    tget 0 (o.againTo now ts).resends v = tget 0 o.resends v + 1 ∧ (o.againTo now ts).timer v = now := by
  induction ts generalizing o with
  | nil => exact absurd h List.not_mem_nil
  | cons t ts ih =>
    obtain ⟨ht, hts⟩ := List.nodup_cons.1 hnodup
    by_cases hvt : v = t
    · subst hvt
      obtain ⟨hresends, htimer⟩ := o.again_self now v
      obtain ⟨hresends', htimer'⟩ := Outgoing.againTo_of_notMem now ht (o.again now v)
      exact ⟨hresends'.trans hresends, htimer'.trans htimer⟩
    · obtain ⟨hresends, htimer⟩ := o.again_of_ne now hvt
      obtain ⟨hresends', htimer'⟩ := ih hts (List.mem_of_ne_of_mem hvt h) (o.again now t)
      exact ⟨by rw [← hresends]; exact hresends', htimer'⟩

/-- The state behind a re-send to a node of the hub's one outstanding packet. -/
def State.resent (s : State) (o : Outgoing) (node : Nat) : State :=
  { s.bump Reg.armResends with
    arm.sent := [o.againTo s.time.time (s.resendTo o node)]
    arm.hubOut := if (nodesOf o.left).length ≤ 16 then [o.uniCopy node] else o.copies }

section
variable {s : State} {o : Outgoing} (hsent : s.arm.sent = [o]) {node vc : Nat} (hvc : o.vc = vc)
  (hleft : o.left.getLsbD node = true) (hgone : o.gone.getLsbD node = false) (hexpired : s.timerExpired o node = true)
include hsent hvc hleft hgone hexpired

theorem State.resendNode_of_due (hlimit : tget 0 o.resends node < s.resendLimit) :
    s.resendNode node vc = s.resent o node := by
  unfold State.resendNode
  rw [State.outstanding_of_one hsent hvc hleft]
  simp only [hexpired, hgone, Nat.not_le.2 hlimit, Bool.not_true, Bool.or_self, Bool.false_eq_true, if_false]
  rw [State.mapSent_of_one hsent, if_pos (by simp [hvc, hleft])]
  rfl

theorem State.resendNode_of_spent (hlimit : s.resendLimit ≤ tget 0 o.resends node) :
    s.resendNode node vc =
      (s.withSent [{ o with gone := setBit o.gone node true }]).unreachNode node := by
  unfold State.resendNode
  rw [State.outstanding_of_one hsent hvc hleft]
  simp only [hexpired, hgone, hlimit, Bool.not_true, Bool.or_self, Bool.false_eq_true, if_false, if_true]
  rw [State.mapSent_of_one hsent, if_pos (by simp [hvc, hleft])]

end

theorem OnlyChanges.resent (s : State) (o : Outgoing) (node : Nat) : OnlyChanges [.arm, .regs] s (s.resent o node) :=
  ((OnlyChanges.bump s Reg.armResends 1).mono (by simp)).trans ((OnlyChanges.setArm _ _).mono (by simp))

theorem State.resent_reg (s : State) (o : Outgoing) (node k : Nat) :
    (s.resent o node).reg k = (s.bump Reg.armResends).reg k := rfl

theorem State.resent_hubOut (s : State) (o : Outgoing) (node : Nat) :
    (s.resent o node).arm.hubOut = if (nodesOf o.left).length ≤ 16 then [o.uniCopy node] else o.copies := by
  simp only [State.resent]

/-! ### The obligation -/

/-- Settles O30, command by command: the hub's outstanding packet is one, so each command changes it, ends it or leaves
it as a whole. -/
theorem acknowledgementsAndResends : Obligations.AcknowledgementsAndResends := by
  refine ⟨fun k s hpow hinbox => ?_, fun node vc o s hpow hnode hsent hvc hleft => ?_,
    fun node vc o x s hpow hsent hqueue hx => ?_, fun node vc o s hpow hnode hsent hqueue hvc hleft hop => ?_,
    fun chip net x s hpow hwait hmirror => ?_,
    fun node vc o s hpow hnode hsent hvc hleft hgone hexpired hlimit => ?_,
    fun node vc o s hpow hnode hsent hvc hleft hgone hexpired hlimit => ?_,
    fun node vc id o s hpow hnode hsent hqueue hvc hleft horder hid hop => ?_⟩
  · rw [exec_ackHeldTimer, doWhen_true (by rw [hpow, hinbox, Bool.and_self])]
  · refine ⟨_, o.heldAt node s.time.time, by
      rw [exec_ackHeld, doWhen_true hpow, State.ackHeldTake, State.takeAckHeld_of_one hsent hvc hleft],
      OnlyChanges.withSent s _, rfl, ?_, ?_, o.timer_heldAt node _, rfl⟩
    · exact getLsbD_setBit_self _ true hnode
    · exact tget_terase_self _ _ _
  · rw [exec_ack, doWhen_true hpow, State.ackTake_of_other hsent hqueue node vc hx]
  · refine ⟨s.withSent [], ?_, rfl, OnlyChanges.withSent s _⟩
    rw [exec_ack, doWhen_true hpow, State.ackTake_of_last hsent hnode hvc hleft,
      State.ackDone_of_freeze _ (o := o.acked node) hop, State.inject_of_empty (by exact hqueue)]
  · rw [exec_ack, doWhen_true hpow, State.ackTake, State.peerAck_of_idle hwait hmirror]
  · obtain ⟨hxid, hlate⟩ := o.againTo_xid_late s.time.time (s.resendTo o node)
    obtain ⟨hcount, htimer⟩ := o.againTo_of_mem s.time.time (s.resendTo_nodup o node)
      (State.mem_resendTo hnode hleft hexpired hlimit)
    refine ⟨s.resent o node, o.againTo s.time.time (s.resendTo o node), by
      rw [exec_resendTimeout_order, doWhen_true hpow, State.resendNode_of_due hsent hvc hleft hgone hexpired hlimit],
      OnlyChanges.resent s o node, rfl, hxid, hcount, hlate, htimer, s.resent_hubOut o node, fun hfew v hv => ?_,
      OnlyRegs.bump s Reg.armResends 1, ?_⟩
    · exact Outgoing.againTo_of_notMem _ (by simpa [State.resendTo, hfew] using hv) o
    · rw [State.resent_reg, State.reg_bump_self _ _ _ (regMask_lt _)]
  · refine ⟨_, by rw [exec_resendTimeout_order, doWhen_true hpow,
      State.resendNode_of_spent hsent hvc hleft hgone hexpired hlimit], ?_, rfl, rfl⟩
    exact ((OnlyChanges.withSent s _).mono (by simp)).trans (OnlyChanges.unreachNode _ node)
  · refine ⟨(s.withSent []).modOrder id (·.finished .ok), ?_, rfl,
      State.doneAs_modOrder_finished (by exact hid) .ok, ?_⟩
    · rw [exec_ack, doWhen_true hpow, State.ackTake_of_last hsent hnode hvc hleft,
        State.ackDone_of_rate_or_open (s := s.withSent []) (o := o.acked node) rfl hqueue hop,
        show (o.acked node).order = some id from horder,
        State.finishOpt, State.finish_of_order (by exact hid) (by decide), State.inject_of_empty (by exact hqueue)]
    · exact ((OnlyChanges.withSent s _).mono (by simp)).trans ((OnlyChanges.modOrder _ id _).mono (by simp))

end Sys2Proof.Machine
end

section
/-! O31. Packets as they arrive, on die and between chips. -/

namespace Sys2Proof.Machine

/-! ### The commands -/

theorem exec_packetArrive (p : ArmPacket) (s : State) :
    exec (.packetArrive p) s = doWhen s.life.powered (fun s => s.packetArrive p) s := rfl

theorem exec_sentinelForward (link : Nat) (flits : List Flit) (s : State) : exec (.sentinelForward link flits) s =
    doWhen (s.life.powered && s.trained link) (fun s => s.sentinelTake link flits) s := rfl

theorem exec_routePrimaryBack (k : Nat) (s : State) :
    exec (.routePrimaryBack k) s = doWhen s.life.powered (fun s => s.routeBack k) s := rfl

/-! ### Flits that routers corrected (R83) -/

/-- The state once the corrections on a packet's way are counted. -/
def State.hopsCounted (s : State) (p : ArmPacket) : State :=
  if (throughHops p.hops p.flits).1 == 0 then s else s.bump Reg.armHopCorrected (throughHops p.hops p.flits).1

theorem OnlyChanges.hopsCounted (s : State) (p : ArmPacket) : OnlyChanges [.regs] s (s.hopsCounted p) :=
  OnlyChanges.ite _ (OnlyChanges.refl _ s) (OnlyChanges.bump s _ _)

theorem OnlyRegs.hopsCounted (s : State) (p : ArmPacket) : OnlyRegs [Reg.armHopCorrected] s (s.hopsCounted p) := by
  unfold State.hopsCounted
  split
  · exact OnlyRegs.of_regs rfl
  · exact OnlyRegs.bump s _ _

theorem OnlyTiles.hopsCounted (s : State) (p : ArmPacket) : OnlyTiles [] s (s.hopsCounted p) :=
  OnlyTiles.of_tiles (OnlyChanges.hopsCounted s p .tiles (by simp))

theorem regMask_armHopCorrected : regMask Reg.armHopCorrected = 2 ^ 64 - 1 := by decide

/-- HOP_CORRECTED counts in all its bits, so that a count of 0 keeps it within them. -/
theorem State.hopsCounted_reg (s : State) (p : ArmPacket) : ((s.hopsCounted p).reg Reg.armHopCorrected).toNat =
    min ((s.reg Reg.armHopCorrected).toNat + (throughHops p.hops p.flits).1) (regMask Reg.armHopCorrected) := by
  unfold State.hopsCounted
  split
  · rename_i hnone
    have hlt := (s.reg Reg.armHopCorrected).isLt
    rw [beq_iff_eq.1 hnone, regMask_armHopCorrected]
    omega
  · exact State.reg_bump_self s _ _ (regMask_lt _)

/-! ### Where a packet goes (R88 to R90) -/

theorem packetLostAt_of_arrives {p : ArmPacket} (h : packetArrives p = true) : packetLostAt p = none := by
  unfold packetArrives at h
  unfold packetLostAt
  split
  · rfl
  · rename_i hmulti
    rw [if_neg hmulti] at h
    cases hland : packetLanding p with
    | eject t => rfl
    | discard t => simp [hland] at h

/-- The packet as it stands behind its hops. -/
def received (p : ArmPacket) : ArmPacket := { p with flits := (throughHops p.hops p.flits).2.2 }

/-- The header that an endpoint of the on-die networks reads. -/
def packetHead (p : ArmPacket) : ArmHead := armHead (p.flits.headD 0)

/-- The state once the source of a packet that a router discards has lost it, if the source is a node. -/
def State.sourceLost (s : State) (h : ArmHead) : State := if h.src < numTiles then s.packetGone h.src h.vc h.xid else s

section
variable {p : ArmPacket} (s : State)

theorem State.packetArrive_of_lost (hnet : p.net = .order ∨ p.net = .report) {u : Nat} (hlost : packetLostAt p = some u)
    {h : ArmHead} (hhead : packetHead (received p) = h) :
    s.packetArrive p = ((s.hopsCounted p).sourceLost h).routeDiscard u 0x3F h.kind h.src := by
  subst hhead
  obtain hnet | hnet := hnet <;> simp only [State.packetArrive, hnet, hlost] <;> rfl

theorem State.packetArrive_of_elsewhere (hnet : p.net = .order ∨ p.net = .report) (hlost : packetLostAt p = none)
    (harrives : packetArrives p = false) : s.packetArrive p = s.hopsCounted p := by
  obtain hnet | hnet := hnet <;> simp only [State.packetArrive, hnet, hlost, harrives] <;> rfl

theorem State.packetArrive_of_order (hnet : p.net = .order) (hat : p.at_ < numTiles)
    (harrives : packetArrives p = true) :
    s.packetArrive p = (s.hopsCounted p).packetOnDie (received p) (throughHops p.hops p.flits).2.1 := by
  obtain ⟨net, node, flits, hops, link⟩ := p
  obtain rfl : net = .order := hnet
  simp only [State.packetArrive, packetLostAt_of_arrives harrives, harrives, hat, decide_true, Bool.or_true,
    Bool.and_self, if_true]
  rfl

end

/-! ### A packet whose CRC fails (R83, R84, R99) -/

/-- The state once tile `t` has counted a packet of its order network that it discards. -/
def State.crcCounted (s : State) (t src : Nat) (xid : BitVec 16) : State :=
  (s.bump Reg.armCrcDiscards).modCore t fun c => { c with
    crc := c.crc.add (mkRec s.time.time 0x0020 t uNODE .note (pack [(16, 11, src), (0, 16, xid.toNat)])) }

theorem State.packetOnDie_of_bad (s : State) {p : ArmPacket} {broken : Bool} (hat : p.at_ < numTiles)
    (hbad : broken = true ∨ crcPasses p.flits = false) :
    s.packetOnDie p broken = s.crcCounted p.at_ (packetHead p).src (packetHead p).xid := by
  have hcond : (broken || !crcPasses p.flits) = true := by obtain h | h := hbad <;> simp [h]
  have hnode : (p.at_ == hubEndpoint) = false := beq_false_of_ne (Nat.ne_of_lt (hat.trans (by decide)))
  unfold State.packetOnDie State.crcDiscard
  simp only [hcond, hnode, hat, if_true, Bool.false_eq_true, if_false]
  rfl

theorem OnlyChanges.crcCounted (s : State) (t src : Nat) (xid : BitVec 16) :
    OnlyChanges [.regs, .tiles] s (s.crcCounted t src xid) :=
  ((OnlyChanges.bump s _ 1).mono (by simp)).trans ((OnlyChanges.modCore _ t _).mono (by simp))

theorem State.crcCounted_reg (s : State) (t src : Nat) (xid : BitVec 16) (k : Nat) :
    (s.crcCounted t src xid).reg k = (s.bump Reg.armCrcDiscards).reg k := rfl

theorem OnlyTiles.crcCounted (s : State) (t src : Nat) (xid : BitVec 16) : OnlyTiles [t] s (s.crcCounted t src xid) :=
  OnlyTiles.modCore (s.bump Reg.armCrcDiscards) t _

theorem State.crcCounted_count (s : State) (t src : Nat) (xid : BitVec 16) :
    ((s.crcCounted t src xid).tile t).core.crc.count = (s.tile t).core.crc.count + 1 := by
  rw [State.crcCounted, State.tile_modCore_self]
  rfl

/-! ### A packet whose path breaks a rule (R89) -/

theorem State.eventNext_flight (s : State) (t : Nat) : (s.eventNext t).ev.flight = s.ev.flight := by
  unfold State.eventNext
  split
  · rfl
  · dsimp only
    split <;> rfl

theorem State.raiseNode_of_serious (s : State) (t : Nat) {r : EvRec} (hsev : r.sev.minor = false) :
    (s.raiseNode t r).ev.flight = s.ev.flight ++ [(t, r)] ∧ (s.raiseNode t r).regs = s.regs := by
  have hhang := OnlyChanges.hang s (ringTile t r.unit.toNat) r.time .event (r.cseq.toNat % 2 ^ 24) (hangEventData r)
  have hnext (u : State) : (({ u with ev.flight := u.ev.flight ++ [(t, r)] } : State).eventNext t).regs = u.regs :=
    OnlyChanges.eventNext _ t .regs (by simp)
  unfold State.raiseNode
  simp only [hsev, Bool.false_and, Bool.false_eq_true, if_false]
  split
  · rw [State.modCore_ev, State.modCore_regs, State.eventNext_flight, hnext]
    exact ⟨by rw [hhang .ev (by simp)], hhang .regs (by simp)⟩
  · rw [State.eventNext_flight, hnext]
    exact ⟨by rw [hhang .ev (by simp)], hhang .regs (by simp)⟩

theorem State.routeDiscard_of_tile (s : State) {u : Nat} (hu : u < numTiles) (link kind src : Nat) :
    s.routeDiscard u link kind src = s.raiseNode u
      (mkRec s.time.time 0x0022 u uNODE .fault (pack [(58, 6, link), (54, 4, kind), (0, 13, src)])) := if_pos hu

/-- A router that discards a packet changes its own tile, and its node reports the fault. -/
theorem State.routeDiscard_frame (s : State) {u : Nat} (hu : u < numTiles) (link kind src : Nat) :
    OnlyChanges [.dbg, .tiles, .regs, .ev] s (s.routeDiscard u link kind src) ∧
    OnlyTiles [u] s (s.routeDiscard u link kind src) ∧ (s.routeDiscard u link kind src).regs = s.regs ∧
    (s.routeDiscard u link kind src).ev.flight = s.ev.flight ++ [(u, mkRec s.time.time 0x0022 u uNODE .fault
      (pack [(58, 6, link), (54, 4, kind), (0, 13, src)]))] := by
  rw [s.routeDiscard_of_tile hu]
  obtain ⟨hflight, hregs⟩ := s.raiseNode_of_serious u
    (r := mkRec s.time.time 0x0022 u uNODE .fault (pack [(58, 6, link), (54, 4, kind), (0, 13, src)])) rfl
  exact ⟨OnlyChanges.raiseNode s u _, OnlyTiles.raiseNode s u _, hregs, hflight⟩

theorem OnlyChanges.setStream (s : State) (t vc : Nat) (st : StreamSt) :
    OnlyChanges [.tiles, .ev, .arm] s (s.setStream t vc st) := by
  unfold State.setStream
  split
  · exact (OnlyChanges.modCore s t _).mono (by simp)
  · exact fun p hp => by cases p <;> simp_all [Same]
  · exact (OnlyChanges.setArm s _).mono (by simp)
  · exact OnlyChanges.refl _ s

theorem OnlyTiles.setStream (s : State) (t vc : Nat) (st : StreamSt) : OnlyTiles [t] s (s.setStream t vc st) := by
  unfold State.setStream
  split
  · exact OnlyTiles.modCore s t _
  all_goals exact OnlyTiles.of_tiles rfl

theorem State.setStream_flight (s : State) (t vc : Nat) (st : StreamSt) :
    (s.setStream t vc st).ev.flight = s.ev.flight := by
  unfold State.setStream
  split <;> rfl

/-- That a source has lost its packet changes the stream of that node, or nothing. -/
theorem State.sourceLost_cases (s : State) (h : ArmHead) :
    s.sourceLost h = s ∨ ∃ st, s.sourceLost h = s.setStream h.src h.vc st := by
  unfold State.sourceLost State.packetGone
  split
  · split
    · split
      · exact .inr ⟨_, rfl⟩
      · exact .inl rfl
    · exact .inl rfl
  · exact .inl rfl

theorem State.sourceLost_frame (s : State) (h : ArmHead) : OnlyChanges [.tiles, .ev, .arm] s (s.sourceLost h) ∧
    OnlyTiles [h.src] s (s.sourceLost h) ∧ (s.sourceLost h).ev.flight = s.ev.flight := by
  obtain hs | ⟨st, hs⟩ := s.sourceLost_cases h
  · rw [hs]
    exact ⟨OnlyChanges.refl _ s, OnlyTiles.of_tiles rfl, rfl⟩
  · rw [hs]
    exact ⟨OnlyChanges.setStream s _ _ st, OnlyTiles.setStream s _ _ st, s.setStream_flight _ _ st⟩

/-! ### A packet that comes again (R99, R100) -/

theorem State.lastXid_of_arm {s t : State} (h : t.arm = s.arm) (k : StreamId) : t.lastXid k = s.lastXid k := by
  simp only [State.lastXid, h]

theorem State.inInbox_of_arm {s t : State} (h : t.arm = s.arm) (k : StreamId) : t.inInbox k = s.inInbox k := by
  simp only [State.inInbox, h]

theorem State.packetOnDie_of_duplicate {s : State} {p : ArmPacket} (hnet : p.net = .order) {h : ArmHead}
    (hhead : packetHead p = h) (hcrc : crcPasses p.flits = true) (hkind : kindOk p.net h.kind p.flits.length = true)
    (hlen : h.len = p.flits.length) (hack : h.kind ≠ 8) (hheld : h.kind ≠ 9)
    (hlast : s.lastXid (.order p.at_ h.vc) = some h.xid) :
    s.packetOnDie p false = s.sendAck (.order p.at_ h.vc) h.xid (s.inInbox (.order p.at_ h.vc)) := by
  have hread : armHead (p.flits.headD 0) = h := hhead
  have hstream : armStream p.net p.at_ h = .order p.at_ h.vc := by rw [hnet]; rfl
  simp only [State.packetOnDie, hread, hstream, hcrc, hkind, hlen, hlast, beq_false_of_ne hack, beq_false_of_ne hheld,
    beq_self_eq_true, bne_self_eq_false, Bool.not_true, Bool.or_self, Bool.false_eq_true, if_false, if_true]

theorem OnlyChanges.queueAck (s : State) (port : Nat) (k : StreamId) (x : BitVec 16) (held : Bool) (src dst : Nat)
    (route : BitVec 48) : OnlyChanges [.arm] s (s.queueAck port k x held src dst route) :=
  OnlyChanges.ite _ (OnlyChanges.refl _ s) (OnlyChanges.setArm s _)

theorem OnlyChanges.sendAck_order (s : State) (t vc : Nat) (x : BitVec 16) (held : Bool) :
    OnlyChanges [.arm] s (s.sendAck (.order t vc) x held) :=
  (OnlyChanges.setArm s _).trans (OnlyChanges.queueAck _ _ _ _ _ _ _ _)

/-- An acknowledgement depends on the armature alone. -/
theorem State.sendAck_order_arm {s u : State} (h : u.arm = s.arm) (t vc : Nat) (x : BitVec 16) (held : Bool) :
    (u.sendAck (.order t vc) x held).arm = (s.sendAck (.order t vc) x held).arm := by
  simp only [State.sendAck, State.queueAck, State.routeOf, h]
  split <;> rfl

/-! ### The sentinel class (R107, R109 to R111, R402) -/

section
variable (s : State) (m : Nat) (f : Link → Link)

theorem OnlyChanges.countLink : OnlyChanges [.links] s (s.countLink m f) :=
  OnlyChanges.ite _ (OnlyChanges.modLink s m f) (OnlyChanges.refl _ s)

theorem State.countLink_link_ne {j : Nat} (h : j ≠ m) : (s.countLink m f).link j = s.link j := by
  unfold State.countLink
  split
  · exact s.link_modLink_ne f h
  · rfl

/-- A trained link counts unless its PHY group domain is stopped. -/
theorem State.countLink_link_self (h : s.trained m = true) :
    (s.countLink m f).link m = if s.time.stopped.getLsbD (linkDomain m) then s.link m else f (s.link m) := by
  unfold State.countLink
  cases hstop : s.time.stopped.getLsbD (linkDomain m) with
  | true => simp [h]
  | false => simp [h]

theorem State.countLink_trained (hf : ∀ l, (f l).state = l.state) (n : Nat) :
    (s.countLink m f).trained n = s.trained n := by
  have hstate : ((s.countLink m f).link n).state = (s.link n).state := by
    unfold State.countLink
    split
    · by_cases hn : n = m
      · subst hn; rw [State.link_modLink_self, hf]
      · rw [State.link_modLink_ne s f hn]
    · rfl
  simp only [State.trained, hstate]

end

theorem OnlyChanges.sentRx (s : State) (m flits : Nat) : OnlyChanges [.links] s (s.sentRx m flits) :=
  OnlyChanges.countLink s m _

theorem State.sentRx_link_ne (s : State) {m j : Nat} (flits : Nat) (h : j ≠ m) : (s.sentRx m flits).link j = s.link j :=
  s.countLink_link_ne m _ h

theorem State.sentTx_link_ne (s : State) {m j : Nat} (flits : Nat) (h : j ≠ m) : (s.sentTx m flits).link j = s.link j :=
  s.countLink_link_ne m _ h

theorem State.sentRx_trained (s : State) (m flits n : Nat) : (s.sentRx m flits).trained n = s.trained n := by
  refine s.countLink_trained m _ ?_ n
  exact fun _ => rfl

theorem State.sentRx_bytes {s : State} {m : Nat} (h : s.trained m = true) (flits : Nat) :
    ((s.sentRx m flits).link m).sentRx = (s.link m).sentRx +
      (if s.time.stopped.getLsbD (linkDomain m) then 0 else BitVec.ofNat 48 (16 * flits)) := by
  rw [State.sentRx, State.countLink_link_self s m _ h]
  split
  · exact (BitVec.add_zero _).symm
  · rfl

theorem State.sentTx_bytes {s : State} {m : Nat} (h : s.trained m = true) (flits : Nat) :
    ((s.sentTx m flits).link m).sentTx = (s.link m).sentTx +
      (if s.time.stopped.getLsbD (linkDomain m) then 0 else BitVec.ofNat 48 (16 * flits)) := by
  rw [State.sentTx, State.countLink_link_self s m _ h]
  split
  · exact (BitVec.add_zero _).symm
  · rfl

theorem State.chipNum_of_regs {s t : State} (h : t.regs = s.regs) : t.chipNum = s.chipNum := by
  simp only [State.chipNum, State.reg_of_regs h]

theorem State.nextHop_of_regs {s t : State} (h : t.regs = s.regs) (link : Nat) (f : Flit) :
    t.nextHop link f = s.nextHop link f := by
  have hslink (n : Nat) : t.slink n = s.slink n := State.reg_of_regs h _
  simp only [State.nextHop, hslink]

section
variable {s : State} {link n route cls : Nat} {h : Flit} {body : List Flit}
  (hkind : kindOk (if flitFld h 120 120 == 1 then .sentReport else .sentOrder) (flitFld h 127 124)
    (body.length + 1) = true)
  (hlen : flitFld h 123 121 = body.length) (htimex : flitFld h 127 124 ≠ 3) (helect : flitFld h 127 124 ≠ 4)
  (hchip : s.chipNum ≠ some (BitVec.ofNat 13 (flitFld h 105 93))) (hhop : s.nextHop link h = some (n, route, cls))
include hkind hlen htimex helect hchip hhop

/-- A packet of another kind than TIMEX and ELECT that is not for this chip goes on to its next hop. -/
theorem State.sentinelTake_of_foreign : s.sentinelTake link (h :: body) =
    (s.sentRx link (body.length + 1)).forwardOn n (reheader h body route cls) := by
  have hregs : (s.sentRx link (body.length + 1)).regs = s.regs := OnlyChanges.sentRx s link _ .regs (by simp)
  have harrive : s.sentinelArrive link (h :: body) =
      ((s.sentRx link (body.length + 1)).forwardOn n (reheader h body route cls), none) := by
    simp only [State.sentinelArrive, List.length_cons, hkind, hlen, State.chipNum_of_regs hregs,
      State.nextHop_of_regs hregs, hhop]
    simp [htimex, helect, hchip]
  rw [State.sentinelTake, harrive]

end

/-- The state once a packet has gone out on a trained link. -/
def State.forwarded (s : State) (n : Nat) (out : List Flit) : State :=
  { s.sentTx n out.length with arm.lastForward := some (n, out) }

theorem OnlyChanges.forwarded (s : State) (n : Nat) (out : List Flit) :
    OnlyChanges [.links, .arm] s (s.forwarded n out) :=
  ((OnlyChanges.sentTx s n out.length).mono (by simp)).trans ((OnlyChanges.setArm _ _).mono (by simp))

theorem State.forwarded_arm (s : State) (n : Nat) (out : List Flit) :
    (s.forwarded n out).arm = { s.arm with lastForward := some (n, out) } := by
  rw [State.forwarded, OnlyChanges.sentTx s n out.length .arm (by simp)]

theorem State.forwarded_link (s : State) (n : Nat) (out : List Flit) (j : Nat) :
    (s.forwarded n out).link j = (s.sentTx n out.length).link j := rfl

theorem State.forwardOn_of_trained {s : State} {n : Nat} (h : s.trained n = true) (out : List Flit) :
    s.forwardOn n out = s.forwarded n out := if_pos h

theorem State.forwardOn_of_untrained {s : State} {n : Nat} (h : s.trained n = false) (out : List Flit) :
    s.forwardOn n out = s := if_neg (by simp [h])

/-! ### A route back on its primary (R113) -/

/-- Route entry `k` on its primary route, its chip no longer given up. -/
def State.onPrimary (s : State) (k : Nat) : State :=
  { s with
    arm.onAlt := setBit s.arm.onAlt k false, arm.primLost := setBit s.arm.primLost k false
    arm.unreachable := s.arm.unreachable.filter (· ≠ BitVec.ofNat 13 (fld (s.route0 k) 60 48)) }

theorem OnlyChanges.onPrimary (s : State) (k : Nat) : OnlyChanges [.arm] s (s.onPrimary k) := OnlyChanges.setArm s _

theorem State.routeBack_of_idle {s : State} {k : Nat} (hk : k < 64) (hvalid : bit (s.route0 k) 63 = true)
    (halt : s.onAlt k = true) (hlost : s.arm.primLost.getLsbD k = true)
    (htrained : s.trained (routeLink (s.route0 k)) = true)
    (hidle : s.peerBusy (BitVec.ofNat 13 (fld (s.route0 k) 60 48)) = false) :
    s.routeBack k = (s.onPrimary k).raiseAlt k false := by
  simp only [State.routeBack, hk, hvalid, halt, hlost, htrained, hidle, decide_true, Bool.not_false,
    Bool.and_self, if_true]
  rfl

/-! ### The obligation -/

/-- Settles O31, command by command: where a packet's path, CRC and kind lead decides what its arrival does. -/
theorem packetsArrive : Obligations.PacketsArrive := by
  refine ⟨fun p s hpow hnet hat harrives hbad => ?_, fun p u h s hpow hnet hh hlost hu => ?_,
    fun p s hpow hnet hlost harrives => ?_,
    fun p h s hpow hnet hat harrives hh hwhole hcrc hkind hlen hack hheld hlast => ?_,
    fun link n route cls h body s hpow hlink hkind hlen htimex helect hchip hhop hne hn => ?_,
    fun link n route cls h body s hpow hlink hkind hlen htimex helect hchip hhop hn => ?_,
    fun k s hpow hk hvalid halt hlost htrained hidle => ?_⟩
  · refine ⟨(s.hopsCounted p).crcCounted p.at_ (packetHead (received p)).src (packetHead (received p)).xid, ?_,
      ((OnlyChanges.hopsCounted s p).mono (by simp)).trans (OnlyChanges.crcCounted _ _ _ _), fun k hk => ?_, ?_, ?_,
      ((OnlyTiles.hopsCounted s p).mono (by simp)).trans (OnlyTiles.crcCounted _ _ _ _), ?_⟩
    · rw [exec_packetArrive, doWhen_true hpow, s.packetArrive_of_order hnet hat harrives,
        State.packetOnDie_of_bad (p := received p) _ hat hbad]
      rfl
    · rw [State.crcCounted_reg, OnlyRegs.bump _ _ 1 k (by simp_all), OnlyRegs.hopsCounted s p k (by simp_all)]
    · rw [State.crcCounted_reg, State.reg_bump_ne _ _ (by decide), State.hopsCounted_reg]
    · rw [State.crcCounted_reg, State.reg_bump_self _ _ _ (regMask_lt _),
        OnlyRegs.hopsCounted s p Reg.armCrcDiscards (by decide)]
    · rw [State.crcCounted_count, OnlyTiles.hopsCounted s p p.at_ (by simp)]
  · have hhops := OnlyChanges.hopsCounted s p
    obtain ⟨hgone, hgoneTiles, hgoneFlight⟩ := (s.hopsCounted p).sourceLost_frame h
    obtain ⟨hdrop, hdropTiles, hdropRegs, hdropFlight⟩ :=
      ((s.hopsCounted p).sourceLost h).routeDiscard_frame hu 0x3F h.kind h.src
    refine ⟨_, by rw [exec_packetArrive, doWhen_true hpow, s.packetArrive_of_lost hnet hlost hh.symm],
      ((hhops.mono (by simp)).trans (hgone.mono (by simp))).trans (hdrop.mono (by simp)),
      (OnlyRegs.hopsCounted s p).trans (OnlyRegs.of_regs (hdropRegs.trans (hgone .regs (by simp)))),
      ((OnlyTiles.hopsCounted s p).mono (by simp)).trans
        ((hgoneTiles.mono (by simp)).trans (hdropTiles.mono (by simp))),
      ?_⟩
    rw [hdropFlight, hgoneFlight, hgone .time (by simp), hhops .time (by simp), hhops .ev (by simp)]
  · exact ⟨_, by rw [exec_packetArrive, doWhen_true hpow, s.packetArrive_of_elsewhere hnet hlost harrives],
      OnlyChanges.hopsCounted s p, OnlyRegs.hopsCounted s p⟩
  · have harm : (s.hopsCounted p).arm = s.arm := OnlyChanges.hopsCounted s p .arm (by simp)
    have hsend := OnlyChanges.sendAck_order (s.hopsCounted p) p.at_ h.vc h.xid (s.inInbox (.order p.at_ h.vc))
    refine ⟨_, ?_, ((OnlyChanges.hopsCounted s p).mono (by simp)).trans (hsend.mono (by simp)),
      (OnlyRegs.hopsCounted s p).trans (OnlyRegs.of_regs (hsend .regs (by simp))), State.sendAck_order_arm harm _ _ _ _⟩
    rw [exec_packetArrive, doWhen_true hpow, s.packetArrive_of_order hnet hat harrives, hwhole,
      State.packetOnDie_of_duplicate (p := received p) hnet hh.symm hcrc hkind hlen hack hheld
        ((State.lastXid_of_arm harm _).trans hlast), State.inInbox_of_arm harm]
    rfl
  · have hrx := OnlyChanges.sentRx s link (body.length + 1)
    have hntrained := (s.sentRx_trained link (body.length + 1) n).trans hn
    refine ⟨_, by rw [exec_sentinelForward, doWhen_true (by rw [hpow, hlink, Bool.and_self]),
      State.sentinelTake_of_foreign hkind hlen htimex helect hchip hhop, State.forwardOn_of_trained hntrained],
      (hrx.mono (by simp)).trans (OnlyChanges.forwarded _ _ _), ?_, ?_, ?_⟩
    · rw [State.forwarded_arm, hrx .arm (by simp)]
    · rw [State.forwarded_link, State.sentTx_link_ne _ _ hne.symm, State.sentRx_bytes hlink]
    · rw [State.forwarded_link, State.sentTx_bytes hntrained, s.sentRx_link_ne _ hne, hrx .time (by simp)]
      rfl
  · have hntrained := (s.sentRx_trained link (body.length + 1) n).trans hn
    exact ⟨_, by rw [exec_sentinelForward, doWhen_true (by rw [hpow, hlink, Bool.and_self]),
      State.sentinelTake_of_foreign hkind hlen htimex helect hchip hhop, State.forwardOn_of_untrained hntrained],
      OnlyChanges.sentRx s link _, fun j hj => s.sentRx_link_ne _ hj⟩
  · refine ⟨_, by rw [exec_routePrimaryBack, doWhen_true hpow,
      State.routeBack_of_idle hk hvalid halt hlost htrained hidle], ?_, fun j hj => ?_, ?_, ?_, rfl⟩
    · exact getLsbD_setBit_self _ false hk
    · exact getLsbD_setBit_of_ne _ false hj
    · exact fun hmem => of_decide_eq_true (List.mem_filter.1 hmem).2 rfl
    · exact ((OnlyChanges.onPrimary s k).mono (by simp)).trans ((OnlyChanges.raiseHub _ _ _ _).mono (by simp))

end Sys2Proof.Machine
end


section
/-! O43. Packing the elements of a block and reading them back (R125, Table 4.3). -/

namespace Sys2Proof.Machine

/-! ### Numbers in bytes (R16) -/

@[simp] theorem length_leBytes (n v : Nat) : (leBytes n v).length = n := by
  induction n generalizing v with
  | zero => rfl
  | succ n ih => simp [leBytes, ih]

theorem leNat_leBytes (n v : Nat) : leNat (leBytes n v) = v % 256 ^ n := by
  induction n generalizing v with
  | zero => simp [leBytes, leNat, Nat.mod_one]
  | succ n ih =>
    calc leNat (leBytes (n + 1) v) = v % 256 + 256 * (v / 256 % 256 ^ n) := by
          rw [leBytes, leNat, ih, BitVec.toNat_ofNat]
      _ = v % 256 ^ (n + 1) := by rw [← Nat.mod_mul, ← Nat.pow_succ']

/-! ### Elements of whole bytes -/

theorem unpackWide_flatMap (k : Nat) : ∀ es : List Nat, (∀ e ∈ es, e < 256 ^ k) →
    unpackWide k es.length (es.flatMap fun e => leBytes k e) = es
  | [], _ => rfl
  | e :: es, h => by
    have hhead : ((e :: es).flatMap fun e => leBytes k e).take k = leBytes k e := by simp
    have htail : ((e :: es).flatMap fun e => leBytes k e).drop k = es.flatMap fun e => leBytes k e := by simp
    rw [List.length_cons, unpackWide, hhead, htail, leNat_leBytes, Nat.mod_eq_of_lt (h e (by simp)),
      unpackWide_flatMap k es fun x hx => h x (by simp [hx])]

theorem length_flatMap_leBytes (k : Nat) (es : List Nat) : (es.flatMap fun e => leBytes k e).length = k * es.length := by
  induction es with
  | nil => rfl
  | cons e es ih => simp only [List.flatMap_cons, List.length_append, ih, length_leBytes, List.length_cons]; ring

/-! ### FP4: two elements in a byte -/

theorem packFp4_spec : ∀ es : List Nat, es.length % 2 = 0 → (∀ e ∈ es, e < 16) →
    ((packFp4 es).flatMap fun b => [b.toNat % 16, b.toNat / 16]) = es ∧ 2 * (packFp4 es).length = es.length
  | [], _, _ => ⟨rfl, rfl⟩
  | [a], h, _ => by simp at h
  | a :: b :: r, hlen, h => by
    obtain ⟨hr, hrlen⟩ := packFp4_spec r (by simp only [List.length_cons] at hlen; omega) fun e he => h e (by simp [he])
    have ha : a < 16 := h a (by simp)
    have hb : b < 16 := h b (by simp)
    have hbyte : (BitVec.ofNat 8 (a % 16 + b % 16 * 16)).toNat = a + b * 16 := by
      rw [BitVec.toNat_ofNat]; omega
    constructor
    · simp only [packFp4, List.flatMap_cons, hr, hbyte, List.cons_append, List.nil_append, List.cons.injEq, and_true]
      omega
    · simp only [packFp4, List.length_cons]; omega

/-! ### FP6: five elements and two pad bits in a 32-bit word (R125, R127) -/

/-- The word that carries five elements. -/
def fp6Word (a b c d e : Nat) : Nat :=
  a % 64 + b % 64 * 2 ^ 6 + c % 64 * 2 ^ 12 + d % 64 * 2 ^ 18 + e % 64 * 2 ^ 24

theorem fp6Word_lt (a b c d e : Nat) : fp6Word a b c d e < 2 ^ 30 := by
  unfold fp6Word; omega

theorem packFp6_cons (a b c d e : Nat) (r : List Nat) :
    packFp6 (a :: b :: c :: d :: e :: r) = leBytes 4 (fp6Word a b c d e) ++ packFp6 r := rfl

theorem leNat_fp6Word (a b c d e : Nat) : leNat (leBytes 4 (fp6Word a b c d e)) = fp6Word a b c d e := by
  have := fp6Word_lt a b c d e
  rw [leNat_leBytes]; omega

theorem fp6Word_elems {a b c d e : Nat} (ha : a < 64) (hb : b < 64) (hc : c < 64) (hd : d < 64) (he : e < 64) :
    (List.range 5).map (fun t => fp6Word a b c d e / 2 ^ (6 * t) % 64) = [a, b, c, d, e] := by
  simp only [List.range_succ, List.range_zero, List.nil_append, List.cons_append, List.map_cons, List.map_nil, fp6Word,
    List.cons.injEq, and_true]
  omega

theorem take_fp6Word (a b c d e : Nat) (bs : List Byte) :
    (leBytes 4 (fp6Word a b c d e) ++ bs).take 4 = leBytes 4 (fp6Word a b c d e) :=
  List.take_left' (length_leBytes _ _)

theorem drop_fp6Word (a b c d e : Nat) (bs : List Byte) : (leBytes 4 (fp6Word a b c d e) ++ bs).drop 4 = bs :=
  List.drop_left' (length_leBytes _ _)

theorem packFp6_spec : ∀ (n : Nat) (es : List Nat), es.length = 5 * n → (∀ e ∈ es, e < 64) →
    unpackFp6 n (packFp6 es) = es ∧ ((unpackWide 4 n (packFp6 es)).any fun w => w / 2 ^ 30 != 0) = false ∧
      (packFp6 es).length = 4 * n
  | 0, es, hlen, _ => by
    rw [List.eq_nil_of_length_eq_zero hlen]
    exact ⟨rfl, rfl, rfl⟩
  | n + 1, a :: b :: c :: d :: e :: r, hlen, h => by
    simp only [List.length_cons] at hlen
    obtain ⟨hes, hpads, hbytes⟩ := packFp6_spec n r (by omega) fun x hx => h x (by simp [hx])
    have helems := fp6Word_elems (h a (by simp)) (h b (by simp)) (h c (by simp)) (h d (by simp)) (h e (by simp))
    have hpad : fp6Word a b c d e / 2 ^ 30 = 0 := Nat.div_eq_of_lt (fp6Word_lt a b c d e)
    rw [packFp6_cons]
    refine ⟨?_, ?_, ?_⟩
    · rw [unpackFp6, take_fp6Word, drop_fp6Word, leNat_fp6Word, helems, hes]
      rfl
    · rw [unpackWide, take_fp6Word, drop_fp6Word, leNat_fp6Word, List.any_cons, hpad, hpads]
      rfl
    · rw [List.length_append, length_leBytes, hbytes]
      omega
  | n + 1, [], hlen, _ | n + 1, [_], hlen, _ | n + 1, [_, _], hlen, _ | n + 1, [_, _, _], hlen, _
  | n + 1, [_, _, _, _], hlen, _ => by simp only [List.length_cons, List.length_nil] at hlen; omega

/-! ### The obligation -/

/-- Formats whose elements are whole bytes: the bytes of a block, and what unpacking does (Table 4.3). -/
theorem packBlock_spec_of_wide {f : Nat} {es : List Nat} (hfp6 : isFp6 f = false) (hbits : fmtBits f ≠ 4)
    (hbytes : fmtBits f / 8 * fmtElems f = blockBytes) (hpow : 2 ^ fmtBits f = 256 ^ (fmtBits f / 8))
    (hlen : es.length = fmtElems f) (h : ∀ e ∈ es, e < 2 ^ fmtBits f) :
    unpackBlock f (packBlock f es) = es ∧ padsBad f (packBlock f es) = false ∧ (packBlock f es).length = blockBytes := by
  rw [hpow] at h
  simp only [unpackBlock, packBlock, padsBad, hfp6, beq_eq_false_iff_ne.2 hbits, Bool.false_eq_true, if_false, Bool.false_and,
    length_flatMap_leBytes, hlen, hbytes, and_true]
  rw [← hlen, unpackWide_flatMap _ es h]

theorem packBlock_spec_of_fp6 {f : Nat} {es : List Nat} (hf : f = 4 ∨ f = 5) (hlen : es.length = fmtElems f)
    (h : ∀ e ∈ es, e < 2 ^ fmtBits f) :
    unpackBlock f (packBlock f es) = es ∧ padsBad f (packBlock f es) = false ∧ (packBlock f es).length = blockBytes := by
  have hfp6 : isFp6 f = true := by rcases hf with rfl | rfl <;> rfl
  have hbits : fmtBits f = 6 := by rcases hf with rfl | rfl <;> rfl
  rw [fmtElems, if_pos hfp6] at hlen
  rw [hbits] at h
  obtain ⟨hes, hpads, hbytes⟩ := packFp6_spec 1024 es hlen h
  simp only [unpackBlock, packBlock, padsBad, hfp6, if_true, Bool.true_and]
  exact ⟨hes, hpads, hbytes⟩

theorem packBlock_spec_of_fp4 {es : List Nat} (hlen : es.length = fmtElems 3) (h : ∀ e ∈ es, e < 2 ^ fmtBits 3) :
    unpackBlock 3 (packBlock 3 es) = es ∧ padsBad 3 (packBlock 3 es) = false ∧ (packBlock 3 es).length = blockBytes := by
  have h8192 : es.length = 8192 := hlen
  obtain ⟨hes, hbytes⟩ := packFp4_spec es (by omega) h
  exact ⟨hes, rfl, show (packFp4 es).length = 4096 by omega⟩

/-- Settles O43: by how many bits an element has, five FP6 elements to a word, two FP4 elements to a byte, or whole
bytes. -/
theorem blockPackingRoundTrip : Obligations.BlockPackingRoundTrip := by
  unfold Obligations.BlockPackingRoundTrip
  intro f es hf hlen h
  rcases eq_or_ne f 3 with rfl | h3
  · exact packBlock_spec_of_fp4 hlen h
  · by_cases h45 : f = 4 ∨ f = 5
    · exact packBlock_spec_of_fp6 h45 hlen h
    · have hwide : isFp6 f = false ∧ fmtBits f ≠ 4 ∧ fmtBits f / 8 * fmtElems f = blockBytes ∧
          2 ^ fmtBits f = 256 ^ (fmtBits f / 8) := by
        revert h3 h45
        interval_cases f <;> decide
      obtain ⟨hfp6, hbits, hbytes, hpow⟩ := hwide
      exact packBlock_spec_of_wide hfp6 hbits hbytes hpow hlen h

end Sys2Proof.Machine
end


section
/-! O45. Residues modulo p, and the residue of a block of which some elements change (R127, R129). -/

namespace Sys2Proof.Machine

/-! ### Residues as numbers modulo p -/

theorem sealPrime_pos : 0 < sealPrime := by decide

theorem residue_lt (v : Int) : residue v < sealPrime := by
  have h := Int.emod_lt_of_pos v (show (0 : Int) < sealPrime by decide)
  have h0 := Int.emod_nonneg v (show (sealPrime : Int) ≠ 0 by decide)
  unfold residue
  omega

theorem residue_cast (v : Int) : ((residue v : Nat) : ZMod sealPrime) = (v : ZMod sealPrime) := by
  have h0 : ((residue v : Nat) : Int) = v % sealPrime := Int.toNat_of_nonneg (Int.emod_nonneg v (by decide))
  calc ((residue v : Nat) : ZMod sealPrime) = (((residue v : Nat) : Int) : ZMod sealPrime) := by norm_cast
    _ = (v : ZMod sealPrime) := by rw [h0, ZMod.intCast_mod]

/-- Two numbers below p that agree modulo p are equal. -/
theorem eq_of_zmod_eq {a b : Nat} (ha : a < sealPrime) (hb : b < sealPrime)
    (h : (a : ZMod sealPrime) = (b : ZMod sealPrime)) : a = b := by
  rw [ZMod.natCast_eq_natCast_iff'] at h
  rwa [Nat.mod_eq_of_lt ha, Nat.mod_eq_of_lt hb] at h

/-! ### The residue of a block -/

theorem residueFrom_lt (i : Nat) (vs : List Int) : residueFrom i vs < sealPrime := by
  cases vs with
  | nil => exact sealPrime_pos
  | cons v vs => exact Nat.mod_lt _ sealPrime_pos

theorem blockResidue_lt (f : Nat) (es : List Nat) : blockResidue f es < sealPrime := residueFrom_lt 0 _

theorem residueFrom_cons_cast (i : Nat) (v : Int) (vs : List Int) :
    ((residueFrom i (v :: vs) : Nat) : ZMod sealPrime) = weight i * v + (residueFrom (i + 1) vs : Nat) := by
  rw [residueFrom, ZMod.natCast_mod, Nat.cast_add, Nat.cast_mul, residue_cast]

/-- A value that changes moves the weighted sum by its weight times the change. -/
theorem residueFrom_set_cast : ∀ (vs : List Int) (i k : Nat) (v : Int), k < vs.length →
    ((residueFrom i (vs.set k v) : Nat) : ZMod sealPrime) =
      (residueFrom i vs : Nat) + weight (i + k) * ((v : ZMod sealPrime) - (vs.getD k 0 : Int))
  | [], _, _, _, hk => absurd hk (by simp)
  | x :: xs, i, 0, v, _ => by
    rw [List.set_cons_zero, residueFrom_cons_cast, residueFrom_cons_cast, List.getD_cons_zero,
      show weight (i + 0) = weight i from rfl]
    ring
  | x :: xs, i, k + 1, v, hk => by
    rw [List.set_cons_succ, residueFrom_cons_cast, residueFrom_cons_cast, List.getD_cons_succ,
      residueFrom_set_cast xs (i + 1) k v (Nat.lt_of_succ_lt_succ hk), show i + 1 + k = i + (k + 1) by omega]
    ring

theorem blockResidue_set_cast (f : Nat) (es : List Nat) {k : Nat} (b : Nat) (hk : k < es.length) :
    ((blockResidue f (es.set k b) : Nat) : ZMod sealPrime) =
      (blockResidue f es : Nat) + weight k * ((image f b : Int) - (image f (es.getD k 0) : Int)) := by
  have himage : (es.map (image f)).getD k 0 = image f (es.getD k 0) := by simp [hk]
  rw [blockResidue, List.map_set, residueFrom_set_cast _ _ _ _ (by simpa using hk), himage, Nat.zero_add, blockResidue]

/-! ### A partial write (R129) -/

/-- The sum so far and the elements so far, after one changed element. -/
def changeElem (f : Nat) (a : Int × List Nat) (e : Nat × Nat) : Int × List Nat :=
  (a.1 + (weight e.1 : Int) * (image f e.2 - image f (a.2.getD e.1 0)), a.2.set e.1 e.2)

theorem partialResidue_eq (f old : Nat) (es : List Nat) (new : List (Nat × Nat)) :
    partialResidue f old es new = residue (new.foldl (changeElem f) ((old : Int), es)).1 := rfl

/-- The sum that stands for the residue of the elements goes on standing for it. -/
theorem foldl_changeElem_cast (f : Nat) : ∀ (new : List (Nat × Nat)) (r : Int) (es : List Nat),
    (∀ e ∈ new, e.1 < es.length) → (r : ZMod sealPrime) = (blockResidue f es : Nat) →
    ((new.foldl (changeElem f) (r, es)).1 : ZMod sealPrime) =
      (blockResidue f (new.foldl (fun a e => a.set e.1 e.2) es) : Nat)
  | [], _, _, _, hr => hr
  | e :: new, r, es, hlt, hr => by
    refine foldl_changeElem_cast f new _ _ (fun x hx => ?_) ?_
    · rw [List.length_set]
      exact hlt x (List.mem_cons_of_mem e hx)
    · rw [blockResidue_set_cast f es e.2 (hlt e List.mem_cons_self), ← hr]
      simp only [Int.cast_add, Int.cast_mul, Int.cast_sub, Int.cast_natCast]

/-- Settles O45: every residue is a remainder by p, and each changed element moves the old residue by its weight times
the change of its image. -/
theorem residuesOfBlocks : Obligations.ResiduesOfBlocks := by
  unfold Obligations.ResiduesOfBlocks
  refine ⟨blockResidue_lt, fun f es new hlt => ?_⟩
  rw [partialResidue_eq]
  refine eq_of_zmod_eq (residue_lt _) (blockResidue_lt f _) ?_
  rw [residue_cast]
  exact foldl_changeElem_cast f new _ es hlt (by norm_cast)

end Sys2Proof.Machine
end


section
/-! O44. The predicted row residues of a pass are those of its accumulators, so the verdict of a block is sound (R139 to
R141, R146). -/

namespace Sys2Proof.Machine

/-! ### Sums of 64 columns -/

theorem rowResidueFrom_lt (n : Nat) (vs : List Int) : rowResidueFrom n vs < sealPrime := by
  cases vs with
  | nil => exact sealPrime_pos
  | cons v vs => exact Nat.mod_lt _ sealPrime_pos

theorem rowResidue_lt (vs : List Int) : rowResidue vs < sealPrime := rowResidueFrom_lt 0 vs

theorem rowResidueFrom_cast : ∀ (vs : List Int) (k : Nat), ((rowResidueFrom k vs : Nat) : ZMod sealPrime) =
    ∑ n ∈ Finset.range vs.length, ((k + n + 1 : Nat) : ZMod sealPrime) * (vs.getD n 0 : Int)
  | [], _ => by simp [rowResidueFrom]
  | v :: vs, k => by
    rw [rowResidueFrom, ZMod.natCast_mod, Nat.cast_add, Nat.cast_mul, residue_cast, rowResidueFrom_cast vs (k + 1),
      List.length_cons, Finset.sum_range_succ', add_comm]
    congr 1
    refine Finset.sum_congr rfl fun n _ => ?_
    rw [List.getD_cons_succ, show k + 1 + n + 1 = k + (n + 1) + 1 by omega]

/-- The row residue of at most 64 values, as a sum over all 64 columns. -/
theorem rowResidue_cast {vs : List Int} (h : vs.length ≤ 64) : ((rowResidue vs : Nat) : ZMod sealPrime) =
    ∑ n ∈ Finset.range 64, ((n + 1 : Nat) : ZMod sealPrime) * (vs.getD n 0 : Int) := by
  rw [rowResidue, rowResidueFrom_cast]
  simp only [Nat.zero_add]
  refine Finset.sum_subset (by simpa using h) fun n _ hn => ?_
  rw [List.getD_eq_default _ _ (by simpa using hn), Int.cast_zero, mul_zero]

theorem getD_map_range {α : Type} (f : Nat → α) (d : α) {n k : Nat} (h : k < n) :
    ((List.range n).map f).getD k d = f k := by
  simp [h]

theorem rowResidue_map_range_cast (f : Nat → Int) : ((rowResidue ((List.range 64).map f) : Nat) : ZMod sealPrime) =
    ∑ n ∈ Finset.range 64, ((n + 1 : Nat) : ZMod sealPrime) * (f n : Int) := by
  rw [rowResidue_cast (by simp)]
  exact Finset.sum_congr rfl fun n hn => by rw [getD_map_range f 0 (Finset.mem_range.1 hn)]

/-! ### The checksum of a weight row (R139) -/

theorem fmtOf_eq_none {f : Nat} (h : 10 < f) : fmtOf f = none := by
  unfold fmtOf
  split <;> first | omega | rfl

theorem entryValue_zero (f : Nat) : entryValue f 0 = 0 := by
  by_cases h : 10 < f
  · simp [entryValue, fmtOf_eq_none h]
  · interval_cases f <;> decide

theorem specialOf_zero (f : Nat) : specialOf f 0 = 0 := by
  by_cases h : 10 < f
  · simp [specialOf, fmtOf_eq_none h]
  · interval_cases f <;> decide

theorem colCheck_cast (w : Nat) {row : List Nat} (h : row.length ≤ 64) : ((colCheck w row : Nat) : ZMod sealPrime) =
    ∑ n ∈ Finset.range 64, ((n + 1 : Nat) : ZMod sealPrime) * (entryValue w (row.getD n 0) : Int) := by
  rw [colCheck, rowResidue_cast (by simpa using h)]
  refine Finset.sum_congr rfl fun n _ => ?_
  have hget : (row.map (entryValue w)).getD n (entryValue w 0) = entryValue w (row.getD n 0) := List.getD_map ..
  rw [entryValue_zero] at hget
  rw [hget]

/-! ### One row of products (R140) -/

/-- The operands of a step that have no special encoding, in rows of at most 64 weights. -/
def FiniteStep (a w : Nat) (st : List (List Nat) × List (List Nat)) : Prop :=
  (∀ r ∈ st.1, ∀ x ∈ r, specialOf a x = 0) ∧ ∀ r ∈ st.2, r.length ≤ 64 ∧ ∀ y ∈ r, specialOf w y = 0

theorem specialOf_getD {w : Nat} {r : List Nat} (h : ∀ y ∈ r, specialOf w y = 0) (n : Nat) :
    specialOf w (r.getD n 0) = 0 := by
  by_cases hn : n < r.length
  · rw [List.getD_eq_getElem _ _ hn]
    exact h _ (List.getElem_mem hn)
  · rw [List.getD_eq_default _ _ (by omega), specialOf_zero]

theorem dot_cons {a w x y : Nat} (hx : specialOf a x = 0) (hy : specialOf w y = 0) (xs ys : List Nat) :
    dot a w (x :: xs) (y :: ys) = entryValue a x * entryValue w y + dot a w xs ys := by
  simp [dot, hx, hy]

theorem columnOf_cons (r : List Nat) (ws : List (List Nat)) (n : Nat) :
    columnOf (r :: ws) n = r.getD n 0 :: columnOf ws n := rfl

/-- The products with the checksum cells are the weighted sum of the products with the 64 columns. -/
theorem checkDot_cast (a w : Nat) : ∀ (xs : List Nat) (ws : List (List Nat)), (∀ x ∈ xs, specialOf a x = 0) →
    (∀ r ∈ ws, r.length ≤ 64 ∧ ∀ y ∈ r, specialOf w y = 0) →
    ((checkDot a xs (ws.map (colCheck w)) : Nat) : ZMod sealPrime) =
      ∑ n ∈ Finset.range 64, ((n + 1 : Nat) : ZMod sealPrime) * (dot a w xs (columnOf ws n) : Int)
  | [], ws, _, _ => by simp [checkDot, dot]
  | x :: xs, [], _, _ => by simp [checkDot, dot, columnOf]
  | x :: xs, r :: ws, hx, hw => by
    obtain ⟨hlen, hr⟩ := hw r List.mem_cons_self
    rw [List.map_cons, checkDot, ZMod.natCast_mod, Nat.cast_add, Nat.cast_mul, residue_cast, colCheck_cast w hlen,
      checkDot_cast a w xs ws (fun y hy => hx y (List.mem_cons_of_mem x hy)) fun q hq => hw q (List.mem_cons_of_mem r hq),
      Finset.mul_sum, ← Finset.sum_add_distrib]
    refine Finset.sum_congr rfl fun n _ => ?_
    rw [columnOf_cons, dot_cons (hx x List.mem_cons_self) (specialOf_getD hr n), Int.cast_add, Int.cast_mul]
    ring

/-! ### Accumulators and predictions, step by step -/

/-- Row `m` of 64 accumulators. -/
def accRow (acc : List Int) (m : Nat) : List Int := (List.range 64).map fun n => acc.getD (64 * m + n) 0

/-- The predicted row residues are those of the accumulators. -/
def Predicts (acc : List Int) (pred : List Nat) : Prop := ∀ m, m < 64 → pred.getD m 0 = rowResidue (accRow acc m)

theorem getD_rows {α : Type} (f : Nat → Nat → α) (d : α) {n : Nat} (hn : n < 64) : ∀ (rows m : Nat), m < rows →
    ((List.range rows).flatMap fun i => (List.range 64).map (f i)).getD (64 * m + n) d = f m n
  | 0, _, h => absurd h (Nat.not_lt_zero _)
  | rows + 1, m, h => by
    have hlen : ((List.range rows).flatMap fun i => (List.range 64).map (f i)).length = 64 * rows := by
      simp [List.length_flatMap, mul_comm]
    rw [List.range_succ (n := rows), List.flatMap_append, List.flatMap_singleton]
    rcases Nat.lt_succ_iff_lt_or_eq.1 h with hm | rfl
    · rw [List.getD_append _ _ _ _ (by omega), getD_rows f d hn rows m hm]
    · rw [List.getD_append_right _ _ _ _ (by omega), hlen, Nat.add_sub_cancel_left, getD_map_range _ _ hn]

theorem stepAcc_getD (p : PassDesc) (acc : List Int) (as ws : List (List Nat)) {m n : Nat} (hm : m < 64) (hn : n < 64) :
    (stepAcc p acc as ws).getD (64 * m + n) 0 =
      acc.getD (64 * m + n) 0 + dot p.aFmt.toNat p.wFmt.toNat (as.getD m []) (columnOf ws n) := by
  rw [stepAcc, getD_rows _ _ hn 64 m hm, getD_map_range _ _ hn]

theorem accRow_stepAcc (p : PassDesc) (acc : List Int) (as ws : List (List Nat)) {m : Nat} (hm : m < 64) :
    accRow (stepAcc p acc as ws) m = (List.range 64).map fun n =>
      acc.getD (64 * m + n) 0 + dot p.aFmt.toNat p.wFmt.toNat (as.getD m []) (columnOf ws n) :=
  List.map_congr_left fun _ hn => stepAcc_getD p acc as ws hm (List.mem_range.1 hn)

/-- A step without special operands keeps the prediction right (R140). -/
theorem Predicts.step {p : PassDesc} {acc : List Int} {pred : List Nat} (h : Predicts acc pred)
    {as ws : List (List Nat)}
    (hst : FiniteStep p.aFmt.toNat p.wFmt.toNat (as, ws)) : Predicts (stepAcc p acc as ws) (stepPred p pred as ws) := by
  obtain ⟨has, hws⟩ := hst
  intro m hm
  have hrow : ∀ x ∈ as.getD m [], specialOf p.aFmt.toNat x = 0 := by
    by_cases hlen : m < as.length
    · rw [List.getD_eq_getElem _ _ hlen]
      exact has _ (List.getElem_mem hlen)
    · rw [List.getD_eq_default _ _ (by omega)]
      simp
  rw [stepPred, getD_map_range _ _ hm, h m hm, accRow_stepAcc p acc as ws hm]
  refine eq_of_zmod_eq (Nat.mod_lt _ sealPrime_pos) (rowResidue_lt _) ?_
  rw [ZMod.natCast_mod, Nat.cast_add, accRow, rowResidue_map_range_cast, rowResidue_map_range_cast,
    checkDot_cast _ _ _ _ hrow hws, ← Finset.sum_add_distrib]
  exact Finset.sum_congr rfl fun n _ => by rw [Int.cast_add, mul_add]

theorem rowSlice_loadAcc (p : PassDesc) {m : Nat} (hm : m < 64) : rowSlice m (loadAcc p) = accRow (loadAcc p) m := by
  refine List.ext_getElem ?_ fun n hn _ => ?_
  · simp only [rowSlice, loadAcc, accRow, List.length_take, List.length_drop, List.length_map, List.length_range]
    omega
  · have h64 : n < 64 := by
      simp only [rowSlice, List.length_take] at hn
      omega
    simp only [rowSlice, loadAcc, accRow, List.getElem_take, List.getElem_drop, List.getElem_map, List.getElem_range]
    rw [getD_map_range _ _ (by omega)]

theorem predicts_load (p : PassDesc) :
    Predicts (loadAcc p) ((List.range 64).map fun m => rowResidue (rowSlice m (loadAcc p))) :=
  fun m hm => by rw [getD_map_range _ _ hm, rowSlice_loadAcc p hm]

theorem Predicts.overSteps {p : PassDesc} : ∀ (as ws : List (List (List Nat))) {acc : List Int} {pred : List Nat},
    Predicts acc pred → (∀ st ∈ as.zip ws, FiniteStep p.aFmt.toNat p.wFmt.toNat st) →
    Predicts (overSteps (stepAcc p) acc as ws) (overSteps (stepPred p) pred as ws)
  | a :: as, w :: ws, _, _, h, hst =>
    Predicts.overSteps as ws (h.step (hst (a, w) (by simp))) fun st hmem => hst st (by simp [hmem])
  | [], _, _, _, h, _ => h
  | _ :: _, [], _, _, h, _ => h

theorem any_rows_eq_false {g : Nat → Nat} {rows : List (List Nat)}
    (h : ¬ (rows.any fun r => r.any fun b => g b != 0) = true) : ∀ r ∈ rows, ∀ b ∈ r, g b = 0 := by
  intro r hr b hb
  by_contra hne
  exact h (List.any_eq_true.2 ⟨r, hr, List.any_eq_true.2 ⟨b, hb, by simpa using hne⟩⟩)

/-- In a pass without a special operand every step is without one. -/
theorem finiteStep_of_firstSpecial {p : PassDesc} (h : firstSpecial p = none)
    (hlen : ∀ ws ∈ p.weights, ∀ r ∈ ws, r.length ≤ 64) {st : List (List Nat) × List (List Nat)}
    (hst : st ∈ p.acts.zip p.weights) : FiniteStep p.aFmt.toNat p.wFmt.toNat st := by
  have hnone := List.findSome?_eq_none_iff.1 h st hst
  simp only at hnone
  split at hnone
  · cases hnone
  · next hw =>
    split at hnone
    · cases hnone
    · next ha =>
      exact ⟨any_rows_eq_false ha,
        fun r hr => ⟨hlen _ (List.of_mem_zip hst).2 r hr, any_rows_eq_false hw r hr⟩⟩

/-- The predicted row residues of a pass without a special operand (R140). -/
theorem predicts_pass {p : PassDesc} (h : firstSpecial p = none) (hlen : ∀ ws ∈ p.weights, ∀ r ∈ ws, r.length ≤ 64) :
    Predicts (passAcc p) (passPred p) :=
  (predicts_load p).overSteps p.acts p.weights fun _ hst => finiteStep_of_firstSpecial h hlen hst

/-! ### The verdict of a block (R146) -/

theorem verdictFail_of_eq (b gen : Nat) (pred : List Nat) : verdictFail b gen pred pred none = [] := by
  simp [verdictFail]

theorem verdictFail_of_ne (b gen : Nat) {pred act : List Nat} (inj : Option Nat) {r : Nat} (hr : r < act.length)
    (hne : pred.getD r 0 ≠ act.getD r 0) : verdictFail b gen pred act inj ≠ [] := by
  have hmem : r ∈ (List.range act.length).filter fun r => pred.getD r 0 != act.getD r 0 :=
    List.mem_filter.2 ⟨List.mem_range.2 hr, bne_iff_ne.2 hne⟩
  have hempty : ((List.range act.length).filter fun r => pred.getD r 0 != act.getD r 0).isEmpty = false := by
    simpa using List.ne_nil_of_mem hmem
  simp only [verdictFail, hempty, Bool.false_and, Bool.false_eq_true, if_false]
  exact List.cons_ne_nil _ _

theorem roundFail_of_eq (b : Nat) (es : List Nat) : roundFail b es es none = [] := by
  have hfind : (List.range es.length).find? (fun i => es.getD i 0 != es.getD i 0) = none := by simp
  rw [roundFail, hfind]

/-- Row `m` as it leaves the array. -/
def PassSt.rowOut (p : PassSt) (f : DrainFaults) (m : Nat) : List Int :=
  (List.range 64).map fun n => p.accAt f (64 * m + n)

/-- The verdict of a block of a pass without a special operand, whose rounders agree, is that of its rows. -/
theorem PassSt.drain_ok {p : PassSt} (hs : p.special = false) (b : Nat) (acc : List (Nat × Int)) :
    (p.drain b { acc, ra := [], rb := [] } none none).ok =
      (verdictFail b p.desc.gen.toNat ((List.range (passRows p.desc)).map fun r => p.pred.getD (b * passRows p.desc + r) 0)
        ((List.range (passRows p.desc)).map fun r =>
          rowResidue (p.rowOut { acc, ra := [], rb := [] } (b * passRows p.desc + r))) none).isEmpty := by
  simp only [PassSt.drain, hs, PassSt.rowOut, Bool.false_eq_true, if_false]
  rw [roundFail_of_eq, List.append_nil]

/-- The rows of a block lie among the 64. -/
theorem row_lt_of_block {rows b r : Nat} (hb : b < 64 / rows) (hr : r < rows) : b * rows + r < 64 := by
  have hle : (b + 1) * rows ≤ 64 := (Nat.mul_le_mul_right rows hb).trans (Nat.div_mul_le_self 64 rows)
  have hmul : (b + 1) * rows = b * rows + rows := Nat.succ_mul b rows
  omega

theorem PassSt.rowOut_of_none (p : PassSt) (m : Nat) : p.rowOut { acc := [], ra := [], rb := [] } m = accRow p.acc m :=
  List.map_congr_left fun n _ => by simp [PassSt.accAt, deltaAt]

theorem PassSt.rowOut_of_one (p : PassSt) (m i : Nat) (d : Int) :
    p.rowOut { acc := [(i, d)], ra := [], rb := [] } m =
      (List.range 64).map fun n => p.acc.getD (64 * m + n) 0 + if n = i - 64 * m ∧ 64 * m ≤ i then d else 0 := by
  refine List.map_congr_left fun n _ => ?_
  by_cases h : n = i - 64 * m ∧ 64 * m ≤ i
  · simp [PassSt.accAt, deltaAt, h]
  · have hi : (i == 64 * m + n) = false := by simp; omega
    simp [PassSt.accAt, deltaAt, hi, h]

/-- A number below 64 plus 1 times a number that p does not divide is not 0 modulo p. -/
theorem weighted_ne_zero {n : Nat} (hn : n < 64) {d : Int} (hd : d % (sealPrime : Int) ≠ 0) :
    ((n + 1 : Nat) : ZMod sealPrime) * (d : ZMod sealPrime) ≠ 0 := by
  have hcoprime : ∀ n, n < 64 → Nat.Coprime sealPrime (n + 1) := by decide
  intro h
  have hdvd : (sealPrime : Int) ∣ ((n + 1 : Nat) : Int) * d := by
    rw [← ZMod.intCast_zmod_eq_zero_iff_dvd, Int.cast_mul, Int.cast_natCast]
    exact h
  exact hd (Int.emod_eq_zero_of_dvd ((Nat.isCoprime_iff_coprime.2 (hcoprime n hn)).dvd_of_dvd_mul_left hdvd))

/-- One changed accumulator changes the residue of its row. -/
theorem rowResidue_rowOut_ne {p : PassSt} {i : Nat} {d : Int} (hd : d % (sealPrime : Int) ≠ 0) :
    rowResidue (accRow p.acc (i / 64)) ≠ rowResidue (p.rowOut { acc := [(i, d)], ra := [], rb := [] } (i / 64)) := by
  intro heq
  have hmod : i - 64 * (i / 64) = i % 64 := by omega
  have hle : 64 * (i / 64) ≤ i := Nat.mul_div_le i 64
  have hlt : i % 64 < 64 := Nat.mod_lt i (by decide)
  have hsum := congrArg (fun n : Nat => (n : ZMod sealPrime)) heq
  simp only [p.rowOut_of_one, accRow, rowResidue_map_range_cast, hmod, hle, and_true, Int.cast_add, mul_add,
    Finset.sum_add_distrib, left_eq_add] at hsum
  rw [Finset.sum_eq_single_of_mem (i % 64) (Finset.mem_range.2 hlt) fun n _ hn => by simp [hn], if_pos rfl] at hsum
  exact weighted_ne_zero hlt hd hsum

/-- Settles O44: the predicted row residues follow the accumulators through every step, so the residues of a block that
drains well agree, and one changed accumulator makes those of its row differ. -/
theorem passVerdictsAreSound : Obligations.PassVerdictsAreSound := by
  unfold Obligations.PassVerdictsAreSound
  intro id p ctl b hs hlen hb
  have hpred : Predicts (passOf id p [] ctl).acc (passOf id p [] ctl).pred := predicts_pass hs hlen
  have hspecial : (passOf id p [] ctl).special = false := by
    show (firstSpecial p).isSome = false
    rw [hs]
    rfl
  have hrow {r : Nat} (hr : r < passRows p) : b * passRows p + r < 64 := row_lt_of_block hb hr
  refine ⟨?_, fun i d hlo hhi hd => ?_⟩
  · have hsame : ((List.range (passRows p)).map fun r => (passOf id p [] ctl).pred.getD (b * passRows p + r) 0) =
        (List.range (passRows p)).map fun r =>
          rowResidue ((passOf id p [] ctl).rowOut { acc := [], ra := [], rb := [] } (b * passRows p + r)) :=
      List.map_congr_left fun r hr => by rw [PassSt.rowOut_of_none, hpred _ (hrow (List.mem_range.1 hr))]
    rw [PassSt.drain_ok hspecial, show (passOf id p [] ctl).desc = p from rfl, hsame, verdictFail_of_eq]
    rfl
  · have hr : i / 64 - b * passRows p < passRows p := by
      have hmul : (b + 1) * passRows p = b * passRows p + passRows p := Nat.succ_mul b _
      omega
    have hi : b * passRows p + (i / 64 - b * passRows p) = i / 64 := by omega
    rw [PassSt.drain_ok hspecial, show (passOf id p [] ctl).desc = p from rfl, List.isEmpty_eq_false_iff]
    refine verdictFail_of_ne b _ none (r := i / 64 - b * passRows p) (by simpa using hr) ?_
    rw [getD_map_range _ _ hr, getD_map_range _ _ hr, hi, hpred (i / 64) (hi ▸ hrow hr)]
    exact rowResidue_rowOut_ne hd

end Sys2Proof.Machine
end


section
/-! O40. PASS_RERUN reads the operands of its pass again, and a read of another tile's slice counts at that tile (R148,
Table 13.1): the rerun changes more tiles than the one that reruns. -/

namespace Sys2Proof.Machine

/-! ### A rerun whose operand lies in another tile's slice -/

/-- A read by tile 3 of block 5 of layer 2 in the slice of tile 5. -/
def otherSliceRead : ReadReq :=
  { addr := .slice 5 2 5, unit := 2, fmt := 1, gen := 0, genCheck := false, reseal := none, toHost := false, flips := []
    ecc := .clean }

/-- A pass with that read as its only operand, whose only block has drained and failed. -/
def otherSlicePass : PassSt :=
  { id := 0, acc := [], states := [], pred := [], special := false, next := 1, entry := false, ctl := 3, rel := []
    desc := { aFmt := 1, wFmt := 1, outFmt := 1, oscale := 0, gen := 0, acts := [[[1]]], weights := [[[1]]], canon := none
              outIndex := 0, reads := [otherSliceRead] }
    fails := [{ code := 0x30, detail := 0, inj := false }] }

/-- The command of tile 3. -/
def otherSliceCmd : Cmd :=
  { cseq := 9, layer := 1, oper := 2, creset := 3, computes := true, nearBank := false, sealedIn := true, operandBytes := 4
    canonical := false, sample := none, words := [] }

/-- A chip at Ready: tile 3 runs a command, and its array holds the failed pass. -/
def otherSliceState : State :=
  { State.reset with
    life.powered := true, life.stage := 5
    tiles := [(3, { core := { cur := some otherSliceCmd, pass := some otherSlicePass } })] }

/-- The state after the rerun. -/
def otherSliceRerun : State := otherSliceState.passRerun 3 [] [] []

theorem exec_passRerun (t : Nat) (x : Rerun) (fs : List DrainFaults) (s : State) : exec (.passRerun t x fs) s =
    doWhen (s.live && s.mayRun t) (fun s => s.passRerun t x.reads x.entry fs) s := rfl

theorem exec_passRerun_otherSlice :
    exec (.passRerun 3 { reads := [], entry := [] } []) otherSliceState = .next otherSliceRerun := by
  rw [exec_passRerun, doWhen_true (by decide +kernel), otherSliceRerun]

theorem otherSliceState_unitGate :
    ∀ q ∈ otherSlicePass.desc.reads, otherSliceState.unitGate 3 q.addr false = .serve := by
  decide +kernel

/-- The block has the empty seal word, so its read is refused. -/
theorem otherSliceState_rereadAll : (otherSliceState.rereadAll 3 otherSlicePass.desc.reads []).2 = false :=
    by decide +kernel

/-- The 4,096 bytes of the block are counted in SLICE_BYTES of tile 5. -/
theorem otherSliceRerun_sliceBytes : (otherSliceRerun.tile 5).core.counter 3 = 4096 ∧
    (otherSliceState.tile 5).core.counter 3 = 0 := by decide +kernel

/-- Refutes O40: a rerun by tile 3 that reads its operand in the slice of tile 5 counts the bytes read at tile 5, while
the statement has it change no tile but tile 3. -/
theorem not_passesAndVerdicts : ¬ Obligations.PassesAndVerdicts := by
  unfold Obligations.PassesAndVerdicts
  rintro ⟨-, -, hrerun, -⟩
  obtain ⟨hrefused, -⟩ := hrerun 3 otherSlicePass [] [] [] otherSliceState (by decide +kernel) (by decide +kernel) rfl
    (by decide) (by decide +kernel) (by decide +kernel) otherSliceState_unitGate
  obtain ⟨t, hexec, htiles, -⟩ := hrefused otherSliceState_rereadAll
  obtain rfl : otherSliceRerun = t := Host.Outcome.next.inj (exec_passRerun_otherSlice.symm.trans hexec)
  have hsame : otherSliceRerun.tile 5 = otherSliceState.tile 5 := htiles 5 (by decide)
  obtain ⟨hafter, hbefore⟩ := otherSliceRerun_sliceBytes
  rw [hsame, hbefore] at hafter
  exact absurd hafter (by decide)

end Sys2Proof.Machine
end


section
/-! O9. Write-only registers and the registers that set something going: injections, licences, read requests, resets,
dumps, fuse programming and the test access port (R156, R381, R409, R418, R421, R429, R436, R469). -/

namespace Sys2Proof.Machine

/-! ### Fields of words -/

theorem fld_congr {a b : Word} {hi lo : Nat} (h : ∀ i, i < hi + 1 → lo ≤ i → a.getLsbD i = b.getLsbD i) :
    fld a hi lo = fld b hi lo := by
  refine Nat.eq_of_testBit_eq fun j => ?_
  rw [testBit_fld, testBit_fld]
  by_cases hj : j < hi + 1 - lo
  · rw [h (lo + j) (by omega) (by omega)]
  · simp [hj]

/-- A field that a mask keeps whole. -/
theorem fld_masked {mask : Word} (old new : Word) {hi lo : Nat} (hi64 : hi < 64)
    (h : ∀ i, i < hi + 1 → lo ≤ i → mask.getLsbD i = true) : fld (masked mask old new) hi lo = fld new hi lo :=
  fld_congr fun i hi' hlo => by rw [getLsbD_masked mask old new (by omega), h i hi' hlo, if_pos rfl]

theorem fld_setFld_self (w : Word) (hi lo v : Nat) (hi64 : hi < 64) :
    fld (setFld w hi lo v) hi lo = v % 2 ^ (hi + 1 - lo) := by
  refine Nat.eq_of_testBit_eq fun j => ?_
  rw [testBit_fld, Nat.testBit_mod_two_pow]
  by_cases hj : j < hi + 1 - lo
  · rw [getLsbD_setFld w hi lo v (by omega), if_pos ⟨by omega, by omega⟩, Nat.add_sub_cancel_left]
  · simp [hj]

/-- A field above or below the one that is replaced. -/
theorem fld_setFld_ne (w : Word) {hi lo h l : Nat} (v : Nat) (h64 : h < 64) (hne : h < lo ∨ hi < l) :
    fld (setFld w hi lo v) h l = fld w h l :=
  fld_congr fun i hi' hlo => by rw [getLsbD_setFld w hi lo v (by omega), if_neg (by omega)]

theorem masked_zero (mask v : Word) : masked mask 0 v = v &&& mask := by simp [masked]

theorem mergeHalf_eight (old : Word) (off : Nat) (v : Word) : mergeHalf old off 8 v = v := rfl

/-! ### A permitted write of 8 bytes -/

theorem writeRow_of_powered {s : State} (m : Requester) (page off size : Nat) (v : Word) (h : s.life.powered = true) :
    writeRow m page off size v s = .next (s.writeAccess m page off size v) :=
  doWhen_true (f := fun s => s.writeAccess m page off size v) h

/-- A register at an aligned offset above the page's head, to which every master may write 8 bytes that its access
table lets write there. -/
def OpenReg (page off : Nat) (r : RegRow) : Prop :=
  (accessOk page off 8 && !writeIgnored page off && decide (off % 8 = 0 ∧ 0x010 ≤ off)) = true ∧ findRow page off = some r ∧
    ∀ m, onlyWriter m (page * 0x1000 + off) = true

theorem State.writeAccess_of_open {s : State} {m : Requester} {page off : Nat} {r : RegRow} (v : Word)
    (hreg : OpenReg page off r) (hmay : s.mayWrite m page off = true)
    (hlive : s.life.frozen = false ∨ frozenWritable page off = true) :
    s.writeAccess m page off 8 v = s.regWrite m page off 8 v r := by
  obtain ⟨hshape, hrow, honly⟩ := hreg
  simp only [Bool.and_eq_true, Bool.not_eq_true', decide_eq_true_eq] at hshape
  obtain ⟨⟨hok, hignored⟩, hal, h10⟩ := hshape
  have hoff : off - off % 8 = off := by omega
  rcases hlive with hlive | hfrozen
  · exact s.writeAccess_row m page off 8 v r hok hmay hignored hlive (by rw [hoff, honly]) (by rw [hoff, hrow]) h10
  · exact s.writeAccess_frozen_row m page off 8 v r hok hmay hignored (by rw [hoff, hfrozen]) (by rw [hoff, honly])
      (by rw [hoff, hrow]) h10

theorem OpenReg.aligned {page off : Nat} {r : RegRow} (h : OpenReg page off r) : off - off % 8 = off := by
  have hshape := h.1
  simp only [Bool.and_eq_true, decide_eq_true_eq] at hshape
  omega

/-- A write-only register acts on the bits that it has (R17, R20). -/
theorem State.writeAccess_writeOnly {s : State} {m : Requester} {page off : Nat} {r : RegRow} (v : Word)
    (hreg : OpenReg page off r) (hacc : r.acc = .wo) (hmay : s.mayWrite m page off = true)
    (hlive : s.life.frozen = false ∨ frozenWritable page off = true) :
    s.writeAccess m page off 8 v = s.writeOnly m (page * 0x1000 + off) (v &&& r.mask) := by
  rw [s.writeAccess_of_open v hreg hmay hlive]
  simp only [State.regWrite, hacc, hreg.aligned, mergeHalf_eight, masked_zero]

/-- An RW register that is none of those with an action of their own stores by its field rule. -/
theorem State.writeAccess_store {s : State} {m : Requester} {page off : Nat} {r : RegRow} (v : Word)
    (hreg : OpenReg page off r) (hacc : r.acc = .rw) (hmay : s.mayWrite m page off = true) (hlive : s.life.frozen = false)
    (hlock : off ≠ 0x028) (hdump : page * 0x1000 + off ≠ Reg.dumpDumpCtl) (hown : ownField page off = false) :
    s.writeAccess m page off 8 v =
      s.storeReg page off (s.reg (page * 0x1000 + off)) (masked r.mask (s.reg (page * 0x1000 + off)) v) := by
  have hal := hreg.aligned
  rw [s.writeAccess_of_open v hreg hmay (.inl hlive), s.regWrite_store m page off 8 v r (.inl hacc) (by rwa [hal])
    (by rwa [hal]) (by rwa [hal]), hal, storedWord, mergeHalf_eight]

/-! ### Injections (R156) -/

theorem openReg_inject : OpenReg 0x005 0x160 ⟨"INJECT", 0x160, 8, 1, .rw, 0, 0x7F807FF⟩ :=
    ⟨by decide, by decide, fun _ => rfl⟩

theorem State.storeReg_inject (s : State) (old new : Word) (htile : fld new 10 0 < numTiles)
    (hkind : fld new 21 19 ≤ 4) :
    s.storeReg 0x005 0x160 old new = s.setReg Reg.sealInject (setFld new 63 63 (b2n (fld new 21 19 != 0))) := by
  have hrule : s.fieldRule 0x005 0x160 old new =
      acceptIf (fld new 10 0 < numTiles && fld new 21 19 ≤ 4) (setFld new 63 63 (b2n (fld new 21 19 != 0))) := rfl
  rw [State.storeReg, hrule, acceptIf, if_pos (by simp [htile, hkind])]
  rfl

/-- A permitted order of an injection is stored, ARMED if its KIND is one of 1 to 4. -/
theorem State.writeAccess_inject {s : State} {m : Requester} (v : Word) (h : s.mayUse m 0x005 0x160)
    (htile : fld v 10 0 < numTiles) (hkind : fld v 21 19 ≤ 4) :
    s.writeAccess m 0x005 0x160 8 v = s.setReg Reg.sealInject
      (setFld (masked 0x7F807FF (s.reg Reg.sealInject) v) 63 63 (b2n (fld v 21 19 != 0))) := by
  obtain ⟨-, hlive, hmay⟩ := h
  have hfldTile : fld (masked 0x7F807FF (s.reg Reg.sealInject) v) 10 0 = fld v 10 0 :=
      fld_masked _ _ (by decide) (by decide)
  have hfldKind : fld (masked 0x7F807FF (s.reg Reg.sealInject) v) 21 19 = fld v 21 19 :=
      fld_masked _ _ (by decide) (by decide)
  rw [State.writeAccess_store v openReg_inject rfl hmay hlive (by decide) (by decide) rfl,
    State.storeReg_inject _ _ _ (by rwa [hfldTile]) (by rwa [hfldKind]), hfldKind]

theorem exec_injectArm {s : State} {m : Requester} {v : Word} (h : s.mayUse m 0x005 0x160)
    (htile : fld v 10 0 < numTiles)
    (h1 : 1 ≤ fld v 21 19) (h4 : fld v 21 19 ≤ 4) : exec (.injectArm m v) s =
      .next (s.setReg Reg.sealInject (setFld (masked 0x7F807FF (s.reg Reg.sealInject) v) 63 63 1)) := by
  have hne : (fld v 21 19 != 0) = true := by simp; omega
  calc exec (.injectArm m v) s = doWhen (s.life.powered && fld v 21 19 != 0) (fun s => s.writeAccess m 0x005 0x160 8 v) s := rfl
    _ = _ := by rw [doWhen_true (by rw [h.1, hne]; rfl), State.writeAccess_inject v h htile h4, hne]; rfl

theorem exec_injectDisarm {s : State} {m : Requester} {v : Word} (h : s.mayUse m 0x005 0x160)
    (htile : fld v 10 0 < numTiles) :
    exec (.injectDisarm m v) s =
      .next (s.setReg Reg.sealInject (setFld (masked 0x7F807FF (s.reg Reg.sealInject) (setFld v 21 19 0)) 63 63 0)) := by
  have hkind : fld (setFld v 21 19 0) 21 19 = 0 := fld_setFld_self v 21 19 0 (by decide)
  have hsame : fld (setFld v 21 19 0) 10 0 = fld v 10 0 := fld_setFld_ne v 0 (by decide) (by decide)
  calc exec (.injectDisarm m v) s = writeRow m 0x005 0x160 8 (setFld v 21 19 0) s := rfl
    _ = _ := by rw [writeRow_of_powered _ _ _ _ _ h.1,
      State.writeAccess_inject _ h (by rwa [hsame]) (by rw [hkind]; decide), hkind]; rfl

/-! ### Write-only registers (R17) -/

theorem openReg_licCtl : OpenReg 0x00F 0x100 ⟨"LIC_CTL", 0x100, 8, 1, .wo, 0, 0x1⟩ :=
    ⟨by decide, by decide, fun _ => rfl⟩

theorem openReg_readReq : OpenReg 0x012 0x108 ⟨"READ_REQ", 0x108, 8, 1, .wo, 0, 0xF0000000001F07FF⟩ :=
  ⟨by decide, by decide, fun _ => rfl⟩

theorem openReg_fwReady : OpenReg 0x013 0x108 ⟨"FW_READY", 0x108, 8, 1, .wo, 0, 0x1⟩ :=
    ⟨by decide, by decide, fun _ => rfl⟩

theorem openReg_resetReq : OpenReg 0x013 0x128 ⟨"RESET_REQ", 0x128, 8, 1, .wo, 0, 0xF0000000000007FF⟩ :=
  ⟨by decide, by decide, fun _ => rfl⟩

theorem openReg_progResult : OpenReg 0x015 0x120 ⟨"PROG_RESULT", 0x120, 8, 1, .wo, 0, 0x80000000000000FF⟩ :=
  ⟨by decide, by decide, fun _ => rfl⟩

theorem bit_and (v mask : Word) (i : Nat) : bit (v &&& mask) i = (bit v i && bit mask i) := BitVec.getLsbD_and

theorem exec_licenceInstall {s : State} {m : Requester} (v : Word) (h : s.mayUse m 0x00F 0x100) :
    exec (.licenceInstall m v) s = .next (s.licInstall (v &&& 0x1)) := by
  obtain ⟨hpower, hlive, hmay⟩ := h
  calc exec (.licenceInstall m v) s = writeRow m 0x00F 0x100 8 v s := rfl
    _ = _ := by rw [writeRow_of_powered _ _ _ _ _ hpower, State.writeAccess_writeOnly v openReg_licCtl rfl hmay (.inl hlive)]; rfl

theorem State.licInstall_of_idle {s : State} {v : Word} (hbit : bit v 0 = true) (hpending : s.digest.licPending = false)
    (htick : s.digest.licTick = false) : s.licInstall v = { s with digest.licTick := true } :=
  if_pos (by rw [hbit, hpending, htick]; rfl)

theorem exec_fuseProgResult {s : State} {m : Requester} {v : Word} (h : s.mayUse m 0x015 0x120)
    (hbit : bit v 63 = false) :
    exec (.fuseProgResult m v) s = .next s := by
  obtain ⟨hpower, hlive, hmay⟩ := h
  have hvalid : bit (v &&& 0x80000000000000FF) 63 = false := by rw [bit_and, hbit]; rfl
  have hact (w : Word) : s.writeOnly m Reg.fuseProgResult w =
      if s.map.progReq && bit w 63 then s.mgmtAnswer.progResult w else s := rfl
  have hnone : s.writeOnly m Reg.fuseProgResult (v &&& 0x80000000000000FF) = s := by
    rw [hact, hvalid, Bool.and_false, if_neg Bool.false_ne_true]
  calc exec (.fuseProgResult m v) s = writeRow m 0x015 0x120 8 v s := rfl
    _ = .next (s.writeOnly m Reg.fuseProgResult (v &&& 0x80000000000000FF)) := by
      rw [writeRow_of_powered _ _ _ _ _ hpower, State.writeAccess_writeOnly v openReg_progResult rfl hmay (.inl hlive)]
    _ = .next s := by rw [hnone]

/-! ### Reads of rings and nodes (R409) -/

theorem writeRow_readReq {s : State} {m : Requester} (v : Word) (hpower : s.life.powered = true)
    (hmay : s.mayWrite m 0x012 0x108 = true) :
    writeRow m 0x012 0x108 8 v s = .next (s.readRequest (v &&& 0xF0000000001F07FF)) := by
  rw [writeRow_of_powered _ _ _ _ _ hpower, State.writeAccess_writeOnly v openReg_readReq rfl hmay (.inr rfl)]
  rfl

theorem State.readRequest_of_busy {s : State} (v : Word) (h : s.dbg.readBusy = true) : s.readRequest v = s :=
  if_pos (by rw [h]; rfl)

/-- A request of KIND 0 or 1 makes READ busy. -/
theorem State.readRequest_of_idle {s : State} (v : Word) {kind : Nat} (h : s.dbg.readBusy = false) (hkind : kind < 2) :
    s.readRequest (setFld v 63 60 kind &&& 0xF0000000001F07FF) = { s with
      dbg.readReq := setFld v 63 60 kind &&& 0xF0000000001F07FF, dbg.readBusy := true, dbg.readValid := false } := by
  have hfld : fld (setFld v 63 60 kind &&& 0xF0000000001F07FF) 63 60 = kind := by
    rw [← masked_zero, fld_masked _ _ (by decide) (by decide), fld_setFld_self _ _ _ _ (by decide)]
    exact Nat.mod_eq_of_lt (by omega)
  refine if_neg ?_
  rw [hfld, h, Bool.false_or, decide_eq_true_eq]
  omega

/-! ### RESET_REQ (R436) -/

theorem OnlyChanges.recordFrom (s : State) (src code : Nat) (sev : Severity) (d : Word) :
    OnlyChanges [.time, .free] s (s.recordFrom src code sev d).2 := by
  unfold State.recordFrom
  split
  · exact OnlyChanges.localStamp s _
  · exact OnlyChanges.refl _ s

theorem OnlyChanges.raiseFrom (s : State) (src code : Nat) (sev : Severity) (d : Word) :
    OnlyChanges [.ev, .time, .free] s (s.raiseFrom src code sev d) :=
  ((OnlyChanges.recordFrom s src code sev d).mono (by simp)).trans ((OnlyChanges.raise _ _).mono (by simp))

/-- The record has a timestamp of its source's domain, and is otherwise as given (R70). -/
theorem State.recordFrom_eq (s : State) (src code : Nat) (sev : Severity) (d : Word) (time : Word) :
    { (s.recordFrom src code sev d).1 with time } = mkRec time code src 0 sev d := by
  unfold State.recordFrom
  split <;> rfl

theorem State.raiseFrom_logged (s : State) (src code : Nat) (sev : Severity) (d : Word) (time : Word) :
    (s.raiseFrom src code sev d).logged (mkRec time code src 0 sev d) :=
  ⟨(s.recordFrom src code sev d).1, List.mem_append_right _ List.mem_cons_self, s.recordFrom_eq src code sev d _⟩

theorem exec_resetReq {s : State} {m : Requester} (v : Word) (h : s.mayUse m 0x013 0x128) : exec (.resetReq m v) s =
    .next ((s.bump Reg.bringupResetsRefused).raiseFrom srcHostIf 0x00D5 .note (pack [(60, 4, fld v 63 60), (0, 11, fld v 10 0)])) := by
  obtain ⟨hpower, hlive, hmay⟩ := h
  have hkind : fld (v &&& 0xF0000000000007FF) 63 60 = fld v 63 60 := by
    rw [← masked_zero, fld_masked _ _ (by decide) (by decide)]
  have htile : fld (v &&& 0xF0000000000007FF) 10 0 = fld v 10 0 := by
    rw [← masked_zero, fld_masked _ _ (by decide) (by decide)]
  calc exec (.resetReq m v) s = writeRow m 0x013 0x128 8 v s := rfl
    _ = .next (s.resetRefused (v &&& 0xF0000000000007FF)) := by
      rw [writeRow_of_powered _ _ _ _ _ hpower, State.writeAccess_writeOnly v openReg_resetReq rfl hmay (.inl hlive)]; rfl
    _ = _ := by rw [State.resetRefused, hkind, htile]

/-! ### Answers of Palalmux (R45, R429) -/

theorem OnlyChanges.mgmtDone (s : State) (k : Nat) : OnlyChanges [.life] s (s.mgmtDone k) :=
  fun p hp => by cases p <;> first | rfl | simp at hp

/-- An answer of Palalmux sets MGMT_OK and ends its silence. -/
def State.mgmtHeard (s : State) : State := { s with life.mgmtOk := true, life.mgmtLostBeat := 0 }

theorem OnlyChanges.mgmtHeard (s : State) : OnlyChanges [.life] s s.mgmtHeard :=
  fun p hp => by cases p <;> first | rfl | simp at hp

theorem State.mgmtAnswer_of_frozen {s : State} (h : s.life.frozen = true) : s.mgmtAnswer = s.mgmtHeard :=
  if_pos (by rw [State.life, h, Bool.or_true])

theorem OnlyChanges.mgmtAnswer_heard (s : State) : OnlyChanges [.ev, .time, .free] s.mgmtHeard s.mgmtAnswer := by
  unfold State.mgmtAnswer
  dsimp only
  split
  · exact OnlyChanges.refl _ _
  · exact OnlyChanges.raiseFrom s.mgmtHeard _ _ _ _

theorem exec_fwReady {s : State} {m : Requester} (v : Word) (h : s.mayUse m 0x013 0x108) :
    exec (.fwReady m v) s = .next (s.fwReady m (v &&& 0x1)) := by
  obtain ⟨hpower, hlive, hmay⟩ := h
  calc exec (.fwReady m v) s = writeRow m 0x013 0x108 8 v s := rfl
    _ = _ := by rw [writeRow_of_powered _ _ _ _ _ hpower, State.writeAccess_writeOnly v openReg_fwReady rfl hmay (.inl hlive)]; rfl

/-- S1 has its FW_READY. -/
def State.fwHeeded (s : State) : State := { s with life.fwReady := true }

theorem OnlyChanges.fwHeeded (s : State) : OnlyChanges [.life] s s.fwHeeded :=
  fun p hp => by cases p <;> first | rfl | simp at hp

theorem State.fwReady_of_heeded {s : State} (m : Requester) {v : Word} (hbit : bit v 0 = true)
    (hstage : s.life.stage = 1) :
    s.fwReady m v = if m.cls = .mgmt then (s.fwHeeded.mgmtDone 3).mgmtAnswer else s.fwHeeded :=
  if_pos (by rw [hbit, hstage]; rfl)

theorem State.fwReady_of_late {s : State} (m : Requester) (v : Word) (hstage : s.life.stage ≠ 1) : s.fwReady m v = s :=
  if_neg (by simp [hstage])

/-! ### DUMP_CTL (R418) -/

theorem openReg_dumpCtl : OpenReg 0x016 0x100 ⟨"DUMP_CTL", 0x100, 8, 1, .rw, 0, 0x1F01⟩ :=
    ⟨by decide, by decide, fun _ => rfl⟩

/-- OPTIONAL is stored and the dump runs. -/
def State.dumpStarted (s : State) (v : Word) : State :=
  { s.setReg Reg.dumpDumpCtl (v &&& 0x1F00) with dbg.dumpState := 1, dbg.dumpBytes := 0 }

theorem OnlyChanges.dumpStarted (s : State) (v : Word) : OnlyChanges [.regs, .dbg] s (s.dumpStarted v) :=
  fun p hp => by cases p <;> first | rfl | simp at hp

theorem setFld_go_and (v : Word) : setFld v 0 0 1 &&& 0x1F00 = v &&& 0x1F00 := by
  refine BitVec.eq_of_getLsbD_eq fun i hi => ?_
  rw [BitVec.getLsbD_and, BitVec.getLsbD_and, getLsbD_setFld v 0 0 1 hi]
  split
  · next h =>
    obtain rfl : i = 0 := by omega
    simp
  · rfl

theorem State.dumpCtl_go {s : State} (m : Requester) (v : Word) (hfrozen : s.life.frozen = true)
    (hstate : s.dbg.dumpState ≠ 1) (hbase : fld (s.reg Reg.dumpDumpBase) 11 0 = 0) :
    s.dumpCtl m (setFld v 0 0 1) =
      if m.cls = .mgmt then ((s.dumpStarted v).mgmtDone 2).mgmtAnswer else s.dumpStarted v := by
  have hgo : bit (setFld v 0 0 1) 0 = true := by rw [bit, getLsbD_setFld v 0 0 1 (by decide)]; rfl
  have hreg : (s.setReg Reg.dumpDumpCtl (v &&& 0x1F00)).reg Reg.dumpDumpBase = s.reg Reg.dumpDumpBase :=
    s.reg_setReg_ne _ (by decide)
  have hne : (s.dbg.dumpState != 1) = true := bne_iff_ne.2 hstate
  simp only [State.dumpCtl, masked_zero, setFld_go_and, State.setReg_life, State.setReg_dbg, hgo, hfrozen, hne, hreg, hbase,
    Bool.true_and, beq_self_eq_true, if_true]
  rfl

theorem exec_dumpGo {s : State} {m : Requester} (v : Word) (hpower : s.life.powered = true)
    (hmay : s.mayWrite m 0x016 0x100 = true) : exec (.dumpGo m v) s = .next (s.dumpCtl m (setFld v 0 0 1)) := by
  calc exec (.dumpGo m v) s = writeRow m 0x016 0x100 8 (setFld v 0 0 1) s := rfl
    _ = _ := by rw [writeRow_of_powered _ _ _ _ _ hpower, State.writeAccess_of_open _ openReg_dumpCtl hmay (.inr rfl)]; rfl

/-- What a GO of firmware leaves: the freeze indication has its answer. -/
theorem State.dumpStarted_answered {s : State} (v : Word) (hfrozen : s.life.frozen = true) :
    ((s.dumpStarted v).mgmtDone 2).mgmtAnswer = ((s.dumpStarted v).mgmtDone 2).mgmtHeard :=
        State.mgmtAnswer_of_frozen hfrozen

theorem State.mgmtWaits_mgmtDone (s : State) (k : Nat) : (s.mgmtDone k).mgmtWaits k = false := by
  simp [State.mgmtDone, State.mgmtWaits]

/-! ### The test access port (R421) -/

theorem exec_tapChmAddr (b : BitVec 26) (s : State) : exec (.tapChmAddr b) s =
    doWhen (s.life.powered && s.tapOn) (fun s => { s with dbg.tapAddr := b }) s := rfl

theorem exec_tapChmDataCapture (s : State) : exec .tapChmDataCapture s =
    doWhen (s.life.powered && s.tapOn && !s.dbg.tapAddr.getLsbD 25) State.tapCapture s := rfl

theorem exec_tapChmDataUpdate (v : Word) (s : State) : exec (.tapChmDataUpdate v) s =
    doWhen (s.life.powered && s.tapOn && s.dbg.tapAddr.getLsbD 25) (fun s => s.tapUpdate v) s := rfl

/-! ### The obligation -/

/-- Settles O9: each write passes the judgement of the window and reaches the action of its register. -/
theorem writeOnlyRequests : Obligations.WriteOnlyRequests := by
  unfold Obligations.WriteOnlyRequests
  refine ⟨fun m v s huse htile h1 h4 => exec_injectArm huse htile h1 h4,
    fun m v s huse htile => exec_injectDisarm huse htile,
    fun m v s huse hbit hpending htick => ?licence,
    fun m v s hpower hmay hidle => ⟨?_, ?_⟩,
    fun m v s huse => ?reset,
    fun m v s huse hbit hstage hcls => ?fwReady,
    fun m v s hpower hmay hfrozen hstate hbase => ?dump,
    fun m v s huse hbit => exec_fuseProgResult huse hbit,
    fun b s hpower hon => by rw [exec_tapChmAddr, doWhen_true (by rw [hpower, hon]; rfl)],
    fun s hpower hon haddr => ⟨s.tapCapture, by rw [exec_tapChmDataCapture, doWhen_true (by rw [hpower, hon, haddr]; rfl)],
      rfl, rfl, rfl⟩,
    fun v s hpower hon haddr => ⟨s.tapUpdate v, by rw [exec_tapChmDataUpdate, doWhen_true (by rw [hpower, hon, haddr]; rfl)],
      rfl, rfl⟩,
    fun m v s hpower hmay hbusy => ⟨?_, ?_⟩,
    fun m v s huse hbit => ⟨fun hstage hcls => ?answer, fun hstage => ?late⟩⟩
  case licence =>
    rw [exec_licenceInstall v huse, State.licInstall_of_idle (by rw [bit_and, hbit]; rfl) hpending htick]
  · exact (writeRow_readReq _ hpower hmay).trans (by rw [State.readRequest_of_idle v hidle (by decide)])
  · exact (writeRow_readReq _ hpower hmay).trans (by rw [State.readRequest_of_idle v hidle (by decide)])
  case reset =>
    have hraise := OnlyChanges.raiseFrom (s.bump Reg.bringupResetsRefused) srcHostIf 0x00D5 .note
      (pack [(60, 4, fld v 63 60), (0, 11, fld v 10 0)])
    have hregs := OnlyRegs.of_regs (ks := [Reg.bringupResetsRefused]) (hraise .regs (by simp))
    refine ⟨_, exec_resetReq v huse, ((OnlyChanges.bump s _ _).mono (by simp)).trans (hraise.mono (by simp)), by simp,
      (OnlyRegs.bump s _ _).trans hregs, ?_, State.raiseFrom_logged ..⟩
    rw [State.reg_of_regs (hraise .regs (by simp)), State.reg_bump_self _ _ _ (regMask_lt _)]
  case fwReady =>
    rw [exec_fwReady v huse, State.fwReady_of_heeded m (by rw [bit_and, hbit]; rfl) hstage, if_neg hcls]
    rfl
  case dump =>
    have hstart := OnlyChanges.dumpStarted s v
    have hreg : (s.dumpStarted v).reg Reg.dumpDumpCtl = v &&& 0x1F00 := s.reg_setReg_self _ _
    have hregs : OnlyRegs [Reg.dumpDumpCtl] s (s.dumpStarted v) := OnlyRegs.setReg s _ _
    rw [exec_dumpGo v hpower hmay, State.dumpCtl_go m v hfrozen hstate hbase]
    by_cases hcls : m.cls = .mgmt
    · rw [if_pos hcls, State.dumpStarted_answered v hfrozen]
      exact ⟨_, rfl, ((hstart.mono (by simp)).trans ((OnlyChanges.mgmtDone _ 2).mono (by simp))).trans
        ((OnlyChanges.mgmtHeard _).mono (by simp)), hregs, hreg, rfl, fun h => absurd hcls h,
        fun _ => ⟨rfl, State.mgmtWaits_mgmtDone (s.dumpStarted v) 2⟩⟩
    · rw [if_neg hcls]
      exact ⟨_, rfl, hstart.mono (by simp), hregs, hreg, rfl, fun _ => rfl, fun h => absurd h hcls⟩
  · exact (writeRow_readReq _ hpower hmay).trans (by rw [State.readRequest_of_busy _ hbusy])
  · exact (writeRow_readReq _ hpower hmay).trans (by rw [State.readRequest_of_busy _ hbusy])
  case answer =>
    have hanswer := OnlyChanges.mgmtAnswer_heard (s.fwHeeded.mgmtDone 3)
    have hlife := hanswer .life (by simp)
    rw [exec_fwReady v huse, State.fwReady_of_heeded m (by rw [bit_and, hbit]; rfl) hstage, if_pos hcls]
    refine ⟨_, rfl, ?_, by rw [hlife]; rfl, by rw [hlife]; rfl⟩
    exact (((OnlyChanges.fwHeeded s).trans (OnlyChanges.mgmtDone _ 3)).trans (OnlyChanges.mgmtHeard _)).mono (by simp)
      |>.trans (hanswer.mono (by simp))
  case late =>
    rw [exec_fwReady v huse, State.fwReady_of_late m _ hstage]

end Sys2Proof.Machine
end


section
/-! SUPPORT. What reading, checking and reporting blocks leaves alone, said once: counts, records and traces of tiles
change, and the work that a tile has in hand does not. -/

namespace Sys2Proof.Machine

/-! ### States that differ in accounts only -/

/-- A core without its accounts: counters, the summary, lineage, trace and mirror queues, the status of the last DMA
completion and the pass in the array. -/
def Core.work (c : Core) : Core :=
  { c with counters := [], peakSet := false, resetAt := none, beatWork := 0, sum := {}, lin := {}, linNext := {}
           traceQ := [], traceDrop := 0, stackTrace := 0, hostDma := none, mirrored := [], mirrorQ := [], pass := none }

/-- A tile without its accounts. -/
def Tile.work (x : Tile) : Tile := { x with core := x.core.work }

/-- From `s` to `t` only the parts `ps` and the tiles `us` change, of a tile only its accounts, and no record leaves a
node's event queue. -/
structure Reports (ps : List Part) (us : List Nat) (s t : State) : Prop where
  parts : OnlyChanges ps s t
  tiles : OnlyTiles us s t
  work : ∀ u, (t.tile u).work = (s.tile u).work
  flight : s.ev.flight ⊆ t.ev.flight

/-- The parts in which a unit of a tile reports. -/
abbrev reportParts : List Part := [.free, .time, .dbg, .tiles, .regs, .ev]

section
variable {ps : List Part} {us : List Nat} {s t r : State}

theorem Reports.refl (ps : List Part) (us : List Nat) (s : State) : Reports ps us s s :=
  ⟨OnlyChanges.refl ps s, fun _ _ => rfl, fun _ => rfl, fun _ h => h⟩

theorem Reports.trans (h : Reports ps us s t) (h' : Reports ps us t r) : Reports ps us s r :=
  ⟨h.parts.trans h'.parts, h.tiles.trans h'.tiles, fun u => (h'.work u).trans (h.work u), fun _ hx => h'.flight (h.flight hx)⟩

theorem Reports.mono {qs : List Part} {vs : List Nat} (h : Reports ps us s t) (hp : ps ⊆ qs) (hu : us ⊆ vs) :
    Reports qs vs s t :=
  ⟨h.parts.mono hp, h.tiles.mono hu, h.work, h.flight⟩

theorem Reports.ite {c : Prop} [Decidable c] (h : c → Reports ps us s t) (h' : ¬ c → Reports ps us s r) :
    Reports ps us s (if c then t else r) := by
  split
  · exact h ‹_›
  · exact h' ‹_›

/-- An operation that touches neither a tile nor an event queue. -/
theorem Reports.other {qs : List Part} (h : Reports ps us s t) (hq : OnlyChanges qs t r) (hps : qs ⊆ ps)
    (ht : .tiles ∉ qs)
    (he : .ev ∉ qs) : Reports ps us s r :=
  h.trans ⟨hq.mono hps, OnlyTiles.of_tiles (hq .tiles ht), fun u => by rw [State.tile_of_tiles (hq .tiles ht)],
    fun _ hx => (show r.ev = t.ev from hq .ev he) ▸ hx⟩

/-! ### The operations -/

theorem Reports.modCore {u : Nat} {f : Core → Core} (h : Reports ps us s t) (hf : ∀ c, (f c).work = c.work)
    (hps : .tiles ∈ ps) (hus : u ∈ us) : Reports ps us s (t.modCore u f) := by
  refine h.trans ⟨(OnlyChanges.modCore t u f).mono (by simpa using hps), (OnlyTiles.modCore t u f).mono (by simpa using hus),
    fun v => ?_, fun _ hx => hx⟩
  by_cases hv : v = u
  · rw [hv, State.tile_modCore_self]
    simp only [Tile.work, hf]
  · rw [State.tile_modCore_ne t f hv]

theorem Reports.bump {k n : Nat} (h : Reports ps us s t) (hps : .regs ∈ ps) : Reports ps us s (t.bump k n) :=
  h.other (OnlyChanges.bump t k n) (by simpa using hps) (by simp) (by simp)

theorem OnlyChanges.status (s : State) (n : Nat) : OnlyChanges [.status] s { s with status := n } :=
  fun p hp => by cases p <;> first | rfl | simp at hp

theorem Reports.status {n : Nat} (h : Reports ps us s t) (hps : .status ∈ ps) :
    Reports ps us s { t with status := n } :=
  h.other (OnlyChanges.status t n) (by simpa using hps) (by simp) (by simp)

theorem Core.applyReset_work (c : Core) (mask : BitVec 16) (peak : Option (BitVec 16)) :
    (c.applyReset mask peak).work = c.work := by
  have hone (i : Nat) (c : Core) : (if mask.getLsbD i then
      c.setCounter i (if i == 13 then (peak.getD 0).setWidth 48 else 0) else c).work = c.work := by
    split <;> rfl
  have hall : ∀ (is : List Nat) (c : Core), (is.foldl (fun c i => if mask.getLsbD i then
      c.setCounter i (if i == 13 then (peak.getD 0).setWidth 48 else 0) else c) c).work = c.work := by
    intro is
    induction is with
    | nil => intro c; rfl
    | cons i is ih => intro c; rw [List.foldl_cons, ih, hone]
  unfold Core.applyReset
  dsimp only
  split
  · exact hall _ c
  · exact hall _ c

theorem Core.settled_work (c : Core) (now : Word) (peak : Option (BitVec 16)) : (c.settled now peak).work = c.work := by
  unfold Core.settled
  split
  · split
    · exact Core.applyReset_work c _ peak
    · rfl
  · rfl

theorem Reports.count {u i n : Nat} (h : Reports ps us s t) (hps : .tiles ∈ ps) (hus : u ∈ us) :
    Reports ps us s (t.count u i n) := by
  unfold State.count
  exact .ite (fun _ => h) fun _ => h.modCore (fun c => Core.settled_work c _ _) hps hus

theorem Reports.eccCorr {u n : Nat} (h : Reports ps us s t) (hps : .tiles ∈ ps) (hus : u ∈ us) :
    Reports ps us s (t.eccCorr u n) :=
  .count (.modCore h (fun _ => rfl) hps hus) hps hus

theorem Reports.eccUncorr {u : Nat} (h : Reports ps us s t) (hps : .tiles ∈ ps) (hus : u ∈ us) :
    Reports ps us s (t.eccUncorr u) :=
  .count (.modCore h (fun _ => rfl) hps hus) hps hus

theorem Reports.unitRing {u unit : Nat} {k : HangKind} {cause : Nat} (h : Reports ps us s t)
    (hps : [.dbg, .free, .time] ⊆ ps) : Reports ps us s (t.unitRing u unit k cause) :=
  h.other (OnlyChanges.unitRing t u unit k cause) hps (by simp) (by simp)

theorem Reports.eventNext {u : Nat} {e : Nat × EvRec} (h : Reports ps us s t) (hps : .ev ∈ ps) :
    Reports ps us s (({ t with ev.flight := t.ev.flight ++ [e] } : State).eventNext u) := by
  have hq : OnlyChanges [.ev] t ({ t with ev.flight := t.ev.flight ++ [e] } : State) :=
    fun p hp => by cases p <;> first | rfl | simp at hp
  have hnext := hq.trans (OnlyChanges.eventNext { t with ev.flight := t.ev.flight ++ [e] } u)
  exact h.trans ⟨hnext.mono (by simpa using hps), OnlyTiles.of_tiles (hnext .tiles (by simp)),
    fun v => by rw [State.tile_of_tiles (hnext .tiles (by simp))],
    fun x hx => by rw [State.eventNext_flight]; exact List.mem_append_left _ hx⟩

theorem Reports.raiseNode {u : Nat} {x : EvRec} (h : Reports ps us s t) (hps : reportParts ⊆ ps) (hus : u ∈ us) :
    Reports ps us s (t.raiseNode u x) := by
  unfold State.raiseNode
  dsimp only
  have hhang := OnlyChanges.hang t (ringTile u x.unit.toNat) x.time .event (x.cseq.toNat % 2 ^ 24) (hangEventData x)
  generalize t.hang (ringTile u x.unit.toNat) x.time .event (x.cseq.toNat % 2 ^ 24) (hangEventData x) = t' at hhang
  replace h := h.other hhang (by simpa using hps (by simp)) (by simp) (by simp)
  refine .ite (fun _ => .bump (.modCore h (fun _ => rfl) (hps (by simp)) hus) (hps (by simp))) fun _ => ?_
  have hnext := h.eventNext (u := u) (e := (u, x)) (hps (by simp))
  exact .ite (fun _ => .modCore hnext (fun _ => rfl) (hps (by simp)) hus) fun _ => hnext

theorem Reports.raiseTile {u unit code : Nat} {sev : Severity} {c : Option (BitVec 16 × BitVec 16 × BitVec 24)}
    {d : Word}
    (h : Reports ps us s t) (hps : reportParts ⊆ ps) (hus : u ∈ us) :
    Reports ps us s (t.raiseTile u unit code sev c d) :=
  .raiseNode (h.other (OnlyChanges.localStamp t _) (fun p hp => hps (by simp at hp ⊢; tauto)) (by simp) (by simp)) hps hus

theorem Reports.lineage {u : Nat} {f : LinOpen → LinOpen} (h : Reports ps us s t) (hps : .tiles ∈ ps) (hus : u ∈ us) :
    Reports ps us s (t.lineage u f) := by
  unfold State.lineage
  refine .ite (fun _ => h) fun _ => .ite (fun _ => ?_) fun _ => ?_
  · exact .ite (fun _ => h.modCore (fun _ => rfl) hps hus) fun _ => h
  · exact .ite (fun _ => h.modCore (fun _ => rfl) hps hus) fun _ => h

theorem Reports.lineageServe {u : Nat} {reader : Option Nat} {host : Bool} {chip : Option (BitVec 13)}
    (h : Reports ps us s t) (hps : .tiles ∈ ps) (hus : u ∈ us) : Reports ps us s (t.lineageServe u reader host chip) :=
  .ite (fun _ => h) fun _ => h.lineage hps hus

/-! ### ECC findings and reads of a block -/

theorem Reports.portBytes {a : BlockAddr} (h : Reports ps us s t) (hps : .tiles ∈ ps) (hus : blockTile a ∈ us) :
    Reports ps us s (t.portBytes a) := by
  cases a with
  | sram u i => exact h.count hps hus
  | slice u l b => exact h.count hps hus

theorem Reports.sramEcc {u : Nat} {e : EccFinding} (h : Reports ps us s t) (hps : .tiles ∈ ps) (hus : u ∈ us) :
    Reports ps us s (t.sramEcc u e) := by
  cases e with
  | clean => exact h
  | corrected n => exact h.eccCorr hps hus
  | uncorrectable cw => exact h.eccUncorr hps hus
  | sealUncorrectable => exact h.eccUncorr hps hus

theorem State.readsRaw_congr (hforce : t.force = s.force) (hstack : t.stack = s.stack) (u l b : Nat) :
    t.readsRaw u l b = s.readsRaw u l b := by
  have hmode : t.isCompute l b = s.isCompute l b := by simp only [State.isCompute, State.mrForce, State.inForce, hforce]
  have hconvert : t.converting l b = s.converting l b := by
    simp only [State.converting, State.mrForce, State.inForce, hforce, hstack]
  have hptr : t.reencodePtr u l = s.reencodePtr u l := by simp only [State.reencodePtr, hstack]
  rw [State.readsRaw, hmode, hconvert, hptr, ← State.readsRaw]

theorem State.eccAt_congr (hstack : t.stack = s.stack) (u l b : Nat) (e : EccFinding) :
    t.eccAt u l b e = s.eccAt u l b e := by
  simp only [State.eccAt, hstack]

/-- The codewords of a slice block that ECC examines are correctable. -/
def State.sliceReadable (s : State) (u l b : Nat) (e : EccFinding) : Prop :=
  s.readsRaw u l b = true ∨ eccUe (s.eccAt u l b e) = false

/-- A read of a slice block raises an event only if a codeword is uncorrectable. -/
theorem Reports.sliceEcc {u l b : Nat} {e : EccFinding} {ids : Option (BitVec 16 × BitVec 16 × BitVec 24)}
    (h : Reports ps us s t) (hps : [.tiles, .regs, .status] ⊆ ps) (hev : t.sliceReadable u l b e ∨ reportParts ⊆ ps)
    (hus : u ∈ us) : Reports ps us s (t.sliceEcc u l b e ids) := by
  obtain ⟨htiles, hregs, hstatus⟩ : .tiles ∈ ps ∧ .regs ∈ ps ∧ .status ∈ ps := by simpa using hps
  unfold State.sliceEcc
  dsimp only
  have hraw : Reports ps us s (if t.readsRaw u l b then t.bump (layerReg l 0x128) else t) :=
    .ite (fun _ => h.bump hregs) fun _ => h
  generalize (if t.readsRaw u l b then t.bump (layerReg l 0x128) else t) = r at hraw
  split
  next n _ _ => exact .status (.eccCorr (.bump hraw hregs) htiles hus) hstatus
  next cw he hr =>
    have hev : reportParts ⊆ ps := hev.resolve_left fun h => h.elim (by simp [hr]) (by simp [he, eccUe])
    exact .status (.raiseTile (.eccUncorr (.bump hraw hregs) htiles hus) hev hus) hstatus
  next => exact .status (.eccUncorr hraw htiles hus) hstatus
  next => exact .status hraw hstatus

/-- What ECC finds in a read block may be used: no codeword of its data is uncorrectable. -/
theorem State.sliceReadable_of_finding {u v l b : Nat} {e : EccFinding} (hs : s.stagedAt u (.slice v l b) = none)
    (he : eccUe (s.findingAt u (.slice v l b) e) = false) : s.sliceReadable v l b e := by
  simp only [State.findingAt, hs, Option.isSome_none, Bool.false_eq_true, if_false] at he
  split at he
  · exact .inl ‹_›
  · exact .inr he

/-- A unit's read of a block raises an event only for an uncorrectable codeword. -/
theorem Reports.blockRead {u : Nat} {a : BlockAddr} {e : EccFinding} (h : Reports ps us s t)
    (hps : [.tiles, .regs, .status] ⊆ ps) (hev : eccUe (t.findingAt u a e) = false ∨ reportParts ⊆ ps) (hu : u ∈ us)
    (hus : blockTile a ∈ us) : Reports ps us s (t.blockRead u a e) := by
  have htiles : .tiles ∈ ps := hps (by simp)
  unfold State.blockRead
  refine .ite (fun _ => .sramEcc (h.count htiles hu) htiles hu) fun hs => ?_
  have hport := h.portBytes (a := a) htiles hus
  cases a with
  | sram v i => exact hport.sramEcc htiles hus
  | slice v l b =>
    have hcount : OnlyChanges [.tiles] t (t.portBytes (.slice v l b)) := OnlyChanges.count t v 3 _
    refine hport.sliceEcc hps (hev.imp_left fun he => ?_) hus
    rw [State.sliceReadable, State.readsRaw_congr (hcount .force (by simp)) (hcount .stack (by simp)),
      State.eccAt_congr (hcount .stack (by simp))]
    exact State.sliceReadable_of_finding (by simpa using hs) he

/-! ### Trace records and the end of a pass -/

theorem Reports.traceDropped {u : Nat} (h : Reports ps us s t) (hps : reportParts ⊆ ps) (hus : u ∈ us) :
    Reports ps us s (t.traceDropped u) := by
  unfold State.traceDropped
  have hbump : Reports ps us s ((t.modCore u fun c => { c with traceDrop := c.traceDrop + 1 }).bump Reg.traceDropped) :=
    .bump (.modCore h (fun _ => rfl) (hps (by simp)) hus) (hps (by simp))
  exact hbump.other (qs := [.dbg]) (fun p hp => by cases p <;> first | rfl | simp at hp) (by simpa using hps (by simp)) (by simp) (by simp)

/-- The trace sink in force is the tile's slice. -/
def State.tracesToStack (s : State) : Prop := bit (s.inForce Reg.traceTraceCtl) 1 = true

theorem Reports.tracesToStack (h : Reports ps us s t) (hps : .force ∉ ps) (ht : t.tracesToStack) : s.tracesToStack := by
  unfold State.tracesToStack State.inForce at ht ⊢
  rwa [show t.force = s.force from h.parts .force hps] at ht

/-- A trace record reaches the stack only when the sink is the tile's slice. -/
theorem Reports.tracePut {u : Nat} {bs : List Byte} (h : Reports ps us s t) (hps : reportParts ⊆ ps)
    (hforce : .force ∉ ps)
    (hsink : s.tracesToStack → .stack ∈ ps) (hus : u ∈ us) : Reports ps us s (t.tracePut u bs) := by
  unfold State.tracePut
  refine .ite (fun hb => ?_) fun _ => .ite (fun _ => h.modCore (fun _ => rfl) (hps (by simp)) hus) fun _ =>
    h.traceDropped hps hus
  have hring := h.other (OnlyChanges.ringWrite t u (rangeOf (t.inForce Reg.traceStackRange)) 128
    (t.tile u).core.stackTrace bs) (by simpa using hsink (h.tracesToStack hforce hb)) (by simp) (by simp)
  exact .bump (.modCore hring (fun _ => rfl) (hps (by simp)) hus) (hps (by simp))

theorem Reports.traceEmit {u kind : Nat} {i : BitVec 16 × BitVec 16 × BitVec 24} {d : Word} (h : Reports ps us s t)
    (hps : reportParts ⊆ ps) (hforce : .force ∉ ps) (hsink : s.tracesToStack → .stack ∈ ps) (hus : u ∈ us) :
    Reports ps us s (t.traceEmit u kind i d) := by
  have hstamp : Reports ps us s (t.localStamp (tileDomain u)).2 :=
    h.other (OnlyChanges.localStamp t _) (fun p hp => hps (by simp at hp ⊢; tauto)) (by simp) (by simp)
  unfold State.traceEmit
  dsimp only
  split
  · exact h
  refine .ite (fun _ => ?_) fun _ => h
  generalize t.localStamp (tileDomain u) = st at hstamp
  refine .ite (fun _ => hstamp.tracePut hps hforce hsink hus) fun _ => .ite (fun _ => ?_) fun _ => hstamp.traceDropped hps hus
  exact .tracePut (.tracePut (.modCore hstamp (fun _ => rfl) (hps (by simp)) hus) hps hforce hsink hus) hps hforce hsink hus

theorem Reports.traceEnd {u how : Nat} (h : Reports ps us s t) (hps : reportParts ⊆ ps) (hforce : .force ∉ ps)
    (hsink : s.tracesToStack → .stack ∈ ps) (hus : u ∈ us) : Reports ps us s (t.traceEnd u how) := by
  unfold State.traceEnd
  split
  · exact (h.traceEmit hps hforce hsink hus).other (OnlyChanges.hangLocal _ u _ _ _ _)
      (fun p hp => hps (by simp at hp ⊢; tauto)) (by simp) (by simp)
  · exact h

/-- A seal event that has been counted: its record, and the mismatch that a fault is. -/
def State.sealReport (s : State) (u unit code : Nat) (sev : Severity) (d : Word) (inj : Bool) : State :=
  let s := s.raiseTile u unit code sev (s.tile u).core.curIds d
  if sev = .fault && code != 0x39 then
    if inj then s.modCore u fun c => { c with sum.sealInj := c.sum.sealInj + 1 }
    else (s.modCore u fun c => { c with sum.sealFault := c.sum.sealFault + 1 }).count u 7 1
  else s

theorem State.sealEvent_of_live (hf : s.life.frozen = false) (u unit code : Nat) (sev : Severity) (d : Word)
    (inj : Bool) :
    s.sealEvent u unit code sev d inj = ((sealCounter code).elim s (s.bump ·)).sealReport u unit code sev d inj := by
  unfold State.sealEvent
  rw [hf]
  cases sealCounter code <;> rfl

theorem Reports.sealReport {u unit code : Nat} {sev : Severity} {d : Word} {inj : Bool} (h : Reports ps us s t)
    (hps : reportParts ⊆ ps) (hus : u ∈ us) : Reports ps us s (t.sealReport u unit code sev d inj) := by
  have htiles : .tiles ∈ ps := hps (by simp)
  have hraise := h.raiseTile (unit := unit) (code := code) (sev := sev) (c := (t.tile u).core.curIds) (d := d) hps hus
  unfold State.sealReport
  refine .ite (fun _ => .ite (fun _ => ?_) fun _ => ?_) fun _ => hraise
  · exact hraise.modCore (fun _ => rfl) htiles hus
  · exact .count (.modCore hraise (fun _ => rfl) htiles hus) htiles hus

theorem Reports.sealEvent {u unit code : Nat} {sev : Severity} {d : Word} {inj : Bool} (h : Reports ps us s t)
    (hps : reportParts ⊆ ps) (hus : u ∈ us) : Reports ps us s (t.sealEvent u unit code sev d inj) := by
  cases hf : t.life.frozen with
  | true => rwa [State.sealEvent, if_pos hf]
  | false =>
    rw [State.sealEvent_of_live hf]
    refine .sealReport ?_ hps hus
    cases sealCounter code with
    | none => exact h
    | some k => exact h.bump (hps (by simp))

theorem Reports.raiseFails {u : Nat} {fs : List Fail} {recovered : Bool} (h : Reports ps us s t)
    (hps : reportParts ⊆ ps)
    (hus : u ∈ us) : Reports ps us s (t.raiseFails u fs recovered) := by
  unfold State.raiseFails
  induction fs generalizing t with
  | nil => exact h
  | cons f fs ih => exact ih (.sealEvent (.ite (fun _ => h.bump (hps (by simp))) fun _ => h) hps hus)

/-- The pass in the array is an account of the stream. -/
theorem Reports.stopPass {u : Nat} (h : Reports ps us s t) (hps : reportParts ⊆ ps) (hus : u ∈ us) :
    Reports ps us s (t.stopPass u) := by
  unfold State.stopPass
  refine .ite (fun _ => h) fun _ => ?_
  unfold State.dropPass
  split
  next =>
    refine .raiseFails ?_ hps hus
    unfold State.passDone
    exact .unitRing (.modCore h (fun _ => rfl) (hps (by simp)) hus) fun p hp => hps (by simp at hp ⊢; tauto)
  next => exact h

/-! ### Mirroring -/

theorem Reports.setSession {k : Nat} {x : Option Session} (h : Reports ps us s t) (hps : .maq ∈ ps) :
    Reports ps us s (t.setSession k x) :=
  h.other (OnlyChanges.setSession t k x) (by simpa using hps) (by simp) (by simp)

theorem Reports.operandTaken {k : Nat} {a : BlockAddr} {w : Word} (h : Reports ps us s t) (hps : .maq ∈ ps) :
    Reports ps us s (t.operandTaken k a w) := by
  unfold State.operandTaken
  split
  · exact .ite (fun _ => h) fun _ => h.setSession hps
  · exact h

theorem Reports.mirrorGap {k : Nat} (h : Reports ps us s t) (hps : .maq ∈ ps) : Reports ps us s (t.mirrorGap k) := by
  unfold State.mirrorGap
  split
  · exact .ite (fun _ => h.setSession hps) fun _ => h
  · exact h

theorem Reports.mirrorRead {u : Nat} {x : ReadReq} (h : Reports ps us s t) (hps : [.tiles, .maq] ⊆ ps) (hus : u ∈ us) :
    Reports ps us s (t.mirrorRead u x) := by
  obtain ⟨htiles, hmaq⟩ : .tiles ∈ ps ∧ .maq ∈ ps := by simpa using hps
  unfold State.mirrorRead
  split
  · refine .ite (fun _ => ?_) fun _ => h
    split
    · exact h.operandTaken hmaq
    · unfold State.mirror
      dsimp only
      refine .ite (fun _ => h) fun _ => .ite (fun _ => ?_) fun _ => ?_
      · exact .modCore (.operandTaken (.modCore h (fun _ => rfl) htiles hus) hmaq) (fun _ => rfl) htiles hus
      · exact .mirrorGap (.operandTaken (.modCore h (fun _ => rfl) htiles hus) hmaq) hmaq
  · exact h

/-- Only the read of a sampled command reaches a maquette session. -/
theorem State.mirrorRead_of_unsampled {u : Nat} (x : ReadReq) (h : s.sampling u = none) : s.mirrorRead u x = s := by
  simp only [State.mirrorRead, h]

end

end Sys2Proof.Machine
end


section
/-! SUPPORT. The verified read of a block, outcome by outcome: it is accepted, awaits its second read, halts its command
or reaches the reseal input (R131 to R135, R299). -/

namespace Sys2Proof.Machine

/-! ### Blocks as a unit of a tile sees them -/

/-- Two states hold the same blocks for the units of tile `u`, under the same modes and controls. -/
structure SameBlocks (u : Nat) (s t : State) : Prop where
  force : t.force = s.force
  stack : t.stack = s.stack
  maq : (t.tile u).maq = (s.tile u).maq

section
variable {ps : List Part} {us : List Nat} {s t r : State} {u : Nat}

theorem Reports.sameBlocks (h : Reports ps us s t) (hforce : .force ∉ ps) (hstack : .stack ∉ ps) : SameBlocks u s t :=
  have hmaq : (t.tile u).work.maq = (s.tile u).work.maq := by rw [h.work]
  ⟨h.parts .force hforce, h.parts .stack hstack, hmaq⟩

theorem SameBlocks.stagedAt (h : SameBlocks u s t) (a : BlockAddr) : t.stagedAt u a = s.stagedAt u a := by
  have hserves : t.servesMaq u = s.servesMaq u := by simp only [State.servesMaq, h.maq]
  simp only [State.stagedAt, hserves, h.maq]

theorem SameBlocks.blockBytesAt (h : SameBlocks u s t) (a : BlockAddr) : t.blockBytesAt a = s.blockBytesAt a := by
  cases a <;> simp only [State.blockBytesAt, State.sramBytes, State.stackBytes, h.stack]

theorem SameBlocks.blockSealAt (h : SameBlocks u s t) (a : BlockAddr) : t.blockSealAt a = s.blockSealAt a := by
  cases a <;> simp only [State.blockSealAt, State.sramSeal, State.stackSeal, h.stack]

theorem SameBlocks.readBytes (h : SameBlocks u s t) (a : BlockAddr) : t.readBytes u a = s.readBytes u a := by
  simp only [State.readBytes, h.stagedAt, h.blockBytesAt]

theorem SameBlocks.readSeal (h : SameBlocks u s t) (a : BlockAddr) : t.readSeal u a = s.readSeal u a := by
  simp only [State.readSeal, h.stagedAt, h.blockSealAt]

theorem SameBlocks.findingAt (h : SameBlocks u s t) (a : BlockAddr) (e : EccFinding) :
    t.findingAt u a e = s.findingAt u a e := by
  cases a with
  | sram v i => simp only [State.findingAt, h.stagedAt]
  | slice v l b =>
    simp only [State.findingAt, h.stagedAt, State.readsRaw_congr h.force h.stack, State.eccAt_congr h.stack]

theorem SameBlocks.checkRead (h : SameBlocks u s t) (x : ReadReq) (inj : Option Nat) :
    t.checkRead u x inj = s.checkRead u x inj := by
  simp only [State.checkRead, h.findingAt, h.readSeal, h.readBytes]

theorem SameBlocks.resealSource (h : SameBlocks u s t) (x : ReadReq) : t.resealSource u x = s.resealSource u x := by
  simp only [State.resealSource, h.findingAt, h.readSeal]

theorem SameBlocks.retryEn (h : SameBlocks u s t) : t.retryEn = s.retryEn := by
  simp only [State.retryEn, State.inForce, h.force]

/-- An uncorrectable codeword of the data lets no check pass. -/
theorem checkBlock_of_ue {fmt gen : Nat} {genCheck : Bool} {w : Word} {bs : List Byte} {sealBad : Bool}
    {inj : Option Nat} :
    checkBlock fmt gen genCheck w bs sealBad true inj ≠ .pass := by
  unfold checkBlock
  split
  · simp
  · split
    · simp
    · simp

/-- A block that passes its check had no uncorrectable codeword. -/
theorem State.finding_of_pass {x : ReadReq} {inj : Option Nat} (h : s.checkRead u x inj = .pass) :
    eccUe (s.findingAt u x.addr x.ecc) = false := by
  cases hue : eccUe (s.findingAt u x.addr x.ecc) with
  | false => rfl
  | true =>
    unfold State.checkRead at h
    dsimp only at h
    rw [hue] at h
    exact absurd h checkBlock_of_ue

theorem State.finding_of_resealSource {x : ReadReq} (h : s.resealSource u x = true) :
    eccUe (s.findingAt u x.addr x.ecc) = false := by
  unfold State.resealSource at h
  simp only [Bool.and_eq_true, Bool.not_eq_true'] at h
  exact h.2

/-! ### A stream that runs, and its halt -/

/-- Tile `u` runs a command. -/
def State.inCommand (s : State) (u : Nat) : Prop := (s.tile u).core.cur.isSome = true ∧ (s.tile u).core.halted = false

theorem State.inCommand_of_mayRun (h : s.mayRun u = true) : s.inCommand u := by
  simp only [State.mayRun, Core.running, Bool.and_eq_true, Bool.not_eq_true'] at h
  exact ⟨h.1.1.1.1.2.1.1, h.1.1.1.1.2.1.2⟩

theorem Reports.inCommand (h : Reports ps us s t) (hs : s.inCommand u) : t.inCommand u :=
  ⟨(congrArg (·.core.cur.isSome) (h.work u)).trans hs.1, (congrArg (·.core.halted) (h.work u)).trans hs.2⟩

/-- From `s` to `t` the command of tile `u` halts by a seal failure, with its events. -/
structure Halts (us : List Nat) (u : Nat) (s t : State) : Prop where
  tiles : OnlyTiles us s t
  stack : ¬ s.tracesToStack → t.stack = s.stack
  halted : (t.tile u).core.halted = true
  sealHalt : (t.tile u).core.sealHalt = true
  expect : (t.tile u).core.expect = none
  flight : s.ev.flight ⊆ t.ev.flight

theorem Halts.after (h' : Halts us u t r) (h : Reports ps us s t) (hforce : .force ∉ ps) (hstack : .stack ∉ ps) :
    Halts us u s r where
  tiles := h.tiles.trans h'.tiles
  stack hn := (h'.stack fun ht => hn (h.tracesToStack hforce ht)).trans (h.parts .stack hstack)
  halted := h'.halted
  sealHalt := h'.sealHalt
  expect := h'.expect
  flight _ hx := h'.flight (h.flight hx)

theorem Core.cutHere_cases (c : Core) : c.cutHere = c ∨ c.cutHere = { c with cut := some c.cutNow } := by
  unfold Core.cutHere
  split
  · exact .inr rfl
  · exact .inl rfl

theorem State.halt_halts (hs : s.inCommand u) (hu : u ∈ us) : Halts us u s (s.halt u true) := by
  have hreport (ps) (hps : reportParts ⊆ ps) (hforce : .force ∉ ps) (hsink : s.tracesToStack → .stack ∈ ps) :
      Reports ps us s ((s.stopPass u).traceEnd u 1) := .traceEnd (.stopPass (.refl ..) hps hu) hps hforce hsink hu
  have htraced := hreport (.stack :: reportParts) (by simp) (by simp) (by simp)
  have heq : s.halt u true = ((s.stopPass u).traceEnd u 1).modCore u fun c => Core.cutHere
      { c with halted := true, sealHalt := true, unreported := true, expect := none, retryXor := none, retryInj := none } :=
    if_pos (by rw [hs.1, hs.2]; rfl)
  rw [heq]
  exact {
    tiles := htraced.tiles.trans ((OnlyTiles.modCore _ u _).mono (by simpa using hu))
    stack := fun hn => (hreport reportParts (by simp) (by simp) fun h => absurd h hn).parts .stack (by simp)
    halted := by rw [State.tile_modCore_self]; rcases Core.cutHere_cases _ with h | h <;> rw [h]
    sealHalt := by rw [State.tile_modCore_self]; rcases Core.cutHere_cases _ with h | h <;> rw [h]
    expect := by rw [State.tile_modCore_self]; rcases Core.cutHere_cases _ with h | h <;> rw [h]
    flight := htraced.flight }

/-- An event and then the halt that it reports. -/
theorem Halts.of_event {unit code : Nat} {sev : Severity} {d : Word} {inj : Bool} (hs : s.inCommand u) (hu : u ∈ us) :
    Halts us u s ((s.sealEvent u unit code sev d inj).halt u true) :=
  have h : Reports reportParts us s (s.sealEvent u unit code sev d inj) := .sealEvent (.refl ..) (by simp) hu
  (State.halt_halts (h.inCommand hs) hu).after h (by simp) (by simp)

/-- A block that its check does not accept halts the command. -/
theorem State.refuseRead_halts {x : ReadReq} {c : Check} {inj : Bool} (hs : s.inCommand u) (hu : u ∈ us)
    (hc : c ≠ .pass) :
    Halts us u s (s.refuseRead u x c inj) := by
  have h : Reports reportParts us s (if x.toHost then s.modCore u fun c => { c with hostDma := some .error } else s) :=
    .ite (fun _ => .modCore (.refl ..) (fun _ => rfl) (by simp) hu) fun _ => .refl ..
  unfold State.refuseRead
  dsimp only
  generalize (if x.toHost then s.modCore u fun c => { c with hostDma := some .error } else s) = t at h
  have hrun := h.inCommand hs
  cases c with
  | pass => exact absurd rfl hc
  | invalid reason => exact (Halts.of_event hrun hu).after h (by simp) (by simp)
  | stale => exact (Halts.of_event hrun hu).after h (by simp) (by simp)
  | mismatch y => exact (Halts.of_event hrun hu).after h (by simp) (by simp)

/-! ### The event of a refused block -/

/-- A fault that a unit of a tile raises stands in its node's event queue. -/
theorem State.raiseTile_fault (s : State) (u unit code : Nat) (c : Option (BitVec 16 × BitVec 16 × BitVec 24))
    (d : Word) :
    ∃ x, (u, x) ∈ (s.raiseTile u unit code .fault c d).ev.flight ∧ x.code = BitVec.ofNat 16 code ∧ x.sev = .fault := by
  have hid (r : EvRec) : (r.ofCmd c).code = r.code ∧ (r.ofCmd c).sev = r.sev := by
    cases c <;> exact ⟨rfl, rfl⟩
  refine ⟨(mkRec (s.localStamp (tileDomain u)).1 code u unit .fault d).ofCmd c, ?_, (hid _).1, (hid _).2⟩
  unfold State.raiseTile
  dsimp only
  rw [(State.raiseNode_of_serious _ u (by rw [(hid _).2]; rfl)).1]
  simp

theorem State.sealEvent_fault (hf : s.life.frozen = false) (u unit code : Nat) (d : Word) (inj : Bool) :
    ∃ x, (u, x) ∈ (s.sealEvent u unit code .fault d inj).ev.flight ∧ x.code = BitVec.ofNat 16 code ∧ x.sev = .fault := by
  rw [State.sealEvent_of_live hf]
  generalize (sealCounter code).elim s (s.bump ·) = t
  obtain ⟨x, hx, hcode, hsev⟩ := State.raiseTile_fault t u unit code (t.tile u).core.curIds d
  refine ⟨x, ?_, hcode, hsev⟩
  have h : Reports [.tiles] [u] (t.raiseTile u unit code .fault (t.tile u).core.curIds d)
      (t.sealReport u unit code .fault d inj) := by
    unfold State.sealReport
    refine .ite (fun _ => .ite (fun _ => ?_) fun _ => ?_) fun _ => .refl ..
    · exact .modCore (.refl ..) (fun _ => rfl) (by simp) (by simp)
    · exact .count (.modCore (.refl ..) (fun _ => rfl) (by simp) (by simp)) (by simp) (by simp)
  exact h.flight hx

/-- A block refused for its seal word leaves SEAL_INVALID or SEAL_STALE in its node's event queue. -/
theorem State.refuseRead_event {x : ReadReq} {c : Check} {inj : Bool} {code : Nat} (hf : s.life.frozen = false)
    (hs : s.inCommand u) (hc : (∃ n, c = .invalid n) ∧ code = 0x35 ∨ c = .stale ∧ code = 0x36) :
    ∃ y, (u, y) ∈ (s.refuseRead u x c inj).ev.flight ∧ y.code = BitVec.ofNat 16 code ∧ y.sev = .fault := by
  have h : Reports reportParts [u] s (if x.toHost then s.modCore u fun c => { c with hostDma := some .error } else s) :=
    .ite (fun _ => .modCore (.refl ..) (fun _ => rfl) (by simp) (by simp)) fun _ => .refl ..
  unfold State.refuseRead
  dsimp only
  generalize (if x.toHost then s.modCore u fun c => { c with hostDma := some .error } else s) = t at h
  have hf : t.life.frozen = false := by rw [show t.life = s.life from h.parts .life (by simp), hf]
  have key (unit : Nat) (d : Word) : ∃ y, (u, y) ∈ ((t.sealEvent u unit code .fault d false).halt u true).ev.flight ∧
      y.code = BitVec.ofNat 16 code ∧ y.sev = .fault := by
    obtain ⟨y, hy, hyc⟩ := State.sealEvent_fault hf u unit code d false
    have hev : Reports reportParts [u] t (t.sealEvent u unit code .fault d false) := .sealEvent (.refl ..) (by simp) (by simp)
    exact ⟨y, (State.halt_halts (us := [u]) (hev.inCommand (h.inCommand hs)) (by simp)).flight hy, hyc⟩
  obtain ⟨⟨n, rfl⟩, rfl⟩ | ⟨rfl, rfl⟩ := hc
  · exact key x.unit _
  · exact key x.unit _

/-! ### The count of accepted blocks -/

/-- Tile `u` has accepted `n` blocks, and no reset of its counters is to come. -/
def State.accepts (s : State) (u : Nat) (n : BitVec 48) : Prop :=
  (s.tile u).core.resetAt = none ∧ (s.tile u).core.counter 6 = n

variable {n : BitVec 48}

theorem State.accepts_of_tiles (h : s.accepts u n) (ht : t.tiles = s.tiles) : t.accepts u n := by
  unfold State.accepts
  rwa [State.tile_of_tiles ht]

theorem State.accepts_modCore {v : Nat} {f : Core → Core} (h : s.accepts u n)
    (hf : ∀ c, (f c).resetAt = c.resetAt ∧ (f c).counters = c.counters) : (s.modCore v f).accepts u n := by
  unfold State.accepts at h ⊢
  by_cases hv : u = v
  · subst hv
    rw [State.tile_modCore_self]
    exact ⟨(hf _).1.trans h.1, by rw [← h.2]; exact congrArg (tget 0 · 6) (hf _).2⟩
  · rwa [State.tile_modCore_ne s f hv]

theorem State.accepts_count {v i k : Nat} (h : s.accepts u n) (hi : i ≠ 6) : (s.count v i k).accepts u n := by
  unfold State.count
  split
  · exact h
  unfold State.accepts at h ⊢
  by_cases hv : u = v
  · subst hv
    rw [State.tile_modCore_self]
    have hset (now : Word) (peak : Option (BitVec 16)) : (s.tile u).core.settled now peak = (s.tile u).core := by
      simp only [Core.settled, h.1]
    rw [hset]
    exact ⟨h.1, by rw [← h.2]; exact tget_tset_ne _ _ _ _ (Ne.symm hi)⟩
  · rwa [State.tile_modCore_ne s _ hv]

theorem State.accepts_accept (hf : s.life.frozen = false) (h : s.accepts u n) : (s.accept u).accepts u (n + 1) := by
  unfold State.accept State.count
  rw [hf, if_neg Bool.false_ne_true]
  unfold State.accepts at h ⊢
  rw [State.tile_modCore_self]
  have hset (now : Word) (peak : Option (BitVec 16)) : (s.tile u).core.settled now peak = (s.tile u).core := by
    simp only [Core.settled, h.1]
  rw [hset]
  exact ⟨h.1, by rw [← h.2]; exact tget_tset_self _ _ _ _⟩

theorem State.accepts_lineageServe {v : Nat} {reader : Option Nat} {host : Bool} {chip : Option (BitVec 13)}
    (h : s.accepts u n) : (s.lineageServe v reader host chip).accepts u n := by
  have hlin (f) : (s.lineage v f).accepts u n := by
    unfold State.lineage
    split
    · exact h
    split
    · split
      · exact State.accepts_modCore h fun _ => ⟨rfl, rfl⟩
      · exact h
    · split
      · exact State.accepts_modCore h fun _ => ⟨rfl, rfl⟩
      · exact h
  unfold State.lineageServe
  split
  · exact h
  · exact hlin _

theorem State.accepts_sramEcc {v : Nat} {e : EccFinding} (h : s.accepts u n) : (s.sramEcc v e).accepts u n := by
  cases e with
  | clean => exact h
  | corrected k => exact State.accepts_count (i := 8) (State.accepts_modCore h fun _ => ⟨rfl, rfl⟩) (by decide)
  | uncorrectable cw => exact State.accepts_count (i := 9) (State.accepts_modCore h fun _ => ⟨rfl, rfl⟩) (by decide)
  | sealUncorrectable => exact State.accepts_count (i := 9) (State.accepts_modCore h fun _ => ⟨rfl, rfl⟩) (by decide)

theorem State.accepts_sliceEcc {v l b : Nat} {e : EccFinding} {ids : Option (BitVec 16 × BitVec 16 × BitVec 24)}
    (h : s.accepts u n) (hread : s.sliceReadable v l b e) : (s.sliceEcc v l b e ids).accepts u n := by
  unfold State.sliceEcc
  dsimp only
  have hraw : (if s.readsRaw v l b then s.bump (layerReg l 0x128) else s).accepts u n := by
    split
    · exact State.accepts_of_tiles h rfl
    · exact h
  generalize (if s.readsRaw v l b then s.bump (layerReg l 0x128) else s) = r at hraw
  split
  next k _ _ =>
    exact State.accepts_sramEcc (e := .corrected k) (State.accepts_of_tiles (t := r.bump (layerReg l 0x118) k) hraw rfl)
  next cw he hr => exact absurd hread fun h => h.elim (by simp [hr]) (by simp [he, eccUe])
  next => exact State.accepts_sramEcc (e := .sealUncorrectable) hraw
  next => exact hraw

theorem State.accepts_blockRead {a : BlockAddr} {e : EccFinding} {v : Nat} (h : s.accepts u n)
    (hread : eccUe (s.findingAt v a e) = false) : (s.blockRead v a e).accepts u n := by
  unfold State.blockRead
  split
  · exact State.accepts_sramEcc (State.accepts_count h (by decide))
  next hs =>
    cases a with
    | sram w i => exact State.accepts_sramEcc (State.accepts_count h (by decide))
    | slice w l b =>
      have hcount : OnlyChanges [.tiles] s (s.portBytes (.slice w l b)) := OnlyChanges.count s w 3 _
      refine State.accepts_sliceEcc (State.accepts_count h (by decide)) ?_
      rw [State.sliceReadable, State.readsRaw_congr (hcount .force (by simp)) (hcount .stack (by simp)),
        State.eccAt_congr (hcount .stack (by simp))]
      exact State.sliceReadable_of_finding (by simpa using hs) hread

theorem State.accepts_mirrorRead {x : ReadReq} {v : Nat} (h : s.accepts u n) : (s.mirrorRead v x).accepts u n := by
  have htaken {r : State} (k : Nat) (a : BlockAddr) (w : Word) (h : r.accepts u n) :
      (r.operandTaken k a w).accepts u n :=
    State.accepts_of_tiles h ((Reports.operandTaken (ps := [.maq]) (us := []) (.refl ..) (by simp)).parts .tiles (by simp))
  have hgap {r : State} (k : Nat) (h : r.accepts u n) : (r.mirrorGap k).accepts u n :=
    State.accepts_of_tiles h ((Reports.mirrorGap (ps := [.maq]) (us := []) (.refl ..) (by simp)).parts .tiles (by simp))
  unfold State.mirrorRead
  split
  · split
    · split
      · exact htaken _ _ _ h
      · unfold State.mirror
        dsimp only
        split
        · exact h
        · split
          · exact State.accepts_modCore (htaken _ _ _ (State.accepts_modCore h fun _ => ⟨rfl, rfl⟩)) fun _ => ⟨rfl, rfl⟩
          · exact hgap _ (htaken _ _ _ (State.accepts_modCore h fun _ => ⟨rfl, rfl⟩))
    · exact h
  · exact h

end

end Sys2Proof.Machine
end


section
/-! PROOF. The first and the second read of a block, SEAL_VERIFY_READ and SEAL_SECOND_READ. -/

namespace Sys2Proof.Machine

section
variable {ps : List Part} {us : List Nat} {s t : State} {u : Nat} {x : ReadReq}

/-! ### A block that is served to a unit -/

/-- The state in which a unit of tile `u` is served its read of a block: the read of another tile's slice stands in that
tile's lineage record (R164). -/
def State.served (s : State) (u : Nat) : BlockAddr → State
  | .sram _ _ => s
  | .slice v l b => if (s.stagedAt u (.slice v l b)).isSome then s else s.lineageServe v (some u) false none

theorem State.atBlock_read {a : BlockAddr} (h : s.unitGate u a false = .serve) (job : StackJob) (go : State → State) :
    s.atBlock u a false job go = go (s.served u a) := by
  unfold State.atBlock
  rw [h]
  cases a with
  | sram v i => rfl
  | slice v l b => exact (apply_ite go _ _ _).symm

theorem State.atBlock_write {a : BlockAddr} (h : s.unitGate u a true = .serve) (job : StackJob) (go : State → State) :
    s.atBlock u a true job go = go s := by
  unfold State.atBlock
  rw [h]
  cases a <;> rfl

theorem Reports.served {a : BlockAddr} (h : Reports ps us s t) (hps : .tiles ∈ ps) (hus : blockTile a ∈ us) :
    Reports ps us s (t.served u a) := by
  cases a with
  | sram v i => exact h
  | slice v l b => exact .ite (fun _ => h) fun _ => h.lineageServe hps hus

theorem State.accepts_served {a : BlockAddr} {n : BitVec 48} {v : Nat} (h : s.accepts v n) :
    (s.served u a).accepts v n := by
  cases a with
  | sram w i => exact h
  | slice w l b =>
    dsimp only [State.served]
    split
    · exact h
    · exact State.accepts_lineageServe h

/-! ### What a read leaves for the check -/

theorem State.reg_raiseTile_fault {unit code : Nat} {c : Option (BitVec 16 × BitVec 16 × BitVec 24)} {d : Word}
    (k : Nat) :
    (s.raiseTile u unit code .fault c d).reg k = s.reg k := by
  have hsev (r : EvRec) : (r.ofCmd c).sev = r.sev := by cases c <;> rfl
  refine State.reg_of_regs ?_ k
  exact (State.raiseNode_of_serious _ u (by rw [hsev]; rfl)).2.trans (OnlyChanges.localStamp s _ .regs (by simp))

theorem State.reg_eccUncorr (k : Nat) : (s.eccUncorr u).reg k = s.reg k :=
  State.reg_of_regs ((Reports.eccUncorr (ps := [.tiles]) (us := [u]) (.refl ..) (by simp) (by simp)).parts .regs (by simp)) k

theorem State.reg_eccCorr (k n : Nat) : (s.eccCorr u n).reg k = s.reg k :=
  State.reg_of_regs ((Reports.eccCorr (ps := [.tiles]) (us := [u]) (.refl ..) (by simp) (by simp)).parts .regs (by simp)) k

/-- A read of a slice block counts in registers of its layer alone. -/
theorem State.reg_sliceEcc {l b : Nat} {e : EccFinding} {ids : Option (BitVec 16 × BitVec 16 × BitVec 24)} {k : Nat}
    (hk : k < 0x70000) : (s.sliceEcc u l b e ids).reg k = s.reg k := by
  have hlayer (r : State) (off n : Nat) : (r.bump (layerReg l off) n).reg k = r.reg k :=
    State.reg_bump_ne r n (by unfold layerReg; omega)
  have hraw : (if s.readsRaw u l b then s.bump (layerReg l 0x128) else s).reg k = s.reg k := by
    split
    · exact hlayer s _ _
    · rfl
  unfold State.sliceEcc
  dsimp only
  generalize (if s.readsRaw u l b then s.bump (layerReg l 0x128) else s) = r at hraw
  split
  next n _ _ => exact (State.reg_eccCorr k n).trans ((hlayer r _ _).trans hraw)
  next => exact (State.reg_raiseTile_fault k).trans ((State.reg_eccUncorr k).trans ((hlayer r _ _).trans hraw))
  next => exact (State.reg_eccUncorr k).trans hraw
  next => exact hraw

theorem State.reg_blockRead {a : BlockAddr} {e : EccFinding} {k : Nat} (hk : k < 0x70000) :
    (s.blockRead u a e).reg k = s.reg k := by
  have hcount (v i n : Nat) : (s.count v i n).reg k = s.reg k :=
      State.reg_of_regs (OnlyChanges.count s v i n .regs (by simp)) k
  have hsram (r : State) (v : Nat) : (r.sramEcc v e).reg k = r.reg k :=
    State.reg_of_regs ((Reports.sramEcc (ps := [.tiles]) (us := [v]) (.refl ..) (by simp) (by simp)).parts .regs (by simp)) k
  unfold State.blockRead
  split
  · exact (hsram _ u).trans (hcount u 3 _)
  · cases a with
    | sram v i => exact (hsram _ v).trans (hcount v 2 _)
    | slice v l b => exact (State.reg_sliceEcc hk).trans (hcount v 3 _)

/-- The injection that a check may consume depends on SEAL_INJECT and on the work in hand. -/
theorem Reports.injected (h : Reports ps us s t) (hreg : t.reg Reg.sealInject = s.reg Reg.sealInject) (kind : Nat) :
    t.injected u kind = s.injected u kind := by
  have hni : (t.tile u).work.core.ni = (s.tile u).work.core.ni := by rw [h.work]
  have hcur : (t.tile u).work.core.cur = (s.tile u).work.core.cur := by rw [h.work]
  have hchisel : (t.tile u).work.chisel = (s.tile u).work.chisel := by rw [h.work]
  replace hni : (t.tile u).core.ni = (s.tile u).core.ni := hni
  replace hcur : (t.tile u).core.cur = (s.tile u).core.cur := hcur
  replace hchisel : (t.tile u).chisel = (s.tile u).chisel := hchisel
  simp only [State.injected, hreg, hni, hcur, hchisel]

theorem Reports.sampling (h : Reports ps us s t) (hps : .maq ∉ ps) : t.sampling u = s.sampling u := by
  have hmaq : (t.tile u).work.maq = (s.tile u).work.maq := by rw [h.work]
  have hcur : (t.tile u).work.core.cur = (s.tile u).work.core.cur := by rw [h.work]
  replace hmaq : (t.tile u).maq = (s.tile u).maq := hmaq
  replace hcur : (t.tile u).core.cur = (s.tile u).core.cur := hcur
  have hsession (k : Nat) : t.session k = s.session k := by
    unfold State.session
    rw [show t.maq = s.maq from h.parts .maq hps]
  simp only [State.sampling, hmaq, hcur, hsession]

theorem Reports.expect (h : Reports ps us s t) : (t.tile u).core.expect = (s.tile u).core.expect := by
  have hw : (t.tile u).work.core.expect = (s.tile u).work.core.expect := by rw [h.work]
  exact hw

theorem State.readCheck_of_uninjected (h : s.injected u 3 = none) : s.readCheck u x = (s.checkRead u x none, none) := by
  unfold State.readCheck
  rw [h]
  cases hc : s.checkRead u x none <;> simp only [hc]

/-! ### The outcomes of a first read -/

theorem State.firstRead_reseal (h : (s.blockRead u x.addr x.ecc).resealSource u x = true) :
    s.firstRead u x = (s.blockRead u x.addr x.ecc).resealBlock u x := if_pos h

section
variable (hinj : (s.blockRead u x.addr x.ecc).injected u 3 = none)
  (hplain : (s.blockRead u x.addr x.ecc).resealSource u x = false)
include hinj hplain

theorem State.firstRead_pass (h : (s.blockRead u x.addr x.ecc).checkRead u x none = .pass) :
    s.firstRead u x = ((s.blockRead u x.addr x.ecc).accept u).mirrorRead u x := by
  simp only [State.firstRead, hplain, State.readCheck_of_uninjected hinj, h, State.consume, Option.isSome_none,
    Bool.false_eq_true, if_false]

theorem State.firstRead_retry {y : Nat} (h : (s.blockRead u x.addr x.ecc).checkRead u x none = .mismatch y)
    (hretry : (s.blockRead u x.addr x.ecc).retryEn = true) :
    s.firstRead u x = (s.blockRead u x.addr x.ecc).modCore u fun c =>
      { c with expect := some x, retryXor := some (BitVec.ofNat 31 y), retryInj := none } := by
  simp only [State.firstRead, hplain, State.readCheck_of_uninjected hinj, h, hretry, State.consume, Option.isSome_none,
    Bool.false_eq_true, if_false, if_true]

theorem State.firstRead_refuse {c : Check} (h : (s.blockRead u x.addr x.ecc).checkRead u x none = c) (hc : c ≠ .pass)
    (hretry : (s.blockRead u x.addr x.ecc).retryEn = false ∨ ∀ y, c ≠ .mismatch y) :
    s.firstRead u x = (s.blockRead u x.addr x.ecc).refuseRead u x c false := by
  simp only [State.firstRead, hplain, State.readCheck_of_uninjected hinj, State.consume, Option.isSome_none,
    Bool.false_eq_true, if_false, h]
  cases c with
  | pass => exact absurd rfl hc
  | invalid n => rfl
  | stale => rfl
  | mismatch y => exact if_neg (by simpa using hretry)

end

/-! ### SEAL_VERIFY_READ -/

/-- Tile `u` starts a read that finds its block and is served at once, with no injection to come. -/
structure ReadStarts (u : Nat) (x : ReadReq) (s : State) : Prop where
  live : s.live = true
  mayRun : s.mayRun u = true
  expect : (s.tile u).core.expect = none
  found : blockExists x.addr = true
  reseal : x.reseal.getD 0 < sramBlocks
  injected : s.injected u 3 = none
  gate : s.unitGate u x.addr false = .serve

/-- The state in which the first read of a block is checked. -/
def State.opened (s : State) (u : Nat) (x : ReadReq) : State := (s.served u x.addr).blockRead u x.addr x.ecc

theorem exec_sealVerifyRead (h : ReadStarts u x s) :
    exec (.sealVerifyRead u x) s = .next ((s.served u x.addr).firstRead u x) := by
  have hok : (s.live && s.mayRun u && (s.tile u).core.expect.isNone && blockExists x.addr &&
      decide (x.reseal.getD 0 < sramBlocks)) = true := by
    rw [h.live, h.mayRun, h.expect, h.found, decide_eq_true h.reseal]
    rfl
  calc exec (.sealVerifyRead u x) s = execSealVerifyRead u x s := rfl
    _ = .next (s.verifyRead u x) := doWhen_true hok
    _ = _ := by rw [State.verifyRead, State.atBlock_read h.gate]

theorem Reports.opened (hps : [.tiles, .regs, .status] ⊆ ps)
    (hev : eccUe (s.findingAt u x.addr x.ecc) = false ∨ reportParts ⊆ ps) :
    Reports ps [u, blockTile x.addr] s (s.opened u x) := by
  have hserved : Reports [.tiles] [blockTile x.addr] s (s.served u x.addr) := .served (.refl ..) (by simp) (by simp)
  refine .blockRead (hserved.mono (by simpa using hps (by simp)) (by simp)) hps ?_ (by simp) (by simp)
  rwa [(hserved.sameBlocks (by simp) (by simp)).findingAt]

/-- Every part in which the read of a block may report. -/
abbrev readParts : List Part := .status :: reportParts

theorem Reports.opened_all : Reports readParts [u, blockTile x.addr] s (s.opened u x) :=
  .opened (by simp) (.inr (by simp))

theorem State.opened_sameBlocks : SameBlocks u s (s.opened u x) := Reports.opened_all.sameBlocks (by simp) (by simp)

theorem ReadStarts.opened_injected (h : ReadStarts u x s) : (s.opened u x).injected u 3 = none := by
  have hserved : Reports [.tiles] [blockTile x.addr] s (s.served u x.addr) := .served (.refl ..) (by simp) (by simp)
  rw [Reports.opened_all.injected ((State.reg_blockRead (by decide)).trans (State.reg_of_regs (hserved.parts .regs (by simp)) _))]
  exact h.injected

theorem State.opened_accepts (hreset : (s.tile u).core.resetAt = none)
    (hue : eccUe (s.findingAt u x.addr x.ecc) = false) :
    (s.opened u x).accepts u ((s.tile u).core.counter 6) := by
  have hserved : Reports [.tiles] [blockTile x.addr] s (s.served u x.addr) := .served (.refl ..) (by simp) (by simp)
  refine State.accepts_blockRead (State.accepts_served ⟨hreset, rfl⟩) ?_
  rwa [(hserved.sameBlocks (by simp) (by simp)).findingAt]

/-- A read whose check passes is accepted and counted; that of a sampled command is mirrored. -/
theorem ReadStarts.pass (h : ReadStarts u x s) (hreset : (s.tile u).core.resetAt = none)
    (hplain : s.resealSource u x = false) (hpass : s.checkRead u x none = .pass) :
    ∃ t, exec (.sealVerifyRead u x) s = .next t ∧ OnlyTiles [u, blockTile x.addr] s t ∧
      OnlyChanges [.tiles, .maq, .regs, .status] s t ∧
      (t.tile u).core.counter 6 = (s.tile u).core.counter 6 + 1 ∧ (t.tile u).core.expect = none ∧
      (s.sampling u = none → t.maq = s.maq) := by
  have hsame : SameBlocks u s (s.opened u x) := State.opened_sameBlocks
  have hue := State.finding_of_pass hpass
  have hopened : Reports [.tiles, .regs, .status] [u, blockTile x.addr] s (s.opened u x) := .opened (by simp) (.inl hue)
  have haccept : Reports [.tiles, .regs, .status] [u, blockTile x.addr] s ((s.opened u x).accept u) :=
    .count hopened (by simp) (by simp)
  have hread : Reports [.tiles, .maq, .regs, .status] [u, blockTile x.addr] s (((s.opened u x).accept u).mirrorRead u x) :=
    .mirrorRead (haccept.mono (by simp) (by simp)) (by simp) (by simp)
  have hfrozen : (s.opened u x).life.frozen = false := by
    rw [show (s.opened u x).life = s.life from hopened.parts .life (by simp)]
    exact State.frozen_of_live h.live
  have heq : (s.served u x.addr).firstRead u x = ((s.opened u x).accept u).mirrorRead u x :=
    State.firstRead_pass h.opened_injected ((hsame.resealSource x).trans hplain) ((hsame.checkRead x none).trans hpass)
  refine ⟨_, (exec_sealVerifyRead h).trans (congrArg _ heq), hread.tiles, hread.parts, ?_, hread.expect.trans h.expect, ?_⟩
  · exact (State.accepts_mirrorRead (State.accepts_accept hfrozen (State.opened_accepts hreset hue))).2
  · intro hsampling
    rw [State.mirrorRead_of_unsampled x ((haccept.sampling (by simp)).trans hsampling)]
    exact haccept.parts .maq (by simp)

/-- A residue that differs awaits its second read when RETRY_EN is 1. -/
theorem ReadStarts.retry {y : Nat} (h : ReadStarts u x s) (hplain : s.resealSource u x = false)
    (hcheck : s.checkRead u x none = .mismatch y) (hretry : s.retryEn = true) :
    ∃ t, exec (.sealVerifyRead u x) s = .next t ∧ (OnlyTiles [u, blockTile x.addr] s t ∧
      (bit (s.inForce Reg.traceTraceCtl) 1 = false → t.stack = s.stack)) ∧ (t.tile u).core.expect = some x ∧
      (t.tile u).core.retryXor = some (BitVec.ofNat 31 y) ∧ (t.tile u).core.retryInj = none ∧ (t.tile u).core.halted = false := by
  have hsame : SameBlocks u s (s.opened u x) := State.opened_sameBlocks
  have hopened : Reports readParts [u, blockTile x.addr] s (s.opened u x) := .opened_all
  have heq : (s.served u x.addr).firstRead u x = (s.opened u x).modCore u fun c =>
      { c with expect := some x, retryXor := some (BitVec.ofNat 31 y), retryInj := none } :=
    State.firstRead_retry h.opened_injected ((hsame.resealSource x).trans hplain) ((hsame.checkRead x none).trans hcheck)
      (hsame.retryEn.trans hretry)
  refine ⟨_, (exec_sealVerifyRead h).trans (congrArg _ heq),
    ⟨hopened.tiles.trans ((OnlyTiles.modCore _ u _).mono (by simp)), fun _ => hsame.stack⟩, ?_⟩
  rw [State.tile_modCore_self]
  exact ⟨rfl, rfl, rfl, (hopened.inCommand (State.inCommand_of_mayRun h.mayRun)).2⟩

/-- A block that is refused for its seal word, or with RETRY_EN 0 for its residue, halts the command. -/
theorem ReadStarts.refuse {c : Check} (h : ReadStarts u x s) (hplain : s.resealSource u x = false)
    (hcheck : s.checkRead u x none = c) (hc : c ≠ .pass) (hretry : s.retryEn = false ∨ ∀ y, c ≠ .mismatch y) :
    ∃ t, exec (.sealVerifyRead u x) s = .next t ∧ Halts [u, blockTile x.addr] u s t ∧
      ∀ code, (∃ n, c = .invalid n) ∧ code = 0x35 ∨ c = .stale ∧ code = 0x36 →
        ∃ y, (u, y) ∈ t.ev.flight ∧ y.code = BitVec.ofNat 16 code ∧ y.sev = .fault := by
  have hsame : SameBlocks u s (s.opened u x) := State.opened_sameBlocks
  have hopened : Reports readParts [u, blockTile x.addr] s (s.opened u x) := .opened_all
  have hrun := hopened.inCommand (State.inCommand_of_mayRun h.mayRun)
  have hfrozen : (s.opened u x).life.frozen = false := by
    rw [show (s.opened u x).life = s.life from hopened.parts .life (by simp)]
    exact State.frozen_of_live h.live
  have heq : (s.served u x.addr).firstRead u x = (s.opened u x).refuseRead u x c false :=
    State.firstRead_refuse h.opened_injected ((hsame.resealSource x).trans hplain) ((hsame.checkRead x none).trans hcheck) hc
      (hretry.imp_left (hsame.retryEn.trans ·))
  exact ⟨_, (exec_sealVerifyRead h).trans (congrArg _ heq),
    (State.refuseRead_halts hrun (by simp) hc).after hopened (by simp) (by simp),
    fun code hcode => State.refuseRead_event hfrozen hrun hcode⟩

/-! ### The reseal input (R299) -/

theorem packNat_nil : packNat [] = 0 := rfl

theorem testBit_pack_cons {lo w v i : Nat} {fs : List Fld} :
    (packNat ((lo, w, v) :: fs)).testBit i = ((decide (lo ≤ i) && (decide (i - lo < w) && v.testBit (i - lo))) ||
      (packNat fs).testBit i) := by
  simp only [packNat, Nat.testBit_or, Nat.testBit_shiftLeft, Nat.testBit_mod_two_pow]

theorem sealClass_sealWord (time : Word) (t : Nat) (gen : BitVec 8) (cls : Nat) (valid : Bool) (res : Nat) :
    sealClass (sealWord time t gen cls valid res) = cls % 16 := by
  refine Nat.eq_of_testBit_eq fun i => ?_
  simp only [sealClass, sealWord, fld, pack, BitVec.toNat_ofNat, Nat.testBit_mod_two_pow, Nat.testBit_shiftRight,
    testBit_pack_cons, show (16 : Nat) = 2 ^ 4 from rfl, packNat_nil, Nat.zero_testBit]
  by_cases hi : i < 4
  · interval_cases i <;> simp
  · simp [hi]

theorem sealValid_sealWord (time : Word) (t : Nat) (gen : BitVec 8) (cls : Nat) (valid : Bool) (res : Nat) :
    sealValid (sealWord time t gen cls valid res) = valid := by
  simp only [sealValid, sealWord, bit, pack, BitVec.getLsbD_ofNat, testBit_pack_cons, packNat_nil, Nat.zero_testBit]
  cases valid <;> simp [b2n]

/-- What stands in a block after it was written whole. -/
theorem State.blockSealAt_putBlock (a : BlockAddr) (bs : List Byte) (w : Word) :
    (s.putBlock a bs w).blockSealAt a = w := by
  cases a <;> exact tget_tset_self _ _ _ _

theorem State.blockBytesAt_putBlock (a : BlockAddr) {bs : List Byte} (w : Word) (h : bs.length = blockBytes) :
    (s.putBlock a bs w).blockBytesAt a = bs := by
  cases a with
  | sram v i =>
    have hread := Memory.readBytes_writeBytes s.stack.sram (sramBlock v i * blockBytes) bs
    rwa [h] at hread
  | slice v l b =>
    have hread := Memory.readBytes_writeBytes s.stack.mem (stackBlock v l b * blockBytes) bs
    rw [h] at hread
    have hoff : (s.putBlock (.slice v l b) bs w).stack.mem = s.stack.mem.writeBytes (stackBlock v l b * blockBytes) bs :=
      congrArg (s.stack.mem.writeBytes · bs) (Nat.add_zero _)
    rwa [State.blockBytesAt, State.stackBytes, hoff]

theorem OnlyChanges.putBlock (s : State) (a : BlockAddr) (bs : List Byte) (w : Word) :
    OnlyChanges [.stack] s (s.putBlock a bs w) := by
  cases a <;> exact fun p hp => by cases p <;> first | rfl | simp at hp

theorem Reports.portBlock {a : BlockAddr} {bs : List Byte} {w : Word} (h : Reports ps us s t)
    (hps : [.tiles, .stack] ⊆ ps)
    (hus : blockTile a ∈ us) : Reports ps us s (t.portBlock a bs w) :=
  (h.portBytes (hps (by simp)) hus).other (OnlyChanges.putBlock _ a bs w) (by simpa using hps (by simp)) (by simp) (by simp)

/-- The vector unit writes the block as it was read, with a COMPUTED seal. -/
theorem State.resealBlock_writes (hlen : (s.readBytes u x.addr).length = blockBytes) :
    Reports [.tiles, .stack, .dbg, .free, .time] [u] s (s.resealBlock u x) ∧
      (s.resealBlock u x).stack.mem = s.stack.mem ∧
      (s.resealBlock u x).sramBytes u (x.reseal.getD 0) = s.readBytes u x.addr ∧
      sealClass ((s.resealBlock u x).sramSeal u (x.reseal.getD 0)) = 3 ∧
      sealValid ((s.resealBlock u x).sramSeal u (x.reseal.getD 0)) = true := by
  unfold State.resealBlock
  dsimp only
  generalize hw : sealWord s.time.time u x.gen 3 true (blockResidue x.fmt.toNat (unpackBlock x.fmt.toNat (s.readBytes u x.addr))) = w
  have hclass : sealClass w = 3 := by rw [← hw, sealClass_sealWord]
  have hvalid : sealValid w = true := by rw [← hw, sealValid_sealWord]
  have hbegin : Reports [.tiles, .stack, .dbg, .free, .time] [u] s (s.unitRing u uVECTOR .begin_ 0) :=
    .unitRing (.refl ..) (by simp)
  have hstack : (s.unitRing u uVECTOR .begin_ 0).stack = s.stack := OnlyChanges.unitRing s u _ _ _ .stack (by simp)
  generalize s.unitRing u uVECTOR .begin_ 0 = r at hbegin hstack
  have hput : Reports [.tiles, .stack, .dbg, .free, .time] [u] s (r.portBlock (.sram u (x.reseal.getD 0)) (s.readBytes u x.addr) w) :=
    hbegin.portBlock (by simp) (by simp [blockTile])
  have hmem : (r.portBlock (.sram u (x.reseal.getD 0)) (s.readBytes u x.addr) w).stack.mem = s.stack.mem :=
    congrArg (·.mem) ((OnlyChanges.count r u 2 blockBytes .stack (by simp)).trans hstack)
  have hbytes : (r.portBlock (.sram u (x.reseal.getD 0)) (s.readBytes u x.addr) w).sramBytes u (x.reseal.getD 0) =
    s.readBytes u x.addr := State.blockBytesAt_putBlock (.sram u _) w hlen
  have hseal : (r.portBlock (.sram u (x.reseal.getD 0)) (s.readBytes u x.addr) w).sramSeal u (x.reseal.getD 0) = w :=
    State.blockSealAt_putBlock (.sram u _) _ w
  generalize r.portBlock (.sram u (x.reseal.getD 0)) (s.readBytes u x.addr) w = q at hput hmem hbytes hseal
  have hend : (q.unitRing u uVECTOR .end_ 0).stack = q.stack := OnlyChanges.unitRing q u _ _ _ .stack (by simp)
  refine ⟨hput.unitRing (by simp), ?_⟩
  rw [State.sramBytes, State.sramSeal, hend, ← State.sramBytes, ← State.sramSeal, hseal]
  exact ⟨hmem, hbytes, hclass, hvalid⟩

/-- The parts that a reseal changes. -/
abbrev resealParts : List Part := [.stack, .tiles, .regs, .status, .dbg, .free, .time]

/-- A RESEAL source reaches tile SRAM unchanged under a COMPUTED seal. -/
theorem ReadStarts.reseal_write (h : ReadStarts u x s) (hsource : s.resealSource u x = true)
    (hlen : (s.readBytes u x.addr).length = blockBytes) :
    ∃ t, exec (.sealVerifyRead u x) s = .next t ∧ OnlyTiles [u, blockTile x.addr] s t ∧ OnlyChanges resealParts s t ∧
      t.stack.mem = s.stack.mem ∧ t.sramBytes u (x.reseal.getD 0) = s.readBytes u x.addr ∧
      sealClass (t.sramSeal u (x.reseal.getD 0)) = 3 ∧ sealValid (t.sramSeal u (x.reseal.getD 0)) = true := by
  have hsame : SameBlocks u s (s.opened u x) := State.opened_sameBlocks
  have hopened : Reports resealParts [u, blockTile x.addr] s (s.opened u x) :=
    .opened (by simp) (.inl (State.finding_of_resealSource hsource))
  have heq : (s.served u x.addr).firstRead u x = (s.opened u x).resealBlock u x :=
    State.firstRead_reseal ((hsame.resealSource x).trans hsource)
  have hwrite := State.resealBlock_writes (u := u) (x := x) (hlen := (congrArg _ (hsame.readBytes x.addr)).trans hlen)
  obtain ⟨hreports, hmem, hbytes, hclass, hvalid⟩ := hwrite
  replace hreports := hopened.trans (hreports.mono (by simp) (by simp))
  exact ⟨_, (exec_sealVerifyRead h).trans (congrArg _ heq), hreports.tiles, hreports.parts,
    hmem.trans (congrArg (·.mem) hsame.stack), hbytes.trans (hsame.readBytes x.addr), hclass, hvalid⟩

/-! ### SEAL_SECOND_READ -/

section
variable {first : Nat} {inj : Option Nat}

theorem State.readAgain_pass (h : (s.blockRead u x.addr x.ecc).checkRead u x inj = .pass) :
    s.readAgain u x first inj = (((s.blockRead u x.addr x.ecc).readRetry u x.unit ((s.blockRead u x.addr x.ecc).readSeal u x.addr)
      first inj.isSome).mirrorRead u x, true) := by
  unfold State.readAgain
  dsimp only
  rw [h]

theorem State.readAgain_refuse {c : Check} (h : (s.blockRead u x.addr x.ecc).checkRead u x inj = c) (hc : c ≠ .pass) :
    s.readAgain u x first inj = ((s.blockRead u x.addr x.ecc).refuseRead u x c inj.isSome, false) := by
  unfold State.readAgain
  dsimp only
  cases c with
  | pass => exact absurd rfl hc
  | invalid n => rw [h]
  | stale => rw [h]
  | mismatch y => rw [h]

end

theorem OnlyRegs.raiseNode (s : State) (u : Nat) (r : EvRec) : OnlyRegs [Reg.armEventsDropped] s (s.raiseNode u r) := by
  have hhang := OnlyChanges.hang s (ringTile u r.unit.toNat) r.time .event (r.cseq.toNat % 2 ^ 24) (hangEventData r)
  unfold State.raiseNode
  dsimp only
  generalize s.hang (ringTile u r.unit.toNat) r.time .event (r.cseq.toNat % 2 ^ 24) (hangEventData r) = q at hhang
  replace hhang : OnlyRegs [Reg.armEventsDropped] s q := .of_regs (hhang .regs (by simp))
  have hnext : OnlyRegs [Reg.armEventsDropped] q (({ q with ev.flight := q.ev.flight ++ [(u, r)] } : State).eventNext u) :=
    .of_regs (OnlyChanges.eventNext _ u .regs (by simp))
  split
  · exact hhang.trans (OnlyRegs.trans (.of_regs rfl) (OnlyRegs.bump _ _ 1))
  split
  · exact (hhang.trans hnext).trans (.of_regs rfl)
  · exact hhang.trans hnext

theorem OnlyRegs.raiseTile {unit code : Nat} {sev : Severity} {c : Option (BitVec 16 × BitVec 16 × BitVec 24)}
    {d : Word} :
    OnlyRegs [Reg.armEventsDropped] s (s.raiseTile u unit code sev c d) :=
  OnlyRegs.trans (.of_regs (OnlyChanges.localStamp s _ .regs (by simp))) (.raiseNode _ u _)

theorem Reports.readRetry {unit first : Nat} {w : Word} {inj : Bool} (h : Reports ps us s t) (hps : reportParts ⊆ ps)
    (hus : u ∈ us) : Reports ps us s (t.readRetry u unit w first inj) :=
  .count (h.sealEvent hps hus) (hps (by simp)) hus

/-- A second read that passes counts as one retry. -/
theorem State.readRetry_retries {unit first : Nat} {w : Word} {inj : Bool} (hf : s.life.frozen = false) :
    ((s.readRetry u unit w first inj).reg Reg.sealReadRetries).toNat =
      min ((s.reg Reg.sealReadRetries).toNat + 1) (regMask Reg.sealReadRetries) := by
  have hcount (q : State) : (q.accept u).reg Reg.sealReadRetries = q.reg Reg.sealReadRetries :=
    State.reg_of_regs (OnlyChanges.count q u 6 1 .regs (by simp)) _
  have hraise (q : State) (d : Word) (i : Bool) : (q.sealReport u unit 0x33 .note d i).reg Reg.sealReadRetries =
    q.reg Reg.sealReadRetries := OnlyRegs.raiseTile _ (by decide)
  rw [State.readRetry, hcount, State.sealEvent_of_live hf, hraise]
  exact State.reg_bump_self s _ 1 (regMask_lt _)

/-- The second read of a block that passes is accepted, with its event. -/
theorem Reports.readAgain {first : Nat} {inj : Option Nat} (hpass : s.checkRead u x inj = .pass) :
    Reports (.maq :: readParts) [u, blockTile x.addr] s (s.readAgain u x first inj).1 := by
  have hread : Reports (.maq :: readParts) [u, blockTile x.addr] s (s.blockRead u x.addr x.ecc) :=
    .blockRead (.refl ..) (by simp) (.inr (by simp)) (by simp) (by simp)
  rw [State.readAgain_pass (((hread.sameBlocks (by simp) (by simp)).checkRead x inj).trans hpass)]
  exact .mirrorRead (hread.readRetry (by simp) (by simp)) (by simp) (by simp)

theorem State.readAgain_retries {first : Nat} {inj : Option Nat} (hf : s.life.frozen = false)
    (hpass : s.checkRead u x inj = .pass) :
    ((s.readAgain u x first inj).1.reg Reg.sealReadRetries).toNat =
      min ((s.reg Reg.sealReadRetries).toNat + 1) (regMask Reg.sealReadRetries) := by
  have hread : Reports readParts [u, blockTile x.addr] s (s.blockRead u x.addr x.ecc) :=
    .blockRead (.refl ..) (by simp) (.inr (by simp)) (by simp) (by simp)
  have hf' : (s.blockRead u x.addr x.ecc).life.frozen = false := by
    rw [show (s.blockRead u x.addr x.ecc).life = s.life from hread.parts .life (by simp), hf]
  have hreg : (s.blockRead u x.addr x.ecc).reg Reg.sealReadRetries = s.reg Reg.sealReadRetries :=
    State.reg_blockRead (by decide)
  have hmirror (q : State) : (q.mirrorRead u x).regs = q.regs :=
    (Reports.mirrorRead (ps := [.tiles, .maq]) (us := [u]) (.refl _ _ q) (by simp) (by simp)).parts .regs (by simp)
  rw [State.readAgain_pass (((hread.sameBlocks (by simp) (by simp)).checkRead x inj).trans hpass)]
  dsimp only
  rw [State.reg_of_regs (hmirror _), State.readRetry_retries hf', hreg]

/-- A second read that is not accepted halts the command. -/
theorem State.readAgain_halts {first : Nat} {inj : Option Nat} (hs : s.inCommand u) (hc : s.checkRead u x inj ≠ .pass) :
    Halts [u, blockTile x.addr] u s (s.readAgain u x first inj).1 := by
  have hread : Reports readParts [u, blockTile x.addr] s (s.blockRead u x.addr x.ecc) :=
    .blockRead (.refl ..) (by simp) (.inr (by simp)) (by simp) (by simp)
  rw [State.readAgain_refuse ((hread.sameBlocks (by simp) (by simp)).checkRead x inj) hc]
  exact (State.refuseRead_halts (hread.inCommand hs) (by simp) hc).after hread (by simp) (by simp)

/-- The state in which tile `u` awaits no second read any more, in which the block is read again. -/
def State.unawaited (s : State) (u : Nat) : State :=
  s.modCore u fun c => { c with expect := none, retryXor := none, retryInj := none }

theorem State.unawaited_core (s : State) (u : Nat) : ((s.unawaited u).tile u).core =
    { (s.tile u).core with expect := none, retryXor := none, retryInj := none } := by
  unfold State.unawaited
  rw [State.tile_modCore_self]

/-- A second read of the block that tile `u` awaits is served at once. -/
structure SecondReadStarts (u : Nat) (x e : ReadReq) (s : State) : Prop where
  live : s.live = true
  mayRun : s.mayRun u = true
  expect : (s.tile u).core.expect = some e
  addr : e.addr = x.addr
  gate : s.unitGate u x.addr false = .serve

variable {e : ReadReq}

theorem exec_sealSecondRead (h : SecondReadStarts u x e s) :
    exec (.sealSecondRead u x) s = .next (((s.served u x.addr).unawaited u).readAgain u
      (readAs e { flips := x.flips, ecc := x.ecc }) (((s.tile u).core.retryXor.map (·.toNat)).getD 0) (s.tile u).core.retryInj).1 := by
  have hserved : Reports [.tiles] [blockTile x.addr] s (s.served u x.addr) := .served (.refl ..) (by simp) (by simp)
  have hxor : ((s.served u x.addr).tile u).work.core.retryXor = (s.tile u).work.core.retryXor := by rw [hserved.work]
  have hinj : ((s.served u x.addr).tile u).work.core.retryInj = (s.tile u).work.core.retryInj := by rw [hserved.work]
  replace hxor : ((s.served u x.addr).tile u).core.retryXor = (s.tile u).core.retryXor := hxor
  replace hinj : ((s.served u x.addr).tile u).core.retryInj = (s.tile u).core.retryInj := hinj
  have hnext : (s.served u x.addr).nextRead u x = (((s.served u x.addr).unawaited u).readAgain u
      (readAs e { flips := x.flips, ecc := x.ecc }) (((s.tile u).core.retryXor.map (·.toNat)).getD 0) (s.tile u).core.retryInj).1 := by
    unfold State.nextRead
    dsimp only
    rw [hserved.expect.trans h.expect, hxor, hinj]
    exact if_neg (not_not_intro h.addr)
  calc exec (.sealSecondRead u x) s = execSealSecondRead u x s := rfl
    _ = .next (s.secondRead u x) := doWhen_true (by rw [h.live, h.mayRun]; rfl)
    _ = .next ((s.served u x.addr).nextRead u x) := by
      rw [State.secondRead, h.expect, Option.map_some, h.addr, if_pos (beq_self_eq_true _), State.atBlock_read h.gate]
    _ = _ := by rw [hnext]

/-- What stands when the awaited block is read again. -/
theorem SecondReadStarts.unawaited (h : SecondReadStarts u x e s) :
    SameBlocks u s ((s.served u x.addr).unawaited u) ∧
      OnlyTiles [u, blockTile x.addr] s ((s.served u x.addr).unawaited u) ∧
      ((s.served u x.addr).unawaited u).inCommand u ∧
      (((s.served u x.addr).unawaited u).tile u).core.expect = none ∧
      ((s.served u x.addr).unawaited u).life = s.life ∧
      ((s.served u x.addr).unawaited u).reg Reg.sealReadRetries = s.reg Reg.sealReadRetries := by
  have hserved : Reports [.tiles] [blockTile x.addr] s (s.served u x.addr) := .served (.refl ..) (by simp) (by simp)
  have hrun := hserved.inCommand (State.inCommand_of_mayRun h.mayRun)
  have hclear := OnlyChanges.modCore (s.served u x.addr) u fun c => { c with expect := none, retryXor := none, retryInj := none }
  have hparts := hserved.parts.trans hclear
  have hmaq : (((s.served u x.addr).unawaited u).tile u).maq = ((s.served u x.addr).tile u).maq := by
    unfold State.unawaited
    rw [State.tile_modCore_self]
  refine ⟨⟨hparts .force (by simp), hparts .stack (by simp), hmaq.trans (hserved.sameBlocks (by simp) (by simp)).maq⟩,
    (hserved.tiles.mono (by simp)).trans ((OnlyTiles.modCore _ u _).mono (by simp)), ?_, ?_, hparts .life (by simp),
    State.reg_of_regs (hparts .regs (by simp)) _⟩
  · unfold State.inCommand
    rw [State.unawaited_core]
    exact hrun
  · rw [State.unawaited_core]

/-- A second read that passes is counted as a retry and the command goes on. -/
theorem SecondReadStarts.pass (h : SecondReadStarts u x e s)
    (hpass : s.checkRead u (readAs e { flips := x.flips, ecc := x.ecc }) (s.tile u).core.retryInj = .pass) :
    ∃ t, exec (.sealSecondRead u x) s = .next t ∧ OnlyTiles [u, blockTile x.addr] s t ∧ t.stack = s.stack ∧
      (t.tile u).core.expect = none ∧ (t.tile u).core.halted = false ∧
      (t.reg Reg.sealReadRetries).toNat = min ((s.reg Reg.sealReadRetries).toNat + 1) (regMask Reg.sealReadRetries) := by
  obtain ⟨hsame, htiles, hrun, hexpect, hlife, hreg⟩ := h.unawaited
  have hcheck := (hsame.checkRead _ _).trans hpass
  have hread := Reports.readAgain (first := ((s.tile u).core.retryXor.map (·.toNat)).getD 0) hcheck
  rw [show (readAs e { flips := x.flips, ecc := x.ecc }).addr = x.addr from h.addr] at hread
  refine ⟨_, exec_sealSecondRead h, htiles.trans hread.tiles, (hread.parts .stack (by simp)).trans hsame.stack,
    hread.expect.trans hexpect, (hread.inCommand hrun).2, ?_⟩
  rw [State.readAgain_retries (by rw [hlife, State.frozen_of_live h.live]) hcheck, hreg]

/-- One that is not accepted halts the command. -/
theorem SecondReadStarts.refuse (h : SecondReadStarts u x e s)
    (hc : s.checkRead u (readAs e { flips := x.flips, ecc := x.ecc }) (s.tile u).core.retryInj ≠ .pass) :
    ∃ t, exec (.sealSecondRead u x) s = .next t ∧ OnlyTiles [u, blockTile x.addr] s t ∧
      (bit (s.inForce Reg.traceTraceCtl) 1 = false → t.stack = s.stack) ∧
      (t.tile u).core.expect = none ∧ (t.tile u).core.halted = true := by
  obtain ⟨hsame, htiles, hrun, -, -, -⟩ := h.unawaited
  have hhalts := State.readAgain_halts (first := ((s.tile u).core.retryXor.map (·.toNat)).getD 0) hrun
    (by rwa [hsame.checkRead])
  rw [show (readAs e { flips := x.flips, ecc := x.ecc }).addr = x.addr from h.addr] at hhalts
  refine ⟨_, exec_sealSecondRead h, htiles.trans hhalts.tiles, fun hoff => (hhalts.stack ?_).trans hsame.stack,
    hhalts.expect, hhalts.halted⟩
  rw [State.tracesToStack, State.inForce, hsame.force, ← State.inForce, hoff]
  exact Bool.false_ne_true

end

end Sys2Proof.Machine
end


section
/-! PROOF. Partial writes of a block, and the statement on verified reads and partial writes. -/

namespace Sys2Proof.Machine

section
variable {ps : List Part} {us : List Nat} {s t : State} {u : Nat} {x : ReadReq} {p : PartialWrite}

/-! ### A read with its second read in one step -/

section
variable {again : Finding} (hinj : (s.blockRead u x.addr x.ecc).injected u 3 = none)
include hinj

theorem State.readVerified_pass (h : (s.blockRead u x.addr x.ecc).checkRead u x none = .pass) :
    s.readVerified u x again = (((s.blockRead u x.addr x.ecc).accept u).mirrorRead u x, true) := by
  unfold State.readVerified
  dsimp only
  rw [State.readCheck_of_uninjected hinj, h]
  rfl

theorem State.readVerified_again {y : Nat} (h : (s.blockRead u x.addr x.ecc).checkRead u x none = .mismatch y)
    (hretry : (s.blockRead u x.addr x.ecc).retryEn = true) :
    s.readVerified u x again = (s.blockRead u x.addr x.ecc).readAgain u (readAs x again) y none := by
  unfold State.readVerified
  dsimp only
  rw [State.readCheck_of_uninjected hinj, h]
  exact if_pos hretry

theorem State.readVerified_refuse {c : Check} (h : (s.blockRead u x.addr x.ecc).checkRead u x none = c) (hc : c ≠ .pass)
    (hretry : (s.blockRead u x.addr x.ecc).retryEn = false ∨ ∀ y, c ≠ .mismatch y) :
    s.readVerified u x again = ((s.blockRead u x.addr x.ecc).refuseRead u x c false, false) := by
  unfold State.readVerified
  dsimp only
  rw [State.readCheck_of_uninjected hinj, h]
  cases c with
  | pass => exact absurd rfl hc
  | invalid n => rfl
  | stale => rfl
  | mismatch y =>
    have hretry : (s.blockRead u x.addr x.ecc).retryEn = false := by simpa using hretry
    exact if_neg (Bool.not_eq_true _ ▸ hretry)

end

/-! ### PARTIAL_BLOCK_WRITE where the block is served -/

/-- A partial write that finds its block and is served at once, with no injection to come. -/
structure WriteStarts (u : Nat) (p : PartialWrite) (s : State) : Prop where
  live : s.live = true
  mayRun : s.mayRun u = true
  expect : (s.tile u).core.expect = none
  found : blockExists p.read.addr = true
  gate : s.unitGate u p.read.addr true = .serve
  injected : s.injected u 3 = none

/-- The check of the block passes at its second read. -/
def State.secondCheck (s : State) (u : Nat) (p : PartialWrite) (c : Check) : Prop :=
  s.retryEn = true ∧ (∃ y, s.checkRead u p.read none = .mismatch y) ∧ s.checkRead u (readAs p.read p.again) none = c

theorem exec_partialBlockWrite_of_mayRun (hlive : s.live = true) (hrun : s.mayRun u = true)
    (hexp : (s.tile u).core.expect = none)
    (hex : blockExists p.read.addr = true) : exec (.partialBlockWrite u p) s = .next (s.partialWrite u p) := by
  have hok : (s.live && s.mayRun u && (s.tile u).core.expect.isNone && blockExists p.read.addr) = true := by
    rw [hlive, hrun, hexp, hex]
    rfl
  calc exec (.partialBlockWrite u p) s = execPartialBlockWrite u p s := rfl
    _ = .next (s.partialWrite u p) := doWhen_true hok

theorem exec_partialBlockWrite_of_served (h : WriteStarts u p s) :
    exec (.partialBlockWrite u p) s = .next (s.changeBlock u p) := by
  rw [exec_partialBlockWrite_of_mayRun h.live h.mayRun h.expect h.found, State.partialWrite, State.atBlock_write h.gate]

/-- The read of the block that a partial write changes. -/
theorem Reports.blockRead_all : Reports readParts [u, blockTile x.addr] s (s.blockRead u x.addr x.ecc) :=
  .blockRead (.refl ..) (by simp) (.inr (by simp)) (by simp) (by simp)

theorem WriteStarts.read_injected (h : WriteStarts u p s) :
    (s.blockRead u p.read.addr p.read.ecc).injected u 3 = none := by
  rw [Reports.blockRead_all.injected (State.reg_blockRead (by decide))]
  exact h.injected

/-- The whole block is verified, by a second read if need be. -/
theorem WriteStarts.verified (h : WriteStarts u p s)
    (hpass : s.checkRead u p.read none = .pass ∨ s.secondCheck u p .pass) :
    ∃ v, s.readVerified u p.read p.again = (v, true) ∧ Reports (.maq :: readParts) [u, blockTile p.read.addr] s v ∧
      (s.checkRead u p.read none = .pass → OnlyChanges [.tiles, .maq, .regs, .status] s v) ∧ v.time.time = s.time.time := by
  have hread : Reports readParts [u, blockTile p.read.addr] s (s.blockRead u p.read.addr p.read.ecc) := .blockRead_all
  have hsame : SameBlocks u s (s.blockRead u p.read.addr p.read.ecc) := hread.sameBlocks (by simp) (by simp)
  have htime : (s.readVerified u p.read p.again).1.time.time = s.time.time :=
    (State.readVerified_sameRun s u p.read p.again).1.2.1
  obtain hpass | ⟨hretry, ⟨y, hy⟩, hagain⟩ := hpass
  · have hquiet : Reports [.tiles, .maq, .regs, .status] [u, blockTile p.read.addr] s (s.blockRead u p.read.addr p.read.ecc) :=
      .blockRead (.refl ..) (by simp) (.inl (State.finding_of_pass hpass)) (by simp) (by simp)
    have heq := State.readVerified_pass (again := p.again) h.read_injected ((hsame.checkRead _ _).trans hpass)
    have hv : Reports [.tiles, .maq, .regs, .status] [u, blockTile p.read.addr] s
        (((s.blockRead u p.read.addr p.read.ecc).accept u).mirrorRead u p.read) :=
      .mirrorRead (.count hquiet (by simp) (by simp)) (by simp) (by simp)
    rw [heq] at htime
    exact ⟨_, heq, hv.mono (by simp) (by simp), fun _ => hv.parts, htime⟩
  · have hcheck : (s.blockRead u p.read.addr p.read.ecc).checkRead u (readAs p.read p.again) none = .pass :=
      (hsame.checkRead _ _).trans hagain
    have heq := State.readVerified_again (again := p.again) h.read_injected ((hsame.checkRead _ _).trans hy)
      (hsame.retryEn.trans hretry)
    have hsecond : (s.blockRead u p.read.addr p.read.ecc).readAgain u (readAs p.read p.again) y none = (_, true) :=
      State.readAgain_pass (((Reports.blockRead_all.sameBlocks (by simp) (by simp)).checkRead _ _).trans hcheck)
    have hreread : Reports (.maq :: readParts) [u, blockTile p.read.addr] (s.blockRead u p.read.addr p.read.ecc)
        ((s.blockRead u p.read.addr p.read.ecc).readAgain u (readAs p.read p.again) y none).1 := .readAgain (x := readAs p.read p.again) hcheck
    have hv := (hread.mono (qs := .maq :: readParts) (by simp) (fun _ h => h)).trans hreread
    rw [heq] at htime
    exact ⟨_, heq.trans (Prod.ext rfl (congrArg (·.2) hsecond)), hv, fun hp => by simp [hy] at hp, htime⟩

/-- A block that is not verified halts the command. -/
theorem WriteStarts.refused (h : WriteStarts u p s)
    (hfail : s.checkRead u p.read none = .stale ∨ (∃ n, s.checkRead u p.read none = .invalid n) ∨
      (s.retryEn = false ∧ ∃ y, s.checkRead u p.read none = .mismatch y) ∨ ∃ c, c ≠ .pass ∧ s.secondCheck u p c) :
    ∃ v, s.readVerified u p.read p.again = (v, false) ∧ Halts [u, blockTile p.read.addr] u s v := by
  have hread : Reports readParts [u, blockTile p.read.addr] s (s.blockRead u p.read.addr p.read.ecc) := .blockRead_all
  have hsame : SameBlocks u s (s.blockRead u p.read.addr p.read.ecc) := hread.sameBlocks (by simp) (by simp)
  have hrun := hread.inCommand (State.inCommand_of_mayRun h.mayRun)
  have hfirst {c : Check} (hcheck : s.checkRead u p.read none = c) (hc : c ≠ .pass)
      (hretry : s.retryEn = false ∨ ∀ y, c ≠ .mismatch y) :
      ∃ v, s.readVerified u p.read p.again = (v, false) ∧ Halts [u, blockTile p.read.addr] u s v :=
    ⟨_, State.readVerified_refuse h.read_injected ((hsame.checkRead _ _).trans hcheck) hc
      (hretry.imp_left (hsame.retryEn.trans ·)), (State.refuseRead_halts hrun (by simp) hc).after hread (by simp) (by simp)⟩
  obtain hstale | ⟨n, hinvalid⟩ | ⟨hretry, y, hy⟩ | ⟨c, hc, hretry, ⟨y, hy⟩, hagain⟩ := hfail
  · exact hfirst hstale (by simp) (.inr (by simp))
  · exact hfirst hinvalid (by simp) (.inr (by simp))
  · exact hfirst hy (by simp) (.inl hretry)
  · have hcheck : (s.blockRead u p.read.addr p.read.ecc).checkRead u (readAs p.read p.again) none = c :=
      (hsame.checkRead _ _).trans hagain
    have heq := State.readVerified_again (again := p.again) h.read_injected ((hsame.checkRead _ _).trans hy)
      (hsame.retryEn.trans hretry)
    have hsecond : (s.blockRead u p.read.addr p.read.ecc).readAgain u (readAs p.read p.again) y none = (_, false) :=
      State.readAgain_refuse (((Reports.blockRead_all.sameBlocks (by simp) (by simp)).checkRead _ _).trans hcheck) hc
    have hhalts : Halts [u, blockTile p.read.addr] u (s.blockRead u p.read.addr p.read.ecc)
        ((s.blockRead u p.read.addr p.read.ecc).readAgain u (readAs p.read p.again) y none).1 :=
      State.readAgain_halts (x := readAs p.read p.again) hrun (by rwa [hcheck])
    exact ⟨_, heq.trans (Prod.ext rfl (congrArg (·.2) hsecond)), hhalts.after hread (by simp) (by simp)⟩

/-! ### The changed block -/

/-- The changed elements of a partial write, cut to their format. -/
def changesOf (p : PartialWrite) : List (Nat × Nat) :=
  (p.elems.filter fun e => e.1 < fmtElems p.read.fmt.toNat).map fun e => (e.1, e.2 % 2 ^ fmtBits p.read.fmt.toNat)

/-- The bytes and the seal word that a partial write leaves in its block. -/
def State.changedBytes (s : State) (u : Nat) (p : PartialWrite) : List Byte :=
  packBlock p.read.fmt.toNat ((changesOf p).foldl (fun a e => a.set e.1 e.2)
    (unpackBlock p.read.fmt.toNat (s.readBytes u p.read.addr)))
def State.changedSeal (s : State) (u : Nat) (p : PartialWrite) : Word :=
  sealWord s.time.time u p.read.gen (writerClass p.writer) true (partialResidue p.read.fmt.toNat
    (sealResidue (s.readSeal u p.read.addr)) (unpackBlock p.read.fmt.toNat (s.readBytes u p.read.addr)) (changesOf p))

theorem State.writeElems_eq (hsame : SameBlocks u s t) (htime : t.time.time = s.time.time) :
    t.writeElems u p = t.writeBlock u p.read.addr (s.changedBytes u p) (s.changedSeal u p) := by
  unfold State.writeElems
  dsimp only
  rw [hsame.readBytes, hsame.readSeal, htime]
  rfl

/-! ### Writing a block -/

section
variable {a : BlockAddr} {bs : List Byte} {w : Word}

theorem State.writeBlock_of_unstaged (h : s.stagedAt u a = none) : s.writeBlock u a bs w = s.portBlock a bs w := by
  unfold State.writeBlock
  rw [h]

/-- A staged operand with new content. -/
def Operand.rewrite (q : Operand) (bs : List Byte) (w : Word) (o : Operand) : Operand :=
  if o.src == q.src && o.dst == q.dst then { o with bytes := bs, sealw := w } else o

theorem Operand.rewrite_place (q : Operand) (bs : List Byte) (w : Word) (o : Operand) :
    (q.rewrite bs w o).src = o.src ∧ (q.rewrite bs w o).dst = o.dst := by
  unfold Operand.rewrite
  split <;> exact ⟨rfl, rfl⟩

theorem State.writeBlock_of_staged {q : Operand} (h : s.stagedAt u a = some q) :
    s.writeBlock u a bs w = (s.count u 3 blockBytes).modMaq u fun m => { m with staged := m.staged.map (q.rewrite bs w) } := by
  unfold State.writeBlock
  rw [h]
  rfl

/-- The staged operand of a block after it is rewritten. -/
theorem State.stagedAt_writeBlock {q : Operand} (h : s.stagedAt u a = some q) :
    (s.writeBlock u a bs w).stagedAt u a = some { q with bytes := bs, sealw := w } := by
  have hmaq : ((s.writeBlock u a bs w).tile u).maq =
      { (s.tile u).maq with staged := (s.tile u).maq.staged.map (q.rewrite bs w) } := by
    have hcount : Reports [.tiles] [u] s (s.count u 3 blockBytes) := .count (.refl ..) (by simp) (by simp)
    rw [State.writeBlock_of_staged h, State.tile_modMaq_self]
    dsimp only
    rw [(hcount.sameBlocks (by simp) (by simp)).maq]
  have hplace : ((fun o : Operand => o.src == a || o.dst == a) ∘ q.rewrite bs w) = fun o => o.src == a || o.dst == a := by
    funext o
    simp only [Function.comp, (q.rewrite_place bs w o).1, (q.rewrite_place bs w o).2]
  unfold State.stagedAt State.servesMaq at h ⊢
  rw [hmaq]
  dsimp only
  split at h
  next hserves =>
    rw [if_pos hserves, List.find?_map, hplace, h, Option.map_some, Operand.rewrite,
      if_pos (by rw [beq_self_eq_true, beq_self_eq_true]; rfl)]
  next => simp at h

theorem OnlyTiles.writeBlock (s : State) (u : Nat) (a : BlockAddr) (bs : List Byte) (w : Word) :
    OnlyTiles [u, blockTile a] s (s.writeBlock u a bs w) := by
  cases h : s.stagedAt u a with
  | none =>
    rw [State.writeBlock_of_unstaged h]
    exact (Reports.portBlock (ps := [.tiles, .stack]) (.refl ..) (by simp) (by simp)).tiles
  | some q =>
    rw [State.writeBlock_of_staged h]
    have hcount : Reports [.tiles] [u, blockTile a] s (s.count u 3 blockBytes) := .count (.refl ..) (by simp) (by simp)
    exact hcount.tiles.trans ((OnlyTiles.setTile _ u _).mono (by simp))

theorem OnlyChanges.writeBlock (s : State) (u : Nat) (a : BlockAddr) (bs : List Byte) (w : Word) :
    OnlyChanges [.tiles, .stack] s (s.writeBlock u a bs w) := by
  cases h : s.stagedAt u a with
  | none =>
    rw [State.writeBlock_of_unstaged h]
    exact (Reports.portBlock (ps := [.tiles, .stack]) (us := [blockTile a]) (.refl ..) (by simp) (by simp)).parts
  | some q =>
    rw [State.writeBlock_of_staged h]
    exact ((OnlyChanges.count s u 3 _).mono (by simp)).trans ((OnlyChanges.modMaq _ u _).mono (by simp))

end

/-! ### The outcomes of a partial write -/

/-- A verified block gets its changed elements and a seal word of its writer's class. -/
theorem WriteStarts.change (h : WriteStarts u p s)
    (hpass : s.checkRead u p.read none = .pass ∨ s.secondCheck u p .pass) :
    ∃ t, exec (.partialBlockWrite u p) s = .next t ∧ OnlyTiles [u, blockTile p.read.addr] s t ∧
      (s.checkRead u p.read none = .pass → OnlyChanges [.stack, .tiles, .maq, .regs, .status] s t) ∧
      (s.stagedAt u p.read.addr = none → t.blockSealAt p.read.addr = s.changedSeal u p ∧
        ((s.changedBytes u p).length = blockBytes → t.blockBytesAt p.read.addr = s.changedBytes u p)) ∧
      (s.stagedAt u p.read.addr ≠ none → t.stack = s.stack ∧ t.readSeal u p.read.addr = s.changedSeal u p ∧
        t.readBytes u p.read.addr = s.changedBytes u p) := by
  obtain ⟨v, hv, hreports, hquiet, htime⟩ := h.verified hpass
  have hsame : SameBlocks u s v := hreports.sameBlocks (by simp) (by simp)
  have heq : s.changeBlock u p = v.writeBlock u p.read.addr (s.changedBytes u p) (s.changedSeal u p) := by
    rw [State.changeBlock, hv]
    exact State.writeElems_eq hsame htime
  refine ⟨_, (exec_partialBlockWrite_of_served h).trans (congrArg _ heq), hreports.tiles.trans (OnlyTiles.writeBlock _ _ _ _ _),
    fun hp => ((hquiet hp).mono (by simp)).trans ((OnlyChanges.writeBlock _ _ _ _ _).mono (by simp)), fun hnone => ?_, fun hsome => ?_⟩
  · rw [State.writeBlock_of_unstaged ((hsame.stagedAt _).trans hnone)]
    exact ⟨State.blockSealAt_putBlock _ _ _, State.blockBytesAt_putBlock _ _⟩
  · obtain ⟨q, hq⟩ := Option.ne_none_iff_exists'.1 hsome
    replace hq := (hsame.stagedAt _).trans hq
    refine ⟨?_, by rw [State.readSeal, State.stagedAt_writeBlock hq], by rw [State.readBytes, State.stagedAt_writeBlock hq]⟩
    rw [State.writeBlock_of_staged hq]
    exact (OnlyChanges.count v u 3 _ .stack (by simp)).trans hsame.stack

/-- A block that fails its verification is not written, and the command halts. -/
theorem WriteStarts.halt (h : WriteStarts u p s)
    (hfail : s.checkRead u p.read none = .stale ∨ (∃ n, s.checkRead u p.read none = .invalid n) ∨
      (s.retryEn = false ∧ ∃ y, s.checkRead u p.read none = .mismatch y) ∨ ∃ c, c ≠ .pass ∧ s.secondCheck u p c) :
    ∃ t, exec (.partialBlockWrite u p) s = .next t ∧ OnlyTiles [u, blockTile p.read.addr] s t ∧
      (bit (s.inForce Reg.traceTraceCtl) 1 = false → t.stack = s.stack) ∧ (t.tile u).core.halted = true := by
  obtain ⟨v, hv, hhalts⟩ := h.refused hfail
  have heq : s.changeBlock u p = v := by rw [State.changeBlock, hv]; rfl
  exact ⟨v, (exec_partialBlockWrite_of_served h).trans (congrArg _ heq), hhalts.tiles,
    fun hoff => hhalts.stack (by rw [State.tracesToStack, hoff]; exact Bool.false_ne_true), hhalts.halted⟩

/-! ### A partial write that the layer refuses (R290) -/

/-- A slice block whose request reaches a running stack interface is judged by its layer's access table. -/
theorem State.unitGate_of_reaches {v l b : Nat} (hs : s.stagedAt u (.slice v l b) = none)
    (hreach : s.reaches (unitAcc u v l b true)) (hstop : s.stackStopped v = false) :
    s.unitGate u (.slice v l b) true = if !s.stackPermits (unitAcc u v l b true) then .denied
      else if runtimeEnd l ≤ b then .reserved
      else if s.castPhase == 3 && (s.tile v).core.castStop && (unitAcc u v l b true).external &&
        accWrites (unitAcc u v l b true) then .paused
      else if (s.bankRun (accBank (unitAcc u v l b true))).isSome then .busy else .serve := by
  obtain ⟨hreachable, hrouter, hheld⟩ := hreach
  have habsorb : (!ownAccess (unitAcc u v l b true) && (s.tile v).core.router) = false := by
    rcases hrouter with h | h
    · rw [h]; rfl
    · rw [show (s.tile v).core.router = false from h, Bool.and_false]
  have hhost : (s.inRepose && isHost (unitAcc u v l b true).req) = false := Bool.and_false _
  have hgate : s.unitGate u (.slice v l b) true = s.gate (unitAcc u v l b true) := by
    rw [State.unitGate, hs]
    exact if_pos hreachable
  rw [hgate]
  unfold State.gate
  rw [show (unitAcc u v l b true).tile = v from rfl, habsorb, hheld, hstop, hhost]
  rfl

theorem State.partialWrite_denied {v l b : Nat} (ha : p.read.addr = .slice v l b)
    (hgate : s.unitGate u (.slice v l b) true = .denied) :
    s.partialWrite u p = { s.deny (unitAcc u v l b true).req true true l b with status := stDENIED } := by
  unfold State.partialWrite State.atBlock
  rw [ha, hgate]
  rfl

theorem State.partialWrite_reserved {v l b : Nat} (ha : p.read.addr = .slice v l b)
    (hgate : s.unitGate u (.slice v l b) true = .reserved) : s.partialWrite u p = { s with status := stRESERVED } := by
  unfold State.partialWrite State.atBlock
  rw [ha, hgate]
  rfl

theorem OnlyChanges.deny (s : State) (m : Requester) (write mem : Bool) (page off : Nat) (hf : s.life.frozen = false) :
    OnlyChanges [.regs, .ev] s (s.deny m write mem page off) := by
  rw [State.deny_eq s m write mem page off hf]
  exact fun p hp => by cases p <;> first | rfl | simp at hp

end

/-- Settles O41: the first and the second read of a block and the verification of a partial write have each the
outcomes pass, retry and halt, and only accounts change before the check. -/
theorem verifiedReads : Obligations.VerifiedReads := by
  unfold Obligations.VerifiedReads
  refine ⟨fun u r s hlive hrun hexp hex hres hecc hinj hgate hreset => ?_,
    fun u r e s hlive hrun hexp haddr hecc hgate => ?_,
    fun u p s hlive hrun hexp hex hgate hecc hinj => ?_,
    fun u v l b p s hlive hrun hexp ha hex hstaged hreach hstop => ?_⟩
  · have h : ReadStarts u r s := ⟨hlive, hrun, hexp, hex, hres, hinj, hgate⟩
    have hoff {t : State} (ht : ¬ s.tracesToStack → t.stack = s.stack)
        (hoff : bit (s.inForce Reg.traceTraceCtl) 1 = false) : t.stack = s.stack :=
      ht (by rw [State.tracesToStack, hoff]; exact Bool.false_ne_true)
    refine ⟨h.pass hreset, fun y hplain hcheck hretry => h.retry hplain hcheck hretry, fun y hplain hcheck hretry => ?_,
      fun c code hplain hcheck hcode => ?_, h.reseal_write⟩
    · obtain ⟨t, heq, hhalts, -⟩ := h.refuse hplain hcheck (by simp) (.inl hretry)
      exact ⟨t, heq, ⟨hhalts.tiles, hoff hhalts.stack⟩, hhalts.halted, hhalts.sealHalt⟩
    · obtain ⟨n, hn⟩ := hcode
      have hcase : (∃ n, c = .invalid n) ∧ code = 0x35 ∨ c = .stale ∧ code = 0x36 := by
        simp only [List.mem_cons, Prod.mk.injEq, List.not_mem_nil, or_false] at hn
        exact hn.imp_left fun hc => ⟨⟨n, hc.1⟩, hc.2⟩
      have hc : c ≠ .pass ∧ ∀ y, c ≠ .mismatch y := by
        rcases hcase with ⟨⟨n, rfl⟩, -⟩ | ⟨rfl, -⟩ <;> simp
      obtain ⟨t, heq, hhalts, hevent⟩ := h.refuse hplain hcheck hc.1 (.inr hc.2)
      have hlog : ∃ x, (u, x) ∈ t.ev.flight ∧ x.code = code ∧ x.sev = .fault := by
        rcases hcase with hc | hc
        · obtain ⟨x, hx⟩ := hevent 0x35 (.inl ⟨hc.1, rfl⟩)
          exact ⟨x, by rw [hc.2]; exact hx⟩
        · obtain ⟨x, hx⟩ := hevent 0x36 (.inr ⟨hc.1, rfl⟩)
          exact ⟨x, by rw [hc.2]; exact hx⟩
      obtain ⟨x, hx, hcode, hsev⟩ := hlog
      exact ⟨t, x, heq, ⟨hhalts.tiles, hoff hhalts.stack⟩, hhalts.halted, hx, hcode, hsev⟩
  · have h : SecondReadStarts u r e s := ⟨hlive, hrun, hexp, haddr, hgate⟩
    exact ⟨h.pass, h.refuse⟩
  · have h : WriteStarts u p s := ⟨hlive, hrun, hexp, hex, hgate, hinj⟩
    exact ⟨h.change, h.halt⟩
  · have hgate := State.unitGate_of_reaches (ha ▸ hstaged) hreach hstop
    refine ⟨fun hdeny => ?_, fun hpermit hreserved => ?_⟩
    · rw [hdeny] at hgate
      refine ⟨_, (exec_partialBlockWrite_of_mayRun hlive hrun hexp hex).trans
        (congrArg _ (State.partialWrite_denied ha hgate)), ?_, rfl⟩
      exact ((OnlyChanges.deny s _ true true l b (State.frozen_of_live hlive)).mono (by simp)).trans
        ((OnlyChanges.status _ _).mono (by simp))
    · rw [hpermit, if_neg (by decide), if_pos hreserved] at hgate
      rw [exec_partialBlockWrite_of_mayRun hlive hrun hexp hex, State.partialWrite_reserved ha hgate]

end Sys2Proof.Machine
end


section
/-! SUPPORT. What a walk over many parts of the state leaves in one of them: each step touches its own part alone. -/

namespace Sys2Proof.Machine

section
variable {α σ γ : Type} {f : σ → α → σ} {read : σ → γ} {u : α}

/-- A walk that never comes by `u` leaves what is read there. -/
theorem foldl_read_of_notMem (hf : ∀ s x, x ≠ u → read (f s x) = read s) {l : List α} (hu : u ∉ l) (s : σ) :
    read (l.foldl f s) = read s := by
  induction l generalizing s with
  | nil => rfl
  | cons x l ih =>
    obtain ⟨hx, hl⟩ := List.ne_and_not_mem_of_not_mem_cons hu
    exact (ih hl _).trans (hf s x hx.symm)

/-- What is read at `u` after a walk that comes by once is what its one step there leaves, from a state that reads as the
first one does. -/
theorem foldl_read_of_mem [DecidableEq α] (hf : ∀ s x, x ≠ u → read (f s x) = read s) {l : List α} (hl : l.Nodup) (hu : u ∈ l) (s : σ) :
    ∃ s', read s' = read s ∧ read (l.foldl f s) = read (f s' u) := by
  induction l generalizing s with
  | nil => exact absurd hu List.not_mem_nil
  | cons x l ih =>
    obtain ⟨hx, hl⟩ := List.nodup_cons.1 hl
    by_cases hxu : x = u
    · subst hxu
      exact ⟨s, rfl, foldl_read_of_notMem hf hx _⟩
    · obtain ⟨s', hread, hs'⟩ := ih hl (List.mem_of_ne_of_mem (Ne.symm hxu) hu) (f s x)
      exact ⟨s', hread.trans (hf s x hxu), hs'⟩

end

theorem allTiles_nodup : allTiles.Nodup := List.nodup_range

/-- The tile `u` after a walk over every tile whose steps touch their own tile alone. -/
theorem State.tile_foldl_allTiles {f : State → Nat → State} (hf : ∀ s t, OnlyTiles [t] s (f s t)) {u : Nat}
    (hu : u < numTiles) (s : State) :
    ∃ s', s'.tile u = s.tile u ∧ (allTiles.foldl f s).tile u = (f s' u).tile u :=
  foldl_read_of_mem (read := fun s : State => s.tile u) (fun s t ht => hf s t u (by simpa using Ne.symm ht))
    allTiles_nodup (mem_allTiles hu) s

end Sys2Proof.Machine
end


section
/-! PROOF. LINEAGE_CLOSING closes at every node the record of the beat before (R163, Table 5.1). -/

namespace Sys2Proof.Machine

/-! ### One node (R163) -/

/-- The closed records of a node after it closes beat `b`. -/
theorem Core.closeLin_linRecs (c : Core) (b : Nat) (wrote : Bool) : (c.closeLin b wrote).linRecs =
    if wrote && c.lin ≠ {} then (b, linWord b c.lin) :: c.linRecs.filter (fun e => b < e.1 + 64)
    else c.linRecs.filter fun e => b < e.1 + 64 := by
  unfold Core.closeLin
  dsimp only
  split
  · split <;> rfl
  · rfl

theorem Core.linRec_of_linRecs {c d : Core} (h : d.linRecs = c.linRecs) (b : Nat) : d.linRec b = c.linRec b := by
  unfold Core.linRec
  rw [h]

/-- A node that has no record of beat `b` yet closes it with what was entered. -/
theorem Core.closeLin_linRec_self (c : Core) {b : Nat} (h : ∀ e ∈ c.linRecs, e.1 < b) :
    (c.closeLin b true).linRec b = linWord b c.lin := by
  unfold Core.linRec
  rw [Core.closeLin_linRecs]
  by_cases hlin : c.lin = {}
  · have hnone : (c.linRecs.filter fun e => decide (b < e.1 + 64)).find? (fun e => e.1 == b) = none := by
      simp only [List.find?_eq_none, List.mem_filter, beq_iff_eq]
      exact fun e he => (h e he.1).ne
    simp only [hlin, ne_eq, not_true_eq_false, decide_false, Bool.and_false, Bool.false_eq_true, if_false, hnone]
    rfl
  · rw [if_pos (by rw [decide_eq_true hlin]; rfl)]
    simp only [List.find?_cons, beq_self_eq_true]

/-- The records of the beats before, no more than 63 back, stay as they were. -/
theorem Core.closeLin_linRec_before (c : Core) {b k : Nat} (wrote : Bool) (hk : k < b) (hb : b < k + 64) :
    (c.closeLin b wrote).linRec k = c.linRec k := by
  have hfilter : (c.linRecs.filter fun e => decide (b < e.1 + 64)).find? (fun e => e.1 == k) =
      c.linRecs.find? fun e => e.1 == k := by
    rw [List.find?_filter]
    refine List.find?_congr fun e _ => ?_
    by_cases he : e.1 = k <;> simp [he, hb]
  have hfind : (c.closeLin b wrote).linRecs.find? (fun e => e.1 == k) = c.linRecs.find? fun e => e.1 == k := by
    rw [Core.closeLin_linRecs]
    split
    · exact (List.find?_cons_of_neg (by simpa using hk.ne')).trans hfilter
    · exact hfilter
  unfold Core.linRec
  rw [hfind]

/-! ### Every node -/

/-- Node `t` closes the record of beat `b`; one that has nothing to close and no query that waits is left alone. -/
def State.closeNode (b : Nat) (wrote : Bool) (s : State) (t : Nat) : State :=
  let c := (s.tile t).core
  if c.lin ≠ {} || c.linNext ≠ {} || c.query.isSome || !c.linRecs.isEmpty then
    ((s.modCore t fun c => c.closeLin b wrote).lineagePage t b wrote c.lin).lineageReply t c.query b
  else s

/-- The hub notes which beat was closed, and whether records are written from now on. -/
def State.closingNoted (s : State) (b : Nat) (wrote : Bool) : State :=
  { s with contain.linOn := s.contain.linNow
           contain.lastClosed := if wrote then some b else s.contain.lastClosed }

theorem State.lineageClose_eq (s : State) : s.lineageClose =
    (allTiles.foldl (State.closeNode (s.beat - 1) s.contain.linOn) s).closingNoted (s.beat - 1) s.contain.linOn := by
  obtain ⟨l, hl⟩ := exists_eq_allTiles
  rw [State.lineageClose, hl]
  rfl

theorem State.lineageReply_tiles (s : State) (t : Nat) (q : Option (BitVec 16 × Nat × Nat)) (b : Nat) :
    (s.lineageReply t q b).tiles = s.tiles := by
  unfold State.lineageReply
  split
  · dsimp only
    split
    · exact OnlyChanges.sendReply s t _ .tiles (by simp)
    · rfl
  · rfl

theorem State.lineagePage_core (s : State) (t b : Nat) (wrote : Bool) (l : LinOpen) (u : Nat) :
    ((s.lineagePage t b wrote l).tile u).core = (s.tile u).core := by
  unfold State.lineagePage
  split
  · by_cases hu : u = t
    · subst hu
      rw [State.tile_modPage_self]
    · rw [State.tile_modPage_ne s _ hu]
  · rfl

theorem OnlyTiles.lineagePage (s : State) (t b : Nat) (wrote : Bool) (l : LinOpen) :
    OnlyTiles [t] s (s.lineagePage t b wrote l) := by
  unfold State.lineagePage
  split
  · exact OnlyTiles.setTile _ t _
  · exact .of_tiles rfl

theorem OnlyTiles.closeNode (b : Nat) (wrote : Bool) (s : State) (t : Nat) : OnlyTiles [t] s (s.closeNode b wrote t) := by
  unfold State.closeNode
  dsimp only
  split
  · have hclosed := OnlyTiles.modCore s t fun c => c.closeLin b wrote
    exact (hclosed.trans (.lineagePage _ t b wrote _)).trans (.of_tiles (State.lineageReply_tiles _ t _ b))
  · exact .of_tiles rfl

theorem State.closeNode_linRecs (b : Nat) (wrote : Bool) (s : State) (t : Nat) :
    ((s.closeNode b wrote t).tile t).core.linRecs = ((s.tile t).core.closeLin b wrote).linRecs := by
  unfold State.closeNode
  dsimp only
  split
  · rw [State.tile_of_tiles (State.lineageReply_tiles _ t _ b), State.lineagePage_core, State.tile_modCore_self]
  next hidle =>
    simp only [ne_eq, Bool.or_eq_true, decide_eq_true_eq, Bool.not_eq_true', not_or, not_not, Bool.not_eq_false,
      List.isEmpty_iff] at hidle
    obtain ⟨⟨⟨hlin, -⟩, -⟩, hrecs⟩ := hidle
    rw [Core.closeLin_linRecs, hlin, hrecs]
    simp

/-- What the closing leaves in the records of node `u`. -/
theorem State.lineageClose_linRecs (s : State) {u : Nat} (hu : u < numTiles) :
    (s.lineageClose.tile u).core.linRecs = ((s.tile u).core.closeLin (s.beat - 1) s.contain.linOn).linRecs := by
  obtain ⟨s', htile, hfold⟩ :=
    State.tile_foldl_allTiles (OnlyTiles.closeNode (s.beat - 1) s.contain.linOn) hu s
  have hnoted (r : State) : (r.closingNoted (s.beat - 1) s.contain.linOn).tile u = r.tile u := rfl
  rw [State.lineageClose_eq, hnoted, hfold, State.closeNode_linRecs, htile]

/-! ### The ARM_CRC counts that the nodes send (R479) -/

/-- Node `t` sends its closed ARM_CRC count. -/
def State.crcSent (s : State) (t : Nat) : State :=
  match (s.tile t).core.crcOld.record 32 32 with
  | some r => (s.modCore t fun c => { c with crcOld := {} }).raiseNode t r
  | none => s

theorem State.lineagePhase_of_live {s : State} (hf : s.life.frozen = false) :
    s.lineagePhase = allTiles.foldl State.crcSent s.lineageClose := by
  have hclose : (if s.life.frozen then s else s.lineageClose) = s.lineageClose := by rw [hf]; rfl
  obtain ⟨l, hl⟩ := exists_eq_allTiles
  rw [← hclose, State.lineagePhase, hl]
  rfl

theorem State.crcSent_linRecs (s : State) (t u : Nat) :
    ((s.crcSent t).tile u).core.linRecs = (s.tile u).core.linRecs := by
  unfold State.crcSent
  split
  next r _ =>
    have hraise : Reports reportParts [t] (s.modCore t fun c => { c with crcOld := {} }) _ :=
      .raiseNode (u := t) (x := r) (.refl ..) (by simp) (by simp)
    refine (congrArg (·.core.linRecs) (hraise.work u)).trans ?_
    by_cases hu : u = t
    · subst hu
      rw [State.tile_modCore_self]
      rfl
    · rw [State.tile_modCore_ne s _ hu]
      rfl
  · rfl

theorem State.crcSent_contain (s : State) (t : Nat) : (s.crcSent t).contain = s.contain := by
  unfold State.crcSent
  split
  · exact OnlyChanges.raiseNode _ t _ .contain (by simp)
  · rfl

theorem State.crcSent_foldl (l : List Nat) (s : State) (u : Nat) :
    ((l.foldl State.crcSent s).tile u).core.linRecs = (s.tile u).core.linRecs ∧
      (l.foldl State.crcSent s).contain = s.contain := by
  induction l generalizing s with
  | nil => exact ⟨rfl, rfl⟩
  | cons t l ih =>
    obtain ⟨hrecs, hcontain⟩ := ih (s.crcSent t)
    exact ⟨hrecs.trans (State.crcSent_linRecs s t u), hcontain.trans (State.crcSent_contain s t)⟩

/-! ### The command -/

/-- The records of a node, and the last closed beat, when the phase is over. -/
theorem exec_lineageClosing_of_live {s : State} (hlive : s.live = true) (hmay : s.mayPhase 1 63 = true)
    (hon : s.contain.linOn = true) {u : Nat} (hu : u < numTiles) :
    ∃ t, exec .lineageClosing s = .next t ∧ t.contain.lastClosed = some (s.beat - 1) ∧
      (t.tile u).core.linRecs = ((s.tile u).core.closeLin (s.beat - 1) true).linRecs := by
  have hphase := OnlyChanges.atPhase s 1 0
  have hcontain : (s.atPhase 1 0).contain = s.contain := hphase .contain (by simp)
  have hfrozen : (s.atPhase 1 0).life.frozen = false := by
    rw [show (s.atPhase 1 0).life = s.life from hphase .life (by simp), State.frozen_of_live hlive]
  obtain ⟨-, hbeat, -⟩ := s.atPhase_ran 1 (c := 0) (by decide)
  obtain ⟨hrecs, hsent⟩ := State.crcSent_foldl allTiles (s.atPhase 1 0).lineageClose u
  refine ⟨_, (exec_lineageClosing s).trans (doWhen_true hmay), ?_, ?_⟩
  · rw [State.lineagePhase_of_live hfrozen, hsent, State.lineageClose_eq, hbeat, hcontain, hon]
    rfl
  · rw [State.lineagePhase_of_live hfrozen, hrecs, State.lineageClose_linRecs _ hu, hbeat, hcontain, hon,
      State.atPhase_tile]

/-- Settles O16: each node's turn of the closing touches that node alone, and the ARM_CRC counts sent after it leave the
records. -/
theorem lineageRecordCloses : Obligations.LineageRecordCloses := by
  unfold Obligations.LineageRecordCloses
  intro s u hlive hmay hon hu hrecs
  obtain ⟨t, heq, hclosed, hlin⟩ := exec_lineageClosing_of_live hlive hmay hon hu
  have hrec (b : Nat) := Core.linRec_of_linRecs hlin b
  exact ⟨t, heq, hclosed, (hrec _).trans (Core.closeLin_linRec_self _ hrecs),
    fun b hb hb64 => (hrec b).trans (Core.closeLin_linRec_before _ true hb hb64)⟩

end Sys2Proof.Machine
end


section
/-! PROOF. Taint computations: the detection that starts, the closure of its captures, the report and its acknowledgement
(R168, R170 to R172, R174, R175). -/

namespace Sys2Proof.Machine

section
variable {s : State} {d : Detection} {r : Report}

/-! ### The commands -/

theorem exec_taintComputation (s : State) : exec .taintComputation s =
    doWhen (s.ready && s.afterPatina) (fun s => (s.toCycle 5632).taintStart) s := rfl

theorem exec_taintClosure (s : State) : exec .taintClosure s = doWhen s.ready State.taintClose s := rfl

theorem exec_taint (s : State) : exec .taint s =
    doWhen (s.ready && s.time.phase == 7) (fun s => (s.toCycle 7936).taintPublish) s := rfl

theorem State.toCycle_contain (s : State) (c : Nat) : (s.toCycle c).contain = s.contain :=
  OnlyChanges.toCycle s c .contain (by simp)

/-! ### Packets to every node (R90, R98) -/

/-- A set of nodes with the same columns `c` in each of its rows is one group. -/
theorem maskGroups_of_product {v : BitVec 1152} {c : Nat} (h : ∀ r, r < 36 → rowCols v r = c) :
    maskGroups v = [] ∨ ∃ rows, maskGroups v = [(rows, c)] := by
  unfold maskGroups
  refine List.foldlRecOn (motive := fun gs => gs = [] ∨ ∃ rows, gs = [(rows, c)]) _ _ (.inl rfl) fun gs hgs r hr => ?_
  rw [h r (List.mem_range.1 hr)]
  dsimp only
  split
  · exact hgs
  · rcases hgs with rfl | ⟨rows, rfl⟩
    · exact .inr ⟨2 ^ r, rfl⟩
    · exact .inr ⟨rows ||| 2 ^ r, by simp⟩

theorem rowCols_allNodes {r : Nat} (hr : r < 36) : rowCols allNodes r = 2 ^ 32 - 1 := by
  refine Nat.eq_of_testBit_eq fun j => ?_
  rw [rowCols, allNodes, Nat.testBit_mod_two_pow, Nat.testBit_shiftRight, BitVec.testBit_toNat, BitVec.getLsbD_allOnes,
    Nat.testBit_two_pow_sub_one]
  by_cases hj : j < 32
  · simp [hj, show 32 * r + j < 1152 by omega]
  · simp [hj]

/-- Every packet that stands before the hub's channels is then sent, stamped with the time, or still queued. -/
theorem injectGo_mem (now : Word) (early : Bool) (os : List Outgoing) : ∀ sent kept : List Outgoing,
    sent ⊆ (injectGo now early sent kept os).1 ∧ kept ⊆ (injectGo now early sent kept os).2 ∧
      ∀ o ∈ os, { o with sentAt := now } ∈ (injectGo now early sent kept os).1 ∨ o ∈ (injectGo now early sent kept os).2 := by
  induction os with
  | nil => exact fun sent kept => ⟨fun _ h => h, fun _ h => List.mem_reverse.2 h, by simp⟩
  | cons o os ih =>
    intro sent kept
    unfold injectGo
    split
    · obtain ⟨hsent, hkept, hos⟩ := ih sent (o :: kept)
      exact ⟨hsent, fun p hp => hkept (List.mem_cons_of_mem _ hp),
        List.forall_mem_cons.2 ⟨.inr (hkept List.mem_cons_self), hos⟩⟩
    · obtain ⟨hsent, hkept, hos⟩ := ih (sent ++ [{ o with sentAt := now }]) kept
      exact ⟨fun p hp => hsent (List.mem_append_left _ hp), hkept,
        List.forall_mem_cons.2 ⟨.inl (hsent (by simp)), hos⟩⟩

/-- A queued packet is still there after the injection, but for its time. -/
theorem State.has_inject {o : Outgoing} (h : o ∈ s.arm.queue) :
    s.inject.has o ∨ s.inject.has { o with sentAt := s.time.time } := by
  unfold State.inject
  split
  · exact .inl (List.mem_append_right _ h)
  · obtain ⟨-, -, hos⟩ := injectGo_mem s.time.time
      (s.arm.lastChange != 0 && decide (s.time.time.toNat < s.arm.lastChange.toNat + 64)) s.arm.queue s.arm.sent []
    exact (hos o h).symm.imp (List.mem_append_right _) (List.mem_append_left _)

/-- The packet of an operation to a set of nodes. -/
def State.outgoing (s : State) (q : SendReq) (dests : BitVec 1152) : Outgoing :=
  { vc := q.vc, op := BitVec.ofNat 8 q.op, operand := q.operand, mapgen := s.map.hub.gen, data := q.data
    dests, left := dests, held := 0, xid := s.hubXid q.vc dests, sentAt := s.time.time, resends := []
    timers := [], late := false, order := q.order }

/-- The packet stands last in the hub's queue. -/
def State.packetQueued (s : State) (q : SendReq) (dests : BitVec 1152) : State :=
  { s with arm.queue := s.arm.queue ++ [s.outgoing q dests], arm.xid := s.hubXid q.vc dests + 1
           arm.lastSent := noteXid s.arm.lastSent q.vc dests (s.hubXid q.vc dests) }

theorem State.hubPacket_eq (s : State) (q : SendReq) (dests : BitVec 1152) :
    s.hubPacket q dests = (s.packetQueued q dests).inject := rfl

/-- The hub has the packet that it issues. -/
theorem State.has_hubPacket (s : State) (q : SendReq) (dests : BitVec 1152) :
    ∃ p, (s.hubPacket q dests).has p ∧ p.op = BitVec.ofNat 8 q.op ∧ p.dests = dests ∧ p.operand = q.operand := by
  have hmem : s.outgoing q dests ∈ (s.packetQueued q dests).arm.queue :=
    List.mem_append_right _ (List.mem_singleton_self _)
  rw [State.hubPacket_eq]
  rcases State.has_inject hmem with h | h
  · exact ⟨_, h, rfl, rfl, rfl⟩
  · exact ⟨_, h, rfl, rfl, rfl⟩

theorem State.hubSend_allNodes (s : State) {q : SendReq} (h : q.dests = allNodes) : s.hubSend q = s.hubPacket q allNodes := by
  unfold State.hubSend
  rw [h]
  rcases maskGroups_of_product fun r hr => rowCols_allNodes hr with hg | ⟨rows, hg⟩ <;> rw [hg]

/-! ### The oldest detection starts (R168) -/

/-- LINEAGE_QUERY of a detection: its report's number and its first beat. -/
def lineageQuery (id : BitVec 16) (d : Detection) : SendReq :=
  { op := 0x20, vc := 2, dests := allNodes, operand := opack [(64, 16, id.toNat), (0, 51, d.b0)] }

theorem ofld_lineageQuery (id : BitVec 16) (d : Detection) :
    ofld (lineageQuery id d).operand 79 64 = id.toNat ∧ ofld (lineageQuery id d).operand 50 0 = d.b0 % 2 ^ 51 := by
  have htest (hi lo j : Nat) (hhi : hi < 96) : (ofld (lineageQuery id d).operand hi lo).testBit j =
      (decide (j < hi + 1 - lo) && ((decide (64 ≤ lo + j) && (decide (lo + j - 64 < 16) && id.toNat.testBit (lo + j - 64))) ||
        (decide (lo + j < 51) && d.b0.testBit (lo + j)))) := by
    simp only [ofld, lineageQuery, opack, BitVec.toNat_ofNat, Nat.testBit_mod_two_pow, Nat.testBit_shiftRight,
      testBit_pack_cons, packNat_nil, Nat.zero_testBit, Nat.zero_le, decide_true, Bool.true_and, Nat.sub_zero, Bool.or_false]
    by_cases hj : j < hi + 1 - lo
    · simp [hj, show lo + j < 96 by omega]
    · simp [hj]
  constructor
  · refine Nat.eq_of_testBit_eq fun j => ?_
    rw [htest 79 64 j (by decide)]
    by_cases hj : j < 16
    · simp [hj, show ¬ 64 + j < 51 by omega]
    · have hid : id.toNat.testBit j = false := Nat.testBit_lt_two_pow (id.isLt.trans_le (Nat.pow_le_pow_right (by decide) (by omega)))
      simp [hj, hid]
  · refine Nat.eq_of_testBit_eq fun j => ?_
    rw [htest 50 0 j (by decide), Nat.testBit_mod_two_pow]
    by_cases hj : j < 51
    · simp [hj, show ¬ 64 ≤ j by omega]
    · simp [hj]

/-- The detection is taken from the queue, and its report gets its number. -/
def State.detectionTaken (s : State) (d : Detection) (rest : List Detection) : State :=
  { s with contain.queue := rest, contain.running := some d, contain.nextId := nextGen s.contain.nextId }

theorem State.taintStart_of_queue {rest : List Detection} (hrun : s.contain.running = none)
    (hqueue : s.contain.queue = d :: rest) :
    s.taintStart = (s.detectionTaken d rest).hubPacket (lineageQuery s.contain.nextId d) allNodes := by
  unfold State.taintStart
  rw [hrun, hqueue]
  exact State.hubSend_allNodes (s.detectionTaken d rest) (q := lineageQuery s.contain.nextId d) rfl

theorem State.taintStart_of_idle (h : s.contain.running ≠ none ∨ s.contain.queue = []) : s.taintStart = s := by
  unfold State.taintStart
  split
  next hrun hqueue => exact h.elim (absurd hrun) fun hnil => by rw [hnil] at hqueue; cases hqueue
  · rfl

theorem exec_taintComputation_starts {rest : List Detection} (hready : s.ready = true) (hafter : s.afterPatina = true)
    (hrun : s.contain.running = none) (hqueue : s.contain.queue = d :: rest) :
    ∃ t p, exec .taintComputation s = .next t ∧ OnlyChanges [.contain, .arm, .time] s t ∧ t.contain.running = some d ∧
      t.contain.queue = rest ∧ t.contain.nextId = nextGen s.contain.nextId ∧ t.has p ∧ p.op = 0x20 ∧ p.dests = allNodes ∧
      ofld p.operand 79 64 = s.contain.nextId.toNat ∧ ofld p.operand 50 0 = d.b0 % 2 ^ 51 := by
  have hcontain := s.toCycle_contain 5632
  have hcycle := OnlyChanges.toCycle s 5632
  have heq := (exec_taintComputation s).trans (doWhen_true (by rw [hready, hafter]; rfl))
  rw [State.taintStart_of_queue (d := d) (rest := rest) (by rw [hcontain, hrun]) (by rw [hcontain, hqueue]), hcontain] at heq
  generalize s.toCycle 5632 = c at hcontain hcycle heq
  have htaken : OnlyChanges [.contain] c (c.detectionTaken d rest) := fun p hp => by cases p <;> first | rfl | simp at hp
  have hsent := OnlyChanges.hubPacket (c.detectionTaken d rest) (lineageQuery s.contain.nextId d) allNodes
  obtain ⟨p, hp, hop, hdests, hoperand⟩ :=
    (c.detectionTaken d rest).has_hubPacket (lineageQuery s.contain.nextId d) allNodes
  have hafter : ((c.detectionTaken d rest).hubPacket (lineageQuery s.contain.nextId d) allNodes).contain =
    (c.detectionTaken d rest).contain := hsent .contain (by simp)
  obtain ⟨hid, hb0⟩ := ofld_lineageQuery s.contain.nextId d
  refine ⟨_, p, heq, ((hcycle.mono (by simp)).trans (htaken.mono (by simp))).trans (hsent.mono (by simp)), ?_, ?_, ?_, hp,
    hop, hdests, by rw [hoperand, hid], by rw [hoperand, hb0]⟩
  · rw [hafter]; rfl
  · rw [hafter]; rfl
  · rw [hafter, ← hcontain]; rfl

theorem exec_taintComputation_of_idle (hready : s.ready = true) (hafter : s.afterPatina = true)
    (h : s.contain.running ≠ none ∨ s.contain.queue = []) : exec .taintComputation s = .next (s.toCycle 5632) := by
  rw [exec_taintComputation, doWhen_true (by rw [hready, hafter]; rfl),
    State.taintStart_of_idle (by rwa [s.toCycle_contain])]

/-! ### The closure (R170 to R172) -/

/-- The report lists tile `t` if the closure reached it, from its first tainted beat on. -/
def State.markTainted (s : State) (d : Detection) (cmin : Nat) (f : Firsts) (m : Tbl (Option Tainted)) (t : Nat) :
    Tbl (Option Tainted) :=
  match firstBeat d f t with
  | some fb => tset none m t (some (s.taintedTile d cmin t fb))
  | none => m

theorem State.taintReport_tiles (s : State) (d : Detection) (id : BitVec 16) : (s.taintReport d id).tiles =
    allTiles.foldl (s.markTainted d (s.taintReport d id).cmin (s.taintReport d id).first) [] := by
  obtain ⟨l, hl⟩ := exists_eq_allTiles
  rw [State.taintReport, hl]
  rfl

theorem State.markTainted_ne (s : State) (d : Detection) (cmin : Nat) (f : Firsts) (m : Tbl (Option Tainted)) {t u : Nat}
    (h : u ≠ t) : tget none (s.markTainted d cmin f m t) u = tget none m u := by
  unfold State.markTainted
  split
  · exact tget_tset_ne _ _ _ _ h
  · rfl

/-- The detecting tile is tainted from the detection's first beat on, whatever the closure reaches. -/
theorem State.taintReport_detecting (s : State) {d : Detection} (id : BitVec 16) (hd : d.tile < numTiles) :
    ∃ x, tget none (s.taintReport d id).tiles d.tile = some x ∧ x.f = d.b0 := by
  generalize hr : s.taintReport d id = r
  have hfirst : firstBeat d r.first d.tile = some d.b0 := if_pos (beq_self_eq_true _)
  obtain ⟨m, -, hm⟩ := foldl_read_of_mem (f := s.markTainted d r.cmin r.first) (read := fun m => tget none m d.tile)
    (fun m t ht => s.markTainted_ne d r.cmin r.first m ht.symm) allTiles_nodup (mem_allTiles hd) []
  refine ⟨s.taintedTile d r.cmin d.tile d.b0, ?_, rfl⟩
  rw [← hr, State.taintReport_tiles, hr]
  refine hm.trans ?_
  rw [State.markTainted, hfirst]
  exact tget_tset_self _ _ _ _

/-- A report waits to be published, and no computation runs. -/
def State.reportFormed (s : State) (r : Report) : State :=
  { s with contain.ready := s.contain.ready ++ [r], contain.running := none }

/-- A node's capture is dropped. -/
def State.captureDropped (s : State) (t : Nat) : State := s.modCore t fun c => { c with captured := none }

theorem State.taintClose_of_captured (hrun : s.contain.running = some d) (hall : s.allCaptured = true) :
    ∃ id, s.taintClose = allTiles.foldl State.captureDropped (s.reportFormed (s.taintReport d id)) := by
  unfold State.taintClose
  rw [hrun]
  dsimp only
  rw [if_pos hall]
  exact ⟨_, rfl⟩

theorem exec_taintClosure_of_captured (hready : s.ready = true) (hrun : s.contain.running = some d)
    (hall : s.allCaptured = true) (hd : d.tile < numTiles) :
    ∃ t r, exec .taintClosure s = .next t ∧ OnlyChanges [.contain, .tiles] s t ∧ t.contain.running = none ∧
      t.contain.ready = s.contain.ready ++ [r] ∧ r.det = d ∧ (∃ x, tget none r.tiles d.tile = some x ∧ x.f = d.b0) ∧
      ∀ u, u < numTiles → (t.tile u).core = { (s.tile u).core with captured := none } := by
  obtain ⟨id, heq⟩ := State.taintClose_of_captured hrun hall
  have hformed : OnlyChanges [.contain] s (s.reportFormed (s.taintReport d id)) :=
    fun p hp => by cases p <;> first | rfl | simp at hp
  have hdrop := OnlyChanges.foldl State.captureDropped (fun u t => OnlyChanges.modCore u t _) allTiles
    (s.reportFormed (s.taintReport d id))
  have hcontain := hdrop .contain (by simp)
  refine ⟨_, s.taintReport d id, (exec_taintClosure s).trans ((doWhen_true hready).trans (congrArg _ heq)),
    (hformed.mono (by simp)).trans (hdrop.mono (by simp)), (congrArg (·.running) hcontain).trans rfl,
    (congrArg (·.ready) hcontain).trans rfl, rfl, s.taintReport_detecting id hd, fun u hu => ?_⟩
  obtain ⟨s', htile, hfold⟩ := State.tile_foldl_allTiles (f := State.captureDropped) (fun s t => OnlyTiles.modCore s t _) hu
    (s.reportFormed (s.taintReport d id))
  rw [hfold, State.captureDropped, State.tile_modCore_self, htile]
  rfl

theorem State.taintClose_of_uncaptured (h : s.allCaptured = false) : s.taintClose = s := by
  unfold State.taintClose
  split
  · rw [h]
    rfl
  · rfl

/-! ### Digest slots of a tainted rectangle (Table 12.3) -/

theorem State.rectTiles_of_map {s t : State} (h : t.map = s.map) (x : Rect) : t.rectTiles x = s.rectTiles x := by
  simp only [State.rectTiles, State.phys, h]

theorem OnlyChanges.modDslot (s : State) (k : Nat) (f : DigSlot → DigSlot) : OnlyChanges [.digest] s (s.modDslot k f) :=
  fun p hp => by cases p <;> first | rfl | simp at hp

/-- A slot fails: all of the digest part that changes is the slot itself. -/
theorem State.digestFail_eq (s : State) (k reason tile : Nat) : ∃ t : State, OnlyChanges [.ev, .regs, .ord] s t ∧
    s.digestFail k reason tile = t.modDslot k fun d => { d with state := 6, reason := reason, order := none } :=
  ⟨_, (((OnlyChanges.raiseHub s _ _ _).mono (by simp)).trans ((OnlyChanges.bump _ _ _).mono (by simp))).trans
    ((OnlyChanges.finishOpt _ (s.dslot k).order _).mono (by simp)), rfl⟩

theorem OnlyChanges.digestFail (s : State) (k reason tile : Nat) :
    OnlyChanges [.ev, .regs, .ord, .digest] s (s.digestFail k reason tile) := by
  obtain ⟨t, ht, heq⟩ := s.digestFail_eq k reason tile
  rw [heq]
  exact (ht.mono (by simp)).trans ((OnlyChanges.modDslot t k _).mono (by simp))

theorem State.dslot_digestFail_self (s : State) (k reason tile : Nat) :
    ((s.digestFail k reason tile).dslot k).state = 6 ∧ ((s.digestFail k reason tile).dslot k).reason = reason := by
  obtain ⟨t, -, heq⟩ := s.digestFail_eq k reason tile
  rw [heq, State.dslot_modDslot_self]
  exact ⟨rfl, rfl⟩

theorem State.dslot_digestFail_ne (s : State) {k j : Nat} (reason tile : Nat) (h : j ≠ k) :
    (s.digestFail k reason tile).dslot j = s.dslot j := by
  obtain ⟨t, ht, heq⟩ := s.digestFail_eq k reason tile
  rw [heq, State.dslot_modDslot_ne t _ h]
  simp only [State.dslot, show t.digest = s.digest from ht .digest (by simp)]

/-- Slot `k` meets a taint report. -/
def State.taintSlot (tainted : Nat → Bool) (s : State) (k : Nat) : State :=
  ((s.rectTiles (s.dslot k).rect).find? fun e => tainted e.2).elim s fun e =>
    if (s.dslot k).running then s.digestFail k 2 e.2 else s

theorem State.digestTaint_eq (s : State) (tainted : Nat → Bool) :
    s.digestTaint tainted = (List.range 16).foldl (State.taintSlot tainted) s := by
  unfold State.digestTaint
  refine List.foldl_ext _ _ s fun s k _ => ?_
  unfold State.taintSlot
  dsimp only
  generalize (s.rectTiles (s.dslot k).rect).find? (fun e => tainted e.2) = o
  cases o <;> rfl

/-- What meets a taint report is left alone, or it is a running slot that fails TAINTED. -/
theorem State.taintSlot_cases (tainted : Nat → Bool) (s : State) (k : Nat) :
    s.taintSlot tainted k = s ∨ ∃ tile, s.taintSlot tainted k = s.digestFail k 2 tile := by
  unfold State.taintSlot
  generalize (s.rectTiles (s.dslot k).rect).find? (fun e => tainted e.2) = o
  cases o with
  | none => exact .inl rfl
  | some e =>
    rw [Option.elim_some]
    split
    · exact .inr ⟨_, rfl⟩
    · exact .inl rfl

theorem OnlyChanges.taintSlot (tainted : Nat → Bool) (s : State) (k : Nat) :
    OnlyChanges [.ev, .regs, .ord, .digest] s (s.taintSlot tainted k) := by
  rcases s.taintSlot_cases tainted k with h | ⟨tile, h⟩ <;> rw [h]
  · exact OnlyChanges.refl _ s
  · exact OnlyChanges.digestFail s k 2 tile

theorem KeepsReports.taintSlot (tainted : Nat → Bool) (s : State) (k : Nat) : KeepsReports s (s.taintSlot tainted k) := by
  rcases s.taintSlot_cases tainted k with h | ⟨tile, h⟩ <;> rw [h]
  · exact .refl s
  · exact .digestFail s k 2 tile

theorem State.dslot_taintSlot_ne (tainted : Nat → Bool) (s : State) {k j : Nat} (hj : j ≠ k) :
    (s.taintSlot tainted k).dslot j = s.dslot j := by
  rcases s.taintSlot_cases tainted k with h | ⟨tile, h⟩ <;> rw [h]
  exact s.dslot_digestFail_ne 2 tile hj

/-- A running slot with a tainted tile in its rectangle fails TAINTED. -/
theorem State.dslot_taintSlot_self {tainted : Nat → Bool} {k : Nat} {e : Nat × Nat} (hrun : (s.dslot k).running = true)
    (he : e ∈ s.rectTiles (s.dslot k).rect) (htaint : tainted e.2 = true) :
    ((s.taintSlot tainted k).dslot k).state = 6 ∧ ((s.taintSlot tainted k).dslot k).reason = 2 := by
  obtain ⟨e', he'⟩ := Option.isSome_iff_exists.1 (List.find?_isSome (p := fun e => tainted e.2) |>.2 ⟨e, he, htaint⟩)
  have heq : s.taintSlot tainted k = s.digestFail k 2 e'.2 := by
    unfold State.taintSlot
    rw [he']
    exact if_pos hrun
  rw [heq]
  exact s.dslot_digestFail_self k 2 e'.2

theorem OnlyChanges.digestTaint (s : State) (tainted : Nat → Bool) :
    OnlyChanges [.ev, .regs, .ord, .digest] s (s.digestTaint tainted) := by
  rw [State.digestTaint_eq]
  exact OnlyChanges.foldl _ (OnlyChanges.taintSlot tainted) _ s

theorem KeepsReports.digestTaint (s : State) (tainted : Nat → Bool) : KeepsReports s (s.digestTaint tainted) := by
  rw [State.digestTaint_eq]
  exact .foldl _ (KeepsReports.taintSlot tainted) _ s

theorem State.dslot_digestTaint {tainted : Nat → Bool} {k : Nat} (hk : k < 16) {e : Nat × Nat}
    (hrun : (s.dslot k).running = true) (he : e ∈ s.rectTiles (s.dslot k).rect) (htaint : tainted e.2 = true) :
    ((s.digestTaint tainted).dslot k).state = 6 ∧ ((s.digestTaint tainted).dslot k).reason = 2 := by
  have hother (s : State) (j : Nat) (hj : j ≠ k) :
      ((s.taintSlot tainted j).dslot k, (s.taintSlot tainted j).map) = (s.dslot k, s.map) := by
    rw [State.dslot_taintSlot_ne tainted s hj.symm,
      show (s.taintSlot tainted j).map = s.map from OnlyChanges.taintSlot tainted s j .map (by simp)]
  obtain ⟨s', hread, hfold⟩ := foldl_read_of_mem (read := fun s : State => (s.dslot k, s.map)) hother List.nodup_range
    (List.mem_range.2 hk) s
  obtain ⟨hslot, hmap⟩ := Prod.mk.inj hread
  obtain ⟨hlast, -⟩ := Prod.mk.inj hfold
  rw [State.digestTaint_eq, hlast]
  exact State.dslot_taintSlot_self (e := e) ((congrArg _ hslot).trans hrun) (by rwa [hslot, State.rectTiles_of_map hmap]) htaint

/-! ### Publishing (R174, R175) -/

/-- The report stands in the page and waits for its acknowledgement. -/
def State.reportPublished (s : State) (r : Report) (rest : List Report) : State :=
  { s with contain.ready := rest, contain.report := some r, contain.waiting := true
           contain.reportCast := s.castBefore r.det.b0 }

/-- A report whose window was exceeded is counted. -/
def State.exceededCounted (s : State) (r : Report) : State := if r.exceeded then s.bump Reg.containExceeded else s

theorem State.taintPublish_of_ready {rest : List Report} (hwait : s.contain.waiting = false)
    (hreports : s.contain.ready = r :: rest) : s.taintPublish =
      ((((s.reportPublished r rest).exceededCounted r).raiseDetection r.det 0x0040 r.sum).digestTaint r.has) := by
  unfold State.taintPublish
  rw [hwait, hreports]
  rfl

theorem State.taintPublish_of_waiting (h : s.contain.waiting = true) : s.taintPublish = s := by
  unfold State.taintPublish
  rw [h]

theorem OnlyChanges.exceededCounted (s : State) (r : Report) : OnlyChanges [.regs] s (s.exceededCounted r) :=
  .ite _ (OnlyChanges.bump s _ _) (.refl _ s)

theorem OnlyChanges.raiseDetection (s : State) (d : Detection) (code : Nat) (detail : Word) :
    OnlyChanges [.ev] s (s.raiseDetection d code detail) := OnlyChanges.raise s _

theorem State.mem_raiseDetection (s : State) (d : Detection) (code : Nat) (detail : Word) :
    ∃ x ∈ (s.raiseDetection d code detail).ev.queue, x.code = BitVec.ofNat 16 code ∧ x.detail = detail := by
  refine ⟨_, List.mem_append_right _ (List.mem_singleton_self _), ?_⟩
  cases d.cmd <;> exact ⟨rfl, rfl⟩

theorem exec_taint_of_ready {rest : List Report} (hready : s.ready = true) (hphase : s.time.phase = 7)
    (hwait : s.contain.waiting = false) (hreports : s.contain.ready = r :: rest) :
    ∃ t, exec .taint s = .next t ∧ t.contain.report = some r ∧ t.contain.waiting = true ∧ t.contain.ready = rest ∧
      (∃ x ∈ t.ev.queue, x.code = 0x40 ∧ x.detail = r.sum) ∧
      (∀ k e, k < 16 → (s.dslot k).running = true → e ∈ s.rectTiles (s.dslot k).rect → r.has e.2 = true →
        (t.dslot k).state = 6 ∧ (t.dslot k).reason = 2) := by
  have hcontain := s.toCycle_contain 7936
  have hcycle := OnlyChanges.toCycle s 7936
  have heq := (exec_taint s).trans (doWhen_true (by rw [hready, hphase]; rfl))
  rw [State.taintPublish_of_ready (r := r) (rest := rest) (by rw [hcontain, hwait]) (by rw [hcontain, hreports])] at heq
  generalize s.toCycle 7936 = c at hcontain hcycle heq
  have hpublished : OnlyChanges [.contain] c (c.reportPublished r rest) := fun p hp => by cases p <;> first | rfl | simp at hp
  have hcounted := OnlyChanges.exceededCounted (c.reportPublished r rest) r
  have hraised := OnlyChanges.raiseDetection ((c.reportPublished r rest).exceededCounted r) r.det 0x0040 r.sum
  obtain ⟨x, hx, hcode, hdetail⟩ :=
    State.mem_raiseDetection ((c.reportPublished r rest).exceededCounted r) r.det 0x0040 r.sum
  have hfront : OnlyChanges [.time, .arm, .contain, .regs, .ev] s _ := ((((hcycle.mono (by simp)).trans
    (hpublished.mono (by simp))).trans (hcounted.mono (by simp))).trans (hraised.mono (by simp)))
  have hin : (((c.reportPublished r rest).exceededCounted r).raiseDetection r.det 0x0040 r.sum).contain =
    (c.reportPublished r rest).contain := (hraised .contain (by simp)).trans (hcounted .contain (by simp))
  generalize ((c.reportPublished r rest).exceededCounted r).raiseDetection r.det 0x0040 r.sum = q at heq hx hfront hin
  have htaint : OnlyChanges [.ev, .regs, .ord, .digest] q (q.digestTaint r.has) := OnlyChanges.digestTaint q r.has
  have hqueue : q.ev.queue ⊆ (q.digestTaint r.has).ev.queue := by
    obtain ⟨-, -, -, hqueue⟩ := KeepsReports.digestTaint q r.has
    exact hqueue
  have hend : (q.digestTaint r.has).contain = (c.reportPublished r rest).contain := (htaint .contain (by simp)).trans hin
  have hslot (k : Nat) : q.dslot k = s.dslot k := by
    simp only [State.dslot, show q.digest = s.digest from hfront .digest (by simp)]
  have hmap : q.map = s.map := hfront .map (by simp)
  refine ⟨_, heq, by rw [hend]; rfl, by rw [hend]; rfl, by rw [hend]; rfl, ⟨x, hqueue hx, hcode, hdetail⟩,
    fun k e hk hrun he hhas => ?_⟩
  exact State.dslot_digestTaint hk (by rwa [hslot]) (by rwa [hslot, State.rectTiles_of_map hmap]) hhas

theorem exec_taint_of_waiting (hready : s.ready = true) (hphase : s.time.phase = 7) (hwait : s.contain.waiting = true) :
    exec .taint s = .next (s.toCycle 7936) := by
  rw [exec_taint, doWhen_true (by rw [hready, hphase]; rfl),
    State.taintPublish_of_waiting (by rw [s.toCycle_contain, hwait])]

/-! ### The acknowledgement (R175) -/

theorem openReg_reportAck : OpenReg 0x006 0x140 ⟨"REPORT_ACK", 0x140, 8, 1, .wo, 0, 0xFFFF⟩ :=
  ⟨by decide, by decide, fun _ => rfl⟩

theorem exec_reportAck {m : Requester} (v : Word) (h : s.mayUse m 0x006 0x140) :
    exec (.reportAck m v) s = .next (s.reportAck (v &&& 0xFFFF)) := by
  obtain ⟨hpower, hlive, hmay⟩ := h
  calc exec (.reportAck m v) s = writeRow m 0x006 0x140 8 v s := rfl
    _ = _ := by
      rw [writeRow_of_powered _ _ _ _ _ hpower, State.writeAccess_writeOnly v openReg_reportAck rfl hmay (.inl hlive)]
      rfl

theorem fld_reportAck (v : Word) : fld (v &&& 0xFFFF) 15 0 = fld v 15 0 := by
  rw [← masked_zero, fld_masked _ _ (by decide) (by decide)]

theorem State.reportAck_of_report (hreport : s.contain.report = some r) (v : Word) :
    s.reportAck v = if fld v 15 0 = r.id.toNat then { s with contain.waiting := false } else s := by
  unfold State.reportAck
  rw [hreport]
  simp only [beq_iff_eq]

theorem State.reportAck_of_none (hreport : s.contain.report = none) (v : Word) : s.reportAck v = s := by
  unfold State.reportAck
  rw [hreport]

end

/-! ### The obligation -/

/-- Settles O47, command by command: the query goes to every node in one packet, the closure marks the detecting tile
whatever it reaches, and publishing fails the digest slots slot by slot. -/
theorem taintComputations : Obligations.TaintComputations := by
  unfold Obligations.TaintComputations
  refine ⟨fun d rest s hready hafter hrun hqueue => exec_taintComputation_starts hready hafter hrun hqueue,
    fun s hready hafter h => exec_taintComputation_of_idle hready hafter h, fun s hafter => ?_,
    fun d s hready hrun hall hd => exec_taintClosure_of_captured hready hrun hall hd, fun s hready hall => ?_,
    fun r rest s hready hphase hwait hreports => exec_taint_of_ready hready hphase hwait hreports,
    fun s hready hphase hwait => exec_taint_of_waiting hready hphase hwait, fun s hphase => ?_,
    fun m v s hmay => ⟨fun r hreport hid => ?_, fun r hreport hid => ?_, fun hreport => ?_⟩⟩
  · rw [exec_taintComputation, doWhen_false (by rw [hafter, Bool.and_false])]
  · rw [exec_taintClosure, doWhen_true hready, State.taintClose_of_uncaptured hall]
  · rw [exec_taint, doWhen_false (by simp [hphase])]
  · rw [exec_reportAck v hmay, State.reportAck_of_report hreport, fld_reportAck, if_pos hid]
  · rw [exec_reportAck v hmay, State.reportAck_of_report hreport, fld_reportAck, if_neg hid]
  · rw [exec_reportAck v hmay, State.reportAck_of_none hreport]

end Sys2Proof.Machine
end


section
/-! PROOF. Transfers of the main fabric: the sending NI, the node that receives, FENCED acknowledgements and completions
(R123, R128, R164, R194, R223, R258 to R262). -/

namespace Sys2Proof.Machine

section
variable {ps : List Part} {us : List Nat} {s t : State} {u : Nat} {x : Xfer}

/-! ### The blocks of a transfer are read (R164) -/

/-- A block of a transfer is read by the engine that sends it on. -/
def State.sendRead (u : Nat) (s : State) (b : BlockMove) : State := (s.sendLineage u b).blockRead u b.src .clean

/-- Every block of a transfer is read. -/
def State.sendReads (s : State) (u : Nat) (x : Xfer) : State := x.blocks.foldl (State.sendRead u) s

theorem State.sendNow_eq (s : State) (u : Nat) (x : Xfer) : s.sendNow u x = (s.sendReads u x).resolve u x := rfl

/-- The tile that sends a transfer, and the tiles in which its blocks lie. -/
abbrev sendTiles (u : Nat) (x : Xfer) : List Nat := u :: x.blocks.map fun b => blockTile b.src

theorem Reports.sendRead {b : BlockMove} (h : Reports ps us s t) (hps : readParts ⊆ ps) (hu : u ∈ us)
    (hb : blockTile b.src ∈ us) : Reports ps us s (t.sendRead u b) := by
  have hlineage : Reports ps us s (t.sendLineage u b) := by
    unfold State.sendLineage
    cases hsrc : b.src with
    | sram v i => exact h
    | slice v l k => exact h.lineageServe (hps (by simp)) (by rwa [hsrc] at hb)
  exact hlineage.blockRead (fun p hp => hps (by simp at hp ⊢; tauto)) (.inr fun p hp => hps (List.mem_cons_of_mem _ hp)) hu hb

theorem Reports.sendReads (s : State) (u : Nat) (x : Xfer) : Reports readParts (sendTiles u x) s (s.sendReads u x) :=
  List.foldlRecOn (motive := Reports readParts (sendTiles u x) s) x.blocks _ (.refl ..) fun _ h b hb =>
    h.sendRead (fun _ hp => hp) (by simp) (List.mem_cons_of_mem _ (List.mem_map_of_mem hb))

/-! ### What the NI resolves a transfer by (R194, R261) -/

/-- The NI of tile `u` has the same map, transfers and pairs in two states, and its stream the same command. -/
structure SameNi (u : Nat) (s t : State) : Prop where
  ni : (t.tile u).core.ni = (s.tile u).core.ni
  curIds : (t.tile u).core.curIds = (s.tile u).core.curIds
  stalled : (t.tile u).core.stalled = (s.tile u).core.stalled
  xfers : (t.tile u).core.xfers = (s.tile u).core.xfers
  fencedDone : (t.tile u).core.fencedDone = (s.tile u).core.fencedDone
  maq : (t.tile u).maq = (s.tile u).maq

theorem Reports.sameNi (h : Reports ps us s t) : SameNi u s t where
  ni := congrArg (·.core.ni) (h.work u)
  curIds := congrArg (·.core.curIds) (h.work u)
  stalled := congrArg (·.core.stalled) (h.work u)
  xfers := congrArg (·.core.xfers) (h.work u)
  fencedDone := congrArg (·.core.fencedDone) (h.work u)
  maq := congrArg (·.maq) (h.work u)

/-- A destination is held. -/
def NiMap.holds (ni : NiMap) (x : Xfer) : Prop := ∃ l ∈ x.dests, ni.held l = true

/-- The destinations that the NI has not fenced, and the completions of the others for the command `ids`. -/
def NiMap.openDests (ni : NiMap) (x : Xfer) : List Nat := x.dests.filter fun l => !ni.fenced (ni.phys l)
def NiMap.fencedEnds (ni : NiMap) (ids : Option (BitVec 16 × BitVec 16 × BitVec 24)) (x : Xfer) :
    List (Option (BitVec 16 × BitVec 16 × BitVec 24) × Nat × Nat) :=
  (x.dests.filter fun l => ni.fenced (ni.phys l)).map fun l => (ids, x.id, l)

/-- The transfer waits whole behind a hold. -/
def State.waitsWhole (s : State) (u : Nat) (x : Xfer) : State :=
  s.modCore u fun c => { c with stalled := c.stalled ++ [(wholeWait, (s.tile u).core.ni.gen.toNat, x)] }

/-- The fenced destinations of a transfer complete FENCED. -/
def State.endsFenced (s : State) (u : Nat) (x : Xfer) : State :=
  s.modCore u fun c => { c with fencedDone := c.fencedDone ++ (s.tile u).core.ni.fencedEnds c.curIds x }

theorem State.resolve_of_held (h : (s.tile u).core.ni.holds x) : s.resolve u x = (s.waitsWhole u x).niRing u .wait 3 :=
  if_pos (List.any_eq_true.2 h)

theorem State.resolve_of_unheld (h : ¬ (s.tile u).core.ni.holds x) : s.resolve u x =
    if ((s.tile u).core.ni.openDests x).isEmpty && !x.toHost && x.toChip.isNone then s.endsFenced u x
    else (s.endsFenced u x).formHeader u { x with dests := (s.tile u).core.ni.openDests x } x.dests :=
  if_neg fun hany => h (List.any_eq_true.1 hany)

theorem State.tile_niRing (s : State) (u : Nat) (k : HangKind) (cause v : Nat) : (s.niRing u k cause).tile v = s.tile v :=
  State.tile_of_tiles (OnlyChanges.unitRing s u uNI k cause .tiles (by simp)) v

theorem State.endsFenced_core (s : State) (u : Nat) (x : Xfer) : ((s.endsFenced u x).tile u).core = { (s.tile u).core with
    fencedDone := (s.tile u).core.fencedDone ++ (s.tile u).core.ni.fencedEnds (s.tile u).core.curIds x } := by
  unfold State.endsFenced
  rw [State.tile_modCore_self]

theorem OnlyTiles.endsFenced (s : State) (u : Nat) (x : Xfer) : OnlyTiles [u] s (s.endsFenced u x) :=
  OnlyTiles.modCore s u _

/-! ### A header is formed (R164, R194, R258) -/

/-- The transfer under its header: the generation of the NI's map, and the hosts paired with its destinations. -/
def State.headed (s : State) (u : Nat) (x : Xfer) : Xfer :=
  { x with mgen := (s.tile u).core.ni.gen.setWidth 8, hosts := s.pairedHosts u x.dests
           subscribed := !(s.pairedHosts u x.dests).isEmpty }

/-- What the tile accounts for a transfer that leaves. -/
def State.headerSent (s : State) (u : Nat) (x : Xfer) : State :=
  let s := ((s.toHostMem x).count u 5 (xferBytes x)).xferRing u x.toHost .begin_
  if x.toChip.isSome then s.countLink x.link fun l => { l with tx := l.tx + BitVec.ofNat 48 (xferBytes x) } else s

theorem State.formHeader_eq (s : State) (u : Nat) (x : Xfer) (named : List Nat) : s.formHeader u x named =
    ((s.lineageSend u { s.headed u x with dests := named }).modCore u fun c =>
      { c with xfers := c.xfers ++ [s.headed u x] }).headerSent u (s.headed u x) := rfl

theorem State.headed_of_sameNi (h : SameNi u s t) (x : Xfer) : t.headed u x = s.headed u x := by
  simp only [State.headed, State.pairedHosts, h.ni, h.maq]

theorem Reports.lineageSend (h : Reports ps us s t) (hps : .tiles ∈ ps) (hus : u ∈ us) :
    Reports ps us s (t.lineageSend u x) := by
  unfold State.lineageSend
  exact .ite (fun _ => h) fun _ => h.lineage hps hus

theorem OnlyChanges.xferRing (s : State) (u : Nat) (host : Bool) (k : HangKind) :
    OnlyChanges [.dbg, .free, .time] s (s.xferRing u host k) := by
  unfold State.xferRing
  exact (OnlyChanges.ite host (OnlyChanges.unitRing s u uDMA k 0) (OnlyChanges.refl _ s)).trans
    (OnlyChanges.unitRing _ u uNI k 0)

/-- The parts that change as a header is formed. -/
abbrev headerParts : List Part := [.tiles, .hostMem, .links, .dbg, .free, .time]

theorem Reports.headerSent (h : Reports headerParts us s t) (hus : u ∈ us) :
    Reports headerParts us s (t.headerSent u x) := by
  have hmem : Reports headerParts us s (t.toHostMem x) := by
    unfold State.toHostMem
    exact .ite (fun _ => h.other (OnlyChanges.hostWrite t _ _) (by simp) (by simp) (by simp)) fun _ => h
  have hring := (hmem.count (i := 5) (n := xferBytes x) (by simp) hus).other (OnlyChanges.xferRing _ u x.toHost .begin_)
    (by simp) (by simp) (by simp)
  unfold State.headerSent
  exact .ite (fun _ => hring.other (OnlyChanges.countLink _ _ _) (by simp) (by simp) (by simp)) fun _ => hring

/-- A transfer under its header is under way, and of the NI's work nothing else changes. -/
theorem State.formHeader_spec (s : State) (u : Nat) (x : Xfer) (named : List Nat) :
    OnlyTiles [u] s (s.formHeader u x named) ∧
      ((s.formHeader u x named).tile u).core.xfers = (s.tile u).core.xfers ++ [s.headed u x] ∧
      ((s.formHeader u x named).tile u).core.fencedDone = (s.tile u).core.fencedDone := by
  rw [State.formHeader_eq]
  have hlineage : Reports headerParts [u] s (s.lineageSend u { s.headed u x with dests := named }) :=
    .lineageSend (.refl ..) (by simp) (by simp)
  have hsame : SameNi u s _ := hlineage.sameNi
  generalize s.lineageSend u { s.headed u x with dests := named } = r at hlineage hsame
  have hsent : Reports headerParts [u] _ ((r.modCore u fun c =>
      { c with xfers := c.xfers ++ [s.headed u x] }).headerSent u (s.headed u x)) := .headerSent (.refl ..) (by simp)
  have hafter : SameNi u _ _ := hsent.sameNi
  refine ⟨(hlineage.tiles.trans (OnlyTiles.modCore r u _)).trans hsent.tiles, ?_, ?_⟩
  · rw [hafter.xfers, State.tile_modCore_self, hsame.xfers]
  · rw [hafter.fencedDone, State.tile_modCore_self, hsame.fencedDone]

/-! ### TRANSFER_SEND -/

/-- Tile `u` may send a transfer, and its engine is served at every source block. -/
structure SendStarts (u : Nat) (x : Xfer) (s : State) : Prop where
  live : s.live = true
  mayRun : s.mayRun u = true
  dests : ∀ l ∈ x.dests, l < numLogical
  noHost : s.servesMaq u = false
  room : (s.tile u).core.staging.length < stagingBlocks
  sends : ∀ b ∈ x.blocks, s.sendsBlock b = true
  noStall : (s.tile u).core.stallsWhole = false
  gates : ∀ b ∈ x.blocks, s.unitGate u b.src false = .serve

theorem exec_transferSend (h : SendStarts u x s) :
    exec (.transferSend u x) s = .next ((s.sendReads u x).resolve u x) := by
  have hok : (s.live && s.mayRun u && !s.servesMaq u && x.dests.all (· < numLogical) &&
      decide ((s.tile u).core.staging.length < stagingBlocks) && !(s.tile u).core.stallsWhole &&
      x.blocks.all s.sendsBlock) = true := by
    rw [h.live, h.mayRun, h.noHost, h.noStall, decide_eq_true h.room, List.all_eq_true.2 h.sends,
      List.all_eq_true.2 fun l hl => decide_eq_true (h.dests l hl)]
    rfl
  have hgates : (x.blocks.find? fun b => s.unitGate u b.src false != .serve) = none :=
    List.find?_eq_none.2 fun b hb => by rw [h.gates b hb]; decide
  calc exec (.transferSend u x) s = execTransferSend u x s := rfl
    _ = .next (s.sendAll u x State.sendNow) := doWhen_true hok
    _ = _ := by rw [State.sendAll, hgates, ← State.sendNow_eq]

/-- The NI resolves the transfer once its blocks are read. -/
theorem SendStarts.resolves (h : SendStarts u x s) :
    ∃ r, exec (.transferSend u x) s = .next (r.resolve u x) ∧ Reports readParts (sendTiles u x) s r :=
  ⟨_, exec_transferSend h, .sendReads s u x⟩

/-- A transfer with a held destination waits whole. -/
theorem SendStarts.held (h : SendStarts u x s) (hheld : (s.tile u).core.ni.holds x) :
    ∃ t, exec (.transferSend u x) s = .next t ∧ OnlyTiles (sendTiles u x) s t ∧
      (t.tile u).core.stalled = (s.tile u).core.stalled ++ [(wholeWait, (s.tile u).core.ni.gen.toNat, x)] ∧
      (t.tile u).core.xfers = (s.tile u).core.xfers ∧ (t.tile u).core.fencedDone = (s.tile u).core.fencedDone ∧
      t.stack = s.stack ∧ t.hostMem = s.hostMem := by
  obtain ⟨r, heq, hreads⟩ := h.resolves
  have hsame : SameNi u s r := hreads.sameNi
  rw [State.resolve_of_held (by rwa [hsame.ni])] at heq
  have hring := OnlyChanges.unitRing (r.waitsWhole u x) u uNI .wait 3
  have hcore : (((r.waitsWhole u x).niRing u .wait 3).tile u).core =
      { (r.tile u).core with stalled := (r.tile u).core.stalled ++ [(wholeWait, (r.tile u).core.ni.gen.toNat, x)] } := by
    rw [State.tile_niRing, State.waitsWhole, State.tile_modCore_self]
  refine ⟨_, heq, (hreads.tiles.trans ((OnlyTiles.modCore r u _).mono (by simp))).trans
    (.of_tiles (hring .tiles (by simp))), ?_, ?_, ?_, ?_, ?_⟩
  · rw [hcore, hsame.stalled, hsame.ni]
  · rw [hcore, hsame.xfers]
  · rw [hcore, hsame.fencedDone]
  · exact (hring .stack (by simp)).trans (hreads.parts .stack (by simp))
  · exact (hring .hostMem (by simp)).trans (hreads.parts .hostMem (by simp))

/-- A transfer that no destination is left of has only its FENCED completions. -/
theorem SendStarts.allFenced (h : SendStarts u x s) (hheld : ¬ (s.tile u).core.ni.holds x)
    (hopen : (s.tile u).core.ni.openDests x = []) (hhost : x.toHost = false) (hchip : x.toChip = none) :
    ∃ t, exec (.transferSend u x) s = .next t ∧ OnlyTiles (sendTiles u x) s t ∧
      (t.tile u).core.fencedDone =
        (s.tile u).core.fencedDone ++ (s.tile u).core.ni.fencedEnds (s.tile u).core.curIds x ∧
      (t.tile u).core.xfers = (s.tile u).core.xfers ∧ t.stack = s.stack ∧ t.hostMem = s.hostMem := by
  obtain ⟨r, heq, hreads⟩ := h.resolves
  have hsame : SameNi u s r := hreads.sameNi
  rw [State.resolve_of_unheld (by rwa [hsame.ni]), hsame.ni, hopen, hhost, hchip] at heq
  refine ⟨_, heq, hreads.tiles.trans ((OnlyTiles.endsFenced r u x).mono (by simp)), ?_, ?_,
    hreads.parts .stack (by simp), hreads.parts .hostMem (by simp)⟩
  · rw [if_pos (by rfl), State.endsFenced_core, hsame.fencedDone, hsame.ni, hsame.curIds]
  · rw [if_pos (by rfl), State.endsFenced_core, hsame.xfers]

/-- What is left of a transfer besides its FENCED completions is under way under its header. -/
theorem SendStarts.underWay (h : SendStarts u x s) (hheld : ¬ (s.tile u).core.ni.holds x)
    (hgo : (s.tile u).core.ni.openDests x ≠ [] ∨ x.toHost = true ∨ x.toChip ≠ none) :
    ∃ t, exec (.transferSend u x) s = .next t ∧ OnlyTiles (sendTiles u x) s t ∧
      (t.tile u).core.xfers = (s.tile u).core.xfers ++
        [s.headed u { x with dests := (s.tile u).core.ni.openDests x }] ∧
      (t.tile u).core.fencedDone =
        (s.tile u).core.fencedDone ++ (s.tile u).core.ni.fencedEnds (s.tile u).core.curIds x := by
  obtain ⟨r, heq, hreads⟩ := h.resolves
  have hsame : SameNi u s r := hreads.sameNi
  have hleft : ¬ (((s.tile u).core.ni.openDests x).isEmpty && !x.toHost && x.toChip.isNone) = true := by
    simp only [Bool.and_eq_true, Bool.not_eq_true', List.isEmpty_iff, Option.isNone_iff_eq_none]
    rintro ⟨⟨hnil, hhost⟩, hchip⟩
    simp [hnil, hhost, hchip] at hgo
  rw [State.resolve_of_unheld (by rwa [hsame.ni]), hsame.ni, if_neg hleft] at heq
  obtain ⟨htiles, hxfers, hdone⟩ := (r.endsFenced u x).formHeader_spec u
    { x with dests := (s.tile u).core.ni.openDests x } x.dests
  have hends := OnlyTiles.endsFenced r u x
  have hheaded : (r.endsFenced u x).headed u { x with dests := (s.tile u).core.ni.openDests x } =
      r.headed u { x with dests := (s.tile u).core.ni.openDests x } := by
    simp only [State.headed, State.pairedHosts, State.endsFenced, State.tile_modCore_self]
  refine ⟨_, heq, (hreads.tiles.trans (hends.mono (by simp))).trans (htiles.mono (by simp)), ?_, ?_⟩
  · rw [hxfers, hheaded, State.headed_of_sameNi hsame, State.endsFenced_core, hsame.xfers]
  · rw [hdone, State.endsFenced_core, hsame.fencedDone, hsame.ni, hsame.curIds]

end

/-! ### TRANSFER_RECEIVE: refused at a closed port or by the NI (R259, R260) -/

section
variable {s : State} {u : Nat} {x : XferIn}

theorem exec_transferReceive (hlive : s.live = true) (hu : u < numTiles) (hrun : s.regionStopped (regionOf u) = false) :
    exec (.transferReceive u x) s = .next (s.receive u x) :=
  doWhen_true (f := fun s => s.receive u x) (by rw [hlive, decide_eq_true hu, hrun]; rfl)

/-- The generation with which tile `u` refuses a transfer: the node's behind a closed port, else the NI's. -/
def Core.refusalGen (c : Core) : BitVec 16 := if c.router = true then c.nodeGen else c.ni.gen

theorem State.receive_refused (hlink : x.fromLink = none) (hhost : x.fromHost = none) (hex : x.exempt = false)
    (h : (s.tile u).core.router = true ∨ (s.tile u).core.ni.fenced x.src = true) :
    s.receive u x = (s.bump Reg.mapAbsorbed).ackFenced x (s.tile u).core.refusalGen := by
  unfold State.receive Core.refusalGen
  rw [hlink, hhost, hex]
  cases hr : (s.tile u).core.router with
  | true => simp only [hr, Bool.not_false, Bool.and_true, if_true]
  | false => simp [hr, h.resolve_left (by simp [hr])]

/-- A copy on this chip has its FENCED acknowledgement on its way to its sender. -/
theorem State.ackFenced_of_local (hlink : x.fromLink = none) (hhost : x.fromHost = none) (gen : BitVec 16) :
    s.ackFenced x gen = s.modCore x.src fun c => { c with acksDue := c.acksDue ++ [(x.x.id, x.dest, gen)] } :=
  if_neg (by rw [hlink, hhost]; decide)

theorem exec_transferReceive_refused (hlive : s.live = true) (hu : u < numTiles)
    (hrun : s.regionStopped (regionOf u) = false) (hlink : x.fromLink = none) (hhost : x.fromHost = none)
    (hex : x.exempt = false) (h : (s.tile u).core.router = true ∨ (s.tile u).core.ni.fenced x.src = true) :
    ∃ t, exec (.transferReceive u x) s = .next t ∧ OnlyChanges [.regs, .tiles] s t ∧ OnlyRegs [Reg.mapAbsorbed] s t ∧
      OnlyTiles [x.src] s t ∧
      (t.tile x.src).core.acksDue = (s.tile x.src).core.acksDue ++ [(x.x.id, x.dest, (s.tile u).core.refusalGen)] ∧
      (t.reg Reg.mapAbsorbed).toNat = min ((s.reg Reg.mapAbsorbed).toNat + 1) (regMask Reg.mapAbsorbed) := by
  have heq := exec_transferReceive (x := x) hlive hu hrun
  rw [State.receive_refused hlink hhost hex h, State.ackFenced_of_local hlink hhost] at heq
  have hack := OnlyChanges.modCore (s.bump Reg.mapAbsorbed) x.src fun c =>
    { c with acksDue := c.acksDue ++ [(x.x.id, x.dest, (s.tile u).core.refusalGen)] }
  refine ⟨_, heq, ((OnlyChanges.bump s _ 1).mono (by simp)).trans (hack.mono (by simp)),
    (OnlyRegs.bump s _ 1).trans (.of_regs (hack .regs (by simp))),
    ((OnlyTiles.bump s _ 1).mono (by simp)).trans (OnlyTiles.modCore _ x.src _), ?_, ?_⟩
  · rw [State.tile_modCore_self]
    rfl
  · exact (congrArg BitVec.toNat (State.reg_of_regs (hack .regs (by simp)) _)).trans
      (State.reg_bump_self s _ 1 (regMask_lt _))

/-! ### A block reaches the SRAM of its tile (R123, R128) -/

/-- Block `i` of the SRAM of tile `u` holds these bytes under this seal word, and the stack holds what it held. -/
def Landed (u i : Nat) (bs : List Byte) (w : Word) (s t : State) : Prop :=
  t.sramBytes u i = bs ∧ t.sramSeal u i = w ∧ t.stack.mem = s.stack.mem

theorem State.portBlock_landed (s : State) (u i : Nat) {bs : List Byte} (w : Word) (hlen : bs.length = blockBytes) :
    Landed u i bs w s (s.portBlock (.sram u i) bs w) :=
  ⟨State.blockBytesAt_putBlock (.sram u i) w hlen, State.blockSealAt_putBlock (.sram u i) bs w,
    congrArg (·.mem) (OnlyChanges.count s u 2 blockBytes .stack (by simp))⟩

theorem Landed.of_stack {i : Nat} {bs : List Byte} {w : Word} {a b s t : State} (h : Landed u i bs w a b)
    (hs : a.stack = s.stack)
    (ht : t.stack = b.stack) : Landed u i bs w s t := by
  unfold Landed State.sramBytes State.sramSeal at h ⊢
  rwa [ht, ← hs]

theorem State.placeBlock_own (s : State) {u i : Nat} (hi : i < sramBlocks) (bs : List Byte) (w : Word) :
    s.placeBlock u (.sram u i) bs w = s.portBlock (.sram u i) bs w :=
  if_pos (by rw [beq_self_eq_true, decide_eq_true hi]; rfl)

theorem State.servesMaq_of_unpaired (hrole : (s.tile u).maq.role = 0) : s.servesMaq u = false := by
  unfold State.servesMaq
  rw [hrole]
  rfl

/-- A transfer of one block that neither the port nor the NI refuses, at a tile without a maquette role. -/
theorem State.receive_accepted {b : BlockMove} (hlink : x.fromLink = none) (hrouter : (s.tile u).core.router = false)
    (hsrc : x.fromHost ≠ none ∨ (s.tile u).core.ni.fenced x.src = false) (hrole : (s.tile u).maq.role = 0)
    (hblocks : x.x.blocks = [b]) : s.receive u x = (s.count u 4 (xferBytes x.x)).takeBlock u x b := by
  have hmaq := State.servesMaq_of_unpaired hrole
  have hfence : (x.fromHost.isNone && (s.tile u).core.ni.fenced x.src) = false := by
    rcases hsrc with h | h
    · rw [Option.isNone_eq_false_iff.2 (Option.isSome_iff_ne_none.2 h), Bool.false_and]
    · rw [h, Bool.and_false]
  have hcopy : s.keepsCopy u x.x = true := by
    unfold State.keepsCopy
    rw [hmaq]
    rfl
  unfold State.receive
  simp [hlink, hrouter, hfence, hcopy, hmaq, hblocks, Bool.and_assoc]

/-! ### A verified block (R128, R194, R362) -/

theorem State.collect_of_plain {b : BlockMove} (h : b.coll = none) : s.collect u b = s := by
  unfold State.collect
  rw [h]

/-- A tile that is no source of a session takes a block for itself; of a subscribed one it notes where it lies. -/
theorem State.mirrorTaken_of_unpaired {b : BlockMove} (hrole : (s.tile u).maq.role = 0) :
    s.mirrorTaken u x b = s.noteSubscribed u x.x b := by
  have hmaq : ((s.noteSubscribed u x.x b).tile u).maq = (s.tile u).maq := by
    unfold State.noteSubscribed
    split
    · rw [State.tile_modCore_self]
    · rfl
  have hsampling : (s.noteSubscribed u x.x b).sampling u = none := by
    unfold State.sampling
    rw [hmaq, hrole]
    rfl
  unfold State.mirrorTaken
  dsimp only
  rw [hsampling]

theorem State.noteSubscribed_frame (s : State) (u : Nat) (y : Xfer) (b : BlockMove) :
    OnlyChanges [.tiles] s (s.noteSubscribed u y b) ∧ OnlyTiles [u] s (s.noteSubscribed u y b) := by
  unfold State.noteSubscribed
  split
  · exact ⟨OnlyChanges.modCore s u _, OnlyTiles.modCore s u _⟩
  · exact ⟨OnlyChanges.refl _ s, OnlyTiles.of_tiles rfl⟩

theorem State.receiveBlock_pass {b : BlockMove} (hcheck : checkMoved b (b.bytes, b.sealw) .clean none = .pass)
    (hinj : s.injected u 3 = none) : s.receiveBlock u x b = (s.placeMoved u x b (b.bytes, b.sealw)).accept u := by
  unfold State.receiveBlock
  dsimp only
  rw [hcheck, hinj]
  simp only [hcheck]
  rfl

/-- A verified block lands in SRAM with the seal word that it came with. -/
theorem State.receiveBlock_landed {b : BlockMove} {i : Nat} (hrole : (s.tile u).maq.role = 0) (hdst : b.dst = .sram u i)
    (hi : i < sramBlocks) (hlen : b.bytes.length = blockBytes) (hcoll : b.coll = none) (hinj : s.injected u 3 = none)
    (hcheck : checkMoved b (b.bytes, b.sealw) .clean none = .pass) :
    OnlyChanges [.tiles, .stack] s (s.receiveBlock u x b) ∧ OnlyTiles [u] s (s.receiveBlock u x b) ∧
      Landed u i b.bytes b.sealw s (s.receiveBlock u x b) := by
  have hport : Reports [.tiles, .stack] [u] s (s.portBlock (.sram u i) b.bytes b.sealw) :=
    .portBlock (.refl ..) (by simp) (by simp [blockTile])
  have hland := s.portBlock_landed u i b.sealw hlen
  have hown : s.placeBlock u b.dst b.bytes b.sealw = s.portBlock (.sram u i) b.bytes b.sealw := by
    rw [hdst, State.placeBlock_own s hi]
  have hplace : s.placeMoved u x b (b.bytes, b.sealw) =
      (s.portBlock (.sram u i) b.bytes b.sealw).noteSubscribed u x.x b := by
    unfold State.placeMoved
    rw [State.servesMaq_of_unpaired hrole, hown, State.collect_of_plain hcoll,
      State.mirrorTaken_of_unpaired ((congrArg (·.maq.role) (hport.work u)).trans hrole)]
    rfl
  rw [State.receiveBlock_pass hcheck hinj, hplace]
  generalize s.portBlock (.sram u i) b.bytes b.sealw = r at hport hland
  obtain ⟨hparts, htiles⟩ := r.noteSubscribed_frame u x.x b
  generalize r.noteSubscribed u x.x b = q at hparts htiles
  have haccept : Reports [.tiles] [u] q (q.accept u) := .count (.refl ..) (by simp) (by simp)
  exact ⟨(hport.parts.trans (hparts.mono (by simp))).trans (haccept.parts.mono (by simp)),
    (hport.tiles.trans htiles).trans haccept.tiles,
    hland.of_stack rfl ((haccept.parts .stack (by simp)).trans (hparts .stack (by simp)))⟩

theorem exec_transferReceive_verified {b : BlockMove} {i : Nat} (hlive : s.live = true) (hu : u < numTiles)
    (hrun : s.regionStopped (regionOf u) = false) (hlink : x.fromLink = none) (hhost : x.fromHost = none)
    (hrouter : (s.tile u).core.router = false) (hfence : (s.tile u).core.ni.fenced x.src = false)
    (hrole : (s.tile u).maq.role = 0) (hblocks : x.x.blocks = [b]) (hdst : b.dst = .sram u i) (hi : i < sramBlocks)
    (hlen : b.bytes.length = blockBytes) (hcoll : b.coll = none) (hinj : s.injected u 3 = none)
    (hcheck : checkMoved b (b.bytes, b.sealw) .clean none = .pass) :
    ∃ t, exec (.transferReceive u x) s = .next t ∧ OnlyChanges [.tiles, .stack] s t ∧ OnlyTiles [u] s t ∧
      Landed u i b.bytes b.sealw s t := by
  have hcount : Reports [.tiles] [u] s (s.count u 4 (xferBytes x.x)) := .count (.refl ..) (by simp) (by simp)
  have heq := exec_transferReceive (x := x) hlive hu hrun
  rw [State.receive_accepted hlink hrouter (.inr hfence) hrole hblocks] at heq
  generalize s.count u 4 (xferBytes x.x) = r at hcount heq
  have hr : (r.tile u).maq.role = 0 := (congrArg (·.maq.role) (hcount.work u)).trans hrole
  have hinjr : r.injected u 3 = none :=
    (hcount.injected (State.reg_of_regs (hcount.parts .regs (by simp)) _) 3).trans hinj
  have htake : r.takeBlock u x b = r.receiveBlock u x b := by
    unfold State.takeBlock
    rw [hhost, State.servesMaq_of_unpaired hr]
    rfl
  rw [htake] at heq
  obtain ⟨hparts, htiles, hland⟩ := State.receiveBlock_landed (x := x) hr hdst hi hlen hcoll hinjr hcheck
  exact ⟨_, heq, (hcount.parts.mono (by simp)).trans hparts, hcount.tiles.trans htiles,
    hland.of_stack (hcount.parts .stack (by simp)) rfl⟩

/-! ### A block from host memory (R123, R128) -/

/-- The seal word that a DMA engine forms for a block from host memory at time `now`. -/
def dmaSeal (now : Word) (u : Nat) (gen : BitVec 8) (b : BlockMove) : Word :=
  sealWord now u gen 1 true (blockResidue b.fmt.toNat (unpackBlock b.fmt.toNat b.bytes))

theorem State.storeBlock_own (s : State) {u i : Nat} {b : BlockMove} (hdst : b.dst = .sram u i) (hi : i < sramBlocks)
    (gen : BitVec 8) : s.storeBlock u b gen = s.portBlock (.sram u i) b.bytes (dmaSeal s.time.time u gen b) := by
  unfold State.storeBlock
  dsimp only
  rw [hdst, State.placeBlock_own s hi]
  rfl

theorem exec_transferReceive_stored {b : BlockMove} {i : Nat} {gen : BitVec 8} (hlive : s.live = true)
    (hu : u < numTiles) (hrun : s.regionStopped (regionOf u) = false) (hlink : x.fromLink = none)
    (hhost : x.fromHost = some gen) (hrouter : (s.tile u).core.router = false) (hrole : (s.tile u).maq.role = 0)
    (hblocks : x.x.blocks = [b]) (hdst : b.dst = .sram u i) (hi : i < sramBlocks) (hlen : b.bytes.length = blockBytes) :
    ∃ t, exec (.transferReceive u x) s = .next t ∧ OnlyChanges [.tiles, .stack, .dbg, .free, .time] s t ∧
      OnlyTiles [u] s t ∧ Landed u i b.bytes (dmaSeal s.time.time u gen b) s t := by
  have hcount : Reports [.tiles, .stack, .dbg, .free, .time] [u] s (s.count u 4 (xferBytes x.x)) :=
    .count (.refl ..) (by simp) (by simp)
  have hcountStack : (s.count u 4 (xferBytes x.x)).stack = s.stack := OnlyChanges.count s u 4 _ .stack (by simp)
  have hcountTime : (s.count u 4 (xferBytes x.x)).time = s.time := OnlyChanges.count s u 4 _ .time (by simp)
  have heq := exec_transferReceive (x := x) hlive hu hrun
  rw [State.receive_accepted hlink hrouter (.inl (by simp [hhost])) hrole hblocks] at heq
  generalize s.count u 4 (xferBytes x.x) = r at hcount hcountStack hcountTime heq
  have htake : r.takeBlock u x b = ((r.unitRing u uDMA .begin_ 0).storeBlock u b gen).unitRing u uDMA .end_ 0 := by
    unfold State.takeBlock
    rw [hhost]
  have hbegin := hcount.unitRing (u := u) (unit := uDMA) (k := .begin_) (cause := 0) (by simp)
  have hstack : (r.unitRing u uDMA .begin_ 0).stack = s.stack :=
    (OnlyChanges.unitRing r u _ _ _ .stack (by simp)).trans hcountStack
  have htime : (r.unitRing u uDMA .begin_ 0).time.time = s.time.time := by
    obtain ⟨⟨-, htime, -⟩, -⟩ := State.unitRing_sameRun r u uDMA .begin_ 0
    rw [htime, hcountTime]
  rw [htake, State.storeBlock_own _ hdst hi, htime] at heq
  generalize r.unitRing u uDMA .begin_ 0 = q at hbegin hstack heq
  have hland := q.portBlock_landed u i (dmaSeal s.time.time u gen b) hlen
  have hput := hbegin.portBlock (a := .sram u i) (bs := b.bytes) (w := dmaSeal s.time.time u gen b) (by simp)
    (by simp [blockTile])
  have hend := hput.unitRing (u := u) (unit := uDMA) (k := .end_) (cause := 0) (by simp)
  exact ⟨_, heq, hend.parts, hend.tiles, hland.of_stack hstack (OnlyChanges.unitRing _ u _ _ _ .stack (by simp))⟩

end

/-! ### FENCED_ACK (R262) -/

section
variable {s : State} {u id l : Nat} {gen : BitVec 16} {x : Xfer}

theorem State.drainReply_of_none (h : (s.tile u).core.drains = []) : s.drainReply u = s := by
  unfold State.drainReply
  dsimp only
  rw [h]
  rfl

/-- The core once the acknowledgement has come: the destination is done. -/
def Core.answered (c : Core) (id l : Nat) (gen : BitVec 16) : Core :=
  { c.dropDest id l with acksDue := c.acksDue.erase (id, l, gen) }

/-- The copy of a transfer for one destination. -/
def copyFor (x : Xfer) (l : Nat) : Xfer := { x with dests := [l], toHost := false, toChip := none }

/-- The copy for destination `l` waits until generation `g` is reached and nothing holds it. -/
def Core.copyWaits (c : Core) (l g : Nat) (x : Xfer) : Core := { c with stalled := c.stalled ++ [(l, g, copyFor x l)] }

/-- Behind a hold the copy waits at the NI's own generation. -/
def Core.copyHeld (l : Nat) (x : Xfer) (c : Core) : Core := c.copyWaits l c.ni.gen.toNat x

/-- The copy for destination `l` completes FENCED. -/
def Core.copyFenced (id l : Nat) (c : Core) : Core := { c with fencedDone := c.fencedDone ++ [(c.curIds, id, l)] }

/-- What becomes of the copy: it waits for the generation or behind the hold, or its completion stands. -/
def NiMap.copyFate (ni : NiMap) (id l : Nat) (gen : BitVec 16) (x : Xfer) : Core → Core :=
  if genNewer gen.toNat ni.gen.toNat then (·.copyWaits l gen.toNat x)
  else if ni.held l then Core.copyHeld l x
  else Core.copyFenced id l

theorem State.fencedAck_of_found
    (h : ((s.tile u).core.xfers.find? fun y => y.id == id && y.dests.contains l) = some x) :
    s.fencedAck u id l gen = (s.modCore u (·.answered id l gen)).modCore u ((s.tile u).core.ni.copyFate id l gen x) := by
  unfold State.fencedAck NiMap.copyFate
  dsimp only
  rw [h]
  dsimp only
  split
  · rfl
  · split <;> rfl

theorem NiMap.copyFate_drains (ni : NiMap) (x : Xfer) (c : Core) : (ni.copyFate id l gen x c).drains = c.drains := by
  unfold NiMap.copyFate
  split
  · rfl
  · split <;> rfl

/-- Of the transfers under way one answers to the identifier. -/
theorem find_xfer {xs : List Xfer} {p : Xfer → Bool} (hx : x ∈ xs) (hp : p x = true) (huniq : ∀ y ∈ xs, p y = true → y = x) :
    xs.find? p = some x := by
  obtain ⟨y, hy⟩ := Option.isSome_iff_exists.1 (List.find?_isSome.2 ⟨x, hx, hp⟩)
  rw [hy, huniq y (List.mem_of_find?_eq_some hy) (List.find?_some hy)]

theorem exec_fencedAck (hlive : s.live = true) (hu : u < numTiles) (hdrains : (s.tile u).core.drains = [])
    (hdue : (s.tile u).core.ackIsDue id l gen = true) (hx : x ∈ (s.tile u).core.xfers) (hid : x.id = id) (hl : l ∈ x.dests)
    (huniq : ∀ y ∈ (s.tile u).core.xfers, y.id = id → y = x) :
    ∃ t, exec (.fencedAck u id l gen) s = .next t ∧ OnlyChanges [.tiles] s t ∧ OnlyTiles [u] s t ∧
      (t.tile u).core = (s.tile u).core.ni.copyFate id l gen x ((s.tile u).core.answered id l gen) := by
  have hfind : ((s.tile u).core.xfers.find? fun y => y.id == id && y.dests.contains l) = some x :=
    find_xfer hx (by simp [hid, hl]) fun y hy hp => huniq y hy (by simp at hp; exact hp.1)
  have hack := State.fencedAck_of_found (gen := gen) hfind
  have hcore : ((s.fencedAck u id l gen).tile u).core =
      (s.tile u).core.ni.copyFate id l gen x ((s.tile u).core.answered id l gen) := by
    rw [hack, State.tile_modCore_self, State.tile_modCore_self]
  have hdrained : (s.fencedAck u id l gen).drainReply u = s.fencedAck u id l gen :=
    State.drainReply_of_none (by rw [hcore, NiMap.copyFate_drains]; exact hdrains)
  refine ⟨s.fencedAck u id l gen, ?_, ?_, ?_, hcore⟩
  · calc exec (.fencedAck u id l gen) s = execFencedAck u id l gen s := rfl
      _ = .next ((s.fencedAck u id l gen).drainReply u) := doWhen_true (by rw [hlive, decide_eq_true hu, hdue]; rfl)
      _ = _ := by rw [hdrained]
  · rw [hack]
    exact (OnlyChanges.modCore s u _).trans (OnlyChanges.modCore _ u _)
  · rw [hack]
    exact (OnlyTiles.modCore s u _).trans (OnlyTiles.modCore _ u _)

theorem NiMap.copyFate_of_newer {ni : NiMap} (h : genNewer gen.toNat ni.gen.toNat = true) :
    ni.copyFate id l gen x = (·.copyWaits l gen.toNat x) := if_pos h

theorem NiMap.copyFate_of_held {ni : NiMap} (h : genNewer gen.toNat ni.gen.toNat = false) (hheld : ni.held l = true) :
    ni.copyFate id l gen x = Core.copyHeld l x := by
  unfold NiMap.copyFate
  rw [h, hheld]
  rfl

theorem NiMap.copyFate_of_unheld {ni : NiMap} (h : genNewer gen.toNat ni.gen.toNat = false) (hheld : ni.held l = false) :
    ni.copyFate id l gen x = Core.copyFenced id l := by
  unfold NiMap.copyFate
  rw [h, hheld]
  rfl

/-! ### TRANSFER_COMPLETION (R134, R223) -/

/-- The transfer toward host memory that completes, if it is one. -/
theorem find_hostXfer {xs : List Xfer} (hx : x ∈ xs) (huniq : ∀ y ∈ xs, y.id = x.id → y = x) :
    (xs.find? fun y => y.id == x.id && y.toHost) = if x.toHost = true then some x else none := by
  have hid {y : Xfer} (hp : (y.id == x.id && y.toHost) = true) : y.id = x.id ∧ y.toHost = true := by simpa using hp
  split
  next hhost => exact find_xfer hx (by simp [hhost]) fun y hy hp => huniq y hy (hid hp).1
  next hhost => exact List.find?_eq_none.2 fun y hy hp => hhost (huniq y hy (hid hp).1 ▸ (hid hp).2)

/-- The core once transfer `x` is done. -/
def State.coreDone (s : State) (u : Nat) (x : Xfer) : Core :=
  { (s.tile u).core with
    xfers := (s.tile u).core.xfers.filter fun y => y.id != x.id
    hostDma := if x.toHost = true then some (s.dmaStatus x) else (s.tile u).core.hostDma }

theorem State.xferDone_core (hx : x ∈ (s.tile u).core.xfers) (huniq : ∀ y ∈ (s.tile u).core.xfers, y.id = x.id → y = x) :
    ((s.xferDone u x.id).tile u).core = s.coreDone u x := by
  unfold State.xferDone
  dsimp only
  rw [State.tile_of_tiles (OnlyChanges.xferRing _ u _ .end_ .tiles (by simp)), State.tile_modCore_self, find_hostXfer hx huniq]
  unfold State.coreDone
  cases x.toHost <;> rfl

theorem State.xferDone_frame (s : State) (u id : Nat) :
    OnlyTiles [u] s (s.xferDone u id) ∧ OnlyChanges [.tiles, .dbg, .free, .time] s (s.xferDone u id) := by
  unfold State.xferDone
  dsimp only
  have hring (r : State) (host : Bool) := OnlyChanges.xferRing r u host .end_
  exact ⟨(OnlyTiles.modCore s u _).trans (.of_tiles (hring _ _ .tiles (by simp))),
    ((OnlyChanges.modCore s u _).mono (by simp)).trans ((hring _ _).mono (by simp))⟩

theorem exec_transferCompletion (hlive : s.live = true) (hx : x ∈ (s.tile u).core.xfers)
    (huniq : ∀ y ∈ (s.tile u).core.xfers, y.id = x.id → y = x) (hdrains : (s.tile u).core.drains = []) :
    exec (.transferCompletion u x.id) s = .next (s.xferDone u x.id) := by
  have hok : (s.live && (s.tile u).core.xfers.any fun y => y.id == x.id) = true := by
    rw [hlive, Bool.true_and, List.any_eq_true]
    exact ⟨x, hx, beq_self_eq_true _⟩
  calc exec (.transferCompletion u x.id) s = execTransferCompletion u x.id s := rfl
    _ = .next ((s.xferDone u x.id).drainReply u) := doWhen_true hok
    _ = _ := by rw [State.drainReply_of_none (by rw [State.xferDone_core hx huniq]; exact hdrains)]

end

/-! ### The obligation -/

/-- Settles O42, command by command: the reads of the blocks leave what the NI resolves by, a block lands through the
port of its tile, and an acknowledgement decides the fate of its copy. -/
theorem transfers : Obligations.Transfers := by
  unfold Obligations.Transfers
  refine ⟨fun u x s hlive hrun hdests hmaq hroom hsends hstall hgates => ?_,
    fun u x s hlive hu hrun hlink hhost hex h => exec_transferReceive_refused hlive hu hrun hlink hhost hex h,
    fun u i x b s hlive hu hrun hlink hhost _ hrouter hfence hrole hblocks hdst hi hlen hcoll hinj hcheck =>
      exec_transferReceive_verified hlive hu hrun hlink hhost hrouter hfence hrole hblocks hdst hi hlen hcoll hinj hcheck,
    fun u i x b g s hlive hu hrun hlink hhost hrouter hrole hblocks hdst hi hlen => ?_,
    fun u id l gen x s hlive hu hdrains hdue hx hid hl huniq => ?_,
    fun u x s hlive hx huniq hdrains => ?_⟩
  · have h : SendStarts u x s := ⟨hlive, hrun, hdests, hmaq, hroom, hsends, hstall, hgates⟩
    have hfree (hnone : ∀ l ∈ x.dests, (s.tile u).core.ni.held l = false) : ¬ (s.tile u).core.ni.holds x :=
      fun ⟨l, hl, hheld⟩ => by rw [hnone l hl] at hheld; cases hheld
    exact ⟨h.held, fun hnone => ⟨h.allFenced (hfree hnone), h.underWay (hfree hnone)⟩⟩
  · obtain ⟨t, heq, hparts, htiles, hbytes, hseal, hmem⟩ :=
      exec_transferReceive_stored hlive hu hrun hlink hhost hrouter hrole hblocks hdst hi hlen
    exact ⟨t, heq, hparts, htiles, hbytes, hmem, hseal⟩
  · obtain ⟨t, heq, hparts, htiles, hcore⟩ := exec_fencedAck hlive hu hdrains hdue hx hid hl huniq
    refine ⟨fun hnewer => ⟨t, heq, hparts, htiles, ?_⟩, fun hold hheld => ⟨t, heq, hparts, htiles, ?_⟩,
      fun hold hheld => ⟨t, heq, hparts, htiles, ?_, ?_⟩⟩
    · rw [hcore, NiMap.copyFate_of_newer hnewer]
      rfl
    · rw [hcore, NiMap.copyFate_of_held hold hheld]
      rfl
    · rw [hcore, NiMap.copyFate_of_unheld hold hheld]
      rfl
    · rw [hcore, NiMap.copyFate_of_unheld hold hheld]
      rfl
  · obtain ⟨htiles, hparts⟩ := s.xferDone_frame u x.id
    exact ⟨_, exec_transferCompletion hlive hx huniq hdrains, htiles, hparts, State.xferDone_core hx huniq⟩

end Sys2Proof.Machine
end


section
/-! SUPPORT. A node operation as it reaches its node: what the packet's way leaves unchanged, and the fields of an operand
whose function the command names (R87, R97, R99, R100). -/

namespace Sys2Proof.Machine

/-! ### Operands with their function (R87) -/

section
variable {n : NodeOp} {w f : Nat}

@[simp] theorem withFunc_node (n : NodeOp) (w f : Nat) : (withFunc n w f).node = n.node := rfl

@[simp] theorem withFunc_mapgen (n : NodeOp) (w f : Nat) : (withFunc n w f).mapgen = n.mapgen := rfl

theorem testBit_withFunc {j : Nat} : (withFunc n w f).operand.toNat.testBit j =
    (decide (j < 96) && if j < 96 - w then n.operand.toNat.testBit j else f.testBit (j - (96 - w))) := by
  simp only [withFunc, BitVec.toNat_ofNat, Nat.testBit_mod_two_pow]
  rw [Nat.add_comm, Nat.mul_comm f, Nat.testBit_two_pow_mul_add _ (Nat.mod_lt _ (Nat.two_pow_pos _)),
    Nat.testBit_mod_two_pow]
  by_cases hj : j < 96 - w
  · simp [hj]
  · simp [hj]

/-- The fields below the function are those of the operation. -/
@[simp] theorem ofld_withFunc_low {hi lo : Nat} (hhi : hi < 96 - w) :
    ofld (withFunc n w f).operand hi lo = ofld n.operand hi lo := by
  refine Nat.eq_of_testBit_eq fun j => ?_
  simp only [ofld, Nat.testBit_mod_two_pow, Nat.testBit_shiftRight, testBit_withFunc]
  by_cases hj : j < hi + 1 - lo
  · simp [hj, show lo + j < 96 by omega, show lo + j < 96 - w by omega]
  · simp [hj]

/-- The function field reads as the function. -/
theorem ofld_withFunc_func (hw : w ≤ 96) (hf : f < 2 ^ w) : ofld (withFunc n w f).operand 95 (96 - w) = f := by
  refine Nat.eq_of_testBit_eq fun j => ?_
  simp only [ofld, Nat.testBit_mod_two_pow, Nat.testBit_shiftRight, testBit_withFunc]
  by_cases hj : j < w
  · simp [show j < 95 + 1 - (96 - w) by omega, show 96 - w + j < 96 by omega]
  · simp [show ¬ j < 95 + 1 - (96 - w) by omega,
      Nat.testBit_lt_two_pow (hf.trans_le (Nat.pow_le_pow_right (by decide) (Nat.not_lt.1 hj)))]

end

/-! ### The packet on its way to the node -/

section
variable {s a t : State} {n : NodeOp} {op : Nat} {data : List Flit}

theorem OnlyChanges.acceptCopy (s : State) (u vc op : Nat) (x : BitVec 16) :
    OnlyChanges [.arm, .ev] s (s.acceptCopy u vc op x) := by
  have hlast : OnlyChanges [.arm, .ev] s (s.setLastXid (.order u vc) x) := (OnlyChanges.setArm s _).mono (by simp)
  unfold State.acceptCopy
  dsimp only
  split
  · exact (hlast.trans ((OnlyChanges.mapSent _ _).mono (by simp))).trans ((OnlyChanges.raise _ _).mono (by simp))
  · exact hlast

theorem State.acceptCopy_parked (s : State) (u vc op : Nat) (x : BitVec 16) :
    (s.acceptCopy u vc op x).arm.parked = s.arm.parked := by
  unfold State.acceptCopy
  dsimp only
  split <;> rfl

/-- The state in which a node that has nothing parked carries an operation out: the packet that brought it, where the hub
has one outstanding, is accepted, and stands in its inbox. -/
def State.brought (s : State) (op : Nat) (n : NodeOp) : State :=
  match s.carrier op n with
  | some o =>
    let s := s.acceptCopy n.node o.vc op o.xid
    { s with arm.inbox := s.arm.inbox ++ [(.order n.node (opVc op), o.xid)] }
  | none => s

theorem OnlyChanges.brought (s : State) (op : Nat) (n : NodeOp) : OnlyChanges [.arm, .ev] s (s.brought op n) := by
  unfold State.brought
  split
  · exact (OnlyChanges.acceptCopy s _ _ _ _).trans ((OnlyChanges.setArm _ _).mono (by simp))
  · exact OnlyChanges.refl _ s

theorem State.brought_parked (s : State) (op : Nat) (n : NodeOp) : (s.brought op n).arm.parked = s.arm.parked := by
  unfold State.brought
  split
  · exact s.acceptCopy_parked _ _ _ _
  · rfl

theorem State.parkedAt_of_none (h : s.arm.parked = []) (u : Nat) : s.parkedAt u = 0 := by
  rw [State.parkedAt, h]
  rfl

theorem State.mustPark_congr (htiles : t.tiles = s.tiles) (htime : t.time = s.time) (u op : Nat) (g : BitVec 16)
    (o : BitVec 96) : t.mustPark u op g o = s.mustPark u op g o := by
  simp only [State.mustPark, State.regionStopped, State.tile_of_tiles htiles, htime]

theorem State.reply_replied (s : State) (u r : Nat) : (s.reply u r).replied u r := by
  simp only [State.reply, State.sendReply, List.foldl_cons, List.foldl_nil, State.replyPacket]
  split
  · rfl
  · unfold State.replyNext
    split <;> rfl

theorem State.replied_of_reply {u r : Nat} (h : t.arm.lastReply = (s.reply u r).arm.lastReply) : t.replied u r :=
  Eq.trans h (State.reply_replied s u r)

theorem State.reply_parked (s : State) (u r : Nat) : (s.reply u r).arm.parked = s.arm.parked := by
  simp only [State.reply, State.sendReply, List.foldl_cons, List.foldl_nil, State.replyPacket]
  split
  · rfl
  · unfold State.replyNext
    split <;> rfl

theorem State.leaveInbox_order (s : State) (u vc : Nat) : OnlyChanges [.arm] s (s.leaveInbox (.order u vc)) ∧
    (s.leaveInbox (.order u vc)).arm.lastReply = s.arm.lastReply := by
  unfold State.leaveInbox
  split
  · refine ⟨(OnlyChanges.setArm s _).trans (OnlyChanges.sendAck_order _ _ _ _ _), ?_⟩
    simp only [State.sendAck, State.queueAck]
    split <;> rfl
  · exact ⟨OnlyChanges.refl _ s, rfl⟩

/-- The packets that leave their inboxes are acknowledged, and the last reply stays. -/
theorem State.freeInboxes_frame (s : State) (u : Nat) : OnlyChanges [.arm] s (s.freeInboxes u) ∧
    (s.freeInboxes u).arm.lastReply = s.arm.lastReply := by
  unfold State.freeInboxes
  refine List.foldlRecOn (motive := fun t => OnlyChanges [.arm] s t ∧ t.arm.lastReply = s.arm.lastReply) _ _
    ⟨OnlyChanges.refl _ s, rfl⟩ fun t ⟨hparts, hreply⟩ vc _ => ?_
  split
  · exact ⟨hparts, hreply⟩
  · obtain ⟨hparts', hreply'⟩ := t.leaveInbox_order u vc
    exact ⟨hparts.trans hparts', hreply'.trans hreply⟩

/-- A node that takes an operation at once carries it out and acknowledges it, and then what was parked follows, which is
nothing where nothing is parked. -/
theorem State.nodeAccept_of_ready (h : s.nodeReady op n)
    (hdo : ((s.brought op n).nodeDo n.node op n.mapgen n.operand data).arm.parked = []) : s.nodeAccept op n data =
      ((s.brought op n).nodeDo n.node op n.mapgen n.operand data).freeInboxes n.node := by
  obtain ⟨-, -, hparked, hpark⟩ := h
  have hroom : ¬ 16 ≤ s.parkedAt n.node := by rw [State.parkedAt_of_none hparked]; decide
  have hframe := OnlyChanges.brought s op n
  have htake : (s.brought op n).nodeTake op n data = (s.brought op n).nodeDo n.node op n.mapgen n.operand data := by
    unfold State.nodeTake
    rw [State.mustPark_congr (hframe .tiles (by simp)) (hframe .time (by simp)), hpark, if_neg Bool.false_ne_true]
    dsimp only
    rw [State.parkedAt_of_none hdo]
    rfl
  rw [← htake]
  unfold State.nodeAccept State.brought
  cases hcarrier : s.carrier op n with
  | none => simp [hroom]
  | some o => simp [hroom]

/-- The row of an operation that its node takes at once and answers: from `b`, which carrying it out leaves, only packets
change. The node and the map generation come by equations, so that the kernel never compares an operation with the one
that `withFunc` makes of it. -/
theorem nodeRow_answered {b : State} {u r : Nat} {g : BitVec 16} (h : s.nodeReady op n) (hnode : n.node = u)
    (hmapgen : n.mapgen = g) (hdo : (s.brought op n).nodeDo u op g n.operand data = b.reply u r)
    (hparked : b.arm.parked = []) :
    ∃ t, nodeRow op n data s = .next t ∧ t.replied u r ∧ OnlyChanges [.arm] b t := by
  subst hnode hmapgen
  obtain ⟨hparts, hreply⟩ := (b.reply n.node r).freeInboxes_frame n.node
  refine ⟨(b.reply n.node r).freeInboxes n.node, ?_, State.replied_of_reply hreply,
    (OnlyChanges.reply b n.node r).trans hparts⟩
  unfold nodeRow
  rw [doWhen_true (by rw [h.1, decide_eq_true h.2.1]; rfl),
    State.nodeAccept_of_ready h (by rw [hdo, State.reply_parked, hparked]), hdo]

end

end Sys2Proof.Machine
end


section
/-! SUPPORT. Packets that the hub has issued, and the sessions of maquette: how one is given a host, reports, ends and is
arbitrated (R190, R191, R196, R200 to R206). -/

namespace Sys2Proof.Machine

/-! ### Packets of the hub (R90, R98) -/

/-- The hub has sent or queued a packet of this operation to these nodes. -/
def State.issued (s : State) (op : Nat) (operand : BitVec 96) (dests : BitVec 1152) : Prop :=
  ∃ p, s.has p ∧ p.op = BitVec.ofNat 8 op ∧ p.dests = dests ∧ p.operand = operand

section
variable {s t : State} {op : Nat} {operand : BitVec 96} {dests : BitVec 1152}

theorem State.issued_of_arm (h : t.arm = s.arm) (hs : s.issued op operand dests) : t.issued op operand dests := by
  unfold State.issued State.has
  rw [h]
  exact hs

theorem State.issued_inject (h : s.issued op operand dests) : s.inject.issued op operand dests := by
  obtain ⟨p, hp, hpacket⟩ := h
  rcases List.mem_append.1 hp with hsent | hqueue
  · refine ⟨p, List.mem_append_left _ ?_, hpacket⟩
    unfold State.inject
    split
    · exact hsent
    · exact (injectGo_mem _ _ _ _ _).1 hsent
  · exact (State.has_inject hqueue).elim (fun h => ⟨p, h, hpacket⟩) fun h => ⟨_, h, hpacket⟩

theorem State.issued_packetQueued (h : s.issued op operand dests) (q : SendReq) (d : BitVec 1152) :
    (s.packetQueued q d).issued op operand dests := by
  obtain ⟨p, hp, hpacket⟩ := h
  refine ⟨p, ?_, hpacket⟩
  rcases List.mem_append.1 hp with hsent | hqueue
  · exact List.mem_append_left _ hsent
  · exact List.mem_append_right _ (List.mem_append_left _ hqueue)

/-- What the hub has issued stays issued when it issues more. -/
theorem State.issued_hubSend (h : s.issued op operand dests) (q : SendReq) : (s.hubSend q).issued op operand dests := by
  have hpacket {t : State} (ht : t.issued op operand dests) (d : BitVec 1152) :
      (t.hubPacket q d).issued op operand dests := State.issued_inject (State.issued_packetQueued ht q d)
  unfold State.hubSend
  split
  · exact hpacket h _
  · exact hpacket h _
  · exact List.foldlRecOn (motive := fun t : State => t.issued op operand dests) _ _ h fun _ ht _ _ => hpacket ht _

end

theorem testBit_oneNode (u j : Nat) : (oneNode u).toNat.testBit j = (decide (j < 1152) && decide (u = j)) := by
  rw [BitVec.testBit_toNat, oneNode, BitVec.getLsbD_ofNat, Nat.testBit_two_pow]

/-- One node lies in one row. -/
theorem rowCols_oneNode {u r : Nat} (hr : r ≠ u / 32) : rowCols (oneNode u) r = 0 := by
  refine Nat.eq_of_testBit_eq fun j => ?_
  rw [rowCols, Nat.testBit_mod_two_pow, Nat.testBit_shiftRight, testBit_oneNode, Nat.zero_testBit]
  by_cases hj : j < 32
  · simp [show ¬ u = 32 * r + j by omega]
  · simp [hj]

/-- A set of nodes that lies in one row is one group. -/
theorem maskGroups_of_row {v : BitVec 1152} {r : Nat} (h : ∀ i, i ≠ r → rowCols v i = 0) :
    maskGroups v = [] ∨ ∃ rows, maskGroups v = [(rows, rowCols v r)] := by
  unfold maskGroups
  refine List.foldlRecOn (motive := fun gs => gs = [] ∨ ∃ rows, gs = [(rows, rowCols v r)]) _ _ (.inl rfl)
    fun gs hgs i _ => ?_
  by_cases hi : i = r
  · subst hi
    dsimp only
    split
    · exact hgs
    · rcases hgs with rfl | ⟨rows, rfl⟩
      · exact .inr ⟨2 ^ i, rfl⟩
      · exact .inr ⟨rows ||| 2 ^ i, by simp⟩
  · simpa [h i hi] using hgs

theorem State.hubSend_oneNode (s : State) {q : SendReq} {u : Nat} (h : q.dests = oneNode u) :
    s.hubSend q = s.hubPacket q (oneNode u) := by
  unfold State.hubSend
  rw [h]
  rcases maskGroups_of_row (r := u / 32) fun _ hi => rowCols_oneNode hi with hg | ⟨rows, hg⟩ <;> rw [hg]

/-! ### The hub's MAQ_SET (R211) -/

section
variable {func slot host l src exp : Nat}

theorem ofld_maqOperand_func (h : func < 2 ^ 4) : ofld (maqOperand func slot host l src exp) 95 92 = func := by
  refine .trans (Nat.eq_of_testBit_eq fun j => ?_) (Nat.mod_eq_of_lt h)
  simp only [ofld, maqOperand, opack, BitVec.toNat_ofNat, Nat.testBit_mod_two_pow, Nat.testBit_shiftRight,
    testBit_pack_cons, packNat_nil, Nat.zero_testBit]
  by_cases hj : j < 4
  · interval_cases j <;> simp
  · simp [hj]

theorem ofld_maqOperand_slot (h : slot < 2 ^ 5) : ofld (maqOperand func slot host l src exp) 91 87 = slot := by
  refine .trans (Nat.eq_of_testBit_eq fun j => ?_) (Nat.mod_eq_of_lt h)
  simp only [ofld, maqOperand, opack, BitVec.toNat_ofNat, Nat.testBit_mod_two_pow, Nat.testBit_shiftRight,
    testBit_pack_cons, packNat_nil, Nat.zero_testBit]
  by_cases hj : j < 5
  · interval_cases j <;> simp
  · simp [hj]

end

/-- MAQ_SET as the hub issues it. -/
def maqRequest (func slot host l src exp : Nat) (dests : BitVec 1152) (order : Option Nat) : SendReq :=
  { op := opMAQ_SET, vc := 1, operand := maqOperand func slot host l src exp, dests, order }

theorem State.maqSend_eq (s : State) (func slot host l src exp : Nat) (dests : BitVec 1152) (order : Option Nat) :
    s.maqSend func slot host l src exp dests order = s.hubSend (maqRequest func slot host l src exp dests order) := rfl

theorem State.issued_maqSend_allNodes (s : State) (func slot host l src exp : Nat) (order : Option Nat) :
    (s.maqSend func slot host l src exp allNodes order).issued 0x12 (maqOperand func slot host l src exp) allNodes := by
  rw [State.maqSend_eq, State.hubSend_allNodes s (q := maqRequest func slot host l src exp allNodes order) rfl]
  exact s.has_hubPacket (maqRequest func slot host l src exp allNodes order) allNodes

theorem State.issued_maqSend_oneNode (s : State) (func slot host l src exp u : Nat) (order : Option Nat) :
    (s.maqSend func slot host l src exp (oneNode u) order).issued 0x12 (maqOperand func slot host l src exp)
      (oneNode u) := by
  rw [State.maqSend_eq, State.hubSend_oneNode s (q := maqRequest func slot host l src exp (oneNode u) order) rfl]
  exact s.has_hubPacket (maqRequest func slot host l src exp (oneNode u) order) (oneNode u)

theorem OnlyChanges.maqSend (s : State) (func slot host l src exp : Nat) (dests : BitVec 1152) (order : Option Nat) :
    OnlyChanges [.arm] s (s.maqSend func slot host l src exp dests order) := OnlyChanges.hubSend s _

/-! ### Sessions -/

theorem State.session_of_maq {s t : State} (h : t.maq = s.maq) (k : Nat) : t.session k = s.session k := by
  rw [State.session, h, ← State.session]

section
variable {s : State} {x : Session} {k u h : Nat}

/-! ### A host for a due tile (R190, R191) -/

/-- The session of tile `u` as it begins, with its host. -/
def State.newSession (s : State) (u h : Nat) : Session := { host := h, source := u, logical := (s.logical u).getD 0 }

/-- Tile `u` is due no longer: its session takes slot `k`, and every node gets the pairing. -/
def State.hostAssigned (s : State) (u h k : Nat) : State :=
  ((s.modMaq u fun m => { m with due := none }).setSession k (some (s.newSession u h))).maqSend 0 k h
    ((s.logical u).getD 0) u 0 allNodes none

theorem State.maqAssign_of_free (hsource : s.sourceOk u = true)
    (hroom : s.maqActive < fld (s.inForce Reg.maqMaqCtl) 62 56) (hhost : nearestByRegion u s.freeHosts = some h)
    (hslot : ((List.range 32).find? fun k => (s.session k).isNone) = some k) :
    s.maqAssign u = s.hostAssigned u h k := by
  unfold State.maqAssign
  rw [if_pos (by rw [hsource, decide_eq_true hroom]; rfl), hhost, hslot]
  rfl

theorem State.session_of_freeSlot (hslot : ((List.range 32).find? fun k => (s.session k).isNone) = some k) :
    s.session k = none :=
  Option.isNone_iff_eq_none.1 (List.find?_some (p := fun k => (s.session k).isNone) hslot)

theorem State.maqAssign_cases (s : State) (u : Nat) :
    s.maqAssign u = s ∨ ∃ h k, s.session k = none ∧ s.maqAssign u = s.hostAssigned u h k := by
  unfold State.maqAssign
  split
  · split
    next h k hhost hslot => exact .inr ⟨h, k, State.session_of_freeSlot hslot, rfl⟩
    · exact .inl rfl
  · exact .inl rfl

theorem OnlyChanges.hostAssigned (s : State) (u h k : Nat) :
    OnlyChanges [.tiles, .maq, .arm] s (s.hostAssigned u h k) :=
  (((OnlyChanges.modMaq s u _).mono (by simp)).trans ((OnlyChanges.setSession _ k _).mono (by simp))).trans
    ((OnlyChanges.maqSend _ _ _ _ _ _ _ _ _).mono (by simp))

theorem State.tile_hostAssigned (s : State) (u h k v : Nat) :
    (s.hostAssigned u h k).tile v = (s.modMaq u fun m => { m with due := none }).tile v :=
  State.tile_of_tiles (OnlyChanges.maqSend _ _ _ _ _ _ _ _ _ .tiles (by simp)) v

theorem OnlyTiles.hostAssigned (s : State) (u h k : Nat) : OnlyTiles [u] s (s.hostAssigned u h k) := fun v hv => by
  rw [State.tile_hostAssigned]
  exact OnlyTiles.setTile s u _ v hv

theorem State.session_hostAssigned (s : State) (u h k j : Nat) :
    (s.hostAssigned u h k).session j = if j = k then some (s.newSession u h) else s.session j := by
  refine (State.session_of_maq (OnlyChanges.maqSend _ _ _ _ _ _ _ _ _ .maq (by simp)) j).trans ?_
  split
  next hj => rw [hj, State.session_setSession_self]
  next hj => exact State.session_setSession_ne _ _ hj

theorem State.issued_hostAssigned (s : State) (u h k : Nat) : (s.hostAssigned u h k).issued 0x12
    (maqOperand 0 k h ((s.logical u).getD 0) u 0) allNodes := State.issued_maqSend_allNodes _ _ _ _ _ _ _ _

theorem State.issued_hostAssigned_of {op : Nat} {operand : BitVec 96} {dests : BitVec 1152}
    (hs : s.issued op operand dests) (u h k : Nat) : (s.hostAssigned u h k).issued op operand dests := by
  unfold State.hostAssigned
  rw [State.maqSend_eq]
  refine State.issued_hubSend (State.issued_of_arm ?_ hs) _
  rfl

/-- What holds once tile `u` of the tiles `us` has its session `x` in slot `k`, announced by a packet with this operand;
no later assignment takes it back. -/
structure State.Hosted (s t : State) (us : List Nat) (u k : Nat) (x : Session) (operand : BitVec 96) : Prop where
  due : (t.tile u).maq.due = none
  session : t.session k = some x
  issued : t.issued 0x12 operand allNodes
  tiles : OnlyTiles us s t

theorem State.hosted_hostAssigned (s : State) {us : List Nat} (hu : u ∈ us) (h k : Nat) :
    s.Hosted (s.hostAssigned u h k) us u k (s.newSession u h) (maqOperand 0 k h ((s.logical u).getD 0) u 0) where
  due := by rw [State.tile_hostAssigned, State.tile_modMaq_self]
  session := by rw [State.session_hostAssigned, if_pos rfl]
  issued := s.issued_hostAssigned u h k
  tiles := (OnlyTiles.hostAssigned s u h k).mono (by simpa using hu)

theorem State.Hosted.maqAssign {t : State} {us : List Nat} {operand : BitVec 96} {v : Nat}
    (hosted : s.Hosted t us u k x operand) (hv : v ∈ us) : s.Hosted (t.maqAssign v) us u k x operand := by
  rcases t.maqAssign_cases v with heq | ⟨h, j, hfree, heq⟩
  · rwa [heq]
  rw [heq]
  have hkj : k ≠ j := fun hkj => by rw [← hkj, hosted.session] at hfree; cases hfree
  refine ⟨?_, ?_, State.issued_hostAssigned_of hosted.issued v h j,
    hosted.tiles.trans ((OnlyTiles.hostAssigned t v h j).mono (by simpa using hv))⟩
  · rw [State.tile_hostAssigned]
    by_cases huv : u = v
    · rw [huv, State.tile_modMaq_self]
    · rw [State.tile_modMaq_ne _ _ huv, hosted.due]
  · rw [State.session_hostAssigned, if_neg hkj, hosted.session]

/-! ### A session ends (R202) -/

/-- The session as its end leaves it. -/
def Session.ended (x : Session) : Session := { x with phase := 4 }

/-- The register in which an outcome is counted. -/
def MaqOut.counter : MaqOut → Option Nat
  | .agree => some Reg.maqAgreed
  | .missed => some Reg.maqMissed
  | .resolved => none
  | .abandoned _ => some Reg.maqAbandoned

/-- What the end of an open session leaves in its slot and in the counters of outcomes. -/
theorem State.maqEnd_of_open (hx : s.session k = some x) (hopen : x.phase ≠ 4) (o : MaqOut) :
    (s.maqEnd k o).maq = (s.setSession k (some x.ended)).maq ∧
      ∀ j, o.counter = some j → (s.maqEnd k o).regs = (s.bump j).regs := by
  unfold State.maqEnd
  rw [hx]
  dsimp only
  rw [if_neg (by simpa using hopen)]
  cases o with
  | resolved => exact ⟨rfl, fun _ hj => by cases hj⟩
  | _ => exact ⟨rfl, fun _ hj => by cases hj; rfl⟩

theorem State.session_maqEnd_self (hx : s.session k = some x) (hopen : x.phase ≠ 4) (o : MaqOut) :
    (s.maqEnd k o).session k = some x.ended :=
  (State.session_of_maq (State.maqEnd_of_open hx hopen o).1 k).trans (State.session_setSession_self s k _)

/-- An outcome counts in its register, up to all of its bits. -/
theorem State.reg_maqEnd (hx : s.session k = some x) (hopen : x.phase ≠ 4) {o : MaqOut} {j : Nat}
    (hj : o.counter = some j) : ((s.maqEnd k o).reg j).toNat = min ((s.reg j).toNat + 1) (regMask j) := by
  rw [State.reg_of_regs ((State.maqEnd_of_open hx hopen o).2 j hj) j]
  exact State.reg_bump_self s j 1 (regMask_lt j)

theorem State.session_maqEnd_ne (s : State) {j : Nat} (hj : j ≠ k) (o : MaqOut) :
    (s.maqEnd k o).session j = s.session j := by
  unfold State.maqEnd
  split
  · rfl
  · split
    · rfl
    · cases o <;> exact State.session_setSession_ne s _ hj

theorem State.pat_modCore (s : State) (u : Nat) (f : Core → Core) (v : Nat) :
    ((s.modCore u f).tile v).pat = (s.tile v).pat := by
  by_cases hv : v = u
  · rw [hv, State.tile_modCore_self]
  · rw [State.tile_modCore_ne _ _ hv]

theorem State.maqEnd_resolved (hx : s.session k = some x) (hopen : x.phase ≠ 4) :
    s.maqEnd k .resolved = s.setSession k (some x.ended) := by
  unfold State.maqEnd
  rw [hx]
  dsimp only
  rw [if_neg (by simpa using hopen)]
  rfl

theorem State.maqArmTimeout_of_over (hx : s.session k = some x) (hphase : x.phase = 0) (hover : s.armOver x = true) :
    s.maqArmTimeout k = s.maqEnd k .missed := by
  simp [State.maqArmTimeout, hx, hphase, hover]

theorem State.maqDeadline_of_late (hx : s.session k = some x) (hphase : x.phase = 1) (hlate : s.maqLate x = true) :
    s.maqDeadline k = s.maqEnd k (.abandoned 2) := by
  simp [State.maqDeadline, hx, hphase, hlate]

/-! ### The host's comparison (R196, R198, R200, R201) -/

/-- The host of session `x` in slot `k` has reported its outcome. -/
structure State.Reported (s t : State) (k : Nat) (x : Session) (out reason : Nat) : Prop where
  session : t.session k = some { x with phase := 2 }
  tiles : OnlyTiles [x.host] s t
  parts : OnlyChanges [.maq, .tiles] s t
  outcome : (t.tile x.host).core.sum.maqOut = out
  reason : (t.tile x.host).core.sum.maqReason = reason
  slot : (t.tile x.host).core.sum.maqSlot = k
  partner : (t.tile x.host).core.sum.maqPartner = x.source

theorem State.maqReport_reported (s : State) (k : Nat) (x : Session) (out reason : Nat) :
    s.Reported (s.maqReport k x out reason) k x out reason := by
  unfold State.maqReport
  exact ⟨State.session_setSession_self s k _, OnlyTiles.setTile (s.setSession k _) x.host _,
    ((OnlyChanges.setSession s k _).mono (by simp)).trans ((OnlyChanges.modCore _ _ _).mono (by simp)),
    by rw [State.tile_modCore_self], by rw [State.tile_modCore_self], by rw [State.tile_modCore_self],
    by rw [State.tile_modCore_self]⟩

theorem State.maqCompare_of_halted (hx : s.session k = some x) (hphase : x.phase = 1)
    (hhalt : (s.tile x.host).core.halted = true) : s.maqCompare k = s.maqReport k x 3 7 := by
  simp [State.maqCompare, hx, hphase, hhalt]

theorem State.maqCompare_of_missing (hx : s.session k = some x) (hphase : x.phase = 1)
    (hrun : (s.tile x.host).core.halted = false) (hmissing : s.operandMissing x = true) :
    s.maqCompare k = s.maqReport k x 3 1 := by
  simp [State.maqCompare, hx, hphase, hrun, hmissing]

theorem State.maqCompare_of_records {r h : MaqRecord} (hx : s.session k = some x) (hphase : x.phase = 1)
    (hrun : (s.tile x.host).core.halted = false) (hall : s.operandMissing x = false) (hsrc : x.src = some r)
    (hhost : x.hostRec = some h) : s.maqCompare k =
      if s.maqLate x then s.maqReport k x 3 2 else s.maqReport k x (if maqAgrees r h then 1 else 2) 0 := by
  simp [State.maqCompare, hx, hphase, hrun, hall, hsrc, hhost]

/-! ### A subscribed copy is dropped (R196) -/

/-- The transfer without its copy to the host `h`. -/
def withoutHost (h : Nat) (y : Xfer) : Xfer := { y with hosts := y.hosts.erase h }

/-- The oldest of some transfers that carries a copy to `h` loses it. -/
def dropOldest (h : Nat) (xs : List Xfer) : List Xfer :=
  match xs.findIdx? fun y => y.hosts.contains h with
  | some i => xs.modify i (withoutHost h)
  | none => xs

theorem dropOldest_append {h : Nat} {pre post : List Xfer} {y : Xfer} (hpre : ∀ z ∈ pre, h ∉ z.hosts) (hy : h ∈ y.hosts) :
    dropOldest h (pre ++ y :: post) = pre ++ withoutHost h y :: post := by
  have hnone : (pre.findIdx? fun z => z.hosts.contains h) = none :=
    List.findIdx?_eq_none_iff.2 fun z hz => by simpa using hpre z hz
  have hidx : ((pre ++ y :: post).findIdx? fun z => z.hosts.contains h) = some pre.length := by
    rw [List.findIdx?_append, hnone, List.findIdx?_cons, if_pos (by simpa using hy)]
    simp
  rw [dropOldest, hidx]
  simp [List.modify_eq_take_drop]

theorem State.copyDrop_of_found (hx : s.session k = some x)
    (hfind : (s.tiles.find? fun e => e.2.core.xfers.any fun y => y.hosts.contains x.host) = some (u, s.tile u)) :
    s.copyDrop k = s.modCore u fun c => { c with xfers := dropOldest x.host c.xfers } := by
  unfold State.copyDrop
  rw [hx]
  dsimp only
  rw [hfind]
  rfl

theorem State.copyDrop_of_none
    (hnone : ∀ x, s.session k = some x → ∀ e ∈ s.tiles, ∀ y ∈ e.2.core.xfers, x.host ∉ y.hosts) : s.copyDrop k = s := by
  unfold State.copyDrop
  split
  · rfl
  next x hx =>
    have hfind : (s.tiles.find? fun e => e.2.core.xfers.any fun y => y.hosts.contains x.host) = none := by
      simpa using fun a b hab => hnone x hx (a, b) hab
    rw [hfind]

/-! ### A tile taken to be wrong (R206) -/

theorem OnlyChanges.setContain (s : State) (x : ContainSt) : OnlyChanges [.contain] s { s with contain := x } :=
  fun p hp => by cases p <;> simp_all [Same]

theorem OnlyChanges.detect (s : State) (d : Detection) : OnlyChanges [.regs, .contain, .ev] s (s.detect d) := by
  have hcount : OnlyChanges [.regs, .contain, .ev] s (s.bump Reg.containDetections) :=
    (OnlyChanges.bump s _ _).mono (by simp)
  unfold State.detect
  dsimp only
  split
  · exact hcount.trans ((OnlyChanges.setContain _ _).mono (by simp))
  · exact (hcount.trans ((OnlyChanges.bump _ _ _).mono (by simp))).trans ((OnlyChanges.raise _ _).mono (by simp))

theorem OnlyRegs.detect (s : State) (d : Detection) :
    OnlyRegs [Reg.containDetections, Reg.containOverflows] s (s.detect d) := fun j hj => by
  obtain ⟨hdet, hover⟩ : j ≠ Reg.containDetections ∧ j ≠ Reg.containOverflows := by simpa using hj
  unfold State.detect
  dsimp only
  split
  · exact State.reg_bump_ne s 1 hdet
  · exact (State.reg_bump_ne (s.bump Reg.containDetections) 1 hover).trans (State.reg_bump_ne s 1 hdet)

/-- From `s` to `t` maquette charges have been given out: to each tile `u` as many as `n u`, and neither the sessions nor
the counts of unresolved checks have changed. -/
structure State.Charges (s t : State) (n : Nat → Nat) : Prop where
  maq : t.maq = s.maq
  unresolved : t.reg Reg.maqUnresolved = s.reg Reg.maqUnresolved
  charge : ∀ u, (t.tile u).pat.maqCharge = (s.tile u).pat.maqCharge + n u

theorem State.Charges.trans {t r : State} {n m : Nat → Nat} (h : s.Charges t n) (h' : t.Charges r m) :
    s.Charges r fun u => n u + m u :=
  ⟨h'.maq.trans h.maq, h'.unresolved.trans h.unresolved, fun u => by rw [h'.charge, h.charge, Nat.add_assoc]⟩

theorem State.charges_maqCharge (s : State) (u unit b0 : Nat) (c : Option Cmd) :
    s.Charges (s.maqCharge u unit b0 c) fun v => if v = u then 1 else 0 := by
  unfold State.maqCharge
  dsimp only
  generalize hd : ({ tile := u, unit, kind := 1, b0, cmd := c.map cmdIds } : Detection) = d
  have hdetect := OnlyChanges.detect s d
  have hcount := OnlyChanges.count ((s.detect d).modPat u fun p => { p with maqCharge := p.maqCharge + 1 }) u 11 1
  refine ⟨(hcount .maq (by simp)).trans (hdetect .maq (by simp)), ?_, fun v => ?_⟩
  · exact (State.reg_of_regs (hcount .regs (by simp)) _).trans (OnlyRegs.detect s d _ (by decide))
  · have hpat : (((s.detect d).modPat u fun p => { p with maqCharge := p.maqCharge + 1 }).count u 11 1 |>.tile v).pat =
        (((s.detect d).modPat u fun p => { p with maqCharge := p.maqCharge + 1 }).tile v).pat := by
      unfold State.count
      split
      · rfl
      · exact State.pat_modCore _ _ _ v
    rw [hpat]
    by_cases hv : v = u
    · rw [hv, State.tile_modPat_self, if_pos rfl, State.tile_of_tiles (hdetect .tiles (by simp))]
    · rw [State.tile_modPat_ne _ _ hv, if_neg hv, State.tile_of_tiles (hdetect .tiles (by simp)), Nat.add_zero]

/-- A charge that depends on the verdict. -/
def State.chargeWhen (s : State) (c : Bool) (u unit b0 : Nat) (cmd : Option Cmd) : State :=
  if c then s.maqCharge u unit b0 cmd else s

theorem State.charges_chargeWhen (s : State) (c : Bool) (u unit b0 : Nat) (cmd : Option Cmd) :
    s.Charges (s.chargeWhen c u unit b0 cmd) fun v => if c ∧ v = u then 1 else 0 := by
  cases c
  · exact ⟨rfl, rfl, fun v => by simp [State.chargeWhen]⟩
  · simpa [State.chargeWhen] using s.charges_maqCharge u unit b0 cmd

/-! ### Arbitration (R204 to R206) -/

/-- An empty record, which stands for one that is not there. -/
def noRecord : MaqRecord := { seals := [], units := [], digest := 0 }

/-- The verdict on session `x` with this record of the referee. -/
def Session.verdict (x : Session) (ref : Option MaqRecord) : Nat :=
  maqVerdict (x.src.getD noRecord) (x.hostRec.getD noRecord) ref

/-- Verdict `v` is reported by the record `r`, and one without a loser is counted. -/
def State.verdictRaised (s : State) (v : Nat) (r : EvRec) : State :=
  if v == 2 then (s.raise r).bump Reg.maqUnresolved else s.raise r

theorem State.verdictRaised_frame (s : State) (v : Nat) (r : EvRec) : OnlyChanges [.ev, .regs] s (s.verdictRaised v r) :=
  OnlyChanges.ite _ (((OnlyChanges.raise s r).mono (by simp)).trans ((OnlyChanges.bump _ _ _).mono (by simp)))
    ((OnlyChanges.raise s r).mono (by simp))

theorem State.maqArbitrate_eq (hx : s.session k = some x) (ref : Option MaqRecord) : ∃ r unit unit',
    s.maqArbitrate k ref = (((s.verdictRaised (x.verdict ref) r).chargeWhen (x.verdict ref != 1) x.source unit x.srcBeat
      x.cmd).chargeWhen (x.verdict ref != 0) x.host unit' (x.hostBeat.getD x.srcBeat) x.cmd).maqEnd k .resolved := by
  unfold State.maqArbitrate
  rw [hx]
  exact ⟨_, _, _, rfl⟩

/-- The session of slot `k` ends with a verdict: the source is charged unless the host alone is wrong, the host unless the
source alone is. -/
structure State.Arbitrated (s t : State) (k : Nat) (x : Session) (v : Nat) : Prop where
  session : t.session k = some x.ended
  unresolved : v = 2 →
    (t.reg Reg.maqUnresolved).toNat = min ((s.reg Reg.maqUnresolved).toNat + 1) (regMask Reg.maqUnresolved)
  charge : ∀ u, (t.tile u).pat.maqCharge =
    (s.tile u).pat.maqCharge + ((if v ≠ 1 ∧ u = x.source then 1 else 0) + if v ≠ 0 ∧ u = x.host then 1 else 0)

theorem State.maqArbitrate_arbitrated (hx : s.session k = some x) (hopen : x.phase ≠ 4) (ref : Option MaqRecord) :
    s.Arbitrated (s.maqArbitrate k ref) k x (x.verdict ref) := by
  obtain ⟨r, unit, unit', heq⟩ := State.maqArbitrate_eq hx ref
  generalize x.verdict ref = v at heq ⊢
  have hraised := s.verdictRaised_frame v r
  obtain ⟨hmaq, hreg, hcharge⟩ := ((s.verdictRaised v r).charges_chargeWhen (v != 1) x.source unit x.srcBeat x.cmd).trans
    (State.charges_chargeWhen _ (v != 0) x.host unit' (x.hostBeat.getD x.srcBeat) x.cmd)
  rw [heq, State.maqEnd_resolved ((State.session_of_maq (hmaq.trans (hraised .maq (by simp))) k).trans hx) hopen]
  refine ⟨State.session_setSession_self _ k _, fun hv => ?_, fun u => ?_⟩
  · refine (congrArg BitVec.toNat hreg).trans ?_
    rw [hv]
    exact State.reg_bump_self (s.raise r) _ 1 (regMask_lt _)
  · refine (hcharge u).trans ?_
    rw [State.tile_of_tiles (hraised .tiles (by simp))]
    simp

end

end Sys2Proof.Machine
end


section
/-! PROOF. The life of a maquette session (R190, R191, R196, R200, R201, R204 to R206). -/

namespace Sys2Proof.Machine

section
variable {s : State} {x : Session} {k u h : Nat}

/-! ### The commands -/

theorem exec_maqHostAssign (hready : s.ready = true) (hawake : s.inRepose = false) (hdispatch : s.dispatching = true) :
    exec .maqHostAssign s = .next s.maqAssignAll :=
  calc exec .maqHostAssign s = doWhen (s.ready && !s.inRepose && s.dispatching) State.maqAssignAll s := rfl
    _ = _ := doWhen_true (by rw [hready, hawake, hdispatch]; rfl)

theorem exec_maqArmTimeout (hready : s.ready = true) (k : Nat) : exec (.maqArmTimeout k) s = .next (s.maqArmTimeout k) :=
  calc exec (.maqArmTimeout k) s = doWhen s.ready (fun s => s.maqArmTimeout k) s := rfl
    _ = _ := doWhen_true hready

theorem exec_maqDeadline (hready : s.ready = true) (k : Nat) : exec (.maqDeadline k) s = .next (s.maqDeadline k) :=
  calc exec (.maqDeadline k) s = doWhen s.ready (fun s => s.maqDeadline k) s := rfl
    _ = _ := doWhen_true hready

theorem exec_subscribedCopyDrop (hready : s.ready = true) (k : Nat) :
    exec (.subscribedCopyDrop k) s = .next (s.copyDrop k) :=
  calc exec (.subscribedCopyDrop k) s = doWhen s.ready (fun s => s.copyDrop k) s := rfl
    _ = _ := doWhen_true hready

theorem exec_maqCompare (hready : s.ready = true) (hx : s.session k = some x) :
    exec (.maqCompare k x.host) s = .next (s.maqCompare k) :=
  calc exec (.maqCompare k x.host) s =
      doWhen (s.ready && (s.session k).any fun y => y.host == x.host) (fun s => s.maqCompare k) s := rfl
    _ = _ := doWhen_true (by simp [hready, hx])

theorem exec_maqRefereeAssign (hready : s.ready = true) (hdispatch : s.dispatching = true) (k : Nat) :
    exec (.maqRefereeAssign k) s = .next (s.maqReferee k) :=
  calc exec (.maqRefereeAssign k) s = doWhen (s.ready && s.dispatching) (fun s => s.maqReferee k) s := rfl
    _ = _ := doWhen_true (by rw [hready, hdispatch]; rfl)

theorem exec_maqArbitration {q : Nat} (hready : s.ready = true) (hx : s.session k = some x) (hreferee : x.referee = some q) :
    exec (.maqArbitration k q) s = .next (s.maqArbitration k) :=
  calc exec (.maqArbitration k q) s =
      doWhen (s.ready && (s.session k).any fun y => y.referee == some q) (fun s => s.maqArbitration k) s := rfl
    _ = _ := doWhen_true (by simp [hready, hx, hreferee])

/-! ### Due tiles get their hosts (R190, R191) -/

/-- The first due tile gets its host, and the assignments to the others leave it its session. -/
theorem exec_maqHostAssign_hosted {rest : List Nat} (hready : s.ready = true) (hawake : s.inRepose = false)
    (hdispatch : s.dispatching = true) (hon : bit (s.inForce Reg.maqMaqCtl) 0 = true) (hdue : s.dueTiles = u :: rest)
    (hsource : s.sourceOk u = true) (hroom : s.maqActive < fld (s.inForce Reg.maqMaqCtl) 62 56)
    (hslot : ((List.range 32).find? fun k => (s.session k).isNone) = some k)
    (hhost : nearestByRegion u s.freeHosts = some h) :
    ∃ t, exec .maqHostAssign s = .next t ∧
      s.Hosted t s.dueTiles u k (s.newSession u h) (maqOperand 0 k h ((s.logical u).getD 0) u 0) := by
  refine ⟨s.maqAssignAll, exec_maqHostAssign hready hawake hdispatch, ?_⟩
  have hall : s.maqAssignAll = rest.foldl State.maqAssign (s.hostAssigned u h k) := by
    rw [State.maqAssignAll, if_pos hon, hdue, List.foldl_cons, State.maqAssign_of_free hsource hroom hhost hslot]
  rw [hall, hdue]
  exact List.foldlRecOn
    (motive := fun t => s.Hosted t (u :: rest) u k (s.newSession u h) (maqOperand 0 k h ((s.logical u).getD 0) u 0))
    rest _ (s.hosted_hostAssigned List.mem_cons_self h k) fun _ ht _ hv => ht.maqAssign (List.mem_cons_of_mem u hv)

/-! ### Referees and arbitration (R203 to R206) -/

theorem State.maqReferee_of_free {r : Nat} (hx : s.session k = some x) (hphase : x.phase = 3) (hnone : x.referee = none)
    (hopen : s.fenced x.host = false) (hintime : s.beat ≤ x.disBeat + fld (s.inForce Reg.maqMaqCtl) 39 36)
    (hfree : nearestByRegion x.source (s.freeHosts.filter fun t => t != x.host && t != x.source) = some r) :
    s.maqReferee k = (s.setSession k (some { x with referee := some r, refBeat := s.beat })).maqSend 4 k r x.logical
      x.source 0 (oneNode r) none := by
  simp [State.maqReferee, hx, hphase, hnone, hopen, Nat.not_lt.2 hintime, hfree]

theorem State.maqReferee_of_unresolved (hx : s.session k = some x) (hphase : x.phase = 3) (hnone : x.referee = none)
    (h : s.fenced x.host = true ∨ x.disBeat + fld (s.inForce Reg.maqMaqCtl) 39 36 < s.beat) :
    s.maqReferee k = s.maqArbitrate k none := by
  simp [State.maqReferee, hx, hphase, hnone, h]

theorem State.maqArbitration_of_fenced {q : Nat} (hx : s.session k = some x) (hphase : x.phase = 3)
    (hreferee : x.referee = some q) (hfenced : s.fenced x.host = true) : s.maqArbitration k = s.maqArbitrate k none := by
  simp [State.maqArbitration, hx, hphase, hreferee, hfenced]

theorem State.maqArbitration_of_record {q : Nat} {r : MaqRecord} (hx : s.session k = some x) (hphase : x.phase = 3)
    (hreferee : x.referee = some q) (hrecord : x.refRec = some r) (hrun : (s.tile q).core.halted = false)
    (hopen : s.fenced x.host = false) (hintime : s.beat ≤ x.refBeat + fld (s.inForce Reg.maqMaqCtl) 55 48) :
    s.maqArbitration k = s.maqArbitrate k (some r) := by
  simp [State.maqArbitration, hx, hphase, hreferee, hrecord, hrun, hopen, Nat.not_lt.2 hintime]

theorem exec_maqRefereeAssign_armed {r : Nat} (hready : s.ready = true) (hdispatch : s.dispatching = true)
    (hx : s.session k = some x) (hphase : x.phase = 3) (hnone : x.referee = none) (hopen : s.fenced x.host = false)
    (hintime : s.beat ≤ x.disBeat + fld (s.inForce Reg.maqMaqCtl) 39 36)
    (hfree : nearestByRegion x.source (s.freeHosts.filter fun t => t != x.host && t != x.source) = some r) :
    ∃ t p, exec (.maqRefereeAssign k) s = .next t ∧ t.session k = some { x with referee := some r, refBeat := s.beat } ∧
      t.has p ∧ p.op = 0x12 ∧ p.dests = oneNode r ∧ ofld p.operand 95 92 = 4 := by
  have heq := exec_maqRefereeAssign hready hdispatch k
  rw [State.maqReferee_of_free hx hphase hnone hopen hintime hfree] at heq
  obtain ⟨p, hp, hop, hdests, hoperand⟩ :=
    (s.setSession k (some { x with referee := some r, refBeat := s.beat })).issued_maqSend_oneNode 4 k r x.logical
      x.source 0 r none
  refine ⟨_, p, heq, ?_, hp, hop, hdests, by rw [hoperand, ofld_maqOperand_func (by decide)]⟩
  exact (State.session_of_maq (OnlyChanges.maqSend _ _ _ _ _ _ _ _ _ .maq (by simp)) k).trans
    (State.session_setSession_self s k _)

/-- Without a referee, and with the host fenced or REF_WAIT over, arbitration ends. -/
theorem exec_maqRefereeAssign_unresolved (hready : s.ready = true) (hdispatch : s.dispatching = true)
    (hx : s.session k = some x) (hphase : x.phase = 3) (hnone : x.referee = none)
    (h : s.fenced x.host = true ∨ x.disBeat + fld (s.inForce Reg.maqMaqCtl) 39 36 < s.beat) :
    ∃ t, exec (.maqRefereeAssign k) s = .next t ∧ s.Arbitrated t k x 2 := by
  refine ⟨_, exec_maqRefereeAssign hready hdispatch k, ?_⟩
  rw [State.maqReferee_of_unresolved hx hphase hnone h]
  exact State.maqArbitrate_arbitrated hx (by rw [hphase]; decide) none

/-! ### The charges of a verdict (Table 6.4) -/

section
variable {t : State} {a b r : MaqRecord}

/-- A referee that agrees with the host alone finds the source wrong. -/
theorem State.Arbitrated.source (harb : s.Arbitrated t k x (maqVerdict a b (some r))) (hne : x.source ≠ x.host)
    (hb : maqAgrees r b = true) (ha : maqAgrees r a = false) :
    (t.tile x.source).pat.maqCharge = (s.tile x.source).pat.maqCharge + 1 ∧
      (t.tile x.host).pat.maqCharge = (s.tile x.host).pat.maqCharge := by
  have hverdict : maqVerdict a b (some r) = 0 := by simp [maqVerdict, ha, hb]
  rw [hverdict] at harb
  exact ⟨by simp [harb.charge], by simp [harb.charge, hne.symm]⟩

/-- A referee that agrees with the source alone finds the host wrong. -/
theorem State.Arbitrated.host (harb : s.Arbitrated t k x (maqVerdict a b (some r))) (hne : x.source ≠ x.host)
    (ha : maqAgrees r a = true) (hb : maqAgrees r b = false) :
    (t.tile x.host).pat.maqCharge = (s.tile x.host).pat.maqCharge + 1 ∧
      (t.tile x.source).pat.maqCharge = (s.tile x.source).pat.maqCharge := by
  have hverdict : maqVerdict a b (some r) = 1 := by simp [maqVerdict, ha, hb]
  rw [hverdict] at harb
  exact ⟨by simp [harb.charge], by simp [harb.charge, hne]⟩

/-- A referee that agrees with both or with neither leaves the check unresolved. -/
theorem State.Arbitrated.both (harb : s.Arbitrated t k x (maqVerdict a b (some r))) (hne : x.source ≠ x.host)
    (hab : maqAgrees r a = maqAgrees r b) :
    (t.tile x.host).pat.maqCharge = (s.tile x.host).pat.maqCharge + 1 ∧
      (t.tile x.source).pat.maqCharge = (s.tile x.source).pat.maqCharge + 1 := by
  have hverdict : maqVerdict a b (some r) = 2 := by simp [maqVerdict, hab]
  rw [hverdict] at harb
  exact ⟨by simp [harb.charge, hne.symm], by simp [harb.charge, hne]⟩

end

/-! ### Copies -/

theorem exec_subscribedCopyDrop_oldest {pre post : List Xfer} {y : Xfer} (hready : s.ready = true)
    (hx : s.session k = some x)
    (hfind : (s.tiles.find? fun e => e.2.core.xfers.any fun y => y.hosts.contains x.host) = some (u, s.tile u))
    (hxfers : (s.tile u).core.xfers = pre ++ y :: post) (hpre : ∀ z ∈ pre, x.host ∉ z.hosts) (hy : x.host ∈ y.hosts) :
    ∃ t, exec (.subscribedCopyDrop k) s = .next t ∧ OnlyTiles [u] s t ∧ OnlyChanges [.tiles] s t ∧
      (t.tile u).core = { (s.tile u).core with xfers := pre ++ { y with hosts := y.hosts.erase x.host } :: post } := by
  refine ⟨_, exec_subscribedCopyDrop hready k, ?_⟩
  rw [State.copyDrop_of_found hx hfind]
  refine ⟨OnlyTiles.modCore s u _, OnlyChanges.modCore s u _, ?_⟩
  rw [State.tile_modCore_self, hxfers, dropOldest_append hpre hy]
  rfl

end

/-! ### The obligation -/

/-- Settles O46, command by command: the first due tile keeps the session that its host gives it, a session that ends
keeps all but its phase, the host reports what the first applicable of its findings says, and the verdict of the referee
says whom arbitration charges. -/
theorem maquetteSessions : Obligations.MaquetteSessions := by
  unfold Obligations.MaquetteSessions
  refine ⟨fun u h k rest s hready hawake hdispatch hon hdue hsource hroom hslot hhost => ?_,
    fun k a x s hready hx hphase harm hover => ?_, fun k e x s hready hx hphase hend hlate => ?_,
    fun k x r h s hready hx hphase hall hsrc hhost hrun hintime => ?_, fun k x s hready hx hphase hwhy => ?_,
    fun k x r h s hready hx hphase hall hsrc hhost hrun hlate => ?_,
    fun k u x pre post y s hready hx hfind hxfers hpre hy =>
      exec_subscribedCopyDrop_oldest hready hx hfind hxfers hpre hy,
    fun k s hready hnone => (exec_subscribedCopyDrop hready k).trans (congrArg _ (State.copyDrop_of_none hnone)),
    fun k r x s hready hdispatch hx hphase hnone hopen hintime hfree =>
      exec_maqRefereeAssign_armed hready hdispatch hx hphase hnone hopen hintime hfree,
    fun k x s hready hdispatch hx hphase hnone hwhy => ?_,
    fun k q x a b r s hready hx hphase hreferee hrecord hrun hsrc hhost hne hopen hintime => ?_⟩
  · obtain ⟨t, heq, hdue', hsession, ⟨p, hp, hop, hdests, hoperand⟩, htiles⟩ :=
      exec_maqHostAssign_hosted hready hawake hdispatch hon hdue hsource hroom hslot hhost
    have hk : k < 32 := List.mem_range.1 (List.mem_of_find?_eq_some hslot)
    exact ⟨t, p, heq, hdue', htiles, hp, hop, hdests, by rw [hoperand, ofld_maqOperand_func (by decide)],
      by rw [hoperand, ofld_maqOperand_slot hk], hsession⟩
  · have hopen : x.phase ≠ 4 := by rw [hphase]; decide
    refine ⟨_, exec_maqArmTimeout hready k, ?_⟩
    rw [State.maqArmTimeout_of_over hx hphase (by simpa [State.armOver, harm] using hover)]
    exact ⟨State.session_maqEnd_self hx hopen _, fun j hj => State.session_maqEnd_ne s hj _,
      State.reg_maqEnd hx hopen rfl⟩
  · have hopen : x.phase ≠ 4 := by rw [hphase]; decide
    refine ⟨_, exec_maqDeadline hready k, ?_⟩
    rw [State.maqDeadline_of_late hx hphase (by simpa [State.maqLate, hend] using hlate)]
    exact ⟨State.session_maqEnd_self hx hopen _, State.reg_maqEnd hx hopen rfl⟩
  · obtain ⟨hsession, htiles, hparts, hout, -, hslot, hpartner⟩ :=
      s.maqReport_reported k x (if maqAgrees r h then 1 else 2) 0
    refine ⟨_, (exec_maqCompare hready hx).trans ?_, hsession, htiles, hparts, hout, hslot, hpartner⟩
    rw [State.maqCompare_of_records hx hphase hrun hall hsrc hhost, hintime]
    rfl
  · cases hhalt : (s.tile x.host).core.halted with
    | true =>
      obtain ⟨hsession, htiles, -, hout, hreason, -, -⟩ := s.maqReport_reported k x 3 7
      refine ⟨_, (exec_maqCompare hready hx).trans ?_, hsession, htiles, hout, hreason⟩
      rw [State.maqCompare_of_halted hx hphase hhalt]
    | false =>
      have hmissing : s.operandMissing x = true := hwhy.resolve_left (by rw [hhalt]; decide)
      obtain ⟨hsession, htiles, -, hout, hreason, -, -⟩ := s.maqReport_reported k x 3 1
      refine ⟨_, (exec_maqCompare hready hx).trans ?_, hsession, htiles, hout, hreason⟩
      rw [State.maqCompare_of_missing hx hphase hhalt hmissing]
  · obtain ⟨hsession, htiles, -, hout, hreason, -, -⟩ := s.maqReport_reported k x 3 2
    refine ⟨_, (exec_maqCompare hready hx).trans ?_, hsession, htiles, hout, hreason⟩
    rw [State.maqCompare_of_records hx hphase hrun hall hsrc hhost, hlate]
    rfl
  · obtain ⟨t, heq, harb⟩ := exec_maqRefereeAssign_unresolved hready hdispatch hx hphase hnone hwhy
    exact ⟨t, heq, harb.session, harb.unresolved rfl⟩
  · have harb := State.maqArbitrate_arbitrated hx (by rw [hphase]; decide) (some r)
    rw [Session.verdict, hsrc, hhost, Option.getD_some, Option.getD_some,
      ← State.maqArbitration_of_record hx hphase hreferee hrecord hrun hopen hintime] at harb
    exact ⟨_, exec_maqArbitration hready hx hreferee, by rw [harb.session]; rfl, harb.source hne, harb.host hne,
      harb.both hne⟩

end Sys2Proof.Machine
end


section
/-! PROOF. MAQ_SET at a node (R211, R264), and the steps of a session where their occasion holds (R190, R196, R198, R201,
R204, R205). -/

namespace Sys2Proof.Machine

section
variable {n : NodeOp} {f u : Nat} {g : BitVec 16} {s a t : State}

/-! ### What a node makes of MAQ_SET (R211) -/

/-- MAQ_SET reads no field that naming the function changes. -/
theorem State.nodeMaq_withFunc (s : State) (u func : Nat) (g : BitVec 16) :
    s.nodeMaq u func g (withFunc n 4 f).operand = s.nodeMaq u func g n.operand := by
  simp [State.nodeMaq]

/-- The function does not go by the map, or comes under one that is not older than the node's (R264). -/
def State.freshSet (s : State) (u f : Nat) (g : BitVec 16) : Prop :=
  f = 0 ∨ f = 2 → genNewer (s.tile u).core.nodeGen.toNat g.toNat = false

/-- The tile can be armed, where the function arms it (R211). -/
def State.mayTakeSet (s : State) (u f : Nat) : Prop := 2 ≤ f → f ≤ 4 → s.armOk u = true

theorem OnlyChanges.armFailed (s : State) (k reason : Nat) : OnlyChanges [.maq] s (s.armFailed k reason) := by
  unfold State.armFailed
  split
  · exact OnlyChanges.setSession s k _
  · exact OnlyChanges.refl _ s

theorem OnlyChanges.refereeArm (s : State) (u k src : Nat) : OnlyChanges [.tiles, .regs] s (s.refereeArm u k src) := by
  unfold State.refereeArm
  split
  · exact ((OnlyChanges.modMaq s u _).mono (by simp)).trans ((OnlyChanges.bump _ _ _).mono (by simp))
  · exact (OnlyChanges.modMaq s u _).mono (by simp)

theorem OnlyChanges.maqDiscard (s : State) (u : Nat) : OnlyChanges [.tiles] s (s.maqDiscard u) :=
  (OnlyChanges.modMaq s u _).trans (OnlyChanges.modCore _ u _)

/-- Carrying out a MAQ_SET sends nothing unless its map is older than the node's. -/
theorem State.nodeMaq_parts (hfresh : s.freshSet u f g) (o : BitVec 96) :
    OnlyChanges [.tiles, .regs, .maq] s (s.nodeMaq u f g o) := by
  have hset (fm : MaqTile → MaqTile) : OnlyChanges [.tiles, .regs, .maq] s (s.modMaq u fm) :=
    (OnlyChanges.modMaq s u fm).mono (by simp)
  have hfail (k reason : Nat) : OnlyChanges [.tiles, .regs, .maq] s (s.armFailed k reason) :=
    (OnlyChanges.armFailed s k reason).mono (by simp)
  unfold State.nodeMaq
  dsimp only
  split
  · rw [hfresh (.inl rfl), if_neg Bool.false_ne_true]
    exact hset _
  · exact hset _
  · rw [hfresh (.inr rfl), if_neg Bool.false_ne_true]
    exact OnlyChanges.ite _ (hset _) (hfail _ _)
  · exact OnlyChanges.ite _ (hset _) (hfail _ _)
  · exact OnlyChanges.ite _ ((OnlyChanges.refereeArm s u _ _).mono (by simp)) (hfail _ _)
  · exact OnlyChanges.ite _ ((OnlyChanges.maqDiscard s u).mono (by simp)) (OnlyChanges.refl _ s)
  · exact hset _
  · exact OnlyChanges.refl _ s

theorem State.maqReply_done (hfresh : s.freshSet u f g) (harm : s.mayTakeSet u f) : s.maqReply u f g = rDONE := by
  have hstale : ((f == 0 || f == 2) && genNewer (s.tile u).core.nodeGen.toNat g.toNat) = false := by
    by_cases hf : f = 0 ∨ f = 2
    · rw [hfresh hf, Bool.and_false]
    · simp [not_or.1 hf]
  unfold State.maqReply
  dsimp only
  rw [hstale]
  by_cases hf : 2 ≤ f ∧ f ≤ 4
  · have hopen := harm hf.1 hf.2
    simp only [State.armOk, Bool.and_eq_true, Bool.not_eq_true'] at hopen
    simp [hopen.1, hopen.2]
  · simp [hf]

theorem State.freshSet_of_tiles (h : t.tiles = s.tiles) (hfresh : s.freshSet u f g) : t.freshSet u f g := by
  rwa [State.freshSet, State.tile_of_tiles h]

theorem State.armOk_of_tiles (h : t.tiles = s.tiles) (u : Nat) : t.armOk u = s.armOk u := by
  rw [State.armOk, State.armOk, State.tile_of_tiles h]

theorem State.maqReply_of_tiles (h : t.tiles = s.tiles) (u f : Nat) (g : BitVec 16) :
    t.maqReply u f g = s.maqReply u f g := by
  rw [State.maqReply, State.maqReply, State.tile_of_tiles h]

/-! ### MAQ_SET reaches its node -/

theorem func_le_of_maqSetOk {o : BitVec 96} (h : maqSetOk f o = true) : f ≤ 6 := by
  simp only [maqSetOk, Bool.and_eq_true, decide_eq_true_eq] at h
  exact h.1.1.1

theorem State.nodeDo_maqSet (a : State) (hf : f ≤ 6) (g : BitVec 16) :
    a.nodeDo n.node 0x12 g (withFunc n 4 f).operand [] = a.nodeMaqSet n.node f g (withFunc n 4 f).operand := by
  have hfunc : ofld (withFunc n 4 f).operand 95 92 = f := ofld_withFunc_func (w := 4) (by decide) (by omega)
  rw [State.nodeDo, hfunc]

/-- A well-formed MAQ_SET is carried out in a state `a` that differs in packets and records only, and answered. -/
theorem maqSet_answered (h : s.nodeReady 0x12 (withFunc n 4 f)) (hok : maqSetOk f (withFunc n 4 f).operand = true)
    (hfresh : s.freshSet n.node f n.mapgen) :
    ∃ a t, nodeRow 0x12 (withFunc n 4 f) [] s = .next t ∧ t.replied n.node (s.maqReply n.node f n.mapgen) ∧
      OnlyChanges [.arm, .ev] s a ∧ OnlyChanges [.arm] (a.nodeMaq n.node f n.mapgen n.operand) t := by
  have hbrought := OnlyChanges.brought s 0x12 (withFunc n 4 f)
  have htiles : (s.brought 0x12 (withFunc n 4 f)).tiles = s.tiles := hbrought .tiles (by simp)
  have harm : ((s.brought 0x12 (withFunc n 4 f)).nodeMaq n.node f n.mapgen n.operand).arm =
      (s.brought 0x12 (withFunc n 4 f)).arm :=
    State.nodeMaq_parts (State.freshSet_of_tiles htiles hfresh) n.operand .arm (by simp)
  have hdo : (s.brought 0x12 (withFunc n 4 f)).nodeDo n.node 0x12 n.mapgen (withFunc n 4 f).operand [] =
      ((s.brought 0x12 (withFunc n 4 f)).nodeMaq n.node f n.mapgen n.operand).reply n.node
        (s.maqReply n.node f n.mapgen) := by
    rw [State.nodeDo_maqSet _ (func_le_of_maqSetOk hok), State.nodeMaqSet, if_pos hok, State.nodeMaq_withFunc,
      State.maqReply_of_tiles htiles]
  obtain ⟨t, heq, hreply, hparts⟩ := nodeRow_answered h (withFunc_node n 4 f) (withFunc_mapgen n 4 f) hdo
    (by rw [harm, State.brought_parked, h.2.2.1])
  exact ⟨_, t, heq, hreply, hbrought, hparts⟩

theorem maqSet_rejected (h : s.nodeReady 0x12 (withFunc n 4 f)) (hbad : maqSetOk f (withFunc n 4 f).operand = false)
    (hf : f ≤ 6) :
    ∃ t, nodeRow 0x12 (withFunc n 4 f) [] s = .next t ∧ t.replied n.node rREJECTED ∧ OnlyChanges [.arm, .ev] s t := by
  have hdo : (s.brought 0x12 (withFunc n 4 f)).nodeDo n.node 0x12 n.mapgen (withFunc n 4 f).operand [] =
      (s.brought 0x12 (withFunc n 4 f)).reply n.node rREJECTED := by
    rw [State.nodeDo_maqSet _ hf, State.nodeMaqSet, hbad, if_neg Bool.false_ne_true, State.replyRejected]
  obtain ⟨t, heq, hreply, hparts⟩ := nodeRow_answered h (withFunc_node n 4 f) (withFunc_mapgen n 4 f) hdo
    (by rw [State.brought_parked, h.2.2.1])
  exact ⟨t, heq, hreply, (OnlyChanges.brought s _ _).trans (hparts.mono (by simp))⟩

/-! ### MAQ_SET that changes its own tile only -/

/-- From `s` to `t` the tile `u` alone changes, and its part in maquette becomes `m`. -/
structure State.SetsMaq (s t : State) (u : Nat) (m : MaqTile) : Prop where
  tiles : OnlyTiles [u] s t
  parts : OnlyChanges [.tiles] s t
  maq : (t.tile u).maq = m

theorem State.setsMaq_modMaq (s : State) (u : Nat) (fm : MaqTile → MaqTile) :
    s.SetsMaq (s.modMaq u fm) u (fm (s.tile u).maq) :=
  ⟨OnlyTiles.setTile s u _, OnlyChanges.modMaq s u fm, by rw [State.tile_modMaq_self]⟩

/-- The tile's part in maquette without a session. -/
def MaqTile.discarded (m : MaqTile) : MaqTile :=
  { m with role := 0, partner := 0, slot := 0, descr := none, begun := false, staged := [] }

theorem State.setsMaq_maqDiscard (s : State) (u : Nat) : s.SetsMaq (s.maqDiscard u) u (s.tile u).maq.discarded := by
  refine ⟨(OnlyTiles.setTile s u _).trans (OnlyTiles.modCore _ u _), OnlyChanges.maqDiscard s u, ?_⟩
  unfold State.maqDiscard
  dsimp only
  rw [State.tile_modCore_self, State.tile_modMaq_self]
  rfl

/-- What function `f` with this operand makes of its tile's part in maquette, where the tile takes it; ARM_REFEREE looks
at the session too. -/
def maqSetTile (f : Nat) (o : BitVec 96) (m : MaqTile) : MaqTile :=
  match f with
  | 0 => { m with pairs := tset (0, 0, 0) m.pairs (ofld o 91 87) (ofld o 86 76, ofld o 75 66, ofld o 65 55) }
  | 1 => { m with pairs := terase m.pairs (ofld o 91 87) }
  | 2 => { m with role := 1, partner := ofld o 86 76, slot := ofld o 91 87 }
  | 3 => { m with role := 3, partner := ofld o 65 55, slot := ofld o 91 87, descr := none, begun := false, staged := [] }
  | 5 => m.discarded
  | 6 => { m with config := ofld o 3 0 }
  | _ => m

theorem State.nodeMaq_setsMaq {o : BitVec 96} (hfresh : s.freshSet u f g) (harm : s.mayTakeSet u f) (hreferee : f ≠ 4)
    (hend : f = 5 → (s.tile u).maq.slot = ofld o 91 87) :
    s.SetsMaq (s.nodeMaq u f g o) u (maqSetTile f o (s.tile u).maq) := by
  unfold State.nodeMaq
  dsimp only
  split
  · rw [hfresh (.inl rfl), if_neg Bool.false_ne_true]
    exact s.setsMaq_modMaq u _
  · exact s.setsMaq_modMaq u _
  · rw [hfresh (.inr rfl), if_neg Bool.false_ne_true, if_pos (harm (by decide) (by decide))]
    exact s.setsMaq_modMaq u _
  · rw [if_pos (harm (by decide) (by decide))]
    exact s.setsMaq_modMaq u _
  · exact absurd rfl hreferee
  · rw [if_pos (beq_iff_eq.2 (hend rfl))]
    exact s.setsMaq_maqDiscard u
  · exact s.setsMaq_modMaq u _
  · exact ⟨OnlyTiles.of_tiles rfl, OnlyChanges.refl _ s, by simp [maqSetTile]⟩

/-- A MAQ_SET that its node takes, other than ARM_REFEREE, changes its tile alone and is answered DONE. -/
theorem maqSet_done (h : s.nodeReady 0x12 (withFunc n 4 f)) (hok : maqSetOk f (withFunc n 4 f).operand = true)
    (hfresh : s.freshSet n.node f n.mapgen) (harm : s.mayTakeSet n.node f) (hreferee : f ≠ 4)
    (hend : f = 5 → (s.tile n.node).maq.slot = ofld n.operand 91 87) :
    ∃ t, nodeRow 0x12 (withFunc n 4 f) [] s = .next t ∧ t.replied n.node rDONE ∧ OnlyTiles [n.node] s t ∧
      OnlyChanges [.tiles, .arm, .ev] s t ∧ (t.tile n.node).maq = maqSetTile f n.operand (s.tile n.node).maq := by
  obtain ⟨a, t, heq, hreply, hbrought, hdone⟩ := maqSet_answered h hok hfresh
  rw [State.maqReply_done hfresh harm] at hreply
  have ha : a.tiles = s.tiles := hbrought .tiles (by simp)
  have htile := State.tile_of_tiles ha n.node
  obtain ⟨htiles, hparts, hmaq⟩ := State.nodeMaq_setsMaq (State.freshSet_of_tiles ha hfresh)
    (fun h2 h4 => (State.armOk_of_tiles ha n.node).trans (harm h2 h4)) hreferee
    fun h5 => by rw [htile, hend h5]
  have ht : t.tiles = (a.nodeMaq n.node f n.mapgen n.operand).tiles := hdone .tiles (by simp)
  exact ⟨t, heq, hreply, (OnlyTiles.of_tiles ha).trans (htiles.trans (OnlyTiles.of_tiles ht)),
    ((hbrought.mono (by simp)).trans (hparts.mono (by simp))).trans (hdone.mono (by simp)),
    by rw [State.tile_of_tiles ht, hmaq, htile]⟩

/-- PAIR_DEL, END and SET_RATE go by no map and do not arm. -/
theorem State.freshSet_of_ne (s : State) (u : Nat) (g : BitVec 16) (h0 : f ≠ 0) (h2 : f ≠ 2) : s.freshSet u f g :=
  fun h => (h.elim h0 h2).elim

theorem State.mayTakeSet_of_unarmed (s : State) (u : Nat) (hf : f < 2 ∨ 4 < f) : s.mayTakeSet u f :=
  fun h2 h4 => absurd h2 (by omega)

/-! ### Arms that fail, and the arm of a referee (R204, R211) -/

/-- ARM_HOST at a fenced tile ends the session of its slot, and is answered FENCED. -/
theorem maqSetArmHost_fenced (h : s.nodeReady 0x12 (withFunc n 4 3)) (hok : maqSetOk 3 (withFunc n 4 3).operand = true)
    (hrouter : (s.tile n.node).core.router = true) :
    ∃ t, exec (.maqSetArmHost n) s = .next t ∧ t.replied n.node rFENCED ∧ OnlyChanges [.maq, .arm, .ev] s t := by
  obtain ⟨a, t, heq, hreply, hbrought, hdone⟩ := maqSet_answered h hok (s.freshSet_of_ne _ _ (by decide) (by decide))
  have hfenced : s.maqReply n.node 3 n.mapgen = rFENCED := by simp [State.maqReply, hrouter]
  have hfail : a.nodeMaq n.node 3 n.mapgen n.operand = a.armFailed (ofld n.operand 91 87) 4 := by
    simp [State.nodeMaq, State.armOk, State.tile_of_tiles (hbrought .tiles (by simp)), hrouter]
  rw [hfail] at hdone
  exact ⟨t, heq, hfenced ▸ hreply, ((hbrought.mono (by simp)).trans ((OnlyChanges.armFailed a _ _).mono (by simp))).trans
    (hdone.mono (by simp))⟩

/-- What ARM_REFEREE leaves of its tile: with the session of the slot, its command and its host's operands come along. -/
def State.refereeTile (s : State) (u k src : Nat) : MaqTile :=
  match s.session k with
  | some x => { (s.tile u).maq with
      role := 4, partner := src, slot := k, descr := x.cmd, begun := false, staged := (s.tile x.host).maq.staged }
  | none => { (s.tile u).maq with role := 4, partner := src, slot := k }

theorem State.refereeTile_congr (htiles : t.tiles = s.tiles) (hmaq : t.maq = s.maq) (u k src : Nat) :
    t.refereeTile u k src = s.refereeTile u k src := by
  simp only [State.refereeTile, State.session_of_maq hmaq, State.tile_of_tiles htiles]

theorem State.refereeArm_frame (s : State) (u k src : Nat) : OnlyTiles [u] s (s.refereeArm u k src) ∧
    OnlyRegs [Reg.maqMirrorBytes] s (s.refereeArm u k src) ∧
    ((s.refereeArm u k src).tile u).maq = s.refereeTile u k src := by
  cases hx : s.session k with
  | some x =>
    simp only [State.refereeArm, State.refereeTile, hx]
    refine ⟨(OnlyTiles.setTile s u _).trans ((OnlyTiles.bump _ _ _).mono (by simp)),
      (OnlyRegs.of_regs rfl).trans (OnlyRegs.bump _ _ _), ?_⟩
    rw [OnlyTiles.bump _ _ _ u List.not_mem_nil, State.tile_modMaq_self]
  | none =>
    simp only [State.refereeArm, State.refereeTile, hx]
    exact ⟨OnlyTiles.setTile s u _, OnlyRegs.of_regs rfl, by rw [State.tile_modMaq_self]⟩

theorem maqSetArmReferee_done (h : s.nodeReady 0x12 (withFunc n 4 4)) (hok : maqSetOk 4 (withFunc n 4 4).operand = true)
    (harm : s.armOk n.node = true) :
    ∃ t, exec (.maqSetArmReferee n) s = .next t ∧ t.replied n.node rDONE ∧ OnlyTiles [n.node] s t ∧
      OnlyChanges [.tiles, .arm, .ev, .regs] s t ∧ OnlyRegs [Reg.maqMirrorBytes] s t ∧
      (t.tile n.node).maq = s.refereeTile n.node (ofld n.operand 91 87) (ofld n.operand 65 55) := by
  have hfresh := s.freshSet_of_ne (f := 4) n.node n.mapgen (by decide) (by decide)
  obtain ⟨a, t, heq, hreply, hbrought, hdone⟩ := maqSet_answered h hok hfresh
  have htiles : a.tiles = s.tiles := hbrought .tiles (by simp)
  have harmed : a.nodeMaq n.node 4 n.mapgen n.operand =
      a.refereeArm n.node (ofld n.operand 91 87) (ofld n.operand 65 55) := by
    simp [State.nodeMaq, State.armOk_of_tiles htiles, harm]
  rw [harmed] at hdone
  rw [State.maqReply_done hfresh fun _ _ => harm] at hreply
  obtain ⟨hown, hregs, hmaq⟩ := a.refereeArm_frame n.node (ofld n.operand 91 87) (ofld n.operand 65 55)
  have ht := hdone .tiles (by simp)
  refine ⟨t, heq, hreply, (OnlyTiles.of_tiles htiles).trans (hown.trans (OnlyTiles.of_tiles ht)),
    ((hbrought.mono (by simp)).trans ((OnlyChanges.refereeArm a _ _ _).mono (by simp))).trans (hdone.mono (by simp)),
    (OnlyRegs.of_regs (hbrought .regs (by simp))).trans (hregs.trans (OnlyRegs.of_regs (hdone .regs (by simp)))), ?_⟩
  rw [State.tile_of_tiles ht, hmaq, State.refereeTile_congr htiles (hbrought .maq (by simp))]

/-- A MAQ_SET whose fields do not lie in their ranges, whichever its function. -/
theorem maqSet_reject_all {c : Instr} (h : s.nodeReady 0x12 (withFunc n 4 f))
    (hbad : maqSetOk f (withFunc n 4 f).operand = false)
    (hc : (c, f) ∈ [(Instr.maqSetPairAdd n, 0), (.maqSetPairDel n, 1), (.maqSetArmSource n, 2), (.maqSetArmHost n, 3),
      (.maqSetArmReferee n, 4), (.maqSetEnd n, 5), (.maqSetSetRate n, 6)]) :
    ∃ t, exec c s = .next t ∧ t.replied n.node rREJECTED ∧ OnlyChanges [.arm, .ev] s t := by
  have hrow : f ≤ 6 ∧ exec c s = nodeRow 0x12 (withFunc n 4 f) [] s := by
    simp only [List.mem_cons, List.not_mem_nil, or_false, Prod.mk.injEq] at hc
    rcases hc with ⟨rfl, rfl⟩ | ⟨rfl, rfl⟩ | ⟨rfl, rfl⟩ | ⟨rfl, rfl⟩ | ⟨rfl, rfl⟩ | ⟨rfl, rfl⟩ | ⟨rfl, rfl⟩ <;>
      exact ⟨by decide, rfl⟩
  rw [hrow.2]
  exact maqSet_rejected h hbad hrow.1

end

/-! ### The obligation -/

/-- Settles O28, command by command: what a MAQ_SET leaves of its tile's part in maquette, and each step of a session by
the lemmas about the life of one. -/
theorem nodeMaquetteOperations : Obligations.NodeMaquetteOperations := by
  unfold Obligations.NodeMaquetteOperations
  refine ⟨fun n s h hok hgen => ?_, fun n s h hok => ?_,
    fun n s h hok harm hgen => maqSet_done h hok (fun _ => hgen) (fun _ _ => harm) (by decide) nofun,
    fun n s h hok harm =>
      maqSet_done h hok (s.freshSet_of_ne _ _ (by decide) (by decide)) (fun _ _ => harm) (by decide) nofun,
    fun n s h hok harm => ?_, fun n s h hok hrouter => maqSetArmHost_fenced h hok hrouter,
    fun n s h hok hslot => maqSet_done h hok (s.freshSet_of_ne _ _ (by decide) (by decide))
      (s.mayTakeSet_of_unarmed _ (by decide)) (by decide) fun _ => hslot,
    fun n s h hok => maqSet_done h hok (s.freshSet_of_ne _ _ (by decide) (by decide))
      (s.mayTakeSet_of_unarmed _ (by decide)) (by decide) nofun,
    fun n s f c h hbad hc => maqSet_reject_all h hbad hc,
    fun u h s hready hawake hdispatch hon hdue hsource hroom ⟨k, hk, hfree⟩ hhost => ?_, fun k x s hready hx => ?_⟩
  · obtain ⟨t, heq, hreply, htiles, hparts, hmaq⟩ :=
      maqSet_done h hok (fun _ => hgen) (s.mayTakeSet_of_unarmed _ (by decide)) (by decide) nofun
    exact ⟨t, heq, hreply, htiles, hparts, by rw [hmaq]; exact tget_tset_self _ _ _ _⟩
  · obtain ⟨t, heq, hreply, htiles, hparts, hmaq⟩ :=
      maqSet_done h hok (s.freshSet_of_ne _ _ (by decide) (by decide)) (s.mayTakeSet_of_unarmed _ (by decide)) (by decide)
        nofun
    exact ⟨t, heq, hreply, htiles, hparts, by rw [hmaq]; exact tget_terase_self _ _ _⟩
  · obtain ⟨t, heq, hreply, htiles, hparts, hregs, hmaq⟩ := maqSetArmReferee_done h hok harm
    exact ⟨t, heq, hreply, htiles, hparts, hregs, fun hnone => by rw [hmaq, State.refereeTile, hnone],
      fun x hx => by rw [hmaq, State.refereeTile, hx]⟩
  · have hsome : (((List.range 32).find? fun k => (s.session k).isNone)).isSome = true :=
      List.find?_isSome.2 ⟨k, List.mem_range.2 hk, by rw [hfree]; rfl⟩
    obtain ⟨j, hj⟩ := Option.isSome_iff_exists.1 hsome
    obtain ⟨t, heq, hosted⟩ := exec_maqHostAssign_hosted hready hawake hdispatch hon hdue hsource hroom hj hhost
    exact ⟨t, heq, hosted.due, j, State.session_of_freeSlot hj, hosted.session⟩
  · refine ⟨fun hphase hover => ?_, fun hphase hlate => ?_, fun hphase hhalt => ?_,
      fun hphase hnone hdispatch hfenced => ?_, fun q hphase hreferee hfenced => ?_, fun u y htiles hxfers hhosts => ?_⟩
    · refine ⟨_, exec_maqArmTimeout hready k, ?_⟩
      rw [State.maqArmTimeout_of_over hx hphase hover]
      exact State.session_maqEnd_self hx (by rw [hphase]; decide) _
    · refine ⟨_, exec_maqDeadline hready k, ?_⟩
      rw [State.maqDeadline_of_late hx hphase hlate]
      exact State.session_maqEnd_self hx (by rw [hphase]; decide) _
    · refine ⟨_, exec_maqCompare hready hx, ?_⟩
      rw [State.maqCompare_of_halted hx hphase hhalt]
      exact (s.maqReport_reported k x 3 7).session
    · obtain ⟨t, heq, harb⟩ := exec_maqRefereeAssign_unresolved hready hdispatch hx hphase hnone (.inl hfenced)
      exact ⟨t, heq, harb.session⟩
    · refine ⟨_, exec_maqArbitration hready hx hreferee, ?_⟩
      rw [State.maqArbitration_of_fenced hx hphase hreferee hfenced]
      exact (State.maqArbitrate_arbitrated hx (by rw [hphase]; decide) none).session
    · obtain ⟨t, heq, -, -, hcore⟩ := exec_subscribedCopyDrop_oldest (u := u) (pre := []) (post := []) (y := y) hready hx
        (by simp [htiles, hxfers, hhosts]) hxfers (by simp) (by simp [hhosts])
      exact ⟨t, heq, by rw [hcore, hhosts]; simp⟩

end Sys2Proof.Machine
end

section
/-! SUPPORT. The addressed memories (host memory, the stack, tile SRAM and its save areas), which every operation but
those of blocks, images and records leaves as they are: one lemma per operation, in the order of the model. -/

namespace Sys2Proof.Machine

/-! ### The memories of a state -/

/-- `t` has the addressed memories of `s`; `simp` uses the four equations one by one. -/
@[simp] abbrev SameMem (s t : State) : Prop :=
  t.hostMem = s.hostMem ∧ t.stack.mem = s.stack.mem ∧ t.stack.sram = s.stack.sram ∧
  t.stack.saveSram = s.stack.saveSram

theorem SameMem.trans {a b c : State} (h : SameMem a b) (h' : SameMem b c) : SameMem a c := by
  simp_all

/-! ### Choices and folds -/

@[simp] theorem State.hostMem_ite (c : Prop) [Decidable c] (a b : State) :
    (if c then a else b).hostMem = if c then a.hostMem else b.hostMem := apply_ite State.hostMem ..

@[simp] theorem State.stack_ite (c : Prop) [Decidable c] (a b : State) :
    (if c then a else b).stack = if c then a.stack else b.stack := apply_ite State.stack ..

@[simp] theorem StackSt.mem_ite (c : Prop) [Decidable c] (a b : StackSt) :
    (if c then a else b).mem = if c then a.mem else b.mem := apply_ite StackSt.mem ..

@[simp] theorem StackSt.sram_ite (c : Prop) [Decidable c] (a b : StackSt) :
    (if c then a else b).sram = if c then a.sram else b.sram := apply_ite StackSt.sram ..

@[simp] theorem StackSt.saveSram_ite (c : Prop) [Decidable c] (a b : StackSt) :
    (if c then a else b).saveSram = if c then a.saveSram else b.saveSram := apply_ite StackSt.saveSram ..

@[simp] theorem foldl_sameMem {α : Type} (f : State → α → State) (l : List α) (s : State)
    (h : ∀ s x, SameMem s (f s x)) : SameMem s (l.foldl f s) := by
  induction l generalizing s with
  | nil => simp
  | cons a l ih => exact (h s a).trans (ih (f s a))

@[simp] theorem foldl_fst_sameMem {α β : Type} (f : State × β → α → State × β) (l : List α)
    (a : State × β) (h : ∀ a x, SameMem a.1 (f a x).1) : SameMem a.1 (l.foldl f a).1 := by
  induction l generalizing a with
  | nil => simp
  | cons x l ih => exact (h a x).trans (ih (f a x))

theorem foldl_then_sameMem {α : Type} {f : State → α → State} {l : List α} {s : State} (g : State → State)
    (hf : ∀ s x, SameMem s (f s x)) (hg : ∀ t, SameMem t (g t)) : SameMem s (g (l.foldl f s)) :=
  (foldl_sameMem f l s hf).trans (hg _)

/-! ### Machine.Ops -/

@[simp] theorem State.bump_sameMem (s : State) (k n : Nat) : SameMem s (s.bump k n) := by
  simp [State.bump]

@[simp] theorem State.ackDrain_sameMem (s : State) (n : Nat) : SameMem s (s.ackDrain n) := by
  simp [State.ackDrain]

@[simp] theorem State.slew_sameMem (s : State) (n : Nat) : SameMem s (s.slew n) := by simp [State.slew]

@[simp] theorem State.toCycle_sameMem (s : State) (c : Nat) : SameMem s (s.toCycle c) := by simp [State.toCycle]

@[simp] theorem State.draw_sameMem (s : State) : SameMem s s.draw.2 := by simp [State.draw]

@[simp] theorem State.localStamp_sameMem (s : State) (d : Nat) : SameMem s (s.localStamp d).2 := by
  unfold State.localStamp
  dsimp only
  (repeat' split) <;> simp

@[simp] theorem State.summaryNext_sameMem (s : State) (t : Nat) : SameMem s (s.summaryNext t) := by
  unfold State.summaryNext
  dsimp only
  (repeat' split) <;> simp

@[simp] theorem State.replyNext_sameMem (s : State) (t : Nat) : SameMem s (s.replyNext t) := by
  unfold State.replyNext
  split <;> simp

@[simp] theorem State.replyPacket_sameMem (s : State) (t : Nat) (body : List Flit) :
    SameMem s (s.replyPacket t body) := by simp [State.replyPacket]

@[simp] theorem State.sendReply_sameMem (s : State) (t : Nat) (ps : List (List Flit)) :
    SameMem s (s.sendReply t ps) := by simp [State.sendReply]

@[simp] theorem State.reply_sameMem (s : State) (t rstatus : Nat) : SameMem s (s.reply t rstatus) := by
  simp [State.reply]

@[simp] theorem State.replyRejected_sameMem (s : State) (t : Nat) : SameMem s (s.replyRejected t) := by
  simp [State.replyRejected]

@[simp] theorem State.setStream_sameMem (s : State) (t vc : Nat) (st : StreamSt) :
    SameMem s (s.setStream t vc st) := by
  unfold State.setStream
  split <;> simp

@[simp] theorem State.raiseHub_sameMem (s : State) (code : Nat) (sev : Severity) (detail : Word) :
    SameMem s (s.raiseHub code sev detail) := by simp [State.raiseHub]

@[simp] theorem State.hang_sameMem (s : State) (ring : Nat) (time : Word) (k : HangKind) (cseq data : Nat) :
    SameMem s (s.hang ring time k cseq data) := by simp [State.hang]

@[simp] theorem State.hangFree_sameMem (s : State) (ring : Nat) (time : Word) (k : HangKind) (cseq cause : Nat) :
    SameMem s (s.hangFree ring time k cseq cause) := by simp [State.hangFree]

@[simp] theorem State.hangLocal_sameMem (s : State) (t unit : Nat) (k : HangKind) (cseq cause : Nat) :
    SameMem s (s.hangLocal t unit k cseq cause) := by simp [State.hangLocal]

@[simp] theorem State.unitRing_sameMem (s : State) (t unit : Nat) (k : HangKind) (cause : Nat) :
    SameMem s (s.unitRing t unit k cause) := by simp [State.unitRing]

@[simp] theorem State.layerRing_sameMem (s : State) (l : Nat) (k : HangKind) : SameMem s (s.layerRing l k) := by
  simp [State.layerRing]

@[simp] theorem State.eventNext_sameMem (s : State) (t : Nat) : SameMem s (s.eventNext t) := by
  unfold State.eventNext
  split <;> simp

@[simp] theorem State.raiseNode_sameMem (s : State) (t : Nat) (r : EvRec) : SameMem s (s.raiseNode t r) := by
  simp [State.raiseNode]

@[simp] theorem State.raiseTile_sameMem (s : State) (t unit code : Nat) (sev : Severity)
    (c : Option (BitVec 16 × BitVec 16 × BitVec 24)) (detail : Word) :
    SameMem s (s.raiseTile t unit code sev c detail) := by simp [State.raiseTile]

@[simp] theorem State.raiseTileNode_sameMem (s : State) (t code : Nat) (sev : Severity)
    (c : Option (BitVec 16 × BitVec 16 × BitVec 24)) (detail : Word) :
    SameMem s (s.raiseTileNode t code sev c detail) := by simp [State.raiseTileNode]

@[simp] theorem State.raiseLink_sameMem (s : State) (n code : Nat) (sev : Severity) (detail : Word) :
    SameMem s (s.raiseLink n code sev detail) := by simp [State.raiseLink]

@[simp] theorem State.raiseLayer_sameMem (s : State) (l unit code : Nat) (sev : Severity) (detail : Word) :
    SameMem s (s.raiseLayer l unit code sev detail) := by simp [State.raiseLayer]

@[simp] theorem State.recordFrom_sameMem (s : State) (src code : Nat) (sev : Severity) (detail : Word) :
    SameMem s (s.recordFrom src code sev detail).2 := by
  unfold State.recordFrom
  split <;> simp

@[simp] theorem State.raiseFrom_sameMem (s : State) (src code : Nat) (sev : Severity) (detail : Word) :
    SameMem s (s.raiseFrom src code sev detail) := by simp [State.raiseFrom]

@[simp] theorem State.count_sameMem (s : State) (t i n : Nat) : SameMem s (s.count t i n) := by simp [State.count]

@[simp] theorem State.mgmtAsk_sameMem (s : State) (k : Nat) : SameMem s (s.mgmtAsk k) := by simp [State.mgmtAsk]

@[simp] theorem State.mgmtDone_sameMem (s : State) (k : Nat) : SameMem s (s.mgmtDone k) := by
  simp [State.mgmtDone]

@[simp] theorem State.mgmtTick_sameMem (s : State) : SameMem s s.mgmtTick := by simp [State.mgmtTick]

@[simp] theorem State.orderDetail_sameMem (s : State) (id : Nat) (d : BitVec 32) :
    SameMem s (s.orderDetail id d) := by simp [State.orderDetail]

@[simp] theorem State.finish_sameMem (s : State) (id : Nat) (st : Status) : SameMem s (s.finish id st) := by
  unfold State.finish
  split <;> simp

@[simp] theorem State.finishOpt_sameMem (s : State) (id : Option Nat) (st : Status) :
    SameMem s (s.finishOpt id st) := by
  unfold State.finishOpt
  split <;> simp

@[simp] theorem State.inject_sameMem (s : State) : SameMem s s.inject := by simp [State.inject]

@[simp] theorem State.hubPacket_sameMem (s : State) (q : SendReq) (dests : BitVec 1152) :
    SameMem s (s.hubPacket q dests) := by simp [State.hubPacket]

@[simp] theorem State.hubSend_sameMem (s : State) (q : SendReq) : SameMem s (s.hubSend q) := by
  unfold State.hubSend
  split <;> simp

/-! ### Machine.Access -/

@[simp] theorem State.deny_sameMem (s : State) (m : Requester) (write mem : Bool) (page off : Nat) :
    SameMem s (s.deny m write mem page off) := by simp [State.deny]

/-! ### Machine.Streams -/

@[simp] theorem State.countLink_sameMem (s : State) (n : Nat) (f : Link → Link) :
    SameMem s (s.countLink n f) := by simp [State.countLink]

@[simp] theorem State.sentRx_sameMem (s : State) (n flits : Nat) : SameMem s (s.sentRx n flits) := by
  simp [State.sentRx]

@[simp] theorem State.sentTx_sameMem (s : State) (n flits : Nat) : SameMem s (s.sentTx n flits) := by
  simp [State.sentTx]

@[simp] theorem State.putLink_sameMem (s : State) (n : Nat) (fs : List Flit) : SameMem s (s.putLink n fs) := by
  simp [State.putLink]

@[simp] theorem State.peerPut_sameMem (s : State) (chip : BitVec 13) (kind : Nat) (net : Bool) (xid : BitVec 16)
    (body : List Flit) :
    SameMem s (s.peerPut chip kind net xid body) := by
  unfold State.peerPut
  split <;> simp

@[simp] theorem State.setLastXid_sameMem (s : State) (k : StreamId) (x : BitVec 16) :
    SameMem s (s.setLastXid k x) := by simp [State.setLastXid]

@[simp] theorem State.queueAck_sameMem (s : State) (port : Nat) (k : StreamId) (x : BitVec 16) (held : Bool)
    (src dst : Nat) (route : BitVec 48) :
    SameMem s (s.queueAck port k x held src dst route) := by simp [State.queueAck]

@[simp] theorem State.sendAck_sameMem (s : State) (k : StreamId) (x : BitVec 16) (held : Bool) :
    SameMem s (s.sendAck k x held) := by
  unfold State.sendAck
  split <;> simp

@[simp] theorem State.streamDone_sameMem (s : State) (t vc : Nat) : SameMem s (s.streamDone t vc) := by
  unfold State.streamDone
  split <;> simp

@[simp] theorem State.exchanged_sameMem (s : State) (t vc : Nat) : SameMem s (s.exchanged t vc) := by
  simp [State.exchanged]

@[simp] theorem State.packetGone_sameMem (s : State) (t vc : Nat) (xid : BitVec 16) :
    SameMem s (s.packetGone t vc xid) := by
  unfold State.packetGone
  split <;> simp

/-! ### Machine.Digest -/

@[simp] theorem State.digestFail_sameMem (s : State) (k reason tile : Nat) :
    SameMem s (s.digestFail k reason tile) := by simp [State.digestFail]

@[simp] theorem State.digestFailAll_sameMem (s : State) (p : Nat → DigSlot → Bool) (reason tile : Nat) :
    SameMem s (s.digestFailAll p reason tile) := by simp [State.digestFailAll]

@[simp] theorem State.digestKeyChange_sameMem (s : State) : SameMem s s.digestKeyChange := by
  simp [State.digestKeyChange]

@[simp] theorem State.digestRestore_sameMem (s : State) : SameMem s s.digestRestore := by
  simp [State.digestRestore]

@[simp] theorem State.digestRepose_sameMem (s : State) : SameMem s s.digestRepose := by simp [State.digestRepose]

@[simp] theorem State.digestRelease_sameMem (s : State) (r : Rect) : SameMem s (s.digestRelease r) := by
  simp [State.digestRelease]

@[simp] theorem State.digestTaint_sameMem (s : State) (tainted : Nat → Bool) :
    SameMem s (s.digestTaint tainted) := by
  unfold State.digestTaint
  refine foldl_sameMem _ _ _ fun s k => ?_
  dsimp only
  split <;> simp

@[simp] theorem State.digestPosture_sameMem (s : State) : SameMem s s.digestPosture := by
  simp [State.digestPosture]

@[simp] theorem State.digestOpenDo_sameMem (s : State) (k : Nat) (first : BitVec 24) :
    SameMem s (s.digestOpenDo k first) := by
  unfold State.digestOpenDo
  dsimp only
  (repeat' split) <;> simp

@[simp] theorem State.nodeDigest_sameMem (s : State) (t k : Nat) : SameMem s (s.nodeDigest t k) := by
  simp [State.nodeDigest]

@[simp] theorem State.digestCloseDo_sameMem (s : State) (k : Nat) (last : BitVec 24) (order : Nat) :
    SameMem s (s.digestCloseDo k last order) := by simp [State.digestCloseDo]

@[simp] theorem State.digestSettle_sameMem (s : State) (k : Nat) : SameMem s (s.digestSettle k) := by
  simp [State.digestSettle]

@[simp] theorem State.digestSign_sameMem (s : State) (k : Nat) : SameMem s (s.digestSign k) := by
  simp [State.digestSign]

@[simp] theorem State.digestReady_sameMem (s : State) (k : Nat) (r q : BitVec 384) :
    SameMem s (s.digestReady k r q) := by simp [State.digestReady]

@[simp] theorem State.raiseWset_sameMem (s : State) (w state reason tile : Nat) :
    SameMem s (s.raiseWset w state reason tile) := by simp [State.raiseWset]

@[simp] theorem State.wsetTo_sameMem (s : State) (w state reason tile : Nat) :
    SameMem s (s.wsetTo w state reason tile) := by simp [State.wsetTo]

@[simp] theorem State.wsetLost_sameMem (s : State) (w : Nat) : SameMem s (s.wsetLost w) := by
  simp [State.wsetLost]

@[simp] theorem State.wsetTick_sameMem (s : State) : SameMem s s.wsetTick := by
  refine foldl_then_sameMem (fun s => { s with digest.setNext := [] }) (fun s w => ?_) (by simp)
  dsimp only
  (repeat' split) <;> simp

@[simp] theorem State.selTick_sameMem (s : State) : SameMem s s.selTick := by simp [State.selTick]

@[simp] theorem State.wsetRelease_sameMem (s : State) (r : Rect) : SameMem s (s.wsetRelease r) := by
  unfold State.wsetRelease
  refine foldl_sameMem _ _ _ fun s w => ?_
  dsimp only
  split <;> simp

@[simp] theorem State.licInstall_sameMem (s : State) (v : Word) : SameMem s (s.licInstall v) := by
  simp [State.licInstall]

@[simp] theorem State.licTick_sameMem (s : State) : SameMem s s.licTick := by simp [State.licTick]

@[simp] theorem State.licVerdict_sameMem (s : State) (sigOk : Option Bool) : SameMem s (s.licVerdict sigOk) := by
  simp [State.licVerdict]

/-! ### Machine.Mem -/

@[simp] theorem State.setStackSeal_sameMem (s : State) (t l b : Nat) (w : Word) :
    SameMem s (s.setStackSeal t l b w) := by simp [State.setStackSeal]

@[simp] theorem State.setSramSeal_sameMem (s : State) (t i : Nat) (w : Word) :
    SameMem s (s.setSramSeal t i w) := by simp [State.setSramSeal]

@[simp] theorem State.portBytes_sameMem (s : State) (x0 : BlockAddr) : SameMem s (s.portBytes x0) := by
  unfold State.portBytes
  split <;> simp

@[simp] theorem State.emptySeals_sameMem (s : State) (t : Nat) : SameMem s (s.emptySeals t) := by
  simp [State.emptySeals]

@[simp] theorem State.issueRefresh_sameMem (s : State) (t : Nat) : SameMem s (s.issueRefresh t) := by
  simp [State.issueRefresh]

@[simp] theorem State.markBad_sameMem (s : State) (t : Nat) : SameMem s (s.markBad t) := by
  unfold State.markBad
  dsimp only
  (repeat' split) <;> simp

/-! ### Machine.Debug -/

@[simp] theorem State.traceDropped_sameMem (s : State) (t : Nat) : SameMem s (s.traceDropped t) := by
  simp [State.traceDropped]

@[simp] theorem State.traceCollect_sameMem (s : State) : SameMem s s.traceCollect := by
  simp [State.traceCollect]

@[simp] theorem State.traceThresh_sameMem (s : State) : SameMem s s.traceThresh := by
  simp [State.traceThresh]

@[simp] theorem State.traceDropTick_sameMem (s : State) : SameMem s s.traceDropTick := by
  simp [State.traceDropTick]

@[simp] theorem State.countFall_sameMem (s : State) (rd : Word) : SameMem s (s.countFall rd) := by
  simp [State.countFall]

@[simp] theorem State.traceFall_sameMem (s : State) (rd : Word) : SameMem s (s.traceFall rd) := by
  simp [State.traceFall]

@[simp] theorem State.captureTile_sameMem (s : State) (t : Nat) : SameMem s (s.captureTile t) := by
  unfold State.captureTile
  dsimp only
  (repeat' split) <;> simp

@[simp] theorem State.captureReply_sameMem (s : State) (t : Nat) : SameMem s (s.captureReply t) := by
  simp [State.captureReply]

@[simp] theorem State.sampleAll_sameMem (s : State) : SameMem s s.sampleAll := by
  unfold State.sampleAll
  obtain ⟨l, hl⟩ := exists_eq_allTiles
  rw [hl]
  simp

@[simp] theorem State.counterReply_sameMem (s : State) (old : Bool) (t : Nat) :
    SameMem s (s.counterReply old t) := by simp [State.counterReply]

@[simp] theorem State.countThresh_sameMem (s : State) : SameMem s s.countThresh := by
  simp [State.countThresh]

@[simp] theorem State.stepDone_sameMem (s : State) (t : Nat) : SameMem s (s.stepDone t) := by
  simp [State.stepDone]

@[simp] theorem State.setWatch_sameMem (s : State) (k : Nat) (v : Word × List Byte × Option Nat) :
    SameMem s (s.setWatch k v) := by simp [State.setWatch]

@[simp] theorem State.watchCancel_sameMem (s : State) (k : Nat) : SameMem s (s.watchCancel k) := by
  simp [State.watchCancel]

@[simp] theorem State.watchCancelAll_sameMem (s : State) (p : Nat → Bool) : SameMem s (s.watchCancelAll p) := by
  simp [State.watchCancelAll]

@[simp] theorem State.readAnswer_sameMem (s : State) (bs : List Byte) (entries : Nat) :
    SameMem s (s.readAnswer bs entries) := by simp [State.readAnswer]

@[simp] theorem State.readRequest_sameMem (s : State) (v : Word) : SameMem s (s.readRequest v) := by
  simp [State.readRequest]

@[simp] theorem State.readDispatch_sameMem (s : State) : SameMem s s.readDispatch := by simp [State.readDispatch]

@[simp] theorem State.nodeHangRead_sameMem (s : State) (t unit : Nat) : SameMem s (s.nodeHangRead t unit) := by
  simp [State.nodeHangRead]

@[simp] theorem State.nodeStateRead_sameMem (s : State) (t : Nat) : SameMem s (s.nodeStateRead t) := by
  simp [State.nodeStateRead]

/-! ### Machine.Mirror -/

@[simp] theorem State.mirrorGap_sameMem (s : State) (k : Nat) : SameMem s (s.mirrorGap k) := by
  unfold State.mirrorGap
  split <;> simp

@[simp] theorem State.operandTaken_sameMem (s : State) (k : Nat) (a : BlockAddr) (w : Word) :
    SameMem s (s.operandTaken k a w) := by
  unfold State.operandTaken
  split <;> simp

@[simp] theorem State.mirror_sameMem (s : State) (t : Nat) (c : Cmd) (src dst : BlockAddr) (bs : List Byte)
    (w : Word) :
    SameMem s (s.mirror t c src dst bs w) := by simp [State.mirror]

@[simp] theorem State.mirrorRead_sameMem (s : State) (t : Nat) (r : ReadReq) : SameMem s (s.mirrorRead t r) := by
  unfold State.mirrorRead
  (repeat' split) <;> simp

@[simp] theorem State.noteSubscribed_sameMem (s : State) (t : Nat) (x : Xfer) (b : BlockMove) :
    SameMem s (s.noteSubscribed t x b) := by simp [State.noteSubscribed]

@[simp] theorem State.mirrorTaken_sameMem (s : State) (t : Nat) (x : XferIn) (b : BlockMove) :
    SameMem s (s.mirrorTaken t x b) := by
  unfold State.mirrorTaken
  dsimp only
  (repeat' split) <;> simp

@[simp] theorem State.mirrorLeaves_sameMem (s : State) (src : Nat) (b : BlockMove) :
    SameMem s (s.mirrorLeaves src b) := by simp [State.mirrorLeaves]

@[simp] theorem State.stage_sameMem (s : State) (t : Nat) (x : Xfer) (b : BlockMove) (bs : List Byte) (w : Word) :
    SameMem s (s.stage t x b bs w) := by simp [State.stage]

@[simp] theorem State.takeDescr_sameMem (s : State) (t : Nat) (c : Cmd) : SameMem s (s.takeDescr t c) := by
  simp [State.takeDescr]

@[simp] theorem State.copyDrop_sameMem (s : State) (k : Nat) : SameMem s (s.copyDrop k) := by
  unfold State.copyDrop
  (repeat' split) <;> simp

@[simp] theorem State.maqDiscard_sameMem (s : State) (t : Nat) : SameMem s (s.maqDiscard t) := by
  simp [State.maqDiscard]

/-! ### Machine.Lineage -/

@[simp] theorem State.lineage_sameMem (s : State) (t : Nat) (f : LinOpen → LinOpen) :
    SameMem s (s.lineage t f) := by simp [State.lineage]

@[simp] theorem State.lineageCommand_sameMem (s : State) (t : Nat) : SameMem s (s.lineageCommand t) := by
  unfold State.lineageCommand
  split <;> simp

@[simp] theorem State.lineageSend_sameMem (s : State) (t : Nat) (x : Xfer) : SameMem s (s.lineageSend t x) := by
  simp [State.lineageSend]

@[simp] theorem State.lineageServe_sameMem (s : State) (t : Nat) (reader : Option Nat) (host : Bool)
    (chip : Option (BitVec 13)) :
    SameMem s (s.lineageServe t reader host chip) := by simp [State.lineageServe]

@[simp] theorem State.lineageTick_sameMem (s : State) : SameMem s s.lineageTick := by
  simp [State.lineageTick]

@[simp] theorem State.lineageReply_sameMem (s : State) (t : Nat) (q : Option (BitVec 16 × Nat × Nat)) (b : Nat) :
    SameMem s (s.lineageReply t q b) := by
  unfold State.lineageReply
  split <;> simp

@[simp] theorem State.lineagePage_sameMem (s : State) (t b : Nat) (wrote : Bool) (l : LinOpen) :
    SameMem s (s.lineagePage t b wrote l) := by simp [State.lineagePage]

@[simp] theorem State.lineageClose_sameMem (s : State) : SameMem s s.lineageClose := by
  unfold State.lineageClose
  obtain ⟨l, hl⟩ := exists_eq_allTiles
  rw [hl]
  simp

/-! ### Machine.Seal -/

@[simp] theorem State.consume_sameMem (s : State) (used : Bool) : SameMem s (s.consume used) := by
  simp [State.consume]

@[simp] theorem State.sealEvent_sameMem (s : State) (t unit code : Nat) (sev : Severity) (detail : Word)
    (inj : Bool) :
    SameMem s (s.sealEvent t unit code sev detail inj) := by
  unfold State.sealEvent
  cases sealCounter code <;> simp

@[simp] theorem State.raiseFails_sameMem (s : State) (t : Nat) (fs : List Fail) (recovered : Bool) :
    SameMem s (s.raiseFails t fs recovered) := by simp [State.raiseFails]

@[simp] theorem State.passIn_sameMem (s : State) (t : Nat) (x : PassSt) : SameMem s (s.passIn t x) := by
  simp [State.passIn]

@[simp] theorem State.passDone_sameMem (s : State) (t : Nat) : SameMem s (s.passDone t) := by
  simp [State.passDone]

@[simp] theorem State.dropPass_sameMem (s : State) (t : Nat) : SameMem s (s.dropPass t) := by
  unfold State.dropPass
  split <;> simp

@[simp] theorem State.stopPass_sameMem (s : State) (t : Nat) : SameMem s (s.stopPass t) := by
  simp [State.stopPass]

@[simp] theorem State.askerRing_sameMem (s : State) (q : StackReq) (k : HangKind) (cause : Nat) :
    SameMem s (s.askerRing q k cause) := by simp [State.askerRing]

@[simp] theorem State.turnAway_sameMem (s : State) (g : Gate) (q : StackReq) : SameMem s (s.turnAway g q) := by
  unfold State.turnAway
  cases g <;> simp

@[simp] theorem State.atBlock_sameMem (s : State) (t : Nat) (addr : BlockAddr) (write : Bool) (job : StackJob)
    (go : State → State) (hgo : ∀ s, SameMem s (go s)) :
    SameMem s (s.atBlock t addr write job go) := by
  unfold State.atBlock
  (repeat' split) <;> simp [hgo]

@[simp] theorem State.eccCorr_sameMem (s : State) (t n : Nat) : SameMem s (s.eccCorr t n) := by
  simp [State.eccCorr]

@[simp] theorem State.eccUncorr_sameMem (s : State) (t : Nat) : SameMem s (s.eccUncorr t) := by
  simp [State.eccUncorr]

@[simp] theorem State.sliceCorrected_sameMem (s : State) (t l n : Nat) : SameMem s (s.sliceCorrected t l n) := by
  simp [State.sliceCorrected]

@[simp] theorem State.sliceUncorr_sameMem (s : State) (t l b codeword : Nat) (patrol : Bool)
    (c : Option (BitVec 16 × BitVec 16 × BitVec 24)) :
    SameMem s (s.sliceUncorr t l b codeword patrol c) := by simp [State.sliceUncorr]

@[simp] theorem State.sramEcc_sameMem (s : State) (t : Nat) (x0 : EccFinding) : SameMem s (s.sramEcc t x0) := by
  unfold State.sramEcc
  split <;> simp

@[simp] theorem State.sliceEcc_sameMem (s : State) (t l b : Nat) (e : EccFinding)
    (ids : Option (BitVec 16 × BitVec 16 × BitVec 24)) :
    SameMem s (s.sliceEcc t l b e ids) := by
  unfold State.sliceEcc
  dsimp only
  split <;> simp

@[simp] theorem State.blockRead_sameMem (s : State) (t : Nat) (a : BlockAddr) (e : EccFinding) :
    SameMem s (s.blockRead t a e) := by
  unfold State.blockRead
  (repeat' split) <;> simp

@[simp] theorem State.accept_sameMem (s : State) (t : Nat) : SameMem s (s.accept t) := by simp [State.accept]

@[simp] theorem State.readRetry_sameMem (s : State) (t unit : Nat) (w : Word) (x : Nat) (inj : Bool) :
    SameMem s (s.readRetry t unit w x inj) := by simp [State.readRetry]

/-! ### Machine.Post -/

@[simp] theorem State.writeRecord_sameMem (s : State) (r : EvRec) : SameMem s (s.writeRecord r) := by
  simp [State.writeRecord]

@[simp] theorem State.clearLost_sameMem (s : State) : SameMem s s.clearLost := by simp [State.clearLost]

@[simp] theorem State.sendVector_sameMem (s : State) (v : Nat) : SameMem s (s.sendVector v) := by
  simp [State.sendVector]

@[simp] theorem State.sendVectors_sameMem (s : State) (vs : List Nat) : SameMem s (s.sendVectors vs) := by
  simp [State.sendVectors]

@[simp] theorem State.unmask_sameMem (s : State) (v : Nat) : SameMem s (s.unmask v) := by simp [State.unmask]

@[simp] theorem State.closeCounts_sameMem (s : State) : SameMem s s.closeCounts := by simp [State.closeCounts]

@[simp] theorem State.postEntry_sameMem (s : State) (o : OrderRec) (st : Status) :
    SameMem s (s.postEntry o st) := by
  unfold State.postEntry
  split <;> simp

@[simp] theorem State.postOrder_sameMem (s : State) (o : OrderRec) : SameMem s (s.postOrder o).1 := by
  unfold State.postOrder
  (repeat' split) <;> simp

@[simp] theorem State.postOrders_sameMem (s : State) : SameMem s s.postOrders.1 := by simp [State.postOrders]

@[simp] theorem State.writeRecords_sameMem (s : State) (rs : List EvRec) : SameMem s (s.writeRecords rs).1 := by
  simp [State.writeRecords]

@[simp] theorem State.eventsIn_sameMem (s : State) : SameMem s s.eventsIn := by simp [State.eventsIn]

/-! ### Machine.Arm -/

@[simp] theorem State.raiseEndpoint_sameMem (s : State) (at_ code : Nat) (sev : Severity) (detail : Word) :
    SameMem s (s.raiseEndpoint at_ code sev detail) := by simp [State.raiseEndpoint]

@[simp] theorem State.crcDiscard_sameMem (s : State) (at_ src : Nat) (xid : BitVec 16) :
    SameMem s (s.crcDiscard at_ src xid) := by simp [State.crcDiscard]

@[simp] theorem State.routeDiscard_sameMem (s : State) (at_ link kind src : Nat) :
    SameMem s (s.routeDiscard at_ link kind src) := by simp [State.routeDiscard]

@[simp] theorem State.armLate_sameMem (s : State) (delay op vc net dst : Nat) :
    SameMem s (s.armLate delay op vc net dst) := by simp [State.armLate]

@[simp] theorem State.leaveInbox_sameMem (s : State) (k : StreamId) : SameMem s (s.leaveInbox k) := by
  unfold State.leaveInbox
  split <;> simp

@[simp] theorem State.mapSent_sameMem (s : State) (f : Outgoing → Outgoing) : SameMem s (s.mapSent f) := by
  simp [State.mapSent]

@[simp] theorem State.takeAck_sameMem (s : State) (node vc : Nat) (xid : BitVec 16) :
    SameMem s (s.takeAck node vc xid).1 := by
  unfold State.takeAck
  dsimp only
  (repeat' split) <;> simp

@[simp] theorem State.acceptCopy_sameMem (s : State) (node vc : Nat) (op : Nat) (xid : BitVec 16) :
    SameMem s (s.acceptCopy node vc op xid) := by
  unfold State.acceptCopy
  dsimp only
  (repeat' split) <;> simp

@[simp] theorem State.takeAckHeld_sameMem (s : State) (node vc : Nat) (xid : BitVec 16) :
    SameMem s (s.takeAckHeld node vc xid) := by simp [State.takeAckHeld]

@[simp] theorem State.unreachNode_sameMem (s : State) (node : Nat) : SameMem s (s.unreachNode node) := by
  simp [State.unreachNode]

@[simp] theorem State.resendNode_sameMem (s : State) (node vc : Nat) : SameMem s (s.resendNode node vc) := by
  unfold State.resendNode
  split <;> simp

@[simp] theorem State.streamAck_sameMem (s : State) (t vc : Nat) (xid : BitVec 16) (held : Bool) :
    SameMem s (s.streamAck t vc xid held) := by
  unfold State.streamAck
  split <;> simp

@[simp] theorem State.resendStream_sameMem (s : State) (t vc : Nat) : SameMem s (s.resendStream t vc) := by
  unfold State.resendStream
  split <;> simp

@[simp] theorem State.raiseAlt_sameMem (s : State) (k : Nat) (alt : Bool) : SameMem s (s.raiseAlt k alt) := by
  simp [State.raiseAlt]

@[simp] theorem State.mirrorClear_sameMem (s : State) : SameMem s s.mirrorClear := by simp [State.mirrorClear]

@[simp] theorem State.raiseMirror_sameMem (s : State) (state reason : Nat) (chip : BitVec 13) :
    SameMem s (s.raiseMirror state reason chip) := by simp [State.raiseMirror]

@[simp] theorem State.mirrorDrop_sameMem (s : State) (why : MirrorReason) : SameMem s (s.mirrorDrop why) := by
  unfold State.mirrorDrop
  split <;> simp

@[simp] theorem State.unreachPeer_sameMem (s : State) (chip : BitVec 13) : SameMem s (s.unreachPeer chip) := by
  simp [State.unreachPeer]

@[simp] theorem State.routeFail_sameMem (s : State) (k : Nat) : SameMem s (s.routeFail k) := by
  simp [State.routeFail]

@[simp] theorem State.routesLose_sameMem (s : State) (n : Nat) : SameMem s (s.routesLose n) := by
  simp [State.routesLose]

@[simp] theorem State.routesTick_sameMem (s old : State) : SameMem s (s.routesTick old) := by
  simp [State.routesTick]

@[simp] theorem State.routeBack_sameMem (s : State) (k : Nat) : SameMem s (s.routeBack k) := by
  simp [State.routeBack]

@[simp] theorem State.peerInject_sameMem (s : State) (chip : BitVec 13) (net : Bool) (kind : Nat)
    (body : List Flit) :
    SameMem s (s.peerInject chip net kind body) := by simp [State.peerInject]

@[simp] theorem State.peerSend_sameMem (s : State) (chip : BitVec 13) (net : Bool) (kind : Nat) (body : List Flit) :
    SameMem s (s.peerSend chip net kind body) := by simp [State.peerSend]

@[simp] theorem State.mirrorPump_sameMem (s : State) : SameMem s s.mirrorPump := by
  unfold State.mirrorPump
  split <;> simp

@[simp] theorem State.mirrorQueue_sameMem (s : State) (chip : BitVec 13) (tile : Nat) (blocks : List (List Byte)) :
    SameMem s (s.mirrorQueue chip tile blocks) := by simp [State.mirrorQueue]

@[simp] theorem State.mirrorStep_sameMem (s : State) : SameMem s s.mirrorStep := by
  unfold State.mirrorStep
  split <;> simp

@[simp] theorem State.peerAck_sameMem (s : State) (chip : BitVec 13) (net : Bool) (xid : BitVec 16) :
    SameMem s (s.peerAck chip net xid) := by
  unfold State.peerAck
  dsimp only
  (repeat' split) <;> simp

@[simp] theorem State.resendPeer_sameMem (s : State) (k : StreamId) : SameMem s (s.resendPeer k) := by
  unfold State.resendPeer
  dsimp only
  (repeat' split) <;> simp

@[simp] theorem State.forwardOn_sameMem (s : State) (n : Nat) (out : List Flit) :
    SameMem s (s.forwardOn n out) := by simp [State.forwardOn]

@[simp] theorem State.sentinelArrive_sameMem (s : State) (link : Nat) (flits : List Flit) :
    SameMem s (s.sentinelArrive link flits).1 := by
  unfold State.sentinelArrive
  dsimp only
  (repeat' split) <;> simp

/-! ### Machine.Collect -/

@[simp] theorem State.dropWaiting_sameMem (s : State) (t channel out : Nat) :
    SameMem s (s.dropWaiting t channel out) := by simp [State.dropWaiting]

/-! ### Machine.Pass -/

@[simp] theorem State.countPass_sameMem (s : State) (t : Nat) (p : PassSt) : SameMem s (s.countPass t p) := by
  simp [State.countPass]

@[simp] theorem State.specialInfo_sameMem (s : State) (t : Nat) (p : PassDesc) (k : Nat) :
    SameMem s (s.specialInfo t p k) := by simp [State.specialInfo]

@[simp] theorem State.stagingPut_sameMem (s : State) (t : Nat) (h : Held) : SameMem s (s.stagingPut t h) := by
  simp [State.stagingPut]

/-! ### Machine.Fabric -/

@[simp] theorem State.niRing_sameMem (s : State) (t : Nat) (k : HangKind) (cause : Nat) :
    SameMem s (s.niRing t k cause) := by simp [State.niRing]

@[simp] theorem State.xferRing_sameMem (s : State) (t : Nat) (host : Bool) (k : HangKind) :
    SameMem s (s.xferRing t host k) := by simp [State.xferRing]

@[simp] theorem State.ackFenced_sameMem (s : State) (x : XferIn) (gen : BitVec 16) :
    SameMem s (s.ackFenced x gen) := by simp [State.ackFenced]

@[simp] theorem State.fencedAck_sameMem (s : State) (t id l : Nat) (gen : BitVec 16) :
    SameMem s (s.fencedAck t id l gen) := by
  unfold State.fencedAck
  dsimp only
  (repeat' split) <;> simp

@[simp] theorem State.xferDone_sameMem (s : State) (t id : Nat) : SameMem s (s.xferDone t id) := by
  simp [State.xferDone]

@[simp] theorem State.sendAll_sameMem (s : State) (t : Nat) (x : Xfer) (go : State → Nat → Xfer → State)
    (hgo : ∀ s t x, SameMem s (go s t x)) :
    SameMem s (s.sendAll t x go) := by
  unfold State.sendAll
  split
  · simp
  · exact hgo s t x

@[simp] theorem State.sendLineage_sameMem (s : State) (t : Nat) (b : BlockMove) :
    SameMem s (s.sendLineage t b) := by
  unfold State.sendLineage
  split <;> simp

/-! ### Machine.NodeMap -/

@[simp] theorem State.rejected_sameMem (s : State) (t op : Nat) : SameMem s (s.rejected t op) := by
  simp [State.rejected]

@[simp] theorem State.fenceLift_sameMem (s : State) (t : Nat) : SameMem s (s.fenceLift t) := by
  simp [State.fenceLift]

@[simp] theorem State.toNi_sameMem (s : State) (t op : Nat) (o : BitVec 96) (gen : BitVec 16) :
    SameMem s (s.toNi t op o gen) := by simp [State.toNi]

@[simp] theorem State.drainReply_sameMem (s : State) (t : Nat) : SameMem s (s.drainReply t) := by
  simp [State.drainReply]

@[simp] theorem State.nodeCommit_sameMem (s : State) (t : Nat) (o : BitVec 96) :
    SameMem s (s.nodeCommit t o) := by simp [State.nodeCommit]

@[simp] theorem State.mapMark_sameMem (s : State) (t kind : Nat) : SameMem s (s.mapMark t kind) := by
  simp [State.mapMark]

@[simp] theorem State.dropPending_sameMem (s : State) (t : Nat) : SameMem s (s.dropPending t) := by
  simp [State.dropPending]

@[simp] theorem State.fenceSend_sameMem (s : State) (q : FenceReq) (set : Bool) (order : Option Nat) :
    SameMem s (s.fenceSend q set order) := by simp [State.fenceSend]

@[simp] theorem State.commitSend_sameMem (s : State) (l t : Nat) (clearHold : Bool) :
    SameMem s (s.commitSend l t clearHold) := by simp [State.commitSend]

@[simp] theorem State.fenceDone_sameMem (s : State) (o : Outgoing) : SameMem s (s.fenceDone o) := by
  simp [State.fenceDone]

@[simp] theorem State.unfenceDone_sameMem (s : State) (o : Outgoing) (clear : Bool) :
    SameMem s (s.unfenceDone o clear) := by simp [State.unfenceDone]

/-! ### Machine.Contain -/

@[simp] theorem State.raiseDetection_sameMem (s : State) (d : Detection) (code : Nat) (detail : Word) :
    SameMem s (s.raiseDetection d code detail) := by simp [State.raiseDetection]

@[simp] theorem State.detect_sameMem (s : State) (d : Detection) : SameMem s (s.detect d) := by
  unfold State.detect
  dsimp only
  (repeat' split) <;> simp

@[simp] theorem State.taintStart_sameMem (s : State) : SameMem s s.taintStart := by
  unfold State.taintStart
  split <;> simp

@[simp] theorem State.nodeQuery_sameMem (s : State) (t : Nat) (o : BitVec 96) : SameMem s (s.nodeQuery t o) := by
  simp [State.nodeQuery]

@[simp] theorem State.taintClose_sameMem (s : State) : SameMem s s.taintClose := by
  unfold State.taintClose
  split <;> simp

@[simp] theorem State.taintPublish_sameMem (s : State) : SameMem s s.taintPublish := by
  unfold State.taintPublish
  split <;> simp

@[simp] theorem State.reportAck_sameMem (s : State) (v : Word) : SameMem s (s.reportAck v) := by
  unfold State.reportAck
  split <;> simp

/-! ### Machine.Maq -/

@[simp] theorem State.hostUpdate_sameMem (s : State) : SameMem s s.hostUpdate := by
  unfold State.hostUpdate
  obtain ⟨l, hl⟩ := exists_eq_allTiles
  rw [hl]
  simp

@[simp] theorem State.maqTally_sameMem (s : State) (t lo : Nat) : SameMem s (s.maqTally t lo) := by
  simp [State.maqTally]

@[simp] theorem State.newDue_sameMem (s : State) (t : Nat) : SameMem s (s.newDue t) := by
  simp [State.newDue]

@[simp] theorem State.maqCount_sameMem (s : State) (t : Nat) : SameMem s (s.maqCount t) := by
  simp [State.maqCount]

@[simp] theorem State.maqSend_sameMem (s : State) (func slot host logical src exp : Nat) (dests : BitVec 1152)
    (order : Option Nat) :
    SameMem s (s.maqSend func slot host logical src exp dests order) := by simp [State.maqSend]

@[simp] theorem State.maqEnd_sameMem (s : State) (k : Nat) (o : MaqOut) : SameMem s (s.maqEnd k o) := by
  unfold State.maqEnd
  (repeat' split) <;> simp

@[simp] theorem State.maqSample_sameMem (s : State) (t : Nat) (c : Cmd) : SameMem s (s.maqSample t c) := by
  unfold State.maqSample
  dsimp only
  (repeat' split) <;> simp

@[simp] theorem State.maqBegin_sameMem (s : State) (t : Nat) (c : Cmd) : SameMem s (s.maqBegin t c) := by
  simp [State.maqBegin]

@[simp] theorem State.eachSession_sameMem (s : State) (f : State → Nat → Session → State)
    (hf : ∀ s k x, SameMem s (f s k x)) :
    SameMem s (s.eachSession f) := by
  unfold State.eachSession
  refine foldl_sameMem _ _ _ fun s k => ?_
  split
  · exact hf s k _
  · simp

@[simp] theorem State.maqAssign_sameMem (s : State) (t : Nat) : SameMem s (s.maqAssign t) := by
  unfold State.maqAssign
  (repeat' split) <;> simp

@[simp] theorem State.maqAssignAll_sameMem (s : State) : SameMem s s.maqAssignAll := by
  simp [State.maqAssignAll]

@[simp] theorem State.armFailed_sameMem (s : State) (k reason : Nat) : SameMem s (s.armFailed k reason) := by
  unfold State.armFailed
  split <;> simp

@[simp] theorem State.maqReissue_sameMem (s : State) (t k func : Nat) : SameMem s (s.maqReissue t k func) := by
  unfold State.maqReissue
  split <;> simp

@[simp] theorem State.refereeArm_sameMem (s : State) (t k : Nat) (src : Nat) :
    SameMem s (s.refereeArm t k src) := by
  unfold State.refereeArm
  split <;> simp

@[simp] theorem State.nodeMaq_sameMem (s : State) (t func : Nat) (mapgen : BitVec 16) (o : BitVec 96) :
    SameMem s (s.nodeMaq t func mapgen o) := by
  unfold State.nodeMaq
  split <;> simp

@[simp] theorem State.maqReport_sameMem (s : State) (k : Nat) (x : Session) (out reason : Nat) :
    SameMem s (s.maqReport k x out reason) := by simp [State.maqReport]

@[simp] theorem State.maqCompare_sameMem (s : State) (k : Nat) : SameMem s (s.maqCompare k) := by
  unfold State.maqCompare
  (repeat' split) <;> simp

@[simp] theorem State.maqOutcome_sameMem (s : State) (t : Nat) (sm : Summary) :
    SameMem s (s.maqOutcome t sm) := by
  unfold State.maqOutcome
  (repeat' split) <;> simp

@[simp] theorem State.maqDeadline_sameMem (s : State) (k : Nat) : SameMem s (s.maqDeadline k) := by
  unfold State.maqDeadline
  split <;> simp

@[simp] theorem State.maqArmTimeout_sameMem (s : State) (k : Nat) : SameMem s (s.maqArmTimeout k) := by
  unfold State.maqArmTimeout
  split <;> simp

@[simp] theorem State.maqCharge_sameMem (s : State) (t unit b0 : Nat) (cmd : Option Cmd) :
    SameMem s (s.maqCharge t unit b0 cmd) := by simp [State.maqCharge]

@[simp] theorem State.maqArbitrate_sameMem (s : State) (k : Nat) (ref : Option MaqRecord) :
    SameMem s (s.maqArbitrate k ref) := by
  unfold State.maqArbitrate
  split <;> simp

@[simp] theorem State.maqClose_sameMem (s : State) : SameMem s s.maqClose := by
  unfold State.maqClose
  dsimp only
  refine .trans (b := s.eachSession _) (s.eachSession_sameMem _ fun s k x => ?_)
    (State.eachSession_sameMem _ _ fun s k x => ?_)
  · (repeat' split) <;> simp
  · cases x.referee <;> split <;> simp

@[simp] theorem State.maqReferee_sameMem (s : State) (k : Nat) : SameMem s (s.maqReferee k) := by
  unfold State.maqReferee
  (repeat' split) <;> simp

@[simp] theorem State.maqArbitration_sameMem (s : State) (k : Nat) : SameMem s (s.maqArbitration k) := by
  unfold State.maqArbitration
  (repeat' split) <;> simp

@[simp] theorem State.maqFenced_sameMem (s : State) (t : Nat) : SameMem s (s.maqFenced t) := by
  simp [State.maqFenced]

@[simp] theorem State.maqPromoted_sameMem (s : State) (t : Nat) : SameMem s (s.maqPromoted t) := by
  simp [State.maqPromoted]

@[simp] theorem State.maqEndAll_sameMem (s : State) (reason : Nat) : SameMem s (s.maqEndAll reason) := by
  simp [State.maqEndAll]

@[simp] theorem State.maqSourceHalt_sameMem (s : State) (t : Nat) : SameMem s (s.maqSourceHalt t) := by
  simp [State.maqSourceHalt]

@[simp] theorem State.maqReleased_sameMem (s : State) (t : Nat) : SameMem s (s.maqReleased t) := by
  simp [State.maqReleased]

@[simp] theorem State.maqAcked_sameMem (s : State) (o : BitVec 96) : SameMem s (s.maqAcked o) := by
  unfold State.maqAcked
  dsimp only
  (repeat' split) <;> simp

@[simp] theorem State.maqSourceEnd_sameMem (s : State) (t : Nat) (c : Cmd) (outs : List OutBlock) :
    SameMem s (s.maqSourceEnd t c outs) := by
  unfold State.maqSourceEnd
  dsimp only
  (repeat' split) <;> simp

@[simp] theorem State.hostBegin_sameMem (s : State) (t : Nat) (c : Cmd) : SameMem s (s.hostBegin t c) := by
  unfold State.hostBegin
  dsimp only
  (repeat' split) <;> simp

@[simp] theorem State.hostEnd_sameMem (s : State) (t : Nat) (outs : List OutBlock) :
    SameMem s (s.hostEnd t outs) := by
  unfold State.hostEnd
  dsimp only
  (repeat' split) <;> simp

/-! ### Machine.Nvme -/

@[simp] theorem State.nvmeCmd_sameMem (s : State) (c : NvmeCmd) : SameMem s (s.nvmeCmd c) := by
  simp [State.nvmeCmd]

@[simp] theorem State.nvmeRun_sameMem (s : State) (cs : List NvmeCmd) : SameMem s (s.nvmeRun cs) := by
  simp [State.nvmeRun]

@[simp] theorem State.nvmeStart_sameMem (s : State) : SameMem s s.nvmeStart := by simp [State.nvmeStart]

@[simp] theorem State.drainRun_sameMem (s : State) (cs : List NvmeCmd) : SameMem s (s.drainRun cs) := by
  simp [State.drainRun]

@[simp] theorem State.superWrite_sameMem (s : State) (c : SuperCopy) : SameMem s (s.superWrite c).1 := by
  simp [State.superWrite]

/-! ### Machine.Time -/

@[simp] theorem State.ppsEdge_sameMem (s : State) : SameMem s s.ppsEdge := by simp [State.ppsEdge]

@[simp] theorem State.ppsLose_sameMem (s : State) : SameMem s s.ppsLose := by simp [State.ppsLose]

@[simp] theorem State.electSet_sameMem (s : State) (st uplink depth : Nat) (m : Word) :
    SameMem s (s.electSet st uplink depth m) := by simp [State.electSet]

@[simp] theorem State.raiseSkew_sameMem (s : State) : SameMem s s.raiseSkew := by simp [State.raiseSkew]

@[simp] theorem State.electTo_sameMem (s : State) (st uplink depth : Nat) (m : Word) :
    SameMem s (s.electTo st uplink depth m) := by simp [State.electTo]

@[simp] theorem State.timeSplit_sameMem (s : State) (m : Option Word) : SameMem s (s.timeSplit m) := by
  unfold State.timeSplit
  split <;> simp

@[simp] theorem State.elect_sameMem (s : State) (advs : List ElectAdv) : SameMem s (s.elect advs) := by
  unfold State.elect
  dsimp only
  (repeat' split) <;> simp

@[simp] theorem State.judgeSkew_sameMem (s : State) (upMet : Bool) : SameMem s (s.judgeSkew upMet) := by
  simp [State.judgeSkew]

@[simp] theorem State.timex_sameMem (s : State) (x : Option TimexIn) : SameMem s (s.timex x) := by
  unfold State.timex
  (repeat' split) <;> simp

@[simp] theorem State.onePacket_sameMem (s : State) (n kind : Nat) (net : Bool) (body : Flit) :
    SameMem s (s.onePacket n kind net body) := by simp [State.onePacket]

@[simp] theorem State.electSend_sameMem (s : State) : SameMem s s.electSend := by simp [State.electSend]

@[simp] theorem State.takeAdv_sameMem (s : State) (a : ElectAdv) : SameMem s (s.takeAdv a) := by
  simp [State.takeAdv]

@[simp] theorem State.timexReply_sameMem (s : State) (link : Nat) : SameMem s (s.timexReply link) := by
  simp [State.timexReply]

@[simp] theorem State.timeMaster_sameMem (s : State) : SameMem s s.timeMaster := by simp [State.timeMaster]

@[simp] theorem State.domainStop_sameMem (s : State) (d : Nat) (lastEdge : Word) :
    SameMem s (s.domainStop d lastEdge) := by simp [State.domainStop]

@[simp] theorem State.domainGap_sameMem (s : State) (d : Nat) : SameMem s (s.domainGap d) := by
  simp [State.domainGap]

@[simp] theorem State.stopRegion_sameMem (s : State) (g : Nat) : SameMem s (s.stopRegion g) := by
  simp [State.stopRegion]

@[simp] theorem State.countCycle_sameMem (s : State) : SameMem s s.countCycle := by simp [State.countCycle]

@[simp] theorem State.plinthCycle_sameMem (s : State) : SameMem s s.plinthCycle := by simp [State.plinthCycle]

/-! ### Machine.Therm -/

@[simp] theorem State.raiseTherm_sameMem (s : State) (sensor code : Nat) (sev : Severity) (detail : Word) :
    SameMem s (s.raiseTherm sensor code sev detail) := by simp [State.raiseTherm]

@[simp] theorem State.bumpTherm_sameMem (s : State) (k : Nat) : SameMem s (s.bumpTherm k) := by
  simp [State.bumpTherm]

@[simp] theorem State.sensorBad_sameMem (s : State) (n reason : Nat) (v : BitVec 16) :
    SameMem s (s.sensorBad n reason v) := by simp [State.sensorBad]

@[simp] theorem State.sensorRecover_sameMem (s : State) (n : Nat) (r : Option (BitVec 16)) (before : Bool) :
    SameMem s (s.sensorRecover n r before) := by
  unfold State.sensorRecover
  split <;> simp

@[simp] theorem State.sensorTake_sameMem (s : State) (n : Nat) (r : Option (BitVec 16)) :
    SameMem s (s.sensorTake n r) := by
  unfold State.sensorTake
  dsimp only
  (repeat' split) <;> simp

@[simp] theorem State.sensorSample_sameMem (s : State) (n : Nat) (r : Option (BitVec 16)) :
    SameMem s (s.sensorSample n r) := by simp [State.sensorSample]

@[simp] theorem State.thermWarn_sameMem (s : State) : SameMem s s.thermWarn := by
  unfold State.thermWarn
  refine foldl_sameMem _ _ _ fun s g => ?_
  dsimp only
  split <;> simp

@[simp] theorem State.thermReadings_sameMem (s : State) : SameMem s s.thermReadings := by
  simp [State.thermReadings]

@[simp] theorem State.stepEvent_sameMem (s : State) (g old new : Nat) (c : StepCause) :
    SameMem s (s.stepEvent g old new c) := by simp [State.stepEvent]

@[simp] theorem State.regionStep_sameMem (s : State) (g : Nat) : SameMem s (s.regionStep g) := by
  simp [State.regionStep]

@[simp] theorem State.regionBand_sameMem (s : State) (g l : Nat) : SameMem s (s.regionBand g l) := by
  simp [State.regionBand]

@[simp] theorem State.refreshBoundary_sameMem (s : State) (g l : Nat) : SameMem s (s.refreshBoundary g l) := by
  simp [State.refreshBoundary]

@[simp] theorem State.shutdownDecide_sameMem (s : State) : SameMem s s.shutdownDecide := by
  unfold State.shutdownDecide
  (repeat' split) <;> simp

@[simp] theorem State.thermDecide_sameMem (s : State) : SameMem s s.thermDecide := by simp [State.thermDecide]

@[simp] theorem State.raiseWindow_sameMem (s : State) (op layer : Nat) (ended : Bool) (h : Option (Nat × Int))
    (beats : Nat) :
    SameMem s (s.raiseWindow op layer ended h beats) := by simp [State.raiseWindow]

/-! ### Machine.Repair -/

@[simp] theorem State.repairSave_sameMem (s : State) (reason t : Nat) : SameMem s (s.repairSave reason t) := by
  simp [State.repairSave]

@[simp] theorem State.recordChanged_sameMem (s : State) (t : Nat) : SameMem s (s.recordChanged t) := by
  simp [State.recordChanged]

@[simp] theorem State.addRepair_sameMem (s : State) (w : Word) : SameMem s (s.addRepair w) := by
  simp [State.addRepair]

@[simp] theorem State.recordWrite_sameMem (s : State) (ok : Bool) : SameMem s (s.recordWrite ok) := by
  simp [State.recordWrite]

@[simp] theorem State.clearFenceOld_sameMem (s : State) (t : Nat) : SameMem s (s.clearFenceOld t) := by
  simp [State.clearFenceOld]

@[simp] theorem State.applyRow_sameMem (s : State) (w : Word) : SameMem s (s.applyRow w) := by
  simp [State.applyRow]

@[simp] theorem State.fuseCheck_sameMem (s : State) : SameMem s s.fuseCheck.2 := by simp [State.fuseCheck]

@[simp] theorem State.commitEnd_sameMem (s : State) (state : Nat) (st : Status) :
    SameMem s (s.commitEnd state st) := by
  unfold State.commitEnd
  split <;> simp

@[simp] theorem State.commitNext_sameMem (s : State) (id i n : Nat) : SameMem s (s.commitNext id i n) := by
  unfold State.commitNext
  split <;> simp

@[simp] theorem State.commitStart_sameMem (s : State) (id : Nat) : SameMem s (s.commitStart id) := by
  simp [State.commitStart]

@[simp] theorem State.progResult_sameMem (s : State) (v : Word) : SameMem s (s.progResult v) := by
  unfold State.progResult
  split <;> simp

@[simp] theorem State.commitTick_sameMem (s : State) : SameMem s s.commitTick := by simp [State.commitTick]

/-! ### Machine.Chisel -/

@[simp] theorem State.chiselDue_sameMem (s : State) (t : Nat) : SameMem s (s.chiselDue t) := by
  simp [State.chiselDue]

@[simp] theorem State.chiselCall_sameMem (s : State) (t cause : Nat) (units : BitVec 16) :
    SameMem s (s.chiselCall t cause units) := by
  unfold State.chiselCall
  dsimp only
  (repeat' split) <;> simp

@[simp] theorem State.chiselSuspect_sameMem (s : State) (t : Nat) : SameMem s (s.chiselSuspect t) := by
  simp [State.chiselSuspect]

@[simp] theorem State.chiselPend_sameMem (s : State) (t : Nat) : SameMem s (s.chiselPend t) := by
  simp [State.chiselPend]

@[simp] theorem State.chiselForce_sameMem (s : State) (t : Nat) : SameMem s (s.chiselForce t) := by
  simp [State.chiselForce]

@[simp] theorem State.scanEnds_sameMem (s : State) : SameMem s s.scanEnds := by
  unfold State.scanEnds
  refine foldl_sameMem _ _ _ fun s e => ?_
  split <;> simp

@[simp] theorem State.deferTick_sameMem (s : State) : SameMem s s.deferTick := by simp [State.deferTick]

@[simp] theorem State.voidTile_sameMem (s : State) (t : Nat) : SameMem s (s.voidTile t) := by
  simp [State.voidTile]

@[simp] theorem State.voidRegion_sameMem (s : State) (g : Nat) : SameMem s (s.voidRegion g) := by
  simp [State.voidRegion]

@[simp] theorem State.windowLeft_sameMem (s old : State) (g : Nat) : SameMem s (s.windowLeft old g) := by
  simp [State.windowLeft]

@[simp] theorem State.windowsLeft_sameMem (s old : State) : SameMem s (s.windowsLeft old) := by
  simp [State.windowsLeft]

@[simp] theorem State.chiselTick_sameMem (s old : State) : SameMem s (s.chiselTick old) := by
  simp [State.chiselTick]

@[simp] theorem State.chiselSend_sameMem (s : State) (op t : Nat) (o : BitVec 96) :
    SameMem s (s.chiselSend op t o) := by simp [State.chiselSend]

@[simp] theorem State.armTile_sameMem (s : State) (t k role other : Nat) (units segs : BitVec 16)
    (session : BitVec 32) :
    SameMem s (s.armTile t k role other units segs session) := by simp [State.armTile]

@[simp] theorem State.armPair_sameMem (s : State) (t : Nat) : SameMem s (s.armPair t) := by
  unfold State.armPair
  dsimp only
  (repeat' split) <;> simp

@[simp] theorem State.armWitnessFor_sameMem (s : State) (t g : Nat) : SameMem s (s.armWitnessFor t g) := by
  unfold State.armWitnessFor
  (repeat' split) <;> simp

@[simp] theorem State.armWitness_sameMem (s : State) (t : Nat) : SameMem s (s.armWitness t) := by
  simp [State.armWitness]

@[simp] theorem State.chiselArmAll_sameMem (s : State) : SameMem s s.chiselArmAll := by simp [State.chiselArmAll]

@[simp] theorem State.dropSlot_sameMem (s : State) (t : Nat) : SameMem s (s.dropSlot t) := by
  unfold State.dropSlot
  split <;> simp

@[simp] theorem State.liftHold_sameMem (s : State) (t : Nat) : SameMem s (s.liftHold t) := by
  unfold State.liftHold
  split <;> simp

@[simp] theorem State.disarmOne_sameMem (s : State) (t : Nat) : SameMem s (s.disarmOne t) := by
  unfold State.disarmOne
  split <;> simp

@[simp] theorem State.disarm_sameMem (s : State) (t : Nat) : SameMem s (s.disarm t) := by
  unfold State.disarm
  dsimp only
  (repeat' split) <;> simp

@[simp] theorem State.chiselArmWait_sameMem (s : State) (t : Nat) : SameMem s (s.chiselArmWait t) := by
  simp [State.chiselArmWait]

@[simp] theorem State.chiselSay_sameMem (s : State) (t rkind seg : Nat) (vals : List Word) :
    SameMem s (s.chiselSay t rkind seg vals) := by simp [State.chiselSay]

@[simp] theorem State.chiselReady_sameMem (s : State) (t : Nat) : SameMem s (s.chiselReady t) := by
  simp [State.chiselReady]

@[simp] theorem State.seedSend_sameMem (s : State) (t : Nat) : SameMem s (s.seedSend t) := by
  unfold State.seedSend
  (repeat' split) <;> simp

@[simp] theorem State.beginTile_sameMem (s : State) (t : Nat) : SameMem s (s.beginTile t) := by
  unfold State.beginTile
  split <;> simp

@[simp] theorem State.chiselStart_sameMem (s : State) (t : Nat) : SameMem s (s.chiselStart t) := by
  unfold State.chiselStart
  split <;> simp

@[simp] theorem State.raiseStarved_sameMem (s : State) (t cause : Nat) : SameMem s (s.raiseStarved t cause) := by
  simp [State.raiseStarved]

@[simp] theorem State.starveRestart_sameMem (s : State) (t : Nat) : SameMem s (s.starveRestart t) := by
  simp [State.starveRestart]

@[simp] theorem State.chiselStarve_sameMem (s : State) (t : Nat) : SameMem s (s.chiselStarve t) := by
  simp [State.chiselStarve]

@[simp] theorem State.testHoldDrained_sameMem (s : State) (t : Nat) : SameMem s (s.testHoldDrained t) := by
  -- the definition with the list of tiles under a name, so that its fold is never evaluated
  obtain ⟨f, hf⟩ : ∃ f, f = State.testHoldDrained := ⟨_, rfl⟩
  obtain ⟨l, hl⟩ := exists_eq_allTiles
  rw [← hf]
  delta State.testHoldDrained at hf
  rw [hl] at hf
  subst hf
  dsimp only
  split <;> simp

@[simp] theorem State.voidSlices_sameMem (s : State) : SameMem s s.voidSlices := by simp [State.voidSlices]

@[simp] theorem State.segDecide_sameMem (s : State) (t g : Nat) (v : SegVerdict) (bad : List Nat) :
    SameMem s (s.segDecide t g v bad) := by simp [State.segDecide]

@[simp] theorem State.judgeStruct_sameMem (s : State) (t g : Nat) (vs : List Word) :
    SameMem s (s.judgeStruct t g vs) := by simp [State.judgeStruct]

@[simp] theorem State.dispute_sameMem (s : State) (t g : Nat) : SameMem s (s.dispute t g) := by
  simp [State.dispute]

@[simp] theorem State.judgeCross_sameMem (s : State) (t p g : Nat) : SameMem s (s.judgeCross t p g) := by
  simp [State.judgeCross]

@[simp] theorem State.witnessDecide_sameMem (s : State) (t p g : Nat) (w : Option (List Word)) :
    SameMem s (s.witnessDecide t p g w) := by simp [State.witnessDecide]

@[simp] theorem State.segStart_sameMem (s : State) (t : Nat) (segs : BitVec 16) :
    SameMem s (s.segStart t segs) := by simp [State.segStart]

@[simp] theorem State.takeResult_sameMem (s : State) (t g : Nat) (vs : List Word) :
    SameMem s (s.takeResult t g vs) := by
  unfold State.takeResult
  dsimp only
  (repeat' split) <;> simp

@[simp] theorem State.witnessLate_sameMem (s : State) (t p g : Nat) : SameMem s (s.witnessLate t p g) := by
  unfold State.witnessLate
  dsimp only
  (repeat' split) <;> simp

@[simp] theorem State.witnessExpiry_sameMem (s : State) (t : Nat) : SameMem s (s.witnessExpiry t) := by
  unfold State.witnessExpiry
  split <;> simp

@[simp] theorem State.chiselListDone_sameMem (s : State) (t : Nat) : SameMem s (s.chiselListDone t) := by
  simp [State.chiselListDone]

@[simp] theorem State.chiselFinish_sameMem (s : State) (t func reason : Nat) :
    SameMem s (s.chiselFinish t func reason) := by
  unfold State.chiselFinish
  split <;> simp

@[simp] theorem State.chiselHolding_sameMem (s : State) (t : Nat) : SameMem s (s.chiselHolding t) := by
  unfold State.chiselHolding
  split <;> simp

@[simp] theorem State.chiselHoldAll_sameMem (s : State) : SameMem s s.chiselHoldAll := by
  simp [State.chiselHoldAll]

@[simp] theorem State.sessionExpiry_sameMem (s : State) (t : Nat) : SameMem s (s.sessionExpiry t) := by
  unfold State.sessionExpiry
  split <;> simp

@[simp] theorem State.chiselReport_sameMem (s : State) (t partner : Nat) :
    SameMem s (s.chiselReport t partner) := by
  unfold State.chiselReport
  dsimp only
  (repeat' split) <;> simp

@[simp] theorem State.chiselCredit_sameMem (s : State) (t : Nat) : SameMem s (s.chiselCredit t) := by
  simp [State.chiselCredit]

@[simp] theorem State.chiselTaint_sameMem (s : State) (t : Nat) (units : List Nat) :
    SameMem s (s.chiselTaint t units) := by simp [State.chiselTaint]

@[simp] theorem State.chiselRepair_sameMem (s : State) (t : Nat) (rep : Repair) (seg : Nat) :
    SameMem s (s.chiselRepair t rep seg) := by
  unfold State.chiselRepair
  split <;> simp

@[simp] theorem State.chiselRelease_sameMem (s : State) (t : Nat) : SameMem s (s.chiselRelease t) := by
  simp [State.chiselRelease]

@[simp] theorem State.chiselOver_sameMem (s : State) (t : Nat) : SameMem s (s.chiselOver t) := by
  simp [State.chiselOver]

@[simp] theorem State.chiselEnd_sameMem (s : State) (t : Nat) : SameMem s (s.chiselEnd t) := by
  unfold State.chiselEnd
  dsimp only
  (repeat' split) <;> simp

@[simp] theorem State.chiselAbortAll_sameMem (s : State) (reason : Nat) :
    SameMem s (s.chiselAbortAll reason) := by
  unfold State.chiselAbortAll
  refine foldl_sameMem _ _ _ fun s t => ?_
  dsimp only
  split <;> simp

@[simp] theorem State.chiselShutdown_sameMem (s : State) : SameMem s s.chiselShutdown := by
  unfold State.chiselShutdown
  refine foldl_sameMem _ _ _ fun s t => ?_
  dsimp only
  split <;> simp

@[simp] theorem State.chiselFenced_sameMem (s : State) (t : Nat) : SameMem s (s.chiselFenced t) := by
  simp [State.chiselFenced]

@[simp] theorem State.chiselNowDo_sameMem (s : State) (t : Nat) (units : BitVec 16) (order : Nat) :
    SameMem s (s.chiselNowDo t units order) := by simp [State.chiselNowDo]

@[simp] theorem State.deferTile_sameMem (s : State) (t beats : Nat) : SameMem s (s.deferTile t beats) := by
  simp [State.deferTile]

/-! ### Machine.Mould -/

@[simp] theorem State.mirrorMould_sameMem (s : State) (t : Nat) : SameMem s (s.mirrorMould t) := by
  unfold State.mirrorMould
  split <;> simp

/-! ### Machine.Patina -/

@[simp] theorem State.raiseLevel_sameMem (s : State) (t old new cause score : Nat) :
    SameMem s (s.raiseLevel t old new cause score) := by simp [State.raiseLevel]

@[simp] theorem State.levelChange_sameMem (s : State) (t old new cause score : Nat) :
    SameMem s (s.levelChange t old new cause score) := by
  simp [State.levelChange,
    ]

@[simp] theorem State.patinaTile_sameMem (s : State) (t : Nat) : SameMem s (s.patinaTile t) := by
  simp [State.patinaTile]

@[simp] theorem State.patinaUpdate_sameMem (s : State) : SameMem s s.patinaUpdate := by simp [State.patinaUpdate]

@[simp] theorem State.holdBoundary_sameMem (s : State) (t : Nat) : SameMem s (s.holdBoundary t) := by
  simp [State.holdBoundary]

@[simp] theorem State.fenceHooks_sameMem (s : State) (t : Nat) : SameMem s (s.fenceHooks t) := by
  simp [State.fenceHooks]

@[simp] theorem State.fenceTile_sameMem (s : State) (t kind : Nat) (fence hold : Bool) (order : Option Nat) :
    SameMem s (s.fenceTile t kind fence hold order) := by simp [State.fenceTile]

@[simp] theorem State.promoteFail_sameMem (s : State) (reason t l : Nat) :
    SameMem s (s.promoteFail reason t l) := by simp [State.promoteFail]

@[simp] theorem State.modPromotion_sameMem (s : State) (l : Nat) (f : Promotion → Promotion) :
    SameMem s (s.modPromotion l f) := by simp [State.modPromotion]

@[simp] theorem State.promoteFence_sameMem (s : State) (t kind : Nat) (target order : Option Nat) (saved : Bool) :
    SameMem s (s.promoteFence t kind target order saved) := by
  unfold State.promoteFence
  split <;> simp

@[simp] theorem State.quarantine_sameMem (s : State) (t : Nat) : SameMem s (s.quarantine t) := by
  simp [State.quarantine]

@[simp] theorem State.patinaAction_sameMem (s : State) (a : Nat × Nat × Nat) : SameMem s (s.patinaAction a) := by
  simp [State.patinaAction]

@[simp] theorem State.boundaryFences_sameMem (s : State) : SameMem s s.boundaryFences := by
  simp [State.boundaryFences]

@[simp] theorem State.targetLost_sameMem (s : State) (p : Promotion) : SameMem s (s.targetLost p) := by
  simp [State.targetLost]

@[simp] theorem State.migrateStart_sameMem (s : State) (p : Promotion) : SameMem s (s.migrateStart p) := by
  unfold State.migrateStart
  dsimp only
  (repeat' split) <;> simp

@[simp] theorem State.targetsCheck_sameMem (s : State) : SameMem s s.targetsCheck := by simp [State.targetsCheck]

@[simp] theorem State.patinaDispatch_sameMem (s : State) : SameMem s s.patinaDispatch := by
  simp [State.patinaDispatch]

@[simp] theorem State.promoteDone_sameMem (s : State) (l : Nat) : SameMem s (s.promoteDone l) := by
  unfold State.promoteDone
  (repeat' split) <;> simp

@[simp] theorem State.promotionResume_sameMem (s : State) (l : Nat) : SameMem s (s.promotionResume l) := by
  unfold State.promotionResume
  split <;> simp

@[simp] theorem State.fenceDo_sameMem (s : State) (t mode id : Nat) : SameMem s (s.fenceDo t mode id) := by
  simp [State.fenceDo]

@[simp] theorem State.clearPatina_sameMem (s : State) (t : Nat) : SameMem s (s.clearPatina t) := by
  simp [State.clearPatina]

@[simp] theorem State.unfenceDo_sameMem (s : State) (t : Nat) (clear : Bool) (id : Nat) :
    SameMem s (s.unfenceDo t clear id) := by simp [State.unfenceDo]

@[simp] theorem State.promoteDo_sameMem (s : State) (l : Nat) (target : Option Nat) (id : Nat) :
    SameMem s (s.promoteDo l target id) := by
  unfold State.promoteDo
  split <;> simp

@[simp] theorem State.releaseStart_sameMem (s : State) (r : Rect) (id : Nat) :
    SameMem s (s.releaseStart r id) := by simp [State.releaseStart]

@[simp] theorem State.releaseDone_sameMem (s : State) (a : Rect) : SameMem s (s.releaseDone a) := by
  unfold State.releaseDone
  split <;> simp

/-! ### Machine.Stack -/

@[simp] theorem State.nbTime_sameMem (s : State) (r : NbRun) (cycles : Nat) : SameMem s (s.nbTime r cycles) := by
  simp [State.nbTime]

@[simp] theorem State.drawBytes_sameMem (s : State) (n : Nat) : SameMem s (s.drawBytes n).2 := by
  simp [State.drawBytes]

@[simp] theorem State.refreshDue_sameMem (s : State) (t l bank : Nat) : SameMem s (s.refreshDue t l bank) := by
  simp [State.refreshDue]

@[simp] theorem State.mrTick_sameMem (s : State) : SameMem s s.mrTick := by
  unfold State.mrTick
  refine foldl_sameMem _ _ _ fun s l => ?_
  dsimp only
  split <;> simp

@[simp] theorem State.convertEnd_sameMem (s : State) (l : Nat) (c : Convert) : SameMem s (s.convertEnd l c) := by
  simp [State.convertEnd]

@[simp] theorem State.reencodeStep_sameMem (s : State) (t l : Nat) : SameMem s (s.reencodeStep t l) := by
  unfold State.reencodeStep
  split <;> simp

@[simp] theorem State.patrolFind_sameMem (s : State) (t l b : Nat) (e : EccFinding) :
    SameMem s (s.patrolFind t l b e) := by
  unfold State.patrolFind
  split <;> simp

@[simp] theorem State.patrolBegin_sameMem (s : State) (l : Nat) : SameMem s (s.patrolBegin l) := by
  simp [State.patrolBegin]

@[simp] theorem State.patrolVisit_sameMem (s : State) (t l b : Nat) (e : EccFinding) :
    SameMem s (s.patrolVisit t l b e) := by simp [State.patrolVisit]

@[simp] theorem State.wsetHash_sameMem (s : State) (w fmt : Nat) (ue : List (Nat × Nat)) :
    SameMem s (s.wsetHash w fmt ue) := by
  unfold State.wsetHash
  dsimp only
  (repeat' split) <;> simp

/-! ### Machine.Cast -/

@[simp] theorem State.modRun_sameMem (s : State) (f : CastRun → CastRun) : SameMem s (s.modRun f) := by
  simp [State.modRun]

@[simp] theorem State.restoreWindow_sameMem (s : State) (l y : Nat) (ended : Bool) (beats : Nat) :
    SameMem s (s.restoreWindow l y ended beats) := by simp [State.restoreWindow]

@[simp] theorem State.resumeSend_sameMem (s : State) : SameMem s s.resumeSend := by simp [State.resumeSend]

@[simp] theorem State.pauseSend_sameMem (s : State) (func : Nat) : SameMem s (s.pauseSend func) := by
  simp [State.pauseSend]

@[simp] theorem State.deferEnd_sameMem (s : State) : SameMem s s.deferEnd := by
  unfold State.deferEnd
  (repeat' split) <;> simp

@[simp] theorem State.redirty_sameMem (s : State) (r : CastRun) : SameMem s (s.redirty r) := by
  simp [State.redirty]

@[simp] theorem State.castFail_sameMem (s : State) (reason : Nat) (st : Status) :
    SameMem s (s.castFail reason st) := by
  unfold State.castFail
  dsimp only
  (repeat' split) <;> simp

@[simp] theorem State.castWindow_sameMem (s : State) : SameMem s s.castWindow := by
  unfold State.castWindow
  (repeat' split) <;> simp

@[simp] theorem State.castQuiesce_sameMem (s : State) (cyc : Nat) : SameMem s (s.castQuiesce cyc) := by
  unfold State.castQuiesce
  split <;> simp

@[simp] theorem State.gatherExpiry_sameMem (s : State) : SameMem s s.gatherExpiry := by
  unfold State.gatherExpiry
  split <;> simp

@[simp] theorem State.castCopied_sameMem (s : State) (cyc : Nat) : SameMem s (s.castCopied cyc) := by
  unfold State.castCopied
  split <;> simp

@[simp] theorem State.drainStart_sameMem (s : State) : SameMem s s.drainStart := by
  unfold State.drainStart
  split
  · simp
  · rename_i r _
    dsimp only
    generalize hu : (if s.logFree < r.size then s else _) = u
    have h : SameMem s u := by subst hu; split <;> simp
    split
    · refine .trans ?_ (foldl_sameMem _ _ _ fun s e => by simp)
      split <;> simp [h, -List.foldl_reverse]
    · simp [h]

@[simp] theorem State.promotionsGo_sameMem (s : State) : SameMem s s.promotionsGo := by simp [State.promotionsGo]

@[simp] theorem State.pauseOver_sameMem (s : State) : SameMem s s.pauseOver := by
  unfold State.pauseOver
  split <;> simp

@[simp] theorem State.castNext_sameMem (s : State) : SameMem s s.castNext := by
  unfold State.castNext
  split <;> simp

@[simp] theorem State.mouldDrained_sameMem (s : State) (t : Nat) : SameMem s (s.mouldDrained t) := by
  unfold State.mouldDrained
  (repeat' split) <;> simp

@[simp] theorem State.castDurable_sameMem (s : State) : SameMem s s.castDurable := by
  unfold State.castDurable
  split <;> simp

@[simp] theorem State.castStoreError_sameMem (s : State) : SameMem s s.castStoreError := by
  simp [State.castStoreError]

@[simp] theorem State.castStart_sameMem (s : State) (operand : BitVec 48) (id : Nat) :
    SameMem s (s.castStart operand id) := by simp [State.castStart]

@[simp] theorem State.restoreStart_sameMem (s : State) (operand : BitVec 48) (id : Nat) :
    SameMem s (s.restoreStart operand id) := by simp [State.restoreStart]

@[simp] theorem State.bindStart_sameMem (s : State) (operand : BitVec 48) (answer : Option PartnerAnswer)
    (id : Nat) :
    SameMem s (s.bindStart operand answer id) := by
  unfold State.bindStart
  split <;> simp

@[simp] theorem State.unbindStart_sameMem (s : State) (id : Nat) : SameMem s (s.unbindStart id) := by
  simp [State.unbindStart]

@[simp] theorem State.mirrorSuper_sameMem (s : State) (h : List Byte) : SameMem s (s.mirrorSuper h) := by
  simp [State.mirrorSuper]

@[simp] theorem State.mirrorReceive_sameMem (s : State) (chip : BitVec 13) (xid : BitVec 16)
    (blocks : List (List Byte)) (flushed : Bool) :
    SameMem s (s.mirrorReceive chip xid blocks flushed) := by simp [State.mirrorReceive]

@[simp] theorem State.restoreFail_sameMem (s : State) (reason tile low : Nat) (part : Bool) (st : Status) :
    SameMem s (s.restoreFail reason tile low part st) := by
  unfold State.restoreFail
  split <;> simp

@[simp] theorem State.restoreStop_sameMem (s : State) (chain : List CastRec) (n : BitVec 32) (id : Option Nat) :
    SameMem s (s.restoreStop chain n id) := by
  unfold State.restoreStop
  split <;> simp

@[simp] theorem State.restoreValidated_sameMem (s : State) (w : RestoreWalk) :
    SameMem s (s.restoreValidated w) := by
  unfold State.restoreValidated
  dsimp only
  (repeat' split) <;> simp

@[simp] theorem State.restoreUnhold_sameMem (s : State) : SameMem s s.restoreUnhold := by
  simp [State.restoreUnhold]

@[simp] theorem State.restoreDone_sameMem (s : State) : SameMem s s.restoreDone := by
  unfold State.restoreDone
  split <;> simp

@[simp] theorem State.windowTimeout_sameMem (s : State) : SameMem s s.windowTimeout := by
  unfold State.windowTimeout
  (repeat' split) <;> simp

/-! ### Machine.Work -/

@[simp] theorem State.watchEnd_sameMem (s : State) (t : Nat) (c : Cmd) (outs : List OutBlock) :
    SameMem s (s.watchEnd t c outs) := by simp [State.watchEnd]

@[simp] theorem State.settleReset_sameMem (s : State) (t : Nat) : SameMem s (s.settleReset t) := by
  unfold State.settleReset
  split <;> simp

@[simp] theorem State.resetTime_sameMem (s : State) : SameMem s s.resetTime.2 := by simp [State.resetTime]

@[simp] theorem State.countCommand_sameMem (s : State) (t : Nat) (e : CmdEnd) :
    SameMem s (s.countCommand t e) := by simp [State.countCommand]

@[simp] theorem State.feedDigests_sameMem (s : State) (t : Nat) (c : Cmd) (e : CmdEnd) :
    SameMem s (s.feedDigests t c e) := by
  unfold State.feedDigests
  split <;> simp

/-! ### Machine.NodeOps -/

@[simp] theorem State.stateEntry_sameMem (s : State) (t : Nat) : SameMem s (s.stateEntry t) := by
  simp [State.stateEntry]

@[simp] theorem State.nodeFreeze_sameMem (s : State) (t : Nat) : SameMem s (s.nodeFreeze t) := by
  simp [State.nodeFreeze]

@[simp] theorem State.nodePause_sameMem (s : State) (t : Nat) : SameMem s (s.nodePause t) := by
  simp [State.nodePause]

@[simp] theorem State.nodeChiselArm_sameMem (s : State) (t : Nat) (o : BitVec 96) :
    SameMem s (s.nodeChiselArm t o) := by simp [State.nodeChiselArm]

@[simp] theorem State.nodeChiselContinue_sameMem (s : State) (t : Nat) (o : BitVec 96) :
    SameMem s (s.nodeChiselContinue t o) := by simp [State.nodeChiselContinue]

@[simp] theorem State.nodeChiselStart_sameMem (s : State) (t : Nat) (o : BitVec 96) :
    SameMem s (s.nodeChiselStart t o) := by simp [State.nodeChiselStart]

@[simp] theorem State.nodeDisarm_sameMem (s : State) (t : Nat) : SameMem s (s.nodeDisarm t) := by
  simp [State.nodeDisarm]

@[simp] theorem State.nodeMaqSet_sameMem (s : State) (t func : Nat) (mapgen : BitVec 16) (o : BitVec 96) :
    SameMem s (s.nodeMaqSet t func mapgen o) := by simp [State.nodeMaqSet]

@[simp] theorem State.nodeWatch_sameMem (s : State) (t func : Nat) (o : BitVec 96) :
    SameMem s (s.nodeWatch t func o) := by
  unfold State.nodeWatch
  split <;> simp

@[simp] theorem State.fencedOrder_sameMem (s : State) (op t : Nat) : SameMem s (s.fencedOrder op t) := by
  unfold State.fencedOrder
  split <;> simp

@[simp] theorem State.nodeCounterRead_sameMem (s : State) (t func : Nat) :
    SameMem s (s.nodeCounterRead t func) := by simp [State.nodeCounterRead]

@[simp] theorem State.freeInboxes_sameMem (s : State) (t : Nat) : SameMem s (s.freeInboxes t) := by
  simp [State.freeInboxes]

@[simp] theorem State.nodeRing_sameMem (s : State) (t : Nat) (k : HangKind) (cause : Nat) :
    SameMem s (s.nodeRing t k cause) := by simp [State.nodeRing]

@[simp] theorem State.nodeEdge_sameMem (s : State) (t : Nat) : SameMem s (s.nodeEdge t) := by
  simp [State.nodeEdge]

@[simp] theorem State.ackDone_sameMem (s : State) (o : Outgoing) : SameMem s (s.ackDone o) := by
  unfold State.ackDone
  dsimp only
  (repeat' split) <;> simp

@[simp] theorem State.ackTake_sameMem (s : State) (k : StreamId) (xid : BitVec 16) :
    SameMem s (s.ackTake k xid) := by
  unfold State.ackTake
  split
  · rename_i node vc
    have h := s.takeAck_sameMem node vc xid
    split <;> simp_all
  · simp
  · simp

@[simp] theorem State.ackHeldTake_sameMem (s : State) (k : StreamId) (xid : BitVec 16) :
    SameMem s (s.ackHeldTake k xid) := by
  unfold State.ackHeldTake
  split <;> simp

@[simp] theorem State.takeEvent_sameMem (s : State) (r : EvRec) : SameMem s (s.takeEvent r) := by
  simp [State.takeEvent]

@[simp] theorem State.lateReply_sameMem (s : State) (t : Nat) : SameMem s (s.lateReply t) := by
  simp [State.lateReply]

@[simp] theorem State.takeReply_sameMem (s : State) (t : Nat) (body : List Flit) :
    SameMem s (s.takeReply t body) := by simp [State.takeReply]

@[simp] theorem State.takeSummaryPacket_sameMem (s : State) (t : Nat) (body : List Flit) :
    SameMem s (s.takeSummaryPacket t body) := by simp [State.takeSummaryPacket]

@[simp] theorem State.takeHubMsg_sameMem (s : State) (chip : BitVec 13) (kind len : Nat) :
    SameMem s (s.takeHubMsg chip kind len) := by simp [State.takeHubMsg]

@[simp] theorem State.packetPeer_sameMem (s : State) (link : Nat) (flits : List Flit) :
    SameMem s (s.packetPeer link flits) := by simp [State.packetPeer]

@[simp] theorem State.sentinelTake_sameMem (s : State) (link : Nat) (flits : List Flit) :
    SameMem s (s.sentinelTake link flits) := by
  have h := s.sentinelArrive_sameMem link flits
  unfold State.sentinelTake
  split <;> simp_all

/-! ### Machine.Bringup -/

@[simp] theorem State.giveUp_sameMem (s : State) (silent : List Nat) : SameMem s (s.giveUp silent) := by
  simp [State.giveUp]

@[simp] theorem State.applyRepair_sameMem (s : State) (w : Word) : SameMem s (s.applyRepair w) := by
  unfold State.applyRepair
  split <;> simp

@[simp] theorem State.superblock_sameMem (s : State) (i : S1In) (usable : Bool) :
    SameMem s (s.superblock i usable) := by simp [State.superblock]

@[simp] theorem State.hottestDram_sameMem (s : State) : SameMem s s.hottestDram.2 := by
  unfold State.hottestDram
  dsimp only
  (repeat' split) <;> simp

@[simp] theorem State.raiseLinkDown_sameMem (s : State) (n : Nat) : SameMem s (s.raiseLinkDown n) := by
  simp [State.raiseLinkDown]

@[simp] theorem State.linkChanged_sameMem (s : State) (n : Nat) : SameMem s (s.linkChanged n) := by
  simp [State.linkChanged]

@[simp] theorem State.trainLink_sameMem (s : State) (x : LinkTrain) (retry : Bool) :
    SameMem s (s.trainLink x retry) := by simp [State.trainLink]

@[simp] theorem State.linkRetrain_sameMem (s : State) (ls : List LinkTrain) : SameMem s (s.linkRetrain ls) := by
  simp [State.linkRetrain]

@[simp] theorem State.linkDown_sameMem (s : State) (n : Nat) : SameMem s (s.linkDown n) := by
  simp [State.linkDown]

@[simp] theorem State.readyStart_sameMem (s : State) : SameMem s s.readyStart := by
  simp [State.readyStart]

@[simp] theorem State.routesCheck_sameMem (s : State) : SameMem s s.routesCheck := by simp [State.routesCheck]

@[simp] theorem State.reposeStart_sameMem (s : State) (id : Nat) : SameMem s (s.reposeStart id) := by
  simp [State.reposeStart]

@[simp] theorem State.reposeExpiry_sameMem (s : State) : SameMem s s.reposeExpiry := by
  simp [State.reposeExpiry]

@[simp] theorem State.wakeStart_sameMem (s : State) (id : Nat) : SameMem s (s.wakeStart id) := by
  simp [State.wakeStart]

@[simp] theorem State.wakeTile_sameMem (s : State) (t : Nat) : SameMem s (s.wakeTile t) := by
  simp [State.wakeTile]

/-! ### Machine.Orders -/

@[simp] theorem State.maqRateDo_sameMem (s : State) (w : Word) (id : Nat) : SameMem s (s.maqRateDo w id) := by
  simp [State.maqRateDo]

@[simp] theorem State.watchArmDo_sameMem (s : State) (w : Word) (id : Nat) : SameMem s (s.watchArmDo w id) := by
  simp [State.watchArmDo]

@[simp] theorem State.watchDisarmDo_sameMem (s : State) (w : Word) (id : Nat) :
    SameMem s (s.watchDisarmDo w id) := by simp [State.watchDisarmDo]

@[simp] theorem State.stepDo_sameMem (s : State) (w : Word) (id : Nat) : SameMem s (s.stepDo w id) := by
  simp [State.stepDo]

@[simp] theorem State.runDo_sameMem (s : State) (w : Word) (id : Nat) : SameMem s (s.runDo w id) := by
  simp [State.runDo]

@[simp] theorem State.freezeDo_sameMem (s : State) (w : Word) (id : Nat) : SameMem s (s.freezeDo w id) := by
  simp [State.freezeDo]

@[simp] theorem State.bindDo_sameMem (s : State) (w : Word) (id : Nat) (ans : Option (Option PartnerAnswer)) :
    SameMem s (s.bindDo w id ans) := by
  unfold State.bindDo
  split <;> simp

@[simp] theorem State.digestOpenSend_sameMem (s : State) (k : Nat) (first : BitVec 24) (id : Nat) :
    SameMem s (s.digestOpenSend k first id) := by simp [State.digestOpenSend]

@[simp] theorem State.orderDo_sameMem (s : State) (o : OrderRec) (ans : Option (Option PartnerAnswer)) :
    SameMem s (s.orderDo o ans) := by
  unfold State.orderDo
  dsimp only
  (repeat' split) <;> simp

@[simp] theorem State.orderTurn_sameMem (s : State) (id : Nat) (ans : Option (Option PartnerAnswer)) :
    SameMem s (s.orderTurn id ans) := by
  unfold State.orderTurn
  dsimp only
  (repeat' split) <;> simp

@[simp] theorem State.takeOrder_sameMem (s : State) (r : OrderRef) (w : Word) : SameMem s (s.takeOrder r w) := by
  simp [State.takeOrder]

@[simp] theorem State.setNext_sameMem (s : State) (m : OrderMaster) (slot : Nat) :
    SameMem s (s.setNext m slot) := by
  unfold State.setNext
  split <;> simp

@[simp] theorem intakeSlot_sameMem (m : OrderMaster) (a : Intake) (k : Nat) :
    SameMem a.1 (intakeSlot m a k).1 := by
  unfold intakeSlot
  dsimp only
  (repeat' split) <;> simp

@[simp] theorem State.intake_sameMem (s : State) : SameMem s s.intake := by
  simp [State.intake]

@[simp] theorem State.waitingOrders_sameMem (s : State) : SameMem s s.waitingOrders := by
  simp [State.waitingOrders]

/-! ### Machine.Beat -/

@[simp] theorem State.passTo_sameMem (s : State) (now : Nat) : SameMem s (s.passTo now) := by simp [State.passTo]

@[simp] theorem State.forceTick_sameMem (s : State) : SameMem s s.forceTick := by simp [State.forceTick]

@[simp] theorem State.sampleTick_sameMem (s : State) : SameMem s s.sampleTick := by
  simp [State.sampleTick]

@[simp] theorem State.regionEnergy_sameMem (s : State) (g e : Nat) : SameMem s (s.regionEnergy g e) := by
  simp [State.regionEnergy]

@[simp] theorem State.countThrottle_sameMem (s : State) (g n : Nat) : SameMem s (s.countThrottle g n) := by
  simp [State.countThrottle]

@[simp] theorem State.throttleRest_sameMem (s : State) : SameMem s s.throttleRest := by simp [State.throttleRest]

@[simp] theorem State.nodesTick_sameMem (s : State) (b : Nat) : SameMem s (s.nodesTick b) := by
  simp [State.nodesTick]

@[simp] theorem State.keyTick_sameMem (s : State) (old : Word) : SameMem s (s.keyTick old) := by
  simp [State.keyTick]

@[simp] theorem State.atPhase_sameMem (s : State) (rank c : Nat) : SameMem s (s.atPhase rank c) := by
  simp [State.atPhase]

@[simp] theorem State.lineagePhase_sameMem (s : State) : SameMem s s.lineagePhase := by
  -- the definition with the list of tiles under a name, so that its fold is never evaluated
  obtain ⟨f, hf⟩ : ∃ f, f = State.lineagePhase := ⟨_, rfl⟩
  obtain ⟨l, hl⟩ := exists_eq_allTiles
  rw [← hf]
  delta State.lineagePhase at hf
  rw [hl] at hf
  subst hf
  refine .trans (b := if s.life.frozen then s else s.lineageClose) (by simp) (foldl_sameMem _ _ _ fun s t => ?_)
  split <;> simp

@[simp] theorem State.summaryIn_sameMem (s : State) (t : Nat) (x : Summary) : SameMem s (s.summaryIn t x) := by
  simp [State.summaryIn]

@[simp] theorem State.takeSummary_sameMem (s : State) (t : Nat) (x : Summary) :
    SameMem s (s.takeSummary t x) := by simp [State.takeSummary]

@[simp] theorem State.lateSummary_sameMem (s : State) (t : Nat) : SameMem s (s.lateSummary t) := by
  unfold State.lateSummary
  split <;> simp

@[simp] theorem State.aggregate_sameMem (s : State) (late : List Nat) : SameMem s (s.aggregate late) := by
  refine foldl_then_sameMem (fun s =>
    let s := if s.arm.flagged == 0 then s
      else s.raiseHub 0x0023 .note (pack [(32, 32, s.arm.flagged), (0, 32, s.arm.dropped)])
    let s := if s.time.lateNow == 0 then s
      else s.raiseHub 0x0017 .note (pack [(32, 32, s.time.lateNow), (0, 32, s.time.lateOldest)])
    { s with arm.flagged := 0, arm.dropped := 0, time.lateNow := 0, time.lateOldest := 0 })
    (fun s t => ?_) (by simp)
  (repeat' split) <;> simp

@[simp] theorem State.peakTemps_sameMem (s : State) : SameMem s s.peakTemps := by
  unfold State.peakTemps
  split
  · simp
  · refine foldl_sameMem _ _ _ fun s e => ?_
    split <;> simp

@[simp] theorem State.countThrottleChange_sameMem (s : State) (g old new : Nat) :
    SameMem s (s.countThrottleChange g old new) := by simp [State.countThrottleChange]

@[simp] theorem State.samplePhase_sameMem (s : State) : SameMem s s.samplePhase := by
  unfold State.samplePhase
  obtain ⟨t, ht⟩ : ∃ t, s.sampleAll = t := ⟨_, rfl⟩
  have h : SameMem s t := ht ▸ s.sampleAll_sameMem
  rw [ht]
  split
  · simpa using h
  · simp

@[simp] theorem State.droop_sameMem (s : State) (g : Nat) : SameMem s (s.droop g) := by simp [State.droop]

@[simp] theorem State.voltage_sameMem (s : State) (g : Nat) (mv : BitVec 16) : SameMem s (s.voltage g mv) := by
  unfold State.voltage
  dsimp only
  (repeat' split) <;> simp

@[simp] theorem State.mgmtAnswer_sameMem (s : State) : SameMem s s.mgmtAnswer := by simp [State.mgmtAnswer]

@[simp] theorem State.mgmtBack_sameMem (s : State) : SameMem s s.mgmtBack := by simp [State.mgmtBack]

@[simp] theorem State.mgmtLost_sameMem (s : State) (kind : BitVec 8) : SameMem s (s.mgmtLost kind) := by
  simp [State.mgmtLost]

/-! ### Machine.RegRead -/

@[simp] theorem State.rcClear_sameMem (s : State) (page off : Nat) : SameMem s (s.rcClear page off) := by
  unfold State.rcClear
  split <;> simp

@[simp] theorem State.countRecordRead_sameMem (s : State) (m : Requester) (page off size : Nat) :
    SameMem s (s.countRecordRead m page off size) := by simp [State.countRecordRead]

@[simp] theorem State.setLatch_sameMem (s : State) (m : Requester) (k : Nat) (v : Option (BitVec 32)) :
    SameMem s (s.setLatch m k v) := by simp [State.setLatch]

@[simp] theorem State.halfRead_sameMem (s : State) (m : Requester) (page off : Nat) :
    SameMem s (s.halfRead m page off) := by
  unfold State.halfRead
  dsimp only
  (repeat' split) <;> simp

@[simp] theorem State.wholeRead_sameMem (s : State) (m : Requester) (page off : Nat) :
    SameMem s (s.wholeRead m page off) := by simp [State.wholeRead]

@[simp] theorem State.readAccess_sameMem (s : State) (m : Requester) (page off size : Nat) :
    SameMem s (s.readAccess m page off size) := by
  unfold State.readAccess
  (repeat' split) <;> simp

/-! ### Machine.RegWrite -/

@[simp] theorem State.windowMisuse_sameMem (s : State) (m : Requester) (slot reason : Nat) :
    SameMem s (s.windowMisuse m slot reason) := by simp [State.windowMisuse]

@[simp] theorem State.windowWrite_sameMem (s : State) (m : Requester) (slot size : Nat) (v : Word) :
    SameMem s (s.windowWrite m slot size v) := by simp [State.windowWrite]

@[simp] theorem State.resetRefused_sameMem (s : State) (v : Word) : SameMem s (s.resetRefused v) := by
  simp [State.resetRefused]

@[simp] theorem State.dumpCtl_sameMem (s : State) (m : Requester) (v : Word) : SameMem s (s.dumpCtl m v) := by
  simp [State.dumpCtl]

@[simp] theorem State.fwReady_sameMem (s : State) (m : Requester) (v : Word) : SameMem s (s.fwReady m v) := by
  simp [State.fwReady]

@[simp] theorem State.writeOnly_sameMem (s : State) (m : Requester) (k : Nat) (v : Word) :
    SameMem s (s.writeOnly m k v) := by
  simp [State.writeOnly]

@[simp] theorem State.tapCapture_sameMem (s : State) : SameMem s s.tapCapture := by
  simp [State.tapCapture]

end Sys2Proof.Machine
end

section
/-! SUPPORT. The operations that write the addressed memories: each keeps them canonical, in the order of the model. -/

namespace Sys2Proof.Machine

/-! ### The canonical form -/

/-- Every addressed memory of the block is in its canonical form; `simp` uses the four facts one by one. -/
@[simp] abbrev State.Canonical (s : State) : Prop :=
  Memory.wf s.hostMem ∧ Memory.wf s.stack.mem ∧ Memory.wf s.stack.sram ∧ Memory.wf s.stack.saveSram

theorem SameMem.canonical {s t : State} (h : SameMem s t) (hs : s.Canonical) : t.Canonical := by
  simp_all

@[simp] theorem Memory.wf_ite (c : Prop) [Decidable c] (a b : Memory) :
    Memory.wf (if c then a else b) = if c then Memory.wf a else Memory.wf b := apply_ite ..

@[simp] theorem foldl_canonical {α : Type} (f : State → α → State) (l : List α) {s : State} (hs : s.Canonical)
    (h : ∀ s x, s.Canonical → (f s x).Canonical) : (l.foldl f s).Canonical := by
  induction l generalizing s with
  | nil => exact hs
  | cons a l ih => exact ih (h s a hs)

@[simp] theorem foldl_fst_canonical {α β : Type} (f : State × β → α → State × β) (l : List α)
    {a : State × β} (ha : a.1.Canonical) (h : ∀ a x, a.1.Canonical → (f a x).1.Canonical) : (l.foldl f a).1.Canonical := by
  induction l generalizing a with
  | nil => exact ha
  | cons x l ih => exact ih (h a x ha)

/-- A range of a canonical memory replaced by that of another (R222, R224). -/
@[simp] theorem Memory.wf_spliceTbl (m other : Memory) (a n : Nat) (hm : Memory.wf m) (ho : Memory.wf other) :
    Memory.wf (spliceTbl m other a n) := by
  refine Tbl.wf_append3 _ _ _ _ a (a + n) (Tbl.wf_filter _ _ _ hm) (Tbl.wf_filter _ _ _ ho) (Tbl.wf_filter _ _ _ hm)
    ?_ ?_ ?_ (Nat.le_add_right _ _) <;> simp +contextual [List.mem_filter]

/-- A range of a canonical memory copied onto another range of it (R269). -/
@[simp] theorem Memory.wf_moveTbl (m : Memory) (a b n : Nat) (hm : Memory.wf m) : Memory.wf (moveTbl m a b n) := by
  have hpart := (Tbl.wf_iff _ _).1 (Tbl.wf_filter Memory.blank m (fun e => a ≤ e.1 && e.1 < a + n) hm)
  have hkey : ∀ e ∈ m.filter (fun e => a ≤ e.1 && e.1 < a + n), a ≤ e.1 ∧ e.1 < a + n := by
    simp [List.mem_filter]
  refine Tbl.wf_append3 _ _ _ _ b (b + n) (Tbl.wf_filter _ _ _ hm) ?_ (Tbl.wf_filter _ _ _ hm) ?_ ?_ ?_
    (Nat.le_add_right _ _)
  · refine (Tbl.wf_iff _ _).2 ⟨List.pairwise_map.2 (hpart.1.imp_of_mem fun hx hy hlt => ?_), ?_⟩
    · have := hkey _ hx
      have := hkey _ hy
      omega
    · rintro e he
      obtain ⟨x, hx, rfl⟩ := List.mem_map.1 he
      exact hpart.2 x hx
  · simp [List.mem_filter]
  · intro e he
    obtain ⟨x, hx, rfl⟩ := List.mem_map.1 he
    have := hkey x hx
    omega
  · simp [List.mem_filter]

@[simp] theorem Memory.wf_foldl_writeBytes (l : List Nat) (a : Nat → Nat) (bs : Nat → List Byte) (m : Memory)
    (hm : Memory.wf m) : Memory.wf (l.foldl (fun m i => m.writeBytes (a i) (bs i)) m) :=
  List.foldlRecOn (motive := fun m => Memory.wf m = true) l _ hm fun m hm _ _ => Memory.wf_writeBytes m _ _ hm

/-! ### Machine.Mem -/

@[simp] theorem State.stackWrite_canonical (s : State) (t l b off : Nat) (bs : List Byte) (hs : s.Canonical) :
    (s.stackWrite t l b off bs).Canonical := by
  simp [State.stackWrite, Memory.wf_writeBytes, hs]

@[simp] theorem State.sramWrite_canonical (s : State) (t i : Nat) (bs : List Byte) (hs : s.Canonical) :
    (s.sramWrite t i bs).Canonical := by
  simp [State.sramWrite, Memory.wf_writeBytes, hs]

@[simp] theorem State.putBlock_canonical (s : State) (a : BlockAddr) (bs : List Byte) (w : Word) (hs : s.Canonical) :
    (s.putBlock a bs w).Canonical := by
  unfold State.putBlock
  split <;> simp [hs]

@[simp] theorem State.portBlock_canonical (s : State) (a : BlockAddr) (bs : List Byte) (w : Word) (hs : s.Canonical) :
    (s.portBlock a bs w).Canonical := by simp [State.portBlock, hs]

@[simp] theorem State.clearSram_canonical (s : State) (t : Nat) (hs : s.Canonical) : (s.clearSram t).Canonical := by
  simp [State.clearSram, Memory.wf_clear, hs]

@[simp] theorem State.saveImage_canonical (s : State) (t : Nat) (hs : s.Canonical) : (s.saveImage t).Canonical := by
  simp [State.saveImage, hs]

@[simp] theorem State.restoreImage_canonical (s : State) (t : Nat) (hs : s.Canonical) :
    (s.restoreImage t).Canonical := by
  simp [State.restoreImage, hs]

@[simp] theorem State.marchSram_canonical (s : State) (t : Nat) (hs : s.Canonical) : (s.marchSram t).Canonical := by
  simp [State.marchSram, Memory.wf_writeBytes, hs]

@[simp] theorem State.marchSlice_canonical (s : State) (t : Nat) (hs : s.Canonical) : (s.marchSlice t).Canonical := by
  simp [State.marchSlice, hs]

@[simp] theorem State.clearBlocks_canonical (s : State) (t l first last : Nat) (hs : s.Canonical) :
    (s.clearBlocks t l first last).Canonical := by
  simp [State.clearBlocks, Memory.wf_clear, hs]

@[simp] theorem State.hostWrite_canonical (s : State) (a : Nat) (bs : List Byte) (hs : s.Canonical) :
    (s.hostWrite a bs).Canonical := by simp [State.hostWrite, Memory.wf_writeBytes, hs]

/-! ### Machine.Debug -/

@[simp] theorem State.ringWrite_canonical (s : State) (t : Nat) (r : BlkRange) (per i : Nat) (bs : List Byte)
    (hs : s.Canonical) :
    (s.ringWrite t r per i bs).Canonical := by simp [State.ringWrite, hs]

@[simp] theorem State.tracePut_canonical (s : State) (t : Nat) (bs : List Byte) (hs : s.Canonical) :
    (s.tracePut t bs).Canonical := by
  simp [State.tracePut, hs]

@[simp] theorem State.traceEmit_canonical (s : State) (t kind : Nat) (i : BitVec 16 × BitVec 16 × BitVec 24)
    (detail : Word) (hs : s.Canonical) :
    (s.traceEmit t kind i detail).Canonical := by
  unfold State.traceEmit
  split <;> simp [hs]

@[simp] theorem State.traceUnits_canonical (s : State) (n : Nat) (hs : s.Canonical) : (s.traceUnits n).Canonical := by
  induction n generalizing s with
  | zero => exact hs
  | succ n ih =>
    unfold State.traceUnits
    dsimp only
    split
    · exact ih _ (by simp [hs])
    · exact hs

@[simp] theorem State.traceDrain_canonical (s : State) (hs : s.Canonical) : s.traceDrain.Canonical := by
  simp [State.traceDrain, hs]

@[simp] theorem State.sampleStack_canonical (s : State) (x : Sample) (hs : s.Canonical) :
    (s.sampleStack x).Canonical := by
  unfold State.sampleStack
  split
  · exact foldl_canonical _ _ hs fun s u hs => by simp [hs]
  · exact hs

@[simp] theorem State.sampleHost_canonical (s : State) (x : Sample) (late : List Nat) (hs : s.Canonical) :
    (s.sampleHost x late).Canonical := by
  simp [State.sampleHost, hs]

@[simp] theorem State.sampleBuild_canonical (s : State) (late : List Nat) (hs : s.Canonical) :
    (s.sampleBuild late).Canonical := by
  unfold State.sampleBuild
  generalize allTiles = us
  dsimp only
  generalize hu : us.foldl _ _ = u
  replace hs : u.Canonical := by
    subst hu
    exact (foldl_sameMem _ _ _ fun s u => by split <;> simp).canonical hs
  simp [hs]

/-! ### Machine.Seal -/

@[simp] theorem State.traceEnd_canonical (s : State) (t how : Nat) (hs : s.Canonical) :
    (s.traceEnd t how).Canonical := by
  unfold State.traceEnd
  split <;> simp [hs]

@[simp] theorem State.halt_canonical (s : State) (t : Nat) (isSeal : Bool) (hs : s.Canonical) :
    (s.halt t isSeal).Canonical := by
  simp [State.halt, hs]

theorem State.atBlock_canonical (s : State) (t : Nat) (addr : BlockAddr) (write : Bool) (job : StackJob)
    (go : State → State) (hgo : ∀ s, s.Canonical → (go s).Canonical) (hs : s.Canonical) :
    (s.atBlock t addr write job go).Canonical := by
  unfold State.atBlock
  (repeat' split)
  · exact hgo _ hs
  · exact hgo _ (by simp [hs])
  · exact hgo _ hs
  · simp [hs]
  · exact hs

@[simp] theorem State.refuseInvalid_canonical (s : State) (t unit reason : Nat) (w : Word) (hs : s.Canonical) :
    (s.refuseInvalid t unit reason w).Canonical := by simp [State.refuseInvalid, hs]

@[simp] theorem State.refuseStale_canonical (s : State) (t unit gen : Nat) (w : Word) (hs : s.Canonical) :
    (s.refuseStale t unit gen w).Canonical := by simp [State.refuseStale, hs]

@[simp] theorem State.readFail_canonical (s : State) (t unit : Nat) (w : Word) (x : Nat) (inj : Bool)
    (hs : s.Canonical) :
    (s.readFail t unit w x inj).Canonical := by simp [State.readFail, hs]

@[simp] theorem State.resealBlock_canonical (s : State) (t : Nat) (r : ReadReq) (hs : s.Canonical) :
    (s.resealBlock t r).Canonical := by simp [State.resealBlock, hs]

@[simp] theorem State.refuseRead_canonical (s : State) (t : Nat) (r : ReadReq) (c : Check) (inj : Bool)
    (hs : s.Canonical) :
    (s.refuseRead t r c inj).Canonical := by
  unfold State.refuseRead
  (repeat' split) <;> simp [hs]

@[simp] theorem State.firstRead_canonical (s : State) (t : Nat) (r : ReadReq) (hs : s.Canonical) :
    (s.firstRead t r).Canonical := by
  unfold State.firstRead
  dsimp only
  (repeat' split) <;> simp [hs]

@[simp] theorem State.verifyRead_canonical (s : State) (t : Nat) (r : ReadReq) (hs : s.Canonical) :
    (s.verifyRead t r).Canonical := by
  exact s.atBlock_canonical t _ _ _ _ (fun s hs => s.firstRead_canonical t r hs) hs

@[simp] theorem State.readAgain_canonical (s : State) (t : Nat) (r : ReadReq) (first : Nat) (inj : Option Nat)
    (hs : s.Canonical) :
    (s.readAgain t r first inj).1.Canonical := by
  unfold State.readAgain
  dsimp only
  (repeat' split) <;> simp [hs]

@[simp] theorem State.nextRead_canonical (s : State) (t : Nat) (r : ReadReq) (hs : s.Canonical) :
    (s.nextRead t r).Canonical := by
  unfold State.nextRead
  dsimp only
  (repeat' split) <;> simp [hs]

@[simp] theorem State.secondRead_canonical (s : State) (t : Nat) (r : ReadReq) (hs : s.Canonical) :
    (s.secondRead t r).Canonical := by
  unfold State.secondRead
  split
  · exact s.atBlock_canonical t _ _ _ _ (fun s hs => s.nextRead_canonical t r hs) hs
  · exact hs

@[simp] theorem State.readVerified_canonical (s : State) (t : Nat) (r : ReadReq) (again : Finding) (hs : s.Canonical) :
    (s.readVerified t r again).1.Canonical := by
  unfold State.readVerified
  dsimp only
  (repeat' split) <;> simp [hs]

@[simp] theorem State.writeBlock_canonical (s : State) (t : Nat) (a : BlockAddr) (bs : List Byte) (w : Word)
    (hs : s.Canonical) :
    (s.writeBlock t a bs w).Canonical := by
  unfold State.writeBlock
  split <;> simp [hs]

@[simp] theorem State.writeElems_canonical (s : State) (t : Nat) (p : PartialWrite) (hs : s.Canonical) :
    (s.writeElems t p).Canonical := by simp [State.writeElems, hs]

@[simp] theorem State.changeBlock_canonical (s : State) (t : Nat) (p : PartialWrite) (hs : s.Canonical) :
    (s.changeBlock t p).Canonical := by simp [State.changeBlock, hs]

@[simp] theorem State.partialWrite_canonical (s : State) (t : Nat) (p : PartialWrite) (hs : s.Canonical) :
    (s.partialWrite t p).Canonical := by
  exact s.atBlock_canonical t _ _ _ _ (fun s hs => s.changeBlock_canonical t p hs) hs

/-! ### Machine.Post -/

@[simp] theorem State.hostCopy_canonical (s : State) (n : Nat) (hs : s.Canonical) : (s.hostCopy n).Canonical := by
  induction n generalizing s with
  | zero => exact hs
  | succ n ih =>
    unfold State.hostCopy
    dsimp only
    (repeat' split)
    · exact hs
    · exact ih _ (by simp [hs])
    · exact hs

@[simp] theorem State.hostCopyAll_canonical (s : State) (hs : s.Canonical) :
    s.hostCopyAll.Canonical := by simp [State.hostCopyAll, hs]

@[simp] theorem State.freezeEnd_canonical (s : State) (t : Nat) (hs : s.Canonical) : (s.freezeEnd t).Canonical := by
  unfold State.freezeEnd
  split <;> simp [hs]

/-! ### Machine.Collect -/

@[simp] theorem State.reduce_canonical (s : State) (t channel out : Nat) (hs : s.Canonical) :
    (s.reduce t channel out).Canonical := by
  unfold State.reduce
  split <;> simp [hs]

@[simp] theorem State.collect_canonical (s : State) (t : Nat) (b : BlockMove) (hs : s.Canonical) :
    (s.collect t b).Canonical := by
  unfold State.collect
  split <;> simp [hs]

/-! ### Machine.Pass -/

@[simp] theorem State.sramCopy_canonical (s : State) (t : Nat) (outIndex : Nat) (h : Held) (hs : s.Canonical) :
    (s.sramCopy t outIndex h).Canonical := by simp [State.sramCopy, hs]

@[simp] theorem State.passFailed_canonical (s : State) (t : Nat) (fs : List Fail) (hs : s.Canonical) :
    (s.passFailed t fs).Canonical := by simp [State.passFailed, hs]

@[simp] theorem State.passEnds_canonical (s : State) (t : Nat) (p : PassSt) (hs : s.Canonical) :
    (s.passEnds t p).Canonical := by
  simp [State.passEnds, hs]

@[simp] theorem State.specialHalt_canonical (s : State) (t : Nat) (p : PassDesc) (k : Nat) (hs : s.Canonical) :
    (s.specialHalt t p k).Canonical := by simp [State.specialHalt, hs]

@[simp] theorem State.passEnter_canonical (s : State) (t : Nat) (p : PassDesc) (entry : List EntryFault)
    (x : PassSt) (hs : s.Canonical) :
    (s.passEnter t p entry x).Canonical := by
  unfold State.passEnter
  split <;> simp [hs]

@[simp] theorem State.passStart_canonical (s : State) (t : Nat) (p : PassDesc) (entry : List EntryFault)
    (hs : s.Canonical) :
    (s.passStart t p entry).Canonical := by
  unfold State.passStart
  dsimp only
  (repeat' split) <;> simp [hs]

@[simp] theorem State.drainNext_canonical (s : State) (t : Nat) (f : DrainFaults) (hs : s.Canonical) :
    (s.drainNext t f).Canonical := by
  unfold State.drainNext
  split <;> simp [hs]

@[simp] theorem State.rereadAll_canonical (s : State) (t : Nat) (rs : List ReadReq) (fs : List (Finding × Finding))
    (hs : s.Canonical) :
    (s.rereadAll t rs fs).1.Canonical := by
  induction rs generalizing s fs with
  | nil => simp [State.rereadAll, hs]
  | cons r rs ih =>
    unfold State.rereadAll
    dsimp only
    split <;> simp [ih, hs]

@[simp] theorem State.rerunDrains_canonical (s : State) (t : Nat) (p x : PassSt) (fs : List DrainFaults)
    (hs : s.Canonical) :
    (s.rerunDrains t p x fs).Canonical := by simp +contextual [State.rerunDrains, hs]

@[simp] theorem State.rerunRun_canonical (s : State) (t : Nat) (p : PassSt) (entry : List EntryFault)
    (fs : List DrainFaults) (hs : s.Canonical) :
    (s.rerunRun t p entry fs).Canonical := by
  unfold State.rerunRun
  split <;> simp [hs]

@[simp] theorem State.rereadOperands_canonical (s : State) (t : Nat) (rs : List ReadReq)
    (reads : List (Finding × Finding)) (hs : s.Canonical) :
    (s.rereadOperands t rs reads).1.Canonical := by
  unfold State.rereadOperands
  split <;> simp [hs]

@[simp] theorem State.passRerun_canonical (s : State) (t : Nat) (reads : List (Finding × Finding))
    (entry : List EntryFault) (fs : List DrainFaults) (hs : s.Canonical) :
    (s.passRerun t reads entry fs).Canonical := by
  unfold State.passRerun
  split <;> simp [hs]

@[simp] theorem State.canonSum_canonical (s : State) (t : Nat) (c : CanonSum) (f : DrainFaults) (hs : s.Canonical) :
    (s.canonSum t c f).Canonical := by simp [State.canonSum, hs]

@[simp] theorem State.blockVerdict_canonical (s : State) (t : Nat) (f : DrainFaults) (hs : s.Canonical) :
    (s.blockVerdict t f).Canonical := by
  unfold State.blockVerdict
  (repeat' split) <;> simp [hs]

/-! ### Machine.Fabric -/

@[simp] theorem State.toHostMem_canonical (s : State) (x : Xfer) (hs : s.Canonical) : (s.toHostMem x).Canonical := by
  simp [State.toHostMem, hs]

@[simp] theorem State.formHeader_canonical (s : State) (t : Nat) (x : Xfer) (named : List Nat) (hs : s.Canonical) :
    (s.formHeader t x named).Canonical := by simp [State.formHeader, hs]

@[simp] theorem State.resolve_canonical (s : State) (t : Nat) (x : Xfer) (hs : s.Canonical) :
    (s.resolve t x).Canonical := by
  simp [State.resolve, hs]

@[simp] theorem State.placeBlock_canonical (s : State) (t : Nat) (dst : BlockAddr) (bs : List Byte) (w : Word)
    (hs : s.Canonical) :
    (s.placeBlock t dst bs w).Canonical := by
  unfold State.placeBlock
  split <;> simp [hs]

@[simp] theorem State.refuseMoved_canonical (s : State) (t : Nat) (b : BlockMove) (w : Word) (c : Check)
    (inj : Option Nat) (hs : s.Canonical) :
    (s.refuseMoved t b w c inj).Canonical := by
  unfold State.refuseMoved
  split <;> simp [hs]

@[simp] theorem State.storeBlock_canonical (s : State) (t : Nat) (b : BlockMove) (gen : BitVec 8) (hs : s.Canonical) :
    (s.storeBlock t b gen).Canonical := by simp [State.storeBlock, hs]

@[simp] theorem State.placeMoved_canonical (s : State) (t : Nat) (x : XferIn) (b : BlockMove) (p : List Byte × Word)
    (hs : s.Canonical) :
    (s.placeMoved t x b p).Canonical := by simp [State.placeMoved, hs]

@[simp] theorem State.secondSending_canonical (s : State) (t : Nat) (x : XferIn) (b : BlockMove) (first : Nat)
    (inj : Option Nat) (hs : s.Canonical) :
    (s.secondSending t x b first inj).Canonical := by
  unfold State.secondSending
  dsimp only
  (repeat' split) <;> simp [hs]

@[simp] theorem State.askSending_canonical (s : State) (t : Nat) (x : XferIn) (b : BlockMove) (first : Nat)
    (inj : Option Nat) (hs : s.Canonical) :
    (s.askSending t x b first inj).Canonical := by
  have hask := s.atBlock_canonical x.src b.src false (.again t x b first inj) _
    (fun s hs => s.secondSending_canonical t x b first inj hs) hs
  unfold State.askSending
  split
  · simp [hs]
  · split
    · exact hask
    · exact hask
    · exact hask
    · exact hask
    · simp [hs]

@[simp] theorem State.receiveBlock_canonical (s : State) (t : Nat) (x : XferIn) (b : BlockMove) (hs : s.Canonical) :
    (s.receiveBlock t x b).Canonical := by
  unfold State.receiveBlock
  dsimp only
  (repeat' split) <;> simp [hs]

@[simp] theorem State.takeBlock_canonical (s : State) (t : Nat) (x : XferIn) (b : BlockMove) (hs : s.Canonical) :
    (s.takeBlock t x b).Canonical := by
  unfold State.takeBlock
  split <;> simp [hs]

@[simp] theorem State.receive_canonical (s : State) (t : Nat) (x : XferIn) (hs : s.Canonical) :
    (s.receive t x).Canonical := by
  unfold State.receive
  split <;> simp +contextual [hs]

@[simp] theorem State.resolveAgain_canonical (s : State) (t : Nat) (hs : s.Canonical) :
    (s.resolveAgain t).Canonical := by
  simp +contextual [State.resolveAgain, hs]

@[simp] theorem State.blockRelease_canonical (s : State) (t : Nat) (x : Xfer) (hs : s.Canonical) :
    (s.blockRelease t x).Canonical := by
  unfold State.blockRelease
  dsimp only
  (repeat' split) <;> simp [hs]

theorem State.sendAll_canonical (s : State) (t : Nat) (x : Xfer) (go : State → Nat → Xfer → State)
    (hgo : (go s t x).Canonical) (hs : s.Canonical) : (s.sendAll t x go).Canonical := by
  unfold State.sendAll
  split
  · exact s.atBlock_canonical t _ _ _ _ (fun s hs => hs) hs
  · exact hgo

@[simp] theorem State.sendNow_canonical (s : State) (t : Nat) (x : Xfer) (hs : s.Canonical) :
    (s.sendNow t x).Canonical := by
  simp [State.sendNow, hs]

/-! ### Machine.NodeMap -/

@[simp] theorem State.fenceStop_canonical (s : State) (t how : Nat) (hs : s.Canonical) :
    (s.fenceStop t how).Canonical := by
  simp [State.fenceStop, hs]

@[simp] theorem State.routerSet_canonical (s : State) (t : Nat) (closed : Bool) (how : Nat) (hs : s.Canonical) :
    (s.routerSet t closed how).Canonical := by simp [State.routerSet, hs]

@[simp] theorem State.nodeFence_canonical (s : State) (t op : Nat) (o : BitVec 96) (hs : s.Canonical) :
    (s.nodeFence t op o).Canonical := by simp [State.nodeFence, hs]

@[simp] theorem State.nodeLoad_canonical (s : State) (t : Nat) (o : BitVec 96) (data : List Flit) (hs : s.Canonical) :
    (s.nodeLoad t o data).Canonical := by
  unfold State.nodeLoad
  split <;> simp [hs]

@[simp] theorem State.niMapApply_canonical (s : State) (t : Nat) (hs : s.Canonical) : (s.niMapApply t).Canonical := by
  simp [State.niMapApply, hs]

@[simp] theorem State.niApplyAll_canonical (s : State) (t : Nat) (hs : s.Canonical) : (s.niApplyAll t).Canonical := by
  simp +contextual [State.niApplyAll, hs]

@[simp] theorem State.mapReload_canonical (s : State) (t : Nat) (hs : s.Canonical) : (s.mapReload t).Canonical := by
  exact State.niApplyAll_canonical _ _ (foldl_canonical _ _ hs fun s p hs => s.nodeLoad_canonical t _ _ hs)

/-! ### Machine.Chisel -/

@[simp] theorem State.marchLeft_canonical (s : State) (t g : Nat) (hs : s.Canonical) :
    (s.marchLeft t g).Canonical := by
  simp [State.marchLeft, hs]

@[simp] theorem State.segmentResult_canonical (s : State) (t : Nat) (r : SegResult) (hs : s.Canonical) :
    (s.segmentResult t r).Canonical := by simp [State.segmentResult, hs]

@[simp] theorem State.chiselRestore_canonical (s : State) (t : Nat) (hs : s.Canonical) :
    (s.chiselRestore t).Canonical := by
  simp [State.chiselRestore, hs]

/-! ### Machine.Mould -/

@[simp] theorem State.mouldWrite_canonical (s : State) (t : Nat) (m : CastMould) (hs : s.Canonical) :
    (s.mouldWrite t m).Canonical := by
  exact foldl_canonical _ _ (by simp [hs]) fun s e hs => s.portBlock_canonical _ _ _ hs

@[simp] theorem State.mouldCopy_canonical (s : State) (t l : Nat) (hs : s.Canonical) :
    (s.mouldCopy t l).Canonical := by
  unfold State.mouldCopy
  split <;> simp [hs]

@[simp] theorem State.castLate_canonical (s : State) (t l : Nat) (hs : s.Canonical) : (s.castLate t l).Canonical := by
  unfold State.castLate
  split <;> simp [hs]

/-! ### Machine.Patina -/

@[simp] theorem State.promotionSaved_canonical (s : State) (l : Nat) (timedOut : Bool) (hs : s.Canonical) :
    (s.promotionSaved l timedOut).Canonical := by
  unfold State.promotionSaved
  split <;> simp [hs]

@[simp] theorem State.migrate_canonical (s : State) (p u : Nat) (hs : s.Canonical) : (s.migrate p u).Canonical := by
  unfold State.migrate
  dsimp only
  generalize hu : (List.range numLayers).foldl _ s = u
  replace hs : u.Canonical := by
    subst hu
    exact foldl_canonical _ _ hs fun s l hs => by simp [hs]
  simp [hs]

@[simp] theorem State.promotionMigrated_canonical (s : State) (l uncorr : Nat) (hs : s.Canonical) :
    (s.promotionMigrated l uncorr).Canonical := by
  unfold State.promotionMigrated
  (repeat' split) <;> simp [hs]

@[simp] theorem State.promotionRestored_canonical (s : State) (l : Nat) (hs : s.Canonical) :
    (s.promotionRestored l).Canonical := by
  unfold State.promotionRestored
  (repeat' split) <;> simp [hs]

@[simp] theorem State.scrubTile_canonical (s : State) (t : Nat) (hs : s.Canonical) : (s.scrubTile t).Canonical := by
  unfold State.scrubTile
  refine foldl_canonical _ _ (State.clearSram_canonical _ _ ?_) fun s l hs => s.clearBlocks_canonical t l _ _ hs
  exact (foldl_sameMem _ _ _ fun s id => s.finish_sameMem id _).canonical hs

@[simp] theorem State.releaseScrubbed_canonical (s : State) (hs : s.Canonical) : s.releaseScrubbed.Canonical := by
  unfold State.releaseScrubbed
  split <;> simp +contextual [hs]

/-! ### Machine.Stack -/

@[simp] theorem State.serve_canonical (s : State) (a : StackAcc) (hs : s.Canonical) : (s.serve a).Canonical := by
  unfold State.serve
  split <;> simp [hs]

@[simp] theorem State.stackAccess_canonical (s : State) (a : StackAcc) (hs : s.Canonical) :
    (s.stackAccess a).Canonical := by
  unfold State.stackAccess
  split <;> simp [hs]

@[simp] theorem State.sendAfter_canonical (s : State) (t : Nat) (x : Xfer) (hs : s.Canonical) :
    (s.sendAfter t x).Canonical := by
  have hread := foldl_fst_canonical (fun (a : State × Bool) b =>
      if a.2 then (a.1.sendLineage t b).readVerified t (moveRead x b) {} else a) x.blocks (a := (s, true)) hs
    fun a b ha => by split <;> simp [ha]
  unfold State.sendAfter
  dsimp only
  split
  · exact State.resolve_canonical _ _ _ hread
  · exact hread

@[simp] theorem State.runJob_canonical (s : State) (q : StackReq) (hs : s.Canonical) : (s.runJob q).Canonical := by
  have hsend (t x) := s.sendAll_canonical t x State.sendAfter (s.sendAfter_canonical t x hs) hs
  unfold State.runJob
  split <;> simp [hsend, hs]

@[simp] theorem State.askAgain_canonical (s : State) (q : StackReq) (hs : s.Canonical) :
    (s.askAgain q).Canonical := by
  have hsend (t x) := s.sendAll_canonical t x State.sendAfter (s.sendAfter_canonical t x hs) hs
  unfold State.askAgain
  split <;> simp [hsend, hs]

@[simp] theorem State.serveHolds_canonical (s : State) (hs : s.Canonical) :
    s.serveHolds.Canonical := by simp +contextual [State.serveHolds, hs]

@[simp] theorem State.serveStops_canonical (s : State) (hs : s.Canonical) :
    s.serveStops.Canonical := by simp +contextual [State.serveStops, hs]

@[simp] theorem State.serveHeld_canonical (s : State) (t : Nat) (hs : s.Canonical) : (s.serveHeld t).Canonical := by
  simp +contextual [State.serveHeld, hs]

@[simp] theorem State.serveWaits_canonical (s : State) (k l : Nat) (hs : s.Canonical) :
    (s.serveWaits k l).Canonical := by
  simp +contextual [State.serveWaits, hs]

@[simp] theorem State.nearbankCommand_canonical (s : State) (t : Nat) (n : NearBank) (hs : s.Canonical) :
    (s.nearbankCommand t n).Canonical := by
  unfold State.nearbankCommand
  dsimp only
  (repeat' split) <;> simp [hs]

@[simp] theorem State.nbEnd_canonical (s : State) (k : Nat) (r : NbRun) (bytes : List Byte) (hs : s.Canonical) :
    (s.nbEnd k r bytes).Canonical := by simp [State.nbEnd, hs]

@[simp] theorem State.nearbankComplete_canonical (s : State) (t l bank cycles : Nat) (hs : s.Canonical) :
    (s.nearbankComplete t l bank cycles).Canonical := by
  unfold State.nearbankComplete
  dsimp only
  (repeat' split) <;> simp [hs]

@[simp] theorem State.nbHung_canonical (s : State) (t l bank : Nat) (hs : s.Canonical) :
    (s.nbHung t l bank).Canonical := by
  unfold State.nbHung
  dsimp only
  (repeat' split) <;> simp [hs]

@[simp] theorem State.nbFinishAll_canonical (s : State) (hs : s.Canonical) : s.nbFinishAll.Canonical := by
  unfold State.nbFinishAll
  refine foldl_canonical _ _ hs fun s e hs => ?_
  split <;> simp [hs]

/-! ### Machine.Cast -/

@[simp] theorem State.pauseCopy_canonical (s : State) (t : Nat) (hs : s.Canonical) : (s.pauseCopy t).Canonical := by
  unfold State.pauseCopy
  split <;> simp [hs]

@[simp] theorem State.gapCopies_canonical (s : State) (d : Nat) (hs : s.Canonical) : (s.gapCopies d).Canonical := by
  simp +contextual [State.gapCopies, hs]

@[simp] theorem State.restartStream_canonical (s : State) (t : Nat) (hs : s.Canonical) :
    (s.restartStream t).Canonical := by
  simp [State.restartStream, hs]

@[simp] theorem State.nodeResume_canonical (s : State) (t : Nat) (hs : s.Canonical) : (s.nodeResume t).Canonical := by
  simp [State.nodeResume, hs]

@[simp] theorem State.resumeLate_canonical (s : State) (hs : s.Canonical) : s.resumeLate.Canonical := by
  unfold State.resumeLate
  generalize allTiles.filter _ = us
  exact foldl_canonical _ _ hs fun s t hs => s.restartStream_canonical t hs

@[simp] theorem State.restoreWrite_canonical (s : State) (r : CastRun) (l : Nat) (hs : s.Canonical) :
    (s.restoreWrite r l).Canonical := by
  unfold State.restoreWrite
  dsimp only
  generalize hu : List.foldl _ s _ = u
  replace hs : u.Canonical := by
    subst hu
    exact foldl_canonical _ _ hs fun s m hs => foldl_canonical _ _ hs fun s b hs => s.portBlock_canonical _ _ _ hs
  split <;> simp [hs]

@[simp] theorem State.restoreTile_canonical (s : State) (l : Nat) (hs : s.Canonical) :
    (s.restoreTile l).Canonical := by
  unfold State.restoreTile
  dsimp only
  (repeat' split) <;> simp [hs]

@[simp] theorem State.castLateAt_canonical (s : State) (t : Nat) (hs : s.Canonical) : (s.castLateAt t).Canonical := by
  unfold State.castLateAt
  split <;> simp [hs]

@[simp] theorem State.reinitDone_canonical (s : State) (t : Nat) (stuck : Option Nat) (hs : s.Canonical) :
    (s.reinitDone t stuck).Canonical := by simp [State.reinitDone, hs]

@[simp] theorem State.chiselEndAll_canonical (s : State) (hs : s.Canonical) :
    s.chiselEndAll.Canonical := by simp +contextual [State.chiselEndAll, hs]

/-! ### Machine.Work -/

@[simp] theorem State.firstCycle_canonical (s : State) (t : Nat) (c : Cmd) (hs : s.Canonical) :
    (s.firstCycle t c).Canonical := by
  simp [State.firstCycle, hs]

@[simp] theorem State.startCommand_canonical (s : State) (t : Nat) (c : Cmd) (hs : s.Canonical) :
    (s.startCommand t c).1.Canonical := by
  unfold State.startCommand
  dsimp only
  (repeat' split) <;> simp [hs]

@[simp] theorem State.commandBegin_canonical (s : State) (t : Nat) (c : Cmd) (cyc : Nat) (hs : s.Canonical) :
    (s.commandBegin t c cyc).Canonical := by simp [State.commandBegin, hs]

@[simp] theorem State.restartCommand_canonical (s : State) (t : Nat) (hs : s.Canonical) :
    (s.restartCommand t).Canonical := by
  unfold State.restartCommand
  split <;> simp [hs]

@[simp] theorem State.syncRecords_canonical (s : State) (t : Nat) (c : Cmd) (ws : List SemWait) (hs : s.Canonical) :
    (s.syncRecords t c ws).Canonical := by simp +contextual [State.syncRecords, hs]

@[simp] theorem State.sealOutputs_canonical (s : State) (t : Nat) (outs : List OutBlock) (hs : s.Canonical) :
    (s.sealOutputs t outs).1.Canonical := by
  unfold State.sealOutputs
  refine foldl_fst_canonical _ _ hs fun a o ha => ?_
  dsimp only
  (repeat' split) <;> simp [ha]

@[simp] theorem State.commandDone_canonical (s : State) (t : Nat) (c : Cmd) (e : CmdEnd) (hs : s.Canonical) :
    (s.commandDone t c e).Canonical := by
  have houts := State.sealOutputs_canonical _ t e.outs (State.syncRecords_canonical _ t c e.waits
    ((s.countCommand_sameMem t e).canonical hs))
  unfold State.commandDone
  dsimp only
  generalize ((s.countCommand t e).syncRecords t c e.waits).sealOutputs t e.outs = o at houts
  simp [houts]

@[simp] theorem State.hostDone_canonical (s : State) (t : Nat) (e : CmdEnd) (hs : s.Canonical) :
    (s.hostDone t e).Canonical := by
  simp [State.hostDone, hs]

@[simp] theorem State.commandEnd_canonical (s : State) (t : Nat) (e : CmdEnd) (hs : s.Canonical) :
    (s.commandEnd t e).Canonical := by
  unfold State.commandEnd
  (repeat' split) <;> simp [hs]

/-! ### Machine.NodeOps -/

@[simp] theorem State.nodeReinit_canonical (s : State) (t : Nat) (o : BitVec 96) (hs : s.Canonical) :
    (s.nodeReinit t o).Canonical := by
  unfold State.nodeReinit
  split <;> simp [hs]

@[simp] theorem State.nodeChiselAbort_canonical (s : State) (t : Nat) (o : BitVec 96) (hs : s.Canonical) :
    (s.nodeChiselAbort t o).Canonical := by simp [State.nodeChiselAbort, hs]

@[simp] theorem State.nodeSeedLoad_canonical (s : State) (t : Nat) (o : BitVec 96) (hs : s.Canonical) :
    (s.nodeSeedLoad t o).Canonical := by simp [State.nodeSeedLoad, hs]

@[simp] theorem State.nodeStep_canonical (s : State) (t : Nat) (o : BitVec 96) (hs : s.Canonical) :
    (s.nodeStep t o).Canonical := by
  simp [State.nodeStep, hs]

@[simp] theorem State.nodeRun_canonical (s : State) (t : Nat) (hs : s.Canonical) :
    (s.nodeRun t).Canonical := by simp [State.nodeRun, hs]

@[simp] theorem State.nodeDo_canonical (s : State) (t op : Nat) (mapgen : BitVec 16) (o : BitVec 96)
    (data : List Flit) (hs : s.Canonical) :
    (s.nodeDo t op mapgen o data).Canonical := by
  unfold State.nodeDo
  split <;> simp [hs]

@[simp] theorem State.unpark_canonical (s : State) (t : Nat) (hs : s.Canonical) :
    (s.unpark t).Canonical := by simp +contextual [State.unpark, hs]

@[simp] theorem State.nodeTake_canonical (s : State) (op : Nat) (n : NodeOp) (data : List Flit) (hs : s.Canonical) :
    (s.nodeTake op n data).Canonical := by simp [State.nodeTake, hs]

@[simp] theorem State.consumePacket_canonical (s : State) (p : ArmPacket) (h : ArmHead) (k : StreamId)
    (hs : s.Canonical) :
    (s.consume_ p h k).Canonical := by
  unfold State.consume_
  (repeat' split) <;> simp [hs]

@[simp] theorem State.packetOnDie_canonical (s : State) (p : ArmPacket) (broken : Bool) (hs : s.Canonical) :
    (s.packetOnDie p broken).Canonical := by
  unfold State.packetOnDie
  dsimp only
  (repeat' split) <;> simp +contextual [hs]

@[simp] theorem State.packetArrive_canonical (s : State) (p : ArmPacket) (hs : s.Canonical) :
    (s.packetArrive p).Canonical := by
  unfold State.packetArrive
  dsimp only
  (repeat' split) <;> simp [hs]

@[simp] theorem State.nodeAccept_canonical (s : State) (op : Nat) (n : NodeOp) (data : List Flit) (hs : s.Canonical) :
    (s.nodeAccept op n data).Canonical := by
  unfold State.nodeAccept
  dsimp only
  (repeat' split) <;> simp [hs]

/-! ### Machine.Bringup -/

@[simp] theorem State.reposeGathered_canonical (s : State) (hs : s.Canonical) : s.reposeGathered.Canonical := by
  simp [State.reposeGathered, hs]

@[simp] theorem State.wakeDone_canonical (s : State) (cyc : Nat) (hs : s.Canonical) : (s.wakeDone cyc).Canonical := by
  simp +contextual [State.wakeDone, hs]

/-! ### Machine.Orders -/

@[simp] theorem State.scheduled_canonical (s : State) (hs : s.Canonical) :
    s.scheduled.Canonical := by simp [State.scheduled, hs]

@[simp] theorem State.dispatchAll_canonical (s : State) (hs : s.Canonical) :
    s.dispatchAll.Canonical := by simp [State.dispatchAll, hs]

/-! ### Machine.Beat -/

@[simp] theorem State.thermalPhase_canonical (s : State) (hs : s.Canonical) :
    s.thermalPhase.Canonical := by simp [State.thermalPhase, hs]

@[simp] theorem State.gap_canonical (s : State) (d cyc : Nat) (hs : s.Canonical) : (s.gap d cyc).Canonical := by
  unfold State.gap
  dsimp only
  generalize hu : (s.toCycle cyc).domainGap d = u
  replace hs : u.Canonical := by simp [← hu, hs]
  split
  · refine foldl_canonical _ _ (u.resumeLate_canonical hs) fun s t hs => State.unpark_canonical _ t ?_
    simp [hs]
  · exact State.resumeLate_canonical _ (State.serveStops_canonical _ (u.gapCopies_canonical d hs))

/-! ### Machine.RegWrite -/

@[simp] theorem State.afterStore_canonical (s : State) (k : Nat) (old v : Word) (hs : s.Canonical) :
    (s.afterStore k old v).Canonical := by
  simp [State.afterStore, hs]

@[simp] theorem State.storeReg_canonical (s : State) (page off : Nat) (old new : Word) (hs : s.Canonical) :
    (s.storeReg page off old new).Canonical := by
  unfold State.storeReg
  split <;> simp [hs]

/-! ### Machine.Dump -/

@[simp] theorem State.dumpWrite_canonical (s : State) (state : Nat) (hs : s.Canonical) :
    (s.dumpWrite state).Canonical := by
  simp +contextual [State.dumpWrite, hs]

@[simp] theorem State.dumpEnd_canonical (s : State) (x0 : DumpEnd) (hs : s.Canonical) : (s.dumpEnd x0).Canonical := by
  unfold State.dumpEnd
  (repeat' split) <;> simp [hs]

/-! ### Reads of the window -/

end Sys2Proof.Machine
end

section
/-! O59. Every command and every step keeps the memories canonical. -/

namespace Sys2Proof.Machine

/-! ### Bring-up -/

@[simp] theorem State.freshPlinth_canonical (s : State) (powered : Bool) (hs : s.Canonical) :
    (s.freshPlinth powered).Canonical := by
  simp only [State.Canonical] at hs
  simp [State.freshPlinth, State.reset, Tbl.wf_nil, hs]

@[simp] theorem State.askNodes_sameMem (s : State) (silent : List Nat) : SameMem s (s.askNodes silent) := by
  unfold State.askNodes
  generalize allTiles = us
  simp

@[simp] theorem State.s0Work_sameMem (s : State) (i : S0In) : SameMem s (s.s0Work i) := by
  unfold State.s0Work
  generalize allTiles = us
  simp

@[simp] theorem State.stageEnd_sameMem (s : State) (result fields : Nat) : SameMem s (s.stageEnd result fields) := by
  simp [State.stageEnd]

@[simp] theorem State.bringupFail_sameMem (s : State) (reason fields : Nat) :
    SameMem s (s.bringupFail reason fields) := by
  simp [State.bringupFail]

@[simp] theorem State.s0End_sameMem (s : State) : SameMem s s.s0End := by simp [State.s0End]

@[simp] theorem State.s0Tick_sameMem (s : State) : SameMem s s.s0Tick := by simp [State.s0Tick]

@[simp] theorem State.s1End_sameMem (s : State) (i : S1In) (late : Bool) : SameMem s (s.s1End i late) := by
  unfold State.s1End
  split
  · simp
  · extract_lets s1 cs usable s2 soft table map cast s3 s4 s5 s6 s7 s8 life s9
    have h1 : SameMem s s1 := by unfold s1; split <;> simp
    have h2 : SameMem s1 s2 := by unfold s2; split <;> simp
    have h4 : SameMem s2 s4 := by unfold s4; split <;> simp [s3]
    have h9 : SameMem s4 s9 := by simp [s9, s8, s7, s6, s5]
    exact (h1.trans (h2.trans (h4.trans h9))).trans (s9.stageEnd_sameMem _ _)

/-- S2 writes every block of the stack, and leaves host memory (R288). -/
@[simp] theorem State.s2End_canonical (s : State) (i : S2In) (hs : s.Canonical) : (s.s2End i).Canonical := by
  unfold State.s2End
  dsimp only
  split <;> simp [Tbl.wf_nil, hs]

@[simp] theorem State.s3End_sameMem (s : State) : SameMem s s.s3End := by
  unfold State.s3End
  obtain ⟨l, hl⟩ := exists_eq_allTiles
  rw [hl]
  simp

@[simp] theorem State.s4End_sameMem (s : State) (ls : List LinkTrain) : SameMem s (s.s4End ls) := by
  unfold State.s4End
  dsimp only
  split <;> simp

@[simp] theorem State.stageLimit_canonical (s : State) (i1 : S1In) (i2 : S2In) (ls : List LinkTrain)
    (hs : s.Canonical) : (s.stageLimit i1 i2 ls).Canonical := by
  unfold State.stageLimit
  split <;> simp [hs]

/-! ### The beat tick and the posting -/

@[simp] theorem State.hubTick_sameMem (s : State) : SameMem s s.hubTick := by simp [State.hubTick]

@[simp] theorem State.tickAfter_sameMem (s : State) (b : Nat) : SameMem s (s.tickAfter b) := by
  simp [State.tickAfter]

@[simp] theorem State.beatTick_sameMem (s : State) (energy : List (Nat × Nat)) : SameMem s (s.beatTick energy) := by
  simp [State.beatTick]

@[simp] theorem State.timeAdopt_sameMem (s : State) (master : Word) : SameMem s (s.timeAdopt master) := by
  simp [State.timeAdopt]

@[simp] theorem State.shutdownPost_sameMem (s : State) : SameMem s s.shutdownPost := by simp [State.shutdownPost]

/-- A freeze ends the trace of every running command (R416). -/
@[simp] theorem State.freezeNow_canonical (s : State) (hs : s.Canonical) : s.freezeNow.Canonical := by
  simp +contextual [State.freezeNow, hs]

@[simp] theorem State.posting_canonical (s : State) (hs : s.Canonical) : s.posting.Canonical := by
  unfold State.posting
  dsimp only
  (repeat' split) <;> simp [hs]

/-! ### Writes of the window -/

@[simp] theorem State.regWrite_canonical (s : State) (m : Requester) (page off size : Nat) (v : Word) (r : RegRow)
    (hs : s.Canonical) : (s.regWrite m page off size v r).Canonical := by
  unfold State.regWrite
  dsimp only
  (repeat' split) <;> simp [hs]

@[simp] theorem State.writeAccess_canonical (s : State) (m : Requester) (page off size : Nat) (v : Word)
    (hs : s.Canonical) : (s.writeAccess m page off size v).Canonical := by
  unfold State.writeAccess
  (repeat' split) <;> simp [hs]

@[simp] theorem State.tapUpdate_canonical (s : State) (v : Word) (hs : s.Canonical) : (s.tapUpdate v).Canonical := by
  simp [State.tapUpdate, hs]

/-! ### Every command -/

/-- The command answers a next state whose memories are canonical. -/
def AnswersCanonical (o : Host.Outcome State Fault Refusal) : Prop := ∃ t, o = .next t ∧ t.Canonical

theorem SameMem.answers {s t : State} (h : SameMem s t) (hs : s.Canonical) : AnswersCanonical (.next t) :=
  ⟨t, rfl, h.canonical hs⟩

theorem doWhen_canonical {c : Bool} {f : State → State} {s : State} (hs : s.Canonical) (h : (f s).Canonical) :
    AnswersCanonical (doWhen c f s) := by
  cases c
  · exact ⟨s, rfl, hs⟩
  · exact ⟨f s, rfl, h⟩

theorem writeRow_answersCanonical (m : Requester) (page off size : Nat) (v : Word) {s : State} (hs : s.Canonical) :
    AnswersCanonical (writeRow m page off size v s) := doWhen_canonical hs (by simp [hs])

theorem nodeRow_answersCanonical (op : Nat) (n : NodeOp) (data : List Flit) {s : State} (hs : s.Canonical) :
    AnswersCanonical (nodeRow op n data s) := doWhen_canonical hs (by simp [hs])

theorem orderRow_answersCanonical (r : OrderRef) (w : Word) (ans : Option (Option PartnerAnswer)) {s : State}
    (hs : s.Canonical) : AnswersCanonical (orderRow r w ans s) := doWhen_canonical hs (by simp [hs])

theorem execPartnerBind_answersCanonical (r : OrderRef) (operand : BitVec 48) (answer : Option PartnerAnswer)
    {s : State} (hs : s.Canonical) : AnswersCanonical (execPartnerBind r operand answer s) := by
  unfold execPartnerBind
  dsimp only
  split
  · exact doWhen_canonical hs (by simp [hs])
  · exact orderRow_answersCanonical _ _ _ hs

theorem execTestHoldDrained_answersCanonical (t : Nat) {s : State} (hs : s.Canonical) :
    AnswersCanonical (execTestHoldDrained t s) := by
  unfold execTestHoldDrained doWhen
  split
  · exact (s.testHoldDrained_sameMem t).answers hs
  · exact ⟨s, rfl, hs⟩

theorem execLineageClosing_answersCanonical {s : State} (hs : s.Canonical) :
    AnswersCanonical (execLineageClosing s) := by
  unfold execLineageClosing doWhen
  split
  · exact (State.lineagePhase_sameMem _).answers ((s.atPhase_sameMem 1 0).canonical hs)
  · exact ⟨s, rfl, hs⟩

theorem exec_answersCanonical (c : Instr) {s : State} (hs : s.Canonical) : AnswersCanonical (exec c s) := by
  cases c with
  | plinthPowerGood arg => unfold exec execPlinthPowerGood; exact doWhen_canonical hs (by simp [hs])
  | wholeChipReset arg => unfold exec execWholeChipReset; exact doWhen_canonical hs (by simp [hs])
  | stageS1 arg => unfold exec execStageS1; exact doWhen_canonical hs (by simp [hs])
  | stageS2 arg => unfold exec execStageS2; exact doWhen_canonical hs (by simp [hs])
  | stageS3 => unfold exec execStageS3; exact doWhen_canonical hs (by simp [hs])
  | stageS4 links => unfold exec execStageS4; exact doWhen_canonical hs (by simp [hs])
  | stageLimit i1 i2 links => unfold exec execStageLimit; exact doWhen_canonical hs (by simp [hs])
  | fwReady m v => exact writeRow_answersCanonical _ _ _ _ _ hs
  | beatTick energy => unfold exec execBeatTick; exact doWhen_canonical hs (by simp [hs])
  | lineageClosing => exact execLineageClosing_answersCanonical hs
  | orderIntake => unfold exec execOrderIntake; exact doWhen_canonical hs (by split <;> simp [hs])
  | verdictAggregation late => unfold exec execVerdictAggregation; exact doWhen_canonical hs (by split <;> simp [hs])
  | lateSummary t => unfold exec execLateSummary; exact doWhen_canonical hs (by simp [hs])
  | patinaUpdate => unfold exec execPatinaUpdate; exact doWhen_canonical hs (by split <;> simp [hs])
  | thermalDecisions => unfold exec execThermalDecisions; exact doWhen_canonical hs (by simp [hs])
  | sensorSample n reading => unfold exec execSensorSample; exact doWhen_canonical hs (by simp [hs])
  | counterSampling => unfold exec execCounterSampling; exact doWhen_canonical hs (by split <;> simp [hs])
  | dispatch => unfold exec execDispatch; exact doWhen_canonical hs (by simp [hs])
  | statusPosting => unfold exec execStatusPosting; exact doWhen_canonical hs (by simp [hs])
  | eventHostCopy => unfold exec execEventHostCopy; exact doWhen_canonical hs (by simp [hs])
  | syncPpsEdge cyc => unfold exec execSyncPpsEdge; exact doWhen_canonical hs (by simp [hs])
  | ppsLost => unfold exec execPpsLost; exact doWhen_canonical hs (by simp [hs])
  | elect advs => unfold exec execElect; exact doWhen_canonical hs (by simp [hs])
  | timex x => unfold exec execTimex; exact doWhen_canonical hs (by simp [hs])
  | timeAdopt master => unfold exec execTimeAdopt; exact doWhen_canonical hs (by simp [hs])
  | timeMaster => unfold exec execTimeMaster; exact doWhen_canonical hs (by simp [hs])
  | domainStopDetect d lastEdge => unfold exec execDomainStopDetect; exact doWhen_canonical hs (by simp [hs])
  | gap d cyc => unfold exec execGap; exact doWhen_canonical hs (by simp [hs])
  | packetArrive p => unfold exec execPacketArrive; exact doWhen_canonical hs (by simp [hs])
  | ackHeldTimer sid => unfold exec execAckHeldTimer; exact doWhen_canonical hs (by simp [hs])
  | ack sid xid => unfold exec execAck; exact doWhen_canonical hs (by simp [hs])
  | ackHeld sid xid => unfold exec execAckHeld; exact doWhen_canonical hs (by simp [hs])
  | resendTimeout sid => unfold exec execResendTimeout; exact doWhen_canonical hs (by cases sid <;> simp [hs])
  | sentinelForward link flits => unfold exec execSentinelForward; exact doWhen_canonical hs (by simp [hs])
  | routePrimaryBack k => unfold exec execRoutePrimaryBack; exact doWhen_canonical hs (by simp [hs])
  | fenceApply o | unfenceApply o | mapCommit o | mapLoad o data => exact nodeRow_answersCanonical _ _ _ hs
  | niMapApply t => unfold exec execNiMapApply; exact doWhen_canonical hs (by simp [hs])
  | nodeFreeze o | pauseStop o | pauseCopy o | resume o | chiselStartArmIdle o | chiselStartArmForced o
  | chiselStartArmWitness o | chiselStartContinue o | chiselAbortDisarm o | chiselAbortFinish o
  | chiselAbortAbort o | seedLoad o | maqSetPairAdd o | maqSetPairDel o | maqSetArmSource o | maqSetArmHost o
  | maqSetArmReferee o | maqSetEnd o | maqSetSetRate o | watchSetArm o | watchSetDisarm o | nodeStep o | nodeRun o
  | lineageQuery o | hangRead o | counterReadStanding o | counterReadStop o | stateRead o =>
    exact nodeRow_answersCanonical _ _ _ hs
  | fence r operand | unfence r operand | promote r operand | chiselNow r operand | chiselDefer r operand
  | maqRate r operand | cast r operand | restore r operand | watchArm r operand | watchDisarm r operand
  | stepTile r operand | run r operand | freeze r operand | digestOpen r operand | digestClose r operand
  | reposeEnter r operand | reposeWake r operand | fuseCommit r operand => exact orderRow_answersCanonical _ _ _ hs
  | partnerBind r operand answer => exact execPartnerBind_answersCanonical r operand answer hs
  | partnerUnbind r operand | releasePartition r operand => exact orderRow_answersCanonical _ _ _ hs
  | releaseScrubDone => unfold exec execReleaseScrubDone; exact doWhen_canonical hs (by simp [hs])
  | orderWindowWrite m slot size v => unfold exec execOrderWindowWrite; exact doWhen_canonical hs (by simp [hs])
  | orderRdWrite m mgmtRing v | evtHostRdWrite m v | evtHostEnable m v | countHostRdWrite m v
  | traceHostRdWrite m v => exact writeRow_answersCanonical _ _ _ _ _ hs
  | rcRead m page off size => unfold exec execRcRead; exact doWhen_canonical hs (by simp [hs])
  | halfReadLatch m page off => unfold exec execHalfReadLatch; exact doWhen_canonical hs (by simp [hs])
  | w1cWrite m page v | pageLock m page | registerWrite m page off size v =>
    exact writeRow_answersCanonical _ _ _ _ _ hs
  | injectArm m v => unfold exec execInjectArm; exact doWhen_canonical hs (by simp [hs])
  | injectDisarm m v | reportAck m v | hangReadReq m v | stateReadReq m v | dumpGo m v =>
    exact writeRow_answersCanonical _ _ _ _ _ hs
  | dumpDone e => unfold exec execDumpDone; exact doWhen_canonical hs (by simp [hs])
  | licenceInstall m v => exact writeRow_answersCanonical _ _ _ _ _ hs
  | licenceVerdict sigOk => unfold exec execLicenceVerdict; exact doWhen_canonical hs (by simp [hs])
  | resetReq m v => exact writeRow_answersCanonical _ _ _ _ _ hs
  | mrWrite m layer k v => unfold exec execMrWrite; exact doWhen_canonical hs (by simp [hs])
  | reencodeStep t layer => unfold exec execReencodeStep; exact doWhen_canonical hs (by simp [hs])
  | wsetWriteValid m w v => unfold exec execWsetWriteValid; exact doWhen_canonical hs (by simp [hs])
  | wsetRetire m w v => unfold exec execWsetRetire; exact doWhen_canonical hs (by simp [hs])
  | wsetHashDone w fmt ue => unfold exec execWsetHashDone; exact doWhen_canonical hs (by simp [hs])
  | recordRead m off size => unfold exec execRecordRead; exact doWhen_canonical hs (by simp [hs])
  | fuseProgResult m v => exact writeRow_answersCanonical _ _ _ _ _ hs
  | tapChmAddr bits => unfold exec execTapChmAddr; exact doWhen_canonical hs (by simp [hs])
  | tapChmDataCapture => unfold exec execTapChmDataCapture; exact doWhen_canonical hs (by simp [hs])
  | tapChmDataUpdate v => unfold exec execTapChmDataUpdate; exact doWhen_canonical hs (by simp [hs])
  | mgmtTimeout kind => unfold exec execMgmtTimeout; exact doWhen_canonical hs (by simp [hs])
  | mgmtBack => unfold exec execMgmtBack; exact doWhen_canonical hs (by simp [hs])
  | voltageDroop region => unfold exec execVoltageDroop; exact doWhen_canonical hs (by simp [hs])
  | linkDown link => unfold exec execLinkDown; exact doWhen_canonical hs (by simp [hs])
  | linkRetrain links => unfold exec execLinkRetrain; exact doWhen_canonical hs (by simp [hs])
  | commandBegin t c cyc => unfold exec execCommandBegin; exact doWhen_canonical hs (by split <;> simp [hs])
  | commandEnd t e => unfold exec execCommandEnd; exact doWhen_canonical hs (by simp [hs])
  | passStart t p entry => unfold exec execPassStart; exact doWhen_canonical hs (by simp [hs])
  | blockVerdict t f => unfold exec execBlockVerdict; exact doWhen_canonical hs (by simp [hs])
  | passRerun t x fs => unfold exec execPassRerun; exact doWhen_canonical hs (by simp [hs])
  | blockRelease t x => unfold exec execBlockRelease; exact doWhen_canonical hs (by simp [hs])
  | sealVerifyRead t r => unfold exec execSealVerifyRead; exact doWhen_canonical hs (by simp [hs])
  | sealSecondRead t r => unfold exec execSealSecondRead; exact doWhen_canonical hs (by simp [hs])
  | partialBlockWrite t w => unfold exec execPartialBlockWrite; exact doWhen_canonical hs (by simp [hs])
  | transferSend t x =>
    unfold exec execTransferSend
    exact doWhen_canonical hs (s.sendAll_canonical t x _ (s.sendNow_canonical t x hs) hs)
  | transferReceive t x => unfold exec execTransferReceive; exact doWhen_canonical hs (by simp [hs])
  | fencedAck t id logical gen => unfold exec execFencedAck; exact doWhen_canonical hs (by simp [hs])
  | subscribedCopyDrop k => unfold exec execSubscribedCopyDrop; exact doWhen_canonical hs (by simp [hs])
  | maqHostAssign => unfold exec execMaqHostAssign; exact doWhen_canonical hs (by simp [hs])
  | maqArmTimeout k => unfold exec execMaqArmTimeout; exact doWhen_canonical hs (by simp [hs])
  | maqCompare k host => unfold exec execMaqCompare; exact doWhen_canonical hs (by simp [hs])
  | maqDeadline k => unfold exec execMaqDeadline; exact doWhen_canonical hs (by simp [hs])
  | maqRefereeAssign k => unfold exec execMaqRefereeAssign; exact doWhen_canonical hs (by simp [hs])
  | maqArbitration k referee => unfold exec execMaqArbitration; exact doWhen_canonical hs (by simp [hs])
  | taintComputation => unfold exec execTaintComputation; exact doWhen_canonical hs (by simp [hs])
  | taintClosure => unfold exec execTaintClosure; exact doWhen_canonical hs (by simp [hs])
  | taint => unfold exec execTaint; exact doWhen_canonical hs (by simp [hs])
  | chiselDue t => unfold exec execChiselDue; exact doWhen_canonical hs (by simp [hs])
  | chiselForced t => unfold exec execChiselForced; exact doWhen_canonical hs (by simp [hs])
  | chiselReady t => unfold exec execChiselReady; exact doWhen_canonical hs (by simp [hs])
  | chiselArmWait t => unfold exec execChiselArmWait; exact doWhen_canonical hs (by simp [hs])
  | chiselStartSignal t => unfold exec execChiselStartSignal; exact doWhen_canonical hs (by simp [hs])
  | chiselStarved t => unfold exec execChiselStarved; exact doWhen_canonical hs (by simp [hs])
  | testHoldDrained t => exact execTestHoldDrained_answersCanonical t hs
  | segmentResult t r => unfold exec execSegmentResult; exact doWhen_canonical hs (by simp [hs])
  | witnessWaitExpiry t => unfold exec execWitnessWaitExpiry; exact doWhen_canonical hs (by simp [hs])
  | chiselListDone t => unfold exec execChiselListDone; exact doWhen_canonical hs (by simp [hs])
  | sessionMaxExpiry t => unfold exec execSessionMaxExpiry; exact doWhen_canonical hs (by simp [hs])
  | reinitDone t stuck => unfold exec execReinitDone; exact doWhen_canonical hs (by simp [hs])
  | promotionSaveDone logical timedOut => unfold exec execPromotionSaveDone; exact doWhen_canonical hs (by simp [hs])
  | promotionMigrationDone logical uncorr =>
    unfold exec execPromotionMigrationDone
    exact doWhen_canonical hs (by simp [hs])
  | promotionRestoreDone logical => unfold exec execPromotionRestoreDone; exact doWhen_canonical hs (by simp [hs])
  | promoteDone logical => unfold exec execPromoteDone; exact doWhen_canonical hs (by simp [hs])
  | promotionResume logical => unfold exec execPromotionResume; exact doWhen_canonical hs (by simp [hs])
  | repairRecordWrite ok => unfold exec execRepairRecordWrite; exact doWhen_canonical hs (by simp [hs])
  | stackAccess a => unfold exec execStackAccess; exact doWhen_canonical hs (by simp [hs])
  | nearbankCommand t n => unfold exec execNearbankCommand; exact doWhen_canonical hs (by simp [hs])
  | nearbankComplete t layer bank cycles => unfold exec execNearbankComplete; exact doWhen_canonical hs (by simp [hs])
  | nbHung t layer bank => unfold exec execNbHung; exact doWhen_canonical hs (by simp [hs])
  | refreshDue t layer bank => unfold exec execRefreshDue; exact doWhen_canonical hs (by simp [hs])
  | patrolVisit t layer block found => unfold exec execPatrolVisit; exact doWhen_canonical hs (by simp [hs])
  | castWindowCheck => unfold exec execCastWindowCheck; exact doWhen_canonical hs (by simp [hs])
  | castWindowTimeout => unfold exec execCastWindowTimeout; exact doWhen_canonical hs (by simp [hs])
  | castQuiesce cyc => unfold exec execCastQuiesce; exact doWhen_canonical hs (by simp [hs])
  | gatherTimeout => unfold exec execGatherTimeout; exact doWhen_canonical hs (by simp [hs])
  | castCopyDone cyc => unfold exec execCastCopyDone; exact doWhen_canonical hs (by simp [hs])
  | mouldDrained t => unfold exec execMouldDrained; exact doWhen_canonical hs (by simp [hs])
  | castDurable => unfold exec execCastDurable; exact doWhen_canonical hs (by simp [hs])
  | castStoreError => unfold exec execCastStoreError; exact doWhen_canonical hs (by simp [hs])
  | mirrorState why => unfold exec execMirrorState; exact doWhen_canonical hs (by simp [hs])
  | mirrorSegmentReceive chip xid blocks flushed =>
    unfold exec execMirrorSegmentReceive
    exact doWhen_canonical hs (by simp [hs])
  | restoreValidated w => unfold exec execRestoreValidated; exact doWhen_canonical hs (by simp [hs])
  | restoreTileWrite logical => unfold exec execRestoreTileWrite; exact doWhen_canonical hs (by simp [hs])
  | restoreDone => unfold exec execRestoreDone; exact doWhen_canonical hs (by simp [hs])
  | digestSettling k => unfold exec execDigestSettling; exact doWhen_canonical hs (by simp [hs])
  | digestSettleExpiry k => unfold exec execDigestSettleExpiry; exact doWhen_canonical hs (by simp [hs])
  | digestReady k sigR sigS => unfold exec execDigestReady; exact doWhen_canonical hs (by simp [hs])
  | signTimeout k => unfold exec execSignTimeout; exact doWhen_canonical hs (by simp [hs])
  | sampleSetBuild late => unfold exec execSampleSetBuild; exact doWhen_canonical hs (by simp [hs])
  | traceDrain => unfold exec execTraceDrain; exact doWhen_canonical hs (by simp [hs])
  | reposeGatherDone => unfold exec execReposeGatherDone; exact doWhen_canonical hs (by simp [hs])
  | wakeDone cyc => unfold exec execWakeDone; exact doWhen_canonical hs (by simp [hs])
  | regionVoltageSample region mv => unfold exec execRegionVoltageSample; exact doWhen_canonical hs (by simp [hs])
  | transferCompletion t id => unfold exec execTransferCompletion; exact doWhen_canonical hs (by simp [hs])
  | powerRemoved => unfold exec execPowerRemoved; exact doWhen_canonical hs (by simp [hs])
  | msixEntryUnmask v => unfold exec execMsixEntryUnmask; exact doWhen_canonical hs (by simp [hs])

/-- Settles O59: every operation writes the memories through the table operations, which keep the canonical form; a
step is one command or one idle cycle. -/
theorem memoriesStayCanonical : Obligations.MemoriesStayCanonical := by
  unfold Obligations.MemoriesStayCanonical
  refine ⟨fun c s hs => exec_answersCanonical c hs, fun s hs => ?_⟩
  unfold step
  split
  · exact exec_answersCanonical _ hs
  · exact ⟨_, rfl, s.plinthCycle_sameMem.canonical hs⟩

end Sys2Proof.Machine
end


section
/-! SUPPORT. Packets of the hub with their channel and order, the reports of a node, and the chisel state of a tile:
what the operations of a session leave unchanged (R90, R98, R223, R228, R247). -/

namespace Sys2Proof.Machine

/-! ### Packets of the hub (R90, R98) -/

/-- The hub has sent or queued the packet of request `q` to these nodes. -/
def State.sends (s : State) (q : SendReq) (dests : BitVec 1152) : Prop :=
  ∃ p, s.has p ∧ p.op = BitVec.ofNat 8 q.op ∧ p.dests = dests ∧ p.operand = q.operand ∧ p.vc = q.vc ∧ p.order = q.order

section
variable {s t : State} {q : SendReq} {dests : BitVec 1152}

theorem State.sends_of_arm (h : t.arm = s.arm) (hs : s.sends q dests) : t.sends q dests := by
  unfold State.sends State.has
  rw [h]
  exact hs

theorem State.sends_hubPacket (s : State) (q : SendReq) (dests : BitVec 1152) :
    (s.hubPacket q dests).sends q dests := by
  have hmem : s.outgoing q dests ∈ (s.packetQueued q dests).arm.queue :=
    List.mem_append_right _ (List.mem_singleton_self _)
  rw [State.hubPacket_eq]
  rcases State.has_inject hmem with h | h
  · exact ⟨_, h, rfl, rfl, rfl, rfl, rfl⟩
  · exact ⟨_, h, rfl, rfl, rfl, rfl, rfl⟩

theorem State.sends_hubSend_oneNode {u : Nat} (s : State) (h : q.dests = oneNode u) :
    (s.hubSend q).sends q (oneNode u) := by
  rw [State.hubSend_oneNode s h]
  exact s.sends_hubPacket q _

theorem State.sends_hubSend_allNodes (s : State) (h : q.dests = allNodes) : (s.hubSend q).sends q allNodes := by
  rw [State.hubSend_allNodes s h]
  exact s.sends_hubPacket q _

end

/-- The packet that tells a tile of its session (R246). -/
def chiselRequest (op t : Nat) (o : BitVec 96) : SendReq :=
  { op, vc := if op == opSEED_LOAD then 3 else 1, operand := o, dests := oneNode t }

theorem State.chiselSend_eq (s : State) (op t : Nat) (o : BitVec 96) :
    s.chiselSend op t o = s.hubSend (chiselRequest op t o) := rfl

theorem OnlyChanges.chiselSend (s : State) (op t : Nat) (o : BitVec 96) : OnlyChanges [.arm] s (s.chiselSend op t o) :=
  OnlyChanges.hubSend s _

theorem State.sends_chiselSend (s : State) (op t : Nat) (o : BitVec 96) :
    (s.chiselSend op t o).sends (chiselRequest op t o) (oneNode t) := State.sends_hubSend_oneNode s rfl

@[simp] theorem State.tile_chiselSend (s : State) (op t : Nat) (o : BitVec 96) (u : Nat) :
    (s.chiselSend op t o).tile u = s.tile u := State.tile_of_tiles (OnlyChanges.chiselSend s op t o .tiles (by simp)) u

@[simp] theorem State.chisel_chiselSend (s : State) (op t : Nat) (o : BitVec 96) :
    (s.chiselSend op t o).chisel = s.chisel := OnlyChanges.chiselSend s op t o .chisel (by simp)

/-! ### The last reply of a node (R97, R247) -/

theorem State.replyPacket_lastReply (s : State) (u : Nat) (b : List Flit) :
    (s.replyPacket u b).arm.lastReply = s.arm.lastReply := by
  unfold State.replyPacket
  dsimp only
  split
  · rfl
  · unfold State.replyNext
    split <;> rfl

theorem State.sendReply_lastReply (s : State) (u : Nat) (ps : List (List Flit)) :
    (s.sendReply u ps).arm.lastReply = some (u, ps.flatten) := by
  unfold State.sendReply
  exact List.foldlRecOn (motive := fun t : State => t.arm.lastReply = some (u, ps.flatten)) _ _ rfl
    fun t ht b _ => (t.replyPacket_lastReply u b).trans ht

theorem OnlyChanges.chiselSay (s : State) (u kind seg : Nat) (vals : List Word) :
    OnlyChanges [.arm] s (s.chiselSay u kind seg vals) := OnlyChanges.sendReply s u _

theorem State.chiselSay_lastReply (s : State) (u kind seg : Nat) (vals : List Word) :
    (s.chiselSay u kind seg vals).arm.lastReply =
      some (u, (chiselPackets kind seg (s.tile u).chisel.node.session vals).flatten) := State.sendReply_lastReply s u _

@[simp] theorem State.tile_chiselSay (s : State) (u kind seg : Nat) (vals : List Word) (v : Nat) :
    (s.chiselSay u kind seg vals).tile v = s.tile v :=
  State.tile_of_tiles (OnlyChanges.chiselSay s u kind seg vals .tiles (by simp)) v

/-! ### Tiles and slots -/

theorem OnlyTiles.refl (us : List Nat) (s : State) : OnlyTiles us s s := fun _ _ => rfl

theorem OnlyTiles.modChisel (s : State) (u : Nat) (f : ChiselTile → ChiselTile) : OnlyTiles [u] s (s.modChisel u f) :=
  OnlyTiles.setTile s u _

theorem OnlyTiles.of_changes {us : List Nat} {ps : List Part} {s t : State} (h : OnlyChanges ps s t)
    (hp : .tiles ∉ ps) : OnlyTiles us s t := OnlyTiles.of_tiles (h .tiles hp)

theorem State.slotOf_of_chisel {s t : State} (h : t.chisel = s.chisel) (u : Nat) : t.slotOf u = s.slotOf u := by
  unfold State.slotOf
  rw [h]

@[simp] theorem State.tile_bump (s : State) (k n u : Nat) : (s.bump k n).tile u = s.tile u := rfl

@[simp] theorem State.tile_raise (s : State) (r : EvRec) (u : Nat) : (s.raise r).tile u = s.tile u := rfl

@[simp] theorem State.tile_setSlot (s : State) (k : Nat) (x : Option Slot) (u : Nat) :
    (s.setSlot k x).tile u = s.tile u := rfl

@[simp] theorem State.slotOf_modChisel (s : State) (u : Nat) (f : ChiselTile → ChiselTile) (v : Nat) :
    (s.modChisel u f).slotOf v = s.slotOf v := rfl

/-- Tile `v` after a change of the session of tile `u`. -/
theorem State.chisel_modChisel (s : State) (u v : Nat) (f : ChiselTile → ChiselTile) :
    ((s.modChisel u f).tile v).chisel = if v = u then f (s.tile v).chisel else (s.tile v).chisel := by
  split
  next h => rw [h, State.tile_modChisel_self]
  next h => rw [State.tile_modChisel_ne _ _ h]

section
variable {s : State} {u k : Nat} {x : Slot}

theorem State.dropSlot_of_slot (h : s.slotOf u = some (k, x)) : s.dropSlot u = s.setSlot k none := by
  unfold State.dropSlot
  rw [h]

@[simp] theorem State.tile_dropSlot (s : State) (u v : Nat) : (s.dropSlot u).tile v = s.tile v := by
  unfold State.dropSlot
  split <;> rfl

theorem OnlyChanges.setSlot (s : State) (k : Nat) (x : Option Slot) : OnlyChanges [.chisel] s (s.setSlot k x) :=
  fun p hp => by cases p <;> simp_all [Same, State.setSlot]

theorem OnlyChanges.dropSlot (s : State) (u : Nat) : OnlyChanges [.chisel] s (s.dropSlot u) := by
  unfold State.dropSlot
  split
  · exact OnlyChanges.setSlot s _ _
  · exact OnlyChanges.refl _ s

theorem State.chiselPend_of_not (h : (s.tile u).chisel.pend = false) : s.chiselPend u = s := by
  rw [State.chiselPend, h]
  rfl

end

/-! ### Holds of a tile under test (R223, R225) -/

/-- FENCE_APPLY that holds logical tile `l` while tile `u` is under test. -/
def testHold (u l : Nat) : FenceReq :=
  { kind := kTEST_HOLD, fence := false, hold := true, phys := u, logical := some l }

theorem OnlyChanges.setMap (s : State) (m : MapSt) : OnlyChanges [.map] s { s with map := m } :=
  fun p hp => by cases p <;> simp_all [Same]

theorem OnlyChanges.dropPending (s : State) (u : Nat) : OnlyChanges [.map, .ord, .ev, .regs] s (s.dropPending u) := by
  unfold State.dropPending
  dsimp only
  split
  · exact OnlyChanges.refl _ s
  · exact ((OnlyChanges.setMap s _).mono (by simp)).trans
      (OnlyChanges.foldl _ (fun t id => (OnlyChanges.finish t id _).mono (by simp)) _ _)

theorem State.dropPending_hub (s : State) (u : Nat) : (s.dropPending u).map.hub = s.map.hub := by
  unfold State.dropPending
  dsimp only
  split
  · rfl
  · refine (congrArg MapSt.hub
      (?_ : _ = { s.map with pendFence := s.map.pendFence.filter fun e => e.1 != u })).trans rfl
    exact OnlyChanges.foldl _ (fun t id => OnlyChanges.finish t id .stateIllegal) _ _ .map (by simp)

theorem OnlyTiles.mapMark (s : State) (u kind : Nat) : OnlyTiles [u] s (s.mapMark u kind) := OnlyTiles.setTile s u _

theorem State.chisel_mapMark (s : State) (u kind v : Nat) : ((s.mapMark u kind).tile v).chisel = (s.tile v).chisel := by
  unfold State.mapMark
  by_cases h : v = u
  · rw [h, State.tile_modPat_self]
  · rw [State.tile_modPat_ne _ _ h]

end Sys2Proof.Machine
end


section
/-! SUPPORT. The steps by which a tile is armed, held, started and disarmed (R223, R225, R228, R233, R234). -/

namespace Sys2Proof.Machine

section
variable {s : State} {u k l : Nat} {x : Slot}

/-! ### The start signal (R223, R233) -/

/-- Tile `u` of session `x` has its start signal. -/
structure State.Started (s t : State) (u : Nat) (x : Slot) : Prop where
  tiles : OnlyTiles [u] s t
  state : (t.tile u).chisel.state = 7
  startBeat : (t.tile u).chisel.startBeat = s.beat
  seed : (t.tile u).chisel.seed = s.sessionSeed x.session
  seg : (t.tile u).chisel.seg = (members (t.tile u).chisel.list).headD 0xF
  sends : ∃ o, t.sends (chiselRequest opSEED_LOAD u o) (oneNode u)

theorem State.started_seedSend (h : s.slotOf u = some (k, x)) : s.Started (s.seedSend u) u x := by
  unfold State.seedSend
  rw [h]
  dsimp only
  have hbump (c : Bool) (b : State) (v : Nat) :
      (if c then b.bump Reg.chiselForcedStarts else b).tile v = b.tile v := by cases c <;> rfl
  refine ⟨fun v hv => ?_, ?_, ?_, ?_, ?_, _, State.sends_chiselSend _ _ _ _⟩
  · rw [State.tile_chiselSend, hbump, State.tile_bump]
    exact OnlyTiles.modChisel s u _ v hv
  all_goals rw [State.tile_chiselSend, hbump, State.tile_bump, State.tile_modChisel_self]

theorem State.beginTile_of_unmapped (h : s.logical u = none) : s.beginTile u = s.seedSend u := by
  rw [State.beginTile, h]

theorem State.beginTile_of_mapped (h : s.logical u = some l) (hopen : s.fenced u = false) :
    s.beginTile u = (s.modChisel u fun c => { c with state := 6 }).fenceSend (testHold u l) true none := by
  rw [State.beginTile, h, hopen]
  rfl

theorem State.chiselStart_of_witness (h : s.slotOf u = some (k, x)) (hrole : x.role = 2)
    (hstate : (s.tile u).chisel.state = 4) (hok : s.startOk u = true) : s.chiselStart u = s.beginTile u := by
  simp [State.chiselStart, h, hrole, hstate, hok]

/-! ### Holds (R223, R225) -/

/-- The hub's FENCE_APPLY for a hold. -/
def holdRequest (u l : Nat) (gen : BitVec 16) : SendReq :=
  { op := opFENCE_APPLY, vc := 0, operand := (testHold u l).operand gen, dests := allNodes, order := none }

/-- Logical tile `l` is held while tile `u` is under test: nothing else of the map changes, and every node is told. -/
structure State.Held (s t : State) (u l : Nat) : Prop where
  tiles : OnlyTiles [s.phys l] s t
  chisel : ∀ v, (t.tile v).chisel = (s.tile v).chisel
  held : l < numLogical → t.map.hub.held l = true
  fenced : ∀ v, t.fenced v = s.fenced v
  sends : ∃ gen, t.sends (holdRequest u l gen) allNodes

/-- FENCE_APPLY of the hold is on its way. -/
def State.holdSent (s : State) (u l : Nat) : State :=
  (s.dropPending (s.phys l)).hubSend (holdRequest u l (nextGen s.map.hub.gen))

/-- The hub applies the hold to its own map. -/
def State.holdApplied (s : State) (u l : Nat) (gen : BitVec 16) : State :=
  { s with map.hub := s.map.hub.apply (testHold u l) true gen }

theorem State.fenceSend_testHold (s : State) (u l : Nat) : ∃ kind, s.fenceSend (testHold u l) true none =
    (((s.holdSent u l).holdApplied u l (nextGen s.map.hub.gen)).mapMark (s.phys l) kind).bump Reg.mapFences := ⟨_, rfl⟩

theorem State.holdSent_hub (s : State) (u l : Nat) : (s.holdSent u l).map.hub = s.map.hub :=
  (congrArg MapSt.hub (OnlyChanges.hubSend (s.dropPending (s.phys l)) _ .map (by simp))).trans (s.dropPending_hub _)

theorem State.tile_holdSent (s : State) (u l v : Nat) : (s.holdSent u l).tile v = s.tile v :=
  (State.tile_of_tiles (OnlyChanges.hubSend (s.dropPending (s.phys l)) _ .tiles (by simp)) v).trans
    (State.tile_of_tiles (OnlyChanges.dropPending s _ .tiles (by simp)) v)

theorem NiMap.apply_testHold_held (m : NiMap) (u : Nat) (gen : BitVec 16) (hl : l < numLogical) :
    (m.apply (testHold u l) true gen).held l = true := getLsbD_setBit_self m.hold true hl

theorem NiMap.apply_testHold_fenced (m : NiMap) (u l : Nat) (gen : BitVec 16) (v : Nat) :
    (m.apply (testHold u l) true gen).fenced v = m.fenced v := rfl

theorem State.held_fenceSend (s : State) (u l : Nat) : s.Held (s.fenceSend (testHold u l) true none) u l := by
  obtain ⟨kind, heq⟩ := s.fenceSend_testHold u l
  rw [heq]
  generalize hgen : nextGen s.map.hub.gen = gen
  have htile (v : Nat) : ((s.holdSent u l).holdApplied u l gen).tile v = s.tile v := s.tile_holdSent u l v
  refine ⟨fun v hv => ?_, fun v => ?_, fun hl => ?_, fun v => ?_, gen, ?_⟩
  · rw [State.tile_bump, OnlyTiles.mapMark _ _ _ v hv, htile]
  · rw [State.tile_bump, State.chisel_mapMark, htile]
  · exact (s.holdSent u l).map.hub.apply_testHold_held u gen hl
  · exact ((s.holdSent u l).map.hub.apply_testHold_fenced u l gen v).trans
      (congrArg (NiMap.fenced · v) (s.holdSent_hub u l))
  · have hsent : (s.holdSent u l).sends (holdRequest u l gen) allNodes := by
      rw [← hgen]
      exact State.sends_hubSend_allNodes _ rfl
    refine State.sends_of_arm ?_ hsent
    rw [State.bump_arm, State.mapMark, State.modPat_arm, State.holdApplied]

/-! ### Disarming (R228) -/

/-- The session of a tile after its disarming; it stays forced only with its count at the limit. -/
def disarmedChisel (limit : Nat) (c : ChiselTile) : ChiselTile :=
  { c with
    state := if c.wasDue then 1 else 0, cause := if c.wasDue then c.cause else 0
    forced := c.wasDue && c.forced && (c.cause != 0 || decide (limit + c.ext ≤ c.deferred)) }

/-- The slot of tile `u` is freed, its node told, and its session reset. -/
def State.freed (s : State) (u k : Nat) : State :=
  ((s.setSlot k none).chiselSend opCHISEL_ABORT u (abortOperand 0 k 0 false 0)).modChisel u
    (disarmedChisel s.deferLimit)

/-- A witness that is disarmed leaves its undecided segment without one. -/
def State.witnessDropped (s : State) (u : Nat) (x : Slot) : State :=
  if x.role = 2 then s.modChisel x.other fun c => c.dropWitness u else s

theorem State.disarmOne_of_slot (h : s.slotOf u = some (k, x)) (hstate : (s.tile u).chisel.state ≠ 6) :
    s.disarmOne u = ((s.freed u k).witnessDropped u x).chiselPend u := by
  have hlimit (o : BitVec 96) : ((s.setSlot k none).chiselSend opCHISEL_ABORT u o).deferLimit = s.deferLimit := by
    rw [State.deferLimit, State.inForce, OnlyChanges.chiselSend _ _ _ _ .force (by simp)]
    rfl
  unfold State.disarmOne State.freed State.witnessDropped
  rw [h]
  dsimp only
  rw [if_neg (c := ((s.tile u).chisel.state == 6) = true) (by simpa using hstate), State.dropSlot_of_slot h, hlimit]
  simp only [beq_iff_eq]
  rfl

theorem State.freed_chisel_self (s : State) (u k : Nat) :
    ((s.freed u k).tile u).chisel = disarmedChisel s.deferLimit (s.tile u).chisel := by
  rw [State.freed, State.tile_modChisel_self, State.tile_chiselSend, State.tile_setSlot]

theorem OnlyTiles.freed (s : State) (u k : Nat) : OnlyTiles [u] s (s.freed u k) := fun v hv => by
  rw [State.freed, OnlyTiles.modChisel _ _ _ v hv, State.tile_chiselSend, State.tile_setSlot]

theorem State.freed_slot (s : State) (u k : Nat) : (s.freed u k).slot k = none := by
  have hchisel : (s.freed u k).chisel = (s.setSlot k none).chisel := State.chisel_chiselSend _ _ _ _
  rw [State.slot, hchisel]
  exact State.slot_setSlot_self s k none

theorem State.sends_freed (s : State) (u k : Nat) :
    (s.freed u k).sends (chiselRequest opCHISEL_ABORT u (abortOperand 0 k 0 false 0)) (oneNode u) :=
  State.sends_of_arm rfl (State.sends_chiselSend _ _ _ _)

theorem State.disarm_of_witness (h : s.slotOf u = some (k, x)) (hrole : x.role = 2) : s.disarm u = s.disarmOne u := by
  unfold State.disarm
  rw [h]
  simp [hrole]

/-- A witness of another tile is disarmed, and no session waits for its end. -/
theorem State.disarm_of_idleWitness (h : s.slotOf u = some (k, x)) (hrole : x.role = 2) (hne : x.other ≠ u)
    (hstate : (s.tile u).chisel.state ≠ 6) (hpend : (s.tile u).chisel.pend = false) :
    s.disarm u = (s.freed u k).modChisel x.other fun c => c.dropWitness u := by
  rw [State.disarm_of_witness h hrole, State.disarmOne_of_slot h hstate, State.witnessDropped, if_pos hrole]
  refine State.chiselPend_of_not ?_
  rw [State.tile_modChisel_ne _ _ hne.symm, State.freed_chisel_self]
  exact hpend

/-! ### Dueness, forcing and READY (R223, R227, R228) -/

/-- Tile `u` becomes due by schedule. -/
def State.madeDue (s : State) (u : Nat) : State :=
  s.modChisel u fun c =>
    { c with state := 1, cause := 0, forced := false, dueUnits := s.schedMask, deferred := 0, ext := 0
             dueBeat := s.beat, startedSlotWait := false }

theorem State.chiselDue_of_due (hstate : (s.tile u).chisel.state = 0) (hdue : s.chiselDueAt u ≤ s.beat) :
    s.chiselDue u = s.madeDue u := by
  rw [State.chiselDue, if_pos (by simp [hstate, hdue])]
  rfl

theorem State.chiselDue_of_not (h : (s.tile u).chisel.state ≠ 0 ∨ s.beat < s.chiselDueAt u) : s.chiselDue u = s := by
  rw [State.chiselDue, if_neg]
  rcases h with h | h <;> simp [h]

theorem State.chiselForce_of_limit (hstate : (s.tile u).chisel.state = 1) (hforced : (s.tile u).chisel.forced = false)
    (hcarries : s.carries u = true) (hlimit : s.deferLimit + (s.tile u).chisel.ext ≤ (s.tile u).chisel.deferred) :
    s.chiselForce u =
      s.modChisel u fun c => { c with forced := true, forcedBeat := s.beat, startedSlotWait := false } := by
  rw [State.chiselForce, if_pos (by simp [hstate, hforced, hcarries, hlimit])]

/-- The stream of tile `u` stands, and the tile is READY. -/
def State.stopped (s : State) (u : Nat) : State :=
  (s.modCore u fun c => { c with chiselStop := true }).modChisel u fun c => { c with state := 4, readyBeat := s.beat }

theorem OnlyChanges.stopped (s : State) (u : Nat) : OnlyChanges [.tiles] s (s.stopped u) :=
  (OnlyChanges.modCore s u _).trans (OnlyChanges.modChisel _ u _)

theorem OnlyTiles.stopped (s : State) (u : Nat) : OnlyTiles [u] s (s.stopped u) :=
  (OnlyTiles.modCore s u _).trans (OnlyTiles.modChisel _ u _)

theorem State.tile_stopped_self (s : State) (u : Nat) : (s.stopped u).tile u =
    { s.tile u with
      core := { (s.tile u).core with chiselStop := true }
      chisel := { (s.tile u).chisel with state := 4, readyBeat := s.beat } } := by
  rw [State.stopped, State.tile_modChisel_self, State.tile_modCore_self]

/-- The stream of an armed tile stands where it can be tested: at its boundary. -/
def Tile.atTestBoundary (x : Tile) : Prop :=
  (x.chisel.state = 2 ∧ x.core.idleBoundary = true) ∨
    (x.chisel.state = 3 ∧ x.core.atBoundary = true ∧ x.core.halted = false)

theorem State.chiselReady_of_boundary (hat : (s.tile u).atTestBoundary) (harm : (s.tile u).chisel.node.arm ≠ 0)
    (hxfers : (s.tile u).core.xfers = []) (hstalled : (s.tile u).core.stalled = []) (hstack : s.stackWaiting u = false)
    (hnb : s.nbAtWork u = false) : s.chiselReady u = (s.stopped u).chiselSay u rkREADY 0xF [] := by
  rw [State.chiselReady, if_pos]
  · rfl
  · rcases hat with ⟨hstate, hidle⟩ | ⟨hstate, hbound, hrun⟩
    · simp [hstate, hidle, harm, hxfers, hstalled, hstack, hnb]
    · simp [hstate, hbound, hrun, harm, hxfers, hstalled, hstack, hnb]

theorem State.chiselArmWait_of_over (hstate : (s.tile u).chisel.state = 2)
    (hover : (s.tile u).chisel.armBeat + s.armWait ≤ s.beat) : s.chiselArmWait u = s.disarm u := by
  rw [State.chiselArmWait, if_pos (by simp [hstate, hover])]

/-! ### Starvation (R234) -/

/-- A forced tile that finds no slot is starved, once. -/
theorem State.chiselStarve_of_forced (hstate : (s.tile u).chisel.state = 1) (hforced : (s.tile u).chisel.forced = true)
    (honce : (s.tile u).chisel.startedSlotWait = false) (hmay : s.mayArm u = true)
    (hover : (s.tile u).chisel.forcedBeat + s.forceWait ≤ s.beat) :
    s.chiselStarve u = (s.raiseStarved u 3).modChisel u fun c => { c with startedSlotWait := true } := by
  have hnot : s.starved u = false := by simp [State.starved, hstate]
  rw [State.chiselStarve, if_neg (by simp [hnot]), if_pos (by simp [hstate, hforced, honce, hmay, hover])]

theorem OnlyTiles.raiseStarved (s : State) (u cause : Nat) : OnlyTiles [u] s (s.raiseStarved u cause) :=
  OnlyTiles.of_tiles rfl

/-! ### The drain of a hold (R223) -/

/-- The start signal of a held tile goes out. -/
def State.heldStart (s : State) (u : Nat) : State :=
  match s.logical u with
  | some l => if (s.tile u).chisel.state == 6 && s.holdDrained l then s.seedSend u else s
  | none => s

theorem State.testHoldDrained_eq (s : State) (u : Nat) :
    s.testHoldDrained u = (allTiles.foldl State.drainReply s).heldStart u := by
  -- the definition with the list of tiles under a name, so that its fold is never evaluated
  obtain ⟨f, hf⟩ : ∃ f, f = State.testHoldDrained := ⟨_, rfl⟩
  obtain ⟨l, hl⟩ := exists_eq_allTiles
  rw [← hf]
  delta State.testHoldDrained at hf
  rw [hl] at hf ⊢
  subst hf
  rfl

theorem State.heldStart_of_drained (hl : s.logical u = some l) (hstate : (s.tile u).chisel.state = 6)
    (hdrained : s.holdDrained l = true) : s.heldStart u = s.seedSend u := by
  rw [State.heldStart, hl]
  exact if_pos (by rw [hstate, hdrained]; rfl)

theorem State.heldStart_of_not (h : ∀ l, s.logical u = some l → s.holdDrained l = false) : s.heldStart u = s := by
  unfold State.heldStart
  split
  next l hl => rw [h l hl, Bool.and_false, if_neg Bool.false_ne_true]
  next => rfl

end

end Sys2Proof.Machine
end


section
/-! PROOF. The schedule of the chisel tests: a tile is due, armed, READY, started or disarmed (R223, R227 to R229, R233,
R234). -/

namespace Sys2Proof.Machine

section
variable {s : State} {u k l : Nat} {x : Slot}

/-! ### The commands -/

theorem exec_chiselDue (hready : s.ready = true) (hawake : s.inRepose = false) (hu : u < numTiles) :
    exec (.chiselDue u) s = .next (s.chiselDue u) :=
  calc exec (.chiselDue u) s = doWhen (s.ready && !s.inRepose && u < numTiles) (fun s => s.chiselDue u) s := rfl
    _ = _ := doWhen_true (by rw [hready, hawake, decide_eq_true hu]; rfl)

theorem exec_chiselForced (hready : s.ready = true) (hawake : s.inRepose = false) (hu : u < numTiles) :
    exec (.chiselForced u) s = .next (s.chiselForce u) :=
  calc exec (.chiselForced u) s = doWhen (s.ready && !s.inRepose && u < numTiles) (fun s => s.chiselForce u) s := rfl
    _ = _ := doWhen_true (by rw [hready, hawake, decide_eq_true hu]; rfl)

theorem exec_chiselReady (hready : s.ready = true) (hu : u < numTiles) :
    exec (.chiselReady u) s = .next (s.chiselReady u) :=
  calc exec (.chiselReady u) s = doWhen (s.ready && u < numTiles) (fun s => s.chiselReady u) s := rfl
    _ = _ := doWhen_true (by rw [hready, decide_eq_true hu]; rfl)

theorem exec_chiselArmWait (hready : s.ready = true) (hu : u < numTiles) :
    exec (.chiselArmWait u) s = .next (s.chiselArmWait u) :=
  calc exec (.chiselArmWait u) s = doWhen (s.ready && u < numTiles) (fun s => s.chiselArmWait u) s := rfl
    _ = _ := doWhen_true (by rw [hready, decide_eq_true hu]; rfl)

theorem exec_chiselStartSignal (hready : s.ready = true) (hawake : s.inRepose = false) (hu : u < numTiles) :
    exec (.chiselStartSignal u) s = .next (s.chiselStart u) :=
  calc exec (.chiselStartSignal u) s =
      doWhen (s.ready && !s.inRepose && u < numTiles) (fun s => s.chiselStart u) s := rfl
    _ = _ := doWhen_true (by rw [hready, hawake, decide_eq_true hu]; rfl)

theorem exec_chiselStarved (hready : s.ready = true) (hawake : s.inRepose = false) (hu : u < numTiles) :
    exec (.chiselStarved u) s = .next (s.chiselStarve u) :=
  calc exec (.chiselStarved u) s = doWhen (s.ready && !s.inRepose && u < numTiles) (fun s => s.chiselStarve u) s := rfl
    _ = _ := doWhen_true (by rw [hready, hawake, decide_eq_true hu]; rfl)

theorem exec_testHoldDrained (hready : s.ready = true) (hu : u < numTiles) :
    exec (.testHoldDrained u) s = .next ((allTiles.foldl State.drainReply s).heldStart u) := by
  rw [← State.testHoldDrained_eq]
  calc exec (.testHoldDrained u) s = doWhen (s.ready && u < numTiles) (fun s => s.testHoldDrained u) s := rfl
    _ = _ := doWhen_true (by rw [hready, decide_eq_true hu]; rfl)

/-! ### Clauses -/

theorem exec_chiselArmWait_witness (hready : s.ready = true) (hu : u < numTiles) (hstate : (s.tile u).chisel.state = 2)
    (hslot : s.slotOf u = some (k, x)) (hrole : x.role = 2) (hover : (s.tile u).chisel.armBeat + s.armWait ≤ s.beat)
    (hne : x.other ≠ u) (hpend : (s.tile u).chisel.pend = false) :
    ∃ t p, exec (.chiselArmWait u) s = .next t ∧ t.slot k = none ∧ t.has p ∧ p.op = 0x11 ∧ p.dests = oneNode u ∧
      OnlyTiles [u, x.other] s t ∧ (t.tile u).chisel.state = (if (s.tile u).chisel.wasDue then 1 else 0) := by
  have heq := exec_chiselArmWait hready hu
  rw [State.chiselArmWait_of_over hstate hover,
    State.disarm_of_idleWitness hslot hrole hne (by rw [hstate]; decide) hpend] at heq
  obtain ⟨p, hp, hop, hdests, -⟩ := s.sends_freed u k
  refine ⟨_, p, heq, s.freed_slot u k, hp, hop, hdests, ?_, ?_⟩
  · exact ((OnlyTiles.freed s u k).mono (by simp)).trans ((OnlyTiles.modChisel _ _ _).mono (by simp))
  · rw [State.tile_modChisel_ne _ _ hne.symm, State.freed_chisel_self]
    rfl

theorem exec_chiselStartSignal_unmapped (hready : s.ready = true) (hawake : s.inRepose = false) (hu : u < numTiles)
    (hslot : s.slotOf u = some (k, x)) (hrole : x.role = 2) (hstate : (s.tile u).chisel.state = 4)
    (hok : s.startOk u = true) (hl : s.logical u = none) :
    ∃ t, exec (.chiselStartSignal u) s = .next t ∧ s.Started t u x := by
  refine ⟨_, exec_chiselStartSignal hready hawake hu, ?_⟩
  rw [State.chiselStart_of_witness hslot hrole hstate hok, State.beginTile_of_unmapped hl]
  exact State.started_seedSend hslot

theorem exec_chiselStartSignal_mapped (hready : s.ready = true) (hawake : s.inRepose = false) (hu : u < numTiles)
    (hslot : s.slotOf u = some (k, x)) (hrole : x.role = 2) (hstate : (s.tile u).chisel.state = 4)
    (hok : s.startOk u = true) (hl : s.logical u = some l) (hopen : s.fenced u = false) :
    ∃ t, exec (.chiselStartSignal u) s = .next t ∧ (s.modChisel u fun c => { c with state := 6 }).Held t u l := by
  refine ⟨_, exec_chiselStartSignal hready hawake hu, ?_⟩
  rw [State.chiselStart_of_witness hslot hrole hstate hok, State.beginTile_of_mapped hl hopen]
  exact State.held_fenceSend _ u l

theorem exec_chiselStarved_forced (hready : s.ready = true) (hawake : s.inRepose = false) (hu : u < numTiles)
    (hstate : (s.tile u).chisel.state = 1) (hforced : (s.tile u).chisel.forced = true)
    (honce : (s.tile u).chisel.startedSlotWait = false) (hmay : s.mayArm u = true)
    (hover : (s.tile u).chisel.forcedBeat + s.forceWait ≤ s.beat) :
    ∃ t, exec (.chiselStarved u) s = .next t ∧ OnlyTiles [u] s t ∧ (t.tile u).chisel.startedSlotWait = true ∧
      (∃ r ∈ t.ev.queue, r.code = 0x62 ∧ r.source = BitVec.ofNat 11 u) ∧
      (t.reg Reg.chiselStarved).toNat = min ((s.reg Reg.chiselStarved).toNat + 1) (regMask Reg.chiselStarved) := by
  refine ⟨_, exec_chiselStarved hready hawake hu, ?_⟩
  rw [State.chiselStarve_of_forced hstate hforced honce hmay hover]
  refine ⟨(OnlyTiles.raiseStarved s u 3).trans (OnlyTiles.modChisel _ u _), by rw [State.tile_modChisel_self],
    ⟨_, List.mem_append_right _ (List.mem_singleton_self _), rfl, rfl⟩, ?_⟩
  exact State.reg_bump_self s Reg.chiselStarved 1 (regMask_lt _)

end

/-! ### The obligation -/

/-- Settles O48, command by command: each step changes the session of its tile as the occasion says, and what it sends
is the packet of its operation. -/
theorem chiselSchedule : Obligations.ChiselSchedule := by
  unfold Obligations.ChiselSchedule
  refine ⟨fun u s hready hawake hu hstate hdue => ?_, fun u s hready hawake hu hnot => ?_,
    fun u s hready hawake hu hstate hforced hmapped hopen hlimit => ?_,
    fun u s hready hu harm hxfers hstalled hstack hnb hat => ?_,
    fun u k x s hready hu hstate hslot hrole hover hne hpend =>
      exec_chiselArmWait_witness hready hu hstate hslot hrole hover hne hpend,
    fun u k x s hready hawake hu hslot hrole hstate hok hl => ?_,
    fun u l k x s hready hawake hu hslot hrole hstate hok hl hlt hopen => ?_,
    fun u s hready hawake hu hstate hforced honce hmay hover =>
      exec_chiselStarved_forced hready hawake hu hstate hforced honce hmay hover,
    fun u s hready hu => ⟨fun l k x hl hstate hslot hdrained => ?_, fun hnot => ?_⟩⟩
  · refine ⟨s.madeDue u, (exec_chiselDue hready hawake hu).trans (congrArg _ (State.chiselDue_of_due hstate hdue)),
      OnlyChanges.modChisel s u _, OnlyTiles.modChisel s u _, ?_⟩
    simp [State.madeDue]
  · exact (exec_chiselDue hready hawake hu).trans (congrArg _ (State.chiselDue_of_not hnot))
  · have hcarries : s.carries u = true := by simp [State.carries, hopen, Option.isSome_iff_ne_none.2 hmapped]
    refine ⟨_, (exec_chiselForced hready hawake hu).trans
      (congrArg _ (State.chiselForce_of_limit hstate hforced hcarries hlimit)), OnlyChanges.modChisel s u _,
      OnlyTiles.modChisel s u _, by rw [State.tile_modChisel_self]⟩
  · have htile := s.tile_stopped_self u
    have hparts := OnlyChanges.chiselSay (s.stopped u) u rkREADY 0xF []
    refine ⟨_, (exec_chiselReady hready hu).trans
      (congrArg _ (State.chiselReady_of_boundary hat harm hxfers hstalled hstack hnb)),
      ((OnlyChanges.stopped s u).mono (by simp)).trans (hparts.mono (by simp)),
      (OnlyTiles.stopped s u).trans (OnlyTiles.of_changes hparts (by simp)), ?_, ?_, ?_, ?_⟩
    · rw [State.tile_chiselSay, htile]
    · rw [State.tile_chiselSay, htile]
    · rw [State.tile_chiselSay, htile]
    · rw [State.chiselSay_lastReply, htile]
  · obtain ⟨t, heq, htiles, hseven, hbeat, hseed, -, _, p, hp, hop, hdests, -, hvc, -⟩ :=
      exec_chiselStartSignal_unmapped hready hawake hu hslot hrole hstate hok hl
    exact ⟨t, p, heq, htiles, hseven, hbeat, hseed, hp, hop, hdests, hvc⟩
  · obtain ⟨t, heq, htiles, hchisel, hheld, hfenced, _, p, hp, hop, -⟩ :=
      exec_chiselStartSignal_mapped hready hawake hu hslot hrole hstate hok hl hopen
    refine ⟨t, p, heq, ((OnlyTiles.modChisel s u _).mono (by simp)).trans (htiles.mono (by simp [State.phys])), ?_,
      hheld hlt, hfenced, hp, hop⟩
    rw [hchisel, State.tile_modChisel_self]
  · obtain ⟨htiles, hseven, -, -, hseg, _, p, hp, hop, -⟩ := State.started_seedSend hslot
    exact ⟨_, p, (exec_testHoldDrained hready hu).trans (congrArg _ (State.heldStart_of_drained hl hstate hdrained)),
      htiles, hseven, hseg, hp, hop⟩
  · exact (exec_testHoldDrained hready hu).trans (congrArg _ (State.heldStart_of_not hnot))

end Sys2Proof.Machine
end


section
/-! SUPPORT. A node operation that is not answered at once, and the operations of a session at their node (R87, R223,
R224, R246). -/

namespace Sys2Proof.Machine

/-! ### A node operation carried out -/

section
variable {s b : State} {n : NodeOp} {op u : Nat} {g : BitVec 16} {data : List Flit}

theorem State.brought_lastReply (s : State) (op : Nat) (n : NodeOp) :
    (s.brought op n).arm.lastReply = s.arm.lastReply := by
  unfold State.brought
  split
  · unfold State.acceptCopy
    dsimp only
    split <;> rfl
  · rfl

/-- The row of an operation that its node takes at once: only packets change from `b`, which carrying it out leaves, and
the last reply is that of `b`. -/
theorem nodeRow_done (h : s.nodeReady op n) (hnode : n.node = u) (hmapgen : n.mapgen = g)
    (hdo : (s.brought op n).nodeDo u op g n.operand data = b) (hparked : b.arm.parked = []) :
    ∃ t, nodeRow op n data s = .next t ∧ OnlyChanges [.arm] b t ∧ t.arm.lastReply = b.arm.lastReply := by
  subst hnode hmapgen
  obtain ⟨hparts, hreply⟩ := b.freeInboxes_frame n.node
  refine ⟨b.freeInboxes n.node, ?_, hparts, hreply⟩
  unfold nodeRow
  rw [doWhen_true (by rw [h.1, decide_eq_true h.2.1]; rfl), State.nodeAccept_of_ready h (by rw [hdo, hparked]), hdo]

/-- The state `a` in which a node carries out an operation differs in packets and records only. -/
theorem nodeRow_carried (h : s.nodeReady op n) (hnode : n.node = u) (hmapgen : n.mapgen = g) (data : List Flit) :
    ∃ a, OnlyChanges [.arm, .ev] s a ∧ a.arm.parked = [] ∧ a.arm.lastReply = s.arm.lastReply ∧
      ∀ b, a.nodeDo u op g n.operand data = b → b.arm.parked = [] →
        ∃ t, nodeRow op n data s = .next t ∧ OnlyChanges [.arm] b t ∧ t.arm.lastReply = b.arm.lastReply :=
  ⟨s.brought op n, OnlyChanges.brought s op n, (s.brought_parked op n).trans h.2.2.1, s.brought_lastReply op n,
    fun _ => nodeRow_done h hnode hmapgen⟩

theorem State.replyPacket_parked (s : State) (u : Nat) (p : List Flit) :
    (s.replyPacket u p).arm.parked = s.arm.parked := by
  unfold State.replyPacket
  dsimp only
  split
  · rfl
  · unfold State.replyNext
    split <;> rfl

theorem State.sendReply_parked (s : State) (u : Nat) (ps : List (List Flit)) :
    (s.sendReply u ps).arm.parked = s.arm.parked := by
  unfold State.sendReply
  exact List.foldlRecOn (motive := fun t : State => t.arm.parked = s.arm.parked) _ _ rfl
    fun t ht p _ => (t.replyPacket_parked u p).trans ht

end

/-! ### What changes in the stack or in the rings alone -/

section
variable (s : State) (u g : Nat)

theorem OnlyChanges.setStack (x : StackSt) : OnlyChanges [.stack] s { s with stack := x } :=
  fun p hp => by cases p <;> simp_all [Same]

theorem OnlyChanges.issueRefresh : OnlyChanges [.stack] s (s.issueRefresh u) := OnlyChanges.setStack s _

theorem OnlyChanges.marchLeft : OnlyChanges [.stack] s (s.marchLeft u g) := by
  unfold State.marchLeft
  split
  · exact OnlyChanges.setStack s _
  · split
    · exact (OnlyChanges.setStack s _).trans (OnlyChanges.issueRefresh _ u)
    · exact OnlyChanges.refl _ s

theorem OnlyChanges.saveImage : OnlyChanges [.stack] s (s.saveImage u) := OnlyChanges.setStack s _

theorem OnlyChanges.stateEntry : OnlyChanges [.dbg, .free] s (s.stateEntry u) := OnlyChanges.hangFree s _ _ _ _ _

@[simp] theorem State.tile_stateEntry (v : Nat) : (s.stateEntry u).tile v = s.tile v :=
  State.tile_of_tiles (OnlyChanges.stateEntry s u .tiles (by simp)) v

/-! ### The list of a node goes on (R213, R246) -/

/-- The node of tile `u` has these segments to run. -/
def State.segsGiven (segs : BitVec 16) : State :=
  s.modChisel u fun c => { c with node.segs := segs, node.segBeat := s.beat }

theorem State.segStart_eq (segs : BitVec 16) : s.segStart u segs =
    if ((s.segsGiven u segs).tile u).chisel.node.slicing then (s.segsGiven u segs).issueRefresh u
    else s.segsGiven u segs := rfl

theorem OnlyChanges.segStart_refresh (segs : BitVec 16) :
    OnlyChanges [.stack] (s.segsGiven u segs) (s.segStart u segs) := by
  rw [State.segStart_eq]
  exact OnlyChanges.ite _ (OnlyChanges.issueRefresh _ u) (OnlyChanges.refl _ _)

theorem OnlyChanges.segStart (segs : BitVec 16) : OnlyChanges [.tiles, .stack] s (s.segStart u segs) :=
  ((OnlyChanges.modChisel s u _).mono (by simp)).trans ((OnlyChanges.segStart_refresh s u segs).mono (by simp))

@[simp] theorem State.tile_segStart (segs : BitVec 16) (v : Nat) :
    (s.segStart u segs).tile v = (s.segsGiven u segs).tile v :=
  State.tile_of_tiles (OnlyChanges.segStart_refresh s u segs .tiles (by simp)) v

theorem State.tile_segsGiven_self (segs : BitVec 16) : (s.segsGiven u segs).tile u =
    { s.tile u with chisel := { (s.tile u).chisel with node.segs := segs, node.segBeat := s.beat } } :=
  State.tile_modChisel_self s u _

theorem OnlyTiles.segStart (segs : BitVec 16) : OnlyTiles [u] s (s.segStart u segs) := fun v hv => by
  rw [State.tile_segStart]
  exact OnlyTiles.modChisel s u _ v hv

/-- SLICE_S begins with its refresh issued, and nothing else of the stack changes. -/
theorem State.segStart_stack (segs : BitVec 16) :
    ∃ r, (s.segStart u segs).stack = { s.stack with refresh := r } := by
  rw [State.segStart_eq]
  split
  · exact ⟨_, rfl⟩
  · exact ⟨s.stack.refresh, rfl⟩

end

end Sys2Proof.Machine
end


section
/-! PROOF. CHISEL_START, CHISEL_ABORT and SEED_LOAD at a node (R223, R224, R236, R246). -/

namespace Sys2Proof.Machine

section
variable {n : NodeOp} {f u : Nat} {s : State}

/-! ### CHISEL_START arms a node (R246, Table 7.17) -/

/-- The node of a tile as a function of CHISEL_START arms it. -/
def armedNode (f : Nat) (o : BitVec 96) : ChiselNode :=
  { arm := f + 1, slot := ofld o 93 89, partner := ofld o 88 78, units := BitVec.ofNat 16 (ofld o 77 62)
    session := BitVec.ofNat 32 (ofld o 47 16) }

/-- Tile `u` is armed, and its ring notes it. -/
def State.nodeArmed (s : State) (u f : Nat) (o : BitVec 96) : State :=
  (s.modChisel u fun c => { c with node := armedNode f o }).stateEntry u

theorem OnlyChanges.nodeArmed (s : State) (u f : Nat) (o : BitVec 96) :
    OnlyChanges [.tiles, .dbg, .free] s (s.nodeArmed u f o) :=
  ((OnlyChanges.modChisel s u _).mono (by simp)).trans ((OnlyChanges.stateEntry _ u).mono (by simp))

theorem OnlyTiles.nodeArmed (s : State) (u f : Nat) (o : BitVec 96) : OnlyTiles [u] s (s.nodeArmed u f o) :=
  (OnlyTiles.modChisel s u _).trans (OnlyTiles.of_changes (OnlyChanges.stateEntry _ u) (by simp))

theorem State.chisel_nodeArmed (s : State) (u f : Nat) (o : BitVec 96) :
    ((s.nodeArmed u f o).tile u).chisel = { (s.tile u).chisel with node := armedNode f o } := by
  rw [State.nodeArmed, State.tile_stateEntry, State.tile_modChisel_self]

theorem ofld_chiselFunc (hf : f < 4) : ofld (withFunc n 2 f).operand 95 94 = f :=
  ofld_withFunc_func (w := 2) (by decide) hf

theorem armedNode_withFunc : armedNode f (withFunc n 2 f).operand = armedNode f n.operand := by simp [armedNode]

theorem State.nodeChiselArm_eq (s : State) (u : Nat) (o : BitVec 96) : s.nodeChiselArm u o =
    if (s.tile u).chisel.node.arm ≠ 0 then s.reply u rIN_CHISEL
    else if (s.tile u).chisel.state = 4 then (s.nodeArmed u (ofld o 95 94) o).chiselSay u rkREADY 0xF []
    else s.nodeArmed u (ofld o 95 94) o := by
  simp only [State.nodeChiselArm, bne_iff_ne, beq_iff_eq]
  rfl

/-- What a node makes of an ARM function of CHISEL_START. -/
theorem State.nodeDo_chiselArm (a : State) (hok : chiselStartOk (withFunc n 2 f).operand = true) (hf : f < 3) :
    a.nodeDo n.node 0x10 n.mapgen (withFunc n 2 f).operand [] =
      if (a.tile n.node).chisel.node.arm ≠ 0 then a.reply n.node rIN_CHISEL
      else if (a.tile n.node).chisel.state = 4 then (a.nodeArmed n.node f n.operand).chiselSay n.node rkREADY 0xF []
      else a.nodeArmed n.node f n.operand := by
  have hthree : ¬ (f == 3) = true := by simp; omega
  have harmed : a.nodeArmed n.node f (withFunc n 2 f).operand = a.nodeArmed n.node f n.operand := by
    rw [State.nodeArmed, armedNode_withFunc, State.nodeArmed]
  rw [State.nodeDo, State.nodeChiselStart, hok, State.nodeChiselArm_eq, ofld_chiselFunc (by omega), harmed,
    if_neg (by decide), if_neg hthree]

theorem State.nodeDo_chiselStart_bad (a : State) (hbad : ¬ chiselStartOk (withFunc n 2 f).operand = true) :
    a.nodeDo n.node 0x10 n.mapgen (withFunc n 2 f).operand [] = a.reply n.node rREJECTED := by
  rw [State.nodeDo, State.nodeChiselStart, if_pos (by simpa using hbad), State.replyRejected]

/-- An operation that its node answers and that changes nothing else. -/
theorem nodeRow_refused {op r : Nat} (h : s.nodeReady op (withFunc n 2 f))
    (hdo : ∀ a : State, a.tiles = s.tiles → 
      a.nodeDo n.node op n.mapgen (withFunc n 2 f).operand [] = a.reply n.node r) :
    ∃ t, nodeRow op (withFunc n 2 f) [] s = .next t ∧ t.replied n.node r ∧ OnlyChanges [.arm, .ev] s t := by
  obtain ⟨a, hbrought, hparked, -, hrow⟩ := nodeRow_carried h (withFunc_node n 2 f) (withFunc_mapgen n 2 f) []
  obtain ⟨t, heq, hparts, hreply⟩ := hrow _ (hdo a (hbrought .tiles (by simp))) (by rw [State.reply_parked, hparked])
  exact ⟨t, heq, State.replied_of_reply hreply,
    (hbrought.trans ((OnlyChanges.reply a _ _).mono (by simp))).trans (hparts.mono (by simp))⟩

/-- A node that is not armed is armed; a READY tile says so at once. -/
theorem nodeRow_chiselArm_free (h : s.nodeReady 0x10 (withFunc n 2 f)) (hf : f < 3)
    (hok : chiselStartOk (withFunc n 2 f).operand = true) (hfree : (s.tile n.node).chisel.node.arm = 0) :
    ∃ t, nodeRow 0x10 (withFunc n 2 f) [] s = .next t ∧ OnlyTiles [n.node] s t ∧
      OnlyChanges [.tiles, .dbg, .arm, .ev, .free] s t ∧
      (t.tile n.node).chisel = { (s.tile n.node).chisel with node := armedNode f n.operand } ∧
      ((s.tile n.node).chisel.state ≠ 4 → t.arm.lastReply = s.arm.lastReply) ∧
      ((s.tile n.node).chisel.state = 4 → t.arm.lastReply =
        some (n.node, (chiselPackets rkREADY 0xF (armedNode f n.operand).session []).flatten)) := by
  obtain ⟨a, hbrought, hparked, hlast, hrow⟩ := nodeRow_carried h (withFunc_node n 2 f) (withFunc_mapgen n 2 f) []
  have hdo := a.nodeDo_chiselArm hok hf
  have htiles : a.tiles = s.tiles := hbrought .tiles (by simp)
  have htile := State.tile_of_tiles htiles n.node
  have hchisel := a.chisel_nodeArmed n.node f n.operand
  have harmed := OnlyChanges.nodeArmed a n.node f n.operand
  have hone : OnlyTiles [n.node] s (a.nodeArmed n.node f n.operand) :=
    (OnlyTiles.of_tiles htiles).trans (OnlyTiles.nodeArmed a n.node f n.operand)
  have hparts := (hbrought.mono (by simp)).trans (harmed.mono (qs := [.tiles, .dbg, .arm, .ev, .free]) (by simp))
  have harm : (a.nodeArmed n.node f n.operand).arm = a.arm := harmed .arm (by simp)
  rw [htile, if_neg (not_not.2 hfree)] at hdo
  rw [htile] at hchisel
  by_cases hstate : (s.tile n.node).chisel.state = 4
  · rw [if_pos hstate] at hdo
    have hsay := OnlyChanges.chiselSay (a.nodeArmed n.node f n.operand) n.node rkREADY 0xF []
    obtain ⟨t, heq, hdone, hreply⟩ := hrow _ hdo (by rw [State.chiselSay, State.sendReply_parked, harm, hparked])
    have hsaid := hsay.trans hdone
    refine ⟨t, heq, hone.trans (OnlyTiles.of_changes hsaid (by simp)), hparts.trans (hsaid.mono (by simp)), ?_,
      fun hne => absurd hstate hne, fun _ => ?_⟩
    · rw [State.tile_of_tiles (hsaid .tiles (by simp)), hchisel]
    · rw [hreply, State.chiselSay_lastReply, hchisel]
  · rw [if_neg hstate] at hdo
    obtain ⟨t, heq, hdone, hreply⟩ := hrow _ hdo (by rw [harm, hparked])
    refine ⟨t, heq, hone.trans (OnlyTiles.of_changes hdone (by simp)), hparts.trans (hdone.mono (by simp)), ?_,
      fun _ => by rw [hreply, harm, hlast], fun h4 => absurd h4 hstate⟩
    rw [State.tile_of_tiles (hdone .tiles (by simp)), hchisel]

/-- A node that is armed answers IN_CHISEL. -/
theorem nodeRow_chiselArm_busy (h : s.nodeReady 0x10 (withFunc n 2 f)) (hf : f < 3)
    (hok : chiselStartOk (withFunc n 2 f).operand = true) (hbusy : (s.tile n.node).chisel.node.arm ≠ 0) :
    ∃ t, nodeRow 0x10 (withFunc n 2 f) [] s = .next t ∧ t.replied n.node rIN_CHISEL ∧ OnlyChanges [.arm, .ev] s t :=
  nodeRow_refused h fun a ha => by
    rw [State.nodeDo_chiselArm a hok hf, State.tile_of_tiles ha, if_pos hbusy]

/-- A node refuses an operand with a field out of range. -/
theorem nodeRow_chiselStart_bad (h : s.nodeReady 0x10 (withFunc n 2 f))
    (hbad : ¬ chiselStartOk (withFunc n 2 f).operand = true) :
    ∃ t, nodeRow 0x10 (withFunc n 2 f) [] s = .next t ∧ t.replied n.node rREJECTED ∧ OnlyChanges [.arm, .ev] s t :=
  nodeRow_refused h fun a _ => a.nodeDo_chiselStart_bad hbad

/-! ### CONTINUE (R236, R246) -/

theorem State.nodeDo_chiselContinue (a : State) (hok : chiselStartOk (withFunc n 2 3).operand = true) :
    a.nodeDo n.node 0x10 n.mapgen (withFunc n 2 3).operand [] =
      (a.segStart n.node (BitVec.ofNat 16 (ofld n.operand 61 48))).stateEntry n.node := by
  have hsegs : ofld (withFunc n 2 3).operand 61 48 = ofld n.operand 61 48 := ofld_withFunc_low (by decide)
  rw [State.nodeDo, State.nodeChiselStart, hok, ofld_chiselFunc (by decide), if_neg (by decide), if_pos (by decide),
    State.nodeChiselContinue, hsegs]

theorem nodeRow_chiselContinue (h : s.nodeReady 0x10 (withFunc n 2 3))
    (hok : chiselStartOk (withFunc n 2 3).operand = true) :
    ∃ t, nodeRow 0x10 (withFunc n 2 3) [] s = .next t ∧ OnlyTiles [n.node] s t ∧ t.arm.lastReply = s.arm.lastReply ∧
      (t.tile n.node).chisel = { (s.tile n.node).chisel with
        node.segs := BitVec.ofNat 16 (ofld n.operand 61 48), node.segBeat := s.beat } := by
  obtain ⟨a, hbrought, hparked, hlast, hrow⟩ := nodeRow_carried h (withFunc_node n 2 3) (withFunc_mapgen n 2 3) []
  have hdo := a.nodeDo_chiselContinue hok
  have htiles : a.tiles = s.tiles := hbrought .tiles (by simp)
  have hbeat : a.beat = s.beat := congrArg (fun x => x.time.toNat / beatCycles) (hbrought .time (by simp))
  generalize BitVec.ofNat 16 (ofld n.operand 61 48) = segs at hdo ⊢
  have hgo := ((OnlyChanges.segStart a n.node segs).mono (qs := [.tiles, .stack, .dbg, .free]) (by simp)).trans
    ((OnlyChanges.stateEntry _ n.node).mono (by simp))
  have harm : ((a.segStart n.node segs).stateEntry n.node).arm = a.arm := hgo .arm (by simp)
  obtain ⟨t, heq, hdone, hreply⟩ := hrow _ hdo (by rw [harm, hparked])
  refine ⟨t, heq, fun v hv => ?_, by rw [hreply, harm, hlast], ?_⟩
  · rw [State.tile_of_tiles (hdone .tiles (by simp)), State.tile_stateEntry, OnlyTiles.segStart a n.node segs v hv,
      State.tile_of_tiles htiles]
  · rw [State.tile_of_tiles (hdone .tiles (by simp)), State.tile_stateEntry, State.tile_segStart,
      State.tile_segsGiven_self, State.tile_of_tiles htiles, hbeat]

/-! ### CHISEL_ABORT (R225, R236, R246) -/

/-- The node of tile `u` ends its list by function `f` of CHISEL_ABORT. -/
def State.nodeEnded (s : State) (u f : Nat) (o : BitVec 96) : State :=
  s.modChisel u fun c => { c with
    node.segs := 0, node.finish := f, node.reason := ofld o 88 84, node.retire := f == 1 && ofld o 83 83 == 1
    node.rowBad := if f == 1 then BitVec.ofNat 66 (ofld o 82 17) else 0 }

/-- The memory that the running segment marches over has its pattern. -/
def State.marchEnded (s : State) (u : Nat) : State :=
  match (members (s.tile u).chisel.node.segs).head? with
  | some g => s.marchLeft u g
  | none => s

theorem OnlyChanges.marchEnded (s : State) (u : Nat) : OnlyChanges [.stack] s (s.marchEnded u) := by
  unfold State.marchEnded
  split
  · exact OnlyChanges.marchLeft s u _
  · exact OnlyChanges.refl _ s

theorem State.nodeReinit_eq (s : State) (u : Nat) (o : BitVec 96) :
    s.nodeReinit u o = (((s.marchEnded u).nodeEnded u (ofld o 95 94) o).stateEntry u).reply u rDONE := rfl

theorem State.nodeEnded_withFunc (s : State) (u : Nat) :
    s.nodeEnded u f (withFunc n 2 f).operand = s.nodeEnded u f n.operand := by simp [State.nodeEnded]

theorem State.nodeDo_chiselEnd (a : State) (hok : chiselAbortOk (withFunc n 2 f).operand = true) (hf : f = 1 ∨ f = 2) :
    a.nodeDo n.node 0x11 n.mapgen (withFunc n 2 f).operand [] =
      (((a.marchEnded n.node).nodeEnded n.node f n.operand).stateEntry n.node).reply n.node rDONE := by
  have hzero : ¬ (f == 0) = true := by rcases hf with rfl | rfl <;> decide
  rw [State.nodeDo, State.nodeChiselAbort, hok, if_neg (by decide), State.nodeReinit_eq, ofld_chiselFunc (by omega),
    if_neg hzero, State.nodeEnded_withFunc]

theorem nodeRow_chiselEnd (h : s.nodeReady 0x11 (withFunc n 2 f)) (hf : f = 1 ∨ f = 2)
    (hok : chiselAbortOk (withFunc n 2 f).operand = true) :
    ∃ t, nodeRow 0x11 (withFunc n 2 f) [] s = .next t ∧ t.replied n.node rDONE ∧ OnlyTiles [n.node] s t ∧
      (t.tile n.node).chisel = { (s.tile n.node).chisel with
        node.segs := 0, node.finish := f, node.reason := ofld n.operand 88 84
        node.retire := f == 1 && ofld n.operand 83 83 == 1
        node.rowBad := if f == 1 then BitVec.ofNat 66 (ofld n.operand 82 17) else 0 } := by
  obtain ⟨a, hbrought, hparked, -, hrow⟩ := nodeRow_carried h (withFunc_node n 2 f) (withFunc_mapgen n 2 f) []
  have hmarch := OnlyChanges.marchEnded a n.node
  have hentry := OnlyChanges.stateEntry ((a.marchEnded n.node).nodeEnded n.node f n.operand) n.node
  have harm : (((a.marchEnded n.node).nodeEnded n.node f n.operand).stateEntry n.node).arm = a.arm :=
    (hentry .arm (by simp)).trans (hmarch .arm (by simp))
  have htiles : (a.marchEnded n.node).tiles = s.tiles := (hmarch .tiles (by simp)).trans (hbrought .tiles (by simp))
  obtain ⟨t, heq, hdone, hreply⟩ := hrow _ (a.nodeDo_chiselEnd hok hf) (by rw [State.reply_parked, harm, hparked])
  have htile (v : Nat) : t.tile v = ((a.marchEnded n.node).nodeEnded n.node f n.operand).tile v := by
    rw [State.tile_of_tiles (hdone .tiles (by simp)), State.tile_of_tiles (OnlyChanges.reply _ _ _ .tiles (by simp)),
      State.tile_stateEntry]
  refine ⟨t, heq, State.replied_of_reply hreply, fun v hv => ?_, ?_⟩
  · rw [htile, State.nodeEnded, OnlyTiles.modChisel _ _ _ v hv, State.tile_of_tiles htiles]
  · rw [htile, State.nodeEnded, State.tile_modChisel_self, State.tile_of_tiles htiles]

/-- The session of tile `u` is gone from its node; the stream goes on unless the tile is RETIRED. -/
def State.nodeCleared (s : State) (u : Nat) : State :=
  (s.modChisel u fun c => { c with node := {} }).modCore u fun c =>
    { c with chiselStop := c.chiselStop && (s.tile u).chisel.state == 10 }

theorem State.nodeDo_chiselDisarm (a : State) (hok : chiselAbortOk (withFunc n 2 0).operand = true) :
    a.nodeDo n.node 0x11 n.mapgen (withFunc n 2 0).operand [] =
      ((a.nodeCleared n.node).stateEntry n.node).reply n.node rDONE := by
  rw [State.nodeDo, State.nodeChiselAbort, hok, if_neg (by decide), ofld_chiselFunc (by decide), if_pos (by decide),
    State.nodeDisarm, State.nodeCleared]

theorem nodeRow_chiselDisarm (h : s.nodeReady 0x11 (withFunc n 2 0))
    (hok : chiselAbortOk (withFunc n 2 0).operand = true) :
    ∃ t, nodeRow 0x11 (withFunc n 2 0) [] s = .next t ∧ t.replied n.node rDONE ∧ (t.tile n.node).chisel.node = {} ∧
      OnlyTiles [n.node] s t ∧ OnlyChanges [.tiles, .dbg, .arm, .ev, .free] s t ∧
      ((s.tile n.node).chisel.state ≠ 10 → (t.tile n.node).core.chiselStop = false) := by
  obtain ⟨a, hbrought, hparked, -, hrow⟩ := nodeRow_carried h (withFunc_node n 2 0) (withFunc_mapgen n 2 0) []
  have htiles : a.tiles = s.tiles := hbrought .tiles (by simp)
  have hclear : OnlyChanges [.tiles, .dbg, .free] a ((a.nodeCleared n.node).stateEntry n.node) :=
    (((OnlyChanges.modChisel a _ _).mono (by simp)).trans ((OnlyChanges.modCore _ _ _).mono (by simp))).trans
      ((OnlyChanges.stateEntry _ _).mono (by simp))
  have harm : ((a.nodeCleared n.node).stateEntry n.node).arm = a.arm := hclear .arm (by simp)
  obtain ⟨t, heq, hdone, hreply⟩ := hrow _ (a.nodeDo_chiselDisarm hok) (by rw [State.reply_parked, harm, hparked])
  have hsent := (OnlyChanges.reply _ _ _).trans hdone
  have htile (v : Nat) : t.tile v = (a.nodeCleared n.node).tile v := by
    rw [State.tile_of_tiles (hsent .tiles (by simp)), State.tile_stateEntry]
  refine ⟨t, heq, State.replied_of_reply hreply, ?_, fun v hv => ?_, ?_, fun hstate => ?_⟩
  · rw [htile, State.nodeCleared, State.tile_modCore_self, State.tile_modChisel_self]
  · rw [htile, State.nodeCleared, OnlyTiles.modCore _ _ _ v hv, OnlyTiles.modChisel _ _ _ v hv,
      State.tile_of_tiles htiles]
  · exact ((hbrought.mono (by simp)).trans (hclear.mono (by simp))).trans (hsent.mono (by simp))
  · rw [htile, State.nodeCleared, State.tile_modCore_self, State.tile_of_tiles htiles, beq_false_of_ne hstate,
      Bool.and_false]

/-! ### SEED_LOAD (R216, R224) -/

/-- Within the range that is put in its place, the memory is the other one. -/
theorem Memory.read_spliceTbl (m other : Memory) {a n j : Nat} (hlo : a ≤ j) (hhi : j < a + n) :
    Memory.read (spliceTbl m other a n) j = Memory.read other j := by
  unfold Memory.read spliceTbl
  rw [tget_append_left, tget_append_right, tget_filter Memory.blank other fun i => decide (a ≤ i) && decide (i < a + n),
    if_pos (by simp [hlo, hhi])]
  · intro e he hkey
    simp only [List.mem_filter, decide_eq_true_eq] at he
    omega
  · intro e he hkey
    simp only [List.mem_filter, decide_eq_true_eq] at he
    omega

/-- The image of tile `u` is in its save area, with its state. -/
def State.saved (s : State) (u : Nat) : State :=
  { (s.saveImage u).modChisel u fun c => { c with saved := true } with stack.save := tset {} s.stack.save u (s.tile u) }

theorem OnlyChanges.saved (s : State) (u : Nat) : OnlyChanges [.tiles, .stack] s (s.saved u) :=
  (((OnlyChanges.saveImage s u).mono (by simp)).trans ((OnlyChanges.modChisel _ u _).mono (by simp))).trans
    ((OnlyChanges.setStack _ _).mono (by simp))

theorem State.tile_saved (s : State) (u v : Nat) :
    (s.saved u).tile v = (s.modChisel u fun c => { c with saved := true }).tile v := rfl

/-- The state in which tile `u` takes its seed: its image is saved where it carries a logical tile. -/
def State.seedReady (s : State) (u : Nat) : State := if (s.tile u).chisel.carried then s.saved u else s

theorem OnlyChanges.seedReady (s : State) (u : Nat) : OnlyChanges [.tiles, .stack] s (s.seedReady u) :=
  OnlyChanges.ite _ (OnlyChanges.saved s u) (OnlyChanges.refl _ s)

theorem OnlyTiles.seedReady (s : State) (u : Nat) : OnlyTiles [u] s (s.seedReady u) := by
  unfold State.seedReady
  split
  · exact fun v hv => (s.tile_saved u v).trans (OnlyTiles.modChisel s u _ v hv)
  · exact OnlyTiles.refl _ s

/-- The node of tile `u` has its seed. -/
def State.seeded (s : State) (u : Nat) (o : BitVec 96) : State :=
  s.modChisel u fun c => { c with node.seed := BitVec.ofNat 64 (ofld o 63 0) }

theorem State.nodeSeedLoad_eq (s : State) (u : Nat) (o : BitVec 96) : s.nodeSeedLoad u o =
    ((((s.seedReady u).seeded u o).segStart u (BitVec.ofNat 16 (ofld o 90 77))).stateEntry u).reply u rDONE := rfl

/-- SEED_LOAD is carried out in a state `a` that differs in packets and records only. -/
theorem nodeRow_seedLoad (h : s.nodeReady 0x31 n) : ∃ a t, OnlyChanges [.arm, .ev] s a ∧
    nodeRow 0x31 n [] s = .next t ∧ t.replied n.node rDONE ∧ OnlyTiles [n.node] s t ∧
    (t.tile n.node).chisel = { ((a.seedReady n.node).tile n.node).chisel with
      node.seed := BitVec.ofNat 64 (ofld n.operand 63 0), node.segs := BitVec.ofNat 16 (ofld n.operand 90 77)
      node.segBeat := s.beat } ∧
    ∃ r, t.stack = { (a.seedReady n.node).stack with refresh := r } := by
  obtain ⟨a, hbrought, hparked, -, hrow⟩ := nodeRow_carried h rfl rfl []
  have hsaved := OnlyChanges.seedReady a n.node
  have hone := OnlyTiles.seedReady a n.node
  have hbeat : ((a.seedReady n.node).seeded n.node n.operand).beat = s.beat :=
    congrArg (fun x => x.time.toNat / beatCycles) ((hsaved .time (by simp)).trans (hbrought .time (by simp)))
  have hdo : a.nodeDo n.node 0x31 n.mapgen n.operand [] = _ := a.nodeSeedLoad_eq n.node n.operand
  have hpark := hsaved .arm (by simp)
  refine ⟨a, ?_⟩
  generalize a.seedReady n.node = b at hsaved hone hbeat hdo hpark ⊢
  generalize BitVec.ofNat 16 (ofld n.operand 90 77) = segs at hdo ⊢
  have hstart := OnlyChanges.segStart (b.seeded n.node n.operand) n.node segs
  have hentry := OnlyChanges.stateEntry ((b.seeded n.node n.operand).segStart n.node segs) n.node
  have harm : (((b.seeded n.node n.operand).segStart n.node segs).stateEntry n.node).arm = a.arm :=
    (hentry .arm (by simp)).trans ((hstart .arm (by simp)).trans hpark)
  obtain ⟨t, heq, hdone, hreply⟩ := hrow _ hdo (by rw [State.reply_parked, harm, hparked])
  have hsent := (OnlyChanges.reply _ _ _).trans hdone
  have htile (v : Nat) : t.tile v = ((b.seeded n.node n.operand).segsGiven n.node segs).tile v := by
    rw [State.tile_of_tiles (hsent .tiles (by simp)), State.tile_stateEntry, State.tile_segStart]
  obtain ⟨r, hr⟩ := State.segStart_stack (b.seeded n.node n.operand) n.node segs
  refine ⟨t, hbrought, heq, State.replied_of_reply hreply, fun v hv => ?_, ?_, r, ?_⟩
  · rw [htile, State.segsGiven, OnlyTiles.modChisel _ _ _ v hv, State.seeded, OnlyTiles.modChisel _ _ _ v hv, hone v hv,
      State.tile_of_tiles (hbrought .tiles (by simp))]
  · rw [htile, State.tile_segsGiven_self, hbeat, State.seeded, State.tile_modChisel_self]
  · exact (hsent .stack (by simp)).trans ((hentry .stack (by simp)).trans hr)

theorem nodeRow_seedLoad_carried (h : s.nodeReady 0x31 n) (hcarried : (s.tile n.node).chisel.carried = true) :
    ∃ t, nodeRow 0x31 n [] s = .next t ∧ t.replied n.node rDONE ∧ OnlyTiles [n.node] s t ∧
      tget {} t.stack.save n.node = s.tile n.node ∧
      (t.tile n.node).chisel.saved = true ∧ (t.tile n.node).chisel.node.seed = BitVec.ofNat 64 (ofld n.operand 63 0) ∧
      (t.tile n.node).chisel.node.segs = BitVec.ofNat 16 (ofld n.operand 90 77) ∧
      t.stack.sram = s.stack.sram ∧ t.stack.mem = s.stack.mem ∧
      (∀ a, n.node * sramBlocks * blockBytes ≤ a → a < (n.node + 1) * sramBlocks * blockBytes →
        t.stack.saveSram.read a = s.stack.sram.read a) := by
  obtain ⟨a, t, hbrought, heq, hreply, htiles, hchisel, r, hstack⟩ := nodeRow_seedLoad h
  have htile := State.tile_of_tiles (hbrought .tiles (by simp)) n.node
  have hsame : a.stack = s.stack := hbrought .stack (by simp)
  have hready : a.seedReady n.node = a.saved n.node := if_pos (by rw [htile, hcarried])
  rw [hready] at hchisel hstack
  refine ⟨t, heq, hreply, htiles, ?_, by rw [hchisel, State.tile_saved, State.tile_modChisel_self], by rw [hchisel],
    by rw [hchisel], ?_, ?_, fun j hlo hhi => ?_⟩
  · rw [hstack, ← htile]
    exact tget_tset_self _ _ _ _
  · rw [hstack, ← hsame]
    rfl
  · rw [hstack, ← hsame]
    rfl
  · rw [hstack, ← hsame]
    exact Memory.read_spliceTbl _ _ hlo (by rw [Nat.add_mul, Nat.add_mul, Nat.one_mul] at hhi; exact hhi)

theorem nodeRow_seedLoad_spare (h : s.nodeReady 0x31 n) (hspare : (s.tile n.node).chisel.carried = false) :
    ∃ t, nodeRow 0x31 n [] s = .next t ∧ t.replied n.node rDONE ∧ OnlyTiles [n.node] s t ∧
      (t.tile n.node).chisel = { (s.tile n.node).chisel with
        node.seed := BitVec.ofNat 64 (ofld n.operand 63 0), node.segs := BitVec.ofNat 16 (ofld n.operand 90 77)
        node.segBeat := s.beat } ∧
      t.stack.sram = s.stack.sram ∧ t.stack.mem = s.stack.mem ∧ t.stack.save = s.stack.save := by
  obtain ⟨a, t, hbrought, heq, hreply, htiles, hchisel, r, hstack⟩ := nodeRow_seedLoad h
  have htile := State.tile_of_tiles (hbrought .tiles (by simp)) n.node
  have hsame : a.stack = s.stack := hbrought .stack (by simp)
  have hready : a.seedReady n.node = a := if_neg (by rw [htile, hspare]; decide)
  rw [hready, hsame] at hstack
  rw [hready, htile] at hchisel
  exact ⟨t, heq, hreply, htiles, hchisel, by rw [hstack], by rw [hstack], by rw [hstack]⟩

end

end Sys2Proof.Machine
end


section
/-! SUPPORT. What the disarming of a tile leaves of its session and of those of the other tiles (R228, R229,
Table 7.6). -/

namespace Sys2Proof.Machine

section
variable {s : State} {u v k : Nat} {x : Slot} {c d e : ChiselTile}

/-- Two sessions of a tile differ in its units and its witnesses alone. -/
def ChiselTile.SameDue (c d : ChiselTile) : Prop := ∃ units witness, d = { c with units, witness }

theorem ChiselTile.SameDue.refl (c : ChiselTile) : c.SameDue c := ⟨c.units, c.witness, rfl⟩

theorem ChiselTile.SameDue.trans (h : c.SameDue d) (h' : d.SameDue e) : c.SameDue e := by
  obtain ⟨_, _, rfl⟩ := h
  obtain ⟨units, witness, rfl⟩ := h'
  exact ⟨units, witness, rfl⟩

theorem State.sameDue_modChisel {f : ChiselTile → ChiselTile} (hf : ∀ c : ChiselTile, c.SameDue (f c)) (s : State)
    (u v : Nat) : ((s.tile v).chisel).SameDue ((s.modChisel u f).tile v).chisel := by
  rw [State.chisel_modChisel]
  split
  · exact hf _
  · exact ChiselTile.SameDue.refl _

theorem State.sameDue_witnessDropped (s : State) (u : Nat) (x : Slot) (v : Nat) :
    ((s.tile v).chisel).SameDue ((s.witnessDropped u x).tile v).chisel := by
  unfold State.witnessDropped
  split
  · exact State.sameDue_modChisel (fun c => ⟨c.units, _, rfl⟩) s _ v
  · exact ChiselTile.SameDue.refl _

/-- The session of a tile that becomes due for `cause` at this beat (R229). -/
def calledChisel (beat cause : Nat) (units : BitVec 16) (c : ChiselTile) : ChiselTile :=
  let fresh := c.state == 0 || (2 ≤ c.state && !c.wasDue)
  { c with
    state := if c.state == 0 then 1 else c.state
    wasDue := c.wasDue || 2 ≤ c.state
    dueUnits := if fresh then units else c.dueUnits ||| units
    cause := if fresh || causeRank c.cause < causeRank cause then cause else c.cause
    forced := true
    deferred := if fresh then 0 else c.deferred
    ext := if fresh then 0 else c.ext
    dueBeat := if fresh then beat else c.dueBeat
    forcedBeat := if c.forced && !fresh then c.forcedBeat else beat
    startedSlotWait := if c.forced && !fresh then c.startedSlotWait else false }

/-- The session of an armed pair takes these units too. -/
def State.unitsJoined (s : State) (u : Nat) (units : BitVec 16) : State :=
  match s.slotOf u with
  | some (_, x) =>
    if x.role == 2 then s
    else [u, x.other].foldl (fun s u => s.modChisel u fun c => { c with units := c.units ||| units }) s
  | none => s

theorem State.chiselCall_eq (s : State) (u cause : Nat) (units : BitVec 16) :
    s.chiselCall u cause units = (s.modChisel u (calledChisel s.beat cause units)).unitsJoined u units := rfl

theorem State.sameDue_unitsJoined (s : State) (u : Nat) (units : BitVec 16) (v : Nat) :
    ((s.tile v).chisel).SameDue ((s.unitsJoined u units).tile v).chisel := by
  unfold State.unitsJoined
  split
  · split
    · exact ChiselTile.SameDue.refl _
    · refine List.foldlRecOn (motive := fun t : State => ((s.tile v).chisel).SameDue (t.tile v).chisel) _ _
        (ChiselTile.SameDue.refl _) fun t ht w _ => ht.trans ?_
      exact State.sameDue_modChisel (fun c => ⟨_, c.witness, rfl⟩) t w v
  · exact ChiselTile.SameDue.refl _

/-- A call for a session of tile `u` joins its units with those of its partner, and changes no other tile. -/
theorem State.sameDue_chiselCall (s : State) (u cause : Nat) (units : BitVec 16) (hv : v ≠ u) :
    ((s.tile v).chisel).SameDue ((s.chiselCall u cause units).tile v).chisel := by
  have hjoined := (s.modChisel u (calledChisel s.beat cause units)).sameDue_unitsJoined u units v
  rw [State.tile_modChisel_ne _ _ hv] at hjoined
  exact hjoined

theorem State.sameDue_chiselPend (s : State) (hv : v ≠ u) :
    ((s.tile v).chisel).SameDue ((s.chiselPend u).tile v).chisel := by
  unfold State.chiselPend
  split
  · refine ChiselTile.SameDue.trans ?_ (State.sameDue_chiselCall _ u 1 s.schedMask hv)
    rw [State.tile_modChisel_ne _ _ hv]
    exact ChiselTile.SameDue.refl _
  · exact ChiselTile.SameDue.refl _

/-- The disarming of one tile leaves the sessions of the others. -/
theorem State.sameDue_disarmOne (s : State) (hstate : (s.tile u).chisel.state ≠ 6) (hv : v ≠ u) :
    ((s.tile v).chisel).SameDue ((s.disarmOne u).tile v).chisel := by
  cases hslot : s.slotOf u with
  | none =>
    rw [State.disarmOne, hslot]
    exact ChiselTile.SameDue.refl _
  | some e =>
    obtain ⟨k, x⟩ := e
    rw [State.disarmOne_of_slot hslot hstate]
    have hfreed : ((s.freed u k).tile v).chisel = (s.tile v).chisel :=
      congrArg Tile.chisel (OnlyTiles.freed s u k v (by simpa using hv))
    have hdropped := (s.freed u k).sameDue_witnessDropped u x v
    rw [hfreed] at hdropped
    exact hdropped.trans (State.sameDue_chiselPend _ hv)

/-- A tile is disarmed and no session waits for its end. -/
theorem State.sameDue_disarmOne_self (hslot : s.slotOf u = some (k, x)) (hstate : (s.tile u).chisel.state ≠ 6)
    (hpend : (s.tile u).chisel.pend = false) :
    (disarmedChisel s.deferLimit (s.tile u).chisel).SameDue ((s.disarmOne u).tile u).chisel := by
  have hdropped := (s.freed u k).sameDue_witnessDropped u x u
  rw [State.freed_chisel_self] at hdropped
  have hquiet : (((s.freed u k).witnessDropped u x).tile u).chisel.pend = false := by
    obtain ⟨units, witness, heq⟩ := hdropped
    rw [heq]
    exact hpend
  rw [State.disarmOne_of_slot hslot hstate, State.chiselPend_of_not hquiet]
  exact hdropped

/-- The other tile of the pair of `u`, after `u` is disarmed: it is disarmed with it where it waits for the same
session. -/
def State.partnerFreed (s : State) (u v : Nat) : State :=
  match s.slotOf v with
  | some (_, y) => if y.other == u && y.role != 2 && (s.tile v).chisel.state ≤ 5 then s.disarmOne v else s
  | none => s

theorem State.disarm_of_slot (hslot : s.slotOf u = some (k, x)) :
    s.disarm u = if x.role = 2 then s.disarmOne u else (s.disarmOne u).partnerFreed u x.other := by
  unfold State.disarm
  rw [hslot]
  simp only [beq_iff_eq]
  rfl

theorem State.partnerFreed_cases (s : State) (u v : Nat) : s.partnerFreed u v = s ∨
    (s.partnerFreed u v = s.disarmOne v ∧ (s.tile v).chisel.state ≤ 5 ∧ s.slotOf v ≠ none) := by
  unfold State.partnerFreed
  split
  next hslot =>
    split
    next h =>
      simp only [Bool.and_eq_true, decide_eq_true_eq] at h
      exact .inr ⟨rfl, h.2, by rw [hslot]; exact Option.some_ne_none _⟩
    next => exact .inl rfl
  next => exact .inl rfl

/-- A tile that is disarmed with its partner is due again if it was. -/
theorem State.disarm_state (hslot : s.slotOf u = some (k, x)) (hstate : (s.tile u).chisel.state ≠ 6)
    (hpend : (s.tile u).chisel.pend = false) :
    ((s.disarm u).tile u).chisel.state = if (s.tile u).chisel.wasDue then 1 else 0 := by
  obtain ⟨units, witness, hself⟩ := State.sameDue_disarmOne_self hslot hstate hpend
  have hfirst : ((s.disarmOne u).tile u).chisel.state = if (s.tile u).chisel.wasDue then 1 else 0 := by
    rw [hself]
    rfl
  rw [State.disarm_of_slot hslot]
  split
  · exact hfirst
  · rcases (s.disarmOne u).partnerFreed_cases u x.other with heq | ⟨heq, hle, hsome⟩
    · rw [heq, hfirst]
    · rw [heq]
      by_cases hother : u = x.other
      · rw [← hother] at hle hsome ⊢
        obtain ⟨⟨j, y⟩, hy⟩ := Option.ne_none_iff_exists'.1 hsome
        obtain ⟨units', witness', hagain⟩ := State.sameDue_disarmOne_self hy (by omega) (by rw [hself]; exact hpend)
        rw [hagain, hself]
        rfl
      · obtain ⟨units', witness', hkept⟩ := State.sameDue_disarmOne (v := u) (s.disarmOne u) (by omega) hother
        rw [hkept]
        exact hfirst

end

end Sys2Proof.Machine
end


section
/-! SUPPORT. The packets of a report carry its values (R247). -/

namespace Sys2Proof.Machine

/-! ### The values of a report of one packet (R247) -/

section
variable {vals : List Word}

/-- Two values of a report in one flit. -/
def valueFlit (a b : Word) : Flit := BitVec.ofNat 128 (packNat [(0, 64, a.toNat), (64, 64, b.toNat)])

theorem flitFld_valueFlit_low (a b : Word) : flitFld (valueFlit a b) 63 0 = a.toNat := by
  refine .trans (Nat.eq_of_testBit_eq fun j => ?_) (Nat.mod_eq_of_lt a.isLt)
  simp only [flitFld, valueFlit, BitVec.toNat_ofNat, Nat.testBit_mod_two_pow, Nat.testBit_shiftRight,
    testBit_pack_cons, packNat_nil, Nat.zero_testBit]
  by_cases hj : j < 64
  · simp [hj, show j < 128 by omega]
  · simp [hj]

theorem flitFld_valueFlit_high (a b : Word) : flitFld (valueFlit a b) 127 64 = b.toNat := by
  refine .trans (Nat.eq_of_testBit_eq fun j => ?_) (Nat.mod_eq_of_lt b.isLt)
  simp only [flitFld, valueFlit, BitVec.toNat_ofNat, Nat.testBit_mod_two_pow, Nat.testBit_shiftRight,
    testBit_pack_cons, packNat_nil, Nat.zero_testBit]
  by_cases hj : j < 64
  · simp [hj, show 64 + j < 128 by omega]
  · simp [hj]

/-- The first flit of packet `p` of `n` of a report, which carries `count` values. -/
def reportHead (kind seg p n count : Nat) (session : BitVec 32) : Flit :=
  BitVec.ofNat 128 (packNat [(124, 4, rDONE), (120, 4, kind), (116, 4, seg), (112, 4, p), (108, 4, n - 1),
    (100, 8, count), (68, 32, session.toNat)])

theorem flitFld_reportHead_count (kind seg p n : Nat) {count : Nat} (session : BitVec 32) (h : count < 2 ^ 8) :
    flitFld (reportHead kind seg p n count session) 107 100 = count := by
  refine .trans (Nat.eq_of_testBit_eq fun j => ?_) (Nat.mod_eq_of_lt h)
  simp only [flitFld, reportHead, BitVec.toNat_ofNat, Nat.testBit_mod_two_pow, Nat.testBit_shiftRight,
    testBit_pack_cons, packNat_nil, Nat.zero_testBit]
  by_cases hj : j < 8
  · interval_cases j <;> simp
  · simp [hj]

/-- The flits of a packet that carries these values. -/
def valueFlits (vals : List Word) : List Flit :=
  (List.range ((vals.length + 1) / 2)).map fun i => valueFlit (vals.getD (2 * i) 0) (vals.getD (2 * i + 1) 0)

theorem chiselPackets_of_short (h : vals.length ≤ 12) (kind seg : Nat) (session : BitVec 32) :
    chiselPackets kind seg session vals = [reportHead kind seg 0 1 vals.length session :: valueFlits vals] := by
  have hone : max 1 ((vals.length + 11) / 12) = 1 := by omega
  unfold chiselPackets
  rw [hone]
  simp only [List.range_one, List.map_cons, List.map_nil, Nat.mul_zero, List.drop_zero, List.take_of_length_le h]
  rfl

/-- The value that is read back from its half of its flit. -/
theorem word_valueFlits {i : Nat} (hi : i < vals.length) :
    word (if i % 2 == 0 then flitFld ((valueFlits vals).getD (i / 2) 0) 63 0
      else flitFld ((valueFlits vals).getD (i / 2) 0) 127 64) = vals[i] := by
  have hflit : (valueFlits vals).getD (i / 2) 0 =
      valueFlit (vals.getD (2 * (i / 2)) 0) (vals.getD (2 * (i / 2) + 1) 0) := by
    rw [List.getD_eq_getElem?_getD]
    simp [valueFlits, List.getElem?_range (show i / 2 < (vals.length + 1) / 2 by omega)]
  rw [hflit, flitFld_valueFlit_low, flitFld_valueFlit_high]
  by_cases heven : i % 2 = 0
  · rw [if_pos (by simpa using heven), show 2 * (i / 2) = i by omega]
    simp [word, hi]
  · rw [if_neg (by simpa using heven), show 2 * (i / 2) + 1 = i by omega]
    simp [word, hi]

/-- The hub reads the values of a report of one packet as they were sent. -/
theorem chiselValues_chiselPackets (h : vals.length ≤ 12) (kind seg : Nat) (session : BitVec 32) :
    chiselValues (chiselPackets kind seg session vals) = vals := by
  have hcount := flitFld_reportHead_count kind seg 0 1 session (show vals.length < 2 ^ 8 by omega)
  rw [chiselPackets_of_short h]
  simp only [chiselValues, List.flatMap_cons, List.flatMap_nil, List.append_nil, List.getD_cons_zero, hcount,
    List.getD_cons_succ]
  refine List.ext_getElem (by simp) fun i hi hi' => ?_
  rw [List.getElem_map, List.getElem_range]
  exact word_valueFlits hi'

end

end Sys2Proof.Machine
end


section
/-! SUPPORT. Verdicts on the segments of a tile, and a segment as it ends on its tile and as the hub takes its result
(R217 to R220, R235). -/

namespace Sys2Proof.Machine

/-! ### Sets of one segment -/

theorem getLsbD_mask16_one (g j : Nat) : (mask16 [g]).getLsbD j = (decide (j < 16) && decide (g = j)) := by
  rw [mask16, List.foldl_cons, List.foldl_nil, Nat.zero_or]
  exact getLsbD_ofNat_two_pow 16 g j

theorem getLsbD_mask16_self {g : Nat} (hg : g < 16) : (mask16 [g]).getLsbD g = true := by
  rw [getLsbD_mask16_one, decide_eq_true hg, decide_eq_true rfl]
  rfl

theorem members_mask16_one {g : Nat} (hg : g < 16) : members (mask16 [g]) = [g] := by
  interval_cases g <;> decide

/-! ### Verdicts (R218, R219, R240) -/

section
variable {c : ChiselTile} {g : Nat} {v : SegVerdict} {bad : List Nat}

theorem ChiselTile.decide_got (c : ChiselTile) (g : Nat) (v : SegVerdict) (bad : List Nat) :
    (c.decide g v bad).got = c.got := by
  unfold ChiselTile.decide
  split
  · rfl
  · cases v <;> rfl

theorem ChiselTile.decide_state (c : ChiselTile) (g : Nat) (v : SegVerdict) (bad : List Nat) :
    (c.decide g v bad).state = c.state := by
  unfold ChiselTile.decide
  split
  · rfl
  · cases v <;> rfl

theorem ChiselTile.not_closed (h : c.state = 7 ∨ c.state = 8) : ¬ (c.state != 7 && c.state != 8) = true := by
  rcases h with h | h <;> simp [h]

theorem ChiselTile.decide_passed (h : c.state = 7 ∨ c.state = 8) :
    (c.decide g v bad).passed = if v = .pass then c.passed ||| mask16 [g] else c.passed := by
  rw [ChiselTile.decide, if_neg (ChiselTile.not_closed h)]
  cases v <;> rfl

theorem ChiselTile.decide_failed (h : c.state = 7 ∨ c.state = 8) :
    (c.decide g v bad).failed = if v = .fail then c.failed ||| mask16 [g] else c.failed := by
  rw [ChiselTile.decide, if_neg (ChiselTile.not_closed h)]
  cases v <;> rfl

theorem ChiselTile.decide_undone (h : c.state = 7 ∨ c.state = 8) :
    (c.decide g v bad).undone = if v = .inconclusive then c.undone ||| mask16 [g] else c.undone := by
  rw [ChiselTile.decide, if_neg (ChiselTile.not_closed h)]
  cases v <;> rfl

theorem ChiselTile.decide_undec (h : c.state = 7 ∨ c.state = 8) :
    (c.decide g v bad).undec = c.undec &&& ~~~(mask16 [g]) := by
  rw [ChiselTile.decide, if_neg (ChiselTile.not_closed h)]
  cases v <;> rfl

end

section
variable (s : State) (t p g : Nat)

/-- The results that the hub has are the same. -/
def State.SameGot (s t : State) : Prop := ∀ v, (t.tile v).chisel.got = (s.tile v).chisel.got

theorem State.SameGot.trans {s t r : State} (h : s.SameGot t) (h' : t.SameGot r) : s.SameGot r :=
  fun v => (h' v).trans (h v)

theorem State.sameGot_segDecide (v : SegVerdict) (bad : List Nat) : s.SameGot (s.segDecide t g v bad) := fun w => by
  rw [State.segDecide, State.chisel_modChisel]
  split
  · exact ChiselTile.decide_got _ _ _ _
  · rfl

theorem State.sameGot_dispute : s.SameGot (s.dispute t g) := fun w => by
  rw [State.dispute, State.chisel_modChisel]
  split
  · split <;> rfl
  · rfl

theorem State.sameGot_judgeStruct (vs : List Word) : s.SameGot (s.judgeStruct t g vs) := s.sameGot_segDecide t g _ _

theorem State.sameGot_judgeCross : s.SameGot (s.judgeCross t p g) := by
  unfold State.judgeCross
  dsimp only
  split
  · exact fun _ => rfl
  · split
    · exact (s.sameGot_segDecide t g _ _).trans (State.sameGot_segDecide _ p g _ _)
    · exact (s.sameGot_dispute t g).trans (State.sameGot_dispute _ p g)

theorem State.sameGot_witnessDecide (w : Option (List Word)) : s.SameGot (s.witnessDecide t p g w) :=
  (s.sameGot_segDecide t g _ _).trans (State.sameGot_segDecide _ p g _ _)

theorem OnlyTiles.segDecide (v : SegVerdict) (bad : List Nat) : OnlyTiles [t] s (s.segDecide t g v bad) :=
  OnlyTiles.modChisel s t _

theorem OnlyChanges.segDecide (v : SegVerdict) (bad : List Nat) : OnlyChanges [.tiles] s (s.segDecide t g v bad) :=
  OnlyChanges.modChisel s t _

theorem State.chisel_segDecide_self (v : SegVerdict) (bad : List Nat) :
    ((s.segDecide t g v bad).tile t).chisel = (s.tile t).chisel.decide g v bad := by
  rw [State.segDecide, State.tile_modChisel_self]

end

/-! ### A segment ends on its tile (R217, R220, R247) -/

section
variable (s : State) (u : Nat) (r : SegResult)

/-- The counters of tile `u` take what a segment did. -/
def State.segCounted : State :=
  (((s.count u 0 r.arrayCycles).count u 1 r.vectorCycles).count u 2 r.sramBytes).count u 3 r.sliceBytes

/-- The packets that the node of a tile reports the result of its segment by. -/
def segReport (n : ChiselNode) (r : SegResult) : List (List Flit) :=
  chiselPackets rkRESULT r.seg n.session (segValues n.seed r)

/-- The segments that the node of tile `u` has left after segment `g`. -/
def State.segsLeft (g : Nat) : BitVec 16 := (s.tile u).chisel.node.segs &&& ~~~mask16 [g]

/-- The segment has ended on its tile, and the result is on its way. -/
def State.segEnded : State :=
  (((s.segCounted u r).marchLeft u r.seg).segStart u (s.segsLeft u r.seg)).sendReply u
    (segReport (s.tile u).chisel.node r)

theorem OnlyTiles.count (v i n : Nat) : OnlyTiles [v] s (s.count v i n) := by
  unfold State.count
  split
  · exact OnlyTiles.refl _ s
  · exact OnlyTiles.modCore s v _

theorem State.chisel_count (v i n w : Nat) : ((s.count v i n).tile w).chisel = (s.tile w).chisel := by
  unfold State.count
  split
  · rfl
  · by_cases h : w = v
    · rw [h, State.tile_modCore_self]
    · rw [State.tile_modCore_ne _ _ h]

theorem OnlyChanges.segCounted : OnlyChanges [.tiles] s (s.segCounted u r) :=
  (((OnlyChanges.count s _ _ _).trans (OnlyChanges.count _ _ _ _)).trans (OnlyChanges.count _ _ _ _)).trans
    (OnlyChanges.count _ _ _ _)

theorem OnlyTiles.segCounted : OnlyTiles [u] s (s.segCounted u r) :=
  (((OnlyTiles.count s _ _ _).trans (OnlyTiles.count _ _ _ _)).trans (OnlyTiles.count _ _ _ _)).trans
    (OnlyTiles.count _ _ _ _)

theorem State.chisel_segCounted (v : Nat) : ((s.segCounted u r).tile v).chisel = (s.tile v).chisel := by
  simp only [State.segCounted, State.chisel_count]

theorem State.segmentResult_of_running (h : (members (s.tile u).chisel.node.segs).head? = some r.seg) :
    s.segmentResult u r =
      (s.segEnded u r).takeResult u r.seg (chiselValues (segReport (s.tile u).chisel.node r)) := by
  unfold State.segmentResult
  dsimp only
  rw [if_neg (by rw [h]; simp)]
  rfl

theorem OnlyChanges.segEnded : OnlyChanges [.tiles, .arm, .stack] s (s.segEnded u r) :=
  (((OnlyChanges.segCounted s u r).mono (by simp)).trans ((OnlyChanges.marchLeft _ u _).mono (by simp))).trans
    (((OnlyChanges.segStart _ u _).mono (by simp)).trans ((OnlyChanges.sendReply _ u _).mono (by simp)))

theorem State.tile_segEnded (v : Nat) : (s.segEnded u r).tile v =
    (((s.segCounted u r).marchLeft u r.seg).segsGiven u (s.segsLeft u r.seg)).tile v := by
  rw [State.segEnded, State.tile_of_tiles (OnlyChanges.sendReply _ u _ .tiles (by simp)), State.tile_segStart]

theorem OnlyTiles.segEnded : OnlyTiles [u] s (s.segEnded u r) := fun v hv => by
  rw [State.tile_segEnded, State.segsGiven, OnlyTiles.modChisel _ _ _ v hv,
    State.tile_of_tiles (OnlyChanges.marchLeft _ u _ .tiles (by simp)), OnlyTiles.segCounted s u r v hv]

theorem State.chisel_segEnded : ((s.segEnded u r).tile u).chisel =
    { (s.tile u).chisel with node.segs := s.segsLeft u r.seg, node.segBeat := s.beat } := by
  have hbeat : ((s.segCounted u r).marchLeft u r.seg).beat = s.beat :=
    congrArg (fun x => x.time.toNat / beatCycles)
      ((OnlyChanges.marchLeft _ u _ .time (by simp)).trans (OnlyChanges.segCounted s u r .time (by simp)))
  rw [State.tile_segEnded, State.tile_segsGiven_self, hbeat,
    State.tile_of_tiles (OnlyChanges.marchLeft _ u _ .tiles (by simp)), State.chisel_segCounted]

theorem State.segEnded_stack :
    ∃ x, (s.segEnded u r).stack = { ((s.segCounted u r).marchLeft u r.seg).stack with refresh := x } := by
  obtain ⟨x, hx⟩ := ((s.segCounted u r).marchLeft u r.seg).segStart_stack u (s.segsLeft u r.seg)
  exact ⟨x, (OnlyChanges.sendReply _ u _ .stack (by simp)).trans hx⟩

/-! ### The hub takes a result (R218, R219, R235) -/

/-- The session of a tile when its running segment `g` has its result. -/
def tookResult (g : Nat) (vs : List Word) (c : ChiselTile) : ChiselTile :=
  { c with
    got := c.got ||| mask16 [g], voidNow := false, voided := if c.voidNow then c.voided ||| mask16 [g] else c.voided
    seg := (members (c.list &&& ~~~(c.got ||| mask16 [g]))).headD 0xF
    results := if c.voidNow then c.results else tset [] c.results g vs }

/-- The result of a witness decides segment `g` of the pair that it was armed for. -/
def State.witnessTaken (s : State) (u g : Nat) (x : Slot) (w : Option (List Word)) : State :=
  match s.slotOf x.other with
  | some (_, y) =>
    if (s.tile x.other).chisel.witnessOf g == some u then s.witnessDecide x.other y.other g w else s
  | none => s

variable {s u} {k g : Nat} {x : Slot} {vs : List Word}

theorem State.takeResult_of_running (hslot : s.slotOf u = some (k, x)) (hstate : (s.tile u).chisel.state = 7)
    (hseg : (s.tile u).chisel.seg = g) (hg : g ≠ 0xF) : s.takeResult u g vs =
      if x.role == 2 then (s.modChisel u (tookResult g vs)).witnessTaken u g x
        (if (s.tile u).chisel.voidNow then none else some vs)
      else if (s.tile u).chisel.voidNow then s.modChisel u (tookResult g vs)
      else if g < 8 then (s.modChisel u (tookResult g vs)).judgeCross u x.other g
      else (s.modChisel u (tookResult g vs)).judgeStruct u g vs := by
  have hruns : ¬ (!(s.tile u).chisel.runs || (s.tile u).chisel.seg != g) = true := by
    simp [ChiselTile.runs, hstate, hseg, hg]
  unfold State.takeResult
  rw [hslot]
  dsimp only
  rw [if_neg hruns]
  rfl

theorem State.sameGot_witnessTaken (s : State) (u g : Nat) (x : Slot) (w : Option (List Word)) :
    s.SameGot (s.witnessTaken u g x w) := by
  unfold State.witnessTaken
  split
  · split
    · exact s.sameGot_witnessDecide _ _ g w
    · exact fun _ => rfl
  · exact fun _ => rfl

/-- The hub has the result of the segment that ran, whatever it makes of it. -/
theorem State.takeResult_got (hslot : s.slotOf u = some (k, x)) (hstate : (s.tile u).chisel.state = 7)
    (hseg : (s.tile u).chisel.seg = g) (hg : g < 14) : ((s.takeResult u g vs).tile u).chisel.got.getLsbD g = true := by
  have htook : ((s.modChisel u (tookResult g vs)).tile u).chisel.got.getLsbD g = true := by
    rw [State.tile_modChisel_self]
    simp [tookResult, getLsbD_mask16_self (show g < 16 by omega)]
  have hkept {t : State} (h : (s.modChisel u (tookResult g vs)).SameGot t) :
      (t.tile u).chisel.got.getLsbD g = true := by rw [h u, htook]
  rw [State.takeResult_of_running hslot hstate hseg (by omega)]
  split
  · exact hkept (State.sameGot_witnessTaken _ _ _ _ _)
  · split
    · exact htook
    · split
      · exact hkept (State.sameGot_judgeCross _ _ _ _)
      · exact hkept (State.sameGot_judgeStruct _ _ _ _)

end

end Sys2Proof.Machine
end


section
/-! SUPPORT. The end of a session: waits that are over, the finished list, SESSION_MAX and the report of REINIT (R218,
R225, R236). -/

namespace Sys2Proof.Machine

section
variable {s : State} {u k g : Nat} {x : Slot}

/-- Nothing is sent where no node owes a reply. -/
theorem State.foldl_drainReply_of_none (h : ∀ v, v < numTiles → (s.tile v).core.drains = []) :
    allTiles.foldl State.drainReply s = s := by
  refine List.foldlRecOn (motive := fun t => t = s) _ _ rfl fun t ht v hv => ?_
  rw [ht]
  exact State.drainReply_of_none (h v (List.mem_range.1 hv))

/-! ### The wait for a witness (R218) -/

theorem State.witnessExpiry_of_one (hslot : s.slotOf u = some (k, x)) (hrole : x.role = 0) (hg : g < 16)
    (hundec : (s.tile u).chisel.undec = mask16 [g]) (hnone : (s.tile u).chisel.witnessOf g = none)
    (hover : tget 0 (s.tile u).chisel.undecBeat g + s.witnessWait ≤ s.beat) :
    s.witnessExpiry u = s.witnessDecide u x.other g none := by
  unfold State.witnessExpiry
  rw [hslot]
  dsimp only
  rw [if_neg (by simp [hrole]), hundec, members_mask16_one hg, List.foldl_cons, List.foldl_nil, State.witnessLate]
  dsimp only
  rw [hnone]
  exact if_pos hover

theorem ChiselTile.decide_undec_bit {c : ChiselTile} {v : SegVerdict} {bad : List Nat} {h : Nat}
    (hbit : c.undec.getLsbD g = false) : (c.decide h v bad).undec.getLsbD g = false := by
  by_cases hopen : c.state = 7 ∨ c.state = 8
  · rw [ChiselTile.decide_undec hopen, BitVec.getLsbD_and, hbit, Bool.false_and]
  · rw [ChiselTile.decide, if_pos (by simpa [not_or] using hopen), hbit]

/-- A segment that is decided is undecided no longer. -/
theorem ChiselTile.decide_undec_self {c : ChiselTile} {v : SegVerdict} {bad : List Nat} (hg : g < 16)
    (hopen : c.state = 7 ∨ c.state = 8) : (c.decide g v bad).undec.getLsbD g = false := by
  rw [ChiselTile.decide_undec hopen, BitVec.getLsbD_and, BitVec.getLsbD_not, getLsbD_mask16_self hg, Bool.not_true,
    Bool.and_false, Bool.and_false]

theorem State.witnessDecide_undec (p : Nat) (w : Option (List Word)) (hg : g < 16)
    (hopen : (s.tile u).chisel.state = 7 ∨ (s.tile u).chisel.state = 8) :
    ((s.witnessDecide u p g w).tile u).chisel.undec.getLsbD g = false := by
  unfold State.witnessDecide
  dsimp only
  generalize sideVerdict (s.tile u).chisel (s.tile p).chisel g w = a
  generalize sideVerdict (s.tile p).chisel (s.tile u).chisel g w = b
  have hfirst : ((s.segDecide u g a.1 a.2).tile u).chisel.undec.getLsbD g = false := by
    rw [State.chisel_segDecide_self]
    exact ChiselTile.decide_undec_self hg hopen
  rw [State.segDecide, State.chisel_modChisel]
  split
  · exact ChiselTile.decide_undec_bit hfirst
  · exact hfirst

/-! ### The finished list (Table 7.6) -/

/-- Tile `u` is HOLDING. -/
def State.listEnded (s : State) (u : Nat) : State := s.modChisel u fun c => { c with state := 8, seg := 0xF }

theorem State.chiselListDone_of_all (hstate : (s.tile u).chisel.state = 7) (hsegs : (s.tile u).chisel.node.segs = 0)
    (hall : (s.tile u).chisel.list &&& ~~~(s.tile u).chisel.got = 0) :
    s.chiselListDone u = (s.listEnded u).chiselSay u rkLIST_DONE 0xF [] := by
  rw [State.chiselListDone, if_pos (by simp [hstate, hsegs, hall])]
  rfl

/-! ### SESSION_MAX (R236) -/

/-- FINISH or ABORT for the session of slot `k` of tile `u`, with what its failures call for. -/
def State.finishOperand (s : State) (u k func reason : Nat) : BitVec 96 :=
  let c := (s.tile u).chisel
  let rep : Option Repair := if reason == 0 then c.repair.map (·.1) else none
  abortOperand func k reason (rep = some .tile) (if rep = some .row || rep = some .spareRow then c.newRows else 0)

theorem State.chiselFinish_of_slot (hslot : s.slotOf u = some (k, x)) (func reason : Nat) :
    s.chiselFinish u func reason =
      (s.modChisel u fun c => c.toReinit reason).chiselSend opCHISEL_ABORT u (s.finishOperand u k func reason) := by
  unfold State.chiselFinish
  rw [hslot]
  rfl

/-- The running segment of tile `u` is voided, and the tile is HOLDING. -/
def State.runStopped (s : State) (u : Nat) : State := (s.voidTile u).listEnded u

theorem State.sessionExpiry_of_running (hslot : s.slotOf u = some (k, x)) (hover : s.sessionOver u = true)
    (hstate : (s.tile u).chisel.state = 7) :
    s.sessionExpiry u = (s.runStopped u).chiselSend opCHISEL_ABORT u (abortOperand 2 k 0 false 0) := by
  unfold State.sessionExpiry
  rw [hslot]
  dsimp only
  rw [if_neg (by simp [hover]), if_pos (by simp [hstate])]
  rfl

theorem State.sessionExpiry_of_holding (hslot : s.slotOf u = some (k, x)) (hover : s.sessionOver u = true)
    (hstate : (s.tile u).chisel.state = 8) : s.sessionExpiry u = s.chiselFinish u 1 0 := by
  unfold State.sessionExpiry
  rw [hslot]
  dsimp only
  rw [if_neg (by simp [hover]), if_neg (by simp [hstate]), if_pos (by simp [hstate])]

/-! ### REINIT (R225) -/

/-- The node reports that REINIT is done. -/
def State.reinitSaid (s : State) (u : Nat) (stuck : Option Nat) : State :=
  (s.modChisel u fun c => { c with reinit := some stuck }).chiselSay u rkREINIT_DONE 0xF []

theorem State.reinitDone_of_finished (hstate : (s.tile u).chisel.state = 9)
    (hfinish : (s.tile u).chisel.node.finish ≠ 0) (hopen : (s.tile u).chisel.reinit = none) (stuck : Option Nat) :
    s.reinitDone u stuck = ((s.chiselRestore u).castLateAt u).reinitSaid u stuck := by
  rw [State.reinitDone, if_neg (by simp [hstate, hfinish, hopen])]
  rfl

theorem State.reinitSaid_reinit (s : State) (u : Nat) (stuck : Option Nat) :
    ((s.reinitSaid u stuck).tile u).chisel.reinit = some stuck := by
  rw [State.reinitSaid, State.tile_chiselSay, State.tile_modChisel_self]

/-! ### The commands -/

theorem exec_segmentResult {r : SegResult} (hready : s.ready = true) (hu : u < numTiles) (hseg : r.seg < 14)
    (hhead : (members (s.tile u).chisel.node.segs).head? = some r.seg) : exec (.segmentResult u r) s = .next
      ((s.segEnded u r).takeResult u r.seg (chiselValues (segReport (s.tile u).chisel.node r))) := by
  rw [← State.segmentResult_of_running s u r hhead]
  calc exec (.segmentResult u r) s =
      doWhen (s.ready && u < numTiles && r.seg < 14) (fun s => s.segmentResult u r) s := rfl
    _ = _ := doWhen_true (by rw [hready, decide_eq_true hu, decide_eq_true hseg]; rfl)

theorem exec_witnessWaitExpiry (hready : s.ready = true) (hu : u < numTiles) :
    exec (.witnessWaitExpiry u) s = .next (s.witnessExpiry u) :=
  calc exec (.witnessWaitExpiry u) s = doWhen (s.ready && u < numTiles) (fun s => s.witnessExpiry u) s := rfl
    _ = _ := doWhen_true (by rw [hready, decide_eq_true hu]; rfl)

theorem exec_chiselListDone (hready : s.ready = true) (hu : u < numTiles) :
    exec (.chiselListDone u) s = .next (s.chiselListDone u) :=
  calc exec (.chiselListDone u) s = doWhen (s.ready && u < numTiles) (fun s => s.chiselListDone u) s := rfl
    _ = _ := doWhen_true (by rw [hready, decide_eq_true hu]; rfl)

theorem exec_sessionMaxExpiry (hready : s.ready = true) (hu : u < numTiles) :
    exec (.sessionMaxExpiry u) s = .next (s.sessionExpiry u) :=
  calc exec (.sessionMaxExpiry u) s = doWhen (s.ready && u < numTiles) (fun s => s.sessionExpiry u) s := rfl
    _ = _ := doWhen_true (by rw [hready, decide_eq_true hu]; rfl)

theorem exec_reinitDone (hready : s.ready = true) (hu : u < numTiles) (stuck : Option Nat) :
    exec (.reinitDone u stuck) s = .next (s.reinitDone u stuck) :=
  calc exec (.reinitDone u stuck) s = doWhen (s.ready && u < numTiles) (fun s => s.reinitDone u stuck) s := rfl
    _ = _ := doWhen_true (by rw [hready, decide_eq_true hu]; rfl)

end

end Sys2Proof.Machine
end


section
/-! PROOF. CHISEL_START, CHISEL_ABORT and SEED_LOAD at a node, and the steps of a session where their occasion holds
(R218, R223 to R228, R233 to R236, R246, R247). -/

namespace Sys2Proof.Machine

section
variable {s : State} {u : Nat}

/-- The steps of a session of tile `u` up to its start, where their occasion holds (R223, R227, R228, R233, R234). -/
theorem exec_chiselReady_boundary (hready : s.ready = true) (hu : u < numTiles) (harm : (s.tile u).chisel.node.arm ≠ 0)
    (hxfers : (s.tile u).core.xfers = []) (hstalled : (s.tile u).core.stalled = []) (hstack : s.stackWaiting u = false)
    (hnb : s.nbAtWork u = false) (hat : (s.tile u).atTestBoundary) :
    ∃ t, exec (.chiselReady u) s = .next t ∧ (t.tile u).chisel.state = 4 := by
  refine ⟨_, (exec_chiselReady hready hu).trans
    (congrArg _ (State.chiselReady_of_boundary hat harm hxfers hstalled hstack hnb)), ?_⟩
  rw [State.tile_chiselSay, State.tile_stopped_self]

theorem exec_chiselArmWait_over (hready : s.ready = true) (hu : u < numTiles) (hstate : (s.tile u).chisel.state = 2)
    (hslot : s.slotOf u ≠ none) (hover : (s.tile u).chisel.armBeat + s.armWait ≤ s.beat)
    (hpend : (s.tile u).chisel.pend = false) : ∃ t, exec (.chiselArmWait u) s = .next t ∧
      (t.tile u).chisel.state = (if (s.tile u).chisel.wasDue then 1 else 0) := by
  obtain ⟨⟨k, x⟩, hx⟩ := Option.ne_none_iff_exists'.1 hslot
  refine ⟨_, (exec_chiselArmWait hready hu).trans (congrArg _ (State.chiselArmWait_of_over hstate hover)), ?_⟩
  exact State.disarm_state hx (by rw [hstate]; decide) hpend

theorem exec_testHoldDrained_started {l : Nat} (hready : s.ready = true) (hu : u < numTiles) (hl : s.logical u = some l)
    (hslot : s.slotOf u ≠ none) (hstate : (s.tile u).chisel.state = 6) (hdrained : s.holdDrained l = true)
    (hnone : ∀ v, v < numTiles → (s.tile v).core.drains = []) :
    ∃ t, exec (.testHoldDrained u) s = .next t ∧ (t.tile u).chisel.state = 7 := by
  obtain ⟨⟨k, x⟩, hx⟩ := Option.ne_none_iff_exists'.1 hslot
  have heq := exec_testHoldDrained hready hu
  rw [State.foldl_drainReply_of_none hnone, State.heldStart_of_drained hl hstate hdrained] at heq
  exact ⟨_, heq, (State.started_seedSend hx).state⟩

theorem exec_segmentResult_got {r : SegResult} (hready : s.ready = true) (hu : u < numTiles) (hslot : s.slotOf u ≠ none)
    (hstate : (s.tile u).chisel.state = 7) (hseg : (s.tile u).chisel.seg = r.seg) (hlt : r.seg < 14)
    (hhead : (members (s.tile u).chisel.node.segs).head? = some r.seg) :
    ∃ t, exec (.segmentResult u r) s = .next t ∧ (t.tile u).chisel.got.getLsbD r.seg = true := by
  obtain ⟨⟨k, x⟩, hx⟩ := Option.ne_none_iff_exists'.1 hslot
  have hslot' : (s.segEnded u r).slotOf u = some (k, x) :=
    (State.slotOf_of_chisel (OnlyChanges.segEnded s u r .chisel (by simp)) u).trans hx
  refine ⟨_, exec_segmentResult hready hu hlt hhead, State.takeResult_got hslot' ?_ ?_ hlt⟩
  · rw [State.chisel_segEnded, hstate]
  · rw [State.chisel_segEnded, hseg]

theorem exec_sessionMaxExpiry_holding (hready : s.ready = true) (hu : u < numTiles) (hslot : s.slotOf u ≠ none)
    (hover : s.sessionOver u = true) (hstate : (s.tile u).chisel.state = 8) :
    ∃ t, exec (.sessionMaxExpiry u) s = .next t ∧ (t.tile u).chisel.state = 9 := by
  obtain ⟨⟨k, x⟩, hx⟩ := Option.ne_none_iff_exists'.1 hslot
  refine ⟨_, (exec_sessionMaxExpiry hready hu).trans (congrArg _ (State.sessionExpiry_of_holding hx hover hstate)), ?_⟩
  rw [State.chiselFinish_of_slot hx, State.tile_chiselSend, State.tile_modChisel_self]
  rfl

end

/-! ### The obligation -/

/-- Settles O27, command by command: a node is armed, goes on with its list, ends it, is cleared and takes its seed, and
each step of a session goes on where its occasion holds. -/
theorem nodeTestOperations : Obligations.NodeTestOperations := by
  unfold Obligations.NodeTestOperations
  refine ⟨fun n s => ⟨fun h => ?_, fun h => ?_, fun h => ?_⟩, fun n s h hok => nodeRow_chiselContinue h hok,
    fun n s => ⟨fun h hok => nodeRow_chiselEnd h (.inl rfl) hok, fun h hok => nodeRow_chiselEnd h (.inr rfl) hok⟩,
    fun n s h hok => nodeRow_chiselDisarm h hok, fun n s h hcarried => nodeRow_seedLoad_carried h hcarried,
    fun n s h hspare => nodeRow_seedLoad_spare h hspare, fun u s hready hawake hu => ⟨fun hstate hdue => ?_,
      fun hstate hforced hcarries hlimit => ?_, fun hstate hidle harm hxfers hstalled hstack hnb =>
        exec_chiselReady_boundary hready hu harm hxfers hstalled hstack hnb (.inl ⟨hstate, hidle⟩),
      fun hstate hslot hover hpend => exec_chiselArmWait_over hready hu hstate hslot hover hpend,
      fun k x hslot hrole hstate hok hl => ?_, fun hstate hforced honce hmay hover => ?_⟩,
    fun u s hready hu => ⟨fun l hl hslot hstate hdrained hnone =>
        exec_testHoldDrained_started hready hu hl hslot hstate hdrained hnone,
      fun r hslot hstate hseg hlt hhead => exec_segmentResult_got hready hu hslot hstate hseg hlt hhead,
      fun k x g hslot hrole hstate hg hundec hnone hover => ?_, fun hstate hsegs hall => ?_,
      fun hslot hover hstate => exec_sessionMaxExpiry_holding hready hu hslot hover hstate,
      fun stuck hstate hfinish hopen => ?_⟩⟩
  · exact ⟨nodeRow_chiselArm_free h (by decide), nodeRow_chiselArm_busy h (by decide), nodeRow_chiselStart_bad h⟩
  · exact ⟨nodeRow_chiselArm_free h (by decide), nodeRow_chiselArm_busy h (by decide), nodeRow_chiselStart_bad h⟩
  · exact ⟨nodeRow_chiselArm_free h (by decide), nodeRow_chiselArm_busy h (by decide), nodeRow_chiselStart_bad h⟩
  · refine ⟨_, (exec_chiselDue hready hawake hu).trans (congrArg _ (State.chiselDue_of_due hstate hdue)), ?_⟩
    rw [State.madeDue, State.tile_modChisel_self]
  · refine ⟨_, (exec_chiselForced hready hawake hu).trans
      (congrArg _ (State.chiselForce_of_limit hstate hforced hcarries hlimit)), ?_⟩
    rw [State.tile_modChisel_self]
  · obtain ⟨t, heq, hstarted⟩ := exec_chiselStartSignal_unmapped hready hawake hu hslot hrole hstate hok hl
    exact ⟨t, heq, hstarted.state⟩
  · obtain ⟨t, heq, -, hstarved, -⟩ := exec_chiselStarved_forced hready hawake hu hstate hforced honce hmay hover
    exact ⟨t, heq, hstarved⟩
  · refine ⟨_, (exec_witnessWaitExpiry hready hu).trans
      (congrArg _ (State.witnessExpiry_of_one hslot hrole (by omega) hundec hnone hover)), ?_⟩
    exact State.witnessDecide_undec _ _ (by omega) (.inr hstate)
  · refine ⟨_, (exec_chiselListDone hready hu).trans (congrArg _ (State.chiselListDone_of_all hstate hsegs hall)), ?_⟩
    rw [State.tile_chiselSay, State.listEnded, State.tile_modChisel_self]
  · exact ⟨_, (exec_reinitDone hready hu stuck).trans
      (congrArg _ (State.reinitDone_of_finished hstate hfinish hopen stuck)),
      State.reinitSaid_reinit _ u stuck⟩

end Sys2Proof.Machine
end


section
/-! SUPPORT. What a deferral or a disarming of one tile leaves of the session of another, which holds no slot (R228,
R231). -/

namespace Sys2Proof.Machine

section
variable {s t r : State} {u v k : Nat} {x : Slot}

/-! ### The parts of the state that disarming changes -/

theorem OnlyChanges.freed (s : State) (v k : Nat) : OnlyChanges [.tiles, .chisel, .arm] s (s.freed v k) :=
  (((OnlyChanges.setSlot s k none).mono (by simp)).trans ((OnlyChanges.chiselSend _ _ _ _).mono (by simp))).trans
    ((OnlyChanges.modChisel _ v _).mono (by simp))

theorem OnlyChanges.witnessDropped (s : State) (v : Nat) (x : Slot) :
    OnlyChanges [.tiles] s (s.witnessDropped v x) := by
  unfold State.witnessDropped
  split
  · exact OnlyChanges.modChisel s _ _
  · exact OnlyChanges.refl _ s

theorem OnlyChanges.unitsJoined (s : State) (v : Nat) (units : BitVec 16) :
    OnlyChanges [.tiles] s (s.unitsJoined v units) := by
  unfold State.unitsJoined
  split
  · exact OnlyChanges.ite _ (OnlyChanges.refl _ s) (OnlyChanges.foldl _ (fun t w => OnlyChanges.modChisel t w _) _ s)
  · exact OnlyChanges.refl _ s

theorem OnlyChanges.chiselCall (s : State) (v cause : Nat) (units : BitVec 16) :
    OnlyChanges [.tiles] s (s.chiselCall v cause units) :=
  (OnlyChanges.modChisel s v _).trans (OnlyChanges.unitsJoined _ v units)

theorem OnlyChanges.chiselPend (s : State) (v : Nat) : OnlyChanges [.tiles] s (s.chiselPend v) :=
  OnlyChanges.ite _ ((OnlyChanges.modChisel s v _).trans (OnlyChanges.chiselCall _ v _ _)) (OnlyChanges.refl _ s)

theorem OnlyChanges.disarmOne (hstate : (s.tile v).chisel.state ≠ 6) :
    OnlyChanges [.tiles, .chisel, .arm] s (s.disarmOne v) := by
  cases hv : s.slotOf v with
  | none =>
    rw [State.disarmOne, hv]
    exact OnlyChanges.refl _ s
  | some e =>
    rw [State.disarmOne_of_slot hv hstate]
    exact ((OnlyChanges.freed s v e.1).trans ((OnlyChanges.witnessDropped _ v e.2).mono (by simp))).trans
      ((OnlyChanges.chiselPend _ v).mono (by simp))

theorem OnlyChanges.partnerFreed (s : State) (v w : Nat) :
    OnlyChanges [.tiles, .chisel, .arm] s (s.partnerFreed v w) := by
  rcases s.partnerFreed_cases v w with heq | ⟨heq, hle, -⟩
  · rw [heq]
    exact OnlyChanges.refl _ s
  · rw [heq]
    exact OnlyChanges.disarmOne (by omega)

theorem OnlyChanges.disarm (hstate : (s.tile v).chisel.state ≠ 6) :
    OnlyChanges [.tiles, .chisel, .arm] s (s.disarm v) := by
  cases hv : s.slotOf v with
  | none =>
    rw [State.disarm, hv]
    exact OnlyChanges.refl _ s
  | some e =>
    rw [State.disarm_of_slot hv]
    split
    · exact OnlyChanges.disarmOne hstate
    · exact (OnlyChanges.disarmOne hstate).trans (OnlyChanges.partnerFreed _ _ _)

/-! ### A tile that holds no slot -/

/-- A tile that holds no slot holds none when another slot is freed. -/
theorem State.slotOf_setSlot_none (h : s.slotOf u = none) (k : Nat) : (s.setSlot k none).slotOf u = none := by
  unfold State.slotOf at h ⊢
  rw [List.findSome?_eq_none_iff] at h ⊢
  intro e he
  refine h e (List.mem_of_mem_filter (p := fun e => e.1 != k) ?_)
  simpa [State.setSlot, tset, terase] using he

/-- In `t` too tile `u` holds no slot, and its session differs from that in `s` in its units and witnesses alone. -/
structure State.KeptDue (s t : State) (u : Nat) : Prop where
  slot : t.slotOf u = none
  session : ((s.tile u).chisel).SameDue (t.tile u).chisel

theorem State.KeptDue.refl (h : s.slotOf u = none) : s.KeptDue s u := ⟨h, ChiselTile.SameDue.refl _⟩

theorem State.KeptDue.trans (h : s.KeptDue t u) (h' : t.KeptDue r u) : s.KeptDue r u :=
  ⟨h'.slot, h.session.trans h'.session⟩

theorem State.KeptDue.of_tiles (hslot : s.slotOf u = none) (hparts : OnlyChanges [.tiles] s t)
    (h : ((s.tile u).chisel).SameDue (t.tile u).chisel) : s.KeptDue t u :=
  ⟨(State.slotOf_of_chisel (hparts .chisel (by simp)) u).trans hslot, h⟩

theorem State.keptDue_modChisel (hslot : s.slotOf u = none) (hne : u ≠ v) (f : ChiselTile → ChiselTile) :
    s.KeptDue (s.modChisel v f) u := by
  refine ⟨hslot, ?_⟩
  rw [State.tile_modChisel_ne _ _ hne]
  exact ChiselTile.SameDue.refl _

theorem State.keptDue_freed (hslot : s.slotOf u = none) (hne : u ≠ v) (k : Nat) : s.KeptDue (s.freed v k) u := by
  refine ⟨(State.slotOf_of_chisel (State.chisel_chiselSend _ _ _ _) u).trans (State.slotOf_setSlot_none hslot k), ?_⟩
  rw [OnlyTiles.freed s v k u (by simpa using hne)]
  exact ChiselTile.SameDue.refl _

theorem State.keptDue_disarmOne (hslot : s.slotOf u = none) (hne : u ≠ v) (hstate : (s.tile v).chisel.state ≠ 6) :
    s.KeptDue (s.disarmOne v) u := by
  cases hv : s.slotOf v with
  | none =>
    rw [State.disarmOne, hv]
    exact .refl hslot
  | some e =>
    rw [State.disarmOne_of_slot hv hstate]
    have hfreed := State.keptDue_freed hslot hne e.1
    have hdropped := State.KeptDue.of_tiles hfreed.slot (OnlyChanges.witnessDropped _ v e.2)
      (State.sameDue_witnessDropped _ v e.2 u)
    exact (hfreed.trans hdropped).trans
      (.of_tiles hdropped.slot (OnlyChanges.chiselPend _ v) (State.sameDue_chiselPend _ hne))

theorem State.keptDue_partnerFreed (hslot : s.slotOf u = none) (w : Nat) : s.KeptDue (s.partnerFreed v w) u := by
  rcases s.partnerFreed_cases v w with heq | ⟨heq, hle, hsome⟩
  · rw [heq]
    exact .refl hslot
  · rw [heq]
    exact State.keptDue_disarmOne hslot (fun h => hsome (h ▸ hslot)) (by omega)

theorem State.keptDue_disarm (hslot : s.slotOf u = none) (hne : u ≠ v) (hstate : (s.tile v).chisel.state ≠ 6) :
    s.KeptDue (s.disarm v) u := by
  cases hv : s.slotOf v with
  | none =>
    rw [State.disarm, hv]
    exact .refl hslot
  | some e =>
    have hone := State.keptDue_disarmOne hslot hne hstate
    rw [State.disarm_of_slot hv]
    split
    · exact hone
    · exact hone.trans (State.keptDue_partnerFreed hone.slot _)

/-! ### Deferrals (R231) -/

/-- The slot that tile `v` holds is for a session of its own. -/
def State.ownSlot (s : State) (v : Nat) : Bool :=
  match s.slotOf v with
  | some (_, x) => x.role == 0
  | none => false

/-- The session of tile `v` has not started, and the tile is due. -/
def State.deferrable (s : State) (v : Nat) : Bool :=
  (s.tile v).chisel.state == 1 ||
    (2 ≤ (s.tile v).chisel.state && (s.tile v).chisel.state ≤ 5 && (s.ownSlot v || (s.tile v).chisel.wasDue))

/-- The extension of tile `v` by some beats. -/
def State.extended (s : State) (v beats : Nat) : Nat :=
  min ((s.tile v).chisel.ext + beats) (fld (s.inForce Reg.chiselDeferMax) 31 0)

/-- Tile `v` has its extension. -/
def State.extensionSet (s : State) (v beats : Nat) : State :=
  s.modChisel v fun c => { c with ext := s.extended v beats }

/-- Tile `v` has its extension; where it is armed for a session of its own it is disarmed. -/
def State.extensionGiven (s : State) (v beats : Nat) : State :=
  if s.ownSlot v && 2 ≤ (s.tile v).chisel.state then (s.extensionSet v beats).disarm v else s.extensionSet v beats

theorem State.deferTile_eq (s : State) (v beats : Nat) : s.deferTile v beats =
    if s.deferrable v && (s.tile v).chisel.cause == 0 then
      if (s.tile v).chisel.deferred < (s.extensionGiven v beats).deferLimit + s.extended v beats &&
          ((s.tile v).chisel.state == 1 || s.ownSlot v) then
        (s.extensionGiven v beats).modChisel v fun c => { c with forced := false }
      else s.extensionGiven v beats
    else s := rfl

theorem State.extensionSet_state (h : s.deferrable v = true) (beats : Nat) :
    ((s.extensionSet v beats).tile v).chisel.state ≠ 6 := by
  simp only [State.deferrable, Bool.or_eq_true, Bool.and_eq_true, beq_iff_eq, decide_eq_true_eq] at h
  rw [State.extensionSet, State.tile_modChisel_self]
  show (s.tile v).chisel.state ≠ 6
  omega

theorem OnlyChanges.extensionGiven (hdue : s.deferrable v = true) (beats : Nat) :
    OnlyChanges [.tiles, .chisel, .arm] s (s.extensionGiven v beats) := by
  have hset : OnlyChanges [.tiles, .chisel, .arm] s (s.extensionSet v beats) :=
    (OnlyChanges.modChisel s v _).mono (by simp)
  exact OnlyChanges.ite _ (hset.trans (OnlyChanges.disarm (State.extensionSet_state hdue beats))) hset

theorem OnlyChanges.deferTile (s : State) (v beats : Nat) :
    OnlyChanges [.tiles, .chisel, .arm] s (s.deferTile v beats) := by
  rw [State.deferTile_eq]
  split
  next h =>
    have hgiven := OnlyChanges.extensionGiven (Bool.and_eq_true _ _ ▸ h).1 beats
    exact OnlyChanges.ite _ (hgiven.trans ((OnlyChanges.modChisel _ v _).mono (by simp))) hgiven
  next => exact OnlyChanges.refl _ s

theorem State.keptDue_extensionGiven (hslot : s.slotOf u = none) (hne : u ≠ v) (hdue : s.deferrable v = true)
    (beats : Nat) : s.KeptDue (s.extensionGiven v beats) u := by
  have hset : s.KeptDue (s.extensionSet v beats) u := State.keptDue_modChisel hslot hne _
  unfold State.extensionGiven
  split
  · exact hset.trans (State.keptDue_disarm hset.slot hne (State.extensionSet_state hdue beats))
  · exact hset

/-- The deferral of another tile leaves a tile that holds no slot. -/
theorem State.keptDue_deferTile (hslot : s.slotOf u = none) (hne : u ≠ v) (beats : Nat) :
    s.KeptDue (s.deferTile v beats) u := by
  rw [State.deferTile_eq]
  split
  next h =>
    have hgiven := State.keptDue_extensionGiven hslot hne (Bool.and_eq_true _ _ ▸ h).1 beats
    split
    · exact hgiven.trans (State.keptDue_modChisel hgiven.slot hne _)
    · exact hgiven
  next => exact .refl hslot

/-- The tiles of a list are deferred, one after the other. -/
def State.deferAll (s : State) (vs : List Nat) (beats : Nat) : State := vs.foldl (fun s v => s.deferTile v beats) s

theorem OnlyChanges.deferAll (s : State) (vs : List Nat) (beats : Nat) :
    OnlyChanges [.tiles, .chisel, .arm] s (s.deferAll vs beats) :=
  OnlyChanges.foldl _ (fun t v => OnlyChanges.deferTile t v beats) vs s

theorem State.keptDue_deferAll (beats : Nat) {vs : List Nat} (hu : u ∉ vs) (hslot : s.slotOf u = none) :
    s.KeptDue (s.deferAll vs beats) u :=
  List.foldlRecOn (motive := fun t => s.KeptDue t u) vs _ (.refl hslot) fun _ ht _ hv =>
    ht.trans (State.keptDue_deferTile ht.slot (fun h => hu (h ▸ hv)) beats)

/-- Tile `u` is due by schedule and holds no slot. -/
structure State.DueFree (s : State) (u : Nat) : Prop where
  slot : s.slotOf u = none
  state : (s.tile u).chisel.state = 1
  cause : (s.tile u).chisel.cause = 0

theorem State.DueFree.kept (h : s.DueFree u) (hkept : s.KeptDue t u) : t.DueFree u := by
  obtain ⟨hslot, units, witness, heq⟩ := hkept
  exact ⟨hslot, by rw [heq]; exact h.state, by rw [heq]; exact h.cause⟩

theorem State.DueFree.deferTile (h : s.DueFree u) (beats : Nat) : s.deferTile u beats =
    if (s.tile u).chisel.deferred < s.deferLimit + s.extended u beats then
      (s.extensionSet u beats).modChisel u fun c => { c with forced := false }
    else s.extensionSet u beats := by
  have hown : s.ownSlot u = false := by rw [State.ownSlot, h.slot]
  have hdue : s.deferrable u = true := by simp [State.deferrable, h.state]
  have hgiven : s.extensionGiven u beats = s.extensionSet u beats := by simp [State.extensionGiven, hown]
  have hlimit : (s.extensionSet u beats).deferLimit = s.deferLimit := rfl
  rw [State.deferTile_eq, hgiven, hlimit, if_pos (by simp [hdue, h.cause])]
  simp [h.state]

/-- The deferral of tile `u` itself: its extension, and what it makes of its forcing. -/
structure State.Deferred (s t : State) (u beats : Nat) : Prop where
  slot : t.slotOf u = none
  ext : (t.tile u).chisel.ext = s.extended u beats
  forced : (s.tile u).chisel.deferred < s.deferLimit + s.extended u beats → (t.tile u).chisel.forced = false

theorem State.DueFree.deferred (h : s.DueFree u) (beats : Nat) : s.Deferred (s.deferTile u beats) u beats := by
  rw [h.deferTile]
  split
  next hlt =>
    refine ⟨h.slot, ?_, fun _ => ?_⟩
    · rw [State.tile_modChisel_self, State.extensionSet, State.tile_modChisel_self]
    · rw [State.tile_modChisel_self]
  next hge =>
    refine ⟨h.slot, ?_, fun hlt => absurd hlt hge⟩
    rw [State.extensionSet, State.tile_modChisel_self]

theorem State.Deferred.kept {beats : Nat} (h : s.Deferred t u beats) (hkept : t.KeptDue r u) :
    s.Deferred r u beats := by
  obtain ⟨hslot, units, witness, heq⟩ := hkept
  exact ⟨hslot, by rw [heq]; exact h.ext, fun hlt => by rw [heq]; exact h.forced hlt⟩

/-- A walk of deferrals that comes by tile `u` once defers it once. -/
theorem State.DueFree.deferAll (h : s.DueFree u) (beats : Nat) {vs : List Nat} (hnodup : vs.Nodup) (hu : u ∈ vs) :
    s.Deferred (s.deferAll vs beats) u beats := by
  obtain ⟨pre, post, rfl⟩ := List.append_of_mem hu
  have hout : u ∉ pre ∧ u ∉ post := by
    rw [List.nodup_append, List.nodup_cons] at hnodup
    exact ⟨fun hmem => hnodup.2.2 u hmem u List.mem_cons_self rfl, hnodup.2.1.1⟩
  have hpre := State.keptDue_deferAll beats hout.1 h.slot
  have hforce : (s.deferAll pre beats).force = s.force := OnlyChanges.deferAll s pre beats .force (by simp)
  have hin (k : Nat) : (s.deferAll pre beats).inForce k = s.inForce k := by rw [State.inForce, State.inForce, hforce]
  obtain ⟨hslot, hext, hforced⟩ := (h.kept hpre).deferred beats
  obtain ⟨-, units, witness, heq⟩ := hpre
  have hextended : (s.deferAll pre beats).extended u beats = s.extended u beats := by
    rw [State.extended, State.extended, hin, heq]
  have hlimit : (s.deferAll pre beats).deferLimit = s.deferLimit := by rw [State.deferLimit, State.deferLimit, hin]
  have hhere : s.Deferred ((s.deferAll pre beats).deferTile u beats) u beats :=
    ⟨hslot, by rw [hext, hextended], fun hlt => hforced (by rw [hlimit, hextended, heq]; exact hlt)⟩
  have hall : s.deferAll (pre ++ u :: post) beats = ((s.deferAll pre beats).deferTile u beats).deferAll post beats := by
    simp only [State.deferAll, List.foldl_append, List.foldl_cons]
  rw [hall]
  exact hhere.kept (State.keptDue_deferAll beats hout.2 hslot)

end

end Sys2Proof.Machine
end


section
/-! SUPPORT. An order that nothing refuses, as its turn comes, and packets to the nodes of a region (R65, R66, R90,
R474). -/

namespace Sys2Proof.Machine

section
variable {s t : State} {r : OrderRef} {w : Word} {id : Nat}

/-! ### An order whose turn comes -/

/-- The order that is taken. -/
def State.newOrder (s : State) (r : OrderRef) (w : Word) : OrderRec :=
  { id := s.ord.nextId, ref := r, word := w, reserved := entriesFor w, detail := detailOf w, beat := s.beat }

/-- The order is taken, and its turn has come. -/
def State.orderTurned (s : State) (r : OrderRef) (w : Word) : State :=
  (s.takeOrder r w).modOrder s.ord.nextId fun o => { o with turn := true }

theorem OnlyChanges.takeOrder (s : State) (r : OrderRef) (w : Word) : OnlyChanges [.ord, .regs] s (s.takeOrder r w) :=
  fun p hp => by cases p <;> simp_all [Same, State.takeOrder]

theorem OnlyChanges.orderTurned (s : State) (r : OrderRef) (w : Word) :
    OnlyChanges [.ord, .regs] s (s.orderTurned r w) :=
  (OnlyChanges.takeOrder s r w).trans ((OnlyChanges.modOrder _ _ _).mono (by simp))

theorem State.order_takeOrder (h : ∀ o ∈ s.ord.orders, o.id ≠ s.ord.nextId) (r : OrderRef) (w : Word) :
    (s.takeOrder r w).order s.ord.nextId = some (s.newOrder r w) := by
  have hnone : (s.ord.orders.find? fun o => o.id == s.ord.nextId) = none :=
    List.find?_eq_none.2 fun o ho => by simpa using h o ho
  show (s.ord.orders ++ [s.newOrder r w]).find? (fun o => o.id == s.ord.nextId) = _
  rw [List.find?_append, hnone, Option.none_or, List.find?_cons_of_pos]
  exact beq_self_eq_true _

theorem State.order_orderTurned (h : ∀ o ∈ s.ord.orders, o.id ≠ s.ord.nextId) (r : OrderRef) (w : Word) :
    (s.orderTurned r w).order s.ord.nextId = some { s.newOrder r w with turn := true } := by
  rw [State.orderTurned, State.order_modOrder_self (s.takeOrder r w) s.ord.nextId
    (f := fun o => { o with turn := true }) fun _ => rfl, State.order_takeOrder h]
  rfl

theorem State.orderTurn_of_open (h : ∀ o ∈ s.ord.orders, o.id ≠ s.ord.nextId)
    (hrefused : (s.orderTurned r w).refusedAs w = none) (ans : Option (Option PartnerAnswer)) :
    (s.takeOrder r w).orderTurn s.ord.nextId ans = (s.orderTurned r w).orderDo (s.newOrder r w) ans := by
  unfold State.orderTurn
  rw [State.order_takeOrder h]
  dsimp only
  rw [if_neg (show ¬ (s.newOrder r w).turn = true from Bool.false_ne_true)]
  show (match (s.orderTurned r w).refusedAs w with
    | some st => (s.orderTurned r w).finish s.ord.nextId st
    | none => (s.orderTurned r w).orderDo (s.newOrder r w) ans) = _
  rw [hrefused]

theorem orderRow_of_ordered (h : s.ordered r w) (hrefused : (s.orderTurned r w).refusedAs w = none)
    (ans : Option (Option PartnerAnswer)) :
    orderRow r w ans s = .next ((s.orderTurned r w).orderDo (s.newOrder r w) ans) := by
  obtain ⟨hlive, hevent, hown, hmay, hfresh, -⟩ := h
  unfold orderRow
  rw [doWhen_true (by rw [hlive, hevent, hown, hmay]; rfl), State.orderTurn_of_open hfresh hrefused]

theorem ordOpcode_ordWord {op : Nat} (hop : op < 2 ^ 8) (tag : BitVec 8) (o : BitVec 48) :
    ordOpcode (ordWord op tag o) = op := by
  refine .trans (Nat.eq_of_testBit_eq fun j => ?_) (Nat.mod_eq_of_lt hop)
  simp only [ordOpcode, ordWord, fld, pack, BitVec.toNat_ofNat, Nat.testBit_mod_two_pow, Nat.testBit_shiftRight,
    testBit_pack_cons, packNat_nil, Nat.zero_testBit]
  by_cases hj : j < 8
  · interval_cases j <;> simp
  · simp [hj]

/-- Taking an order of chapter 6 or 7 does not change whether it is refused. -/
theorem State.refusedAs_orderTurned (hop : ordOpcode w = 4 ∨ ordOpcode w = 5 ∨ ordOpcode w = 6) (r : OrderRef) :
    (s.orderTurned r w).refusedAs w = s.refusedAs w := by
  have hbad : (s.orderTurned r w).badOperand w = s.badOperand w := by
    unfold State.badOperand
    rcases hop with h | h | h <;> rw [h] <;> rfl
  have hown : (s.orderTurned r w).ownIllegal w = s.ownIllegal w := by
    unfold State.ownIllegal
    rcases hop with h | h | h <;> rw [h] <;> rfl
  have hlegal : (s.orderTurned r w).legal w = s.legal w := rfl
  have hlicence : (s.orderTurned r w).unlicensed w = s.unlicensed w := rfl
  rw [State.refusedAs, hbad, hown, hlegal, hlicence]
  rfl

end

/-! ### The nodes of a region (R90) -/

theorem testBit_foldl_or (ts : List Nat) (a j : Nat) :
    (ts.foldl (fun a t => a ||| 2 ^ t) a).testBit j = (a.testBit j || decide (j ∈ ts)) := by
  induction ts generalizing a with
  | nil => simp
  | cons t ts ih =>
    rw [List.foldl_cons, ih, Nat.testBit_or, Nat.testBit_two_pow, Bool.or_assoc]
    congr 1
    simp [eq_comm]

theorem testBit_nodeSet (ts : List Nat) (j : Nat) :
    (nodeSet ts).toNat.testBit j = (decide (j < 1152) && decide (j ∈ ts)) := by
  rw [BitVec.testBit_toNat, nodeSet, BitVec.getLsbD_ofNat, testBit_foldl_or, Nat.zero_testBit, Bool.false_or]

/-- A set of nodes with the same columns `c` in each of its rows that is not empty is one group. -/
theorem maskGroups_of_rows {v : BitVec 1152} {c : Nat} (h : ∀ r, r < 36 → rowCols v r = c ∨ rowCols v r = 0) :
    maskGroups v = [] ∨ ∃ rows, maskGroups v = [(rows, c)] := by
  unfold maskGroups
  refine List.foldlRecOn (motive := fun gs => gs = [] ∨ ∃ rows, gs = [(rows, c)]) _ _ (.inl rfl) fun gs hgs r hr => ?_
  rcases h r (List.mem_range.1 hr) with hc | hzero
  · rw [hc]
    dsimp only
    split
    · exact hgs
    · rcases hgs with rfl | ⟨rows, rfl⟩
      · exact .inr ⟨2 ^ r, rfl⟩
      · exact .inr ⟨rows ||| 2 ^ r, by simp⟩
  · simpa [hzero] using hgs

theorem testBit_rowCols (v : BitVec 1152) (r j : Nat) :
    (rowCols v r).testBit j = (decide (j < 32) && v.toNat.testBit (32 * r + j)) := by
  rw [rowCols, Nat.testBit_mod_two_pow, Nat.testBit_shiftRight]

/-- Every row of a region has the same columns. -/
theorem rowCols_region {g r : Nat} (hr : r < 36) : rowCols (nodeSet (tilesOfRegion g)) r =
    if r / 9 = g / 4 then ((List.range 32).filter fun j => j / 8 = g % 4).foldl (fun a j => a ||| 2 ^ j) 0 else 0 := by
  have hmem {j : Nat} (hj : j < 32) : 32 * r + j ∈ tilesOfRegion g ↔ r / 9 = g / 4 ∧ j / 8 = g % 4 := by
    have hrow : rowOf (32 * r + j) = r := by rw [rowOf]; omega
    have hcol : colOf (32 * r + j) = j := by rw [colOf]; omega
    have hin : 32 * r + j ∈ allTiles := List.mem_range.2 (by rw [show numTiles = 1152 from rfl]; omega)
    rw [tilesOfRegion, List.mem_filter, regionOf, hrow, hcol, beq_iff_eq]
    constructor
    · intro h
      omega
    · intro h
      exact ⟨hin, by omega⟩
  refine Nat.eq_of_testBit_eq fun j => ?_
  rw [testBit_rowCols, testBit_nodeSet]
  by_cases hj : j < 32
  · split
    next hg => simp [hj, hmem, hg, testBit_foldl_or, show 32 * r + j < 1152 by omega]
    next hg => simp [hj, hmem, hg]
  · split
    next hg => simp [hj, testBit_foldl_or]
    next hg => simp [hj]

theorem State.sends_hubSend_region {q : SendReq} {g : Nat} (s : State) (h : q.dests = nodeSet (tilesOfRegion g)) :
    (s.hubSend q).sends q (nodeSet (tilesOfRegion g)) := by
  have hone : s.hubSend q = s.hubPacket q (nodeSet (tilesOfRegion g)) := by
    unfold State.hubSend
    rw [h]
    rcases maskGroups_of_rows (v := nodeSet (tilesOfRegion g))
      (c := ((List.range 32).filter fun j => j / 8 = g % 4).foldl (fun a j => a ||| 2 ^ j) 0)
      (fun r hr => by rw [rowCols_region hr]; split <;> simp) with hg | ⟨rows, hg⟩ <;> rw [hg]
  rw [hone]
  exact s.sends_hubPacket q _

end Sys2Proof.Machine
end


section
/-! PROOF. CHISEL_NOW, CHISEL_DEFER and MAQ_RATE (R192, R229 to R231). -/

namespace Sys2Proof.Machine

section
variable {s : State} {r : OrderRef} {w : Word} {u : Nat}

theorem fld_lt (w : Word) (hi lo : Nat) : fld w hi lo < 2 ^ (hi + 1 - lo) := Nat.mod_lt _ (Nat.two_pow_pos _)

/-! ### CHISEL_NOW (R229, R230) -/

/-- Tile `u` is called for a session of these units, which carries order `id`. -/
def State.calledNow (s : State) (u : Nat) (units : BitVec 16) (id : Nat) : State :=
  (s.chiselCall u 2 units).modChisel u fun c => { c with orders := c.orders ++ [id] }

/-- The units of a CHISEL_NOW: those of its operand, or SCHED_MASK where it names none. -/
def State.nowUnits (s : State) (v : Nat) : BitVec 16 := if v = 0 then s.schedMask else BitVec.ofNat 16 v

theorem State.chiselNowDo_eq {v : Nat} (hv : v < 2 ^ 16) (s : State) (u id : Nat) :
    s.chiselNowDo u (BitVec.ofNat 16 v) id = s.calledNow u (s.nowUnits v) id := by
  have hzero : (BitVec.ofNat 16 v == 0) = decide (v = 0) := by
    rw [Bool.eq_iff_iff, beq_iff_eq, decide_eq_true_eq, ← BitVec.toNat_inj, BitVec.toNat_ofNat, Nat.mod_eq_of_lt hv]
    rfl
  unfold State.chiselNowDo State.calledNow State.nowUnits
  rw [hzero]
  simp only [decide_eq_true_eq]

theorem OnlyChanges.calledNow (s : State) (u : Nat) (units : BitVec 16) (id : Nat) :
    OnlyChanges [.tiles] s (s.calledNow u units id) :=
  (OnlyChanges.chiselCall s u 2 units).trans (OnlyChanges.modChisel _ u _)

theorem OnlyTiles.calledNow (hslot : s.slotOf u = none) (units : BitVec 16) (id : Nat) :
    OnlyTiles [u] s (s.calledNow u units id) := by
  have hjoined (t : State) (h : t.slotOf u = none) : t.unitsJoined u units = t := by rw [State.unitsJoined, h]
  unfold State.calledNow
  rw [State.chiselCall_eq, hjoined _ ((State.slotOf_modChisel s u _ u).trans hslot)]
  exact (OnlyTiles.modChisel s u _).trans (OnlyTiles.modChisel _ u _)

/-- The session of the tile that is called: as the call makes it, but for units and witnesses, and with the order. -/
theorem State.chisel_calledNow (s : State) (u : Nat) (units : BitVec 16) (id : Nat) : ∃ units' witness,
    ((s.calledNow u units id).tile u).chisel = { calledChisel s.beat 2 units (s.tile u).chisel with
      units := units', witness, orders := (s.tile u).chisel.orders ++ [id] } := by
  obtain ⟨units', witness, heq⟩ := (s.modChisel u (calledChisel s.beat 2 units)).sameDue_unitsJoined u units u
  rw [State.tile_modChisel_self] at heq
  refine ⟨units', witness, ?_⟩
  rw [State.calledNow, State.tile_modChisel_self, State.chiselCall_eq, heq]
  rfl

section
variable (beat : Nat) (units : BitVec 16) {c : ChiselTile}

/-- An idle tile becomes due for cause ORDER with the units of the order. -/
theorem calledChisel_idle (h : c.state = 0) : (calledChisel beat 2 units c).state = 1 ∧
    (calledChisel beat 2 units c).cause = 2 ∧ (calledChisel beat 2 units c).dueUnits = units := by
  simp [calledChisel, h]

theorem calledChisel_state (h : c.state ≠ 0) : (calledChisel beat 2 units c).state = c.state := by
  simp [calledChisel, h]

/-- A tile that is due already joins the units, and takes cause ORDER in place of SCHEDULE alone. -/
theorem calledChisel_due (h : c.state ≠ 0) (hdue : c.state = 1 ∨ c.wasDue = true) :
    (calledChisel beat 2 units c).dueUnits = c.dueUnits ||| units ∧
      (c.cause = 0 → (calledChisel beat 2 units c).cause = 2) ∧
      (c.cause = 1 → (calledChisel beat 2 units c).cause = 1) := by
  have hfresh : (c.state == 0 || (2 ≤ c.state && !c.wasDue)) = false := by
    rcases hdue with h1 | hwas
    · simp [h1]
    · simp [h, hwas]
  refine ⟨?_, fun h0 => ?_, fun h1 => ?_⟩
  · simp [calledChisel, hfresh]
  · simp [calledChisel, h0, causeRank]
  · simp [calledChisel, hfresh, h1, causeRank]

end

/-! ### What each of the orders does in its turn -/

theorem State.orderDo_chiselNow {o : OrderRec} (h : ordOpcode o.word = 4) (s : State)
    (ans : Option (Option PartnerAnswer)) : s.orderDo o ans =
      s.chiselNowDo (fld o.word 10 0) (BitVec.ofNat 16 (fld o.word 47 32)) o.id := by
  unfold State.orderDo
  dsimp only
  rw [h]
  rfl

theorem State.orderDo_chiselDefer {o : OrderRec} (h : ordOpcode o.word = 5) (s : State)
    (ans : Option (Option PartnerAnswer)) : s.orderDo o ans =
      (s.deferAll (deferTiles (BitVec.ofNat 48 (fld o.word 47 0))) (fld o.word 23 0)).finish o.id .ok := by
  unfold State.orderDo State.deferAll
  dsimp only
  rw [h]
  rfl

theorem State.orderDo_maqRate {o : OrderRec} (h : ordOpcode o.word = 6) (s : State)
    (ans : Option (Option PartnerAnswer)) : s.orderDo o ans = s.maqRateDo o.word o.id := by
  unfold State.orderDo
  dsimp only
  rw [h]
  rfl

theorem State.runs_orderTurned (h : ∀ o ∈ s.ord.orders, o.id ≠ s.ord.nextId) {t : State}
    (hord : t.ord = (s.orderTurned r w).ord) : t.runs s.ord.nextId := by
  refine ⟨{ s.newOrder r w with turn := true }, ?_, rfl, rfl⟩
  rw [State.order, hord]
  exact State.order_orderTurned h r w

/-! ### The commands -/

theorem exec_chiselNow {o : BitVec 48} (h : s.ordered r (ordWord opCHISEL_NOW r.tag o)) :
    exec (.chiselNow r o) s = .next ((s.orderTurned r (ordWord opCHISEL_NOW r.tag o)).calledNow
      (fld (ordWord opCHISEL_NOW r.tag o) 10 0) (s.nowUnits (fld (ordWord opCHISEL_NOW r.tag o) 47 32))
        s.ord.nextId) := by
  have hop : ordOpcode (ordWord opCHISEL_NOW r.tag o) = 4 := ordOpcode_ordWord (by decide) _ _
  have hnone := (State.refusedAs_orderTurned (s := s) (.inl hop) r).trans h.2.2.2.2.2
  generalize hw : ordWord opCHISEL_NOW r.tag o = w at h hop hnone ⊢
  calc exec (.chiselNow r o) s = orderRow r (ordWord opCHISEL_NOW r.tag o) none s := rfl
    _ = .next ((s.orderTurned r w).orderDo (s.newOrder r w) none) := by
      rw [hw, orderRow_of_ordered h hnone]
    _ = _ := by
      rw [State.orderDo_chiselNow (o := s.newOrder r w) hop]
      exact congrArg _ (State.chiselNowDo_eq (fld_lt w 47 32) _ _ _)

theorem exec_chiselDefer {o : BitVec 48} (h : s.ordered r (ordWord opCHISEL_DEFER r.tag o)) :
    exec (.chiselDefer r o) s = .next (((s.orderTurned r (ordWord opCHISEL_DEFER r.tag o)).deferAll
      (deferTiles (BitVec.ofNat 48 (fld (ordWord opCHISEL_DEFER r.tag o) 47 0)))
      (fld (ordWord opCHISEL_DEFER r.tag o) 23 0)).finish s.ord.nextId .ok) := by
  have hop : ordOpcode (ordWord opCHISEL_DEFER r.tag o) = 5 := ordOpcode_ordWord (by decide) _ _
  have hnone := (State.refusedAs_orderTurned (s := s) (.inr (.inl hop)) r).trans h.2.2.2.2.2
  generalize hw : ordWord opCHISEL_DEFER r.tag o = w at h hop hnone ⊢
  calc exec (.chiselDefer r o) s = orderRow r (ordWord opCHISEL_DEFER r.tag o) none s := rfl
    _ = .next ((s.orderTurned r w).orderDo (s.newOrder r w) none) := by
      rw [hw, orderRow_of_ordered h hnone]
    _ = _ := by rw [State.orderDo_chiselDefer (o := s.newOrder r w) hop]; rfl

theorem exec_maqRate {o : BitVec 48} (h : s.ordered r (ordWord opMAQ_RATE r.tag o)) :
    exec (.maqRate r o) s = .next ((s.orderTurned r (ordWord opMAQ_RATE r.tag o)).maqRateDo
      (ordWord opMAQ_RATE r.tag o) s.ord.nextId) := by
  have hop : ordOpcode (ordWord opMAQ_RATE r.tag o) = 6 := ordOpcode_ordWord (by decide) _ _
  have hnone := (State.refusedAs_orderTurned (s := s) (.inr (.inr hop)) r).trans h.2.2.2.2.2
  generalize hw : ordWord opMAQ_RATE r.tag o = w at h hop hnone ⊢
  calc exec (.maqRate r o) s = orderRow r (ordWord opMAQ_RATE r.tag o) none s := rfl
    _ = .next ((s.orderTurned r w).orderDo (s.newOrder r w) none) := by
      rw [hw, orderRow_of_ordered h hnone]
    _ = _ := by rw [State.orderDo_maqRate (o := s.newOrder r w) hop]; rfl

/-! ### CHISEL_DEFER (R231, Table 7.4) -/

theorem deferTiles_nodup (o : BitVec 48) : (deferTiles o).Nodup := by
  unfold deferTiles
  dsimp only
  split
  · exact List.nodup_singleton _
  · exact allTiles_nodup.filter _
  · exact allTiles_nodup

/-! ### MAQ_RATE (R192) -/

/-- The nodes that the scope of a MAQ_RATE names. -/
def rateNodes (w : Word) : BitVec 1152 :=
  match fld w 47 46 with
  | 0 => oneNode (fld w 42 32)
  | 1 => nodeSet (tilesOfRegion (fld w 19 16))
  | _ => allNodes

/-- SET_RATE of an order. -/
def rateRequest (w : Word) (id : Nat) : SendReq := maqRequest 6 0 0 0 0 (fld w 3 0) (rateNodes w) (some id)

theorem State.maqRateDo_eq (s : State) (w : Word) (id : Nat) : s.maqRateDo w id = s.hubSend (rateRequest w id) := rfl

theorem State.sends_maqRateDo (s : State) (w : Word) (id : Nat) :
    (s.maqRateDo w id).sends (rateRequest w id) (rateNodes w) := by
  have hdests : (rateRequest w id).dests = rateNodes w := rfl
  rw [State.maqRateDo_eq]
  unfold rateNodes at hdests ⊢
  split at hdests
  · exact s.sends_hubSend_oneNode hdests
  · exact s.sends_hubSend_region hdests
  · exact s.sends_hubSend_allNodes hdests

theorem ofld_maqOperand_exp {func slot host l src exp : Nat} (h : exp < 2 ^ 4) :
    ofld (maqOperand func slot host l src exp) 3 0 = exp := by
  refine .trans (Nat.eq_of_testBit_eq fun j => ?_) (Nat.mod_eq_of_lt h)
  simp only [ofld, maqOperand, opack, BitVec.toNat_ofNat, Nat.testBit_mod_two_pow, Nat.testBit_shiftRight,
    testBit_pack_cons, packNat_nil, Nat.zero_testBit]
  by_cases hj : j < 4
  · interval_cases j <;> simp
  · simp [hj]

end

/-! ### The obligation -/

/-- Settles O35, order by order: a call joins what its tile is due for, a deferral comes by each addressed tile once,
and the packet of a rate goes to the nodes of its scope. -/
theorem testAndRateOrders : Obligations.TestAndRateOrders := by
  unfold Obligations.TestAndRateOrders
  refine ⟨fun r o s h => ?_, fun r o s h => ?_, fun r o s h => ?_⟩
  · have heq := exec_chiselNow h
    have hfresh := h.2.2.2.2.1
    dsimp only
    generalize ordWord opCHISEL_NOW r.tag o = w at heq ⊢
    have hturned := OnlyChanges.orderTurned s r w
    have hcalled := OnlyChanges.calledNow (s.orderTurned r w) (fld w 10 0) (s.nowUnits (fld w 47 32)) s.ord.nextId
    have htiles : (s.orderTurned r w).tiles = s.tiles := hturned .tiles (by simp)
    obtain ⟨units, witness, hchisel⟩ :=
      (s.orderTurned r w).chisel_calledNow (fld w 10 0) (s.nowUnits (fld w 47 32)) s.ord.nextId
    rw [State.tile_of_tiles htiles] at hchisel
    refine ⟨_, heq, State.runs_orderTurned hfresh (hcalled .ord (by simp)),
      (hturned.mono (by simp)).trans (hcalled.mono (by simp)), fun hslot => ?_, ?_, ?_, fun h0 => ?_, fun hne =>
        ⟨?_, fun hdue => ?_⟩⟩
    · have hnone : (s.orderTurned r w).slotOf (fld w 10 0) = none :=
        (State.slotOf_of_chisel (hturned .chisel (by simp)) _).trans hslot
      exact (OnlyTiles.of_tiles htiles).trans (OnlyTiles.calledNow hnone _ _)
    · rw [hchisel]
    · rw [hchisel]
      rfl
    · rw [hchisel]
      exact calledChisel_idle (s.orderTurned r w).beat _ h0
    · rw [hchisel]
      exact calledChisel_state (s.orderTurned r w).beat (s.nowUnits (fld w 47 32)) hne
    · rw [hchisel]
      exact calledChisel_due (s.orderTurned r w).beat _ hne hdue
  · have heq := exec_chiselDefer h
    have hfresh := h.2.2.2.2.1
    dsimp only
    generalize ordWord opCHISEL_DEFER r.tag o = w at heq ⊢
    generalize hts : deferTiles (BitVec.ofNat 48 (fld w 47 0)) = ts at heq ⊢
    have hnodup : ts.Nodup := hts ▸ deferTiles_nodup _
    have hturned := OnlyChanges.orderTurned s r w
    have hall := OnlyChanges.deferAll (s.orderTurned r w) ts (fld w 23 0)
    have hsome : ((s.orderTurned r w).deferAll ts (fld w 23 0)).order s.ord.nextId ≠ none := by
      rw [State.order, hall .ord (by simp), ← State.order, State.order_orderTurned hfresh]
      exact Option.some_ne_none _
    have htiles : (s.orderTurned r w).tiles = s.tiles := hturned .tiles (by simp)
    rw [State.finish_of_order hsome (by decide)] at heq
    refine ⟨_, heq, State.doneAs_modOrder_finished hsome _, fun u hu hstate hcause hslot => ?_⟩
    have htile := State.tile_of_tiles htiles u
    have hfree : (s.orderTurned r w).DueFree u :=
      ⟨(State.slotOf_of_chisel (hturned .chisel (by simp)) u).trans hslot, by rw [htile, hstate], by rw [htile, hcause]⟩
    obtain ⟨-, hext, hforced⟩ := hfree.deferAll (fld w 23 0) hnodup hu
    have hextended : (s.orderTurned r w).extended u (fld w 23 0) =
        min ((s.tile u).chisel.ext + fld w 23 0) (fld (s.inForce Reg.chiselDeferMax) 31 0) := by
      rw [State.extended, htile]
      rfl
    rw [hextended] at hext
    refine ⟨hext, fun hlt => hforced ?_⟩
    rw [htile, hextended, ← hext]
    exact hlt
  · have heq := exec_maqRate h
    dsimp only
    generalize ordWord opMAQ_RATE r.tag o = w at heq ⊢
    obtain ⟨p, hp, hop, hdests, hoperand, -, horder⟩ :=
      (s.orderTurned r w).sends_maqRateDo w s.ord.nextId
    have hrequest : (rateRequest w s.ord.nextId).operand = maqOperand 6 0 0 0 0 (fld w 3 0) := rfl
    rw [hrequest] at hoperand
    refine ⟨_, p, heq, ((OnlyChanges.orderTurned s r w).mono (by simp)).trans
      ((OnlyChanges.maqSend _ _ _ _ _ _ _ _ _).mono (by simp)), hp, hop, horder, ?_, ?_, fun h0 => ?_, fun h1 => ?_,
      fun h2 => ?_⟩
    · rw [hoperand, ofld_maqOperand_func (by decide)]
    · rw [hoperand, ofld_maqOperand_exp (fld_lt w 3 0)]
    · rw [hdests, rateNodes, h0]
      rfl
    · rw [hdests, rateNodes, h1]
      rfl
    · rw [hdests, rateNodes, h2]
      rfl

end Sys2Proof.Machine
end


section
/-! SUPPORT. The verdicts on a segment that has its result, and what a march leaves in SRAM (R217 to R220, R235). -/

namespace Sys2Proof.Machine

section
variable {s : State} {u k g : Nat} {x : Slot} {r : SegResult} {vs : List Word} {c d : ChiselTile}

/-! ### The values of a segment (R217, R219) -/

theorem segDigests_of_one (h2 : g ≠ 2) (h10 : g ≠ 10) (h12 : g ≠ 12) : segDigests g = 1 := by
  simp [segDigests, h2, h10, h12]

theorem segValues_length_of_one (seed : Word) (h2 : r.seg ≠ 2) (h10 : r.seg ≠ 10) (h12 : r.seg < 12) :
    (segValues seed r).length = 1 := by
  rw [segValues, segDigests_of_one h2 h10 (by omega), if_neg (by simp; omega), if_neg (by simp; omega)]
  simp

/-- A structural segment without rows or march sends its signature. -/
theorem segValues_struct (seed : Word) (h8 : 8 ≤ r.seg) (h10 : r.seg ≠ 10) (h12 : r.seg < 12) :
    segValues seed r = [Config.signature r.seg 0 ^^^ tget 0 r.wrong 0] := by
  rw [segValues, segDigests_of_one (by omega) h10 (by omega), if_neg (by simp; omega), if_neg (by simp; omega)]
  simp [show ¬ r.seg < 8 by omega, List.range_one]

/-- SRAM_S sends what its march found. -/
theorem segValues_sram (seed : Word) (h : r.seg = 12) :
    segValues seed r = [word (b2n r.march.isSome), word (r.march.getD 0)] := by
  simp [segValues, h, segDigests]

theorem chiselValues_segReport (n : ChiselNode) (h : (segValues n.seed r).length ≤ 12) :
    chiselValues (segReport n r) = segValues n.seed r := chiselValues_chiselPackets h _ _ _

/-! ### Structural segments (R219) -/

/-- The verdict on a structural segment with these values. -/
def structVerdict (g : Nat) (vs : List Word) : SegVerdict :=
  if (structBad g vs).isEmpty && !((g == 12 || g == 13) && vs[segDigests g]? != some 0) then .pass else .fail

theorem State.judgeStruct_eq (s : State) (u g : Nat) (vs : List Word) :
    s.judgeStruct u g vs = s.segDecide u g (structVerdict g vs) (structBad g vs) := rfl

/-- The signature is the fused one, or the segment fails. -/
theorem structVerdict_signature (h10 : g ≠ 10) (h2 : g ≠ 2) (h12 : g < 12) (w : Word) :
    structVerdict g [Config.signature g 0 ^^^ w] = if w = 0 then .pass else .fail := by
  have hbad : structBad g [Config.signature g 0 ^^^ w] = if w = 0 then [] else [0] := by
    rw [structBad, segDigests_of_one h2 h10 (by omega)]
    by_cases hw : w = 0
    · simp [hw, List.range_one]
    · have hne : Config.signature g 0 ^^^ w ≠ Config.signature g 0 := fun h =>
        hw (by simpa using congrArg (Config.signature g 0 ^^^ ·) h)
      rw [if_neg hw]
      simp [hne, List.range_one]
  rw [structVerdict, hbad]
  by_cases hw : w = 0
  · simp [hw, show g ≠ 12 by omega, show g ≠ 13 by omega]
  · rw [if_neg hw, if_neg hw]
    rfl

/-- SRAM_S passes where its march finds no block wrong. -/
theorem structVerdict_march (m : Option Nat) (w : Word) :
    structVerdict 12 [word (b2n m.isSome), w] = if m = none then .pass else .fail := by
  cases m with
  | none => simp [structVerdict, structBad, segDigests, word, b2n]
  | some b => simp [structVerdict, structBad, segDigests, word, b2n]

/-! ### Cross-check segments (R218) -/

/-- Only a segment of the array has rows to skip. -/
theorem ChiselTile.skips_of_ne (c : ChiselTile) (h2 : g ≠ 2) (h10 : g ≠ 10) (i : Nat) : c.skips g i = false := by
  simp [ChiselTile.skips, valueRow, h2, h10]

/-- Nothing is disputed where the values are the same. -/
theorem disputed_eq_nil_iff (hskip : ∀ i, c.skips g i = false ∧ d.skips g i = false) :
    disputed c d g = [] ↔ c.values g = d.values g := by
  have hmem : disputed c d g = [] ↔ ∀ i, i < max (c.values g).length (d.values g).length →
      (c.values g)[i]? = (d.values g)[i]? := by
    simp [disputed, List.filter_eq_nil_iff, hskip]
  rw [hmem]
  constructor
  · intro h
    refine List.ext_getElem? fun i => ?_
    by_cases hi : i < max (c.values g).length (d.values g).length
    · exact h i hi
    · rw [List.getElem?_eq_none (by omega), List.getElem?_eq_none (by omega)]
  · intro h i _
    rw [h]

/-- The session of a tile whose segment `g` is in dispute since a beat. -/
def disputedChisel (beat g : Nat) (c : ChiselTile) : ChiselTile :=
  if c.state == 7 || c.state == 8 then
    { c with undec := c.undec ||| mask16 [g], undecBeat := tset 0 c.undecBeat g beat }
  else c

theorem State.dispute_eq (s : State) (u g : Nat) : s.dispute u g = s.modChisel u (disputedChisel s.beat g) := rfl

theorem disputedChisel_of_open (h : c.state = 7 ∨ c.state = 8) (beat g : Nat) : disputedChisel beat g c =
    { c with undec := c.undec ||| mask16 [g], undecBeat := tset 0 c.undecBeat g beat } :=
  if_pos (by rcases h with h | h <;> simp [h])

/-! ### What a march leaves (R220) -/

theorem State.sramSeal_marchSram (s : State) (u : Nat) {i : Nat} (hi : i < sramBlocks) :
    (s.marchSram u).sramSeal u i = Config.marchSeal i := by
  obtain ⟨m, -, hm⟩ := foldl_read_of_mem (u := i) (read := fun m : Tbl Word => tget emptySeal m (u * sramBlocks + i))
    (f := fun m j => tset emptySeal m (u * sramBlocks + j) (Config.marchSeal j))
    (fun m j hj => tget_tset_ne _ _ _ _ (by omega)) List.nodup_range (List.mem_range.2 hi) s.stack.sramSeals
  rw [State.sramSeal, sramBlock, State.marchSram]
  dsimp only
  rw [hm, tget_tset_self]

end

end Sys2Proof.Machine
end


section
/-! PROOF. Segment results and their verdicts (R217 to R220, R235). -/

namespace Sys2Proof.Machine

section
variable {s : State} {u k g : Nat} {x : Slot} {r : SegResult} {vs : List Word}

/-! ### A result that no witness sent -/

/-- The segment has ended on its tile, and the hub has its result. -/
def State.taken (s : State) (u : Nat) (r : SegResult) (vs : List Word) : State :=
  (s.segEnded u r).modChisel u (tookResult r.seg vs)

theorem OnlyChanges.taken (s : State) (u : Nat) (r : SegResult) (vs : List Word) :
    OnlyChanges [.tiles, .arm, .stack] s (s.taken u r vs) :=
  (OnlyChanges.segEnded s u r).trans ((OnlyChanges.modChisel _ u _).mono (by simp))

theorem OnlyTiles.taken (s : State) (u : Nat) (r : SegResult) (vs : List Word) : OnlyTiles [u] s (s.taken u r vs) :=
  (OnlyTiles.segEnded s u r).trans (OnlyTiles.modChisel _ u _)

/-- The session of tile `u` when the hub has its result. -/
def State.takenChisel (s : State) (u : Nat) (r : SegResult) (vs : List Word) : ChiselTile :=
  tookResult r.seg vs { (s.tile u).chisel with node.segs := s.segsLeft u r.seg, node.segBeat := s.beat }

theorem State.takenChisel_open (h : (s.tile u).chisel.state = 7) (r : SegResult) (vs : List Word) :
    (s.takenChisel u r vs).state = 7 ∨ (s.takenChisel u r vs).state = 8 := .inl h

theorem State.chisel_taken (s : State) (u : Nat) (r : SegResult) (vs : List Word) :
    ((s.taken u r vs).tile u).chisel = s.takenChisel u r vs := by
  rw [State.taken, State.tile_modChisel_self, State.chisel_segEnded, State.takenChisel]

theorem State.taken_stack (s : State) (u : Nat) (r : SegResult) (vs : List Word) :
    ∃ y, (s.taken u r vs).stack = { ((s.segCounted u r).marchLeft u r.seg).stack with refresh := y } :=
  s.segEnded_stack u r

/-- What the hub makes of the result of segment `r.seg` of a tile of a pair. -/
theorem exec_segmentResult_pair (hready : s.ready = true) (hu : u < numTiles) (hslot : s.slotOf u = some (k, x))
    (hrole : x.role ≠ 2) (hstate : (s.tile u).chisel.state = 7) (hseg : (s.tile u).chisel.seg = r.seg)
    (hlt : r.seg < 14) (hhead : (members (s.tile u).chisel.node.segs).head? = some r.seg)
    (hvs : chiselValues (segReport (s.tile u).chisel.node r) = vs) : exec (.segmentResult u r) s = .next
      (if (s.tile u).chisel.voidNow then s.taken u r vs
       else if r.seg < 8 then (s.taken u r vs).judgeCross u x.other r.seg
       else (s.taken u r vs).judgeStruct u r.seg vs) := by
  have hslot' : (s.segEnded u r).slotOf u = some (k, x) :=
    (State.slotOf_of_chisel (OnlyChanges.segEnded s u r .chisel (by simp)) u).trans hslot
  have hchisel := s.chisel_segEnded u r
  rw [exec_segmentResult hready hu hlt hhead, hvs,
    State.takeResult_of_running hslot' (by rw [hchisel, hstate]) (by rw [hchisel, hseg]) (by omega),
    if_neg (by simpa using hrole), hchisel]
  rfl

/-! ### Structural segments (R219, R220) -/

theorem State.chisel_judgeStruct_taken (s : State) (u : Nat) (r : SegResult) (vs : List Word) :
    (((s.taken u r vs).judgeStruct u r.seg vs).tile u).chisel =
      (s.takenChisel u r vs).decide r.seg (structVerdict r.seg vs) (structBad r.seg vs) := by
  rw [State.judgeStruct_eq, State.chisel_segDecide_self, State.chisel_taken]

/-- What a verdict on a structural segment leaves of the session of its tile. -/
structure State.StructJudged (s t : State) (u g : Nat) (v : SegVerdict) : Prop where
  tiles : OnlyTiles [u] s t
  parts : OnlyChanges [.tiles, .arm, .stack] s t
  got : (t.tile u).chisel.got.getLsbD g = true
  passed : (t.tile u).chisel.passed =
    if v = .pass then (s.tile u).chisel.passed ||| mask16 [g] else (s.tile u).chisel.passed
  failed : (t.tile u).chisel.failed =
    if v = .fail then (s.tile u).chisel.failed ||| mask16 [g] else (s.tile u).chisel.failed

theorem State.structJudged_taken (hstate : (s.tile u).chisel.state = 7) (hg : r.seg < 16) :
    s.StructJudged ((s.taken u r vs).judgeStruct u r.seg vs) u r.seg (structVerdict r.seg vs) := by
  have hchisel := s.chisel_judgeStruct_taken u r vs
  have hopen := State.takenChisel_open hstate r vs
  refine ⟨(OnlyTiles.taken s u r vs).trans (OnlyTiles.segDecide _ _ _ _ _),
    (OnlyChanges.taken s u r vs).trans ((OnlyChanges.segDecide _ _ _ _ _).mono (by simp)), ?_, ?_, ?_⟩
  · rw [hchisel, ChiselTile.decide_got]
    simp [State.takenChisel, tookResult, getLsbD_mask16_self hg]
  · rw [hchisel, ChiselTile.decide_passed hopen]
    rfl
  · rw [hchisel, ChiselTile.decide_failed hopen]
    rfl

theorem exec_segmentResult_struct (hready : s.ready = true) (hu : u < numTiles) (hslot : s.slotOf u = some (k, x))
    (hrole : x.role ≠ 2) (hstate : (s.tile u).chisel.state = 7) (hseg : (s.tile u).chisel.seg = r.seg)
    (hvoid : (s.tile u).chisel.voidNow = false) (h8 : 8 ≤ r.seg) (h12 : r.seg < 12) (h10 : r.seg ≠ 10)
    (hhead : (members (s.tile u).chisel.node.segs).head? = some r.seg) :
    ∃ t, exec (.segmentResult u r) s = .next t ∧
      s.StructJudged t u r.seg (if tget 0 r.wrong 0 = 0 then .pass else .fail) ∧ t.stack.sram = s.stack.sram := by
  have hvs := segValues_struct (s.tile u).chisel.node.seed h8 h10 h12
  have heq := exec_segmentResult_pair hready hu hslot hrole hstate hseg (by omega) hhead
    ((chiselValues_segReport _ (by rw [hvs]; simp)).trans hvs)
  rw [hvoid, if_neg Bool.false_ne_true, if_neg (by omega)] at heq
  have hjudged := State.structJudged_taken (r := r)
    (vs := [Config.signature r.seg 0 ^^^ tget 0 r.wrong 0]) hstate (by omega)
  rw [structVerdict_signature h10 (by omega) h12] at hjudged
  refine ⟨_, heq, hjudged, ?_⟩
  obtain ⟨y, hy⟩ := s.taken_stack u r [Config.signature r.seg 0 ^^^ tget 0 r.wrong 0]
  have hmarch : (s.segCounted u r).marchLeft u r.seg = s.segCounted u r := by
    rw [State.marchLeft, if_neg (by simp; omega), if_neg (by simp; omega)]
  rw [State.judgeStruct_eq, OnlyChanges.segDecide _ _ _ _ _ .stack (by simp), hy, hmarch,
    OnlyChanges.segCounted s u r .stack (by simp)]

theorem exec_segmentResult_march (hready : s.ready = true) (hu : u < numTiles) (hslot : s.slotOf u = some (k, x))
    (hrole : x.role ≠ 2) (hstate : (s.tile u).chisel.state = 7) (hseg : (s.tile u).chisel.seg = r.seg)
    (hvoid : (s.tile u).chisel.voidNow = false) (h12 : r.seg = 12)
    (hhead : (members (s.tile u).chisel.node.segs).head? = some r.seg) :
    ∃ t, exec (.segmentResult u r) s = .next t ∧ s.StructJudged t u r.seg (if r.march = none then .pass else .fail) ∧
      ∀ i, i < sramBlocks → t.sramSeal u i = Config.marchSeal i := by
  have hvs := segValues_sram (s.tile u).chisel.node.seed h12
  have heq := exec_segmentResult_pair hready hu hslot hrole hstate hseg (by omega) hhead
    ((chiselValues_segReport _ (by rw [hvs]; simp)).trans hvs)
  rw [hvoid, if_neg Bool.false_ne_true, if_neg (by omega)] at heq
  have hjudged := State.structJudged_taken (r := r)
    (vs := [word (b2n r.march.isSome), word (r.march.getD 0)]) hstate (by omega)
  have hverdict : structVerdict r.seg [word (b2n r.march.isSome), word (r.march.getD 0)] =
      if r.march = none then .pass else .fail := by rw [h12, structVerdict_march]
  rw [hverdict] at hjudged
  refine ⟨_, heq, hjudged, fun i hi => ?_⟩
  obtain ⟨y, hy⟩ := s.taken_stack u r [word (b2n r.march.isSome), word (r.march.getD 0)]
  have hmarch : (s.segCounted u r).marchLeft u r.seg = (s.segCounted u r).marchSram u := by
    rw [State.marchLeft, if_pos (by simp [h12])]
  have hseals : ((s.taken u r [word (b2n r.march.isSome), word (r.march.getD 0)]).judgeStruct u r.seg
      [word (b2n r.march.isSome), word (r.march.getD 0)]).stack.sramSeals =
        ((s.segCounted u r).marchSram u).stack.sramSeals := by
    rw [State.judgeStruct_eq, OnlyChanges.segDecide _ _ _ _ _ .stack (by simp), hy, hmarch]
  rw [State.sramSeal, hseals, ← State.sramSeal, State.sramSeal_marchSram _ u hi]

end

end Sys2Proof.Machine
end


section
/-! PROOF. Cross-check segments, voided results, the wait for a witness that never came, and SESSION_MAX (R218, R235,
R236). -/

namespace Sys2Proof.Machine

section
variable {s : State} {u p k g : Nat} {x : Slot} {r : SegResult} {vs : List Word}

/-! ### Cross-check segments (R218) -/

theorem State.judgeCross_of_equal (hfull : (s.tile u).chisel.values g ≠ []) (hother : (s.tile p).chisel.values g ≠ [])
    (hsame : disputed (s.tile u).chisel (s.tile p).chisel g = []) :
    s.judgeCross u p g = (s.segDecide u g .pass []).segDecide p g .pass [] := by
  unfold State.judgeCross
  dsimp only
  rw [if_neg (by simp [hfull, hother]), if_pos (by simp [hsame])]

theorem State.judgeCross_of_different (hfull : (s.tile u).chisel.values g ≠ [])
    (hother : (s.tile p).chisel.values g ≠ []) (hdiffer : disputed (s.tile u).chisel (s.tile p).chisel g ≠ []) :
    s.judgeCross u p g = (s.dispute u g).dispute p g := by
  unfold State.judgeCross
  dsimp only
  rw [if_neg (by simp [hfull, hother]), if_neg (by simpa using hdiffer)]

/-- Both tiles of a pair pass a segment whose results are equal. -/
theorem State.passed_both (hne : p ≠ u) (hg : g < 16) (hu : (s.tile u).chisel.state = 7 ∨ (s.tile u).chisel.state = 8)
    (hp : (s.tile p).chisel.state = 7 ∨ (s.tile p).chisel.state = 8) :
    (((s.segDecide u g .pass []).segDecide p g .pass []).tile u).chisel.passed.getLsbD g = true ∧
      (((s.segDecide u g .pass []).segDecide p g .pass []).tile p).chisel.passed.getLsbD g = true := by
  have hbit {c : ChiselTile} (h : c.state = 7 ∨ c.state = 8) : (c.decide g .pass []).passed.getLsbD g = true := by
    rw [ChiselTile.decide_passed h, if_pos rfl, BitVec.getLsbD_or, getLsbD_mask16_self hg, Bool.or_true]
  have hfirst : (s.segDecide u g .pass []).tile p = s.tile p := OnlyTiles.segDecide s u g _ _ p (by simpa using hne)
  constructor
  · rw [OnlyTiles.segDecide _ p g _ _ u (by simpa using hne.symm), State.chisel_segDecide_self]
    exact hbit hu
  · rw [State.chisel_segDecide_self, hfirst]
    exact hbit hp

/-- Both tiles of a pair wait for a witness for a segment whose results differ. -/
theorem State.disputed_both (hne : p ≠ u) (hu : (s.tile u).chisel.state = 7 ∨ (s.tile u).chisel.state = 8)
    (hp : (s.tile p).chisel.state = 7 ∨ (s.tile p).chisel.state = 8) :
    (((s.dispute u g).dispute p g).tile u).chisel = { (s.tile u).chisel with
      undec := (s.tile u).chisel.undec ||| mask16 [g], undecBeat := tset 0 (s.tile u).chisel.undecBeat g s.beat } ∧
    (((s.dispute u g).dispute p g).tile p).chisel = { (s.tile p).chisel with
      undec := (s.tile p).chisel.undec ||| mask16 [g], undecBeat := tset 0 (s.tile p).chisel.undecBeat g s.beat } := by
  have hbeat : (s.modChisel u (disputedChisel s.beat g)).beat = s.beat := rfl
  rw [State.dispute_eq, State.dispute_eq, hbeat]
  constructor
  · rw [State.tile_modChisel_ne _ _ hne.symm, State.tile_modChisel_self, disputedChisel_of_open hu]
  · rw [State.tile_modChisel_self, State.tile_modChisel_ne _ _ hne, disputedChisel_of_open hp]

theorem OnlyTiles.pair {f : State → Nat → State} (hf : ∀ s v, OnlyTiles [v] s (f s v)) (s : State) (u p : Nat) :
    OnlyTiles [u, p] s (f (f s u) p) :=
  ((hf s u).mono (by simp)).trans ((hf _ p).mono (by simp))

theorem OnlyTiles.dispute (s : State) (u g : Nat) : OnlyTiles [u] s (s.dispute u g) := OnlyTiles.modChisel s u _

/-- The hub has the result of a cross-check segment of tile `u`; the other tile of its pair is as it was. -/
theorem State.taken_values (hvoid : (s.tile u).chisel.voidNow = false) :
    ((s.taken u r vs).tile u).chisel.values r.seg = vs := by
  rw [State.chisel_taken, State.takenChisel, ChiselTile.values, tookResult]
  dsimp only
  rw [hvoid, if_neg Bool.false_ne_true, tget_tset_self]

theorem exec_segmentResult_cross (hready : s.ready = true) (hu : u < numTiles) (hslot : s.slotOf u = some (k, x))
    (hrole : x.role ≠ 2) (hne : x.other ≠ u) (hstate : (s.tile u).chisel.state = 7)
    (hseg : (s.tile u).chisel.seg = r.seg) (hvoid : (s.tile u).chisel.voidNow = false) (h8 : r.seg < 8)
    (h2 : r.seg ≠ 2) (hhead : (members (s.tile u).chisel.node.segs).head? = some r.seg)
    (hother : (s.tile x.other).chisel.state = 7 ∨ (s.tile x.other).chisel.state = 8)
    (hfull : (s.tile x.other).chisel.values r.seg ≠ []) :
    ((s.tile x.other).chisel.values r.seg = segValues (s.tile u).chisel.node.seed r →
      ∃ t, exec (.segmentResult u r) s = .next t ∧ OnlyTiles [u, x.other] s t ∧
        (t.tile u).chisel.passed.getLsbD r.seg = true ∧ (t.tile x.other).chisel.passed.getLsbD r.seg = true) ∧
    ((s.tile x.other).chisel.values r.seg ≠ segValues (s.tile u).chisel.node.seed r →
      ∃ t, exec (.segmentResult u r) s = .next t ∧ OnlyTiles [u, x.other] s t ∧
        (t.tile u).chisel.undec.getLsbD r.seg = true ∧ (t.tile x.other).chisel.undec.getLsbD r.seg = true ∧
        tget 0 (t.tile u).chisel.undecBeat r.seg = s.beat ∧
        (t.tile u).chisel.passed = (s.tile u).chisel.passed) := by
  have hlength := segValues_length_of_one (s.tile u).chisel.node.seed h2 (by omega) (show r.seg < 12 by omega)
  have heq := exec_segmentResult_pair hready hu hslot hrole hstate hseg (by omega) hhead
    (chiselValues_segReport _ (by omega))
  rw [hvoid, if_neg Bool.false_ne_true, if_pos h8] at heq
  generalize segValues (s.tile u).chisel.node.seed r = vs at heq hlength ⊢
  have hvalues := State.taken_values (r := r) (vs := vs) hvoid
  have htaken := OnlyTiles.taken s u r vs
  have hpartner : (s.taken u r vs).tile x.other = s.tile x.other := htaken x.other (by simpa using hne)
  have hchisel := s.chisel_taken u r vs
  have hopen : ((s.taken u r vs).tile u).chisel.state = 7 ∨ ((s.taken u r vs).tile u).chisel.state = 8 := by
    rw [hchisel]
    exact State.takenChisel_open hstate r vs
  have hsome : ((s.taken u r vs).tile u).chisel.values r.seg ≠ [] := by
    rw [hvalues]
    exact List.ne_nil_of_length_pos (by omega)
  have hbeat : (s.taken u r vs).beat = s.beat :=
    congrArg (fun y => y.time.toNat / beatCycles) (OnlyChanges.taken s u r vs .time (by simp))
  have hdisputed := disputed_eq_nil_iff (g := r.seg) (c := ((s.taken u r vs).tile u).chisel)
    (d := ((s.taken u r vs).tile x.other).chisel) fun i =>
      ⟨ChiselTile.skips_of_ne _ h2 (by omega) i, ChiselTile.skips_of_ne _ h2 (by omega) i⟩
  rw [hvalues, hpartner] at hdisputed
  rw [← hpartner] at hother hfull
  constructor
  · intro hsame
    rw [State.judgeCross_of_equal hsome hfull (by rw [hpartner]; exact hdisputed.2 hsame.symm)] at heq
    exact ⟨_, heq, (htaken.mono (by simp)).trans
      (OnlyTiles.pair (fun t v => OnlyTiles.segDecide t v r.seg .pass []) _ u x.other),
      State.passed_both hne (by omega) hopen hother⟩
  · intro hdiffer
    rw [State.judgeCross_of_different hsome hfull
      (by rw [hpartner]; exact fun h => hdiffer (hdisputed.1 h).symm)] at heq
    obtain ⟨hone, htwo⟩ := State.disputed_both (g := r.seg) hne hopen hother
    refine ⟨_, heq, (htaken.mono (by simp)).trans
      (OnlyTiles.pair (fun t v => OnlyTiles.dispute t v r.seg) _ u x.other), ?_, ?_, ?_, ?_⟩
    · rw [hone, BitVec.getLsbD_or, getLsbD_mask16_self (by omega), Bool.or_true]
    · rw [htwo, BitVec.getLsbD_or, getLsbD_mask16_self (by omega), Bool.or_true]
    · rw [hone, tget_tset_self, hbeat]
    · rw [hone, hchisel]
      rfl

/-! ### Voided results (R235) -/

theorem exec_segmentResult_void (hready : s.ready = true) (hu : u < numTiles) (hslot : s.slotOf u = some (k, x))
    (hrole : x.role ≠ 2) (hstate : (s.tile u).chisel.state = 7) (hseg : (s.tile u).chisel.seg = r.seg)
    (hvoid : (s.tile u).chisel.voidNow = true) (hlt : r.seg < 14)
    (hhead : (members (s.tile u).chisel.node.segs).head? = some r.seg) :
    ∃ t, exec (.segmentResult u r) s = .next t ∧ OnlyTiles [u] s t ∧ (t.tile u).chisel.voided.getLsbD r.seg = true ∧
      (t.tile u).chisel.passed = (s.tile u).chisel.passed ∧ (t.tile u).chisel.failed = (s.tile u).chisel.failed := by
  have heq := exec_segmentResult_pair hready hu hslot hrole hstate hseg hlt hhead rfl
  rw [if_pos hvoid] at heq
  refine ⟨_, heq, OnlyTiles.taken s u r _, ?_, ?_, ?_⟩
  · rw [State.chisel_taken, State.takenChisel, tookResult]
    dsimp only
    rw [if_pos hvoid, BitVec.getLsbD_or, getLsbD_mask16_self (by omega), Bool.or_true]
  · rw [State.chisel_taken]
    rfl
  · rw [State.chisel_taken]
    rfl

/-! ### No witness came (R218) -/

/-- Without the values of a witness, a tile that has sent what is disputed is inconclusive. -/
theorem sideVerdict_none {c d : ChiselTile} (hdispute : disputed c d g ≠ [])
    (hskip : ∀ i, c.skips g i = false) (hsent : ∀ i ∈ disputed c d g, i < (c.values g).length) :
    (sideVerdict c d g none).1 = .inconclusive := by
  have hsays : ∀ i ∈ disputed c d g, ∀ o : Option Word,
      witnessSays (if c.skips g i = true then none else (c.values g)[i]?) o none = .inconclusive := by
    intro i hi o
    rw [hskip, if_neg Bool.false_ne_true, List.getElem?_eq_getElem (hsent i hi)]
    rfl
  obtain ⟨i, hi⟩ := List.exists_mem_of_ne_nil _ hdispute
  simp only [sideVerdict, Option.bind_none]
  rw [if_neg, if_pos]
  · rw [List.any_map, List.any_eq_true]
    exact ⟨i, hi, by simpa using hsays i hi _⟩
  · simp only [Bool.not_eq_true', List.isEmpty_eq_false_iff, ne_eq, not_not, List.map_eq_nil_iff,
      List.filter_eq_nil_iff, List.mem_map]
    rintro _ ⟨j, hj, rfl⟩
    simp [hsays j hj]

theorem State.witnessDecide_none (hdispute : disputed (s.tile u).chisel (s.tile p).chisel g ≠ [])
    (hskip : ∀ i, (s.tile u).chisel.skips g i = false)
    (hsent : ∀ i ∈ disputed (s.tile u).chisel (s.tile p).chisel g, i < ((s.tile u).chisel.values g).length) :
    ∃ bad v bad', s.witnessDecide u p g none = (s.segDecide u g .inconclusive bad).segDecide p g v bad' := by
  refine ⟨(sideVerdict (s.tile u).chisel (s.tile p).chisel g none).2,
    (sideVerdict (s.tile p).chisel (s.tile u).chisel g none).1,
    (sideVerdict (s.tile p).chisel (s.tile u).chisel g none).2, ?_⟩
  rw [← sideVerdict_none hdispute hskip hsent]
  rfl

theorem exec_witnessWaitExpiry_undone (hready : s.ready = true) (hu : u < numTiles) (hslot : s.slotOf u = some (k, x))
    (hrole : x.role = 0) (hne : x.other ≠ u) (hundec : (s.tile u).chisel.undec = mask16 [g]) (hg : g < 8)
    (hnone : (s.tile u).chisel.witnessOf g = none) (hstate : (s.tile u).chisel.state = 8)
    (hover : tget 0 (s.tile u).chisel.undecBeat g + s.witnessWait ≤ s.beat)
    (hdispute : disputed (s.tile u).chisel (s.tile x.other).chisel g ≠ [])
    (hskip : ∀ i, (s.tile u).chisel.skips g i = false)
    (hsent : ∀ i ∈ disputed (s.tile u).chisel (s.tile x.other).chisel g, i < ((s.tile u).chisel.values g).length) :
    ∃ t, exec (.witnessWaitExpiry u) s = .next t ∧ OnlyChanges [.tiles] s t ∧ OnlyTiles [u, x.other] s t ∧
      (t.tile u).chisel.undone.getLsbD g = true ∧ (t.tile u).chisel.undec.getLsbD g = false := by
  have heq := exec_witnessWaitExpiry hready hu
  rw [State.witnessExpiry_of_one hslot hrole (by omega) hundec hnone hover] at heq
  have hundecided := State.witnessDecide_undec (s := s) (u := u) x.other none (show g < 16 by omega) (.inr hstate)
  obtain ⟨bad, v, bad', hdecide⟩ := State.witnessDecide_none hdispute hskip hsent
  rw [hdecide] at heq hundecided
  refine ⟨_, heq, (OnlyChanges.segDecide s u g _ bad).trans (OnlyChanges.segDecide _ x.other g v bad'),
    ((OnlyTiles.segDecide s u g _ bad).mono (by simp)).trans ((OnlyTiles.segDecide _ x.other g v bad').mono (by simp)),
    ?_, hundecided⟩
  rw [OnlyTiles.segDecide _ x.other g v bad' u (by simpa using hne.symm), State.chisel_segDecide_self,
    ChiselTile.decide_undone (.inr hstate), if_pos rfl, BitVec.getLsbD_or, getLsbD_mask16_self (by omega), Bool.or_true]

/-! ### SESSION_MAX (R236) -/

theorem ofld_abortOperand_func {func slot reason : Nat} {retire : Bool} {rows : BitVec 66} (h : func < 2 ^ 2) :
    ofld (abortOperand func slot reason retire rows) 95 94 = func := by
  refine .trans (Nat.eq_of_testBit_eq fun j => ?_) (Nat.mod_eq_of_lt h)
  simp only [ofld, abortOperand, opack, BitVec.toNat_ofNat, Nat.testBit_mod_two_pow, Nat.testBit_shiftRight,
    testBit_pack_cons, packNat_nil, Nat.zero_testBit]
  by_cases hj : j < 2
  · interval_cases j <;> simp
  · simp [hj]

/-- The running segment of a tile is voided, where one runs; nothing else of its session changes. -/
theorem State.chisel_voidTile (s : State) (u : Nat) (hstate : (s.tile u).chisel.state = 7) :
    OnlyTiles [u] s (s.voidTile u) ∧
      ((s.tile u).chisel.seg ≠ 0xF → ((s.voidTile u).tile u).chisel.voidNow = true) := by
  unfold State.voidTile
  dsimp only
  split
  next h =>
    refine ⟨fun v hv => ?_, fun _ => ?_⟩
    · rw [State.tile_bump, OnlyTiles.modChisel s u _ v hv]
    · rw [State.tile_bump, State.tile_modChisel_self]
  next h =>
    refine ⟨OnlyTiles.refl _ s, fun hseg => ?_⟩
    simpa [ChiselTile.runs, hstate, hseg] using h

theorem exec_sessionMaxExpiry_running (hready : s.ready = true) (hu : u < numTiles) (hslot : s.slotOf u = some (k, x))
    (hover : s.sessionOver u = true) (hstate : (s.tile u).chisel.state = 7) :
    ∃ t p, exec (.sessionMaxExpiry u) s = .next t ∧ OnlyTiles [u] s t ∧ (t.tile u).chisel.state = 8 ∧
      (t.tile u).chisel.seg = 0xF ∧ ((s.tile u).chisel.seg ≠ 0xF → (t.tile u).chisel.voidNow = true) ∧
      t.has p ∧ p.op = 0x11 ∧ p.dests = oneNode u ∧ ofld p.operand 95 94 = 2 := by
  have heq := exec_sessionMaxExpiry hready hu
  rw [State.sessionExpiry_of_running hslot hover hstate] at heq
  obtain ⟨hone, hvoid⟩ := s.chisel_voidTile u hstate
  obtain ⟨p, hp, hop, hdests, hoperand, -⟩ :=
    (s.runStopped u).sends_chiselSend opCHISEL_ABORT u (abortOperand 2 k 0 false 0)
  have hfunc : ofld p.operand 95 94 = 2 := by
    rw [hoperand]
    exact ofld_abortOperand_func (by decide)
  refine ⟨_, p, heq, fun v hv => ?_, ?_, ?_, fun hseg => ?_, hp, hop, hdests, hfunc⟩
  · rw [State.tile_chiselSend, State.runStopped, State.listEnded, OnlyTiles.modChisel _ _ _ v hv, hone v hv]
  all_goals rw [State.tile_chiselSend, State.runStopped, State.listEnded, State.tile_modChisel_self]
  exact hvoid hseg

theorem exec_sessionMaxExpiry_finish (hready : s.ready = true) (hu : u < numTiles) (hslot : s.slotOf u = some (k, x))
    (hover : s.sessionOver u = true) (hstate : (s.tile u).chisel.state = 8) :
    ∃ t p, exec (.sessionMaxExpiry u) s = .next t ∧ OnlyTiles [u] s t ∧ (t.tile u).chisel.state = 9 ∧
      (t.tile u).chisel.undec = 0 ∧ (t.tile u).chisel.passed = (s.tile u).chisel.passed ∧
      t.has p ∧ p.op = 0x11 ∧ p.dests = oneNode u ∧ ofld p.operand 95 94 = 1 := by
  have heq := exec_sessionMaxExpiry hready hu
  rw [State.sessionExpiry_of_holding hslot hover hstate, State.chiselFinish_of_slot hslot] at heq
  obtain ⟨p, hp, hop, hdests, hoperand, -⟩ :=
    (s.modChisel u fun c => c.toReinit 0).sends_chiselSend opCHISEL_ABORT u (s.finishOperand u k 1 0)
  have hfunc : ofld p.operand 95 94 = 1 := by
    rw [hoperand]
    exact ofld_abortOperand_func (by decide)
  refine ⟨_, p, heq, fun v hv => ?_, ?_, ?_, ?_, hp, hop, hdests, hfunc⟩
  · rw [State.tile_chiselSend, OnlyTiles.modChisel _ _ _ v hv]
  all_goals rw [State.tile_chiselSend, State.tile_modChisel_self]; rfl

end

end Sys2Proof.Machine
end


section
/-! SUPPORT. A session that passed, and its end (R225, R239). -/
namespace Sys2Proof.Machine

/-! ### The report of a session that passed (R239) -/

section
variable {s : State} {u k p : Nat} {x : Slot}

/-- CHISEL_END with OUTCOME PASSED. -/
def State.passRecord (s : State) (u p : Nat) : EvRec :=
  let c := (s.tile u).chisel
  mkRec s.time.time 0x0060 u uNODE .info
    (pack [(62, 2, 0), (48, 14, c.passed.toNat), (34, 14, c.failed.toNat), (20, 14, c.undone.toNat), (16, 4, c.abort),
      (0, 11, p)])

/-- The counters and the record of a session that passed. -/
def State.passCounted (s : State) (u p : Nat) : State :=
  ((s.bump Reg.chiselPassed).raise (s.passRecord u p)).count u 10 1

/-- What the patina of a tile keeps of a session that passed, where the scheduled units are `m`. -/
def passedPat (c : ChiselTile) (m : BitVec 16) (p : PatTile) : PatTile :=
  { p with chIncl := p.chIncl + c.inconcl, chPass := p.chPass || c.units &&& m == m }

theorem State.chiselReport_of_passed (hpass : (s.tile u).chisel.outcome = 0) :
    s.chiselReport u p =
      ((s.passCounted u p).modPat u (passedPat (s.tile u).chisel (s.passCounted u p).schedMask)).modChisel u
        fun c => { c with lastFailed := false } := by
  unfold State.chiselReport
  dsimp only
  rw [hpass]
  rfl

theorem OnlyTiles.modPat (s : State) (u : Nat) (f : PatTile → PatTile) : OnlyTiles [u] s (s.modPat u f) :=
  OnlyTiles.setTile s u _

theorem OnlyChanges.passCounted (s : State) (u p : Nat) : OnlyChanges [.tiles, .regs, .ev] s (s.passCounted u p) :=
  (((OnlyChanges.bump s _ _).mono (by simp)).trans ((OnlyChanges.raise _ _).mono (by simp))).trans
    ((OnlyChanges.count _ u 10 1).mono (by simp))

theorem OnlyTiles.passCounted (s : State) (u p : Nat) : OnlyTiles [u] s (s.passCounted u p) :=
  fun v hv => (OnlyTiles.count _ u 10 1 v hv).trans (by rw [State.tile_raise, State.tile_bump])

theorem State.counter_count {t : State} {i : Nat} (hrun : t.life.frozen = false)
    (hreset : (t.tile u).core.resetAt = none) :
    ((t.count u i 1).tile u).core.counter i = (t.tile u).core.counter i + 1 := by
  unfold State.count
  rw [if_neg (by simp [hrun]), State.tile_modCore_self]
  simp [Core.settled, hreset, Core.count, Core.counter]

/-! ### The end of the session (R225) -/

/-- The hub's row of a tile that its session leaves as it was. -/
def idleChisel (c : ChiselTile) : ChiselTile :=
  { c with slot := 0, node := {}, forced := false, saved := false, carried := false, fencedIn := false
           reinit := none, state := 0 }

/-- The session has ended in beat `beat`: its time counts for the next one. -/
def endedChisel (beat : Nat) (c : ChiselTile) : ChiselTile := { c with lastEnd := beat, ended := true, orders := [] }

/-- The slot of a tile is free, its stream runs again, and its row is idle. -/
def State.resumed (s : State) (u k : Nat) : State :=
  ((s.setSlot k none).modCore u fun c => { c with chiselStop := false }).modChisel u idleChisel

theorem State.chiselRelease_of_intact (hslot : s.slotOf u = some (k, x)) (hstate : (s.tile u).chisel.state ≠ 10)
    (hretire : (s.tile u).chisel.node.retire = false) (hlogical : s.logical u = none) :
    s.chiselRelease u = s.resumed u k := by
  have hlift : (s.setSlot k none).liftHold u = s.setSlot k none := by
    unfold State.liftHold
    rw [show (s.setSlot k none).logical u = none from hlogical]
  have hstays : ((s.tile u).chisel.state == 10 ||
      (s.tile u).chisel.node.retire && (s.tile u).chisel.abort == 0) = false := by
    simp [hstate, hretire]
  unfold State.chiselRelease
  dsimp only
  rw [State.dropSlot_of_slot hslot, hstays, hlift, ite_self]
  rfl

theorem State.chiselOver_of_intact (hslot : s.slotOf u = some (k, x)) (hstate : (s.tile u).chisel.state ≠ 10)
    (hretire : (s.tile u).chisel.node.retire = false) (hlogical : s.logical u = none)
    (horders : (s.tile u).chisel.orders = []) (hpend : (s.tile u).chisel.pend = false) :
    s.chiselOver u = (s.resumed u k).modChisel u (endedChisel s.beat) := by
  have hrow : (((s.resumed u k).modChisel u (endedChisel s.beat)).tile u).chisel =
      endedChisel s.beat (idleChisel (s.tile u).chisel) := by
    rw [State.tile_modChisel_self, State.resumed, State.tile_modChisel_self, State.tile_modCore_self,
      State.tile_setSlot]
  unfold State.chiselOver
  dsimp only
  rw [horders, List.foldl_nil, State.chiselRelease_of_intact hslot hstate hretire hlogical]
  refine .trans (if_neg ?_) (State.chiselPend_of_not ?_)
  · have hidle : (((s.resumed u k).modChisel u (endedChisel s.beat)).tile u).chisel.state = 0 :=
      congrArg ChiselTile.state hrow
    exact fun h => absurd (hidle.symm.trans (eq_of_beq h)) (by decide)
  · exact (congrArg ChiselTile.pend hrow).trans hpend

/-- The state after a session that passed has been reported. -/
def State.passReported (s : State) (u p : Nat) : State := (s.chiselReport u p).chiselCredit u

/-- The hub's row of a tile with the rows that were bad before its session. -/
def ChiselTile.before (c : ChiselTile) : ChiselTile := { c with rowBad := c.oldBad, rowMap := c.oldMap }

theorem ChiselTile.repair_of_passed {c : ChiselTile} (hfailed : c.failed = 0) (hrows : c.badRows = 0)
    (hmain : c.badMain = false) : c.repair = none := by
  have hnew : c.newRows = 0 := by
    rw [ChiselTile.newRows, hrows]
    exact BitVec.zero_and
  unfold ChiselTile.repair
  dsimp only
  rw [hfailed, hnew, hmain]
  rfl

theorem ChiselTile.finalRepair_of_none {c : ChiselTile} (h : c.repair = none) : c.finalRepair none = none := by
  unfold ChiselTile.finalRepair
  rw [h]
  exact ite_self _

theorem ChiselTile.taintUnits_of_passed {c : ChiselTile} (hfailed : c.failed = 0) : c.taintUnits none = [] := by
  unfold ChiselTile.taintUnits
  dsimp only
  rw [hfailed]
  simp [members]

theorem State.chiselEnd_of_passed (hslot : s.slotOf u = some (k, x)) (hrole : x.role ≠ 2)
    (hstate : (s.tile u).chisel.state = 9) (hreinit : (s.tile u).chisel.reinit = some none)
    (hfailed : (s.tile u).chisel.failed = 0) (hrows : (s.tile u).chisel.badRows = 0)
    (hmain : (s.tile u).chisel.badMain = false) (hfence : (s.tile u).chisel.fencedIn = false) :
    s.chiselEnd u = (s.passReported u x.other).chiselOver u := by
  have hunits : (s.tile u).chisel.before.taintUnits none = [] := ChiselTile.taintUnits_of_passed hfailed
  have hrepair : (s.tile u).chisel.before.finalRepair none = none :=
    ChiselTile.finalRepair_of_none (ChiselTile.repair_of_passed hfailed hrows hmain)
  rw [ChiselTile.before, hreinit] at hunits hrepair
  unfold State.chiselEnd
  dsimp only
  rw [hslot, hreinit]
  dsimp only
  rw [if_neg (by simp [hstate]), if_neg (by simp [hrole]), if_neg (by simp [hfence]), hunits, hrepair]
  rfl

/-! ### What the report leaves unchanged -/

theorem ChiselTile.outcome_of_passed {c : ChiselTile} (habort : c.abort = 0) (hfailed : c.failed = 0)
    (hundone : c.undone = 0) (hlist : c.list &&& ~~~c.passed = 0) : c.outcome = 0 := by
  unfold ChiselTile.outcome
  rw [if_neg (by simp [habort]), if_neg (by simp [hfailed]), if_pos (by simp [hundone, hlist])]

theorem State.chisel_passCounted : ((s.passCounted u p).tile u).chisel = (s.tile u).chisel := by
  rw [State.passCounted, State.chisel_count, State.tile_raise, State.tile_bump]

section
variable (hpass : (s.tile u).chisel.outcome = 0)
include hpass

theorem OnlyTiles.passReported : OnlyTiles [u] s (s.passReported u p) := by
  rw [State.passReported, State.chiselReport_of_passed hpass]
  exact (((OnlyTiles.passCounted s u p).trans (OnlyTiles.modPat _ u _)).trans (OnlyTiles.modChisel _ u _)).trans
    (OnlyTiles.modChisel _ u _)

/-- Beside the tiles, the report changes what the counters and the record do. -/
theorem OnlyChanges.passReported : OnlyChanges [.tiles] (s.passCounted u p) (s.passReported u p) := by
  rw [State.passReported, State.chiselReport_of_passed hpass]
  exact ((OnlyChanges.setTile _ u _).trans (OnlyChanges.setTile _ u _)).trans (OnlyChanges.setTile _ u _)

theorem State.core_passReported : ((s.passReported u p).tile u).core = ((s.passCounted u p).tile u).core := by
  rw [State.passReported, State.chiselReport_of_passed hpass, State.chiselCredit]
  simp only [State.tile_modChisel_self, State.tile_modPat_self]

/-- Of the hub's row of the tile, the report changes what it knows of earlier sessions. -/
theorem State.chisel_passReported : ∃ lastPass, ((s.passReported u p).tile u).chisel =
    { (s.tile u).chisel with lastFailed := false, lastPass } := by
  refine ⟨((s.passReported u p).tile u).chisel.lastPass, ?_⟩
  rw [State.passReported, State.chiselReport_of_passed hpass, State.chiselCredit]
  simp only [State.tile_modChisel_self, State.tile_modPat_self, State.chisel_passCounted]

end

/-! ### The tile goes on (R225, R239) -/

theorem State.frozen_of_ready (hready : s.ready = true) : s.life.frozen = false := by
  simp only [State.ready, State.up, Bool.and_eq_true, Bool.not_eq_true'] at hready
  exact hready.1.2

/-- The state after a session that passed. -/
def State.sessionPassed (s : State) (u k p : Nat) : State :=
  ((s.passReported u p).resumed u k).modChisel u (endedChisel s.beat)

theorem State.chiselEnd_eq_sessionPassed (hslot : s.slotOf u = some (k, x)) (hrole : x.role ≠ 2)
    (hstate : (s.tile u).chisel.state = 9) (hreinit : (s.tile u).chisel.reinit = some none)
    (hpass : (s.tile u).chisel.outcome = 0) (hfailed : (s.tile u).chisel.failed = 0)
    (hrows : (s.tile u).chisel.badRows = 0) (hmain : (s.tile u).chisel.badMain = false)
    (hretire : (s.tile u).chisel.node.retire = false) (hpend : (s.tile u).chisel.pend = false)
    (hfence : (s.tile u).chisel.fencedIn = false) (hlogical : s.logical u = none)
    (horders : (s.tile u).chisel.orders = []) : s.chiselEnd u = s.sessionPassed u k x.other := by
  have hcounted := OnlyChanges.passCounted s u x.other
  have hreported := OnlyChanges.passReported (p := x.other) hpass
  obtain ⟨lastPass, hrow⟩ := State.chisel_passReported (p := x.other) hpass
  have hslots : (s.passReported u x.other).chisel = s.chisel :=
    (hreported .chisel (by simp)).trans (hcounted .chisel (by simp))
  have hmap : (s.passReported u x.other).map = s.map := (hreported .map (by simp)).trans (hcounted .map (by simp))
  have hbeat : (s.passReported u x.other).beat = s.beat := by
    have htime : (s.passReported u x.other).time = s.time :=
      (hreported .time (by simp)).trans (hcounted .time (by simp))
    rw [State.beat, State.beat, htime]
  rw [State.chiselEnd_of_passed hslot hrole hstate hreinit hfailed hrows hmain hfence,
    State.chiselOver_of_intact (x := x) ((State.slotOf_of_chisel hslots u).trans hslot), hbeat]
  case hlogical =>
    rw [State.logical, hmap]
    exact hlogical
  · rfl
  all_goals rw [hrow]
  · exact fun h => absurd (hstate.symm.trans h) (by decide)
  · exact hretire
  · exact horders
  · exact hpend

theorem State.tile_resumed_self : ((s.resumed u k).tile u) =
    { s.tile u with
      core := { (s.tile u).core with chiselStop := false }, chisel := idleChisel (s.tile u).chisel } := by
  rw [State.resumed, State.tile_modChisel_self, State.tile_modCore_self, State.tile_setSlot]

theorem OnlyTiles.resumed : OnlyTiles [u] s (s.resumed u k) := fun v hv => by
  rw [State.resumed, OnlyTiles.modChisel _ _ _ v hv, OnlyTiles.modCore _ _ _ v hv, State.tile_setSlot]

theorem OnlyChanges.resumed : OnlyChanges [.tiles, .chisel] s (s.resumed u k) :=
  (((OnlyChanges.setSlot s k none).mono (by simp)).trans ((OnlyChanges.modCore _ u _).mono (by simp))).trans
    ((OnlyChanges.modChisel _ u _).mono (by simp))

theorem OnlyChanges.sessionPassed (hpass : (s.tile u).chisel.outcome = 0) :
    OnlyChanges [.tiles, .chisel] (s.passCounted u p) (s.sessionPassed u k p) :=
  (((OnlyChanges.passReported hpass).mono (by simp)).trans OnlyChanges.resumed).trans
    ((OnlyChanges.modChisel _ u _).mono (by simp))

theorem OnlyTiles.sessionPassed (hpass : (s.tile u).chisel.outcome = 0) : OnlyTiles [u] s (s.sessionPassed u k p) :=
  ((OnlyTiles.passReported hpass).trans OnlyTiles.resumed).trans (OnlyTiles.modChisel _ u _)

theorem State.slot_sessionPassed : (s.sessionPassed u k p).slot k = none := by
  have hslots : (s.sessionPassed u k p).chisel = ((s.passReported u p).setSlot k none).chisel :=
    ((OnlyChanges.modCore _ u _).trans ((OnlyChanges.modChisel _ u _).trans (OnlyChanges.modChisel _ u _))) .chisel
      (by simp)
  rw [State.slot, hslots]
  exact State.slot_setSlot_self _ k none

theorem Core.counter_chiselStop (c : Core) (b : Bool) (i : Nat) :
    ({ c with chiselStop := b } : Core).counter i = c.counter i := rfl

/-- The tile after its session: its stream runs, its row is idle, and its sessions are counted. -/
theorem State.tile_sessionPassed (hpass : (s.tile u).chisel.outcome = 0) (hfrozen : s.life.frozen = false)
    (hreset : (s.tile u).core.resetAt = none) :
    let c := (s.sessionPassed u k p).tile u
    c.chisel.state = 0 ∧ c.core.chiselStop = false ∧ c.chisel.ended = true ∧ c.chisel.lastEnd = s.beat ∧
      c.core.counter 10 = (s.tile u).core.counter 10 + 1 := by
  have hcount : ((s.passReported u p).tile u).core.counter 10 = (s.tile u).core.counter 10 + 1 := by
    rw [State.core_passReported hpass, State.passCounted,
      State.counter_count (t := (s.bump Reg.chiselPassed).raise (s.passRecord u p)) hfrozen]
    · rw [State.tile_raise, State.tile_bump]
    · rw [State.tile_raise, State.tile_bump, hreset]
  dsimp only
  rw [State.sessionPassed, State.tile_modChisel_self, State.tile_resumed_self]
  dsimp only
  rw [Core.counter_chiselStop]
  exact ⟨rfl, rfl, rfl, rfl, hcount⟩

theorem State.ev_sessionPassed (hpass : (s.tile u).chisel.outcome = 0) :
    s.passRecord u p ∈ (s.sessionPassed u k p).ev.queue := by
  rw [OnlyChanges.sessionPassed hpass .ev (by simp), State.passCounted, OnlyChanges.count _ _ _ _ .ev (by simp)]
  exact List.mem_append_right _ (List.mem_singleton_self _)

theorem State.reg_sessionPassed (hpass : (s.tile u).chisel.outcome = 0) :
    ((s.sessionPassed u k p).reg Reg.chiselPassed).toNat =
      min ((s.reg Reg.chiselPassed).toNat + 1) (regMask Reg.chiselPassed) := by
  have hregs : (s.sessionPassed u k p).regs = (s.bump Reg.chiselPassed).regs :=
    (OnlyChanges.sessionPassed hpass .regs (by simp)).trans (OnlyChanges.count _ _ _ _ .regs (by simp))
  rw [State.reg_of_regs hregs]
  exact State.reg_bump_self s _ 1 (regMask_lt _)

/-! ### The dispatch phase (R225) -/

theorem State.chiselEndAll_of_one (hcast : s.castPhase ≠ 3) (hslots : s.slotTiles = [u]) :
    s.chiselEndAll = if (s.tile u).chisel.reinit.isSome = true then (s.castLateAt u).chiselEnd u else s := by
  unfold State.chiselEndAll
  rw [if_neg (by simpa using hcast), hslots]
  rfl

end

end Sys2Proof.Machine
end


section
/-! SUPPORT. The MAP_LOAD packets of a full load say what the map holds (R265). -/

namespace Sys2Proof.Machine

/-! ### Fields of a packed number -/

theorem testBit_packNat (fs : List Fld) (i : Nat) : (packNat fs).testBit i =
    fs.any fun f => decide (f.1 ≤ i) && (decide (i - f.1 < f.2.1) && f.2.2.testBit (i - f.1)) := by
  induction fs with
  | nil => exact Nat.zero_testBit i
  | cons f fs ih => rw [testBit_pack_cons, ih, List.any_cons]

/-- A field that no other one overlaps reads back. -/
theorem field_packNat {fs : List Fld} {lo w v : Nat} (hmem : (lo, w, v) ∈ fs)
    (hapart : ∀ f ∈ fs, f.1 + f.2.1 ≤ lo ∨ lo + w ≤ f.1 ∨ f = (lo, w, v)) :
    (packNat fs >>> lo) % 2 ^ w = v % 2 ^ w := by
  refine Nat.eq_of_testBit_eq fun j => ?_
  rw [Nat.testBit_mod_two_pow, Nat.testBit_mod_two_pow, Nat.testBit_shiftRight, testBit_packNat]
  by_cases hj : j < w
  · rw [decide_eq_true hj, Bool.true_and, Bool.true_and, Bool.eq_iff_iff, List.any_eq_true]
    simp only [Bool.and_eq_true, decide_eq_true_eq]
    constructor
    · rintro ⟨f, hf, hlo, hw, hv⟩
      obtain h | h | rfl := hapart f hf
      · omega
      · omega
      · simpa using hv
    · exact fun hv => ⟨_, hmem, by simp, by simpa using hj, by simpa using hv⟩
  · rw [decide_eq_false hj, Bool.false_and, Bool.false_and]

theorem field_mod_two_pow {x n lo w : Nat} (h : lo + w ≤ n) : ((x % 2 ^ n) >>> lo) % 2 ^ w = (x >>> lo) % 2 ^ w := by
  refine Nat.eq_of_testBit_eq fun j => ?_
  rw [Nat.testBit_mod_two_pow, Nat.testBit_mod_two_pow, Nat.testBit_shiftRight, Nat.testBit_shiftRight,
    Nat.testBit_mod_two_pow]
  by_cases hj : j < w
  · rw [decide_eq_true (show lo + j < n by omega), Bool.true_and]
  · rw [decide_eq_false hj, Bool.false_and, Bool.false_and]

/-! ### The OPERAND of MAP_LOAD (Table 8.3) -/

/-- OPERAND of the packet that carries `count` entries of section `sect` from `first` on. -/
def loadOperand (gen : BitVec 16) (sect first count : Nat) (last : Bool) : BitVec 96 :=
  opack [(94, 2, sect), (83, 11, first), (73, 10, count - 1), (72, 1, b2n last), (56, 16, gen.toNat)]

section
variable {gen : BitVec 16} {sect first count : Nat} {last : Bool}

theorem ofld_opack {fs : List Fld} {hi lo v : Nat} (hmem : (lo, hi + 1 - lo, v) ∈ fs) (hv : v < 2 ^ (hi + 1 - lo))
    (hhi : lo ≤ hi ∧ hi < 96) (hapart : ∀ f ∈ fs, f.1 + f.2.1 ≤ lo ∨ hi < f.1 ∨ f = (lo, hi + 1 - lo, v)) :
    ofld (opack fs) hi lo = v := by
  rw [ofld, opack, BitVec.toNat_ofNat, field_mod_two_pow (by omega), field_packNat hmem, Nat.mod_eq_of_lt hv]
  exact fun f hf => (hapart f hf).imp_right (.imp_left (by omega))

theorem loadOperand_section (h : sect < 4) : ofld (loadOperand gen sect first count last) 95 94 = sect :=
  ofld_opack (by simp) (by omega) (by omega) (by simp)

theorem loadOperand_first (h : first < 2048) : ofld (loadOperand gen sect first count last) 93 83 = first :=
  ofld_opack (by simp) (by omega) (by omega) (by simp)

theorem loadOperand_count (h : count ≤ 1024) (hpos : 0 < count) :
    ofld (loadOperand gen sect first count last) 82 73 + 1 = count := by
  rw [loadOperand, ofld_opack (v := count - 1) (by simp) (by omega) (by omega) (by simp)]
  omega

theorem loadOperand_last : ofld (loadOperand gen sect first count last) 72 72 = b2n last :=
  ofld_opack (by simp) (by cases last <;> decide) (by omega) (by simp)

theorem loadOperand_gen : BitVec.ofNat 16 (ofld (loadOperand gen sect first count last) 71 56) = gen := by
  rw [loadOperand, ofld_opack (v := gen.toNat) (by simp) gen.isLt (by omega) (by simp), BitVec.ofNat_toNat,
    BitVec.setWidth_eq]

end

/-! ### Map sections -/

/-- Entries in packet `p` of the map section. -/
def mapCount (p : Nat) : Nat := min 66 (numLogical - 66 * p)

/-- Entries in flit `j` of packet `p` of the map section. -/
def flitEntries (m : NiMap) (p j : Nat) : List Fld :=
  (List.range (min 11 (mapCount p - 11 * j))).map fun i => (11 * i, 11, m.phys (66 * p + 11 * j + i))

/-- Data of packet `p` of the map section. -/
def mapData (m : NiMap) (p : Nat) : List Flit :=
  (List.range ((mapCount p + 10) / 11)).map fun j => BitVec.ofNat 128 (packNat (flitEntries m p j))

/-- Packet `p` of the map section. -/
def mapPacket (m : NiMap) (p : Nat) : BitVec 96 × List Flit :=
  (loadOperand m.gen 0 (66 * p) (mapCount p) false, mapData m p)

/-- Bits in the packet of a vector of `size` bits that begins at `first`. -/
def bitCount (size first : Nat) : Nat := min 768 (size - first)

/-- Packet of a vector section. -/
def bitPacket (gen : BitVec 16) (v sect size : Nat) (last : Bool) (first : Nat) : BitVec 96 × List Flit :=
  (loadOperand gen sect first (bitCount size first) last, (List.range (bitCount size first / 128)).map fun j =>
    BitVec.ofNat 128 (v >>> (first + 128 * j)))

theorem mapPackets_eq (m : NiMap) : mapPackets m = (List.range 16).map (mapPacket m) ++
    [bitPacket m.gen m.fence.toNat 1 numTiles false 0, bitPacket m.gen m.fence.toNat 1 numTiles false 768,
      bitPacket m.gen m.hold.toNat 2 numLogical false 0, bitPacket m.gen m.hold.toNat 2 numLogical true 768] := rfl

section
variable {m : NiMap} {p k n : Nat}

theorem loadEntry_mapData (hk : k < mapCount p) (hphys : m.phys (66 * p + k) < numTiles) :
    loadEntry (mapData m p) k = m.phys (66 * p + k) := by
  have hflit : k / 11 < (mapCount p + 10) / 11 := by omega
  have hsplit : 66 * p + 11 * (k / 11) + k % 11 = 66 * p + k := by omega
  have hentry : (11 * (k % 11), 11, m.phys (66 * p + k)) ∈ flitEntries m p (k / 11) :=
    List.mem_map.2 ⟨k % 11, List.mem_range.2 (by omega), by rw [hsplit]⟩
  have hapart : ∀ f ∈ flitEntries m p (k / 11),
      f.1 + f.2.1 ≤ 11 * (k % 11) ∨ 11 * (k % 11) + 11 ≤ f.1 ∨ f = (11 * (k % 11), 11, m.phys (66 * p + k)) := by
    intro f hf
    obtain ⟨i, -, rfl⟩ := List.mem_map.1 hf
    obtain h | rfl | h := Nat.lt_trichotomy i (k % 11)
    · exact .inl (by dsimp only; omega)
    · exact .inr (.inr (by rw [hsplit]))
    · exact .inr (.inl (by dsimp only; omega))
  rw [loadEntry, mapData, List.getD_eq_getElem?_getD, List.getElem?_map, List.getElem?_range hflit]
  dsimp only [Option.map_some, Option.getD_some]
  rw [flitFld, BitVec.toNat_ofNat, show 11 * (k % 11) + 10 + 1 - 11 * (k % 11) = 11 by omega,
    field_mod_two_pow (by omega), field_packNat hentry hapart]
  exact Nat.mod_eq_of_lt (hphys.trans (by decide))

theorem NiMap.phys_setPhys (m : NiMap) {l t : Nat} (ht : t < numTiles) (j : Nat) :
    (m.setPhys l t).phys j = if j = l then t else m.phys j := by
  unfold NiMap.phys NiMap.setPhys
  split
  next h =>
    rw [h, tget_tset_self, BitVec.toNat_ofNat]
    exact Nat.mod_eq_of_lt (ht.trans (by decide))
  next h => rw [tget_tset_ne _ _ _ _ h]

/-- What the map sections before packet `p` have loaded of map `m`; of a vector nothing changes. -/
def NiMap.loadedTo (m b : NiMap) (n : Nat) (c : NiMap) : Prop :=
  (∀ l, l < n → l < numLogical → c.phys l = m.phys l) ∧ c.fence = b.fence ∧ c.hold = b.hold

/-- The entries of a map section each take their place. -/
theorem loadEntries_loadedTo {b c : NiMap} {data : List Flit} {first : Nat} (hloaded : m.loadedTo b first c)
    (hdata : ∀ k, k < n → first + k < numLogical → loadEntry data k = m.phys (first + k))
    (hphys : ∀ l, l < numLogical → m.phys l < numTiles) : m.loadedTo b (first + n) (loadEntries first n data c) := by
  induction n with
  | zero => exact hloaded
  | succ n ih =>
    obtain ⟨hmap, hfence, hhold⟩ := ih fun k hk => hdata k (by omega)
    rw [loadEntries, List.range_succ, List.foldl_append, ← loadEntries, List.foldl_cons, List.foldl_nil]
    split
    next hin =>
      refine ⟨fun l hl hin' => ?_, hfence, hhold⟩
      rw [hdata n (by omega) hin, NiMap.phys_setPhys _ (hphys _ hin)]
      split
      next h => rw [h]
      next h => exact hmap l (by omega) hin'
    next hout => exact ⟨fun l hl hin' => hmap l (by omega) hin', hfence, hhold⟩

/-- The map that is loaded keeps every logical tile in its region (R26). -/
def NiMap.inRegions (m : NiMap) : Prop :=
  ∀ l, l < numLogical → m.phys l < numTiles ∧ regionOf (m.phys l) = regionOfLogical l

theorem loadSection_mapPacket (hregions : m.inRegions) {b c : NiMap} (hp : p < 16) (hloaded : m.loadedTo b (66 * p) c) :
    ∃ d, loadSection c (mapPacket m p).1 (mapPacket m p).2 = some d ∧ m.loadedTo b (66 * (p + 1)) d := by
  have hcount : mapCount p = min 66 (1024 - 66 * p) := rfl
  have hentry (k : Nat) (hk : k < mapCount p) : loadEntry (mapData m p) k = m.phys (66 * p + k) :=
    loadEntry_mapData hk (hregions _ (show 66 * p + k < 1024 by omega)).1
  have hin : loadInRegion (66 * p) (mapCount p) (mapData m p) = true := by
    rw [loadInRegion, List.all_eq_true]
    intro k hk
    obtain ⟨hphys, hregion⟩ := hregions (66 * p + k) (show _ < 1024 by have := List.mem_range.1 hk; omega)
    rw [hentry k (List.mem_range.1 hk), decide_eq_true hphys, hregion, beq_self_eq_true]
    rfl
  obtain ⟨hmap, hvectors⟩ := loadEntries_loadedTo (n := mapCount p) hloaded (fun k hk _ => hentry k hk)
    fun l hl => (hregions l hl).1
  refine ⟨loadEntries (66 * p) (mapCount p) (mapData m p) c, ?_, fun l hl hin => hmap l ?_ hin, hvectors⟩
  · unfold loadSection mapPacket
    dsimp only
    rw [loadOperand_section (by omega), loadOperand_first (by omega), loadOperand_count (by omega) (by omega)]
    have hend : 66 * p + mapCount p ≤ numLogical := show _ ≤ 1024 by omega
    exact if_pos (by rw [hin, decide_eq_true hend, decide_eq_true (show mapCount p ≤ 66 by omega)]; rfl)
  · have : l < 1024 := hin
    omega

end

/-! ### Vector sections -/

section
variable {n first count : Nat} {data : List Flit}

theorem getLsbD_loadBits (v : BitVec n) (hcount : first + count ≤ n) (i : Nat) :
    (loadBits first count data v).getLsbD i =
      if first ≤ i ∧ i < first + count then (data.getD ((i - first) / 128) 0).getLsbD ((i - first) % 128)
      else v.getLsbD i := by
  induction count with
  | zero => exact (if_neg (by omega)).symm
  | succ count ih =>
    rw [loadBits, List.range_succ, List.foldl_append, ← loadBits, List.foldl_cons, List.foldl_nil]
    by_cases hi : i = first + count
    · rw [hi, getLsbD_setBit_self _ _ (by omega), if_pos (by omega), Nat.add_sub_cancel_left]
    · rw [getLsbD_setBit_of_ne _ _ hi, ih (by omega)]
      exact if_congr (by omega) rfl rfl

/-- Flit `k / 128` of a vector section carries bit `k % 128`. -/
theorem getLsbD_bitData (v k : Nat) (hk : k / 128 < count) :
    (((List.range count).map fun j => BitVec.ofNat 128 (v >>> (first + 128 * j))).getD (k / 128) 0).getLsbD (k % 128) =
      v.testBit (first + k) := by
  rw [List.getD_eq_getElem?_getD, List.getElem?_map, List.getElem?_range hk]
  dsimp only [Option.map_some, Option.getD_some]
  rw [BitVec.getLsbD_ofNat, decide_eq_true (Nat.mod_lt k (by decide)), Bool.true_and, Nat.testBit_shiftRight,
    show first + 128 * (k / 128) + k % 128 = first + k by omega]

/-- A vector section loads its bits of the vector. -/
theorem getLsbD_loadBits_bitPacket {size first : Nat} (hfirst : first + bitCount size first ≤ size)
    (hflits : 128 ∣ bitCount size first) (gen : BitVec 16) (v w : BitVec size) (sect : Nat) (last : Bool) (i : Nat) :
    (loadBits first (bitCount size first) (bitPacket gen v.toNat sect size last first).2 w).getLsbD i =
      if first ≤ i ∧ i < first + bitCount size first then v.getLsbD i else w.getLsbD i := by
  rw [getLsbD_loadBits _ hfirst]
  split
  next hi =>
    rw [bitPacket, getLsbD_bitData _ _ (by omega), show first + (i - first) = i by omega]
    rfl
  next => rfl

end

section
variable {first : Nat} (m c : NiMap) (gen : BitVec 16) (last : Bool)

theorem loadSection_fence (hfirst : first = 0 ∨ first = 768) :
    ∃ d, loadSection c (bitPacket gen m.fence.toNat 1 numTiles last first).1
        (bitPacket gen m.fence.toNat 1 numTiles last first).2 = some d ∧
      (∀ l, d.phys l = c.phys l) ∧ d.hold = c.hold ∧
      ∀ v, d.fenced v = if first ≤ v ∧ v < first + bitCount numTiles first then m.fenced v else c.fenced v := by
  have hcount : bitCount numTiles first = min 768 (1152 - first) := rfl
  have hend : first + bitCount numTiles first ≤ numTiles := show _ ≤ 1152 by omega
  refine ⟨{ c with
      fence := loadBits first (bitCount numTiles first) (bitPacket gen m.fence.toNat 1 numTiles last first).2 c.fence },
    ?_, fun l => rfl, rfl, getLsbD_loadBits_bitPacket hend (by omega) gen m.fence c.fence 1 last⟩
  unfold loadSection bitPacket
  dsimp only
  rw [loadOperand_section (by omega), loadOperand_first (by omega), loadOperand_count (by omega) (by omega)]
  exact if_pos (by rw [decide_eq_true hend, decide_eq_true (show bitCount numTiles first ≤ 768 by omega)]; rfl)

theorem loadSection_hold (hfirst : first = 0 ∨ first = 768) :
    ∃ d, loadSection c (bitPacket gen m.hold.toNat 2 numLogical last first).1
        (bitPacket gen m.hold.toNat 2 numLogical last first).2 = some d ∧
      (∀ l, d.phys l = c.phys l) ∧ d.fence = c.fence ∧
      ∀ l, d.held l = if first ≤ l ∧ l < first + bitCount numLogical first then m.held l else c.held l := by
  have hcount : bitCount numLogical first = min 768 (1024 - first) := rfl
  have hend : first + bitCount numLogical first ≤ numLogical := show _ ≤ 1024 by omega
  refine ⟨{ c with
      hold := loadBits first (bitCount numLogical first) (bitPacket gen m.hold.toNat 2 numLogical last first).2
        c.hold },
    ?_, fun l => rfl, rfl, getLsbD_loadBits_bitPacket hend (by omega) gen m.hold c.hold 2 last⟩
  unfold loadSection bitPacket
  dsimp only
  rw [loadOperand_section (by omega), loadOperand_first (by omega), loadOperand_count (by omega) (by omega)]
  exact if_pos (by rw [decide_eq_true hend, decide_eq_true (show bitCount numLogical first ≤ 768 by omega)]; rfl)

end

end Sys2Proof.Machine
end


section
/-! SUPPORT. MAP_LOAD at a node: what the load buffer and the NI of a tile hold after each packet (R257, R265). -/

namespace Sys2Proof.Machine

/-! ### The map at a node -/

/-- From `s` to `t` only tile `u` changes, neither its session nor the hub's map does, and its NI has map `ni`, load
buffer `buf` and pending changes `pend`. -/
structure NiAfter (u : Nat) (ni buf : NiMap) (pend : List (BitVec 8 × BitVec 96)) (s t : State) : Prop where
  tiles : OnlyTiles [u] s t
  map : t.map = s.map
  chisel : (t.tile u).chisel = (s.tile u).chisel
  ni : (t.tile u).core.ni = ni
  buf : (t.tile u).core.loadBuf = buf
  pend : (t.tile u).core.niPend = pend

section
variable {u : Nat} {ni buf : NiMap} {pend : List (BitVec 8 × BitVec 96)} {s t r : State} {ps : List Part}

theorem NiAfter.refl (u : Nat) (s : State) :
    NiAfter u (s.tile u).core.ni (s.tile u).core.loadBuf (s.tile u).core.niPend s s :=
  ⟨OnlyTiles.refl _ s, rfl, rfl, rfl, rfl, rfl⟩

theorem NiAfter.of_reports (h : NiAfter u ni buf pend s t) (hr : Reports ps [u] t r) (hmap : .map ∉ ps) :
    NiAfter u ni buf pend s r where
  tiles := h.tiles.trans hr.tiles
  map := .trans (hr.parts .map hmap) h.map
  chisel := (congrArg (·.chisel) (hr.work u)).trans h.chisel
  ni := (congrArg (·.core.ni) (hr.work u)).trans h.ni
  buf := (congrArg (·.core.loadBuf) (hr.work u)).trans h.buf
  pend := (congrArg (·.core.niPend) (hr.work u)).trans h.pend

theorem NiAfter.of_changes (h : NiAfter u ni buf pend s t) (hr : OnlyChanges ps t r) (htiles : .tiles ∉ ps)
    (hmap : .map ∉ ps) : NiAfter u ni buf pend s r := by
  have htile : r.tile u = t.tile u := State.tile_of_tiles (hr .tiles htiles) u
  exact ⟨h.tiles.trans (OnlyTiles.of_changes hr htiles), .trans (hr .map hmap) h.map, by rw [htile, h.chisel],
    by rw [htile, h.ni], by rw [htile, h.buf], by rw [htile, h.pend]⟩

theorem NiAfter.modCore (h : NiAfter u ni buf pend s t) (f : Core → Core) :
    NiAfter u (f (t.tile u).core).ni (f (t.tile u).core).loadBuf (f (t.tile u).core).niPend s (t.modCore u f) := by
  refine ⟨h.tiles.trans (OnlyTiles.modCore t u f), .trans (OnlyChanges.modCore t u f .map (by simp)) h.map,
    ?_, ?_, ?_, ?_⟩
  all_goals rw [State.tile_modCore_self]
  exact h.chisel

/-- Changes of a core that leave its NI's map alone. -/
theorem NiAfter.modOther (h : NiAfter u ni buf pend s t) {f : Core → Core}
    (hf : ∀ c, (f c).ni = c.ni ∧ (f c).loadBuf = c.loadBuf ∧ (f c).niPend = c.niPend) :
    NiAfter u ni buf pend s (t.modCore u f) := by
  obtain ⟨hni, hbuf, hpend⟩ := hf (t.tile u).core
  have hafter := h.modCore f
  rwa [hni, hbuf, hpend, h.ni, h.buf, h.pend] at hafter

theorem NiAfter.modMaq (h : NiAfter u ni buf pend s t) (f : MaqTile → MaqTile) :
    NiAfter u ni buf pend s (t.modMaq u f) := by
  refine ⟨h.tiles.trans (OnlyTiles.setTile t u _), .trans (OnlyChanges.modMaq t u f .map (by simp)) h.map,
    ?_, ?_, ?_, ?_⟩
  all_goals rw [State.tile_modMaq_self]
  exacts [h.chisel, h.ni, h.buf, h.pend]

/-! ### The router of a tile closes and opens (R257, R266) -/

theorem Core.cutHere_ni (c : Core) :
    c.cutHere.ni = c.ni ∧ c.cutHere.loadBuf = c.loadBuf ∧ c.cutHere.niPend = c.niPend := by
  unfold Core.cutHere
  split <;> exact ⟨rfl, rfl, rfl⟩

/-- The parts in which a stream that a fence stops reports. -/
abbrev fenceParts : List Part := .stack :: reportParts

theorem NiAfter.fenceStop (h : NiAfter u ni buf pend s t) (how : Nat) :
    NiAfter u ni buf pend s (t.fenceStop u how) := by
  have hstop : Reports fenceParts [u] t (t.stopPass u) := .stopPass (.refl ..) (by simp) (by simp)
  unfold State.fenceStop
  dsimp only
  split
  next =>
    have hend := hstop.traceEnd (u := u) (how := how) (by simp) (by simp) (by simp) (by simp)
    exact (h.of_reports hend (by simp)).modOther fun c =>
      Core.cutHere_ni { c with fenceStop := true, interrupted := true, unreported := true }
  next => exact (h.of_reports hstop (by simp)).modOther fun _ => ⟨rfl, rfl, rfl⟩

theorem NiAfter.routerSet (h : NiAfter u ni buf pend s t) (closed : Bool) (how : Nat) :
    NiAfter u ni buf pend s (t.routerSet u closed how) := by
  have hset := (h.modOther (f := fun c => { c with router := closed }) fun _ => ⟨rfl, rfl, rfl⟩).of_changes
    (OnlyChanges.unitRing _ u uROUTER .state 0) (by simp) (by simp)
  unfold State.routerSet
  dsimp only
  split
  next => exact h
  next =>
    split
    next => exact hset.fenceStop how
    next => exact hset.modOther fun _ => ⟨rfl, rfl, rfl⟩

/-! ### MAP_LOAD at the node (R265) -/

theorem NiAfter.nodeLoad (h : NiAfter u ni buf pend s t) {o : BitVec 96} {data : List Flit} {d : NiMap}
    (hload : loadSection buf o data = some d) (hlast : ofld o 72 72 = 0) :
    NiAfter u ni d pend s (t.nodeLoad u o data) := by
  unfold State.nodeLoad
  rw [h.buf, hload]
  dsimp only
  rw [hlast]
  have hafter := h.modCore fun c => { c with loadBuf := d }
  dsimp only at hafter
  rwa [h.ni, h.pend] at hafter

/-- The packet with LAST passes the loaded map on to the NI. -/
theorem NiAfter.nodeLoad_last (h : NiAfter u ni buf pend s t) {o : BitVec 96} {data : List Flit} {d : NiMap}
    (hload : loadSection buf o data = some d) (hlast : ofld o 72 72 = 1) :
    NiAfter u ni d (pend ++ [(BitVec.ofNat 8 opMAP_LOAD, o)]) s (t.nodeLoad u o data) := by
  unfold State.nodeLoad
  rw [h.buf, hload]
  dsimp only
  rw [hlast]
  refine NiAfter.routerSet ?_ _ 2
  have hload' := h.modCore fun c => { c with loadBuf := d }
  dsimp only at hload'
  rw [h.ni, h.pend] at hload'
  have hafter := hload'.modCore fun c =>
    { c with niPend := c.niPend ++ [(BitVec.ofNat 8 opMAP_LOAD, o)], nodeGen := BitVec.ofNat 16 (ofld o 71 56) }
  dsimp only at hafter
  rwa [hload'.ni, hload'.buf, hload'.pend] at hafter

end

end Sys2Proof.Machine
end


section
/-! PROOF. REINIT loads the map of a tile anew from the hub (R225, R265). -/

namespace Sys2Proof.Machine

section
variable {u : Nat} {ni buf : NiMap} {pend : List (BitVec 8 × BitVec 96)} {s t : State}

/-! ### The NI applies a load (R257, R262) -/

theorem NiAfter.resolve (h : NiAfter u ni buf pend s t) (x : Xfer) : NiAfter u ni buf pend s (t.resolve u x) := by
  by_cases hheld : (t.tile u).core.ni.holds x
  · rw [State.resolve_of_held hheld]
    have hwaits : NiAfter u ni buf pend s (t.waitsWhole u x) := h.modOther fun _ => ⟨rfl, rfl, rfl⟩
    exact hwaits.of_changes (OnlyChanges.unitRing _ u uNI .wait 3) (by simp) (by simp)
  · rw [State.resolve_of_unheld hheld]
    have hends : NiAfter u ni buf pend s (t.endsFenced u x) := h.modOther fun _ => ⟨rfl, rfl, rfl⟩
    split
    next => exact hends
    next =>
      rw [State.formHeader_eq]
      refine NiAfter.of_reports ?_ (.headerSent (.refl headerParts [u] _) (by simp)) (by simp)
      refine NiAfter.modOther ?_ fun _ => ⟨rfl, rfl, rfl⟩
      exact hends.of_reports (.lineageSend (.refl headerParts [u] _) (by simp) (by simp)) (by simp)

theorem NiAfter.resolveAgain (h : NiAfter u ni buf pend s t) : NiAfter u ni buf pend s (t.resolveAgain u) := by
  unfold State.resolveAgain
  dsimp only
  split
  next => exact h
  next =>
    refine List.foldlRecOn (motive := NiAfter u ni buf pend s) _ _ (h.modOther fun _ => ⟨rfl, rfl, rfl⟩)
      fun r hr w _ => ?_
    refine NiAfter.resolve (NiAfter.of_changes ?_ (OnlyChanges.unitRing _ u uNI .resume 0) (by simp) (by simp)) _
    split
    next => exact hr
    next => exact hr.of_changes (OnlyChanges.bump _ _ _) (by simp) (by simp)

theorem NiAfter.drainReply (h : NiAfter u ni buf pend s t) : NiAfter u ni buf pend s (t.drainReply u) := by
  unfold State.drainReply
  dsimp only
  split
  next => exact h
  next =>
    refine NiAfter.of_changes ?_ (OnlyChanges.foldl _ (fun r _ => OnlyChanges.reply r u rDONE) _ _) (by simp) (by simp)
    exact h.modOther fun _ => ⟨rfl, rfl, rfl⟩

/-- The NI takes the loaded map over, under the generation of the load. -/
theorem NiAfter.niApplyAll {o : BitVec 96} (h : NiAfter u ni buf [(BitVec.ofNat 8 opMAP_LOAD, o)] s t) :
    NiAfter u { buf with gen := BitVec.ofNat 16 (ofld o 71 56) } buf [] s (t.niApplyAll u) := by
  have happly := h.modCore Core.niApply
  have hcore : (t.tile u).core.niApply =
      { (t.tile u).core with
        niPend := [], ni := { (t.tile u).core.loadBuf with gen := BitVec.ofNat 16 (ofld o 71 56) } } := by
    unfold Core.niApply
    rw [h.pend]
    rfl
  rw [hcore] at happly
  dsimp only at happly
  rw [h.buf] at happly
  unfold State.niApplyAll
  rw [h.pend]
  exact happly.resolveAgain.drainReply

/-! ### A full load (R265) -/

section
variable {m : NiMap}

/-- The map section is loaded. -/
theorem NiAfter.mapSections (h : NiAfter u ni buf pend s t) (hregions : m.inRegions) {n : Nat} (hn : n ≤ 16) :
    ∃ d, NiAfter u ni d pend s (((List.range n).map (mapPacket m)).foldl (fun s p => s.nodeLoad u p.1 p.2) t) ∧
      m.loadedTo buf (66 * n) d := by
  induction n with
  | zero => exact ⟨buf, h, fun l hl => by omega, rfl, rfl⟩
  | succ n ih =>
    obtain ⟨c, hc, hloaded⟩ := ih (by omega)
    obtain ⟨d, hload, hd⟩ := loadSection_mapPacket hregions (by omega) hloaded
    refine ⟨d, ?_, hd⟩
    rw [List.range_succ, List.map_append, List.foldl_append]
    exact hc.nodeLoad hload loadOperand_last

/-- Map `d` has the entries and the vectors of map `m`. -/
structure NiMap.SameMap (m d : NiMap) : Prop where
  phys : ∀ l, l < numLogical → d.phys l = m.phys l
  held : ∀ l, l < numLogical → d.held l = m.held l
  fenced : ∀ v, v < numTiles → d.fenced v = m.fenced v

/-- All the packets of a load leave the map in the load buffer, and the load with its generation before the NI. -/
theorem NiAfter.fullLoad (h : NiAfter u ni buf [] s t) (hregions : m.inRegions) :
    ∃ d o, NiAfter u ni d [(BitVec.ofNat 8 opMAP_LOAD, o)] s
        ((mapPackets m).foldl (fun s p => s.nodeLoad u p.1 p.2) t) ∧
      m.SameMap d ∧ BitVec.ofNat 16 (ofld o 71 56) = m.gen := by
  obtain ⟨c, hc, hphys, hfence, hhold⟩ := h.mapSections hregions (le_refl 16)
  obtain ⟨c1, hload1, hphys1, hhold1, hfence1⟩ := loadSection_fence m c m.gen false (.inl rfl)
  obtain ⟨c2, hload2, hphys2, hhold2, hfence2⟩ := loadSection_fence m c1 m.gen false (.inr rfl)
  obtain ⟨c3, hload3, hphys3, hfence3, hhold3⟩ := loadSection_hold m c2 m.gen false (.inl rfl)
  obtain ⟨d, hload4, hphys4, hfence4, hhold4⟩ := loadSection_hold m c3 m.gen true (.inr rfl)
  refine ⟨d, (bitPacket m.gen m.hold.toNat 2 numLogical true 768).1, ?_,
    ⟨fun l hl => ?_, fun l hl => ?_, fun v hv => ?_⟩, loadOperand_gen⟩
  · rw [mapPackets_eq, List.foldl_append]
    exact (((hc.nodeLoad hload1 loadOperand_last).nodeLoad hload2 loadOperand_last).nodeLoad hload3
      loadOperand_last).nodeLoad_last hload4 loadOperand_last
  · rw [hphys4, hphys3, hphys2, hphys1, hphys l (show l < 66 * 16 from hl.trans (by decide)) hl]
  · have hl' : l < 1024 := hl
    rw [hhold4, hhold3]
    by_cases hsplit : l < 768
    · rw [if_neg (by omega), if_pos ⟨by omega, show l < 0 + 768 by omega⟩]
    · rw [if_pos ⟨by omega, show l < 768 + 256 by omega⟩]
  · have hv' : v < 1152 := hv
    rw [NiMap.fenced, hfence4, hfence3, ← NiMap.fenced, hfence2, hfence1]
    by_cases hsplit : v < 768
    · rw [if_neg (by omega), if_pos ⟨by omega, show v < 0 + 768 by omega⟩]
    · rw [if_pos ⟨by omega, show v < 768 + 384 by omega⟩]

end

/-- The map of a node is loaded anew from the hub. -/
theorem NiAfter.mapReload (h : NiAfter u ni buf pend s t) (hregions : t.map.hub.inRegions) :
    ∃ d e, NiAfter u d e [] s (t.mapReload u) ∧ t.map.hub.SameMap d ∧ d.gen = t.map.hub.gen := by
  have hstart := h.modCore fun c => { c with niPend := [], loadBuf := { c.loadBuf with rel := t.map.hub.rel } }
  obtain ⟨d, o, hload, hsame, hgen⟩ := hstart.fullLoad (m := t.map.hub) hregions
  exact ⟨_, d, hload.niApplyAll, ⟨hsame.phys, hsame.held, hsame.fenced⟩, hgen⟩

/-! ### The rest of REINIT (R224, R225) -/

theorem OnlyChanges.restoreImage (s : State) (u : Nat) : OnlyChanges [.stack] s (s.restoreImage u) :=
  fun p hp => by cases p <;> simp_all [Same, State.restoreImage]

theorem OnlyChanges.emptySeals (s : State) (u : Nat) : OnlyChanges [.stack] s (s.emptySeals u) :=
  fun p hp => by cases p <;> simp_all [Same, State.emptySeals]

/-- The session before the restore: the rows that were bad before it are kept, and those that it found are noted. -/
def State.rowsNoted (s : State) (u : Nat) : State :=
  (s.modChisel u fun c => { c with oldBad := c.rowBad, oldMap := c.rowMap }).modChisel u fun c =>
    if c.abort == 0 then c.addBad c.node.rowBad else c

theorem State.rowsNoted_state (s : State) (u : Nat) :
    ((s.rowsNoted u).tile u).chisel.state = (s.tile u).chisel.state := by
  rw [State.rowsNoted, State.tile_modChisel_self, State.tile_modChisel_self]
  split <;> rfl

theorem OnlyTiles.rowsNoted (s : State) (u : Nat) : OnlyTiles [u] s (s.rowsNoted u) :=
  (OnlyTiles.modChisel s u _).trans (OnlyTiles.modChisel _ u _)

/-- REINIT leaves the hub's map in the NI of the tile. -/
theorem NiAfter.chiselRestore (hregions : s.map.hub.inRegions) :
    ∃ d e, NiAfter u d e [] (s.rowsNoted u) (s.chiselRestore u) ∧ s.map.hub.SameMap d ∧ d.gen = s.map.hub.gen := by
  obtain ⟨d, e, hload, hsame, hgen⟩ := (NiAfter.refl u (s.rowsNoted u)).mapReload hregions
  refine ⟨d, e, ?_, hsame, hgen⟩
  unfold State.chiselRestore
  dsimp only
  split
  next =>
    exact NiAfter.modOther ((hload.modMaq _).of_changes (OnlyChanges.restoreImage _ u) (by simp) (by simp))
      fun _ => ⟨rfl, rfl, rfl⟩
  next =>
    split
    next =>
      exact NiAfter.modOther ((hload.modMaq _).of_changes (OnlyChanges.emptySeals _ u) (by simp) (by simp))
        fun _ => ⟨rfl, rfl, rfl⟩
    next => exact hload.modMaq _

theorem State.castLateAt_of_none (h : s.logical u = none) : s.castLateAt u = s := by
  rw [State.castLateAt, h]

/-- A tile that carries no logical tile has the map of the hub after REINIT. -/
theorem exec_reinitDone_reloads (hready : s.ready = true) (hu : u < numTiles) (hstate : (s.tile u).chisel.state = 9)
    (hfinish : (s.tile u).chisel.node.finish ≠ 0) (hopen : (s.tile u).chisel.reinit = none)
    (hlogical : s.logical u = none) (hregions : s.map.hub.inRegions) (stuck : Option Nat) :
    ∃ t, exec (.reinitDone u stuck) s = .next t ∧ OnlyTiles [u] s t ∧ (t.tile u).chisel.reinit = some stuck ∧
      (t.tile u).chisel.state = 9 ∧ s.map.hub.SameMap (t.tile u).core.ni ∧ (t.tile u).core.ni.gen = s.map.hub.gen := by
  obtain ⟨d, e, hrestored, hsame, hgen⟩ := NiAfter.chiselRestore (u := u) hregions
  have hcarried : (s.chiselRestore u).logical u = none := by
    rw [State.logical, hrestored.map]
    exact hlogical
  have heq : exec (.reinitDone u stuck) s = .next ((s.chiselRestore u).reinitSaid u stuck) := by
    rw [exec_reinitDone hready hu stuck, State.reinitDone_of_finished hstate hfinish hopen stuck,
      State.castLateAt_of_none hcarried]
  have htile : ((s.chiselRestore u).reinitSaid u stuck).tile u =
      { (s.chiselRestore u).tile u with
        chisel := { ((s.chiselRestore u).tile u).chisel with reinit := some stuck } } := by
    rw [State.reinitSaid, State.tile_chiselSay, State.tile_modChisel_self]
  refine ⟨_, heq, fun v hv => ?_, State.reinitSaid_reinit _ u stuck, ?_, ?_, ?_⟩
  · rw [State.reinitSaid, State.tile_chiselSay, OnlyTiles.modChisel _ _ _ v hv, hrestored.tiles v hv,
      OnlyTiles.rowsNoted s u v hv]
  all_goals rw [htile]
  · exact (congrArg ChiselTile.state hrestored.chisel).trans ((s.rowsNoted_state u).trans hstate)
  · rwa [hrestored.ni]
  · rwa [hrestored.ni]

end

end Sys2Proof.Machine
end


section
/-! PROOF. Segment results, their verdicts, and the end of a session: O49 (R217 to R220, R225, R235 to R239, R247). -/

namespace Sys2Proof.Machine

section
variable {s t : State} {u k g : Nat} {x : Slot}

theorem State.StructJudged.passes (h : s.StructJudged t u g .pass) (hg : g < 16) :
    (t.tile u).chisel.passed.getLsbD g = true ∧ (t.tile u).chisel.failed = (s.tile u).chisel.failed := by
  refine ⟨?_, h.failed⟩
  rw [h.passed, if_pos rfl, BitVec.getLsbD_or, getLsbD_mask16_self hg, Bool.or_true]

theorem State.StructJudged.fails (h : s.StructJudged t u g .fail) (hg : g < 16) :
    (t.tile u).chisel.failed.getLsbD g = true ∧ (t.tile u).chisel.passed = (s.tile u).chisel.passed := by
  refine ⟨?_, h.passed⟩
  rw [h.failed, if_pos rfl, BitVec.getLsbD_or, getLsbD_mask16_self hg, Bool.or_true]

/-- When every segment of the list has its result, the tile is HOLDING. -/
theorem exec_chiselListDone_holding (hready : s.ready = true) (hu : u < numTiles) (hstate : (s.tile u).chisel.state = 7)
    (hsegs : (s.tile u).chisel.node.segs = 0) (hall : (s.tile u).chisel.list &&& ~~~(s.tile u).chisel.got = 0) :
    ∃ t, exec (.chiselListDone u) s = .next t ∧ OnlyChanges [.tiles, .arm] s t ∧ OnlyTiles [u] s t ∧
      (t.tile u).chisel = { (s.tile u).chisel with state := 8, seg := 0xF } := by
  have heq := exec_chiselListDone hready hu
  rw [State.chiselListDone_of_all hstate hsegs hall] at heq
  refine ⟨_, heq, ?_, fun v hv => ?_, ?_⟩
  · exact ((OnlyChanges.modChisel s u _).mono (by simp)).trans ((OnlyChanges.chiselSay _ u _ _ _).mono (by simp))
  · rw [State.tile_chiselSay, State.listEnded, OnlyTiles.modChisel _ _ _ v hv]
  · rw [State.tile_chiselSay, State.listEnded, State.tile_modChisel_self]

end

/-- Settles O49, clause by clause: what each verdict does to the row of a tile, REINIT by the packets of a full
MAP_LOAD, and the end of a session by what its report and its release change. -/
theorem chiselResults : Obligations.ChiselResults := by
  unfold Obligations.ChiselResults
  refine ⟨fun u k x r s hready hu hslot hrole hstate hseg hvoid h8 h12 h10 hhead => ?structural,
    fun u k x r s hready hu hslot hrole hstate hseg hvoid h12 hhead => ?march,
    fun u k x r s hready hu hslot hrole hne hstate hseg hvoid h8 h2 hhead hother hfull =>
      exec_segmentResult_cross hready hu hslot hrole hne hstate hseg hvoid h8 h2 hhead hother hfull,
    fun u k x r s hready hu hslot hrole hstate hseg hvoid hlt hhead =>
      exec_segmentResult_void hready hu hslot hrole hstate hseg hvoid hlt hhead,
    fun u s hready hu hstate hsegs hall => exec_chiselListDone_holding hready hu hstate hsegs hall,
    fun u k x s hready hu hslot hover => ⟨exec_sessionMaxExpiry_running hready hu hslot hover,
      exec_sessionMaxExpiry_finish hready hu hslot hover⟩,
    fun u k g x s hready hu hslot hrole hne hundec hg hnone hstate hover hdispute hskip hsent =>
      exec_witnessWaitExpiry_undone hready hu hslot hrole hne hundec hg hnone hstate hover hdispute
        (fun i => (hskip i).1) hsent,
    fun u stuck s hready hu hstate hfinish hopen hlogical hregions => ?reinit,
    fun u k x s hready _ hslot hrole hstate hreinit _ habort hfailed hundone hlist hrows hmain hretire hpend hfence
      hlogical horders hreset => ?sessionEnd,
    fun u s hcast hslots => State.chiselEndAll_of_one hcast hslots⟩
  case structural =>
    obtain ⟨t, heq, hjudged, hsram⟩ :=
      exec_segmentResult_struct hready hu hslot hrole hstate hseg hvoid h8 h12 h10 hhead
    refine ⟨t, heq, hjudged.parts, hjudged.tiles, hjudged.got, hsram, fun hright => ?_, fun hwrong => ?_⟩
    · rw [if_pos hright] at hjudged
      exact hjudged.passes (by omega)
    · rw [if_neg hwrong] at hjudged
      exact hjudged.fails (by omega)
  case march =>
    obtain ⟨t, heq, hjudged, hseals⟩ :=
      exec_segmentResult_march hready hu hslot hrole hstate (hseg.trans h12.symm) hvoid h12 (h12 ▸ hhead)
    rw [h12] at hjudged
    refine ⟨t, heq, hjudged.tiles, ?_, fun hbad => ?_, hseals⟩
    · by_cases hgood : r.march = none
      · rw [if_pos hgood] at hjudged
        simp [hgood, (hjudged.passes (by decide)).1]
      · rw [if_neg hgood] at hjudged
        simp [hgood, (hjudged.fails (by decide)).2]
    · rw [if_neg hbad] at hjudged
      exact (hjudged.fails (by decide)).1
  case reinit =>
    obtain ⟨t, heq, htiles, hreinit, hstate', hsame, hgen⟩ :=
      exec_reinitDone_reloads hready hu hstate hfinish hopen hlogical hregions stuck
    exact ⟨t, heq, htiles, hreinit, hstate', fun l hl => ⟨hsame.phys l hl, hsame.held l hl⟩, hsame.fenced, hgen⟩
  case sessionEnd =>
    have hpass : (s.tile u).chisel.outcome = 0 := ChiselTile.outcome_of_passed habort hfailed hundone hlist
    obtain ⟨hidle, hstop, hended, hlast, hcount⟩ :=
      State.tile_sessionPassed (k := k) (p := x.other) hpass (State.frozen_of_ready hready) hreset
    dsimp only
    rw [State.chiselEnd_eq_sessionPassed hslot hrole hstate hreinit hpass hfailed hrows hmain hretire hpend hfence
      hlogical horders]
    exact ⟨OnlyTiles.sessionPassed hpass, hidle, hstop, hended, hlast, State.slot_sessionPassed,
      ⟨_, State.ev_sessionPassed hpass, rfl, rfl⟩, hcount, State.reg_sessionPassed hpass⟩

end Sys2Proof.Machine
end
